-- ==== Sys2Proof/Syntax.lean ====
section
/-!
DEFINITION. The commands of the block: one constructor of `Instr` for each row of spec/opcode_table.json, in the table's
order, with the operands the row's rule gives it, and the operand types.
-/
set_option Elab.async false
namespace Sys2Proof

/-- A master ID (R29). -/
abbrev Master := BitVec 24
/-- A host port, 0 to 7 (R39). -/
abbrev HPort := Fin 8
/-- A sub-link of a downstream port (R39). -/
abbrev SubLink := Fin 4
/-- A fabric port, 0 to 143 (R20). -/
abbrev FPort := Fin 144
/-- A fabric lane, 0 to 287 (R21). -/
abbrev Lane := Fin 288
/-- A handler core, 0 to 63. -/
abbrev CoreId := Fin 64
/-- A semaphore, 0 to 63. -/
abbrev SemId := Fin 64
/-- A scratchpad bank, 0 to 63. -/
abbrev BankId := Fin 64
/-- A block index, 0 to 19 (R32). -/
abbrev BlkId := Fin 20
/-- A function of a host port: 0 the physical function, 1 to 256 a virtual function (R29, R46). -/
abbrev Fn := Fin 257
/-- Virtual function v of a port, as v − 1. -/
abbrev Vf := Fin 256
/-- A flit (64 bytes). -/
abbrev Flit := BitVec 512
/-- A 64-byte descriptor, byte 0 in bits [7:0] (R88). -/
abbrev Descriptor := BitVec 512

/-- How much of a register an access reaches (R11). -/
inductive AccSize where
  | full | lo | hi
  deriving DecidableEq, Repr

/-- A register write: the part reached and the value, already placed in the bits of that part. -/
structure WVal where
  acc : AccSize
  val : Word
  deriving DecidableEq, Repr

/-- The size of an access to the register space: 8 bytes, 4 bytes, or byte enables that select neither (R11). -/
inductive ReqSize where
  | w64 | w32 | odd
  deriving DecidableEq, Repr

/-- A doorbell page (R36, R47). -/
inductive DbPage where
  | ctx (c : Nat)
  | vf (p : HPort) (v : Vf) (i : Nat)
  deriving DecidableEq, Repr

/-- Where a register write goes: an offset of the register space (R11), of a virtual function's own page (R48), or of a doorbell
page (R76). -/
inductive RegPlace where
  | space (off : BitVec 26)
  | vfPage (p : HPort) (v : Vf) (off : BitVec 16)
  | dbPage (pg : DbPage) (off : BitVec 12)
  deriving DecidableEq, Repr

/-- A packet: its 32-byte header (R237) and the bytes that follow it. -/
structure Packet where
  hdr : BitVec 256
  bytes : List Byte
  deriving DecidableEq, Repr

/-- A link block as it stands on the link (R291): four flits, the sideband slot, the tags and the CRC. -/
structure LinkBlock where
  flit0 : Flit
  flit1 : Flit
  flit2 : Flit
  flit3 : Flit
  slot : BitVec 16
  tags : BitVec 16
  crc : BitVec 32
  deriving DecidableEq, Repr

/-- The handle of a descriptor named by its context and its ring index (slot and lap, R19, R74). -/
structure HandleRef where
  ctx : Nat
  index : Nat
  deriving DecidableEq, Repr

/-- The operation of a peer record: local context, remote endpoint and sequence number (R175). -/
structure OpRef where
  ctx : Nat
  remote : Nat
  osn : Nat
  deriving DecidableEq, Repr

/-- What a configuration request asks of a function (R45, R60). -/
inductive CfgReq where
  | read (dword : Nat)
  | writeBusMaster (en : Bool)
  | writeVfEnable (en : Bool) (numVfs : Nat)
  | writeIdo (en : Bool)
  | writeAtomicReq (en : Bool)
  | writeAer (dword : Nat) (val : BitVec 32)
  | writeOther (dword : Nat) (val : BitVec 32)
  deriving DecidableEq, Repr

/-- What a device on a downstream sub-link tells of itself (R70, R71): its CXL type, 0 for none; the persistent capacity in
MiB; Global Persistent Flush support; the duration of its Phase 2 in microseconds; the Dirty Shutdown Count of its health
information. -/
structure SubDevice where
  type : Nat
  persistMib : Nat
  gpf : Bool
  phase2Us : Nat
  dirty : Nat
  deriving DecidableEq, Repr

/-- What a link's training ends with beside its width: the speed, and what a device at the sub-link tells (R40, R70). -/
structure LinkEnd where
  speed : Nat
  dev : Option SubDevice
  deriving DecidableEq, Repr

/-- An access of a virtual function's page: the offset in it and the size (R48). -/
structure PageAccess where
  off : BitVec 16
  size : ReqSize
  deriving DecidableEq, Repr

/-- How the test of a scratchpad slice ended: whether it passed, and how many of the bank's repairs it used (R345, R378). -/
structure SliceTest where
  pass : Bool
  repaired : Nat
  deriving DecidableEq, Repr

/-- What is sampled as PWRGOOD rises: ADDR_SEL (R484) and the rails that are in tolerance (R474). -/
structure PowerUp where
  addrSel : Nat
  rails : BitVec 13
  deriving DecidableEq, Repr

/-- The fuses that SEC uses: the seed (R423), the lowest svn, and the SHA-512 in each key slot that is programmed and not
revoked (R421). -/
structure FuseKeys where
  seed : BitVec 256
  svnMin : Nat
  vendorKeys : List (BitVec 512)
  ownerKeys : List (BitVec 512)
  deriving DecidableEq, Repr

/-- What the production fuses hold: the stepping, the seed (R423), the lowest svn, the SHA-512 in each key slot that is programmed
and not revoked (R421), and the production repairs of scratchpad banks (R345). -/
structure Fuses where
  stepping : Nat
  seed : BitVec 256
  svnMin : Nat
  vendorKeys : List (BitVec 512)
  ownerKeys : List (BitVec 512)
  spdRepairs : List (Nat × Nat)
  deriving DecidableEq, Repr

/-- What the boot firmware reads of the persistent target (R394, R403): whether its reads succeed, the two superblock copies,
and the bytes of the ring from tail_off to the end of the last record. -/
structure JournalRead where
  readable : Bool
  copies : List (List Byte)
  ring : List Byte
  deriving DecidableEq, Repr

/-- How a request on a downstream sub-link ended (R67). -/
inductive DsResult where
  | ok (data : Word)
  | unsupported
  | abort
  | retryStatus
  | poisoned
  deriving DecidableEq, Repr

/-- An inbound request of a downstream device (R68). -/
inductive DsInbound where
  | msi
  | memory
  | intx
  deriving DecidableEq, Repr

/-- A host access to an aperture of memory (R36). -/
inductive MemOp where
  | read (len : Nat)
  | write (bytes : List Byte)
  deriving DecidableEq, Repr

/-- How a host request of the device ended: the data, or an error status. -/
inductive HostResult where
  | ok (bytes : List Byte)
  | error
  deriving DecidableEq, Repr

/-- Which re-send timer expired (R181): that of an initiator's handle, or of a bound receive's pulls. -/
inductive ResendRef where
  | handle (h : HandleRef)
  | pull (h : HandleRef)
  deriving DecidableEq, Repr

/-- The contents of a training frame (R273): the tap request, and the status bits. -/
structure TrainFrame where
  tap : Nat
  request : Nat
  response : Nat
  ready : Bool
  width1 : Bool
  survivor : Nat
  lane : Nat
  /-- The frame arrives with its levels inverted (R268). -/
  inverted : Bool
  deriving DecidableEq, Repr

/-- An alignment marker as received (R278, R279): the lane and port it names, its count, and the lane's delay in units of
0.25 ns. -/
structure Marker where
  lane : Nat
  port : Nat
  amCount : Nat
  skew : Nat
  deriving DecidableEq, Repr

/-- A port-A access, at a scratchpad offset, that falls in the same slots as a BAR4 access (R341). -/
structure PortAUse where
  off : Nat
  op : MemOp
  deriving DecidableEq, Repr

/-- A record of the Reservoir journal (R396), as reported and as read back at replay. -/
inductive JRec where
  | ctxOpen (ctx : Nat) (cfg : BitVec 512)
  | ctxState (ctx state fetch post head postStamp presStamp : Nat)
  | handleAssign (ctx index tag time : Nat) (desc : Descriptor)
  | handleDone (ctx index tag status detail byteCount post : Nat) (result : Word)
  | window (entry gen : Nat) (active pending : Bool) (img0 img1 : BitVec 192)
  | xlt (first : Nat) (entries : List Word)
  | peer (remote ctx floor nextMsn expectedMsn : Nat)
  | oprec (remote ctx osn state pkind : Nat) (regwin : Bool) (status detail window gen total : Nat)
      (result : BitVec 128)
  | counter (n cfg : Nat) (value : Word) (fail mirror : Nat)
  | matchAdd (kind cls ctx comm rank tag stamp handle addr size msn arrived total : Nat) (pull heldSend : Bool)
      (bufKind : Nat)
  | matchDel (ctx cls stamp src msn : Nat)
  | bind (recvCtx recvIndex sendHandle src : Nat) (pull : Bool) (msn length : Nat)
  | pad
  | cycle (n : Nat) (start : Bool)
  | sealed (time cause dsc : Nat)
  deriving DecidableEq, Repr

/-- The commands of the Sornov S48, in the order of spec/opcode_table.json. -/
inductive Instr where
  | registerWrite (m : Master) (place : RegPlace) (size : ReqSize) (val : Word)
  | nodeCoordWrite (m : Master) (w : WVal)
  | setupDoneWrite (m : Master) (w : WVal)
  | hostLinkTrained (p : HPort) (s : SubLink) (width : Nat) (link : LinkEnd)
  | portCfgWrite (m : Master) (p : HPort) (w : WVal)
  | portSetupExit (m : Master) (p : HPort)
  | portResetCmd (m : Master) (p : HPort)
  | hotReset (p : HPort)
  | perstAssert (p : HPort)
  | perstDeassert (p : HPort)
  | hostDlDown (p : HPort)
  | configRequest (p : HPort) (f : Fn) (req : CfgReq)
  | flrInitiate (p : HPort) (f : Fn)
  | flrComplete (p : HPort) (f : Fn)
  | vfRegDataRead (p : HPort) (v : Vf) (acc : PageAccess)
  | vfRegDataWrite (p : HPort) (v : Vf) (size : ReqSize) (val : Word)
  | vfTblDataRead (m : Master) (p : HPort) (size : ReqSize)
  | vfTblDataWrite (m : Master) (p : HPort) (w : WVal)
  | intxAck (m : Master) (p : HPort) (w : WVal)
  | msixEnableChange (p : HPort) (f : Fn) (en : Bool)
  | intxDisableChange (p : HPort) (dis : Bool)
  | slotPowerOff (m : Master) (p : HPort) (s : SubLink) (w : WVal)
  | slotPowerOn (m : Master) (p : HPort) (s : SubLink) (w : WVal)
  | slotPowerRemove (p : HPort) (s : SubLink)
  | slotPerstRelease (p : HPort) (s : SubLink)
  | presenceChange (p : HPort) (s : SubLink) (present : Bool)
  | dllActiveChange (p : HPort) (s : SubLink) (active : Bool) (width : Nat) (link : LinkEnd)
  | powerFault (p : HPort) (s : SubLink)
  | attentionButton (p : HPort) (s : SubLink)
  | dsCfgRead (m : Master) (p : HPort) (s : SubLink)
  | dsCfgWrite (m : Master) (p : HPort) (s : SubLink) (w : WVal)
  | dsCfgComplete (p : HPort) (s : SubLink) (r : DsResult)
  | dsMemRead (m : Master) (p : HPort) (s : SubLink)
  | dsMemWrite (m : Master) (p : HPort) (s : SubLink) (w : WVal)
  | dsMemComplete (p : HPort) (s : SubLink) (r : DsResult)
  | dsAccessTimeout (p : HPort) (s : SubLink)
  | dsInboundRequest (p : HPort) (s : SubLink) (k : DsInbound)
  | hdmCfgWrite (m : Master) (p : HPort) (s : SubLink) (w : WVal)
  | doorbellTail (m : Master) (pg : DbPage) (v : Word)
  | cqHeadWrite (m : Master) (pg : DbPage) (v : Word)
  | cqArm (m : Master) (pg : DbPage) (v : Word)
  | inlineDoorbell (m : Master) (pg : DbPage) (d : Option Descriptor)
  | descriptorFetch (c : Nat)
  | descriptorReturn (c : Nat) (ds : List Descriptor)
  | nop (h : HandleRef)
  | put (h : HandleRef)
  | get (h : HandleRef)
  | atomic (h : HandleRef)
  | send (h : HandleRef)
  | recvPost (h : HandleRef)
  | recvCancel (h : HandleRef)
  | collBroadcast (h : HandleRef)
  | collReduce (h : HandleRef)
  | collAllreduce (h : HandleRef)
  | collReduceScatter (h : HandleRef)
  | collAllgather (h : HandleRef)
  | collBarrier (h : HandleRef)
  | fenceContext (h : HandleRef)
  | fenceTarget (h : HandleRef)
  | counterArm (h : HandleRef)
  | triggered (h : HandleRef)
  | semAcquireWait (h : HandleRef)
  | semTry (h : HandleRef)
  | semRelease (h : HandleRef)
  | handleQuery (m : Master) (w : WVal)
  | ctxRead (m : Master)
  | ctxOpen (m : Master)
  | ctxClose (m : Master)
  | contextClosed (c : Nat)
  | contextFill (c : Nat)
  | windowCommit (m : Master) (w : WVal)
  | pendingCommitApply (idx : Nat)
  | pinLimitExpire (op : OpRef)
  | xltEntryWrite (m : Master) (w : WVal)
  | loaderStart (m : Master) (w : WVal)
  | loaderEntry (e : Option Word)
  | syncStart (m : Master)
  | syncDone
  | fmemHostAccess (p : HPort) (addr : Nat) (op : MemOp)
  | sendHoldRelease (h : HandleRef)
  | sendPacketArrival (pkt : Packet)
  | pullRequestArrival (pkt : Packet)
  | pullResponseArrival (pkt : Packet)
  | finishNoticeArrival (pkt : Packet)
  | placementReportArrival (pkt : Packet)
  | withdrawalArrival (pkt : Packet)
  | withdrawalAnswerArrival (pkt : Packet)
  | matRefusalArrival (pkt : Packet)
  | firmwareProbeResult (c : Nat)
  | busyRetryExpire (h : HandleRef)
  | recvHoldRelease (c : Nat)
  | orderReset (m : Master) (w : WVal)
  | putDataArrival (pkt : Packet)
  | getRequestArrival (pkt : Packet)
  | getResponseArrival (pkt : Packet)
  | fetchAdd (pkt : Packet)
  | fetchAnd (pkt : Packet)
  | fetchOr (pkt : Packet)
  | fetchXor (pkt : Packet)
  | swap (pkt : Packet)
  | cswap (pkt : Packet)
  | fetchMinS (pkt : Packet)
  | fetchMaxS (pkt : Packet)
  | fetchMinU (pkt : Packet)
  | fetchMaxU (pkt : Packet)
  | fetchAddF64 (pkt : Packet)
  | cswap128 (pkt : Packet)
  | atomicopCompletion (op : OpRef) (r : HostResult)
  | atomicResponseArrival (pkt : Packet)
  | putResponseArrival (pkt : Packet)
  | refusalArrival (pkt : Packet)
  | resendTimerExpire (r : ResendRef)
  | operationTimeout (h : HandleRef)
  | ctrValueWrite (m : Master) (w : WVal)
  | ctrWordWrite (m : Master) (n : Fin 4096) (w : WVal)
  | cscDataArrival (pkt : Packet)
  | stepEndArrival (pkt : Packet)
  | rerequestArrival (pkt : Packet)
  | abortArrival (pkt : Packet)
  | rerequestTimerExpire (h : HandleRef) (step seg : Nat)
  | stagingAvailable
  | groupCfgWrite (m : Master) (w : WVal)
  | groupMaskWrite (m : Master) (w : WVal)
  | portMapWrite (m : Master) (p : FPort) (w : WVal)
  | linkBlockArrival (p : FPort) (b : LinkBlock) (bad : Bool)
  | linkBlockSend (p : FPort)
  | escapeWaitExpire (id : Nat)
  | holdExpire (id : Nat)
  | heldPacketRoute (id : Nat)
  | retentionExpire (p : FPort)
  | bankDataWrite (m : Master) (w : WVal)
  | epochFlip (m : Master) (w : WVal)
  | lineStateNotice (pkt : Packet)
  | lineStateTimer
  | hintRefresh
  | urgentTokenGrant
  | laneReset (m : Master) (l : Lane)
  | laneSetupExit (m : Master) (l : Lane)
  | laneRetire (m : Master) (l : Lane)
  | trainingFrame (l : Lane) (f : TrainFrame)
  | signalDetect (l : Lane)
  | trainingTimeout (l : Lane)
  | eyeWindowEnd (l : Lane) (means : List Int) (sigmas : List Nat)
  | codewordReceive (p : FPort) (symbols : List (BitVec 10))
  | alignmentMarker (l : Lane) (mk : Option Marker)
  | alignTimeout (p : FPort)
  | signalLoss (l : Lane)
  | m2CharacterReceive (l : Lane) (ch : BitVec 10)
  | m2Slip (m : Master) (l : Lane)
  | testCfgWrite (m : Master) (l : Lane) (w : WVal)
  | injectStart (m : Master) (l : Lane) (w : WVal)
  | txEqWrite (m : Master) (l : Lane) (w : WVal)
  | nakRepeatTimer (p : FPort)
  | replayTimeout (p : FPort)
  | creditTimeout (p : FPort) (pool : Fin 9)
  | hello (p : FPort) (f : Flit)
  | admitNonce (p : FPort) (f : Flit)
  | admitProof (p : FPort) (f : Flit)
  | admitVerdict (p : FPort) (f : Flit)
  | poison (p : FPort) (f : Flit)
  | time (p : FPort) (f : Flit) (recvStamp : Nat)
  | resetReq (p : FPort) (f : Flit)
  | resetAck (p : FPort) (f : Flit)
  | resetAckTimeout (p : FPort)
  | canaryTick (p : FPort)
  | linkResetCmd (m : Master) (p : FPort)
  | lnkSetupExit (m : Master) (p : FPort)
  | lnkEnterSetup (m : Master) (p : FPort)
  | bringupStepTimeout (p : FPort)
  | bringupRetry (p : FPort)
  | timeSendTimer (p : FPort)
  | handlerDispatch
  | triggerQueueRelease
  | handlerEcall (c : CoreId)
  | handlerBudgetExpire (c : CoreId)
  | handlerException (c : CoreId) (mtval : Word)
  | tlbMiss (c : CoreId) (va : Word) (acc : Nat)
  | tlbFill (c : CoreId) (entry : Word) (idx : Nat)
  | tlbLockFill (c : CoreId) (entry : Word) (idx : Nat) (pg : Word)
  | tlbRefuse (c : CoreId) (detail : Nat)
  | tlbInvalidatePage (c : CoreId) (va : Word)
  | tlbInvalidateContext (c : CoreId)
  | tlbInvalidateAll (c : CoreId)
  | tlbUnlockAll (c : CoreId)
  | tlbAgerTick
  | ipiSet (m : Master) (w : WVal)
  | timecmpMatch (c : CoreId)
  | coreReset (m : Master) (c : CoreId)
  | coreRetire (m : Master) (c : CoreId)
  | trigCfgWrite (m : Master) (w : WVal)
  | handlerMemRead (m : Master)
  | handlerMemWrite (m : Master) (w : WVal)
  | scratchpadHostAccess (p : HPort) (addr : Nat) (op : MemOp) (a : List PortAUse)
  | spdBusyRetry (off : Nat)
  | bankOwnerWrite (m : Master) (b : BankId) (w : WVal)
  | bankRetain (m : Master) (b : BankId)
  | retentionEntry (b : BankId)
  | bankWake (m : Master) (b : BankId)
  | bankWakeDone (b : BankId)
  | marchStart (m : Master) (w : WVal)
  | marchDone (fails : Word) (repairs : List (Nat × Nat))
  | semAcquireRead (m : Master) (n : SemId) (k : Fin 8) (size : ReqSize)
  | semReleaseWrite (m : Master) (n : SemId) (k : Fin 8) (w : WVal)
  | semForce (m : Master) (w : WVal)
  | grantWindowExpire (n : SemId)
  | faultWindowEnd (b : BlkId) (src : Nat)
  | escalationExpire (b : BlkId)
  | pseudoChannelCopyDone (c : Nat)
  | marchSliceDone (b : BankId) (test : SliceTest)
  | escActNow (m : Master) (b : BlkId) (w : WVal)
  | escWithdraw (m : Master) (b : BlkId) (w : WVal)
  | firstRecordClear (m : Master) (b : BlkId)
  | faultInjectStart (m : Master) (b : BlkId) (w : WVal)
  | faultInjectTick (b : BlkId)
  | sramError (b : BlkId) (uncorrectable : Bool)
  | hbmReadError (addr : Nat) (uncorrectable : Bool)
  | scratchpadEccError (addr : Nat) (uncorrectable : Bool)
  | cacheParityError (c : CoreId) (tlb : Bool)
  | crossbarError (p : FPort) (id : Nat)
  | cscUnitError (u : Fin 8)
  | journalWriteCompletion (ok : Bool)
  | restatementCycleEnd
  | lagRateTick (rate : Nat)
  | reportHoldRelease
  | pwrfailTaken
  | sealCmd (m : Master)
  | detachCmd (m : Master)
  | sealFlushComplete
  | replayComplete (readable : Bool) (ms : Nat)
  | quarantineExpire
  | resumePort (m : Master) (w : WVal)
  | pwrgoodRise (up : PowerUp)
  | bootFusesSensed (stepping : Nat) (keys : FuseKeys) (spdRepairs : List (Nat × Nat))
  | bootPllLocked
  | bootHeadersChecked (codeA codeB : Nat)
  | bootFirmwareVerified (code svn : Nat) (defaults : List (Nat × Word)) (timeRef : Bool)
  | hbmTrained
  | hbmZeroed
  | firmwareLoaded
  | bootRelease (journal : JournalRead)
  | bootWatchdogExpire
  | pwrgoodFall
  | topResetWrite (m : Master) (w : WVal)
  | quoteStart (m : Master)
  | quoteDone
  | updateVerify (m : Master) (w : WVal)
  | updateVerified (place : Nat)
  | updateActivate (m : Master)
  | firmwareReady
  | activationTimeout
  | commitSvn (m : Master)
  | flashRead (m : Master)
  | flashProgram (m : Master) (w : WVal)
  | flashErase (m : Master)
  | flashOpDone
  | logStallExpire
  | logStallRelease
  | logHeadWrite (m : Master) (w : WVal)
  | logMirrorTick
  | pmcCounterOverflow (n : Fin 512)
  | evselWrite (m : Master) (n : Fin 512) (w : WVal)
  | freezeNow (m : Master)
  | freezeAt (m : Master)
  | unfreeze (m : Master)
  | freezeTick
  | sampleCfgWrite (m : Master) (w : WVal)
  | sampleRecordWrite (slot : Nat)
  | sampleLimitExpire (slot : Nat)
  | sampleHeadWrite (m : Master) (w : WVal)
  | pinOwnerWrite (m : Master) (w : WVal)
  | eventPinEdge (pin : Fin 4)
  | fabricTimeTick
  | railFault (rail : Fin 13)
  | pllUnlock (pll : Fin 6)
  | thermalReading (tjMax hottest tjMean : Nat)
  | refclkLoss (clk : Nat)
  | refclkReturn (clk : Nat)
  | mbGo (addr data ctl : Word)
  | mbAccessDone
  | mbTimeout
  | setdasa (addr : Nat)
  | entdaa (addr : Nat)
  | rstdaa
  | enec
  | extest
  | idcode
  | samplePreload
  | clamp
  | highz
  | extestPulse
  | extestTrain
  | bypass
  | regacc (dr : BitVec 96)
  | lifeTick
  | hostReadCompletion (p : HPort) (tag : Nat) (data : List Byte)
  | hostCompletionTimeout (p : HPort) (tag : Nat)
  | pullRouteTimeout (h : HandleRef)
  | patternCheckerReceive (l : Lane) (bits : List Bool)
  | pwrfailFall
  | pwrfailRise
  | functionReady (p : HPort) (f : Fn)
  | hbmRowRepairDone (c : Nat)
  | aerError (p : HPort) (uncorrectable : Bool)
  deriving DecidableEq, Repr

end Sys2Proof
end

