-- ==== Sys2Proof/WellFormed.lean ====
section
/-!
DEFINITION. Which commands are well formed: every operand lies in the range that the spec gives what it names. A command
outside is no command of the hardware; the model gives it a next state all the same.
-/
set_option Elab.async false
namespace Sys2Proof

/-- A context number (R18). -/
def ctxOk (c : Nat) : Bool := c < 2 ^ 20

/-- A handle's context and ring index (R19). -/
def HandleRef.ok (h : HandleRef) : Bool := ctxOk h.ctx && h.index < 2 ^ 32

/-- An operation's endpoint and sequence number (R18, R175). -/
def OpRef.ok (o : OpRef) : Bool := ctxOk o.ctx && o.remote < 2 ^ 40 && o.osn < 2 ^ 32

/-- A packet carries the bytes that its header counts (R237), at most 4,128 with a kind's own fields (R236). -/
def Packet.ok (p : Packet) : Bool :=
  p.bytes.length == p.hdr.toNat / 2 ^ 91 % 2 ^ 13 && p.bytes.length ≤ 4128

/-- A doorbell page (R36, R47). -/
def DbPage.ok : DbPage → Bool
  | .ctx c => ctxOk c
  | .vf _ _ i => i < 16

/-- An access to an aperture: 1 to 4,096 bytes. -/
def MemOp.ok : MemOp → Bool
  | .read n => 1 ≤ n && n ≤ 4096
  | .write bs => 1 ≤ bs.length && bs.length ≤ 4096

/-- A port-A access: at most 64 bytes of the scratchpad (R339). -/
def PortAUse.ok (a : PortAUse) : Bool :=
  let n := match a.op with
    | .read n => n
    | .write bs => bs.length
  1 ≤ n && n ≤ 64 && a.off + n ≤ 64 * 2 ^ 20

/-- A temperature as a signed 16-bit value (R481). -/
def tempOk (t : Nat) : Bool := t < 2 ^ 16

/-- A link's width and its speed, 1 for 2.5 GT/s to 6 for 64.0 GT/s (R43). -/
def linkOk (width speed : Nat) : Bool := [1, 2, 4, 8, 16].contains width && 1 ≤ speed && speed ≤ 6

/-- The handle of a re-send timer. -/
def ResendRef.ok : ResendRef → Bool
  | .handle h => h.ok
  | .pull h => h.ok

/-- The command is well formed. -/
def Instr.ok : Instr → Bool
  | .hostLinkTrained _ _ width link => linkOk width link.speed
  | .dllActiveChange _ _ active width link => !active || linkOk width link.speed
  | .doorbellTail _ pg _ => pg.ok
  | .cqHeadWrite _ pg _ => pg.ok
  | .cqArm _ pg _ => pg.ok
  | .inlineDoorbell _ pg _ => pg.ok
  | .descriptorFetch c => ctxOk c
  | .descriptorReturn c ds => ctxOk c && ds.length ≤ 64
  | .nop h => h.ok
  | .put h => h.ok
  | .get h => h.ok
  | .atomic h => h.ok
  | .send h => h.ok
  | .recvPost h => h.ok
  | .recvCancel h => h.ok
  | .collBroadcast h => h.ok
  | .collReduce h => h.ok
  | .collAllreduce h => h.ok
  | .collReduceScatter h => h.ok
  | .collAllgather h => h.ok
  | .collBarrier h => h.ok
  | .fenceContext h => h.ok
  | .fenceTarget h => h.ok
  | .counterArm h => h.ok
  | .triggered h => h.ok
  | .semAcquireWait h => h.ok
  | .semTry h => h.ok
  | .semRelease h => h.ok
  | .contextClosed c => ctxOk c
  | .contextFill c => ctxOk c
  | .pendingCommitApply i => i < 2 ^ 16
  | .pinLimitExpire o => o.ok
  | .fmemHostAccess _ _ op => op.ok
  | .sendHoldRelease h => h.ok
  | .sendPacketArrival p => p.ok
  | .pullRequestArrival p => p.ok
  | .pullResponseArrival p => p.ok
  | .finishNoticeArrival p => p.ok
  | .placementReportArrival p => p.ok
  | .withdrawalArrival p => p.ok
  | .withdrawalAnswerArrival p => p.ok
  | .matRefusalArrival p => p.ok
  | .firmwareProbeResult c => ctxOk c
  | .busyRetryExpire h => h.ok
  | .recvHoldRelease c => ctxOk c
  | .putDataArrival p => p.ok
  | .getRequestArrival p => p.ok
  | .getResponseArrival p => p.ok
  | .fetchAdd p => p.ok
  | .fetchAnd p => p.ok
  | .fetchOr p => p.ok
  | .fetchXor p => p.ok
  | .swap p => p.ok
  | .cswap p => p.ok
  | .fetchMinS p => p.ok
  | .fetchMaxS p => p.ok
  | .fetchMinU p => p.ok
  | .fetchMaxU p => p.ok
  | .fetchAddF64 p => p.ok
  | .cswap128 p => p.ok
  | .atomicopCompletion o _ => o.ok
  | .atomicResponseArrival p => p.ok
  | .putResponseArrival p => p.ok
  | .refusalArrival p => p.ok
  | .resendTimerExpire r => r.ok
  | .operationTimeout h => h.ok
  | .cscDataArrival p => p.ok
  | .stepEndArrival p => p.ok
  | .rerequestArrival p => p.ok
  | .abortArrival p => p.ok
  | .rerequestTimerExpire h step seg => h.ok && step < 16 && seg < 2 ^ 26
  | .lineStateNotice p => p.ok
  | .eyeWindowEnd _ means sigmas => means.length == sigmas.length && (means.length == 2 || means.length == 4)
  | .codewordReceive _ w => w.length == 272
  | .time _ _ t => t < 2 ^ 64
  | .tlbMiss _ _ acc => acc < 3
  | .tlbFill _ _ idx => idx < 2 ^ 24
  | .tlbLockFill _ _ idx pg => idx < 2 ^ 24 && pg.toNat < 4
  | .tlbRefuse _ d => d < 256
  | .scratchpadHostAccess _ a op us => op.ok && a < 64 * 2 ^ 20 && us.all (·.ok)
  | .spdBusyRetry a => a < 64 * 2 ^ 20
  | .marchDone _ rs => rs.all fun x => x.1 < 64
  | .faultWindowEnd _ n => n < 2048
  | .pseudoChannelCopyDone c => c < 128
  | .hbmReadError a _ => a < 144 * 2 ^ 30
  | .scratchpadEccError a _ => a < 64 * 2 ^ 20
  | .pwrgoodRise up => up.addrSel < 4
  | .bootFusesSensed stepping keys repairs => stepping < 256 && keys.svnMin < 2 ^ 32 && repairs.all fun x => x.1 < 64 && x.2 ≤ 16
  | .bootFirmwareVerified code svn ds _ => code < 9 && svn < 2 ^ 32 && ds.length ≤ 2048
  | .bootRelease j => j.copies.length ≤ 2 && (j.copies.all fun c => c.length == 512) && j.ring.length % 64 == 0
  | .sampleRecordWrite k => k < 64
  | .sampleLimitExpire k => k < 64
  | .thermalReading a b c => tempOk a && tempOk b && tempOk c
  | .refclkLoss k => k < 13
  | .refclkReturn k => k < 13
  | .setdasa a => a < 128
  | .entdaa a => a < 128
  | .hostReadCompletion _ _ bs => bs.length ≤ 4096
  | .pullRouteTimeout h => h.ok
  | .hbmRowRepairDone c => c < 128
  | .registerWrite _ _ _ _ => true
  | .nodeCoordWrite _ _ => true
  | .setupDoneWrite _ _ => true
  | .portCfgWrite _ _ _ => true
  | .portSetupExit _ _ => true
  | .portResetCmd _ _ => true
  | .hotReset _ => true
  | .perstAssert _ => true
  | .perstDeassert _ => true
  | .hostDlDown _ => true
  | .configRequest _ _ _ => true
  | .flrInitiate _ _ => true
  | .flrComplete _ _ => true
  | .vfRegDataRead _ _ _ => true
  | .vfRegDataWrite _ _ _ _ => true
  | .vfTblDataRead _ _ _ => true
  | .vfTblDataWrite _ _ _ => true
  | .intxAck _ _ _ => true
  | .msixEnableChange _ _ _ => true
  | .intxDisableChange _ _ => true
  | .slotPowerOff _ _ _ _ => true
  | .slotPowerOn _ _ _ _ => true
  | .slotPowerRemove _ _ => true
  | .slotPerstRelease _ _ => true
  | .presenceChange _ _ _ => true
  | .powerFault _ _ => true
  | .attentionButton _ _ => true
  | .dsCfgRead _ _ _ => true
  | .dsCfgWrite _ _ _ _ => true
  | .dsCfgComplete _ _ _ => true
  | .dsMemRead _ _ _ => true
  | .dsMemWrite _ _ _ _ => true
  | .dsMemComplete _ _ _ => true
  | .dsAccessTimeout _ _ => true
  | .dsInboundRequest _ _ _ => true
  | .hdmCfgWrite _ _ _ _ => true
  | .handleQuery _ _ => true
  | .ctxRead _ => true
  | .ctxOpen _ => true
  | .ctxClose _ => true
  | .windowCommit _ _ => true
  | .xltEntryWrite _ _ => true
  | .loaderStart _ _ => true
  | .loaderEntry _ => true
  | .syncStart _ => true
  | .syncDone => true
  | .orderReset _ _ => true
  | .ctrValueWrite _ _ => true
  | .ctrWordWrite _ _ _ => true
  | .stagingAvailable => true
  | .groupCfgWrite _ _ => true
  | .groupMaskWrite _ _ => true
  | .portMapWrite _ _ _ => true
  | .linkBlockArrival _ _ _ => true
  | .linkBlockSend _ => true
  | .escapeWaitExpire _ => true
  | .holdExpire _ => true
  | .heldPacketRoute _ => true
  | .retentionExpire _ => true
  | .bankDataWrite _ _ => true
  | .epochFlip _ _ => true
  | .lineStateTimer => true
  | .hintRefresh => true
  | .urgentTokenGrant => true
  | .laneReset _ _ => true
  | .laneSetupExit _ _ => true
  | .laneRetire _ _ => true
  | .trainingFrame _ _ => true
  | .signalDetect _ => true
  | .trainingTimeout _ => true
  | .alignmentMarker _ _ => true
  | .alignTimeout _ => true
  | .signalLoss _ => true
  | .m2CharacterReceive _ _ => true
  | .m2Slip _ _ => true
  | .testCfgWrite _ _ _ => true
  | .injectStart _ _ _ => true
  | .txEqWrite _ _ _ => true
  | .nakRepeatTimer _ => true
  | .replayTimeout _ => true
  | .creditTimeout _ _ => true
  | .hello _ _ => true
  | .admitNonce _ _ => true
  | .admitProof _ _ => true
  | .admitVerdict _ _ => true
  | .poison _ _ => true
  | .resetReq _ _ => true
  | .resetAck _ _ => true
  | .resetAckTimeout _ => true
  | .canaryTick _ => true
  | .linkResetCmd _ _ => true
  | .lnkSetupExit _ _ => true
  | .lnkEnterSetup _ _ => true
  | .bringupStepTimeout _ => true
  | .bringupRetry _ => true
  | .timeSendTimer _ => true
  | .handlerDispatch => true
  | .triggerQueueRelease => true
  | .handlerEcall _ => true
  | .handlerBudgetExpire _ => true
  | .handlerException _ _ => true
  | .tlbInvalidatePage _ _ => true
  | .tlbInvalidateContext _ => true
  | .tlbInvalidateAll _ => true
  | .tlbUnlockAll _ => true
  | .tlbAgerTick => true
  | .ipiSet _ _ => true
  | .timecmpMatch _ => true
  | .coreReset _ _ => true
  | .coreRetire _ _ => true
  | .trigCfgWrite _ _ => true
  | .handlerMemRead _ => true
  | .handlerMemWrite _ _ => true
  | .bankOwnerWrite _ _ _ => true
  | .bankRetain _ _ => true
  | .retentionEntry _ => true
  | .bankWake _ _ => true
  | .bankWakeDone _ => true
  | .marchStart _ _ => true
  | .semAcquireRead _ _ _ _ => true
  | .semReleaseWrite _ _ _ _ => true
  | .semForce _ _ => true
  | .grantWindowExpire _ => true
  | .escalationExpire _ => true
  | .marchSliceDone _ _ => true
  | .escActNow _ _ _ => true
  | .escWithdraw _ _ _ => true
  | .firstRecordClear _ _ => true
  | .faultInjectStart _ _ _ => true
  | .faultInjectTick _ => true
  | .sramError _ _ => true
  | .cacheParityError _ _ => true
  | .crossbarError _ _ => true
  | .cscUnitError _ => true
  | .journalWriteCompletion _ => true
  | .restatementCycleEnd => true
  | .lagRateTick _ => true
  | .reportHoldRelease => true
  | .pwrfailTaken => true
  | .sealCmd _ => true
  | .detachCmd _ => true
  | .sealFlushComplete => true
  | .replayComplete _ _ => true
  | .quarantineExpire => true
  | .resumePort _ _ => true
  | .bootHeadersChecked a b => a < 8 && b < 8
  | .updateVerified place => place < 360 * 2 ^ 20
  | .bootPllLocked => true
  | .hbmTrained => true
  | .hbmZeroed => true
  | .firmwareLoaded => true
  | .bootWatchdogExpire => true
  | .pwrgoodFall => true
  | .topResetWrite _ _ => true
  | .quoteStart _ => true
  | .quoteDone => true
  | .updateVerify _ _ => true
  | .updateActivate _ => true
  | .firmwareReady => true
  | .activationTimeout => true
  | .commitSvn _ => true
  | .flashRead _ => true
  | .flashProgram _ _ => true
  | .flashErase _ => true
  | .flashOpDone => true
  | .logStallExpire => true
  | .logStallRelease => true
  | .logHeadWrite _ _ => true
  | .logMirrorTick => true
  | .pmcCounterOverflow _ => true
  | .evselWrite _ _ _ => true
  | .freezeNow _ => true
  | .freezeAt _ => true
  | .unfreeze _ => true
  | .freezeTick => true
  | .sampleCfgWrite _ _ => true
  | .sampleHeadWrite _ _ => true
  | .pinOwnerWrite _ _ => true
  | .eventPinEdge _ => true
  | .fabricTimeTick => true
  | .railFault _ => true
  | .pllUnlock _ => true
  | .mbGo _ _ _ => true
  | .mbAccessDone => true
  | .mbTimeout => true
  | .rstdaa => true
  | .enec => true
  | .extest => true
  | .idcode => true
  | .samplePreload => true
  | .clamp => true
  | .highz => true
  | .extestPulse => true
  | .extestTrain => true
  | .bypass => true
  | .regacc _ => true
  | .lifeTick => true
  | .hostCompletionTimeout _ _ => true
  | .patternCheckerReceive _ _ => true
  | .pwrfailFall => true
  | .pwrfailRise => true
  | .functionReady _ _ => true
  | .aerError _ _ => true

end Sys2Proof
end

