-- ==== Sys2Proof/Machine/Fec.lean ====
section
/-!
DEFINITION. The codes of LAN: GF(2^10) and RS(272,257) (R275, R280), the pseudo-random sequences (R284), the alignment
marker (R278), and 8b/10b (R282; its tables are the standard's, log entry 40).
-/
set_option Elab.async false
namespace Sys2Proof.Machine

/-! ## GF(2^10) -/

/-- Reduce a product modulo x^10 + x^3 + 1: clear bits `k + 9` down to 10. -/
def gfReduce : Nat → Nat → Nat
  | 0, v => v
  | k + 1, v => gfReduce k (if bitOf v (10 + k) then v ^^^ (0x409 * 2 ^ k) else v)

/-- The product of two field elements. -/
def gfMul (a b : Nat) : Nat :=
  gfReduce 9 ((List.range 10).foldl (fun r i => if bitOf b i then r ^^^ (a * 2 ^ i) else r) 0)

/-- `a` to the `n`, for n below 2^11. -/
def gfPow (a n : Nat) : Nat :=
  ((List.range 11).foldl (fun (x : Nat × Nat) i => (if bitOf n i then gfMul x.1 x.2 else x.1, gfMul x.2 x.2)) (1, a)).1

/-- The inverse of a field element. -/
def gfInv (a : Nat) : Nat := gfPow a 1022

/-- α to the `n`. -/
def gfAlpha (n : Nat) : Nat := gfPow 2 (n % 1023)

/-- A polynomial, lowest coefficient first, at a point. -/
def gfEval (p : List Nat) (x : Nat) : Nat := p.foldr (fun c acc => c ^^^ gfMul acc x) 0

/-! ## RS(272,257) -/

/-- The generator (x − α^0) … (x − α^14), lowest coefficient first (R275). -/
def rsGen : List Nat :=
  (List.range 15).foldl (fun g i =>
    let a := gfAlpha i
    ((0 :: g).zipWith (fun x y => x ^^^ y) ((g.map fun c => gfMul c a) ++ [0]))) [1]

/-- The 15 parity symbols of 257 message symbols, in sending order: the remainder by the generator. -/
def rsParity (msg : List Nat) : List Nat :=
  let low := (rsGen.take 15).reverse
  msg.foldl (fun (r : List Nat) m =>
    let f := (r.headD 0) ^^^ m
    (r.drop 1 ++ [0]).zipWith (fun x g => x ^^^ gfMul f g) low) (List.replicate 15 0)

/-- A codeword of a message (R275). -/
def rsEncode (msg : List Nat) : List Nat := msg ++ rsParity msg

/-- The syndromes of a received word, symbol 0 first. -/
def rsSyndromes (w : List Nat) : List Nat := (List.range 15).map fun i => gfEval w.reverse (gfAlpha i)

/-- The error locator by Berlekamp and Massey: locator, previous locator, length, gap and previous discrepancy. -/
structure Bm where
  c : List Nat
  b : List Nat
  len : Nat
  m : Nat
  d : Nat
  deriving DecidableEq, Repr

/-- Add two polynomials. -/
def polyAdd : List Nat → List Nat → List Nat
  | [], q => q
  | p, [] => p
  | x :: p, y :: q => (x ^^^ y) :: polyAdd p q

/-- One step on syndrome `n`. -/
def bmStep (syn : List Nat) (s : Bm) (n : Nat) : Bm :=
  let d := (List.range (s.len + 1)).foldl (fun a i => a ^^^ gfMul (s.c.getD i 0) (if i ≤ n then syn.getD (n - i) 0 else 0)) 0
  if d = 0 then { s with m := s.m + 1 }
  else
    let f := gfMul d (gfInv s.d)
    let c := polyAdd s.c (List.replicate s.m 0 ++ s.b.map fun x => gfMul f x)
    if 2 * s.len ≤ n then ⟨c, s.c, n + 1 - s.len, 1, d⟩ else { s with c := c, m := s.m + 1 }

/-- The correction of a received word: the corrected symbols and the places corrected, or none when more than 7 symbols
are wrong (R280). -/
def rsDecode (w : List Nat) : Option (List Nat × List Nat) :=
  let syn := rsSyndromes w
  if syn.all (· == 0) then some (w, [])
  else
    let bm := (List.range 15).foldl (bmStep syn) ⟨[1], [1], 0, 1, 1⟩
    let at_ := (List.range 272).filter fun j => gfEval bm.c (gfAlpha (1023 - (271 - j))) == 0
    if 7 < bm.len ∨ at_.length ≠ bm.len then none
    else
      let omega := (List.range 15).map fun n =>
        (List.range (n + 1)).foldl (fun a i => a ^^^ gfMul (bm.c.getD i 0) (syn.getD (n - i) 0)) 0
      let deriv := ((List.range bm.c.length).map fun i => if i % 2 = 1 then bm.c.getD i 0 else 0).drop 1
      let fixed := at_.foldl (fun (w : List Nat) j =>
        let x := gfAlpha (271 - j)
        let xi := gfInv x
        let e := gfMul x (gfMul (gfEval omega xi) (gfInv (gfEval deriv xi)))
        w.set j ((w.getD j 0) ^^^ e)) w
      if (rsSyndromes fixed).all (· == 0) then some (fixed, at_) else none

/-! ## Pseudo-random sequences (R284) -/

/-- The length and the taps of a pattern: PRBS7, PRBS13, PRBS31. -/
def prbsTaps (pat : Nat) : Nat × List Nat :=
  match pat with
  | 1 => (7, [7, 6])
  | 2 => (13, [13, 12, 2, 1])
  | _ => (31, [31, 28])

/-- The next bit of a sequence from its last bits, the latest in bit 0 (log entry 13). -/
def prbsNext (pat st : Nat) : Bool := ((prbsTaps pat).2.map fun k => bitOf st (k - 1)).foldl xor false

/-- The state with one more bit. -/
def prbsPush (pat st : Nat) (b : Bool) : Nat := (2 * st + b2n b) % 2 ^ (prbsTaps pat).1

/-- `n` bits of a sequence, earliest first, and the state after them. -/
def prbsRun (pat : Nat) : Nat → Nat → List Bool → List Bool × Nat
  | 0, st, acc => (acc.reverse, st)
  | n + 1, st, acc => let b := prbsNext pat st; prbsRun pat n (prbsPush pat st b) (b :: acc)

/-! ## Codewords (R276, R278) -/

/-- Bits as a number, the first in the lowest place. -/
def bitsLow (bs : List Bool) : Nat := bs.foldr (fun b a => b2n b + 2 * a) 0
/-- Bits as a number, the first in the highest place. -/
def bitsHigh (bs : List Bool) : Nat := bs.foldl (fun a b => 2 * a + b2n b) 0

/-- Cut a list into pieces of `n`, `k` pieces. -/
def pieces {α : Type} (n : Nat) : Nat → List α → List (List α)
  | 0, _ => []
  | k + 1, l => l.take n :: pieces n k (l.drop n)

/-- Scramble or descramble 320 stream bytes as 256 symbols' worth of bits: the bits, and the scrambler after them. -/
def scramble (prbs : Nat) (bits : List Bool) : List Bool × Nat :=
  let r := prbsRun 3 bits.length prbs []
  (bits.zipWith xor r.1, r.2)

/-- The bits of bytes, bit 0 of byte 0 first. -/
def byteBits (bs : List Byte) : List Bool := bs.flatMap fun b => (List.range 8).map fun i => b.getLsbD i

/-- A data codeword: its control symbol and 320 stream bytes, scrambled and encoded; and the scrambler after it. -/
def dataCodeword (prbs ptr : Nat) (bytes : List Byte) : List Nat × Nat :=
  let r := scramble prbs (byteBits bytes)
  (rsEncode (ptr % 512 :: (pieces 10 256 r.1).map bitsLow), r.2)

/-- An alignment marker: its count, the lane index that symbols 243 and 244 hold, and the port. -/
def markerCodeword (am lane1 lane0 port : Nat) : List Nat :=
  let g := (pieces 10 240 (prbsRun 2 2400 0x1FFF []).1).map bitsHigh
  rsEncode (0x3FF :: g ++ [am % 256, am % 256, lane1, lane0, port % 256, port % 256] ++ List.replicate 10 0)

/-- The stream bytes of a decoded data codeword, and the scrambler after it. -/
def codewordBytes (prbs : Nat) (w : List Nat) : List Byte × Nat :=
  let bits := (w.drop 1 |>.take 256).flatMap fun v => (List.range 10).map fun i => bitOf v i
  let r := scramble prbs bits
  ((pieces 8 320 r.1).map fun b => BitVec.ofNat 8 (bitsLow b), r.2)

/-! ## 8b/10b (R282) -/

/-- The six-bit codes of EDCBA for RD−, bits abcdei with a highest. -/
def code6 : List Nat :=
  [0b100111, 0b011101, 0b101101, 0b110001, 0b110101, 0b101001, 0b011001, 0b111000, 0b111001, 0b100101, 0b010101, 0b110100,
   0b001101, 0b101100, 0b011100, 0b010111, 0b011011, 0b100011, 0b010011, 0b110010, 0b001011, 0b101010, 0b011010, 0b111010,
   0b110011, 0b100110, 0b010110, 0b110110, 0b001110, 0b101110, 0b011110, 0b101011]

/-- The four-bit codes of HGF for RD−, bits fghj with f highest. -/
def code4 : List Nat := [0b1011, 0b1001, 0b0101, 0b1100, 0b1101, 0b1010, 0b0110, 0b1110]

/-- Ones among the low `n` bits. -/
def onesOf (n v : Nat) : Nat := ((List.range n).filter fun i => bitOf v i).length

/-- A data character at a running disparity (true is RD+): the character and the disparity after it. -/
def encD (b : Nat) (rd : Bool) : Nat × Bool :=
  let x := b % 32
  let y := b / 32
  let c6 := code6.getD x 0
  let c6 := if rd && (onesOf 6 c6 != 3 || x == 7) then 63 - c6 else c6
  let rd1 := if onesOf 6 c6 = 3 then rd else !rd
  let a7 := y == 7 && ((!rd1 && (x == 17 || x == 18 || x == 20)) || (rd1 && (x == 11 || x == 13 || x == 14)))
  let c4 := if a7 then 0b0111 else code4.getD y 0
  let c4 := if rd1 && (onesOf 4 c4 != 2 || y == 3) then 15 - c4 else c4
  (c6 * 16 + c4, if onesOf 4 c4 = 2 then rd1 else !rd1)

/-- The K-characters in use for RD−: K28.5, K28.3, K27.7, K29.7, K30.7. -/
def kChars : List (Nat × Nat) :=
  [(0xBC, 0b0011111010), (0x7C, 0b0011110011), (0xFB, 0b1101101000), (0xFD, 0b1011101000), (0xFE, 0b0111101000)]

/-- A K-character at a running disparity, with the disparity after it. -/
def encK (c : Nat) (rd : Bool) : Nat × Bool :=
  let v := if rd then 1023 - c else c
  (v, if onesOf 10 v = 5 then rd else !rd)

/-- What a character decodes to. -/
inductive Char8 where
  | data (b : Byte)
  | k (b : Nat)
  | wrongDisparity
  | violation
  deriving DecidableEq, Repr

/-- Decode a character at a disparity: what it is, and the disparity after it. -/
def decodeAt (ch : Nat) (rd : Bool) : Option (Char8 × Bool) :=
  match kChars.find? fun k => (encK k.2 rd).1 == ch with
  | some k => some (.k k.1, (encK k.2 rd).2)
  | none => ((List.range 256).find? fun b => (encD b rd).1 == ch).map fun b => (.data (BitVec.ofNat 8 b), (encD b rd).2)

/-- Decode a character (R282): one of the other disparity is a disparity error, one outside the code a violation; the
disparity then follows the character's own balance. -/
def decodeChar (ch : Nat) (rd : Bool) : Char8 × Bool :=
  match decodeAt ch rd with
  | some r => r
  | none =>
    let after := if onesOf 10 ch = 5 then rd else decide (5 < onesOf 10 ch)
    match decodeAt ch (!rd) with
    | some _ => (.wrongDisparity, after)
    | none => (.violation, after)

end Sys2Proof.Machine
end

