-- ==== Sys2Proof/Machine/Crc.lean ====
section
/-!
DEFINITION. The cyclic redundancy checks: CRC-32 (R291) and CRC-32C (R142, R394), both reflected, with initial value
and final XOR 0xFFFF_FFFF.
-/
set_option Elab.async false
namespace Sys2Proof.Machine

/-- One bit of a reflected CRC with reversed polynomial `poly`. -/
def crcBit (poly c : BitVec 32) : BitVec 32 :=
  if c.getLsbD 0 then (c >>> 1) ^^^ poly else c >>> 1

/-- `n` bits. -/
def crcBits (poly : BitVec 32) : Nat → BitVec 32 → BitVec 32
  | 0, c => c
  | n + 1, c => crcBits poly n (crcBit poly c)

/-- One byte. -/
def crcByte (poly c : BitVec 32) (b : Byte) : BitVec 32 := crcBits poly 8 (c ^^^ b.setWidth 32)

/-- A whole byte string. -/
def crcRun (poly : BitVec 32) (bs : List Byte) : BitVec 32 := (bs.foldl (crcByte poly) 0xFFFFFFFF) ^^^ 0xFFFFFFFF

/-- CRC-32, polynomial 0x04C1_1DB7 (R291). -/
def crc32 (bs : List Byte) : BitVec 32 := crcRun 0xEDB88320 bs

/-- CRC-32C, the Castagnoli polynomial (R142). -/
def crc32c (bs : List Byte) : BitVec 32 := crcRun 0x82F63B78 bs

end Sys2Proof.Machine
end

