-- ==== Sys2Proof/Config.lean ====
section
/-!
DEFINITION. What an implementation fixes and what the spec leaves open: free values and the cryptographic functions of
RFC 8032 and FIPS 180-4, which the spec names and does not define. None has a body, so no proof can rest on a value.
-/
set_option Elab.async false
namespace Sys2Proof.Config

/-- SHA-512 of FIPS 180-4 (R38, R434), as the spec's source names it (log entry 8). -/
opaque sha512 : List Byte → BitVec 512

/-- The Ed25519 public key (RFC 8032) of the identity key that SEC derives from a seed (R423). -/
opaque identityKey : BitVec 256 → BitVec 256

/-- The Ed25519 signature (RFC 8032) of a message under the identity key of a seed (R425, R430). -/
opaque sign : BitVec 256 → List Byte → BitVec 512

/-- Whether a signature of a message (second) verifies under a public key (first), RFC 8032. -/
opaque verify : List Byte → List Byte → BitVec 512 → Bool

/-- A value the spec leaves free: the n-th one used (log entry 7). -/
opaque freeValue : Nat → BitVec 512

/-- A configuration-space dword whose contents only the base specification gives (R45). -/
opaque cfgSpace : Nat → BitVec 32

/-- Ihlord's manufacturing public key, held in the boot ROM (R424), byte `k`. -/
opaque mfgKey : Nat → Byte

/-- Whether HBM stack `a` still has a spare row after `b` repairs (R379). -/
opaque spareRow : Nat → Nat → Bool

/-- How many answers of block `b` may wait in the node before a request that must be answered is discarded (R243); the spec
does not say (log entry 25). -/
opaque answerSlots : Nat → Nat

/-- Which bit of block `b` of its pattern an injection inverts (R286); the spec does not say (log entry 101). -/
opaque injectBit : Nat → Nat

/-- Where the bitmap of the operation record at an index lies in the bitmap pool (R178); the spec does not say (log entry 135). -/
opaque poolPlace : Nat → BitVec 32

/-- What the blocks move of their own structures in HBM, and what waits for HBM, in a core cycle: the code of R445's event, the
pseudo-channel, the cycle; the spec does not say how many accesses an operation makes (log entry 42). -/
opaque hbmTraffic : Nat → Nat → Nat → Nat

/-- The boot ROM version that a quote carries (R429). -/
opaque romVersion : Nat

end Sys2Proof.Config
end

