-- ==== Sys2Proof/Machine/SMap.lean ====
section
/-!
DEFINITION. Sparse tables as sorted lists of (key, value) pairs: reading with a default, writing in the canonical form
(keys strictly rising, no entry equal to what its key reads as by default), and the form itself.
-/
set_option Elab.async false
namespace Sys2Proof.Machine

/-- The value listed at a key, where there is one. -/
def SMap.find? {α : Type} : List (Nat × α) → Nat → Option α
  | [], _ => none
  | (a, v) :: m, k => if k = a then some v else SMap.find? m k

/-- The value at a key, `d k` where none is listed. -/
def SMap.getD {α : Type} (d : Nat → α) (m : List (Nat × α)) (k : Nat) : α := (SMap.find? m k).getD (d k)

/-- Remove a key. -/
def SMap.erase {α : Type} : List (Nat × α) → Nat → List (Nat × α)
  | [], _ => []
  | (a, v) :: m, k => if k = a then m else if k < a then (a, v) :: m else (a, v) :: SMap.erase m k

/-- Set a key, keeping the keys rising. -/
def SMap.insert {α : Type} : List (Nat × α) → Nat → α → List (Nat × α)
  | [], k, x => [(k, x)]
  | (a, v) :: m, k, x =>
    if k = a then (k, x) :: m else if k < a then (k, x) :: (a, v) :: m else (a, v) :: SMap.insert m k x

/-- Write a key in the canonical form: a value equal to the default is not listed. -/
def SMap.put {α : Type} [DecidableEq α] (d : Nat → α) (m : List (Nat × α)) (k : Nat) (x : α) : List (Nat × α) :=
  if x = d k then SMap.erase m k else SMap.insert m k x

/-- Keys strictly rising, each at least `lo`. -/
def SMap.risingFrom {α : Type} (lo : Nat) : List (Nat × α) → Bool
  | [] => true
  | (a, _) :: m => decide (lo ≤ a) && SMap.risingFrom (a + 1) m

/-- The canonical form. -/
def SMap.wf {α : Type} [DecidableEq α] (d : Nat → α) (m : List (Nat × α)) : Bool :=
  SMap.risingFrom 0 m && m.all fun e => decide (e.2 ≠ d e.1)

end Sys2Proof.Machine
end

