-- ==== Sys2Proof/Machine/RegMap.lean ====
section
/-!
DEFINITION. The register map: every register of the register space (R32 and the offset tables of each chapter), where
it lies, and its fields with their access types (R14) and reset values. A field of reset "boot" or "fuse" resets to 0
here (DESIGN CHOICE, notes/assumptions/1.md): the boot commands load it.
-/
set_option Elab.async false
namespace Sys2Proof.Machine

/-- Access types of a field (R14). -/
inductive Access where
  | rw | ro | w1c | w1s | wo | ra | sl
  deriving DecidableEq, Repr

/-- The register names of the register space (R32). -/
inductive Reg where
  | TOP_PART_INFO
  | TOP_NODE_COORD
  | TOP_SETUP_DONE
  | HIF_PORT_CFG
  | HIF_PORT_CTL
  | HIF_PORT_STATUS
  | HIF_VF_CTX_BLOCK
  | HIF_VF_TBL_ADDR
  | HIF_VF_TBL_DATA
  | HIF_INTX_CAUSE
  | HIF_INTX_ACK
  | HIF_DS_SLOT_CTL
  | HIF_DS_SLOT_STATUS
  | HIF_DS_CFG_ADDR
  | HIF_DS_CFG_DATA
  | HIF_DS_HDM_CFG
  | HIF_DS_MEM_ADDR
  | HIF_DS_MEM_DATA
  | CMD_CTL
  | CMD_OUTSTANDING
  | CMD_RING_HELD
  | CMD_HANDLE_QUERY
  | CMD_HANDLE_STATE
  | CMD_INLINE_FALLBACK
  | CMD_DB_STALE
  | CTX_SEL
  | CTX_CMD
  | CTX_STATUS
  | CTX_CACHE
  | CTX_STAGE
  | CTX_VIEW
  | XLT_CTL
  | XLT_WIN_SEL
  | XLT_WIN_COMMIT
  | XLT_WIN_STATUS
  | XLT_WIN_RESULT
  | XLT_WIN_STAGE
  | XLT_ENTRY_SEL
  | XLT_ENTRY_DATA
  | XLT_LOAD_ADDR
  | XLT_LOAD_CTL
  | XLT_LOAD_STATUS
  | XLT_SYNC
  | XLT_FMEM_CFG
  | MAT_CTL
  | MAT_HASH_SEED
  | MAT_STATUS
  | MAT_SUMP_CFG
  | MAT_SUMP_STATUS
  | MAT_OVF_STATUS
  | MAT_ORDER_RESET
  | MAT_DEFER_COUNT
  | MAT_BUSY_COUNT
  | MAT_WITHDRAW_COUNT
  | RMA_CTL
  | RMA_STATUS
  | RMA_LATE_COUNT
  | RMA_LATE_LAST
  | RMA_REG_CTL
  | RMA_CTR_SEL
  | RMA_CTR_CFG
  | RMA_CTR_VALUE
  | RMA_CTR_FAIL
  | RMA_CTR_MIRROR
  | RMA_RESEND_COUNT
  | RMA_DUP_COUNT
  | RMA_BUSY_COUNT
  | RMA_TRIG_STATUS
  | RMA_CTR_WORD
  | CSC_CTL
  | CSC_STATUS
  | CSC_GROUP_SEL
  | CSC_GROUP_CFG
  | CSC_GROUP_MASK
  | CSC_GROUP_SEQ
  | CSC_RESTART_COUNT
  | CSC_ABORT_COUNT
  | CSC_EARLY_DROP_COUNT
  | RTE_CTL
  | RTE_ADAPT
  | RTE_URGENT_CFG
  | RTE_EPOCH
  | RTE_DRAIN
  | RTE_DRAIN_TIME
  | RTE_BANK_SEL
  | RTE_BANK_DATA
  | RTE_STATUS
  | RTE_DISCARD_COUNT
  | RTE_ESCAPE_COUNT
  | RTE_NONMIN_COUNT
  | RTE_URGENT_DIVERT_COUNT
  | RTE_PORT_MAP
  | RTE_LINE_STATE
  | LAN_CFG
  | LAN_CTL
  | LAN_STATUS
  | LAN_TX_EQ
  | LAN_RX_EQ
  | LAN_EYE
  | LAN_FEC_CORR
  | LAN_FEC_UNCORR
  | LAN_TEST_CFG
  | LAN_TEST_PATTERN
  | LAN_TEST_ERR
  | LAN_INJECT
  | LAN_M2_CTL
  | LAN_M2_STATUS
  | LAN_M2_ERR
  | LAN_EF_THRESH
  | LAN_RETIRED
  | LNK_PORT_CFG
  | LNK_PORT_CTL
  | LNK_PORT_STATUS
  | LNK_PEER_ID
  | LNK_POOL_CFG
  | LNK_REPLAY_STATUS
  | LNK_TIME_STATUS
  | LNK_TIME_ADJ
  | LNK_CRC_COUNT
  | LNK_REPLAY_COUNT
  | LNK_DOWN_COUNT
  | LNK_LIVE
  | HDL_CORE_CTL
  | HDL_CORE_STATUS
  | HDL_CORE_SP
  | HDL_CORE_TIMECMP
  | HDL_CFG
  | HDL_IPI_SET
  | HDL_IPI_PEND
  | HDL_TRIG_SEL
  | HDL_TRIG_CFG
  | HDL_TRIG_CORES
  | HDL_TRIG_PC
  | HDL_TRIG_ARG
  | HDL_QUEUE
  | HDL_MEM_ADDR
  | HDL_MEM_DATA
  | XLT_AD_MODE
  | SPD_STATUS
  | SPD_COLLISION_COUNT
  | SPD_COLLISION_LAST
  | SPD_MARCH_CTL
  | SPD_MARCH_MASK
  | SPD_MARCH_STATUS
  | SPD_MARCH_FAIL
  | SPD_BANK_OWNER
  | SPD_BANK_CTL
  | SPD_REPAIR
  | SEM_CTL
  | SEM_INHERIT_LOG
  | SEM_FORCE
  | SEM_ACQ
  | SEM_STATE
  | FLT_STATUS
  | FLT_FIRST
  | FLT_FIRST_TIME
  | FLT_COUNT
  | FLT_WINDOW
  | FLT_THRESH
  | FLT_ESC_TIMER
  | FLT_ESC_ACTION
  | FLT_INJECT
  | TOP_STOP
  | RSV_CTL
  | RSV_CFG
  | RSV_TARGET
  | RSV_TARGET_BASE
  | RSV_STATUS
  | RSV_USAGE
  | RSV_LAST_SEAL
  | RSV_REPLAY
  | RSV_RESUME
  | RSV_DROP_COUNT
  | TOP_RESET
  | SEC_BOOT_STATUS
  | SEC_IDENTITY
  | SEC_SVN
  | SEC_FLASH_ADDR
  | SEC_FLASH_DATA
  | SEC_FLASH_CTL
  | SEC_UPDATE_CTL
  | SEC_UPDATE_STATUS
  | SEC_QUOTE_CTL
  | SEC_ADMIT_LAST
  | SEC_QUOTE_NONCE
  | SEC_QUOTE_DATA
  | LOG_CTL
  | LOG_STATUS
  | LOG_TAIL
  | LOG_HEAD
  | LOG_READ_SEL
  | LOG_MIRROR_BASE
  | LOG_MIRROR_TAIL_ADDR
  | LOG_READ_DATA
  | LOG_CHAIN
  | PMC_CTL
  | PMC_STATUS
  | PMC_FREEZE
  | PMC_FREEZE_TIME
  | PMC_SNAP_TIME
  | PMC_USER_EN
  | PMC_SAMPLE_CFG
  | PMC_SAMPLE_FILTER
  | PMC_SAMPLE_HEAD
  | PMC_SAMPLE_TAIL
  | PMC_SAMPLE_STATUS
  | PMC_SAMPLE_SEL
  | PMC_SAMPLE_DATA
  | PMC_OVF
  | PMC_USER_MASK
  | PMC_EVSEL
  | PMC_COUNT
  | PMC_SNAP
  | TOP_PIN_OWNER
  | TOP_PIN_CAPTURE
  | PWR_STATUS
  | PWR_TEMP
  | PWR_THERMAL_CFG
  | PWR_CLK_CFG
  | PWR_LIFE
  | FLT_ALSO
  | HIF_MSIX_TABLE
  | HIF_MSIX_PBA
  | PMC_USER_PAGE
  deriving DecidableEq, Repr

/-- Where a register lies: offset of its first element, element counts and strides of its two indices, and the
number of the first element of the second index. -/
structure Shape where
  base : Nat
  n1 : Nat
  s1 : Nat
  n2 : Nat
  s2 : Nat
  k0 : Nat
  deriving DecidableEq, Repr

/-- The place of each register (R32, R33, R43, R108, R110, R123, R126, R131, R167, R199, R230, R264, R290, R319, R352,
R353, R354, R355, R357, R386, R415, R418, R438, R439, R455, R460, R462, R495). The first index of a fault-window
register is its block. -/
def Reg.shape : Reg → Shape
  | .TOP_PART_INFO => ⟨0x0000000, 1, 0x0, 1, 0x0, 0⟩
  | .TOP_NODE_COORD => ⟨0x0000008, 1, 0x0, 1, 0x0, 0⟩
  | .TOP_SETUP_DONE => ⟨0x0000010, 1, 0x0, 1, 0x0, 0⟩
  | .HIF_PORT_CFG => ⟨0x010C000, 8, 0x10000, 1, 0x0, 0⟩
  | .HIF_PORT_CTL => ⟨0x010C008, 8, 0x10000, 1, 0x0, 0⟩
  | .HIF_PORT_STATUS => ⟨0x010C010, 8, 0x10000, 1, 0x0, 0⟩
  | .HIF_VF_CTX_BLOCK => ⟨0x010C800, 8, 0x10000, 256, 0x8, 1⟩
  | .HIF_VF_TBL_ADDR => ⟨0x010C028, 8, 0x10000, 1, 0x0, 0⟩
  | .HIF_VF_TBL_DATA => ⟨0x010C030, 8, 0x10000, 1, 0x0, 0⟩
  | .HIF_INTX_CAUSE => ⟨0x010C018, 8, 0x10000, 1, 0x0, 0⟩
  | .HIF_INTX_ACK => ⟨0x010C020, 8, 0x10000, 1, 0x0, 0⟩
  | .HIF_DS_SLOT_CTL => ⟨0x010D000, 8, 0x10000, 4, 0x40, 0⟩
  | .HIF_DS_SLOT_STATUS => ⟨0x010D008, 8, 0x10000, 4, 0x40, 0⟩
  | .HIF_DS_CFG_ADDR => ⟨0x010D010, 8, 0x10000, 4, 0x40, 0⟩
  | .HIF_DS_CFG_DATA => ⟨0x010D018, 8, 0x10000, 4, 0x40, 0⟩
  | .HIF_DS_HDM_CFG => ⟨0x010D020, 8, 0x10000, 4, 0x40, 0⟩
  | .HIF_DS_MEM_ADDR => ⟨0x010D028, 8, 0x10000, 4, 0x40, 0⟩
  | .HIF_DS_MEM_DATA => ⟨0x010D030, 8, 0x10000, 4, 0x40, 0⟩
  | .CMD_CTL => ⟨0x0200000, 1, 0x0, 1, 0x0, 0⟩
  | .CMD_OUTSTANDING => ⟨0x0200008, 1, 0x0, 1, 0x0, 0⟩
  | .CMD_RING_HELD => ⟨0x0200010, 1, 0x0, 1, 0x0, 0⟩
  | .CMD_HANDLE_QUERY => ⟨0x0200018, 1, 0x0, 1, 0x0, 0⟩
  | .CMD_HANDLE_STATE => ⟨0x0200020, 1, 0x0, 1, 0x0, 0⟩
  | .CMD_INLINE_FALLBACK => ⟨0x0200028, 1, 0x0, 1, 0x0, 0⟩
  | .CMD_DB_STALE => ⟨0x0200030, 1, 0x0, 1, 0x0, 0⟩
  | .CTX_SEL => ⟨0x0300000, 1, 0x0, 1, 0x0, 0⟩
  | .CTX_CMD => ⟨0x0300008, 1, 0x0, 1, 0x0, 0⟩
  | .CTX_STATUS => ⟨0x0300010, 1, 0x0, 1, 0x0, 0⟩
  | .CTX_CACHE => ⟨0x0300018, 1, 0x0, 1, 0x0, 0⟩
  | .CTX_STAGE => ⟨0x0300040, 1, 0x0, 8, 0x8, 0⟩
  | .CTX_VIEW => ⟨0x0300080, 1, 0x0, 16, 0x8, 0⟩
  | .XLT_CTL => ⟨0x0400000, 1, 0x0, 1, 0x0, 0⟩
  | .XLT_WIN_SEL => ⟨0x0400010, 1, 0x0, 1, 0x0, 0⟩
  | .XLT_WIN_COMMIT => ⟨0x0400018, 1, 0x0, 1, 0x0, 0⟩
  | .XLT_WIN_STATUS => ⟨0x0400020, 1, 0x0, 1, 0x0, 0⟩
  | .XLT_WIN_RESULT => ⟨0x0400028, 1, 0x0, 1, 0x0, 0⟩
  | .XLT_WIN_STAGE => ⟨0x0400030, 1, 0x0, 3, 0x8, 0⟩
  | .XLT_ENTRY_SEL => ⟨0x0400100, 1, 0x0, 1, 0x0, 0⟩
  | .XLT_ENTRY_DATA => ⟨0x0400108, 1, 0x0, 1, 0x0, 0⟩
  | .XLT_LOAD_ADDR => ⟨0x0400110, 1, 0x0, 1, 0x0, 0⟩
  | .XLT_LOAD_CTL => ⟨0x0400118, 1, 0x0, 1, 0x0, 0⟩
  | .XLT_LOAD_STATUS => ⟨0x0400120, 1, 0x0, 1, 0x0, 0⟩
  | .XLT_SYNC => ⟨0x0400128, 1, 0x0, 1, 0x0, 0⟩
  | .XLT_FMEM_CFG => ⟨0x0400008, 1, 0x0, 1, 0x0, 0⟩
  | .MAT_CTL => ⟨0x0500000, 1, 0x0, 1, 0x0, 0⟩
  | .MAT_HASH_SEED => ⟨0x0500008, 1, 0x0, 1, 0x0, 0⟩
  | .MAT_STATUS => ⟨0x0500010, 1, 0x0, 1, 0x0, 0⟩
  | .MAT_SUMP_CFG => ⟨0x0500018, 1, 0x0, 1, 0x0, 0⟩
  | .MAT_SUMP_STATUS => ⟨0x0500020, 1, 0x0, 1, 0x0, 0⟩
  | .MAT_OVF_STATUS => ⟨0x0500028, 1, 0x0, 1, 0x0, 0⟩
  | .MAT_ORDER_RESET => ⟨0x0500030, 1, 0x0, 1, 0x0, 0⟩
  | .MAT_DEFER_COUNT => ⟨0x0500038, 1, 0x0, 1, 0x0, 0⟩
  | .MAT_BUSY_COUNT => ⟨0x0500040, 1, 0x0, 1, 0x0, 0⟩
  | .MAT_WITHDRAW_COUNT => ⟨0x0500048, 1, 0x0, 1, 0x0, 0⟩
  | .RMA_CTL => ⟨0x0600000, 1, 0x0, 1, 0x0, 0⟩
  | .RMA_STATUS => ⟨0x0600008, 1, 0x0, 1, 0x0, 0⟩
  | .RMA_LATE_COUNT => ⟨0x0600010, 1, 0x0, 1, 0x0, 0⟩
  | .RMA_LATE_LAST => ⟨0x0600018, 1, 0x0, 1, 0x0, 0⟩
  | .RMA_REG_CTL => ⟨0x0600020, 1, 0x0, 1, 0x0, 0⟩
  | .RMA_CTR_SEL => ⟨0x0600028, 1, 0x0, 1, 0x0, 0⟩
  | .RMA_CTR_CFG => ⟨0x0600030, 1, 0x0, 1, 0x0, 0⟩
  | .RMA_CTR_VALUE => ⟨0x0600038, 1, 0x0, 1, 0x0, 0⟩
  | .RMA_CTR_FAIL => ⟨0x0600040, 1, 0x0, 1, 0x0, 0⟩
  | .RMA_CTR_MIRROR => ⟨0x0600048, 1, 0x0, 1, 0x0, 0⟩
  | .RMA_RESEND_COUNT => ⟨0x0600050, 1, 0x0, 1, 0x0, 0⟩
  | .RMA_DUP_COUNT => ⟨0x0600058, 1, 0x0, 1, 0x0, 0⟩
  | .RMA_BUSY_COUNT => ⟨0x0600060, 1, 0x0, 1, 0x0, 0⟩
  | .RMA_TRIG_STATUS => ⟨0x0600068, 1, 0x0, 1, 0x0, 0⟩
  | .RMA_CTR_WORD => ⟨0x0680000, 1, 0x0, 4096, 0x8, 0⟩
  | .CSC_CTL => ⟨0x0700000, 1, 0x0, 1, 0x0, 0⟩
  | .CSC_STATUS => ⟨0x0700008, 1, 0x0, 1, 0x0, 0⟩
  | .CSC_GROUP_SEL => ⟨0x0700010, 1, 0x0, 1, 0x0, 0⟩
  | .CSC_GROUP_CFG => ⟨0x0700018, 1, 0x0, 1, 0x0, 0⟩
  | .CSC_GROUP_MASK => ⟨0x0700020, 1, 0x0, 1, 0x0, 0⟩
  | .CSC_GROUP_SEQ => ⟨0x0700028, 1, 0x0, 1, 0x0, 0⟩
  | .CSC_RESTART_COUNT => ⟨0x0700030, 1, 0x0, 1, 0x0, 0⟩
  | .CSC_ABORT_COUNT => ⟨0x0700038, 1, 0x0, 1, 0x0, 0⟩
  | .CSC_EARLY_DROP_COUNT => ⟨0x0700040, 1, 0x0, 1, 0x0, 0⟩
  | .RTE_CTL => ⟨0x0800000, 1, 0x0, 1, 0x0, 0⟩
  | .RTE_ADAPT => ⟨0x0800008, 1, 0x0, 1, 0x0, 0⟩
  | .RTE_URGENT_CFG => ⟨0x0800010, 1, 0x0, 1, 0x0, 0⟩
  | .RTE_EPOCH => ⟨0x0800018, 1, 0x0, 1, 0x0, 0⟩
  | .RTE_DRAIN => ⟨0x0800020, 1, 0x0, 2, 0x8, 0⟩
  | .RTE_DRAIN_TIME => ⟨0x0800030, 1, 0x0, 2, 0x8, 0⟩
  | .RTE_BANK_SEL => ⟨0x0800040, 1, 0x0, 1, 0x0, 0⟩
  | .RTE_BANK_DATA => ⟨0x0800048, 1, 0x0, 1, 0x0, 0⟩
  | .RTE_STATUS => ⟨0x0800050, 1, 0x0, 1, 0x0, 0⟩
  | .RTE_DISCARD_COUNT => ⟨0x0800058, 1, 0x0, 1, 0x0, 0⟩
  | .RTE_ESCAPE_COUNT => ⟨0x0800060, 1, 0x0, 1, 0x0, 0⟩
  | .RTE_NONMIN_COUNT => ⟨0x0800068, 1, 0x0, 1, 0x0, 0⟩
  | .RTE_URGENT_DIVERT_COUNT => ⟨0x0800070, 1, 0x0, 1, 0x0, 0⟩
  | .RTE_PORT_MAP => ⟨0x0801000, 1, 0x0, 144, 0x8, 0⟩
  | .RTE_LINE_STATE => ⟨0x0802000, 1, 0x0, 144, 0x8, 0⟩
  | .LAN_CFG => ⟨0x0A00000, 288, 0x800, 1, 0x0, 0⟩
  | .LAN_CTL => ⟨0x0A00008, 288, 0x800, 1, 0x0, 0⟩
  | .LAN_STATUS => ⟨0x0A00010, 288, 0x800, 1, 0x0, 0⟩
  | .LAN_TX_EQ => ⟨0x0A00018, 288, 0x800, 1, 0x0, 0⟩
  | .LAN_RX_EQ => ⟨0x0A00020, 288, 0x800, 1, 0x0, 0⟩
  | .LAN_EYE => ⟨0x0A00028, 288, 0x800, 1, 0x0, 0⟩
  | .LAN_FEC_CORR => ⟨0x0A00030, 288, 0x800, 1, 0x0, 0⟩
  | .LAN_FEC_UNCORR => ⟨0x0A00038, 288, 0x800, 1, 0x0, 0⟩
  | .LAN_TEST_CFG => ⟨0x0A00040, 288, 0x800, 1, 0x0, 0⟩
  | .LAN_TEST_PATTERN => ⟨0x0A00048, 288, 0x800, 1, 0x0, 0⟩
  | .LAN_TEST_ERR => ⟨0x0A00050, 288, 0x800, 1, 0x0, 0⟩
  | .LAN_INJECT => ⟨0x0A00058, 288, 0x800, 1, 0x0, 0⟩
  | .LAN_M2_CTL => ⟨0x0A00060, 288, 0x800, 1, 0x0, 0⟩
  | .LAN_M2_STATUS => ⟨0x0A00068, 288, 0x800, 1, 0x0, 0⟩
  | .LAN_M2_ERR => ⟨0x0A00070, 288, 0x800, 1, 0x0, 0⟩
  | .LAN_EF_THRESH => ⟨0x0AE0000, 1, 0x0, 1, 0x0, 0⟩
  | .LAN_RETIRED => ⟨0x0AE0008, 1, 0x0, 5, 0x8, 0⟩
  | .LNK_PORT_CFG => ⟨0x0900000, 144, 0x1000, 1, 0x0, 0⟩
  | .LNK_PORT_CTL => ⟨0x0900008, 144, 0x1000, 1, 0x0, 0⟩
  | .LNK_PORT_STATUS => ⟨0x0900010, 144, 0x1000, 1, 0x0, 0⟩
  | .LNK_PEER_ID => ⟨0x0900018, 144, 0x1000, 1, 0x0, 0⟩
  | .LNK_POOL_CFG => ⟨0x0900020, 144, 0x1000, 1, 0x0, 0⟩
  | .LNK_REPLAY_STATUS => ⟨0x0900028, 144, 0x1000, 1, 0x0, 0⟩
  | .LNK_TIME_STATUS => ⟨0x0900030, 144, 0x1000, 1, 0x0, 0⟩
  | .LNK_TIME_ADJ => ⟨0x0900038, 144, 0x1000, 1, 0x0, 0⟩
  | .LNK_CRC_COUNT => ⟨0x0900040, 144, 0x1000, 1, 0x0, 0⟩
  | .LNK_REPLAY_COUNT => ⟨0x0900048, 144, 0x1000, 1, 0x0, 0⟩
  | .LNK_DOWN_COUNT => ⟨0x0900050, 144, 0x1000, 1, 0x0, 0⟩
  | .LNK_LIVE => ⟨0x09E0000, 1, 0x0, 3, 0x8, 0⟩
  | .HDL_CORE_CTL => ⟨0x0B00000, 64, 0x1000, 1, 0x0, 0⟩
  | .HDL_CORE_STATUS => ⟨0x0B00008, 64, 0x1000, 1, 0x0, 0⟩
  | .HDL_CORE_SP => ⟨0x0B00010, 64, 0x1000, 1, 0x0, 0⟩
  | .HDL_CORE_TIMECMP => ⟨0x0B00018, 64, 0x1000, 1, 0x0, 0⟩
  | .HDL_CFG => ⟨0x0BE0000, 1, 0x0, 1, 0x0, 0⟩
  | .HDL_IPI_SET => ⟨0x0BE0008, 1, 0x0, 1, 0x0, 0⟩
  | .HDL_IPI_PEND => ⟨0x0BE0010, 1, 0x0, 1, 0x0, 0⟩
  | .HDL_TRIG_SEL => ⟨0x0BE0018, 1, 0x0, 1, 0x0, 0⟩
  | .HDL_TRIG_CFG => ⟨0x0BE0020, 1, 0x0, 1, 0x0, 0⟩
  | .HDL_TRIG_CORES => ⟨0x0BE0028, 1, 0x0, 1, 0x0, 0⟩
  | .HDL_TRIG_PC => ⟨0x0BE0030, 1, 0x0, 1, 0x0, 0⟩
  | .HDL_TRIG_ARG => ⟨0x0BE0038, 1, 0x0, 1, 0x0, 0⟩
  | .HDL_QUEUE => ⟨0x0BE0040, 1, 0x0, 1, 0x0, 0⟩
  | .HDL_MEM_ADDR => ⟨0x0BE0048, 1, 0x0, 1, 0x0, 0⟩
  | .HDL_MEM_DATA => ⟨0x0BE0050, 1, 0x0, 1, 0x0, 0⟩
  | .XLT_AD_MODE => ⟨0x0400130, 1, 0x0, 1, 0x0, 0⟩
  | .SPD_STATUS => ⟨0x0C00000, 1, 0x0, 1, 0x0, 0⟩
  | .SPD_COLLISION_COUNT => ⟨0x0C00008, 1, 0x0, 1, 0x0, 0⟩
  | .SPD_COLLISION_LAST => ⟨0x0C00010, 1, 0x0, 1, 0x0, 0⟩
  | .SPD_MARCH_CTL => ⟨0x0C00018, 1, 0x0, 1, 0x0, 0⟩
  | .SPD_MARCH_MASK => ⟨0x0C00020, 1, 0x0, 1, 0x0, 0⟩
  | .SPD_MARCH_STATUS => ⟨0x0C00028, 1, 0x0, 1, 0x0, 0⟩
  | .SPD_MARCH_FAIL => ⟨0x0C00030, 1, 0x0, 1, 0x0, 0⟩
  | .SPD_BANK_OWNER => ⟨0x0C01000, 1, 0x0, 64, 0x8, 0⟩
  | .SPD_BANK_CTL => ⟨0x0C01200, 1, 0x0, 64, 0x8, 0⟩
  | .SPD_REPAIR => ⟨0x0C01400, 1, 0x0, 64, 0x8, 0⟩
  | .SEM_CTL => ⟨0x0D00000, 1, 0x0, 1, 0x0, 0⟩
  | .SEM_INHERIT_LOG => ⟨0x0D00008, 1, 0x0, 1, 0x0, 0⟩
  | .SEM_FORCE => ⟨0x0D00010, 1, 0x0, 1, 0x0, 0⟩
  | .SEM_ACQ => ⟨0x0D01000, 64, 0x40, 8, 0x8, 0⟩
  | .SEM_STATE => ⟨0x0D02000, 1, 0x0, 64, 0x8, 0⟩
  | .FLT_STATUS => ⟨0x00F0000, 20, 0x100000, 1, 0x0, 0⟩
  | .FLT_FIRST => ⟨0x00F0008, 20, 0x100000, 1, 0x0, 0⟩
  | .FLT_FIRST_TIME => ⟨0x00F0010, 20, 0x100000, 1, 0x0, 0⟩
  | .FLT_COUNT => ⟨0x00F4000, 20, 0x100000, 2048, 0x8, 0⟩
  | .FLT_WINDOW => ⟨0x00F8000, 20, 0x100000, 2048, 0x8, 0⟩
  | .FLT_THRESH => ⟨0x00FC000, 20, 0x100000, 2048, 0x8, 0⟩
  | .FLT_ESC_TIMER => ⟨0x00F0018, 20, 0x100000, 1, 0x0, 0⟩
  | .FLT_ESC_ACTION => ⟨0x00F0020, 20, 0x100000, 1, 0x0, 0⟩
  | .FLT_INJECT => ⟨0x00F0028, 20, 0x100000, 1, 0x0, 0⟩
  | .TOP_STOP => ⟨0x0000020, 1, 0x0, 1, 0x0, 0⟩
  | .RSV_CTL => ⟨0x0E00000, 1, 0x0, 1, 0x0, 0⟩
  | .RSV_CFG => ⟨0x0E00008, 1, 0x0, 1, 0x0, 0⟩
  | .RSV_TARGET => ⟨0x0E00010, 1, 0x0, 1, 0x0, 0⟩
  | .RSV_TARGET_BASE => ⟨0x0E00018, 1, 0x0, 1, 0x0, 0⟩
  | .RSV_STATUS => ⟨0x0E00020, 1, 0x0, 1, 0x0, 0⟩
  | .RSV_USAGE => ⟨0x0E00028, 1, 0x0, 1, 0x0, 0⟩
  | .RSV_LAST_SEAL => ⟨0x0E00030, 1, 0x0, 1, 0x0, 0⟩
  | .RSV_REPLAY => ⟨0x0E00038, 1, 0x0, 1, 0x0, 0⟩
  | .RSV_RESUME => ⟨0x0E00040, 1, 0x0, 1, 0x0, 0⟩
  | .RSV_DROP_COUNT => ⟨0x0E00048, 1, 0x0, 1, 0x0, 0⟩
  | .TOP_RESET => ⟨0x0000028, 1, 0x0, 1, 0x0, 0⟩
  | .SEC_BOOT_STATUS => ⟨0x0F00000, 1, 0x0, 1, 0x0, 0⟩
  | .SEC_IDENTITY => ⟨0x0F00008, 1, 0x0, 1, 0x0, 0⟩
  | .SEC_SVN => ⟨0x0F00010, 1, 0x0, 1, 0x0, 0⟩
  | .SEC_FLASH_ADDR => ⟨0x0F00018, 1, 0x0, 1, 0x0, 0⟩
  | .SEC_FLASH_DATA => ⟨0x0F00020, 1, 0x0, 1, 0x0, 0⟩
  | .SEC_FLASH_CTL => ⟨0x0F00028, 1, 0x0, 1, 0x0, 0⟩
  | .SEC_UPDATE_CTL => ⟨0x0F00030, 1, 0x0, 1, 0x0, 0⟩
  | .SEC_UPDATE_STATUS => ⟨0x0F00038, 1, 0x0, 1, 0x0, 0⟩
  | .SEC_QUOTE_CTL => ⟨0x0F00040, 1, 0x0, 1, 0x0, 0⟩
  | .SEC_ADMIT_LAST => ⟨0x0F00048, 1, 0x0, 1, 0x0, 0⟩
  | .SEC_QUOTE_NONCE => ⟨0x0F00080, 1, 0x0, 4, 0x8, 0⟩
  | .SEC_QUOTE_DATA => ⟨0x0F00100, 1, 0x0, 52, 0x8, 0⟩
  | .LOG_CTL => ⟨0x1000000, 1, 0x0, 1, 0x0, 0⟩
  | .LOG_STATUS => ⟨0x1000008, 1, 0x0, 1, 0x0, 0⟩
  | .LOG_TAIL => ⟨0x1000010, 1, 0x0, 1, 0x0, 0⟩
  | .LOG_HEAD => ⟨0x1000018, 1, 0x0, 1, 0x0, 0⟩
  | .LOG_READ_SEL => ⟨0x1000020, 1, 0x0, 1, 0x0, 0⟩
  | .LOG_MIRROR_BASE => ⟨0x1000028, 1, 0x0, 1, 0x0, 0⟩
  | .LOG_MIRROR_TAIL_ADDR => ⟨0x1000030, 1, 0x0, 1, 0x0, 0⟩
  | .LOG_READ_DATA => ⟨0x1000040, 1, 0x0, 4, 0x8, 0⟩
  | .LOG_CHAIN => ⟨0x1000080, 1, 0x0, 8, 0x8, 0⟩
  | .PMC_CTL => ⟨0x1100000, 1, 0x0, 1, 0x0, 0⟩
  | .PMC_STATUS => ⟨0x1100008, 1, 0x0, 1, 0x0, 0⟩
  | .PMC_FREEZE => ⟨0x1100010, 1, 0x0, 1, 0x0, 0⟩
  | .PMC_FREEZE_TIME => ⟨0x1100018, 1, 0x0, 1, 0x0, 0⟩
  | .PMC_SNAP_TIME => ⟨0x1100020, 1, 0x0, 1, 0x0, 0⟩
  | .PMC_USER_EN => ⟨0x1100028, 1, 0x0, 1, 0x0, 0⟩
  | .PMC_SAMPLE_CFG => ⟨0x1100030, 1, 0x0, 1, 0x0, 0⟩
  | .PMC_SAMPLE_FILTER => ⟨0x1100038, 1, 0x0, 1, 0x0, 0⟩
  | .PMC_SAMPLE_HEAD => ⟨0x1100040, 1, 0x0, 1, 0x0, 0⟩
  | .PMC_SAMPLE_TAIL => ⟨0x1100048, 1, 0x0, 1, 0x0, 0⟩
  | .PMC_SAMPLE_STATUS => ⟨0x1100050, 1, 0x0, 1, 0x0, 0⟩
  | .PMC_SAMPLE_SEL => ⟨0x1100058, 1, 0x0, 1, 0x0, 0⟩
  | .PMC_SAMPLE_DATA => ⟨0x1100080, 1, 0x0, 16, 0x8, 0⟩
  | .PMC_OVF => ⟨0x1100100, 1, 0x0, 8, 0x8, 0⟩
  | .PMC_USER_MASK => ⟨0x1100180, 1, 0x0, 9, 0x8, 0⟩
  | .PMC_EVSEL => ⟨0x1101000, 1, 0x0, 512, 0x8, 0⟩
  | .PMC_COUNT => ⟨0x1102000, 1, 0x0, 512, 0x8, 0⟩
  | .PMC_SNAP => ⟨0x1103000, 1, 0x0, 512, 0x8, 0⟩
  | .TOP_PIN_OWNER => ⟨0x0000018, 1, 0x0, 1, 0x0, 0⟩
  | .TOP_PIN_CAPTURE => ⟨0x0000040, 1, 0x0, 4, 0x8, 0⟩
  | .PWR_STATUS => ⟨0x1300000, 1, 0x0, 1, 0x0, 0⟩
  | .PWR_TEMP => ⟨0x1300008, 1, 0x0, 1, 0x0, 0⟩
  | .PWR_THERMAL_CFG => ⟨0x1300010, 1, 0x0, 1, 0x0, 0⟩
  | .PWR_CLK_CFG => ⟨0x1300018, 1, 0x0, 1, 0x0, 0⟩
  | .PWR_LIFE => ⟨0x1300020, 1, 0x0, 1, 0x0, 0⟩
  | .FLT_ALSO => ⟨0x00F0100, 20, 0x100000, 32, 0x8, 0⟩
  | .HIF_MSIX_TABLE => ⟨0x0100000, 8, 0x10000, 4096, 0x8, 0⟩
  | .HIF_MSIX_PBA => ⟨0x0108000, 8, 0x10000, 32, 0x8, 0⟩
  | .PMC_USER_PAGE => ⟨0x1110000, 9, 0x1000, 512, 0x8, 0⟩

/-- A field of a register: its bits, its access type and its reset value. -/
structure Field where
  reg : Reg
  hi : Nat
  lo : Nat
  acc : Access
  reset : Nat
  deriving DecidableEq, Repr

/-! TOP_PART_INFO (R33). -/
def TOP_PART_INFO.stepping : Field := ⟨.TOP_PART_INFO, 39, 32, .ro, 0⟩
def TOP_PART_INFO.part_number : Field := ⟨.TOP_PART_INFO, 31, 16, .ro, 0x0048⟩
def TOP_PART_INFO.family_code : Field := ⟨.TOP_PART_INFO, 15, 0, .ro, 0x1D0C⟩
/-! TOP_NODE_COORD (R33). -/
def TOP_NODE_COORD.node_id : Field := ⟨.TOP_NODE_COORD, 48, 32, .ro, 0⟩
def TOP_NODE_COORD.z : Field := ⟨.TOP_NODE_COORD, 23, 16, .sl, 0⟩
def TOP_NODE_COORD.y : Field := ⟨.TOP_NODE_COORD, 15, 8, .sl, 0⟩
def TOP_NODE_COORD.x : Field := ⟨.TOP_NODE_COORD, 7, 0, .sl, 0⟩
/-! TOP_SETUP_DONE (R34). -/
def TOP_SETUP_DONE.done : Field := ⟨.TOP_SETUP_DONE, 19, 0, .w1s, 0x00000⟩
/-! HIF_PORT_CFG (R43). -/
def HIF_PORT_CFG.block_irq_en : Field := ⟨.HIF_PORT_CFG, 15, 15, .rw, 0⟩
def HIF_PORT_CFG.max_speed : Field := ⟨.HIF_PORT_CFG, 11, 10, .sl, 0⟩
def HIF_PORT_CFG.bifurcation : Field := ⟨.HIF_PORT_CFG, 9, 8, .sl, 0⟩
def HIF_PORT_CFG.mode : Field := ⟨.HIF_PORT_CFG, 0, 0, .sl, 0⟩
/-! HIF_PORT_CTL (R44). -/
def HIF_PORT_CTL.setup_exit : Field := ⟨.HIF_PORT_CTL, 1, 1, .wo, 0b0⟩
def HIF_PORT_CTL.port_reset : Field := ⟨.HIF_PORT_CTL, 0, 0, .wo, 0b0⟩
/-! HIF_PORT_STATUS (R44). -/
def HIF_PORT_STATUS.sublink_up : Field := ⟨.HIF_PORT_STATUS, 23, 20, .ro, 0x0⟩
def HIF_PORT_STATUS.width : Field := ⟨.HIF_PORT_STATUS, 15, 11, .ro, 0x00⟩
def HIF_PORT_STATUS.speed : Field := ⟨.HIF_PORT_STATUS, 10, 8, .ro, 0b000⟩
def HIF_PORT_STATUS.nonflit_fallback : Field := ⟨.HIF_PORT_STATUS, 2, 2, .ro, 0b0⟩
def HIF_PORT_STATUS.low_speed : Field := ⟨.HIF_PORT_STATUS, 1, 1, .ro, 0b0⟩
def HIF_PORT_STATUS.in_setup : Field := ⟨.HIF_PORT_STATUS, 0, 0, .ro, 0b1⟩
/-! HIF_VF_CTX_BLOCK (R47). -/
def HIF_VF_CTX_BLOCK.block : Field := ⟨.HIF_VF_CTX_BLOCK, 7, 0, .rw, 0⟩
/-! HIF_VF_TBL_ADDR (R50). -/
def HIF_VF_TBL_ADDR.vf : Field := ⟨.HIF_VF_TBL_ADDR, 19, 11, .rw, 0x000⟩
def HIF_VF_TBL_ADDR.word : Field := ⟨.HIF_VF_TBL_ADDR, 10, 3, .rw, 0x00⟩
/-! HIF_VF_TBL_DATA (R50). -/
def HIF_VF_TBL_DATA.data : Field := ⟨.HIF_VF_TBL_DATA, 63, 0, .rw, 0x0⟩
/-! HIF_INTX_CAUSE (R55). -/
def HIF_INTX_CAUSE.summary : Field := ⟨.HIF_INTX_CAUSE, 31, 0, .ro, 0x0⟩
/-! HIF_INTX_ACK (R55). -/
def HIF_INTX_ACK.vector : Field := ⟨.HIF_INTX_ACK, 10, 0, .wo, 0x000⟩
/-! HIF_DS_SLOT_CTL (R63). -/
def HIF_DS_SLOT_CTL.pwr_ctl : Field := ⟨.HIF_DS_SLOT_CTL, 10, 10, .rw, 0b1⟩
def HIF_DS_SLOT_CTL.pwr_ind : Field := ⟨.HIF_DS_SLOT_CTL, 9, 8, .rw, 0b11⟩
def HIF_DS_SLOT_CTL.attn_ind : Field := ⟨.HIF_DS_SLOT_CTL, 7, 6, .rw, 0b11⟩
def HIF_DS_SLOT_CTL.dll_chg_en : Field := ⟨.HIF_DS_SLOT_CTL, 5, 5, .rw, 0b0⟩
def HIF_DS_SLOT_CTL.hp_int_en : Field := ⟨.HIF_DS_SLOT_CTL, 4, 4, .rw, 0b0⟩
def HIF_DS_SLOT_CTL.pres_chg_en : Field := ⟨.HIF_DS_SLOT_CTL, 3, 3, .rw, 0b0⟩
def HIF_DS_SLOT_CTL.attn_btn_en : Field := ⟨.HIF_DS_SLOT_CTL, 2, 2, .rw, 0b0⟩
def HIF_DS_SLOT_CTL.link_disable : Field := ⟨.HIF_DS_SLOT_CTL, 1, 1, .rw, 0b0⟩
def HIF_DS_SLOT_CTL.pwr_fault_en : Field := ⟨.HIF_DS_SLOT_CTL, 0, 0, .rw, 0b0⟩
/-! HIF_DS_SLOT_STATUS (R63). -/
def HIF_DS_SLOT_STATUS.width : Field := ⟨.HIF_DS_SLOT_STATUS, 23, 19, .ro, 0x00⟩
def HIF_DS_SLOT_STATUS.speed : Field := ⟨.HIF_DS_SLOT_STATUS, 18, 16, .ro, 0b000⟩
def HIF_DS_SLOT_STATUS.removed : Field := ⟨.HIF_DS_SLOT_STATUS, 9, 9, .w1c, 0b0⟩
def HIF_DS_SLOT_STATUS.cfg_error : Field := ⟨.HIF_DS_SLOT_STATUS, 8, 8, .w1c, 0b0⟩
def HIF_DS_SLOT_STATUS.dll_active : Field := ⟨.HIF_DS_SLOT_STATUS, 7, 7, .ro, 0b0⟩
def HIF_DS_SLOT_STATUS.pres_state : Field := ⟨.HIF_DS_SLOT_STATUS, 6, 6, .ro, 0b0⟩
def HIF_DS_SLOT_STATUS.dll_chg : Field := ⟨.HIF_DS_SLOT_STATUS, 3, 3, .w1c, 0b0⟩
def HIF_DS_SLOT_STATUS.pres_chg : Field := ⟨.HIF_DS_SLOT_STATUS, 2, 2, .w1c, 0b0⟩
def HIF_DS_SLOT_STATUS.pwr_fault : Field := ⟨.HIF_DS_SLOT_STATUS, 1, 1, .w1c, 0b0⟩
def HIF_DS_SLOT_STATUS.attn_btn : Field := ⟨.HIF_DS_SLOT_STATUS, 0, 0, .w1c, 0b0⟩
/-! HIF_DS_CFG_ADDR (R66). -/
def HIF_DS_CFG_ADDR.function : Field := ⟨.HIF_DS_CFG_ADDR, 19, 12, .rw, 0x00⟩
def HIF_DS_CFG_ADDR.dword : Field := ⟨.HIF_DS_CFG_ADDR, 11, 2, .rw, 0x000⟩
/-! HIF_DS_CFG_DATA (R66). -/
def HIF_DS_CFG_DATA.data : Field := ⟨.HIF_DS_CFG_DATA, 31, 0, .rw, 0x0⟩
/-! HIF_DS_HDM_CFG (R66). -/
def HIF_DS_HDM_CFG.base : Field := ⟨.HIF_DS_HDM_CFG, 47, 28, .rw, 0x00000⟩
def HIF_DS_HDM_CFG.size : Field := ⟨.HIF_DS_HDM_CFG, 27, 8, .rw, 0x00000⟩
def HIF_DS_HDM_CFG.enable : Field := ⟨.HIF_DS_HDM_CFG, 0, 0, .rw, 0b0⟩
/-! HIF_DS_MEM_ADDR (R66). -/
def HIF_DS_MEM_ADDR.addr : Field := ⟨.HIF_DS_MEM_ADDR, 47, 3, .rw, 0x0⟩
/-! HIF_DS_MEM_DATA (R66). -/
def HIF_DS_MEM_DATA.data : Field := ⟨.HIF_DS_MEM_DATA, 63, 0, .rw, 0x0⟩
/-! CMD_CTL (R108). -/
def CMD_CTL.inline_en : Field := ⟨.CMD_CTL, 8, 8, .rw, 0b1⟩
def CMD_CTL.fetch_batch : Field := ⟨.CMD_CTL, 2, 0, .sl, 0b100⟩
/-! CMD_OUTSTANDING (R108). -/
def CMD_OUTSTANDING.count : Field := ⟨.CMD_OUTSTANDING, 24, 0, .ro, 0x0000000⟩
/-! CMD_RING_HELD (R108). -/
def CMD_RING_HELD.held : Field := ⟨.CMD_RING_HELD, 63, 63, .w1c, 0b0⟩
def CMD_RING_HELD.device_bound : Field := ⟨.CMD_RING_HELD, 62, 62, .ro, 0b0⟩
def CMD_RING_HELD.last_ctx : Field := ⟨.CMD_RING_HELD, 19, 0, .ro, 0x00000⟩
/-! CMD_HANDLE_QUERY (R108). -/
def CMD_HANDLE_QUERY.handle : Field := ⟨.CMD_HANDLE_QUERY, 63, 0, .wo, 0x0⟩
/-! CMD_HANDLE_STATE (R108). -/
def CMD_HANDLE_STATE.echo : Field := ⟨.CMD_HANDLE_STATE, 63, 16, .ro, 0x0⟩
def CMD_HANDLE_STATE.state : Field := ⟨.CMD_HANDLE_STATE, 1, 0, .ro, 0b00⟩
/-! CMD_INLINE_FALLBACK (R108). -/
def CMD_INLINE_FALLBACK.count : Field := ⟨.CMD_INLINE_FALLBACK, 47, 0, .ro, 0x0⟩
/-! CMD_DB_STALE (R108). -/
def CMD_DB_STALE.count : Field := ⟨.CMD_DB_STALE, 47, 0, .ro, 0x0⟩
/-! CTX_SEL (R110). -/
def CTX_SEL.context : Field := ⟨.CTX_SEL, 19, 0, .rw, 0x00000⟩
/-! CTX_CMD (R110). -/
def CTX_CMD.op : Field := ⟨.CTX_CMD, 2, 0, .wo, 0b000⟩
/-! CTX_STATUS (R110). -/
def CTX_STATUS.stager : Field := ⟨.CTX_STATUS, 39, 16, .ro, 0x000000⟩
def CTX_STATUS.result : Field := ⟨.CTX_STATUS, 15, 8, .ro, 0x00⟩
def CTX_STATUS.state : Field := ⟨.CTX_STATUS, 1, 0, .ro, 0b00⟩
/-! CTX_CACHE (R110). -/
def CTX_CACHE.pinned : Field := ⟨.CTX_CACHE, 48, 32, .ro, 0x00000⟩
def CTX_CACHE.cached : Field := ⟨.CTX_CACHE, 16, 0, .ro, 0x00000⟩
/-! CTX_STAGE (R110). -/
def CTX_STAGE.data : Field := ⟨.CTX_STAGE, 63, 0, .rw, 0x0⟩
/-! CTX_VIEW (R110). -/
def CTX_VIEW.data : Field := ⟨.CTX_VIEW, 63, 0, .ro, 0x0⟩
/-! XLT_CTL (R123). -/
def XLT_CTL.pin_limit_us : Field := ⟨.XLT_CTL, 31, 0, .rw, 0x00002710⟩
/-! XLT_WIN_SEL (R123). -/
def XLT_WIN_SEL.index : Field := ⟨.XLT_WIN_SEL, 20, 0, .rw, 0x0⟩
/-! XLT_WIN_COMMIT (R123). -/
def XLT_WIN_COMMIT.index : Field := ⟨.XLT_WIN_COMMIT, 20, 0, .wo, 0x0⟩
/-! XLT_WIN_STATUS (R123). -/
def XLT_WIN_STATUS.generation : Field := ⟨.XLT_WIN_STATUS, 63, 48, .ro, 0x0⟩
def XLT_WIN_STATUS.pending : Field := ⟨.XLT_WIN_STATUS, 47, 47, .ro, 0b0⟩
def XLT_WIN_STATUS.active : Field := ⟨.XLT_WIN_STATUS, 46, 46, .ro, 0b0⟩
def XLT_WIN_STATUS.pins_inactive : Field := ⟨.XLT_WIN_STATUS, 45, 23, .ro, 0x0⟩
def XLT_WIN_STATUS.pins_active : Field := ⟨.XLT_WIN_STATUS, 22, 0, .ro, 0x0⟩
/-! XLT_WIN_RESULT (R123). -/
def XLT_WIN_RESULT.stager : Field := ⟨.XLT_WIN_RESULT, 39, 16, .ro, 0x0⟩
def XLT_WIN_RESULT.result : Field := ⟨.XLT_WIN_RESULT, 7, 0, .ro, 0x00⟩
/-! XLT_WIN_STAGE (R123). -/
def XLT_WIN_STAGE.data : Field := ⟨.XLT_WIN_STAGE, 63, 0, .rw, 0x0⟩
/-! XLT_ENTRY_SEL (R126). -/
def XLT_ENTRY_SEL.index : Field := ⟨.XLT_ENTRY_SEL, 23, 0, .rw, 0x0⟩
/-! XLT_ENTRY_DATA (R126). -/
def XLT_ENTRY_DATA.entry : Field := ⟨.XLT_ENTRY_DATA, 63, 0, .rw, 0x0⟩
/-! XLT_LOAD_ADDR (R126). -/
def XLT_LOAD_ADDR.addr : Field := ⟨.XLT_LOAD_ADDR, 63, 3, .rw, 0x0⟩
/-! XLT_LOAD_CTL (R126). -/
def XLT_LOAD_CTL.start : Field := ⟨.XLT_LOAD_CTL, 52, 52, .wo, 0b0⟩
def XLT_LOAD_CTL.port : Field := ⟨.XLT_LOAD_CTL, 51, 49, .rw, 0b000⟩
def XLT_LOAD_CTL.first : Field := ⟨.XLT_LOAD_CTL, 48, 25, .rw, 0x0⟩
def XLT_LOAD_CTL.count : Field := ⟨.XLT_LOAD_CTL, 24, 0, .rw, 0x0⟩
/-! XLT_LOAD_STATUS (R126). -/
def XLT_LOAD_STATUS.state : Field := ⟨.XLT_LOAD_STATUS, 63, 62, .ro, 0b00⟩
def XLT_LOAD_STATUS.loaded : Field := ⟨.XLT_LOAD_STATUS, 24, 0, .ro, 0x0⟩
/-! XLT_SYNC (R126). -/
def XLT_SYNC.busy : Field := ⟨.XLT_SYNC, 63, 63, .ro, 0b0⟩
def XLT_SYNC.start : Field := ⟨.XLT_SYNC, 0, 0, .wo, 0b0⟩
/-! XLT_FMEM_CFG (R131). -/
def XLT_FMEM_CFG.reserved_gib : Field := ⟨.XLT_FMEM_CFG, 7, 0, .sl, 0x10⟩
/-! MAT_CTL (R167). -/
def MAT_CTL.eager_limit : Field := ⟨.MAT_CTL, 47, 32, .rw, 0x4000⟩
def MAT_CTL.busy_retry_us : Field := ⟨.MAT_CTL, 23, 16, .rw, 0x0A⟩
/-! MAT_HASH_SEED (R167). -/
def MAT_HASH_SEED.seed : Field := ⟨.MAT_HASH_SEED, 31, 0, .sl, 0x0⟩
/-! MAT_STATUS (R167). -/
def MAT_STATUS.ovf_active : Field := ⟨.MAT_STATUS, 63, 63, .ro, 0b0⟩
def MAT_STATUS.held : Field := ⟨.MAT_STATUS, 62, 62, .ro, 0b0⟩
def MAT_STATUS.busy : Field := ⟨.MAT_STATUS, 61, 61, .w1c, 0b0⟩
def MAT_STATUS.used : Field := ⟨.MAT_STATUS, 26, 0, .ro, 0x0⟩
/-! MAT_SUMP_CFG (R167). -/
def MAT_SUMP_CFG.small_limit : Field := ⟨.MAT_SUMP_CFG, 47, 32, .rw, 0x0100⟩
def MAT_SUMP_CFG.high_pct : Field := ⟨.MAT_SUMP_CFG, 6, 0, .rw, 0x5A⟩
/-! MAT_SUMP_STATUS (R167). -/
def MAT_SUMP_STATUS.free : Field := ⟨.MAT_SUMP_STATUS, 56, 32, .ro, 0x1000000⟩
def MAT_SUMP_STATUS.held : Field := ⟨.MAT_SUMP_STATUS, 26, 0, .ro, 0x0⟩
/-! MAT_OVF_STATUS (R167). -/
def MAT_OVF_STATUS.bins : Field := ⟨.MAT_OVF_STATUS, 54, 32, .ro, 0x0⟩
def MAT_OVF_STATUS.entries : Field := ⟨.MAT_OVF_STATUS, 23, 0, .ro, 0x0⟩
/-! MAT_ORDER_RESET (R167). -/
def MAT_ORDER_RESET.context : Field := ⟨.MAT_ORDER_RESET, 59, 40, .wo, 0x0⟩
def MAT_ORDER_RESET.remote : Field := ⟨.MAT_ORDER_RESET, 39, 0, .wo, 0x0⟩
/-! MAT_DEFER_COUNT (R167). -/
def MAT_DEFER_COUNT.count : Field := ⟨.MAT_DEFER_COUNT, 47, 0, .ro, 0x0⟩
/-! MAT_BUSY_COUNT (R167). -/
def MAT_BUSY_COUNT.count : Field := ⟨.MAT_BUSY_COUNT, 47, 0, .ro, 0x0⟩
/-! MAT_WITHDRAW_COUNT (R167). -/
def MAT_WITHDRAW_COUNT.count : Field := ⟨.MAT_WITHDRAW_COUNT, 47, 0, .ro, 0x0⟩
/-! RMA_CTL (R199). -/
def RMA_CTL.retry_us : Field := ⟨.RMA_CTL, 47, 32, .rw, 0x0064⟩
def RMA_CTL.busy_retry_us : Field := ⟨.RMA_CTL, 31, 24, .rw, 0x0A⟩
/-! RMA_STATUS (R199). -/
def RMA_STATUS.busy : Field := ⟨.RMA_STATUS, 63, 63, .w1c, 0b0⟩
def RMA_STATUS.ops_used : Field := ⟨.RMA_STATUS, 56, 32, .ro, 0x0⟩
def RMA_STATUS.peers_used : Field := ⟨.RMA_STATUS, 24, 0, .ro, 0x0⟩
/-! RMA_LATE_COUNT (R199). -/
def RMA_LATE_COUNT.count : Field := ⟨.RMA_LATE_COUNT, 47, 0, .ro, 0x0⟩
/-! RMA_LATE_LAST (R199). -/
def RMA_LATE_LAST.context : Field := ⟨.RMA_LATE_LAST, 51, 32, .ro, 0x00000⟩
def RMA_LATE_LAST.osn : Field := ⟨.RMA_LATE_LAST, 31, 0, .ro, 0x0⟩
/-! RMA_REG_CTL (R199). -/
def RMA_REG_CTL.enable : Field := ⟨.RMA_REG_CTL, 16, 16, .rw, 0⟩
def RMA_REG_CTL.key : Field := ⟨.RMA_REG_CTL, 15, 0, .rw, 0⟩
/-! RMA_CTR_SEL (R199). -/
def RMA_CTR_SEL.counter : Field := ⟨.RMA_CTR_SEL, 15, 0, .rw, 0x0000⟩
/-! RMA_CTR_CFG (R199). -/
def RMA_CTR_CFG.enable : Field := ⟨.RMA_CTR_CFG, 31, 31, .rw, 0b0⟩
def RMA_CTR_CFG.mode : Field := ⟨.RMA_CTR_CFG, 30, 30, .rw, 0b0⟩
def RMA_CTR_CFG.mirror : Field := ⟨.RMA_CTR_CFG, 29, 29, .rw, 0b0⟩
def RMA_CTR_CFG.owner : Field := ⟨.RMA_CTR_CFG, 19, 0, .rw, 0x00000⟩
/-! RMA_CTR_VALUE (R199). -/
def RMA_CTR_VALUE.value : Field := ⟨.RMA_CTR_VALUE, 63, 0, .rw, 0x0⟩
/-! RMA_CTR_FAIL (R199). -/
def RMA_CTR_FAIL.fail : Field := ⟨.RMA_CTR_FAIL, 31, 0, .rw, 0x0⟩
/-! RMA_CTR_MIRROR (R199). -/
def RMA_CTR_MIRROR.addr : Field := ⟨.RMA_CTR_MIRROR, 63, 3, .rw, 0x0⟩
/-! RMA_RESEND_COUNT (R199). -/
def RMA_RESEND_COUNT.count : Field := ⟨.RMA_RESEND_COUNT, 47, 0, .ro, 0x0⟩
/-! RMA_DUP_COUNT (R199). -/
def RMA_DUP_COUNT.count : Field := ⟨.RMA_DUP_COUNT, 47, 0, .ro, 0x0⟩
/-! RMA_BUSY_COUNT (R199). -/
def RMA_BUSY_COUNT.count : Field := ⟨.RMA_BUSY_COUNT, 47, 0, .ro, 0x0⟩
/-! RMA_TRIG_STATUS (R199). -/
def RMA_TRIG_STATUS.pending : Field := ⟨.RMA_TRIG_STATUS, 20, 0, .ro, 0x0⟩
/-! RMA_CTR_WORD (R199). -/
def RMA_CTR_WORD.value : Field := ⟨.RMA_CTR_WORD, 63, 0, .rw, 0x0⟩
/-! CSC_CTL (R230). -/
def CSC_CTL.rerequest_us : Field := ⟨.CSC_CTL, 63, 48, .rw, 0x00FA⟩
def CSC_CTL.long_min_kib : Field := ⟨.CSC_CTL, 47, 32, .rw, 0x0040⟩
def CSC_CTL.seg_kib : Field := ⟨.CSC_CTL, 31, 24, .sl, 0x40⟩
def CSC_CTL.seg_window : Field := ⟨.CSC_CTL, 23, 16, .sl, 0x20⟩
/-! CSC_STATUS (R230). -/
def CSC_STATUS.abort : Field := ⟨.CSC_STATUS, 63, 63, .w1c, 0b0⟩
def CSC_STATUS.staging_full : Field := ⟨.CSC_STATUS, 62, 62, .ro, 0b0⟩
def CSC_STATUS.active : Field := ⟨.CSC_STATUS, 46, 32, .ro, 0x0⟩
def CSC_STATUS.staging_kib : Field := ⟨.CSC_STATUS, 20, 0, .ro, 0x0⟩
/-! CSC_GROUP_SEL (R230). -/
def CSC_GROUP_SEL.dim : Field := ⟨.CSC_GROUP_SEL, 13, 12, .rw, 0b00⟩
def CSC_GROUP_SEL.group : Field := ⟨.CSC_GROUP_SEL, 11, 0, .rw, 0x000⟩
/-! CSC_GROUP_CFG (R230). -/
def CSC_GROUP_CFG.busy : Field := ⟨.CSC_GROUP_CFG, 21, 21, .ro, 0b0⟩
def CSC_GROUP_CFG.valid : Field := ⟨.CSC_GROUP_CFG, 20, 20, .rw, 0b0⟩
def CSC_GROUP_CFG.owner : Field := ⟨.CSC_GROUP_CFG, 19, 0, .rw, 0x00000⟩
/-! CSC_GROUP_MASK (R230). -/
def CSC_GROUP_MASK.members : Field := ⟨.CSC_GROUP_MASK, 47, 0, .rw, 0x0⟩
/-! CSC_GROUP_SEQ (R230). -/
def CSC_GROUP_SEQ.next : Field := ⟨.CSC_GROUP_SEQ, 31, 0, .ro, 0x0⟩
/-! CSC_RESTART_COUNT (R230). -/
def CSC_RESTART_COUNT.count : Field := ⟨.CSC_RESTART_COUNT, 47, 0, .ro, 0x0⟩
/-! CSC_ABORT_COUNT (R230). -/
def CSC_ABORT_COUNT.count : Field := ⟨.CSC_ABORT_COUNT, 47, 0, .ro, 0x0⟩
/-! CSC_EARLY_DROP_COUNT (R230). -/
def CSC_EARLY_DROP_COUNT.count : Field := ⟨.CSC_EARLY_DROP_COUNT, 47, 0, .ro, 0x0⟩
/-! RTE_CTL (R264). -/
def RTE_CTL.hold_us : Field := ⟨.RTE_CTL, 63, 48, .rw, 0x0032⟩
def RTE_CTL.escape_wait : Field := ⟨.RTE_CTL, 47, 40, .rw, 0x40⟩
def RTE_CTL.mcast_en : Field := ⟨.RTE_CTL, 34, 34, .rw, 0b1⟩
def RTE_CTL.mode : Field := ⟨.RTE_CTL, 33, 32, .rw, 0b01⟩
def RTE_CTL.nm_count : Field := ⟨.RTE_CTL, 2, 0, .rw, 0b100⟩
/-! RTE_ADAPT (R264). -/
def RTE_ADAPT.nm_bias : Field := ⟨.RTE_ADAPT, 23, 16, .rw, 0x20⟩
def RTE_ADAPT.w_hint : Field := ⟨.RTE_ADAPT, 15, 8, .rw, 0x08⟩
def RTE_ADAPT.w_queue : Field := ⟨.RTE_ADAPT, 7, 0, .rw, 0x01⟩
/-! RTE_URGENT_CFG (R264). -/
def RTE_URGENT_CFG.rate : Field := ⟨.RTE_URGENT_CFG, 31, 16, .rw, 0x0040⟩
def RTE_URGENT_CFG.burst : Field := ⟨.RTE_URGENT_CFG, 15, 0, .rw, 0x0040⟩
/-! RTE_EPOCH (R264). -/
def RTE_EPOCH.active : Field := ⟨.RTE_EPOCH, 0, 0, .rw, 0b0⟩
/-! RTE_DRAIN (R264). -/
def RTE_DRAIN.count : Field := ⟨.RTE_DRAIN, 23, 0, .ro, 0x0⟩
/-! RTE_DRAIN_TIME (R264). -/
def RTE_DRAIN_TIME.last_busy : Field := ⟨.RTE_DRAIN_TIME, 63, 0, .ro, 0x0⟩
/-! RTE_BANK_SEL (R264). -/
def RTE_BANK_SEL.bank : Field := ⟨.RTE_BANK_SEL, 11, 11, .rw, 0b0⟩
def RTE_BANK_SEL.table : Field := ⟨.RTE_BANK_SEL, 10, 9, .rw, 0b00⟩
def RTE_BANK_SEL.index : Field := ⟨.RTE_BANK_SEL, 8, 0, .rw, 0x000⟩
/-! RTE_BANK_DATA (R264). -/
def RTE_BANK_DATA.entry : Field := ⟨.RTE_BANK_DATA, 63, 0, .rw, 0x0⟩
/-! RTE_STATUS (R264). -/
def RTE_STATUS.no_route : Field := ⟨.RTE_STATUS, 63, 63, .w1c, 0b0⟩
def RTE_STATUS.held : Field := ⟨.RTE_STATUS, 62, 62, .w1c, 0b0⟩
def RTE_STATUS.bank_refused : Field := ⟨.RTE_STATUS, 61, 61, .w1c, 0b0⟩
def RTE_STATUS.flip_refused : Field := ⟨.RTE_STATUS, 60, 60, .w1c, 0b0⟩
/-! RTE_DISCARD_COUNT (R264). -/
def RTE_DISCARD_COUNT.count : Field := ⟨.RTE_DISCARD_COUNT, 47, 0, .ro, 0x0⟩
/-! RTE_ESCAPE_COUNT (R264). -/
def RTE_ESCAPE_COUNT.count : Field := ⟨.RTE_ESCAPE_COUNT, 47, 0, .ro, 0x0⟩
/-! RTE_NONMIN_COUNT (R264). -/
def RTE_NONMIN_COUNT.count : Field := ⟨.RTE_NONMIN_COUNT, 47, 0, .ro, 0x0⟩
/-! RTE_URGENT_DIVERT_COUNT (R264). -/
def RTE_URGENT_DIVERT_COUNT.count : Field := ⟨.RTE_URGENT_DIVERT_COUNT, 47, 0, .ro, 0x0⟩
/-! RTE_PORT_MAP (R264). -/
def RTE_PORT_MAP.state : Field := ⟨.RTE_PORT_MAP, 41, 40, .ro, 0b00⟩
def RTE_PORT_MAP.route_dis : Field := ⟨.RTE_PORT_MAP, 32, 32, .rw, 0b0⟩
def RTE_PORT_MAP.peer : Field := ⟨.RTE_PORT_MAP, 16, 0, .sl, 0⟩
/-! RTE_LINE_STATE (R264). -/
def RTE_LINE_STATE.row : Field := ⟨.RTE_LINE_STATE, 47, 0, .rw, 0x0⟩
/-! LAN_CFG (R290). -/
def LAN_CFG.malsol : Field := ⟨.LAN_CFG, 8, 8, .sl, 0⟩
def LAN_CFG.tx_invert : Field := ⟨.LAN_CFG, 1, 1, .sl, 0b0⟩
def LAN_CFG.adapt_freeze : Field := ⟨.LAN_CFG, 0, 0, .rw, 0b0⟩
/-! LAN_CTL (R290). -/
def LAN_CTL.retire : Field := ⟨.LAN_CTL, 2, 2, .wo, 0b0⟩
def LAN_CTL.setup_exit : Field := ⟨.LAN_CTL, 1, 1, .wo, 0b0⟩
def LAN_CTL.lane_reset : Field := ⟨.LAN_CTL, 0, 0, .wo, 0b0⟩
/-! LAN_STATUS (R290). -/
def LAN_STATUS.skew : Field := ⟨.LAN_STATUS, 48, 40, .ro, 0x000⟩
def LAN_STATUS.peer_port : Field := ⟨.LAN_STATUS, 39, 32, .ro, 0x00⟩
def LAN_STATUS.eye_warn : Field := ⟨.LAN_STATUS, 7, 7, .ro, 0b0⟩
def LAN_STATUS.swapped : Field := ⟨.LAN_STATUS, 6, 6, .ro, 0b0⟩
def LAN_STATUS.rx_inverted : Field := ⟨.LAN_STATUS, 5, 5, .ro, 0b0⟩
def LAN_STATUS.am_lock : Field := ⟨.LAN_STATUS, 4, 4, .ro, 0b0⟩
def LAN_STATUS.signal : Field := ⟨.LAN_STATUS, 3, 3, .ro, 0b0⟩
def LAN_STATUS.state : Field := ⟨.LAN_STATUS, 2, 0, .ro, 0b000⟩
/-! LAN_TX_EQ (R290). -/
def LAN_TX_EQ.taps : Field := ⟨.LAN_TX_EQ, 47, 0, .rw, 0x0000F834FC00⟩
/-! LAN_RX_EQ (R290). -/
def LAN_RX_EQ.dfe1 : Field := ⟨.LAN_RX_EQ, 23, 16, .rw, 0x00⟩
def LAN_RX_EQ.gain : Field := ⟨.LAN_RX_EQ, 15, 8, .rw, 0x40⟩
def LAN_RX_EQ.ctle : Field := ⟨.LAN_RX_EQ, 5, 0, .rw, 0x10⟩
/-! LAN_EYE (R290). -/
def LAN_EYE.ef : Field := ⟨.LAN_EYE, 63, 48, .ro, 0x8000⟩
def LAN_EYE.ef_min : Field := ⟨.LAN_EYE, 47, 32, .rw, 0x7FFF⟩
def LAN_EYE.low_windows : Field := ⟨.LAN_EYE, 31, 0, .ro, 0x0⟩
/-! LAN_FEC_CORR (R290). -/
def LAN_FEC_CORR.count : Field := ⟨.LAN_FEC_CORR, 47, 0, .ro, 0x0⟩
/-! LAN_FEC_UNCORR (R290). -/
def LAN_FEC_UNCORR.count : Field := ⟨.LAN_FEC_UNCORR, 47, 0, .ro, 0x0⟩
/-! LAN_TEST_CFG (R290). -/
def LAN_TEST_CFG.chk_pat : Field := ⟨.LAN_TEST_CFG, 6, 4, .rw, 0b000⟩
def LAN_TEST_CFG.gen_pat : Field := ⟨.LAN_TEST_CFG, 2, 0, .rw, 0b000⟩
/-! LAN_TEST_PATTERN (R290). -/
def LAN_TEST_PATTERN.user : Field := ⟨.LAN_TEST_PATTERN, 63, 0, .rw, 0x0⟩
/-! LAN_TEST_ERR (R290). -/
def LAN_TEST_ERR.lock : Field := ⟨.LAN_TEST_ERR, 63, 63, .ro, 0b0⟩
def LAN_TEST_ERR.errors : Field := ⟨.LAN_TEST_ERR, 47, 0, .rw, 0x0⟩
/-! LAN_INJECT (R290). -/
def LAN_INJECT.start : Field := ⟨.LAN_INJECT, 32, 32, .wo, 0b0⟩
def LAN_INJECT.count : Field := ⟨.LAN_INJECT, 31, 16, .rw, 0x0⟩
def LAN_INJECT.nsym : Field := ⟨.LAN_INJECT, 11, 8, .rw, 0x0⟩
def LAN_INJECT.mode : Field := ⟨.LAN_INJECT, 1, 0, .rw, 0b00⟩
/-! LAN_M2_CTL (R290). -/
def LAN_M2_CTL.slip : Field := ⟨.LAN_M2_CTL, 0, 0, .wo, 0b0⟩
/-! LAN_M2_STATUS (R290). -/
def LAN_M2_STATUS.aligned : Field := ⟨.LAN_M2_STATUS, 15, 15, .ro, 0b0⟩
def LAN_M2_STATUS.comma_seen : Field := ⟨.LAN_M2_STATUS, 14, 14, .ro, 0b0⟩
def LAN_M2_STATUS.comma_pos : Field := ⟨.LAN_M2_STATUS, 13, 10, .ro, 0x0⟩
def LAN_M2_STATUS.rd : Field := ⟨.LAN_M2_STATUS, 9, 9, .ro, 0b0⟩
def LAN_M2_STATUS.deskewed : Field := ⟨.LAN_M2_STATUS, 8, 8, .ro, 0b0⟩
/-! LAN_M2_ERR (R290). -/
def LAN_M2_ERR.code_viol : Field := ⟨.LAN_M2_ERR, 47, 24, .rw, 0x0⟩
def LAN_M2_ERR.disp_err : Field := ⟨.LAN_M2_ERR, 23, 0, .rw, 0x0⟩
/-! LAN_EF_THRESH (R290). -/
def LAN_EF_THRESH.warn : Field := ⟨.LAN_EF_THRESH, 31, 16, .rw, 0x0078⟩
def LAN_EF_THRESH.fail : Field := ⟨.LAN_EF_THRESH, 15, 0, .rw, 0x0064⟩
/-! LAN_RETIRED (R290). -/
def LAN_RETIRED.lanes : Field := ⟨.LAN_RETIRED, 63, 0, .ro, 0x0⟩
/-! LNK_PORT_CFG (R319). -/
def LNK_PORT_CFG.spill_mib : Field := ⟨.LNK_PORT_CFG, 36, 32, .sl, 0⟩
def LNK_PORT_CFG.credit_timeout_us : Field := ⟨.LNK_PORT_CFG, 31, 16, .rw, 0x0064⟩
def LNK_PORT_CFG.replay_max : Field := ⟨.LNK_PORT_CFG, 15, 8, .rw, 0x08⟩
/-! LNK_PORT_CTL (R319). -/
def LNK_PORT_CTL.link_reset : Field := ⟨.LNK_PORT_CTL, 2, 2, .wo, 0b0⟩
def LNK_PORT_CTL.setup_exit : Field := ⟨.LNK_PORT_CTL, 1, 1, .wo, 0b0⟩
def LNK_PORT_CTL.enter_setup : Field := ⟨.LNK_PORT_CTL, 0, 0, .wo, 0b0⟩
/-! LNK_PORT_STATUS (R319). -/
def LNK_PORT_STATUS.down_cause : Field := ⟨.LNK_PORT_STATUS, 63, 56, .ro, 0x00⟩
def LNK_PORT_STATUS.req_dropped : Field := ⟨.LNK_PORT_STATUS, 33, 33, .w1c, 0b0⟩
def LNK_PORT_STATUS.x1 : Field := ⟨.LNK_PORT_STATUS, 32, 32, .ro, 0b0⟩
def LNK_PORT_STATUS.peer_port : Field := ⟨.LNK_PORT_STATUS, 23, 16, .ro, 0x00⟩
def LNK_PORT_STATUS.state : Field := ⟨.LNK_PORT_STATUS, 2, 0, .ro, 0b000⟩
/-! LNK_PEER_ID (R319). -/
def LNK_PEER_ID.identity : Field := ⟨.LNK_PEER_ID, 63, 0, .ro, 0x0⟩
/-! LNK_POOL_CFG (R319). -/
def LNK_POOL_CFG.e1 : Field := ⟨.LNK_POOL_CFG, 62, 56, .sl, 0x0E⟩
def LNK_POOL_CFG.e0 : Field := ⟨.LNK_POOL_CFG, 55, 49, .sl, 0x0E⟩
def LNK_POOL_CFG.vc6 : Field := ⟨.LNK_POOL_CFG, 48, 42, .sl, 0x10⟩
def LNK_POOL_CFG.vc5 : Field := ⟨.LNK_POOL_CFG, 41, 35, .sl, 0x10⟩
def LNK_POOL_CFG.vc4 : Field := ⟨.LNK_POOL_CFG, 34, 28, .sl, 0x10⟩
def LNK_POOL_CFG.vc3 : Field := ⟨.LNK_POOL_CFG, 27, 21, .sl, 0x10⟩
def LNK_POOL_CFG.vc2 : Field := ⟨.LNK_POOL_CFG, 20, 14, .sl, 0x10⟩
def LNK_POOL_CFG.vc1 : Field := ⟨.LNK_POOL_CFG, 13, 7, .sl, 0x10⟩
def LNK_POOL_CFG.vc0 : Field := ⟨.LNK_POOL_CFG, 6, 0, .sl, 0x04⟩
/-! LNK_REPLAY_STATUS (R319). -/
def LNK_REPLAY_STATUS.outstanding : Field := ⟨.LNK_REPLAY_STATUS, 48, 32, .ro, 0x0⟩
def LNK_REPLAY_STATUS.spilled : Field := ⟨.LNK_REPLAY_STATUS, 15, 0, .ro, 0x0⟩
/-! LNK_TIME_STATUS (R319). -/
def LNK_TIME_STATUS.peer_distance : Field := ⟨.LNK_TIME_STATUS, 63, 56, .ro, 0xFF⟩
def LNK_TIME_STATUS.delay : Field := ⟨.LNK_TIME_STATUS, 31, 0, .ro, 0x0⟩
/-! LNK_TIME_ADJ (R319). -/
def LNK_TIME_ADJ.asym : Field := ⟨.LNK_TIME_ADJ, 15, 0, .rw, 0x0000⟩
/-! LNK_CRC_COUNT (R319). -/
def LNK_CRC_COUNT.count : Field := ⟨.LNK_CRC_COUNT, 47, 0, .ro, 0x0⟩
/-! LNK_REPLAY_COUNT (R319). -/
def LNK_REPLAY_COUNT.count : Field := ⟨.LNK_REPLAY_COUNT, 47, 0, .ro, 0x0⟩
/-! LNK_DOWN_COUNT (R319). -/
def LNK_DOWN_COUNT.count : Field := ⟨.LNK_DOWN_COUNT, 47, 0, .ro, 0x0⟩
/-! LNK_LIVE (R319). -/
def LNK_LIVE.ports : Field := ⟨.LNK_LIVE, 63, 0, .ro, 0x0⟩
/-! HDL_CORE_CTL (R352). -/
def HDL_CORE_CTL.retire : Field := ⟨.HDL_CORE_CTL, 1, 1, .wo, 0b0⟩
def HDL_CORE_CTL.reset : Field := ⟨.HDL_CORE_CTL, 0, 0, .wo, 0b0⟩
/-! HDL_CORE_STATUS (R352). -/
def HDL_CORE_STATUS.stop_status : Field := ⟨.HDL_CORE_STATUS, 63, 56, .ro, 0x00⟩
def HDL_CORE_STATUS.stop_detail : Field := ⟨.HDL_CORE_STATUS, 55, 48, .ro, 0x00⟩
def HDL_CORE_STATUS.trigger : Field := ⟨.HDL_CORE_STATUS, 43, 32, .ro, 0x000⟩
def HDL_CORE_STATUS.state : Field := ⟨.HDL_CORE_STATUS, 2, 0, .ro, 0b000⟩
/-! HDL_CORE_SP (R352). -/
def HDL_CORE_SP.sp : Field := ⟨.HDL_CORE_SP, 63, 0, .rw, 0x0⟩
/-! HDL_CORE_TIMECMP (R352). -/
def HDL_CORE_TIMECMP.cmp : Field := ⟨.HDL_CORE_TIMECMP, 63, 0, .rw, 0xFFFFFFFFFFFFFFFF⟩
/-! HDL_CFG (R352). -/
def HDL_CFG.budget_us : Field := ⟨.HDL_CFG, 63, 48, .rw, 0x0064⟩
def HDL_CFG.fw_cores : Field := ⟨.HDL_CFG, 5, 0, .sl, 0x04⟩
/-! HDL_IPI_SET (R352). -/
def HDL_IPI_SET.msip : Field := ⟨.HDL_IPI_SET, 63, 0, .w1s, 0x0⟩
/-! HDL_IPI_PEND (R352). -/
def HDL_IPI_PEND.msip : Field := ⟨.HDL_IPI_PEND, 63, 0, .w1c, 0x0⟩
/-! HDL_TRIG_SEL (R352). -/
def HDL_TRIG_SEL.trigger : Field := ⟨.HDL_TRIG_SEL, 11, 0, .rw, 0x000⟩
/-! HDL_TRIG_CFG (R352). -/
def HDL_TRIG_CFG.enable : Field := ⟨.HDL_TRIG_CFG, 63, 63, .rw, 0b0⟩
def HDL_TRIG_CFG.kind : Field := ⟨.HDL_TRIG_CFG, 62, 61, .rw, 0b00⟩
def HDL_TRIG_CFG.serial : Field := ⟨.HDL_TRIG_CFG, 60, 60, .rw, 0b0⟩
def HDL_TRIG_CFG.prio : Field := ⟨.HDL_TRIG_CFG, 59, 57, .rw, 0b000⟩
def HDL_TRIG_CFG.owner : Field := ⟨.HDL_TRIG_CFG, 51, 32, .rw, 0x00000⟩
def HDL_TRIG_CFG.source : Field := ⟨.HDL_TRIG_CFG, 20, 0, .rw, 0x0⟩
/-! HDL_TRIG_CORES (R352). -/
def HDL_TRIG_CORES.mask : Field := ⟨.HDL_TRIG_CORES, 63, 0, .rw, 0x0⟩
/-! HDL_TRIG_PC (R352). -/
def HDL_TRIG_PC.entry : Field := ⟨.HDL_TRIG_PC, 63, 1, .rw, 0x0⟩
/-! HDL_TRIG_ARG (R352). -/
def HDL_TRIG_ARG.arg : Field := ⟨.HDL_TRIG_ARG, 63, 0, .rw, 0x0⟩
/-! HDL_QUEUE (R352). -/
def HDL_QUEUE.full : Field := ⟨.HDL_QUEUE, 63, 63, .w1c, 0b0⟩
def HDL_QUEUE.queued : Field := ⟨.HDL_QUEUE, 16, 0, .ro, 0x0⟩
/-! HDL_MEM_ADDR (R352). -/
def HDL_MEM_ADDR.offset : Field := ⟨.HDL_MEM_ADDR, 39, 3, .rw, 0x0⟩
/-! HDL_MEM_DATA (R352). -/
def HDL_MEM_DATA.data : Field := ⟨.HDL_MEM_DATA, 63, 0, .rw, 0x0⟩
/-! XLT_AD_MODE (R353). -/
def XLT_AD_MODE.mode : Field := ⟨.XLT_AD_MODE, 0, 0, .rw, 0b0⟩
/-! SPD_STATUS (R354). -/
def SPD_STATUS.busy_host : Field := ⟨.SPD_STATUS, 7, 0, .w1c, 0x00⟩
/-! SPD_COLLISION_COUNT (R354). -/
def SPD_COLLISION_COUNT.count : Field := ⟨.SPD_COLLISION_COUNT, 47, 0, .ro, 0x0⟩
/-! SPD_COLLISION_LAST (R354). -/
def SPD_COLLISION_LAST.kind : Field := ⟨.SPD_COLLISION_LAST, 32, 32, .ro, 0b0⟩
def SPD_COLLISION_LAST.word : Field := ⟨.SPD_COLLISION_LAST, 25, 3, .ro, 0x0⟩
/-! SPD_MARCH_CTL (R354). -/
def SPD_MARCH_CTL.repair : Field := ⟨.SPD_MARCH_CTL, 2, 2, .rw, 0b1⟩
def SPD_MARCH_CTL.mode : Field := ⟨.SPD_MARCH_CTL, 1, 1, .rw, 0b0⟩
def SPD_MARCH_CTL.start : Field := ⟨.SPD_MARCH_CTL, 0, 0, .wo, 0b0⟩
/-! SPD_MARCH_MASK (R354). -/
def SPD_MARCH_MASK.banks : Field := ⟨.SPD_MARCH_MASK, 63, 0, .rw, 0x0⟩
/-! SPD_MARCH_STATUS (R354). -/
def SPD_MARCH_STATUS.running : Field := ⟨.SPD_MARCH_STATUS, 63, 63, .ro, 0b0⟩
def SPD_MARCH_STATUS.done : Field := ⟨.SPD_MARCH_STATUS, 62, 62, .w1c, 0b0⟩
/-! SPD_MARCH_FAIL (R354). -/
def SPD_MARCH_FAIL.banks : Field := ⟨.SPD_MARCH_FAIL, 63, 0, .ro, 0x0⟩
/-! SPD_BANK_OWNER (R354). -/
def SPD_BANK_OWNER.owner : Field := ⟨.SPD_BANK_OWNER, 7, 0, .rw, 0x80⟩
/-! SPD_BANK_CTL (R354). -/
def SPD_BANK_CTL.state : Field := ⟨.SPD_BANK_CTL, 4, 2, .ro, 0b000⟩
def SPD_BANK_CTL.auto_wake : Field := ⟨.SPD_BANK_CTL, 1, 1, .rw, 0b1⟩
def SPD_BANK_CTL.retain : Field := ⟨.SPD_BANK_CTL, 0, 0, .rw, 0b0⟩
/-! SPD_REPAIR (R354). -/
def SPD_REPAIR.spare_left : Field := ⟨.SPD_REPAIR, 23, 16, .ro, 0⟩
def SPD_REPAIR.soft : Field := ⟨.SPD_REPAIR, 15, 8, .ro, 0x00⟩
def SPD_REPAIR.fused : Field := ⟨.SPD_REPAIR, 7, 0, .ro, 0⟩
/-! SEM_CTL (R355). -/
def SEM_CTL.grant_window_us : Field := ⟨.SEM_CTL, 15, 0, .rw, 0x000A⟩
/-! SEM_INHERIT_LOG (R355). -/
def SEM_INHERIT_LOG.priority : Field := ⟨.SEM_INHERIT_LOG, 42, 40, .ro, 0b000⟩
def SEM_INHERIT_LOG.semaphore : Field := ⟨.SEM_INHERIT_LOG, 37, 32, .ro, 0x00⟩
def SEM_INHERIT_LOG.holder : Field := ⟨.SEM_INHERIT_LOG, 23, 0, .ro, 0x0⟩
/-! SEM_FORCE (R355). -/
def SEM_FORCE.semaphore : Field := ⟨.SEM_FORCE, 5, 0, .wo, 0x00⟩
/-! SEM_ACQ (R355). -/
def SEM_ACQ.acquire : Field := ⟨.SEM_ACQ, 63, 0, .ra, 0x0⟩
/-! SEM_STATE (R355). -/
def SEM_STATE.held : Field := ⟨.SEM_STATE, 63, 63, .ro, 0b0⟩
def SEM_STATE.orphan : Field := ⟨.SEM_STATE, 62, 62, .ro, 0b0⟩
def SEM_STATE.reserved : Field := ⟨.SEM_STATE, 61, 61, .ro, 0b0⟩
def SEM_STATE.effective : Field := ⟨.SEM_STATE, 58, 56, .ro, 0b000⟩
def SEM_STATE.waiters : Field := ⟨.SEM_STATE, 46, 40, .ro, 0x00⟩
def SEM_STATE.master : Field := ⟨.SEM_STATE, 23, 0, .ro, 0x0⟩
/-! FLT_STATUS (R358). -/
def FLT_STATUS.first_valid : Field := ⟨.FLT_STATUS, 63, 63, .w1c, 0b0⟩
def FLT_STATUS.esc_running : Field := ⟨.FLT_STATUS, 62, 62, .ro, 0b0⟩
def FLT_STATUS.esc_done : Field := ⟨.FLT_STATUS, 61, 61, .w1c, 0b0⟩
def FLT_STATUS.severe_count : Field := ⟨.FLT_STATUS, 47, 32, .ro, 0x0⟩
def FLT_STATUS.also_count : Field := ⟨.FLT_STATUS, 31, 0, .ro, 0x0⟩
/-! FLT_FIRST (R359). -/
def FLT_FIRST.severity : Field := ⟨.FLT_FIRST, 63, 62, .ro, 0b00⟩
def FLT_FIRST.injected : Field := ⟨.FLT_FIRST, 61, 61, .ro, 0b0⟩
def FLT_FIRST.source : Field := ⟨.FLT_FIRST, 58, 48, .ro, 0x000⟩
def FLT_FIRST.master : Field := ⟨.FLT_FIRST, 47, 24, .ro, 0x000000⟩
def FLT_FIRST.detail : Field := ⟨.FLT_FIRST, 23, 0, .ro, 0x000000⟩
/-! FLT_FIRST_TIME (R359). -/
def FLT_FIRST_TIME.time : Field := ⟨.FLT_FIRST_TIME, 63, 0, .ro, 0x0⟩
/-! FLT_COUNT (R361). -/
def FLT_COUNT.severe : Field := ⟨.FLT_COUNT, 63, 63, .ro, 0b0⟩
def FLT_COUNT.pending : Field := ⟨.FLT_COUNT, 62, 62, .ro, 0b0⟩
def FLT_COUNT.win_count : Field := ⟨.FLT_COUNT, 61, 48, .ro, 0x0⟩
def FLT_COUNT.total : Field := ⟨.FLT_COUNT, 47, 0, .ro, 0x0⟩
/-! FLT_WINDOW (R361). -/
def FLT_WINDOW.w_us : Field := ⟨.FLT_WINDOW, 31, 0, .rw, 0⟩
/-! FLT_THRESH (R361). -/
def FLT_THRESH.n_events : Field := ⟨.FLT_THRESH, 15, 0, .rw, 0⟩
/-! FLT_ESC_TIMER (R362). -/
def FLT_ESC_TIMER.running : Field := ⟨.FLT_ESC_TIMER, 63, 63, .ro, 0b0⟩
def FLT_ESC_TIMER.remaining_us : Field := ⟨.FLT_ESC_TIMER, 47, 32, .ro, 0x0⟩
def FLT_ESC_TIMER.duration_us : Field := ⟨.FLT_ESC_TIMER, 15, 0, .rw, 0x0064⟩
/-! FLT_ESC_ACTION (R362). -/
def FLT_ESC_ACTION.hw_enable : Field := ⟨.FLT_ESC_ACTION, 63, 63, .rw, 0b1⟩
def FLT_ESC_ACTION.last_reaction : Field := ⟨.FLT_ESC_ACTION, 59, 56, .ro, 0x0⟩
def FLT_ESC_ACTION.last_source : Field := ⟨.FLT_ESC_ACTION, 50, 40, .ro, 0x000⟩
def FLT_ESC_ACTION.cmd : Field := ⟨.FLT_ESC_ACTION, 17, 16, .wo, 0b00⟩
def FLT_ESC_ACTION.all : Field := ⟨.FLT_ESC_ACTION, 11, 11, .wo, 0b0⟩
def FLT_ESC_ACTION.source : Field := ⟨.FLT_ESC_ACTION, 10, 0, .wo, 0x000⟩
/-! FLT_INJECT (R362). -/
def FLT_INJECT.start : Field := ⟨.FLT_INJECT, 63, 63, .wo, 0b0⟩
def FLT_INJECT.busy : Field := ⟨.FLT_INJECT, 62, 62, .ro, 0b0⟩
def FLT_INJECT.count : Field := ⟨.FLT_INJECT, 47, 32, .rw, 0x0⟩
def FLT_INJECT.interval_us : Field := ⟨.FLT_INJECT, 31, 16, .rw, 0x0⟩
def FLT_INJECT.source : Field := ⟨.FLT_INJECT, 10, 0, .rw, 0x000⟩
/-! TOP_STOP (R386). -/
def TOP_STOP.stopped : Field := ⟨.TOP_STOP, 63, 63, .ro, 0b0⟩
def TOP_STOP.block : Field := ⟨.TOP_STOP, 52, 48, .ro, 0x00⟩
def TOP_STOP.source : Field := ⟨.TOP_STOP, 42, 32, .ro, 0x000⟩
/-! RSV_CTL (R415). -/
def RSV_CTL.detach : Field := ⟨.RSV_CTL, 1, 1, .wo, 0b0⟩
def RSV_CTL.seal : Field := ⟨.RSV_CTL, 0, 0, .wo, 0b0⟩
/-! RSV_CFG (R415). -/
def RSV_CFG.quarantine_ms : Field := ⟨.RSV_CFG, 63, 32, .rw, 0⟩
def RSV_CFG.restate_pct : Field := ⟨.RSV_CFG, 31, 24, .rw, 0x19⟩
def RSV_CFG.on_loss : Field := ⟨.RSV_CFG, 21, 21, .rw, 0b0⟩
def RSV_CFG.enable : Field := ⟨.RSV_CFG, 20, 20, .sl, 0⟩
def RSV_CFG.lag_kib : Field := ⟨.RSV_CFG, 19, 0, .rw, 0x04000⟩
/-! RSV_TARGET (R415). -/
def RSV_TARGET.size_gib : Field := ⟨.RSV_TARGET, 47, 32, .sl, 0⟩
def RSV_TARGET.sublink : Field := ⟨.RSV_TARGET, 9, 8, .sl, 0⟩
def RSV_TARGET.port : Field := ⟨.RSV_TARGET, 6, 4, .sl, 0⟩
def RSV_TARGET.kind : Field := ⟨.RSV_TARGET, 1, 0, .sl, 0⟩
/-! RSV_TARGET_BASE (R415). -/
def RSV_TARGET_BASE.base : Field := ⟨.RSV_TARGET_BASE, 63, 12, .sl, 0⟩
/-! RSV_STATUS (R415). -/
def RSV_STATUS.state : Field := ⟨.RSV_STATUS, 63, 61, .ro, 0b000⟩
def RSV_STATUS.protected : Field := ⟨.RSV_STATUS, 60, 60, .ro, 0b0⟩
def RSV_STATUS.quarantine : Field := ⟨.RSV_STATUS, 59, 59, .ro, 0b0⟩
def RSV_STATUS.stalled : Field := ⟨.RSV_STATUS, 58, 58, .ro, 0b0⟩
def RSV_STATUS.target_lost : Field := ⟨.RSV_STATUS, 57, 57, .w1c, 0b0⟩
def RSV_STATUS.replayed : Field := ⟨.RSV_STATUS, 56, 56, .ro, 0b0⟩
def RSV_STATUS.awaiting : Field := ⟨.RSV_STATUS, 55, 48, .ro, 0x00⟩
def RSV_STATUS.untrusted : Field := ⟨.RSV_STATUS, 47, 40, .ro, 0x00⟩
/-! RSV_USAGE (R415). -/
def RSV_USAGE.used_mib : Field := ⟨.RSV_USAGE, 63, 42, .ro, 0x0⟩
def RSV_USAGE.live_mib : Field := ⟨.RSV_USAGE, 41, 20, .ro, 0x0⟩
def RSV_USAGE.lag_kib : Field := ⟨.RSV_USAGE, 19, 0, .ro, 0x0⟩
/-! RSV_LAST_SEAL (R415). -/
def RSV_LAST_SEAL.time : Field := ⟨.RSV_LAST_SEAL, 63, 0, .ro, 0x0⟩
/-! RSV_REPLAY (R415). -/
def RSV_REPLAY.cause : Field := ⟨.RSV_REPLAY, 63, 56, .ro, 0x00⟩
def RSV_REPLAY.contexts : Field := ⟨.RSV_REPLAY, 52, 32, .ro, 0x0⟩
def RSV_REPLAY.replay_ms : Field := ⟨.RSV_REPLAY, 31, 0, .ro, 0x0⟩
/-! RSV_RESUME (R415). -/
def RSV_RESUME.ports : Field := ⟨.RSV_RESUME, 7, 0, .wo, 0x00⟩
/-! RSV_DROP_COUNT (R415). -/
def RSV_DROP_COUNT.count : Field := ⟨.RSV_DROP_COUNT, 47, 0, .ro, 0x0⟩
/-! TOP_RESET (R418). -/
def TOP_RESET.key : Field := ⟨.TOP_RESET, 15, 8, .wo, 0x00⟩
def TOP_RESET.reset : Field := ⟨.TOP_RESET, 0, 0, .wo, 0b0⟩
/-! SEC_BOOT_STATUS (R438). -/
def SEC_BOOT_STATUS.state : Field := ⟨.SEC_BOOT_STATUS, 63, 62, .ro, 0b00⟩
def SEC_BOOT_STATUS.slot : Field := ⟨.SEC_BOOT_STATUS, 61, 61, .ro, 0b0⟩
def SEC_BOOT_STATUS.code_a : Field := ⟨.SEC_BOOT_STATUS, 47, 40, .ro, 0x00⟩
def SEC_BOOT_STATUS.code_b : Field := ⟨.SEC_BOOT_STATUS, 39, 32, .ro, 0x00⟩
/-! SEC_IDENTITY (R438). -/
def SEC_IDENTITY.identity : Field := ⟨.SEC_IDENTITY, 63, 0, .ro, 0⟩
/-! SEC_SVN (R438). -/
def SEC_SVN.svn_min : Field := ⟨.SEC_SVN, 63, 32, .ro, 0⟩
def SEC_SVN.svn : Field := ⟨.SEC_SVN, 31, 0, .ro, 0⟩
/-! SEC_FLASH_ADDR (R438). -/
def SEC_FLASH_ADDR.addr : Field := ⟨.SEC_FLASH_ADDR, 27, 3, .rw, 0x0⟩
/-! SEC_FLASH_DATA (R438). -/
def SEC_FLASH_DATA.data : Field := ⟨.SEC_FLASH_DATA, 63, 0, .rw, 0x0⟩
/-! SEC_FLASH_CTL (R438). -/
def SEC_FLASH_CTL.busy : Field := ⟨.SEC_FLASH_CTL, 63, 63, .ro, 0b0⟩
def SEC_FLASH_CTL.erase : Field := ⟨.SEC_FLASH_CTL, 0, 0, .wo, 0b0⟩
/-! SEC_UPDATE_CTL (R438). -/
def SEC_UPDATE_CTL.commit_svn : Field := ⟨.SEC_UPDATE_CTL, 3, 3, .wo, 0b0⟩
def SEC_UPDATE_CTL.activate : Field := ⟨.SEC_UPDATE_CTL, 2, 2, .wo, 0b0⟩
def SEC_UPDATE_CTL.verify : Field := ⟨.SEC_UPDATE_CTL, 1, 1, .wo, 0b0⟩
def SEC_UPDATE_CTL.slot : Field := ⟨.SEC_UPDATE_CTL, 0, 0, .rw, 0b0⟩
/-! SEC_UPDATE_STATUS (R438). -/
def SEC_UPDATE_STATUS.state : Field := ⟨.SEC_UPDATE_STATUS, 63, 61, .ro, 0b000⟩
def SEC_UPDATE_STATUS.code : Field := ⟨.SEC_UPDATE_STATUS, 47, 40, .ro, 0x00⟩
/-! SEC_QUOTE_CTL (R438). -/
def SEC_QUOTE_CTL.busy : Field := ⟨.SEC_QUOTE_CTL, 63, 63, .ro, 0b0⟩
def SEC_QUOTE_CTL.start : Field := ⟨.SEC_QUOTE_CTL, 24, 24, .wo, 0b0⟩
def SEC_QUOTE_CTL.requester : Field := ⟨.SEC_QUOTE_CTL, 23, 0, .ro, 0x0⟩
/-! SEC_ADMIT_LAST (R438). -/
def SEC_ADMIT_LAST.code : Field := ⟨.SEC_ADMIT_LAST, 63, 56, .ro, 0x00⟩
def SEC_ADMIT_LAST.port : Field := ⟨.SEC_ADMIT_LAST, 7, 0, .ro, 0x00⟩
/-! SEC_QUOTE_NONCE (R438). -/
def SEC_QUOTE_NONCE.nonce : Field := ⟨.SEC_QUOTE_NONCE, 63, 0, .rw, 0x0⟩
/-! SEC_QUOTE_DATA (R438). -/
def SEC_QUOTE_DATA.quote : Field := ⟨.SEC_QUOTE_DATA, 63, 0, .ro, 0x0⟩
/-! LOG_CTL (R439). -/
def LOG_CTL.stall_limit_us : Field := ⟨.LOG_CTL, 63, 48, .rw, 0x03E8⟩
def LOG_CTL.mirror_log2 : Field := ⟨.LOG_CTL, 20, 16, .sl, 0⟩
def LOG_CTL.mirror_port : Field := ⟨.LOG_CTL, 10, 8, .sl, 0⟩
def LOG_CTL.mirror_en : Field := ⟨.LOG_CTL, 0, 0, .sl, 0⟩
/-! LOG_STATUS (R439). -/
def LOG_STATUS.overrun : Field := ⟨.LOG_STATUS, 63, 63, .w1c, 0b0⟩
def LOG_STATUS.stalled : Field := ⟨.LOG_STATUS, 62, 62, .ro, 0b0⟩
def LOG_STATUS.mirror_error : Field := ⟨.LOG_STATUS, 61, 61, .w1c, 0b0⟩
def LOG_STATUS.refused : Field := ⟨.LOG_STATUS, 47, 0, .ro, 0x0⟩
/-! LOG_TAIL (R439). -/
def LOG_TAIL.count : Field := ⟨.LOG_TAIL, 63, 0, .ro, 0x0⟩
/-! LOG_HEAD (R439). -/
def LOG_HEAD.count : Field := ⟨.LOG_HEAD, 63, 0, .rw, 0x0⟩
/-! LOG_READ_SEL (R439). -/
def LOG_READ_SEL.index : Field := ⟨.LOG_READ_SEL, 63, 0, .rw, 0x0⟩
/-! LOG_MIRROR_BASE (R439). -/
def LOG_MIRROR_BASE.base : Field := ⟨.LOG_MIRROR_BASE, 63, 12, .sl, 0⟩
/-! LOG_MIRROR_TAIL_ADDR (R439). -/
def LOG_MIRROR_TAIL_ADDR.addr : Field := ⟨.LOG_MIRROR_TAIL_ADDR, 63, 3, .sl, 0⟩
/-! LOG_READ_DATA (R439). -/
def LOG_READ_DATA.data : Field := ⟨.LOG_READ_DATA, 63, 0, .ro, 0x0⟩
/-! LOG_CHAIN (R439). -/
def LOG_CHAIN.digest : Field := ⟨.LOG_CHAIN, 63, 0, .ro, 0x0⟩
/-! PMC_CTL (R455). -/
def PMC_CTL.sample_max_ms : Field := ⟨.PMC_CTL, 63, 48, .rw, 0x0064⟩
def PMC_CTL.buf_log2 : Field := ⟨.PMC_CTL, 36, 32, .sl, 0x15⟩
def PMC_CTL.snap_only : Field := ⟨.PMC_CTL, 0, 0, .rw, 0b0⟩
/-! PMC_STATUS (R455). -/
def PMC_STATUS.ovf : Field := ⟨.PMC_STATUS, 63, 63, .ro, 0b0⟩
def PMC_STATUS.snap_valid : Field := ⟨.PMC_STATUS, 62, 62, .w1c, 0b0⟩
def PMC_STATUS.frozen : Field := ⟨.PMC_STATUS, 61, 61, .ro, 0b0⟩
def PMC_STATUS.pending : Field := ⟨.PMC_STATUS, 60, 60, .ro, 0b0⟩
/-! PMC_FREEZE (R455). -/
def PMC_FREEZE.unfreeze : Field := ⟨.PMC_FREEZE, 2, 2, .wo, 0b0⟩
def PMC_FREEZE.freeze_at : Field := ⟨.PMC_FREEZE, 1, 1, .wo, 0b0⟩
def PMC_FREEZE.freeze_now : Field := ⟨.PMC_FREEZE, 0, 0, .wo, 0b0⟩
/-! PMC_FREEZE_TIME (R455). -/
def PMC_FREEZE_TIME.time : Field := ⟨.PMC_FREEZE_TIME, 63, 0, .rw, 0x0⟩
/-! PMC_SNAP_TIME (R455). -/
def PMC_SNAP_TIME.time : Field := ⟨.PMC_SNAP_TIME, 63, 0, .ro, 0x0⟩
/-! PMC_USER_EN (R455). -/
def PMC_USER_EN.pages : Field := ⟨.PMC_USER_EN, 8, 0, .rw, 0x000⟩
/-! PMC_SAMPLE_CFG (R455). -/
def PMC_SAMPLE_CFG.enable : Field := ⟨.PMC_SAMPLE_CFG, 63, 63, .rw, 0b0⟩
def PMC_SAMPLE_CFG.kind : Field := ⟨.PMC_SAMPLE_CFG, 62, 61, .rw, 0b00⟩
def PMC_SAMPLE_CFG.period_log2 : Field := ⟨.PMC_SAMPLE_CFG, 52, 48, .rw, 0x10⟩
def PMC_SAMPLE_CFG.seed : Field := ⟨.PMC_SAMPLE_CFG, 31, 0, .rw, 0x00000001⟩
/-! PMC_SAMPLE_FILTER (R455). -/
def PMC_SAMPLE_FILTER.opmask : Field := ⟨.PMC_SAMPLE_FILTER, 63, 52, .rw, 0xFFF⟩
def PMC_SAMPLE_FILTER.ctx_en : Field := ⟨.PMC_SAMPLE_FILTER, 51, 51, .rw, 0b0⟩
def PMC_SAMPLE_FILTER.port : Field := ⟨.PMC_SAMPLE_FILTER, 47, 40, .rw, 0xFF⟩
def PMC_SAMPLE_FILTER.context : Field := ⟨.PMC_SAMPLE_FILTER, 19, 0, .rw, 0x00000⟩
/-! PMC_SAMPLE_HEAD (R455). -/
def PMC_SAMPLE_HEAD.count : Field := ⟨.PMC_SAMPLE_HEAD, 63, 0, .rw, 0x0⟩
/-! PMC_SAMPLE_TAIL (R455). -/
def PMC_SAMPLE_TAIL.count : Field := ⟨.PMC_SAMPLE_TAIL, 63, 0, .ro, 0x0⟩
/-! PMC_SAMPLE_STATUS (R455). -/
def PMC_SAMPLE_STATUS.skipped : Field := ⟨.PMC_SAMPLE_STATUS, 63, 32, .ro, 0x0⟩
def PMC_SAMPLE_STATUS.dropped : Field := ⟨.PMC_SAMPLE_STATUS, 31, 0, .ro, 0x0⟩
/-! PMC_SAMPLE_SEL (R455). -/
def PMC_SAMPLE_SEL.index : Field := ⟨.PMC_SAMPLE_SEL, 63, 0, .rw, 0x0⟩
/-! PMC_SAMPLE_DATA (R455). -/
def PMC_SAMPLE_DATA.data : Field := ⟨.PMC_SAMPLE_DATA, 63, 0, .ro, 0x0⟩
/-! PMC_OVF (R455). -/
def PMC_OVF.ovf : Field := ⟨.PMC_OVF, 63, 0, .w1c, 0x0⟩
/-! PMC_USER_MASK (R455). -/
def PMC_USER_MASK.groups : Field := ⟨.PMC_USER_MASK, 31, 0, .rw, 0x0⟩
/-! PMC_EVSEL (R455). -/
def PMC_EVSEL.enable : Field := ⟨.PMC_EVSEL, 63, 63, .rw, 0b0⟩
def PMC_EVSEL.edge : Field := ⟨.PMC_EVSEL, 62, 62, .rw, 0b0⟩
def PMC_EVSEL.chain : Field := ⟨.PMC_EVSEL, 61, 61, .rw, 0b0⟩
def PMC_EVSEL.ovf_irq : Field := ⟨.PMC_EVSEL, 60, 60, .rw, 0b0⟩
def PMC_EVSEL.freeze_on_ovf : Field := ⟨.PMC_EVSEL, 59, 59, .rw, 0b0⟩
def PMC_EVSEL.block : Field := ⟨.PMC_EVSEL, 52, 48, .rw, 0x00⟩
def PMC_EVSEL.event : Field := ⟨.PMC_EVSEL, 47, 40, .rw, 0x00⟩
def PMC_EVSEL.vc_mask : Field := ⟨.PMC_EVSEL, 39, 32, .rw, 0xFF⟩
def PMC_EVSEL.inst_all : Field := ⟨.PMC_EVSEL, 20, 20, .rw, 0b1⟩
def PMC_EVSEL.inst : Field := ⟨.PMC_EVSEL, 19, 0, .rw, 0x00000⟩
/-! PMC_COUNT (R455). -/
def PMC_COUNT.value : Field := ⟨.PMC_COUNT, 47, 0, .rw, 0x0⟩
/-! PMC_SNAP (R455). -/
def PMC_SNAP.value : Field := ⟨.PMC_SNAP, 47, 0, .ro, 0x0⟩
/-! TOP_PIN_OWNER (R460). -/
def TOP_PIN_OWNER.func3 : Field := ⟨.TOP_PIN_OWNER, 31, 24, .rw, 0⟩
def TOP_PIN_OWNER.func2 : Field := ⟨.TOP_PIN_OWNER, 23, 16, .rw, 0⟩
def TOP_PIN_OWNER.func1 : Field := ⟨.TOP_PIN_OWNER, 15, 8, .rw, 0⟩
def TOP_PIN_OWNER.func0 : Field := ⟨.TOP_PIN_OWNER, 7, 0, .rw, 0⟩
/-! TOP_PIN_CAPTURE (R462). -/
def TOP_PIN_CAPTURE.time : Field := ⟨.TOP_PIN_CAPTURE, 63, 0, .ro, 0x0⟩
/-! PWR_STATUS (R495). -/
def PWR_STATUS.pwrfail : Field := ⟨.PWR_STATUS, 63, 63, .ro, 0b0⟩
def PWR_STATUS.pwrfail_seen : Field := ⟨.PWR_STATUS, 62, 62, .w1c, 0b0⟩
def PWR_STATUS.host_ref_ok : Field := ⟨.PWR_STATUS, 61, 54, .ro, 0x00⟩
def PWR_STATUS.fab_ref_ok : Field := ⟨.PWR_STATUS, 53, 50, .ro, 0x0⟩
def PWR_STATUS.core_ref_ok : Field := ⟨.PWR_STATUS, 49, 49, .ro, 0b0⟩
def PWR_STATUS.pll_lock : Field := ⟨.PWR_STATUS, 47, 42, .ro, 0x00⟩
def PWR_STATUS.rail_ok : Field := ⟨.PWR_STATUS, 12, 0, .ro, 0x0000⟩
/-! PWR_TEMP (R495). -/
def PWR_TEMP.tj_max : Field := ⟨.PWR_TEMP, 63, 48, .ro, 0x0⟩
def PWR_TEMP.tj_peak : Field := ⟨.PWR_TEMP, 47, 32, .rw, 0x0⟩
def PWR_TEMP.hottest : Field := ⟨.PWR_TEMP, 21, 16, .ro, 0x00⟩
def PWR_TEMP.tj_mean : Field := ⟨.PWR_TEMP, 15, 0, .ro, 0x0⟩
/-! PWR_THERMAL_CFG (R495). -/
def PWR_THERMAL_CFG.warn : Field := ⟨.PWR_THERMAL_CFG, 31, 16, .rw, 0x0320⟩
def PWR_THERMAL_CFG.trip : Field := ⟨.PWR_THERMAL_CFG, 15, 0, .rw, 0x0398⟩
/-! PWR_CLK_CFG (R495). -/
def PWR_CLK_CFG.host_sris : Field := ⟨.PWR_CLK_CFG, 7, 0, .sl, 0⟩
/-! PWR_LIFE (R495). -/
def PWR_LIFE.seconds : Field := ⟨.PWR_LIFE, 63, 0, .rw, 0x0⟩
/-! FLT_ALSO (R360). -/
def FLT_ALSO.also : Field := ⟨.FLT_ALSO, 63, 0, .w1c, 0x0⟩
/-! HIF_MSIX_TABLE (R43). -/
def HIF_MSIX_TABLE.data : Field := ⟨.HIF_MSIX_TABLE, 63, 0, .rw, 0x0⟩
/-! HIF_MSIX_PBA (R43). -/
def HIF_MSIX_PBA.pending : Field := ⟨.HIF_MSIX_PBA, 63, 0, .ro, 0x0⟩
/-! PMC_USER_PAGE (R448). -/
def PMC_USER_PAGE.data : Field := ⟨.PMC_USER_PAGE, 63, 0, .ro, 0x0⟩

/-- The fields of each register; every other bit is reserved (R13). -/
def Reg.fields : Reg → List Field
  | .TOP_PART_INFO => [TOP_PART_INFO.stepping, TOP_PART_INFO.part_number, TOP_PART_INFO.family_code]
  | .TOP_NODE_COORD => [TOP_NODE_COORD.node_id, TOP_NODE_COORD.z, TOP_NODE_COORD.y, TOP_NODE_COORD.x]
  | .TOP_SETUP_DONE => [TOP_SETUP_DONE.done]
  | .HIF_PORT_CFG => [HIF_PORT_CFG.block_irq_en, HIF_PORT_CFG.max_speed, HIF_PORT_CFG.bifurcation, HIF_PORT_CFG.mode]
  | .HIF_PORT_CTL => [HIF_PORT_CTL.setup_exit, HIF_PORT_CTL.port_reset]
  | .HIF_PORT_STATUS => [HIF_PORT_STATUS.sublink_up, HIF_PORT_STATUS.width, HIF_PORT_STATUS.speed, HIF_PORT_STATUS.nonflit_fallback, HIF_PORT_STATUS.low_speed, HIF_PORT_STATUS.in_setup]
  | .HIF_VF_CTX_BLOCK => [HIF_VF_CTX_BLOCK.block]
  | .HIF_VF_TBL_ADDR => [HIF_VF_TBL_ADDR.vf, HIF_VF_TBL_ADDR.word]
  | .HIF_VF_TBL_DATA => [HIF_VF_TBL_DATA.data]
  | .HIF_INTX_CAUSE => [HIF_INTX_CAUSE.summary]
  | .HIF_INTX_ACK => [HIF_INTX_ACK.vector]
  | .HIF_DS_SLOT_CTL => [HIF_DS_SLOT_CTL.pwr_ctl, HIF_DS_SLOT_CTL.pwr_ind, HIF_DS_SLOT_CTL.attn_ind, HIF_DS_SLOT_CTL.dll_chg_en, HIF_DS_SLOT_CTL.hp_int_en, HIF_DS_SLOT_CTL.pres_chg_en, HIF_DS_SLOT_CTL.attn_btn_en, HIF_DS_SLOT_CTL.link_disable, HIF_DS_SLOT_CTL.pwr_fault_en]
  | .HIF_DS_SLOT_STATUS => [HIF_DS_SLOT_STATUS.width, HIF_DS_SLOT_STATUS.speed, HIF_DS_SLOT_STATUS.removed, HIF_DS_SLOT_STATUS.cfg_error, HIF_DS_SLOT_STATUS.dll_active, HIF_DS_SLOT_STATUS.pres_state, HIF_DS_SLOT_STATUS.dll_chg, HIF_DS_SLOT_STATUS.pres_chg, HIF_DS_SLOT_STATUS.pwr_fault, HIF_DS_SLOT_STATUS.attn_btn]
  | .HIF_DS_CFG_ADDR => [HIF_DS_CFG_ADDR.function, HIF_DS_CFG_ADDR.dword]
  | .HIF_DS_CFG_DATA => [HIF_DS_CFG_DATA.data]
  | .HIF_DS_HDM_CFG => [HIF_DS_HDM_CFG.base, HIF_DS_HDM_CFG.size, HIF_DS_HDM_CFG.enable]
  | .HIF_DS_MEM_ADDR => [HIF_DS_MEM_ADDR.addr]
  | .HIF_DS_MEM_DATA => [HIF_DS_MEM_DATA.data]
  | .CMD_CTL => [CMD_CTL.inline_en, CMD_CTL.fetch_batch]
  | .CMD_OUTSTANDING => [CMD_OUTSTANDING.count]
  | .CMD_RING_HELD => [CMD_RING_HELD.held, CMD_RING_HELD.device_bound, CMD_RING_HELD.last_ctx]
  | .CMD_HANDLE_QUERY => [CMD_HANDLE_QUERY.handle]
  | .CMD_HANDLE_STATE => [CMD_HANDLE_STATE.echo, CMD_HANDLE_STATE.state]
  | .CMD_INLINE_FALLBACK => [CMD_INLINE_FALLBACK.count]
  | .CMD_DB_STALE => [CMD_DB_STALE.count]
  | .CTX_SEL => [CTX_SEL.context]
  | .CTX_CMD => [CTX_CMD.op]
  | .CTX_STATUS => [CTX_STATUS.stager, CTX_STATUS.result, CTX_STATUS.state]
  | .CTX_CACHE => [CTX_CACHE.pinned, CTX_CACHE.cached]
  | .CTX_STAGE => [CTX_STAGE.data]
  | .CTX_VIEW => [CTX_VIEW.data]
  | .XLT_CTL => [XLT_CTL.pin_limit_us]
  | .XLT_WIN_SEL => [XLT_WIN_SEL.index]
  | .XLT_WIN_COMMIT => [XLT_WIN_COMMIT.index]
  | .XLT_WIN_STATUS => [XLT_WIN_STATUS.generation, XLT_WIN_STATUS.pending, XLT_WIN_STATUS.active, XLT_WIN_STATUS.pins_inactive, XLT_WIN_STATUS.pins_active]
  | .XLT_WIN_RESULT => [XLT_WIN_RESULT.stager, XLT_WIN_RESULT.result]
  | .XLT_WIN_STAGE => [XLT_WIN_STAGE.data]
  | .XLT_ENTRY_SEL => [XLT_ENTRY_SEL.index]
  | .XLT_ENTRY_DATA => [XLT_ENTRY_DATA.entry]
  | .XLT_LOAD_ADDR => [XLT_LOAD_ADDR.addr]
  | .XLT_LOAD_CTL => [XLT_LOAD_CTL.start, XLT_LOAD_CTL.port, XLT_LOAD_CTL.first, XLT_LOAD_CTL.count]
  | .XLT_LOAD_STATUS => [XLT_LOAD_STATUS.state, XLT_LOAD_STATUS.loaded]
  | .XLT_SYNC => [XLT_SYNC.busy, XLT_SYNC.start]
  | .XLT_FMEM_CFG => [XLT_FMEM_CFG.reserved_gib]
  | .MAT_CTL => [MAT_CTL.eager_limit, MAT_CTL.busy_retry_us]
  | .MAT_HASH_SEED => [MAT_HASH_SEED.seed]
  | .MAT_STATUS => [MAT_STATUS.ovf_active, MAT_STATUS.held, MAT_STATUS.busy, MAT_STATUS.used]
  | .MAT_SUMP_CFG => [MAT_SUMP_CFG.small_limit, MAT_SUMP_CFG.high_pct]
  | .MAT_SUMP_STATUS => [MAT_SUMP_STATUS.free, MAT_SUMP_STATUS.held]
  | .MAT_OVF_STATUS => [MAT_OVF_STATUS.bins, MAT_OVF_STATUS.entries]
  | .MAT_ORDER_RESET => [MAT_ORDER_RESET.context, MAT_ORDER_RESET.remote]
  | .MAT_DEFER_COUNT => [MAT_DEFER_COUNT.count]
  | .MAT_BUSY_COUNT => [MAT_BUSY_COUNT.count]
  | .MAT_WITHDRAW_COUNT => [MAT_WITHDRAW_COUNT.count]
  | .RMA_CTL => [RMA_CTL.retry_us, RMA_CTL.busy_retry_us]
  | .RMA_STATUS => [RMA_STATUS.busy, RMA_STATUS.ops_used, RMA_STATUS.peers_used]
  | .RMA_LATE_COUNT => [RMA_LATE_COUNT.count]
  | .RMA_LATE_LAST => [RMA_LATE_LAST.context, RMA_LATE_LAST.osn]
  | .RMA_REG_CTL => [RMA_REG_CTL.enable, RMA_REG_CTL.key]
  | .RMA_CTR_SEL => [RMA_CTR_SEL.counter]
  | .RMA_CTR_CFG => [RMA_CTR_CFG.enable, RMA_CTR_CFG.mode, RMA_CTR_CFG.mirror, RMA_CTR_CFG.owner]
  | .RMA_CTR_VALUE => [RMA_CTR_VALUE.value]
  | .RMA_CTR_FAIL => [RMA_CTR_FAIL.fail]
  | .RMA_CTR_MIRROR => [RMA_CTR_MIRROR.addr]
  | .RMA_RESEND_COUNT => [RMA_RESEND_COUNT.count]
  | .RMA_DUP_COUNT => [RMA_DUP_COUNT.count]
  | .RMA_BUSY_COUNT => [RMA_BUSY_COUNT.count]
  | .RMA_TRIG_STATUS => [RMA_TRIG_STATUS.pending]
  | .RMA_CTR_WORD => [RMA_CTR_WORD.value]
  | .CSC_CTL => [CSC_CTL.rerequest_us, CSC_CTL.long_min_kib, CSC_CTL.seg_kib, CSC_CTL.seg_window]
  | .CSC_STATUS => [CSC_STATUS.abort, CSC_STATUS.staging_full, CSC_STATUS.active, CSC_STATUS.staging_kib]
  | .CSC_GROUP_SEL => [CSC_GROUP_SEL.dim, CSC_GROUP_SEL.group]
  | .CSC_GROUP_CFG => [CSC_GROUP_CFG.busy, CSC_GROUP_CFG.valid, CSC_GROUP_CFG.owner]
  | .CSC_GROUP_MASK => [CSC_GROUP_MASK.members]
  | .CSC_GROUP_SEQ => [CSC_GROUP_SEQ.next]
  | .CSC_RESTART_COUNT => [CSC_RESTART_COUNT.count]
  | .CSC_ABORT_COUNT => [CSC_ABORT_COUNT.count]
  | .CSC_EARLY_DROP_COUNT => [CSC_EARLY_DROP_COUNT.count]
  | .RTE_CTL => [RTE_CTL.hold_us, RTE_CTL.escape_wait, RTE_CTL.mcast_en, RTE_CTL.mode, RTE_CTL.nm_count]
  | .RTE_ADAPT => [RTE_ADAPT.nm_bias, RTE_ADAPT.w_hint, RTE_ADAPT.w_queue]
  | .RTE_URGENT_CFG => [RTE_URGENT_CFG.rate, RTE_URGENT_CFG.burst]
  | .RTE_EPOCH => [RTE_EPOCH.active]
  | .RTE_DRAIN => [RTE_DRAIN.count]
  | .RTE_DRAIN_TIME => [RTE_DRAIN_TIME.last_busy]
  | .RTE_BANK_SEL => [RTE_BANK_SEL.bank, RTE_BANK_SEL.table, RTE_BANK_SEL.index]
  | .RTE_BANK_DATA => [RTE_BANK_DATA.entry]
  | .RTE_STATUS => [RTE_STATUS.no_route, RTE_STATUS.held, RTE_STATUS.bank_refused, RTE_STATUS.flip_refused]
  | .RTE_DISCARD_COUNT => [RTE_DISCARD_COUNT.count]
  | .RTE_ESCAPE_COUNT => [RTE_ESCAPE_COUNT.count]
  | .RTE_NONMIN_COUNT => [RTE_NONMIN_COUNT.count]
  | .RTE_URGENT_DIVERT_COUNT => [RTE_URGENT_DIVERT_COUNT.count]
  | .RTE_PORT_MAP => [RTE_PORT_MAP.state, RTE_PORT_MAP.route_dis, RTE_PORT_MAP.peer]
  | .RTE_LINE_STATE => [RTE_LINE_STATE.row]
  | .LAN_CFG => [LAN_CFG.malsol, LAN_CFG.tx_invert, LAN_CFG.adapt_freeze]
  | .LAN_CTL => [LAN_CTL.retire, LAN_CTL.setup_exit, LAN_CTL.lane_reset]
  | .LAN_STATUS => [LAN_STATUS.skew, LAN_STATUS.peer_port, LAN_STATUS.eye_warn, LAN_STATUS.swapped, LAN_STATUS.rx_inverted, LAN_STATUS.am_lock, LAN_STATUS.signal, LAN_STATUS.state]
  | .LAN_TX_EQ => [LAN_TX_EQ.taps]
  | .LAN_RX_EQ => [LAN_RX_EQ.dfe1, LAN_RX_EQ.gain, LAN_RX_EQ.ctle]
  | .LAN_EYE => [LAN_EYE.ef, LAN_EYE.ef_min, LAN_EYE.low_windows]
  | .LAN_FEC_CORR => [LAN_FEC_CORR.count]
  | .LAN_FEC_UNCORR => [LAN_FEC_UNCORR.count]
  | .LAN_TEST_CFG => [LAN_TEST_CFG.chk_pat, LAN_TEST_CFG.gen_pat]
  | .LAN_TEST_PATTERN => [LAN_TEST_PATTERN.user]
  | .LAN_TEST_ERR => [LAN_TEST_ERR.lock, LAN_TEST_ERR.errors]
  | .LAN_INJECT => [LAN_INJECT.start, LAN_INJECT.count, LAN_INJECT.nsym, LAN_INJECT.mode]
  | .LAN_M2_CTL => [LAN_M2_CTL.slip]
  | .LAN_M2_STATUS => [LAN_M2_STATUS.aligned, LAN_M2_STATUS.comma_seen, LAN_M2_STATUS.comma_pos, LAN_M2_STATUS.rd, LAN_M2_STATUS.deskewed]
  | .LAN_M2_ERR => [LAN_M2_ERR.code_viol, LAN_M2_ERR.disp_err]
  | .LAN_EF_THRESH => [LAN_EF_THRESH.warn, LAN_EF_THRESH.fail]
  | .LAN_RETIRED => [LAN_RETIRED.lanes]
  | .LNK_PORT_CFG => [LNK_PORT_CFG.spill_mib, LNK_PORT_CFG.credit_timeout_us, LNK_PORT_CFG.replay_max]
  | .LNK_PORT_CTL => [LNK_PORT_CTL.link_reset, LNK_PORT_CTL.setup_exit, LNK_PORT_CTL.enter_setup]
  | .LNK_PORT_STATUS => [LNK_PORT_STATUS.down_cause, LNK_PORT_STATUS.req_dropped, LNK_PORT_STATUS.x1, LNK_PORT_STATUS.peer_port, LNK_PORT_STATUS.state]
  | .LNK_PEER_ID => [LNK_PEER_ID.identity]
  | .LNK_POOL_CFG => [LNK_POOL_CFG.e1, LNK_POOL_CFG.e0, LNK_POOL_CFG.vc6, LNK_POOL_CFG.vc5, LNK_POOL_CFG.vc4, LNK_POOL_CFG.vc3, LNK_POOL_CFG.vc2, LNK_POOL_CFG.vc1, LNK_POOL_CFG.vc0]
  | .LNK_REPLAY_STATUS => [LNK_REPLAY_STATUS.outstanding, LNK_REPLAY_STATUS.spilled]
  | .LNK_TIME_STATUS => [LNK_TIME_STATUS.peer_distance, LNK_TIME_STATUS.delay]
  | .LNK_TIME_ADJ => [LNK_TIME_ADJ.asym]
  | .LNK_CRC_COUNT => [LNK_CRC_COUNT.count]
  | .LNK_REPLAY_COUNT => [LNK_REPLAY_COUNT.count]
  | .LNK_DOWN_COUNT => [LNK_DOWN_COUNT.count]
  | .LNK_LIVE => [LNK_LIVE.ports]
  | .HDL_CORE_CTL => [HDL_CORE_CTL.retire, HDL_CORE_CTL.reset]
  | .HDL_CORE_STATUS => [HDL_CORE_STATUS.stop_status, HDL_CORE_STATUS.stop_detail, HDL_CORE_STATUS.trigger, HDL_CORE_STATUS.state]
  | .HDL_CORE_SP => [HDL_CORE_SP.sp]
  | .HDL_CORE_TIMECMP => [HDL_CORE_TIMECMP.cmp]
  | .HDL_CFG => [HDL_CFG.budget_us, HDL_CFG.fw_cores]
  | .HDL_IPI_SET => [HDL_IPI_SET.msip]
  | .HDL_IPI_PEND => [HDL_IPI_PEND.msip]
  | .HDL_TRIG_SEL => [HDL_TRIG_SEL.trigger]
  | .HDL_TRIG_CFG => [HDL_TRIG_CFG.enable, HDL_TRIG_CFG.kind, HDL_TRIG_CFG.serial, HDL_TRIG_CFG.prio, HDL_TRIG_CFG.owner, HDL_TRIG_CFG.source]
  | .HDL_TRIG_CORES => [HDL_TRIG_CORES.mask]
  | .HDL_TRIG_PC => [HDL_TRIG_PC.entry]
  | .HDL_TRIG_ARG => [HDL_TRIG_ARG.arg]
  | .HDL_QUEUE => [HDL_QUEUE.full, HDL_QUEUE.queued]
  | .HDL_MEM_ADDR => [HDL_MEM_ADDR.offset]
  | .HDL_MEM_DATA => [HDL_MEM_DATA.data]
  | .XLT_AD_MODE => [XLT_AD_MODE.mode]
  | .SPD_STATUS => [SPD_STATUS.busy_host]
  | .SPD_COLLISION_COUNT => [SPD_COLLISION_COUNT.count]
  | .SPD_COLLISION_LAST => [SPD_COLLISION_LAST.kind, SPD_COLLISION_LAST.word]
  | .SPD_MARCH_CTL => [SPD_MARCH_CTL.repair, SPD_MARCH_CTL.mode, SPD_MARCH_CTL.start]
  | .SPD_MARCH_MASK => [SPD_MARCH_MASK.banks]
  | .SPD_MARCH_STATUS => [SPD_MARCH_STATUS.running, SPD_MARCH_STATUS.done]
  | .SPD_MARCH_FAIL => [SPD_MARCH_FAIL.banks]
  | .SPD_BANK_OWNER => [SPD_BANK_OWNER.owner]
  | .SPD_BANK_CTL => [SPD_BANK_CTL.state, SPD_BANK_CTL.auto_wake, SPD_BANK_CTL.retain]
  | .SPD_REPAIR => [SPD_REPAIR.spare_left, SPD_REPAIR.soft, SPD_REPAIR.fused]
  | .SEM_CTL => [SEM_CTL.grant_window_us]
  | .SEM_INHERIT_LOG => [SEM_INHERIT_LOG.priority, SEM_INHERIT_LOG.semaphore, SEM_INHERIT_LOG.holder]
  | .SEM_FORCE => [SEM_FORCE.semaphore]
  | .SEM_ACQ => [SEM_ACQ.acquire]
  | .SEM_STATE => [SEM_STATE.held, SEM_STATE.orphan, SEM_STATE.reserved, SEM_STATE.effective, SEM_STATE.waiters, SEM_STATE.master]
  | .FLT_STATUS => [FLT_STATUS.first_valid, FLT_STATUS.esc_running, FLT_STATUS.esc_done, FLT_STATUS.severe_count, FLT_STATUS.also_count]
  | .FLT_FIRST => [FLT_FIRST.severity, FLT_FIRST.injected, FLT_FIRST.source, FLT_FIRST.master, FLT_FIRST.detail]
  | .FLT_FIRST_TIME => [FLT_FIRST_TIME.time]
  | .FLT_COUNT => [FLT_COUNT.severe, FLT_COUNT.pending, FLT_COUNT.win_count, FLT_COUNT.total]
  | .FLT_WINDOW => [FLT_WINDOW.w_us]
  | .FLT_THRESH => [FLT_THRESH.n_events]
  | .FLT_ESC_TIMER => [FLT_ESC_TIMER.running, FLT_ESC_TIMER.remaining_us, FLT_ESC_TIMER.duration_us]
  | .FLT_ESC_ACTION => [FLT_ESC_ACTION.hw_enable, FLT_ESC_ACTION.last_reaction, FLT_ESC_ACTION.last_source, FLT_ESC_ACTION.cmd, FLT_ESC_ACTION.all, FLT_ESC_ACTION.source]
  | .FLT_INJECT => [FLT_INJECT.start, FLT_INJECT.busy, FLT_INJECT.count, FLT_INJECT.interval_us, FLT_INJECT.source]
  | .TOP_STOP => [TOP_STOP.stopped, TOP_STOP.block, TOP_STOP.source]
  | .RSV_CTL => [RSV_CTL.detach, RSV_CTL.seal]
  | .RSV_CFG => [RSV_CFG.quarantine_ms, RSV_CFG.restate_pct, RSV_CFG.on_loss, RSV_CFG.enable, RSV_CFG.lag_kib]
  | .RSV_TARGET => [RSV_TARGET.size_gib, RSV_TARGET.sublink, RSV_TARGET.port, RSV_TARGET.kind]
  | .RSV_TARGET_BASE => [RSV_TARGET_BASE.base]
  | .RSV_STATUS => [RSV_STATUS.state, RSV_STATUS.protected, RSV_STATUS.quarantine, RSV_STATUS.stalled, RSV_STATUS.target_lost, RSV_STATUS.replayed, RSV_STATUS.awaiting, RSV_STATUS.untrusted]
  | .RSV_USAGE => [RSV_USAGE.used_mib, RSV_USAGE.live_mib, RSV_USAGE.lag_kib]
  | .RSV_LAST_SEAL => [RSV_LAST_SEAL.time]
  | .RSV_REPLAY => [RSV_REPLAY.cause, RSV_REPLAY.contexts, RSV_REPLAY.replay_ms]
  | .RSV_RESUME => [RSV_RESUME.ports]
  | .RSV_DROP_COUNT => [RSV_DROP_COUNT.count]
  | .TOP_RESET => [TOP_RESET.key, TOP_RESET.reset]
  | .SEC_BOOT_STATUS => [SEC_BOOT_STATUS.state, SEC_BOOT_STATUS.slot, SEC_BOOT_STATUS.code_a, SEC_BOOT_STATUS.code_b]
  | .SEC_IDENTITY => [SEC_IDENTITY.identity]
  | .SEC_SVN => [SEC_SVN.svn_min, SEC_SVN.svn]
  | .SEC_FLASH_ADDR => [SEC_FLASH_ADDR.addr]
  | .SEC_FLASH_DATA => [SEC_FLASH_DATA.data]
  | .SEC_FLASH_CTL => [SEC_FLASH_CTL.busy, SEC_FLASH_CTL.erase]
  | .SEC_UPDATE_CTL => [SEC_UPDATE_CTL.commit_svn, SEC_UPDATE_CTL.activate, SEC_UPDATE_CTL.verify, SEC_UPDATE_CTL.slot]
  | .SEC_UPDATE_STATUS => [SEC_UPDATE_STATUS.state, SEC_UPDATE_STATUS.code]
  | .SEC_QUOTE_CTL => [SEC_QUOTE_CTL.busy, SEC_QUOTE_CTL.start, SEC_QUOTE_CTL.requester]
  | .SEC_ADMIT_LAST => [SEC_ADMIT_LAST.code, SEC_ADMIT_LAST.port]
  | .SEC_QUOTE_NONCE => [SEC_QUOTE_NONCE.nonce]
  | .SEC_QUOTE_DATA => [SEC_QUOTE_DATA.quote]
  | .LOG_CTL => [LOG_CTL.stall_limit_us, LOG_CTL.mirror_log2, LOG_CTL.mirror_port, LOG_CTL.mirror_en]
  | .LOG_STATUS => [LOG_STATUS.overrun, LOG_STATUS.stalled, LOG_STATUS.mirror_error, LOG_STATUS.refused]
  | .LOG_TAIL => [LOG_TAIL.count]
  | .LOG_HEAD => [LOG_HEAD.count]
  | .LOG_READ_SEL => [LOG_READ_SEL.index]
  | .LOG_MIRROR_BASE => [LOG_MIRROR_BASE.base]
  | .LOG_MIRROR_TAIL_ADDR => [LOG_MIRROR_TAIL_ADDR.addr]
  | .LOG_READ_DATA => [LOG_READ_DATA.data]
  | .LOG_CHAIN => [LOG_CHAIN.digest]
  | .PMC_CTL => [PMC_CTL.sample_max_ms, PMC_CTL.buf_log2, PMC_CTL.snap_only]
  | .PMC_STATUS => [PMC_STATUS.ovf, PMC_STATUS.snap_valid, PMC_STATUS.frozen, PMC_STATUS.pending]
  | .PMC_FREEZE => [PMC_FREEZE.unfreeze, PMC_FREEZE.freeze_at, PMC_FREEZE.freeze_now]
  | .PMC_FREEZE_TIME => [PMC_FREEZE_TIME.time]
  | .PMC_SNAP_TIME => [PMC_SNAP_TIME.time]
  | .PMC_USER_EN => [PMC_USER_EN.pages]
  | .PMC_SAMPLE_CFG => [PMC_SAMPLE_CFG.enable, PMC_SAMPLE_CFG.kind, PMC_SAMPLE_CFG.period_log2, PMC_SAMPLE_CFG.seed]
  | .PMC_SAMPLE_FILTER => [PMC_SAMPLE_FILTER.opmask, PMC_SAMPLE_FILTER.ctx_en, PMC_SAMPLE_FILTER.port, PMC_SAMPLE_FILTER.context]
  | .PMC_SAMPLE_HEAD => [PMC_SAMPLE_HEAD.count]
  | .PMC_SAMPLE_TAIL => [PMC_SAMPLE_TAIL.count]
  | .PMC_SAMPLE_STATUS => [PMC_SAMPLE_STATUS.skipped, PMC_SAMPLE_STATUS.dropped]
  | .PMC_SAMPLE_SEL => [PMC_SAMPLE_SEL.index]
  | .PMC_SAMPLE_DATA => [PMC_SAMPLE_DATA.data]
  | .PMC_OVF => [PMC_OVF.ovf]
  | .PMC_USER_MASK => [PMC_USER_MASK.groups]
  | .PMC_EVSEL => [PMC_EVSEL.enable, PMC_EVSEL.edge, PMC_EVSEL.chain, PMC_EVSEL.ovf_irq, PMC_EVSEL.freeze_on_ovf, PMC_EVSEL.block, PMC_EVSEL.event, PMC_EVSEL.vc_mask, PMC_EVSEL.inst_all, PMC_EVSEL.inst]
  | .PMC_COUNT => [PMC_COUNT.value]
  | .PMC_SNAP => [PMC_SNAP.value]
  | .TOP_PIN_OWNER => [TOP_PIN_OWNER.func3, TOP_PIN_OWNER.func2, TOP_PIN_OWNER.func1, TOP_PIN_OWNER.func0]
  | .TOP_PIN_CAPTURE => [TOP_PIN_CAPTURE.time]
  | .PWR_STATUS => [PWR_STATUS.pwrfail, PWR_STATUS.pwrfail_seen, PWR_STATUS.host_ref_ok, PWR_STATUS.fab_ref_ok, PWR_STATUS.core_ref_ok, PWR_STATUS.pll_lock, PWR_STATUS.rail_ok]
  | .PWR_TEMP => [PWR_TEMP.tj_max, PWR_TEMP.tj_peak, PWR_TEMP.hottest, PWR_TEMP.tj_mean]
  | .PWR_THERMAL_CFG => [PWR_THERMAL_CFG.warn, PWR_THERMAL_CFG.trip]
  | .PWR_CLK_CFG => [PWR_CLK_CFG.host_sris]
  | .PWR_LIFE => [PWR_LIFE.seconds]
  | .FLT_ALSO => [FLT_ALSO.also]
  | .HIF_MSIX_TABLE => [HIF_MSIX_TABLE.data]
  | .HIF_MSIX_PBA => [HIF_MSIX_PBA.pending]
  | .PMC_USER_PAGE => [PMC_USER_PAGE.data]

/-- The registers of one block, in offset order; the fault window's stand in `Reg.faultRegs`. -/
def Reg.ofBlock : Nat → List Reg
  | 0 => [.TOP_PART_INFO, .TOP_NODE_COORD, .TOP_SETUP_DONE, .TOP_PIN_OWNER, .TOP_STOP, .TOP_RESET, .TOP_PIN_CAPTURE]
  | 1 => [.HIF_MSIX_TABLE, .HIF_MSIX_PBA, .HIF_PORT_CFG, .HIF_PORT_CTL, .HIF_PORT_STATUS, .HIF_INTX_CAUSE, .HIF_INTX_ACK, .HIF_VF_TBL_ADDR, .HIF_VF_TBL_DATA, .HIF_VF_CTX_BLOCK, .HIF_DS_SLOT_CTL, .HIF_DS_SLOT_STATUS, .HIF_DS_CFG_ADDR, .HIF_DS_CFG_DATA, .HIF_DS_HDM_CFG, .HIF_DS_MEM_ADDR, .HIF_DS_MEM_DATA]
  | 2 => [.CMD_CTL, .CMD_OUTSTANDING, .CMD_RING_HELD, .CMD_HANDLE_QUERY, .CMD_HANDLE_STATE, .CMD_INLINE_FALLBACK, .CMD_DB_STALE]
  | 3 => [.CTX_SEL, .CTX_CMD, .CTX_STATUS, .CTX_CACHE, .CTX_STAGE, .CTX_VIEW]
  | 4 => [.XLT_CTL, .XLT_FMEM_CFG, .XLT_WIN_SEL, .XLT_WIN_COMMIT, .XLT_WIN_STATUS, .XLT_WIN_RESULT, .XLT_WIN_STAGE, .XLT_ENTRY_SEL, .XLT_ENTRY_DATA, .XLT_LOAD_ADDR, .XLT_LOAD_CTL, .XLT_LOAD_STATUS, .XLT_SYNC, .XLT_AD_MODE]
  | 5 => [.MAT_CTL, .MAT_HASH_SEED, .MAT_STATUS, .MAT_SUMP_CFG, .MAT_SUMP_STATUS, .MAT_OVF_STATUS, .MAT_ORDER_RESET, .MAT_DEFER_COUNT, .MAT_BUSY_COUNT, .MAT_WITHDRAW_COUNT]
  | 6 => [.RMA_CTL, .RMA_STATUS, .RMA_LATE_COUNT, .RMA_LATE_LAST, .RMA_REG_CTL, .RMA_CTR_SEL, .RMA_CTR_CFG, .RMA_CTR_VALUE, .RMA_CTR_FAIL, .RMA_CTR_MIRROR, .RMA_RESEND_COUNT, .RMA_DUP_COUNT, .RMA_BUSY_COUNT, .RMA_TRIG_STATUS, .RMA_CTR_WORD]
  | 7 => [.CSC_CTL, .CSC_STATUS, .CSC_GROUP_SEL, .CSC_GROUP_CFG, .CSC_GROUP_MASK, .CSC_GROUP_SEQ, .CSC_RESTART_COUNT, .CSC_ABORT_COUNT, .CSC_EARLY_DROP_COUNT]
  | 8 => [.RTE_CTL, .RTE_ADAPT, .RTE_URGENT_CFG, .RTE_EPOCH, .RTE_DRAIN, .RTE_DRAIN_TIME, .RTE_BANK_SEL, .RTE_BANK_DATA, .RTE_STATUS, .RTE_DISCARD_COUNT, .RTE_ESCAPE_COUNT, .RTE_NONMIN_COUNT, .RTE_URGENT_DIVERT_COUNT, .RTE_PORT_MAP, .RTE_LINE_STATE]
  | 9 => [.LNK_PORT_CFG, .LNK_PORT_CTL, .LNK_PORT_STATUS, .LNK_PEER_ID, .LNK_POOL_CFG, .LNK_REPLAY_STATUS, .LNK_TIME_STATUS, .LNK_TIME_ADJ, .LNK_CRC_COUNT, .LNK_REPLAY_COUNT, .LNK_DOWN_COUNT, .LNK_LIVE]
  | 10 => [.LAN_CFG, .LAN_CTL, .LAN_STATUS, .LAN_TX_EQ, .LAN_RX_EQ, .LAN_EYE, .LAN_FEC_CORR, .LAN_FEC_UNCORR, .LAN_TEST_CFG, .LAN_TEST_PATTERN, .LAN_TEST_ERR, .LAN_INJECT, .LAN_M2_CTL, .LAN_M2_STATUS, .LAN_M2_ERR, .LAN_EF_THRESH, .LAN_RETIRED]
  | 11 => [.HDL_CORE_CTL, .HDL_CORE_STATUS, .HDL_CORE_SP, .HDL_CORE_TIMECMP, .HDL_CFG, .HDL_IPI_SET, .HDL_IPI_PEND, .HDL_TRIG_SEL, .HDL_TRIG_CFG, .HDL_TRIG_CORES, .HDL_TRIG_PC, .HDL_TRIG_ARG, .HDL_QUEUE, .HDL_MEM_ADDR, .HDL_MEM_DATA]
  | 12 => [.SPD_STATUS, .SPD_COLLISION_COUNT, .SPD_COLLISION_LAST, .SPD_MARCH_CTL, .SPD_MARCH_MASK, .SPD_MARCH_STATUS, .SPD_MARCH_FAIL, .SPD_BANK_OWNER, .SPD_BANK_CTL, .SPD_REPAIR]
  | 13 => [.SEM_CTL, .SEM_INHERIT_LOG, .SEM_FORCE, .SEM_ACQ, .SEM_STATE]
  | 14 => [.RSV_CTL, .RSV_CFG, .RSV_TARGET, .RSV_TARGET_BASE, .RSV_STATUS, .RSV_USAGE, .RSV_LAST_SEAL, .RSV_REPLAY, .RSV_RESUME, .RSV_DROP_COUNT]
  | 15 => [.SEC_BOOT_STATUS, .SEC_IDENTITY, .SEC_SVN, .SEC_FLASH_ADDR, .SEC_FLASH_DATA, .SEC_FLASH_CTL, .SEC_UPDATE_CTL, .SEC_UPDATE_STATUS, .SEC_QUOTE_CTL, .SEC_ADMIT_LAST, .SEC_QUOTE_NONCE, .SEC_QUOTE_DATA]
  | 16 => [.LOG_CTL, .LOG_STATUS, .LOG_TAIL, .LOG_HEAD, .LOG_READ_SEL, .LOG_MIRROR_BASE, .LOG_MIRROR_TAIL_ADDR, .LOG_READ_DATA, .LOG_CHAIN]
  | 17 => [.PMC_CTL, .PMC_STATUS, .PMC_FREEZE, .PMC_FREEZE_TIME, .PMC_SNAP_TIME, .PMC_USER_EN, .PMC_SAMPLE_CFG, .PMC_SAMPLE_FILTER, .PMC_SAMPLE_HEAD, .PMC_SAMPLE_TAIL, .PMC_SAMPLE_STATUS, .PMC_SAMPLE_SEL, .PMC_SAMPLE_DATA, .PMC_OVF, .PMC_USER_MASK, .PMC_EVSEL, .PMC_COUNT, .PMC_SNAP, .PMC_USER_PAGE]
  | 18 => []
  | 19 => [.PWR_STATUS, .PWR_TEMP, .PWR_THERMAL_CFG, .PWR_CLK_CFG, .PWR_LIFE]
  | _ => []

/-- The registers of every fault window (R357). -/
def Reg.faultRegs : List Reg := [.FLT_STATUS, .FLT_FIRST, .FLT_FIRST_TIME, .FLT_COUNT, .FLT_WINDOW, .FLT_THRESH, .FLT_ESC_TIMER, .FLT_ESC_ACTION, .FLT_INJECT, .FLT_ALSO]

/-- Every register name, in blocks and then the fault window. -/
def Reg.all : List Reg := ((List.range 20).map Reg.ofBlock).flatten ++ Reg.faultRegs

/-- A register of the register space: its name and its two indices. -/
structure RegRef where
  reg : Reg
  i : Nat
  k : Nat
  deriving DecidableEq, Repr

/-- The register-space offset of a register. -/
def RegRef.off (r : RegRef) : Nat :=
  r.reg.shape.base + r.i * r.reg.shape.s1 + (r.k - r.reg.shape.k0) * r.reg.shape.s2

/-- The element of register `g` at offset `o`, where there is one. -/
def Reg.elemAt (g : Reg) (o : Nat) : Option RegRef :=
  let sh := g.shape
  if o < sh.base then none else
  let d := o - sh.base
  let i := if sh.n1 = 1 then 0 else d / sh.s1
  let e := d - i * sh.s1
  let k := if sh.n2 = 1 then 0 else e / sh.s2
  if i < sh.n1 && k < sh.n2 && e == k * sh.s2 then some ⟨g, i, k + sh.k0⟩ else none

/-- A reaction of the fault table (R376). -/
inductive Reaction where
  | none | linkReset | laneRetire | portRetire | coreRetire | bankRetire | bankMarch | rowRepair | pcRetire
  | unitRetire | deviceStop
  deriving DecidableEq, Repr

/-- The code of a reaction (R376). -/
def Reaction.code : Reaction → Nat
  | .none => 0x0 | .linkReset => 0x1 | .laneRetire => 0x2 | .portRetire => 0x3 | .coreRetire => 0x4
  | .bankRetire => 0x5 | .bankMarch => 0x6 | .rowRepair => 0x7 | .pcRetire => 0x8 | .unitRetire => 0x9
  | .deviceStop => 0xF

/-- A fault source's defaults: threshold N, window W in µs and reaction (R361, R384). -/
structure SrcSpec where
  n : Nat
  wUs : Nat
  react : Reaction
  deriving DecidableEq, Repr

/-- A source that is counted only (R361). -/
def SrcSpec.countedOnly : SrcSpec := ⟨0, 0, .none⟩

/-- Whether the block keeps state in on-chip arrays and so has sources 2,045 and 2,046 (R383). -/
def hasSram (blk : Nat) : Bool := [2, 3, 4, 5, 6, 7, 8, 14, 15, 16, 17, 18].contains blk

/-- The sources of a block other than the common ones (R287, R318, R356, R384). -/
def blockSource (blk n : Nat) : Option SrcSpec :=
  match blk with
  | 0 => if n < 2 then some .countedOnly else none
  | 1 => if n < 64 && n % 8 < 7 then some .countedOnly else none
  | 2 => if n < 5 then some .countedOnly else none
  | 4 => if n < 7 then some .countedOnly else none
  | 5 => if n < 5 then some .countedOnly else none
  | 6 => if n < 4 then some .countedOnly else none
  | 7 => if n < 4 then some .countedOnly else
         if 8 ≤ n && n < 16 then some ⟨4, 1000000, .unitRetire⟩ else none
  | 8 => if n < 7 then some .countedOnly else
         if 8 ≤ n && n < 152 then some ⟨4, 1000000, .portRetire⟩ else none
  | 9 => if n < 1152 then
           match n % 8 with
           | 0 => some ⟨64, 1000, .linkReset⟩
           | 1 => some ⟨16, 1000, .linkReset⟩
           | 2 => some ⟨4, 1000000, .portRetire⟩
           | 3 => some ⟨4, 1000000, .portRetire⟩
           | 4 => some ⟨8, 1000000, .portRetire⟩
           | 5 => some ⟨3, 60000000, .portRetire⟩
           | _ => some .countedOnly
         else if n = 1152 then some .countedOnly else none
  | 10 => if n < 1152 then
            match n % 4 with
            | 0 => some ⟨32, 1000, .laneRetire⟩
            | 1 => some ⟨8, 100, .laneRetire⟩
            | 2 => some ⟨2, 10000, .laneRetire⟩
            | _ => some ⟨1, 0, .laneRetire⟩
          else if n < 1154 then some .countedOnly else none
  | 11 => if n < 256 then
            match n % 4 with
            | 0 => some ⟨16, 1000000, .coreRetire⟩
            | 1 => some ⟨4, 1000000, .coreRetire⟩
            | 2 => some .countedOnly
            | _ => none
          else if n < 259 then some .countedOnly else none
  | 12 => if n < 256 then
            match n % 4 with
            | 0 => some ⟨1024, 1000000, .bankMarch⟩
            | 1 => some ⟨1, 0, .bankRetire⟩
            | 2 => some ⟨1, 0, .bankRetire⟩
            | _ => some .countedOnly
          else if n < 258 then some .countedOnly else none
  | 13 => if n < 2 then some .countedOnly else none
  | 14 => if n < 4 then some .countedOnly else none
  | 15 => if n < 3 then some .countedOnly else none
  | 16 => if n < 3 then some .countedOnly else none
  | 17 => if n < 2 then some .countedOnly else none
  | 18 => if n < 3 then some .countedOnly else none
  | 19 => if n < 512 then
            match n % 4 with
            | 0 => some ⟨256, 1000000, .rowRepair⟩
            | 1 => some ⟨1, 0, .pcRetire⟩
            | 2 => some ⟨64, 1000000, .pcRetire⟩
            | _ => none
          else if n = 512 then some .countedOnly
          else if n = 513 || n = 514 then some ⟨1, 0, .deviceStop⟩
          else if n = 515 then some .countedOnly else none
  | _ => none

/-- The fault source `n` of block `blk`, where the block has it (R383, R384). -/
def sourceSpec (blk n : Nat) : Option SrcSpec :=
  if n = 2047 then (if blk < 20 then some .countedOnly else none)
  else if n = 2045 then (if hasSram blk then some .countedOnly else none)
  else if n = 2046 then (if hasSram blk then some ⟨1, 0, .deviceStop⟩ else none)
  else blockSource blk n

/-- The source index of "setup-violation" in a block's fault window; for HIF, of host port `p`. CTX, RMA have none. -/
def setupSource (blk p : Nat) : Option Nat :=
  match blk with
  | 0 => some 0 | 1 => some (8 * p + 6) | 2 => some 4 | 4 => some 0 | 5 => some 0 | 7 => some 0 | 8 => some 0
  | 9 => some 1152 | 10 => some 1152 | 11 => some 256 | 12 => some 256 | 13 => some 1 | 14 => some 0 | 15 => some 0
  | 16 => some 0 | 17 => some 0 | 18 => some 0 | 19 => some 515 | _ => none

/-- Whether a found fault-window element exists (R357: an element that names no source is no register). -/
def RegRef.live (r : RegRef) : Bool :=
  match r.reg with
  | .FLT_COUNT | .FLT_WINDOW | .FLT_THRESH => (sourceSpec r.i r.k).isSome
  | _ => true

/-- The register at register-space offset `o` (R12: none where no register lies). -/
def regAt (o : Nat) : Option RegRef :=
  let l := if o % 0x100000 < 0xF0000 then Reg.ofBlock (o / 0x100000) else Reg.faultRegs
  match l.findSome? (fun g => g.elemAt o) with
  | some r => if r.live then some r else none
  | none => none

/-- The reset value of a register: its fields' reset values, with the resets that depend on the element (R47, R59, R319,
R361). -/
def RegRef.resetNat (r : RegRef) : Nat :=
  match r.reg with
  | .HIF_VF_CTX_BLOCK => r.k - 1
  | .HIF_MSIX_TABLE => if r.k % 2 = 1 then 2 ^ 32 else 0
  | .LNK_PORT_CFG =>
    (if 141 ≤ r.i then 0x10 * 2 ^ 32 else 0) + 0x64 * 2 ^ 16 + 0x08 * 2 ^ 8
  | .FLT_WINDOW => match sourceSpec r.i r.k with | some x => x.wUs | none => 0
  | .FLT_THRESH => match sourceSpec r.i r.k with | some x => x.n | none => 0
  | g => g.fields.foldl (fun a f => a + f.reset * 2 ^ f.lo) 0

/-- The reset value of the register at an offset; zero where none lies. -/
def resetWord (o : Nat) : Word :=
  match regAt o with
  | some r => BitVec.ofNat 64 r.resetNat
  | none => 0

end Sys2Proof.Machine
end

