-- ==== Sys2Proof/Machine/State.lean ====
section
/-!
DEFINITION. The state of the Sornov S48: one structure for each block, the register file, the memories, what has left
the device, and the queue of waiting commands. Plain data only. Registers whose value follows from other state are
computed where they are read (Machine/View.lean); every other register lives in `regs`.
-/
set_option Elab.async false
namespace Sys2Proof.Machine

/-- Memory: (address, byte) cells, addresses strictly rising, no cell holding 0, which is what an unlisted address
reads as (R133: HBM is written to zero at power-up; log entry 4 for the other memories). -/
abbrev Memory := List Host.Cell

/-- A sparse table: keys strictly rising. -/
abbrev SMap (α : Type) := List (Nat × α)

/-- Why a command would stop the machine: no command of this model does, so there is no reason. -/
inductive Fault where
  deriving DecidableEq, Repr

/-- Why a command would have no meaning. -/
inductive Refusal where
  /-- Raised by a dispatch arm whose command has no meaning yet (safe). -/
  | notModelled (mnemonic : String)
  deriving DecidableEq, Repr

/-! ## What leaves the device -/

/-- The JTAG instructions whose effect is on the boundary register only (R488). -/
inductive JtagOp where
  | extest | idcode | sample | clamp | highz | extestPulse | extestTrain | bypass | regacc
  deriving DecidableEq, Repr

/-- One thing that leaves the device, in the order it leaves. -/
inductive Output where
  /-- A memory-write TLP of function `fn` of port `p`, and whether it has ID-Based Ordering set; Relaxed Ordering and No Snoop
  never are (R56). -/
  | memWrite (p fn addr : Nat) (bytes : List Byte) (ido : Bool := false)
  /-- A memory-read TLP with its tag. -/
  | memRead (p fn tag addr len : Nat) (ido : Bool := false)
  /-- A PCIe AtomicOp request with its tag (R187). -/
  | atomicOp (p fn tag op addr : Nat) (operands : List Byte) (ido : Bool := false)
  /-- An MSI-X message of vector `vec` (R51). -/
  | msix (p fn vec : Nat) (addr data : Nat) (ido : Bool := false)
  | assertInta (p : Nat)
  | deassertInta (p : Nat)
  /-- A configuration completion: success with data, or Request Retry Status. -/
  | cfgDone (p fn data : Nat)
  | cfgRetry (p fn : Nat)
  /-- The completion of a host read of an aperture; poisoned when `ep`. -/
  | memDone (p : Nat) (bytes : List Byte) (ep : Bool)
  /-- The data of a register read, returned to its master. -/
  | regData (m : Nat) (off : Nat) (val : Word)
  | dsCfgRead (p s fn dword : Nat)
  | dsCfgWrite (p s fn dword data : Nat)
  | dsMemRead (p s : Nat) (cxl : Bool) (addr : Nat)
  | dsMemWrite (p s : Nat) (cxl : Bool) (addr : Nat) (data : Word)
  | dsMemBytes (p s addr : Nat) (bytes : List Byte)
  | dsUnsupported (p s : Nat)
  /-- The resident firmware's commands Identify Memory Device and Get Health Info to a CXL device (R70). -/
  | dsIdentify (p s : Nat)
  | dsHealth (p s : Nat)
  | dsGpf (p s phase : Nat)
  | slotPower (p s : Nat) (on : Bool)
  | slotPerst (p s : Nat) (asserted : Bool)
  /-- SLOT_PWR_LED, or SLOT_ATTN_LED with `attn`: 1 on, 2 blinking at 1.5 Hz, 3 off (R483). -/
  | slotLed (p s : Nat) (attn : Bool) (mode : Nat)
  | linkTrain (p : Nat)
  /-- A link block sent on fabric port `p` (R291). -/
  | block (p : Nat) (b : LinkBlock)
  /-- A training frame sent on a lane (R273). -/
  | frame (l : Nat) (f : TrainFrame)
  | laneSquelch (l : Nat)
  | codeword (p : Nat) (syms : List (BitVec 10))
  /-- PAM4 levels sent on a lane, first in time first (R268, R273, R275, R284). -/
  | levels (l : Nat) (xs : List Int)
  /-- 8b/10b characters, and NRZ pattern bits, sent on a lane in Malsol mode (R282, R284). -/
  | chars (l : Nat) (cs : List (BitVec 10))
  | bits (l : Nat) (bs : List Bool)
  /-- An in-band interrupt with its data byte (R487). -/
  | ibi (data : Nat)
  | i3cAck (addr : Nat)
  | i3cId (pid bcr dcr : Nat)
  | jtag (op : JtagOp) (dr : Nat)
  /-- An event pin is driven: asserted (low) or released (R492). -/
  | pinOut (pin : Nat) (asserted : Bool)
  | userResume (core : Nat) (pc : Word)
  deriving DecidableEq, Repr

/-! ## HIF (chapter 2) -/

/-- A function of a host port: the parts of its configuration the device acts on, and its MSI-X table and PBA (a
virtual function's; the physical function's stand in the register space, R43). -/
structure FnState where
  busMaster : Bool
  msixEn : Bool
  intxDis : Bool
  ido : Bool
  atomicReq : Bool
  /-- A function-level reset runs (R59), since `flrAt`; `ready` is FUNCTION_READY seen after device reset (R417). -/
  flr : Bool
  flrAt : Nat
  /-- The contexts bound to it when that reset began. -/
  flrCtxs : List Nat
  ready : Bool
  /-- Word k of the virtual function's MSI-X table (R50). -/
  tbl : SMap Word
  pba : Word
  /-- HIF_VF_REG_ADDR.offset, bits [25:3] of the target (R48). -/
  vfRegAddr : Nat
  /-- What has been written to the base address registers (R36), and the power state D3hot (R45). -/
  bars : SMap Nat
  d3 : Bool
  deriving DecidableEq, Repr

/-- A function after reset. -/
def FnState.init : FnState := ⟨false, false, false, false, false, false, 0, [], false, [], 0, 0, [], false⟩

/-- A sub-link of a downstream port: slot power, PERST and the pending power removal (R63, R64). -/
structure SubState where
  powered : Bool
  perst : Bool
  /-- The time by which slot power is removed after a power-off write (R64). -/
  offBy : Option Nat
  /-- When slot power was applied (R483). -/
  onAt : Nat
  /-- What the attached device has told of itself (R70, R71). -/
  device : Option SubDevice
  deriving DecidableEq, Repr

/-- A sub-link after reset: power off, PERST asserted. -/
def SubState.init : SubState := ⟨false, true, none, 0, none⟩

/-- The state of a host port that no register holds. -/
structure HPortState where
  vfEnable : Bool
  numVfs : Nat
  /-- The INTA virtual wire (R52). -/
  wire : Bool
  /-- PERST_N of the port is asserted. -/
  perst : Bool
  /-- The link trains (setup left, not yet settled). -/
  training : Bool
  /-- Flit Mode Supported is advertised (R40). -/
  flit : Bool
  /-- The link trains once the reset that runs is complete (R42). -/
  trainDue : Bool
  /-- When PERST_N of the port last rose (R417). -/
  perstAt : Nat
  /-- Advanced Error Reporting status bits seen (R45): correctable, uncorrectable. -/
  aerCor : Nat
  aerUnc : Nat
  /-- What has been written to the VF base address registers (R46). -/
  vfBars : SMap Nat
  deriving DecidableEq, Repr

/-- A host port after reset. -/
def HPortState.init : HPortState := ⟨false, 0, false, false, false, true, false, 0, 0, 0, []⟩

/-- What an outstanding downstream access was (R67). -/
inductive DsKind where
  | cfgRead | cfgWrite | memRead | memWrite
  deriving DecidableEq, Repr

/-- An access to the register space (R11, R30, R31): its master, the offset and size as asked, the data written, the
register-window operation it belongs to with the counter its end updates (R169), and when it was made. -/
structure WaitAcc where
  m : Nat
  off : Nat
  size : ReqSize
  write : Option Word
  op : Option (OpRef × Option Nat)
  since : Nat
  deriving DecidableEq, Repr

/-- The outstanding downstream access of a host port's sub-link. -/
structure DsOut where
  acc : WaitAcc
  p : Nat
  s : Nat
  kind : DsKind
  at_ : Nat
  deriving DecidableEq, Repr

/-- Why a gather of host data was started: what its bytes are for. -/
inductive GatherUse where
  /-- Part `k` of a PUT, or the packet at byte offset `k` of a SEND. -/
  | put (h : HandleRef) (k : Nat)
  | send (h : HandleRef) (off : Nat)
  /-- The answer to a GET request of part `k` of an operation (R180). -/
  | getServe (req : Packet)
  /-- The answer to a pull request (R153). -/
  | pullServe (req : Packet)
  /-- Segment `seg` of a Cascade contribution toward destination `to` (R205, R207), for the first time or for a member that
  asks again with an attempt (R225). -/
  | csc (h : HandleRef) (dest seg : Nat) (again : Option (Nat × Nat))
  /-- A load of handler core `c` (R324). -/
  | core (c : Nat)
  deriving DecidableEq, Repr

/-- Host data being gathered: the chunks in order, each read, known or still awaited. -/
structure Gather where
  use : GatherUse
  chunks : List (Option (List Byte))
  deriving DecidableEq, Repr

/-- An outstanding host read: who issued it, the gather and chunk it serves, and whether a sync waits on it (R128). -/
structure HostRead where
  p : Nat
  fn : Nat
  gather : Nat
  chunk : Nat
  len : Nat
  sync : Bool
  deriving DecidableEq, Repr

/-- What a host request outside the gathers is for: CMD's read of descriptors of a context, the loader's, the read that ends
a seal, the AtomicOp of an operation. -/
inductive OtherUse where
  | descriptors (c : Nat)
  | loader
  | seal
  | atomic (r : OpRef)
  deriving DecidableEq, Repr

/-- An outstanding host request outside the gathers. -/
structure OtherReq where
  p : Nat
  fn : Nat
  use : OtherUse
  deriving DecidableEq, Repr

/-- HIF. -/
structure HifState where
  fns : SMap FnState
  ports : SMap HPortState
  subs : SMap SubState
  ds : Option DsOut
  reads : SMap HostRead
  gathers : SMap Gather
  others : SMap OtherReq
  nextTag : Nat
  deriving DecidableEq, Repr

/-! ## CMD, CTX, XLT (chapters 3 and 4) -/

/-- The state of a context (R109). -/
inductive CtxPhase where
  | closed | opened | draining
  deriving DecidableEq, Repr

/-- A context record (R109, R144, R173) and what CTX knows of its drain. -/
structure CtxRec where
  cfg : BitVec 512
  phase : CtxPhase
  tail : Nat
  fetch : Nat
  post : Nat
  head : Nat
  armed : Bool
  cached : Bool
  /-- When the record was last used, for the least-recently-used eviction (R116). -/
  used : Nat
  /-- The drain was caused by a reset of the bound function (R113); step 4 of R59 has passed. -/
  byReset : Bool
  step4 : Bool
  /-- The context awaits resumption after a replay (R407). -/
  awaiting : Bool
  /-- The hold of R86 has been entered and reported. -/
  inHold : Bool
  postStamp : Nat
  presStamp : Nat
  wcSrc : Nat
  wcTag : Nat
  wcBoth : Nat
  recvHeld : Bool
  /-- First index, count of descriptors and tag of the read in flight (R85). -/
  fetching : Option (Nat × Nat × Nat)
  /-- When that read was issued, and the announcements of the tail not yet assigned (R452): tail value, fabric time. -/
  fetchAt : Nat
  bells : List (Nat × Nat)
  /-- Descriptors carried by inline doorbells whose context is being filled (R82). -/
  inlineWait : List (BitVec 512)
  deriving DecidableEq, Repr

/-- A closed context: every byte zero. -/
def CtxRec.init : CtxRec :=
  ⟨0, .closed, 0, 0, 0, 0, false, false, 0, false, false, false, false, 0, 0, 0, 0, 0, false, none, 0, [], []⟩

/-- Where an assigned handle stands (R87, R112). -/
inductive HPhase where
  /-- Assigned; not dispatched. -/
  | assigned
  /-- Set aside by the TRIGGERED at the index before it (R99). -/
  | gated
  /-- Reached its block but held by it: the block is in setup, the store is full, no peer record, no staging. -/
  | held
  /-- Waits for what it names (FENCE, COUNTER_ARM, SEM acquire, TRIGGERED). -/
  | waiting
  /-- Dispatched. -/
  | active
  deriving DecidableEq, Repr

/-- The withdrawal of a SEND (R154). -/
inductive Wd where
  | none | sent | bound | lost
  deriving DecidableEq, Repr

/-- A packet of an operation, by its part (a SEND's by its offset): when it was last presented to RTE or held for want of
a route, whether RTE has taken it, and when a busy refusal of it is re-sent (R159, R177, R181). -/
structure Tx where
  part : Nat
  time : Nat
  taken : Bool
  busyAt : Option Nat
  deriving DecidableEq, Repr

/-- A handle that has been assigned and has not completed. -/
structure Handle where
  ctx : Nat
  index : Nat
  desc : BitVec 512
  phase : HPhase
  /-- A packet of it has been sent (R59). -/
  sent : Bool
  dispAt : Nat
  /-- Open in the journal at the seal before this power-up (R105). -/
  recov : Bool
  /-- The handle of a context whose function was reset: nothing is written to the host (R61). -/
  mute : Bool
  /-- Message sequence number of a SEND (R137), and whether it has one. -/
  msn : Nat
  msnOk : Bool
  /-- Its packets that have been presented (R181). -/
  tx : List Tx
  /-- Since when no attempt has found a route (R154). -/
  lostAt : Option Nat
  /-- RTE had a route at some attempt since the oldest unanswered part was first presented (R182). -/
  routed : Bool
  /-- Parts answered (GET), or packets with a placement report (SEND), by index or offset. -/
  got : List Nat
  gotBytes : Nat
  wd : Wd
  /-- A COUNTER_ARM has set its value (R192). -/
  armedSet : Bool
  /-- The end a SEND earns, known before it may be posted: status, detail, bytes (R153, R154). -/
  fin : Option (Nat × Nat × Nat)
  /-- The SEND went eager when it was dispatched (R149). -/
  eager : Bool
  deriving DecidableEq, Repr

/-- A window image (R118). -/
structure WinImage where
  enable : Bool
  read : Bool
  write : Bool
  atomic : Bool
  keyGen : Bool
  kind : Nat
  key : Nat
  base : Nat
  length : Nat
  deriving DecidableEq, Repr

/-- An image no commit has reached. -/
def WinImage.init : WinImage := ⟨false, false, false, false, false, 0, 0, 0, 0⟩

/-- A window table entry (R118); `queued` is its commit in the pending queue (R122). -/
structure WinEntry where
  img0 : WinImage
  img1 : WinImage
  gen : Nat
  active : Bool
  pins0 : Nat
  pins1 : Nat
  queued : Option WinImage
  deriving DecidableEq, Repr

/-- A window entry that no commit has reached. -/
def WinEntry.init : WinEntry := ⟨.init, .init, 0, false, 0, 0, none⟩

/-- The loader (R127). -/
structure Loader where
  running : Bool
  port : Nat
  addr : Nat
  first : Nat
  count : Nat
  deriving DecidableEq, Repr

/-- XLT: the window table, the translation table, the table indices of the translations kept on chip, the last used first
(R129), and the loader. -/
structure XltState where
  wins : SMap WinEntry
  table : SMap Word
  cache : List Nat
  loader : Loader
  syncBusy : Bool
  deriving DecidableEq, Repr

/-! ## MAT (chapter 5) -/

/-- An entry of the match store (R143): a posted receive, or a message or tombstone. -/
structure MatEntry where
  /-- 0 posted receive, 1 message, 2 tombstone. -/
  kind : Nat
  cls : Nat
  ctx : Nat
  comm : Nat
  rank : Nat
  tag : Nat
  stamp : Nat
  /-- The RECV_POST's index, or the sender's handle. -/
  handle : Nat
  /-- The source endpoint of a message. -/
  src : Nat
  msn : Nat
  bufKind : Nat
  addr : Nat
  size : Nat
  heldSend : Bool
  pull : Bool
  /-- Offsets of the packets present, and the number of packets. -/
  arrived : List Nat
  total : Nat
  /-- The first Sump granule of its run; zero-length runs have none. -/
  gran : Nat
  /-- The payload held in the Sump, by message offset. -/
  data : List (Nat × List Byte)
  /-- The SEND's osn and class. -/
  osn : Nat
  vclass : Nat
  /-- The entry stands in the overflow area (R156). -/
  ovf : Bool
  /-- Index in the match store or the overflow area (R143). -/
  slot : Nat
  deriving DecidableEq, Repr

/-- A receive bound to a message, being filled (R151, R153). -/
structure Bound where
  ctx : Nat
  index : Nat
  src : Nat
  msn : Nat
  handle : Nat
  osn : Nat
  vclass : Nat
  length : Nat
  capacity : Nat
  bufKind : Nat
  addr : Nat
  tag : Nat
  rank : Nat
  pull : Bool
  total : Nat
  arrived : List Nat
  placed : Nat
  /-- When a pull was last presented, and since when no attempt has found a route to the source (R153). -/
  lastTx : Nat
  lostAt : Option Nat
  pulled : List Nat
  /-- The receive has completed; the message's later packets are still awaited or answered again (R164). -/
  finished : Bool
  /-- Payload in the Sump, from its first granule, that is still to be copied, by message offset; and some byte fell into a
  retired bank (R151, R380). -/
  gran : Nat
  wait : List (Nat × List Byte)
  retired : Bool
  deriving DecidableEq, Repr

/-- A match event (R147): an arriving SEND packet or withdrawal, a RECV_POST, a RECV_CANCEL, or the class-4 resolution of a pair,
whose early message has been found when `found` (R141). -/
inductive MatEvent where
  | packet (p : Packet)
  | post (h : HandleRef)
  | cancel (h : HandleRef)
  | resolve (c src : Nat) (found : Bool)
  deriving DecidableEq, Repr

/-- A withdrawal that is still re-sent after its handle ended PEER_LOST (R154). -/
structure LostWd where
  ctx : Nat
  index : Nat
  desc : BitVec 512
  msn : Nat
  handle : Nat
  lastTx : Nat
  deriving DecidableEq, Repr

/-- MAT. -/
structure MatState where
  store : SMap MatEntry
  bound : List Bound
  /-- The receive stream of a context that waits for a free entry: handles by context and index, oldest first (R159). -/
  held : List (Nat × Nat)
  /-- Match events that wait for the resident firmware, and those behind them, by context (R157, R158). -/
  events : List (Nat × MatEvent)
  lost : List LostWd
  /-- The next entry id of `store`. -/
  nextId : Nat
  /-- The match cache: the bins on chip, the last probed first (R166). -/
  binCache : List Nat
  deriving DecidableEq, Repr

/-! ## RMA (chapter 6) -/

/-- A peer record (R175) with its message-order part (R138); `slot` is its index in the peer table, from 2^24 on in the peer
overflow area. -/
structure Peer where
  ctx : Nat
  remote : Nat
  floor : Nat
  floorValid : Bool
  nextMsn : Nat
  expectedMsn : Nat
  earlyCount : Nat
  wdPending : Bool
  slot : Nat
  deriving DecidableEq, Repr

/-- The state of an operation record (R178). -/
inductive OpPhase where
  | abandoned | active | ended | refused
  deriving DecidableEq, Repr

/-- An operation record (R178). -/
structure OpRec where
  ctx : Nat
  remote : Nat
  osn : Nat
  phase : OpPhase
  pkind : Nat
  regwin : Bool
  image : Bool
  status : Nat
  detail : Nat
  window : Nat
  gen : Nat
  total : Nat
  present : List Nat
  lastTime : Nat
  result : BitVec 128
  rsize : Nat
  /-- A part was applied (R124). -/
  applied : Bool
  vclass : Nat
  /-- Parts of a GET whose data has been read (R180); the operation code of an ATOMIC and the offset, while it runs. -/
  served : List Nat
  acode : Nat
  off : Nat
  /-- Index in the operation table (R178). -/
  slot : Nat
  deriving DecidableEq, Repr

/-- A counter (R189). -/
structure Counter where
  value : Word
  fail : Nat
  owner : Nat
  enable : Bool
  bytes : Bool
  mirror : Bool
  addr : Nat
  deriving DecidableEq, Repr

/-- A counter after reset. -/
def Counter.init : Counter := ⟨0, 0, 0, false, false, false, 0⟩

/-- A registered gated partner (R193): the context, the TRIGGERED's index, the counter and the threshold. -/
structure Trig where
  ctx : Nat
  index : Nat
  counter : Nat
  threshold : Nat
  deriving DecidableEq, Repr

/-- RMA. -/
structure RmaState where
  peers : List Peer
  ops : List OpRec
  ctrs : SMap Counter
  trigs : List Trig
  deriving DecidableEq, Repr

/-! ## CSC (chapter 7) -/

/-- A line group of one dimension (R201). -/
structure CscGroup where
  owner : Nat
  valid : Bool
  mask : Nat
  seq : Nat
  deriving DecidableEq, Repr

/-- A group after reset. -/
def CscGroup.init : CscGroup := ⟨0, false, 0, 0⟩

/-- An exact accumulator: its sum field and status bits (R214). -/
structure Acc where
  sum : Int
  nan : Bool
  pinf : Bool
  ninf : Bool
  nnz : Bool
  deriving DecidableEq, Repr

/-- An element as a node carries it between steps (R209): its bits, or an exact accumulator. -/
inductive CscElem where
  | raw (bits : Nat)
  | acc (a : Acc)
  deriving DecidableEq, Repr

/-- Elements that a member contributed to a segment-step: the sender, the place of the first, and the elements. -/
structure CscPart where
  member : Nat
  first : Nat
  elems : List CscElem
  deriving DecidableEq, Repr

/-- A segment-step at this node (R221, R222, R225); `unit` is the reduction unit that holds it. -/
structure CscSeg where
  step : Nat
  seg : Nat
  started : Bool
  done : Bool
  startAt : Nat
  attempt : Nat
  unit : Nat
  /-- What has arrived, in arrival order. -/
  got : List CscPart
  deriving DecidableEq, Repr

/-- Data of a step sent toward a destination (a member, or 64 for all) and not yet confirmed by a member (R221). -/
structure CscSent where
  step : Nat
  seg : Nat
  dest : Nat
  member : Nat
  bytes : Nat
  deriving DecidableEq, Repr

/-- An active instance (R204): its handle, its sequence numbers and the masks of its groups by dimension. -/
structure CscInst where
  ctx : Nat
  index : Nat
  desc : BitVec 512
  seqs : List Nat
  masks : List Nat
  long : Bool
  segs : List CscSeg
  sent : List CscSent
  /-- Elements by level × 2^40 + index: level 0 the contribution, level t + 1 what the node holds after step t. -/
  vals : SMap CscElem
  /-- Reads of the send buffer in flight, by destination and segment. -/
  reading : List (Nat × Nat)
  /-- Elements written to recv_addr. -/
  written : List Nat
  deriving DecidableEq, Repr

/-- CSC: groups by dimension × 4096 + number, the instances in dispatch order, early packets, COLLs that wait for staging
or a place, multicasts that wait for RTE, and retired reduction units (R382). -/
structure CscState where
  groups : SMap CscGroup
  insts : List CscInst
  early : List Packet
  wait : List HandleRef
  out : List (Nat × List Nat × Packet)
  retired : List Nat
  deriving DecidableEq, Repr

/-- CSC after reset. -/
def CscState.init : CscState := ⟨[], [], [], [], [], []⟩

/-! ## RTE (chapter 8) -/

/-- Where a packet that RTE carries stands. -/
inductive PktPlace where
  /-- Queued at a fabric port for a credit pool, or being sent there. -/
  | queued (port pool : Nat)
  /-- No candidate has credit for its head; since when (R251). -/
  | waiting (since : Nat)
  /-- Held without any candidate; since when (R256). -/
  | held (since : Nat)
  /-- Waits at injection for urgent tokens (R261). -/
  | tokens
  /-- Kept by LNK after its port left live, with the pool it was sent on (R307). -/
  | retained (port pool : Nat)
  /-- Being delivered at this node: its tail is still to come. -/
  | here
  deriving DecidableEq, Repr

/-- LNK keeps the packet for a port. -/
def PktPlace.keptBy (x : PktPlace) (p : Nat) : Bool :=
  match x with
  | .retained q _ => q == p
  | _ => false

/-- A packet present at the node (R246): from the arrival of its head flit until its tail's block is acknowledged. -/
structure RtePkt where
  id : Nat
  pkt : Packet
  /-- The port and pool it arrives on; none for a local injection. -/
  src : Option (Nat × Nat)
  /-- Flits present, flits in all, flits sent on the way out, and flits whose input buffer has been released (R303). -/
  got : Nat
  total : Nat
  sent : Nat
  freed : Nat
  place : PktPlace
  /-- A copy of line multicast: the number of the packet it copies (R258). -/
  mcast : Option Nat
  deriving DecidableEq, Repr

/-- RTE. -/
structure RteState where
  /-- Route-bank entries: bank × 1024 + table × 512 + index (R244). -/
  banks : SMap Word
  pkts : List RtePkt
  nextId : Nat
  /-- The rotor of R249 and R250. -/
  rotor : Nat
  /-- The node's own congestion hints (R250). -/
  hints : List Nat
  /-- Urgent tokens missing from a full bucket, in flits × 10^6, as of `debtAt` (R261). -/
  debt : Nat
  debtAt : Nat
  /-- Fabric time of the last cycle in which a packet of epoch 0 and of epoch 1 was present (R246). -/
  busy0 : Nat
  busy1 : Nat
  deriving DecidableEq, Repr

/-- RTE after reset. -/
def RteState.init : RteState := ⟨[], [], 0, 0, [0, 0, 0], 0, 0, 0, 0⟩

/-! ## LAN (chapter 9) -/

/-- What a lane holds beyond its registers. -/
structure LaneState where
  /-- Windows at or above warn in a row in train, and the peer's rx_ready frames in a row (R274). -/
  goodWindows : Nat
  readyFrames : Nat
  /-- The tap request that this end has outstanding, 8 × request + tap, 0 for none; and the response due to the peer's last
  request (R273). -/
  myReq : Nat
  response : Nat
  /-- The request of the peer's last frame: 8 × request + tap. -/
  lastReq : Nat
  /-- When the lane last entered train or align, or detected the signal. -/
  since : Nat
  /-- The link reset trains at ×1 with this lane the survivor: width1 offered. -/
  width1 : Bool
  /-- Markers found in a row with the last am_count, expected markers missed in a row, and the lane's delay in units of
  0.25 ns (R279). -/
  marks : Nat
  lastMark : Nat
  missed : Nat
  skew : Nat
  /-- Malsol: commas in a row at offset 0, the last ten bits as they came, the character boundary's place after them, the
  last character, the numbers of the latest violating characters, disparity known (R282, R283). -/
  commas : Nat
  raw : Option Nat
  boundary : Nat
  prev : Option Nat
  viols : List Nat
  rdKnown : Bool
  /-- The K28.3 seen on this lane, in characters since the port's last one (R283). -/
  k283 : Option Nat
  /-- The characters this lane has received since its reset. -/
  count : Nat
  /-- Malsol: this lane's bytes of the block that arrives, and whether each is bad (R282). -/
  bytes : List (Byte × Bool)
  /-- The transmitter is not squelched, and since when it sends what it sends (R266). -/
  tx : Bool
  txAt : Nat
  /-- The state of the training pattern (R273) or of the pattern generator, and the place in the user pattern (R284). -/
  gen : Nat
  genBit : Nat
  /-- Malsol: the transmitter's running disparity, true for RD+ (R282). -/
  txRd : Bool
  /-- The pattern checker: recent bits, error-free bits, bits and errors of the running 1,024 (R284). -/
  chkBits : List Bool
  chkGood : Nat
  chkSeen : Nat
  chkErrs : Nat
  /-- An injection runs, and since when (R286). -/
  injAt : Option Nat
  deriving DecidableEq, Repr

/-- A lane after reset. -/
def LaneState.init : LaneState :=
  { goodWindows := 0, readyFrames := 0, myReq := 0, response := 0, lastReq := 0, since := 0, width1 := false, marks := 0,
    lastMark := 0, missed := 0, skew := 0, commas := 0, raw := none, boundary := 0, prev := none, viols := [],
    rdKnown := false, k283 := none, count := 0, bytes := [], tx := false, txAt := 0, gen := 0, genBit := 0, txRd := false,
    chkBits := [], chkGood := 0, chkSeen := 0, chkErrs := 0, injAt := none }

/-- The transmit side of a port's codeword stream (R275, R276, R278): stream bytes not yet sent, where link blocks start
among them, the number of the next codeword modulo 48, the marker count and the scrambler; and in Malsol mode the character
slots since the last K28.3 (R282). -/
structure LanTx where
  bytes : List Byte
  starts : List Nat
  index : Nat
  am : Nat
  prbs : Nat
  slots : Nat
  deriving DecidableEq, Repr

/-- A transmit side before its first codeword. -/
def LanTx.init : LanTx := ⟨[], [], 0, 0, 0x7FFFFFFF, 0⟩

/-- LAN: the lanes, the stream bytes each port has received and not yet handed on with whether they are bad, the PRBS
state of each port's receive side with the number modulo 48 of its next codeword, and the transmit sides (R276). -/
structure LanState where
  lanes : SMap LaneState
  stream : SMap (List (Byte × Bool))
  prbs : SMap Nat
  cwIn : SMap Nat
  tx : SMap LanTx
  deriving DecidableEq, Repr

/-- LAN after reset. -/
def LanState.init : LanState := ⟨[], [], [], [], []⟩

/-! ## LNK (chapter 10) -/

/-- An unacknowledged sequenced block (R296): its flits and tags, which packets' heads and tails it carries, and when it
was last sent. -/
structure TxBlock where
  seq : Nat
  flits : List (Nat × Flit)
  heads : List Nat
  tails : List Nat
  at_ : Nat
  deriving DecidableEq, Repr

/-- A packet being received on a pool (R293): its RTE number, none once it is discarded, and the flits still to come. -/
structure RxPkt where
  id : Option Nat
  left : Nat
  deriving DecidableEq, Repr

/-- A credit pool of a port: flits sent and the last limit received, with the wait without advance (R303, R304); flits
freed and the packet in progress on the receive side. -/
structure LPool where
  sent : Nat
  limit : Option Nat
  waitFrom : Option Nat
  freed : Nat
  rx : Option RxPkt
  /-- The packet whose flits occupy the pool on the way out (R293). -/
  tx : Option Nat
  deriving DecidableEq, Repr

/-- A pool at bring-up. -/
def LPool.init : LPool := ⟨0, none, none, 0, none, none⟩

/-- The admission exchange of a port (R425 to R427) and what its HELLO said (R313). -/
structure Admission where
  peer : Option (Nat × Nat × Nat)
  ownNonce : Option (BitVec 256)
  peerNonce : Option (BitVec 256)
  frags : SMap (BitVec 448)
  proved : Bool
  verdictOut : Option Nat
  verdictIn : Option Nat
  /-- The peer's nine pool sizes in flits. -/
  sizes : List Nat
  /-- The version that the peer's HELLO announced: 2 an S48, 1 a Malsol M2. -/
  version : Nat
  deriving DecidableEq, Repr

/-- Before any admission message. -/
def Admission.init : Admission := ⟨none, none, none, [], false, none, none, [], 0⟩

/-- Both ends have admitted each other (R314). -/
def Admission.agreed (a : Admission) : Bool := a.verdictOut == some 0 && a.verdictIn == some 0

/-- A port instance of LNK beyond its registers. -/
structure LPort where
  /-- Positions of the next block sent and received (R295). -/
  pos : Nat
  rpos : Nat
  /-- The next new sequence, the unacknowledged blocks, the next sequence of the replay that runs, and that a replay from
  the last ACK + 1 starts at the next position divisible by 4 (R296, R299). -/
  nextSeq : Nat
  unacked : List TxBlock
  replay : Option Nat
  replayDue : Bool
  replays : Nat
  nakSeen : Nat
  /-- Receiver: expected sequence, discarding and since when, nak_count, the arrival sequence of the last sequenced
  block (R297, R298). -/
  expected : Nat
  discarding : Bool
  discSince : Nat
  nakCount : Nat
  lastArr : Option Nat
  ctl : List Flit
  /-- The pool of VC1 to VC7 whose packet was sent last (R260). -/
  cur : Nat
  pools : SMap LPool
  /-- Heartbeat: own count, the peer's last count, its count at the last tick, missed ticks (R308). -/
  beat : Nat
  peerBeat : Option Nat
  tickBeat : Option Nat
  missed : Nat
  /-- When the last heartbeat tick was (R308). -/
  beatAt : Nat
  /-- The neighbour's hints and when they came (R250). -/
  hint : Nat
  hintAt : Option Nat
  adm : Admission
  /-- When the running bring-up step began, when bring-up is tried again, and when the port left live. -/
  stepAt : Nat
  retryAt : Option Nat
  downAt : Nat
  framed : Bool
  /-- A RESET_REQ of this end awaits its ACK until then; the cause it names, and the ×1 survivor it wants (R310). -/
  reqUntil : Option Nat
  reqCause : Nat
  survivor : Option Nat
  /-- A RESET_ACK of this end is still to be sent, after which the port resets; at ×1 with this survivor (R310). -/
  ackOwed : Option (Option Nat)
  /-- TIME: send stamp of our last message, the stamps of the peer's last one, the offset found (R315). -/
  lastSend : Nat
  peerSend : Nat
  peerRecv : Nat
  offset : Int
  malsol : Bool
  deriving DecidableEq, Repr

/-- A port after reset. -/
def LPort.init : LPort :=
  ⟨0, 0, 0, [], none, false, 0, 0, 0, false, 0, 0, none, [], 0, [], 0, none, none, 0, 0, 0, none, .init, 0, none, 0, false, none,
    0, none, none, 0, 0, 0, 0, false⟩

/-- LNK, and the upstream port TIM follows with whether it has stepped at first lock, and when TIM last followed its offset
(R316). -/
structure LnkState where
  ports : SMap LPort
  upstream : Option Nat
  locked : Bool
  slewAt : Option Nat
  /-- This node is the time reference, as its boot image sets (R316). -/
  timeRef : Bool
  deriving DecidableEq, Repr

/-- LNK after reset. -/
def LnkState.init : LnkState := ⟨[], none, false, none, false⟩

/-! ## HDL, SPD, SEM (chapter 11) -/

/-- A trigger (R326, R352). -/
structure TrigCfg where
  enable : Bool
  kind : Nat
  serial : Bool
  prio : Nat
  owner : Nat
  source : Nat
  cores : Word
  pc : Nat
  arg : Nat
  deriving DecidableEq, Repr

/-- A trigger after reset. -/
def TrigCfg.init : TrigCfg := ⟨false, 0, false, 0, 0, 0, 0, 0, 0⟩

/-- A fired event (R327, R329, R330): the trigger, what the invocation starts with, and the trigger's configuration as it
fired. -/
structure TrigEv where
  trig : Nat
  kind : Nat
  owner : Nat
  a1 : Nat
  a2 : Nat
  a3 : Nat
  time : Nat
  cfg : TrigCfg
  deriving DecidableEq, Repr

/-- What waits at its source while the event queue is full (R329): the answer of an ending operation with the events it
fires, or a handle whose completion entry CMD holds. -/
inductive HeldPost where
  | answer (es : List TrigEv) (p : Packet)
  | completion (h : HandleRef) (status detail bytes : Nat) (result : Word)
  deriving DecidableEq, Repr

/-- An entry of a core's TLB (R332, R335). -/
structure TlbEntry where
  ctx : Nat
  vpn : Nat
  pg : Nat
  entry : Word
  locked : Bool
  loadAt : Nat
  deriving DecidableEq, Repr

/-- What a load of a core waits for: its register, size and sign, its address, the register-space offset that it reads, or
none for host data, and the address of the next instruction. -/
structure CoreWait where
  rd : Nat
  size : Nat
  signed : Bool
  va : Word
  off : Option Nat
  next : Word
  deriving DecidableEq, Repr

/-- A reservation of load-reserved: the space, the address in it, and the bytes read. -/
structure CoreResv where
  space : Nat
  addr : Nat
  bytes : List Byte
  deriving DecidableEq, Repr

/-- A handler core's own state: the invocation, the registers and CSRs (R321), the translation CSRs of R333, the TLBs and the
caches. -/
structure HCore where
  /-- The running invocation: its trigger, its owner context and when it started. -/
  inv : Option (Nat × Nat × Nat)
  umode : Bool
  pc : Word
  x : SMap Word
  mcause : Nat
  mtval : Word
  mepc : Word
  hxctx : Nat
  hxvabase : Word
  hxslice : Word
  hxbad : Word
  hxentry : Word
  hxidx : Nat
  hxstat : BitVec 6
  hxrvec : Word
  itlb : List TlbEntry
  dtlb : List TlbEntry
  l2 : List TlbEntry
  /-- The machine timer interrupt is raised (R323). -/
  mtip : Bool
  /-- The CSRs of the RISC-V privileged specification that hold state (R321). -/
  mstatus : Word
  mie : Word
  mtvec : Word
  mscratch : Word
  mcounteren : Word
  menvcfg : Word
  /-- mcycle less the core's clock, and minstret. -/
  cycleOff : Word
  minstret : Word
  /-- The lines of the instruction and the data cache, by HBM address over 64 (R321, R325). -/
  icache : SMap (List Byte)
  dcache : SMap (List Byte)
  resv : Option CoreResv
  wait : Option CoreWait
  deriving DecidableEq, Repr

/-- Where the resident firmware stands in a core's program counter, in mtvec and in hxrvec: its main loop, its trap handler and its
refill routine. Their addresses are the firmware's; the values are the model's (log entry 133). -/
def residentMain : Word := 0xFFFFFFFFFFFF0000
def residentTrap : Word := 0xFFFFFFFFFFFF4000
def residentRefill : Word := 0xFFFFFFFFFFFF8000

/-- A core after reset, as the resident firmware has prepared it: the three interrupts enabled in mie, the counters and cache-block
operations open to user mode (log entry 133). -/
def HCore.init : HCore where
  inv := none
  umode := false
  pc := residentMain
  x := []
  mcause := 0
  mtval := 0
  mepc := 0
  hxctx := 0
  hxvabase := 0
  hxslice := 0
  hxbad := 0
  hxentry := 0
  hxidx := 0
  hxstat := 0
  hxrvec := residentRefill
  itlb := []
  dtlb := []
  l2 := []
  mtip := false
  mstatus := 0
  mie := 0x888
  mtvec := residentTrap
  mscratch := 0
  mcounteren := 7
  menvcfg := 0x70
  cycleOff := 0
  minstret := 0
  icache := []
  dcache := []
  resv := none
  wait := none

/-- Work raised for the resident firmware (R63, R156, R257). -/
inductive FwWork where
  | slot (p s : Nat)
  | matchOverflow (ctx : Nat)
  | rows
  deriving DecidableEq, Repr

/-- HDL. -/
structure HdlState where
  cores : SMap HCore
  trigs : SMap TrigCfg
  queue : List TrigEv
  heldPosts : List HeldPost
  fw : List FwWork
  /-- The firmware workspace of HBM (R130). -/
  work : Memory
  deriving DecidableEq, Repr

/-- HDL after reset. -/
def HdlState.init : HdlState := ⟨[], [], [], [], [], []⟩

/-- SPD beyond its registers: the banks of the running test and its mode, the slice each escalated march tests (8 more once a slice
of the bank has failed), words
that read uncorrectable, and the banks' pending moves. -/
structure SpdState where
  march : Option (Word × Nat)
  slices : SMap Nat
  bad : List Nat
  deriving DecidableEq, Repr

/-- SPD after reset. -/
def SpdState.init : SpdState := ⟨none, [], []⟩

/-- A registered waiter of a semaphore (R348): the master, its priority and its place in the order of registration. -/
structure SemWaiter where
  master : Nat
  prio : Nat
  seq : Nat
  deriving DecidableEq, Repr

/-- A semaphore (R346 to R350). -/
structure Semaphore where
  holder : Option Nat
  orphan : Bool
  /-- The holder's own acquiring priority. -/
  prio : Nat
  reserved : Option Nat
  reservedAt : Nat
  waiters : List SemWaiter
  nextSeq : Nat
  deriving DecidableEq, Repr

/-- A semaphore after reset: free. -/
def Semaphore.init : Semaphore := ⟨none, false, 0, none, 0, [], 0⟩

/-- SEM. -/
structure SemState where
  sems : SMap Semaphore
  deriving DecidableEq, Repr

/-- SEM after reset. -/
def SemState.init : SemState := ⟨[]⟩

/-! ## RSV, LOG and the fault windows (chapters 12 to 14) -/

/-- A staged journal record: its LSN, the record, its place in the ring, its bytes, whether it has been written to the target,
and whether it reports a head or a floor, which a newer value replaces until then (R395 to R397). -/
structure Staged where
  lsn : Nat
  body : JRec
  off : Nat
  data : List Byte
  written : Bool
  latest : Bool
  deriving DecidableEq, Repr

/-- A seal in progress (R401). -/
structure Seal where
  cause : Nat
  startAt : Nat
  /-- 0 draining, 1 first flush awaited, 2 second flush awaited. -/
  stage : Nat
  deriving DecidableEq, Repr

/-- A change that a block holds while RSV takes no report (R399, R401): a DB_CQ_HEAD write of a master, or the drain of the
contexts of a function that is being reset. -/
inductive HeldChange where
  | head (m c v : Nat)
  | drain (p f : Nat)
  deriving DecidableEq, Repr

/-- RSV. -/
structure RsvState where
  nextLsn : Nat
  staged : List Staged
  ringOff : Nat
  sbGen : Nat
  journalId : Nat
  tailLsn : Nat
  tailOff : Nat
  cycle : Nat
  cycleLsn : Nat
  cycleOff : Nat
  sealing : Option Seal
  /-- Times of the last target errors (R412). -/
  errors : List Nat
  rate : Nat
  quarantineEnd : Option Nat
  /-- The data path stays stopped after a seal for power failure or device stop (R400). -/
  halt : Bool
  /-- A replay has just taken place, so leaving setup continues its journal (R413). -/
  replayed : Bool
  /-- The changes that blocks hold, oldest first. -/
  held : List HeldChange
  /-- The bytes of the trusted journal that replay applies: the records from tail_off to seal_off (R403, R405). -/
  ring : List Byte
  deriving DecidableEq, Repr

/-- A change-log record (R434). -/
structure LogRec where
  time : Nat
  old : Word
  new : Word
  master : Nat
  kind : Nat
  reason : Nat
  addr : Nat
  deriving DecidableEq, Repr

/-- LOG. -/
structure LogState where
  recs : SMap LogRec
  chain : BitVec 512
  /-- Records up to here have been written to the mirror; and up to here its tail word tells. -/
  mirrored : Nat
  tailTold : Nat
  /-- The ring in HBM is in use (step 8 of R416). -/
  ring : Bool
  deriving DecidableEq, Repr

/-- An open window of a fault source: when it ends and the threshold it opened with (R361, R363). -/
structure FltWin where
  ends : Nat
  n : Nat
  deriving DecidableEq, Repr

/-- A fault window's injection: the source, the master that started it and when the next event falls due (R387). -/
structure FltInj where
  source : Nat
  master : Nat
  next : Nat
  deriving DecidableEq, Repr

/-- The running parts of the fault windows: open windows by 2048·block + source, escalation deadlines and injections by
block, and the cycle in which a block's first record was made. -/
structure FltState where
  wins : SMap FltWin
  esc : SMap Nat
  inj : SMap FltInj
  firstAt : SMap Nat
  deriving DecidableEq, Repr

/-! ## SEC (chapter 14) -/

/-- SEC beyond its registers. -/
structure SecState where
  /-- The last step of R416 reached, when the sequence started, and why (the marker's cause, R418). -/
  step : Nat
  bootAt : Nat
  cause : Nat
  /-- The watchdog has acted since power-good; the sequence it restarted runs (R416). -/
  dogUsed : Bool
  /-- The candidate slot, and whether the other has been tried (R421). -/
  cand : Nat
  tried : Bool
  hbmTrained : Bool
  /-- The measurement booted, the one running, and the hash of the configuration section applied (R429). -/
  fwBoot : BitVec 512
  fwRunning : BitVec 512
  cfg : BitVec 512
  /-- A live update has taken place since reset (R429). -/
  updated : Bool
  allow : List (BitVec 512)
  deny : List Nat
  /-- The firmware verified for an update: its slot, measurement and svn; and when the verify or activation began. -/
  verSlot : Nat
  verHash : BitVec 512
  verSvn : Nat
  updAt : Nat
  /-- The svn_min fused by commit_svn (R432). -/
  svnFused : Nat
  quoteNonce : BitVec 256
  /-- When the flash operation in progress ends at the latest (R438). -/
  flashUntil : Nat
  /-- A TOP_RESET waits for its seal (R418). -/
  resetWaits : Bool
  /-- ADDR_SEL sampled at PWRGOOD (R484). -/
  addrSel : Nat
  /-- The production fuses, once sensed (R416, R423). -/
  fuses : Option Fuses
  /-- The certificates verified, each with its identity (R428). -/
  certs : List (Nat × List Byte)
  /-- Since when step 10 waits for PWRFAIL_N, while it is low, and how long it has waited otherwise (R416, R478). -/
  waitFrom : Option Nat
  waited : Nat
  deriving DecidableEq, Repr

/-- SEC after reset. -/
def SecState.init : SecState :=
  ⟨0, 0, 1, false, 0, false, false, 0, 0, 0, false, [], [], 0, 0, 0, 0, 0, 0, 0, false, 0, none, [], none, 0⟩

/-! ## PMC (chapter 15) -/

/-- An occurrence of an event in the current core cycle: block, code, which element and VC, and weight (R442). -/
structure PmcEv where
  blk : Nat
  code : Nat
  inst : Nat
  vc : Nat
  w : Nat
  deriving DecidableEq, Repr

/-- A precise-sample slot: the item followed and its record so far (R449 to R453). -/
structure Sample where
  /-- 1 a descriptor, 2 a packet delivered, 3 a packet forwarded. -/
  kind : Nat
  /-- The handle's key, or RTE's number of the packet. -/
  key : Nat
  op : Nat
  status : Nat
  incomplete : Bool
  size : Nat
  base : Nat
  startAt : Nat
  /-- Bytes 16 to 63 of the record, and the stages reached with their stamps. -/
  item : BitVec 384
  stamps : SMap Nat
  /-- The item has ended; the record waits for its write. -/
  ended : Bool
  deriving DecidableEq, Repr

/-- PMC. -/
structure PmcState where
  events : List PmcEv
  /-- The previous cycle's sum of each counter in edge mode (R442). -/
  sums : SMap Nat
  /-- A pending freeze's tick, in fabric ns (R446). -/
  freezeAt : Option Nat
  /-- The generator's state (R449). -/
  lfsr : Nat
  live : SMap Sample
  buf : SMap (BitVec 1024)
  deriving DecidableEq, Repr

/-- PMC after reset. -/
def PmcState.init : PmcState := ⟨[], [], none, 1, [], []⟩

/-! ## PWR (chapters 12 and 17) -/

/-- The management mailbox (R485, R486): its registers, when the running access began, and what it has brought. -/
structure Mailbox where
  addr : Nat
  data : Word
  doneIbi : Bool
  write : Bool
  busy : Option Nat
  result : Nat
  /-- The access has been performed: the value a read brought, and the result it ends with. -/
  got : Option (Word × Nat)
  deriving DecidableEq, Repr

/-- The JTAG test access port (R488, R489): the instruction, and the REGACC register with its status. -/
structure Jtag where
  ir : Nat
  status : Nat
  dr : BitVec 96
  deriving DecidableEq, Repr

/-- PWR beyond its registers. -/
structure PwrState where
  /-- HBM words that read uncorrectable, by HBM address / 8. -/
  hbmBad : List Nat
  /-- Pseudo-channels whose slots are being copied, those whose copy has ended, those with a row under repair (R379), and
  the rows repaired so far in each stack. -/
  copying : List Nat
  gone : List Nat
  repairing : List Nat
  repairs : SMap Nat
  /-- PWRGOOD is high; PWRFAIL_N is low; when PWRFAIL_N last changed. -/
  pwrgood : Bool
  pfLow : Bool
  pfAt : Nat
  /-- thermal-warn has been counted and tj_max has not fallen 2 °C below warn; readings in a row at or above trip (R480). -/
  warned : Bool
  hot : Nat
  mb : Mailbox
  jtag : Jtag
  /-- The I3C dynamic address, IBIs enabled by ENEC, and the data bytes of pending IBIs (R484, R487). -/
  dyn : Option Nat
  ibiEn : Bool
  ibis : List Nat
  /-- A 1 has been written to XLT's bit of TOP_SETUP_DONE, and HBM is not zero yet (R133). -/
  xltWaits : Bool
  deriving DecidableEq, Repr

/-- PWR before power-good. -/
def PwrState.init : PwrState :=
  ⟨[], [], [], [], [], false, false, 0, false, 0, ⟨0, 0, false, false, none, 0, none⟩, ⟨1, 0, 0⟩, none, false, [], false⟩

/-! ## The whole machine -/

/-- The state of the device. -/
structure State where
  /-- The commands that wait, first in, first out. -/
  pending : List Instr
  /-- The model's clock, in ps; fabric time is this plus `timAdj`, in whole ns (R28; log entry 5). -/
  now : Nat
  timAdj : Int
  /-- The register file, by register-space offset; an unlisted register reads as its reset value. -/
  regs : SMap Word
  /-- What has left the device, oldest first. -/
  out : List Output
  /-- Packets RTE has handed to the blocks of this node and that no arrival command has taken yet (R25). -/
  delivered : List Packet
  /-- The model's own counter of free values (log entry 7). -/
  free : Nat
  /-- Register accesses that wait (R67, R435), oldest first. -/
  waits : List WaitAcc
  hif : HifState
  ctxs : SMap CtxRec
  handles : SMap Handle
  xlt : XltState
  mat : MatState
  rma : RmaState
  rsv : RsvState
  log : LogState
  flt : FltState
  pmc : PmcState
  hdl : HdlState
  spd : SpdState
  sem : SemState
  pwr : PwrState
  rte : RteState
  lan : LanState
  lnk : LnkState
  sec : SecState
  csc : CscState
  /-- Fabric memory, by fabric-memory offset (R132). -/
  fmem : Memory
  /-- The scratchpad, bank b at b × 1 MiB (R36). -/
  spdMem : Memory
  /-- Handler memory, by offset (R325). -/
  hmem : Memory
  /-- The boot flash, by offset (R440); an unlisted byte reads 0. -/
  flash : Memory
  deriving DecidableEq, Repr

/-- HIF after reset. -/
def HifState.init : HifState := ⟨[], [], [], none, [], [], [], 0⟩
/-- XLT after reset. -/
def XltState.init : XltState := ⟨[], [], [], ⟨false, 0, 0, 0, 0⟩, false⟩
/-- MAT after reset. -/
def MatState.init : MatState := ⟨[], [], [], [], [], 0, []⟩
/-- RMA after reset. -/
def RmaState.init : RmaState := ⟨[], [], [], []⟩
/-- RSV after reset. -/
def RsvState.init : RsvState := ⟨0, [], 0, 0, 0, 0, 0, 0, 0, 0, none, [], 0, none, false, false, [], []⟩
/-- LOG after reset. -/
def LogState.init : LogState := ⟨[], 0, 0, 0, false⟩
/-- The fault windows after reset. -/
def FltState.init : FltState := ⟨[], [], [], []⟩

/-- The machine right after reset: every register at its reset value, every memory and table empty, no command
waiting. PWRGOOD is low and no step of R416 has run. -/
def State.reset : State where
  pending := []
  now := 0
  timAdj := 0
  regs := []
  out := []
  delivered := []
  free := 0
  waits := []
  hif := .init
  ctxs := []
  handles := []
  xlt := .init
  mat := .init
  rma := .init
  rsv := .init
  log := .init
  flt := .init
  pmc := .init
  hdl := .init
  spd := .init
  sem := .init
  pwr := .init
  rte := .init
  lan := .init
  lnk := .init
  sec := .init
  csc := .init
  fmem := []
  spdMem := []
  hmem := []
  flash := []

end Sys2Proof.Machine
end

