-- ==== Sys2Proof/Machine/Ops.lean ====
section
/-!
DEFINITION. The named operations every block uses: reading and writing register fields, bytes and memories, time,
master IDs, endpoints, what leaves the device, and the questions asked of several blocks.
-/
set_option Elab.async false
namespace Sys2Proof.Machine

/-! ## Registers -/

/-- The register-file contents of a register. -/
def State.reg (s : State) (r : RegRef) : Word := SMap.getD resetWord s.regs r.off

/-- Write the register-file contents of a register. -/
def State.setReg (s : State) (r : RegRef) (w : Word) : State :=
  { s with regs := SMap.put resetWord s.regs r.off w }

/-- A field of a register, with the register's indices. -/
def State.fld (s : State) (f : Field) (i k : Nat) : Nat := bitsOf (s.reg ⟨f.reg, i, k⟩).toNat f.hi f.lo

/-- A one-bit field. -/
def State.flag (s : State) (f : Field) (i k : Nat) : Bool := s.fld f i k != 0

/-- Set a field. -/
def State.setFld (s : State) (f : Field) (i k v : Nat) : State :=
  let r : RegRef := ⟨f.reg, i, k⟩
  s.setReg r (BitVec.ofNat 64 (putBits (s.reg r).toNat f.hi f.lo v))

/-- Set a one-bit field. -/
def State.setFlag (s : State) (f : Field) (i k : Nat) (b : Bool) : State := s.setFld f i k (b2n b)

/-- Add to a counting field, which wraps to zero. -/
def State.bump (s : State) (f : Field) (i k : Nat) (n : Nat := 1) : State := s.setFld f i k (s.fld f i k + n)

/-! ## Bytes and memories -/

/-- The `n` low bytes of a number, least significant first (R7). -/
def leBytes (n v : Nat) : List Byte := (List.range n).map fun i => BitVec.ofNat 8 (v / 256 ^ i)

/-- The number that bytes hold, least significant first (R7). -/
def ofLE : List Byte → Nat
  | [] => 0
  | b :: bs => b.toNat + 256 * ofLE bs

/-- A little-endian field of bytes. -/
def bytesAt (bs : List Byte) (off n : Nat) : Nat := ofLE ((bs.drop off).take n)

/-- What an unlisted byte reads as. -/
def memZero : Nat → Byte := fun _ => 0

/-- One byte of a memory. -/
def Memory.byte (m : Memory) (a : Nat) : Byte := SMap.getD memZero m a

/-- `n` bytes of a memory from address `a`. -/
def Memory.read (m : Memory) (a n : Nat) : List Byte := (List.range n).map fun i => m.byte (a + i)

/-- Write bytes from address `a`. -/
def Memory.write (m : Memory) : Nat → List Byte → Memory
  | _, [] => m
  | a, b :: bs => Memory.write (SMap.put memZero m a b) (a + 1) bs

/-- The canonical form of a memory. -/
def Memory.wf (m : Memory) : Bool := SMap.wf memZero m

/-! ## Time -/

/-- `n` µs of the model's clock. -/
def us (n : Nat) : Nat := n * 1000000

/-- `n` ms of the model's clock. -/
def ms (n : Nat) : Nat := n * 1000000000

/-- Fabric time in ns (R28), 64 bits: every domain's local copy of it shows TIM's own value (log entry 115). -/
def State.fabric (s : State) : Nat := ((s.now : Int) + s.timAdj).toNat / 1000 % 2 ^ 64

/-! ## Master IDs and endpoints -/

/-- A host function's master ID (R29). -/
def mHost (p f : Nat) : Nat := p * 2 ^ 18 + f
/-- A handler core's. -/
def mCore (c : Nat) : Nat := 2 ^ 21 + c
/-- A fabric peer's. -/
def mPeer (n : Nat) : Nat := 2 * 2 ^ 21 + n
/-- I3C's. -/
def mI3c : Nat := 3 * 2 ^ 21
/-- JTAG's. -/
def mJtag : Nat := 4 * 2 ^ 21
/-- The device hardware's, of one block. -/
def mDev (blk : Nat) : Nat := 5 * 2 ^ 21 + blk

/-- An endpoint address (R18). -/
def mkEp (node port ctx : Nat) : Nat := node * 2 ^ 23 + port * 2 ^ 20 + ctx
/-- Its node. -/
def epNode (e : Nat) : Nat := e / 2 ^ 23
/-- Its host port. -/
def epPort (e : Nat) : Nat := e / 2 ^ 20 % 8
/-- Its context. -/
def epCtx (e : Nat) : Nat := e % 2 ^ 20

/-- x, y or z of a node ID (R17). -/
def nodeCoord (n d : Nat) : Nat :=
  match d with
  | 0 => n % 48
  | 1 => n % 2304 / 48
  | _ => n / 2304

/-- The node ID of coordinates (R17). -/
def nodeOf (x y z : Nat) : Nat := x + 48 * y + 2304 * z

/-- The node's own coordinate in dimension `d`. -/
def State.coord (s : State) (d : Nat) : Nat :=
  match d with
  | 0 => s.fld TOP_NODE_COORD.x 0 0
  | 1 => s.fld TOP_NODE_COORD.y 0 0
  | _ => s.fld TOP_NODE_COORD.z 0 0

/-- The node's own ID, recomputed from its coordinates (R33). -/
def State.node (s : State) : Nat := nodeOf (s.coord 0) (s.coord 1) (s.coord 2) % 2 ^ 17

/-! ## What leaves the device -/

/-- An occurrence event for the performance counters (R442, R445). -/
def State.pmcEv (s : State) (blk code inst vc w : Nat) : State :=
  if w = 0 then s else { s with pmc := { s.pmc with events := s.pmc.events ++ [⟨blk, code, inst, vc, w⟩] } }

/-- The host port and the payload bytes of a TLP that leaves (R445, HIF event 0x01). -/
def Output.payload : Output → Nat × Nat
  | .memWrite p _ _ bs _ => (p, bs.length)
  | .atomicOp p _ _ _ _ bs _ => (p, bs.length)
  | .msix p .. => (p, 4)
  | .cfgDone p .. => (p, 4)
  | .memDone p bs _ => (p, bs.length)
  | .dsCfgWrite p .. => (p, 4)
  | .dsMemWrite p .. => (p, 8)
  | .dsMemBytes p _ _ bs => (p, bs.length)
  | _ => (0, 0)

/-- A function of a host port, by its key in HIF's tables. -/
def fnKey (p f : Nat) : Nat := p * 512 + f

/-- A function of a port. -/
def State.fn (s : State) (p f : Nat) : FnState := SMap.getD (fun _ => .init) s.hif.fns (fnKey p f)

/-- A request of a function carries ID-Based Ordering while the function's IDO Request Enable is set (R56). -/
def State.ordered (s : State) : Output → Output
  | .memWrite p f a bs _ => .memWrite p f a bs (s.fn p f).ido
  | .memRead p f t a n _ => .memRead p f t a n (s.fn p f).ido
  | .atomicOp p f t op a bs _ => .atomicOp p f t op a bs (s.fn p f).ido
  | .msix p f v a d _ => .msix p f v a d (s.fn p f).ido
  | o => o

/-- Something leaves the device. -/
def State.emit (s : State) (o : Output) : State :=
  ({ s with out := s.out ++ [s.ordered o] }).pmcEv 1 1 o.payload.1 0 o.payload.2

/-- A number put into an ascending list. -/
def insertAsc (n : Nat) : List Nat → List Nat
  | [] => [n]
  | x :: xs => if n ≤ x then n :: x :: xs else x :: insertAsc n xs

/-- An in-band interrupt is raised (R487): it is sent once the device is an I3C target whose controller has enabled them,
and is pending until then. -/
def State.ibi (s : State) (n : Nat) : State :=
  if s.pwr.ibiEn && s.pwr.dyn.isSome then s.emit (.ibi n)
  else { s with pwr := { s.pwr with ibis := insertAsc n s.pwr.ibis } }

/-- Payload bytes of TLPs received from a master, where it is a host function (R445, HIF event 0x02). -/
def State.rxBytes (s : State) (m n : Nat) : State :=
  if m < 2 ^ 21 then s.pmcEv 1 2 (m / 2 ^ 18 % 8) 0 n else s

/-! ## Setup, stop -/

/-- A block is in its setup state (R35). -/
def State.inSetup (s : State) (blk : Nat) : Bool := !bitOf (s.fld TOP_SETUP_DONE.done 0 0) blk

/-- The device has stopped (R386). -/
def State.stopped (s : State) : Bool := s.flag TOP_STOP.stopped 0 0

/-- The data path does nothing: device stop, or a seal that froze it (R386, R400, R401). -/
def State.frozen (s : State) : Bool := s.stopped || s.rsv.halt || s.rsv.sealing.isSome

/-- The next free value (R90 to R103 leave none; see the log entry), of `w` bits. -/
def State.fresh (s : State) (w : Nat) : BitVec w × State :=
  ((Config.freeValue s.free).setWidth w, { s with free := s.free + 1 })

/-- The `k`-th number, from 0, that a rising list does not hold. -/
def nthFree (used : List Nat) (k : Nat) : Nat := used.foldl (fun c u => if u ≤ c then c + 1 else c) k

/-- A place among `n` of which `used` are taken: which of the free ones is a free value (log entry 7). -/
def State.takePlace (s : State) (used : List Nat) (n : Nat) : Nat × State :=
  let x := s.fresh 32
  let used := (used.filter (· < n)).mergeSort (· ≤ ·)
  (nthFree used (x.1.toNat % max 1 (n - used.length)), x.2)

/-! ## Host functions -/

/-- Write a function of a host port. -/
def State.setFn (s : State) (p f : Nat) (v : FnState) : State :=
  { s with hif := { s.hif with fns := SMap.put (fun _ => .init) s.hif.fns (fnKey p f) v } }

/-- The state of a host port. -/
def State.hport (s : State) (p : Nat) : HPortState := SMap.getD (fun _ => .init) s.hif.ports p

/-- Write the state of a host port. -/
def State.setHport (s : State) (p : Nat) (v : HPortState) : State :=
  { s with hif := { s.hif with ports := SMap.put (fun _ => .init) s.hif.ports p v } }

/-- A sub-link of a host port. -/
def State.sub (s : State) (p k : Nat) : SubState := SMap.getD (fun _ => .init) s.hif.subs (p * 4 + k)

/-- Write a sub-link of a host port. -/
def State.setSub (s : State) (p k : Nat) (v : SubState) : State :=
  { s with hif := { s.hif with subs := SMap.put (fun _ => .init) s.hif.subs (p * 4 + k) v } }

/-- The port is in endpoint mode (R39). -/
def State.endpoint (s : State) (p : Nat) : Bool := s.fld HIF_PORT_CFG.mode p 0 == 0

/-- A memory write of a function (R57); none while the function is being reset (R59, step 4). -/
def State.hostWrite (s : State) (p f a : Nat) (bs : List Byte) : State :=
  if bs.isEmpty || (s.fn p f).flr then s else s.emit (.memWrite p f a bs)

/-! ## Contexts and handles -/

/-- A context record. -/
def State.ctx (s : State) (c : Nat) : CtxRec := SMap.getD (fun _ => .init) s.ctxs c

/-- Write a context record. -/
def State.setCtx (s : State) (c : Nat) (r : CtxRec) : State :=
  { s with ctxs := SMap.put (fun _ => .init) s.ctxs c r }

/-- The key of a handle in the table of handles. -/
def handleKey (h : HandleRef) : Nat := h.ctx * 2 ^ 32 + h.index

/-- An assigned handle that has not completed. -/
def State.handle? (s : State) (h : HandleRef) : Option Handle := SMap.find? s.handles (handleKey h)

/-- The name of a handle. -/
def Handle.ref (h : Handle) : HandleRef := ⟨h.ctx, h.index⟩

/-- Write a handle of the table. -/
def State.setHandle (s : State) (h : Handle) : State :=
  { s with handles := SMap.insert s.handles (handleKey h.ref) h }

/-- The uncompleted handles of a context, by rising index key. -/
def State.handlesOf (s : State) (c : Nat) : List Handle :=
  (s.handles.map Prod.snd).filter fun h => h.ctx == c

end Sys2Proof.Machine
end

