-- ==== Sys2Proof/Machine/Rsv.lean ====
section
/-!
DEFINITION. The Reservoir journal: records and superblocks as bytes, staging and writing, the lag, and the seal's start
(R394 to R401).
-/
set_option Elab.async false
namespace Sys2Proof.Machine

/-- `n` bytes, zero but for the listed (offset, length, value) fields. -/
def fieldBytes (n : Nat) (fs : List (Nat × Nat × Nat)) : List Byte :=
  leBytes n (fs.foldl (fun a (o, l, v) => a + v % 256 ^ l * 256 ^ o) 0)

/-- A handle as its 64-bit value (R19), for a ring of 2^lg slots. -/
def mkHandle (lg ctx index tag : Nat) : Nat :=
  ctx % 2 ^ 20 * 2 ^ 44 + index % 2 ^ lg % 2 ^ 16 * 2 ^ 28 + index / 2 ^ lg % 4096 * 2 ^ 16 + tag % 2 ^ 16

/-- dr_log2 of a context record (R72). -/
def CtxRec.drLog2 (r : CtxRec) : Nat := bitsOf r.cfg.toNat (8 * 16 + 7) (8 * 16)

/-- The type code, the units and the body fields of a record (R396). -/
def JRec.layout (s : State) : JRec → Nat × Nat × List (Nat × Nat × Nat)
  | .ctxOpen c cfg => (0x01, 2, [(16, 4, c), (24, 64, cfg.toNat)])
  | .ctxState c st f po hd ps pr =>
    (0x02, 1, [(16, 4, c), (20, 1, st), (24, 4, f), (28, 4, po), (32, 4, hd), (40, 8, ps), (48, 8, pr)])
  | .handleAssign c i tag t d =>
    (0x03, 2, [(16, 8, mkHandle (s.ctx c).drLog2 c i tag), (24, 4, i), (32, 8, t), (64, 64, d.toNat)])
  | .handleDone c i tag st dt n po r =>
    (0x04, 1, [(16, 8, mkHandle (s.ctx c).drLog2 c i tag), (24, 1, st), (25, 1, dt), (28, 4, n), (32, 4, po),
      (40, 8, r.toNat)])
  | .window e g a p i0 i1 =>
    (0x05, 2, [(16, 4, e), (20, 2, g), (22, 1, b2n a + 2 * b2n p), (24, 24, i0.toNat), (48, 24, i1.toNat)])
  | .xlt f es => (0x06, 1, [(16, 3, f), (19, 1, es.length), (24, 40, ofLE (es.flatMap fun e => leBytes 8 e.toNat))])
  | .peer r c f n e => (0x07, 1, [(16, 5, r), (21, 3, c), (24, 4, f), (28, 4, n), (32, 4, e)])
  | .oprec r c o st pk rw sta dt w g t res =>
    (0x08, 2, [(16, 5, r), (21, 3, c), (24, 4, o), (28, 1, st), (29, 1, pk % 8 + 8 * b2n rw), (30, 1, sta), (31, 1, dt),
      (32, 2, w), (34, 2, g), (36, 4, t), (40, 16, res.toNat)])
  | .counter n cfg v f mi => (0x09, 1, [(16, 2, n), (20, 4, cfg), (24, 8, v.toNat), (32, 4, f), (40, 8, mi)])
  | .matchAdd k cl c co ra t st h a sz m ar dest pu hs bk =>
    (0x0A, 1, [(16, 1, 128 + 64 * b2n hs + 32 * b2n pu + 16 * b2n (k == 1 && ar == dest) + 8 * b2n (k != 0) + cl % 8), (17, 3, c), (20, 2, co),
      (22, 3, ra), (25, 1, bk), (26, 4, t), (30, 1, ar), (31, 1, dest), (32, 8, st), (40, 8, h), (48, 8, a), (56, 4, sz), (60, 4, m)])
  | .matchDel c cl st src m => (0x0B, 1, [(16, 4, c), (20, 1, cl), (24, 8, st), (32, 5, src), (40, 4, m)])
  | .bind c i sh src pu m l =>
    let tag := match s.handle? ⟨c, i⟩ with | some h => bitsOf h.desc.toNat 31 16 | none => 0
    (0x0C, 1, [(16, 8, mkHandle (s.ctx c).drLog2 c i tag), (24, 8, sh), (32, 5, src), (37, 1, b2n pu), (40, 4, m),
      (44, 4, l)])
  | .pad => (0x7D, 1, [])
  | .cycle n st => (0x7E, 1, [(16, 8, n), (24, 1, b2n st)])
  | .sealed t c d => (0x7F, 1, [(16, 8, t), (24, 1, c), (32, 8, d)])

/-- A record's bytes, with its CRC (R395). -/
def JRec.toBytes (s : State) (r : JRec) (lsn : Nat) : List Byte :=
  let (ty, units, fs) := JRec.layout s r
  let head := [(0, 1, ty), (1, 1, units), (8, 8, lsn)]
  let zeroed := fieldBytes (64 * units) (head ++ fs)
  fieldBytes (64 * units) (head ++ [(4, 4, (crc32c zeroed).toNat)] ++ fs)

/-- Reservoir is on and journals (R390, R415). -/
def State.rsvOn (s : State) : Bool := s.flag RSV_CFG.enable 0 0 && s.fld RSV_STATUS.state 0 0 == 2

/-- The size of the log ring (R394). -/
def State.ringBytes (s : State) : Nat := s.fld RSV_TARGET.size_gib 0 0 * 2 ^ 30 - 0x2000

/-- A write to the target at a journal offset (R392). -/
def State.targetWrite (s : State) (off : Nat) (bs : List Byte) : State :=
  let a := s.fld RSV_TARGET_BASE.base 0 0 * 2 ^ 12 + off
  let p := s.fld RSV_TARGET.port 0 0
  let s := s.pmcEv 14 1 0 0 bs.length
  match s.fld RSV_TARGET.kind 0 0 with
  | 1 => s.emit (.dsMemBytes p (s.fld RSV_TARGET.sublink 0 0) a bs)
  | 2 => s.emit (.memWrite p 0 a bs)
  | _ => s

/-- Staged bytes not yet acknowledged (R399). -/
def State.lag (s : State) : Nat := (s.rsv.staged.map (·.data.length)).sum

/-- The lag limit in bytes (R399); before the first measurement, the ceiling alone (log entry 12). -/
def State.lagLimit (s : State) : Nat :=
  let top := min (s.fld RSV_CFG.lag_kib 0 0) 262144 * 1024
  if s.rsv.rate = 0 then top else min top (s.rsv.rate * 400 / 1000000)

/-- Bytes of the ring in use, from the tail to the last record. -/
def State.ringUsed (s : State) : Nat :=
  if s.ringBytes = 0 then 0 else (s.rsv.ringOff + s.ringBytes - s.rsv.tailOff) % s.ringBytes

/-- A block must hold its change: the lag, the ring's free space, or a lost target with on_loss set (R399, R412). -/
def State.rsvHold (s : State) : Bool :=
  s.rsvOn && (s.lagLimit < s.lag + 128 || s.ringBytes - s.ringUsed < s.lagLimit + 64 * 2 ^ 20 ||
    (s.flag RSV_STATUS.target_lost 0 0 && s.flag RSV_CFG.on_loss 0 0))

/-- RSV takes no report now: the limits of R399, or a seal that has frozen the journal (R401). Every reporting block holds its
next change. -/
def State.rsvHeld (s : State) : Bool := s.rsvHold || [4, 5].contains (s.fld RSV_STATUS.state 0 0)

/-- A block holds a change. -/
def State.holdChange (s : State) (x : HeldChange) : State :=
  { s with rsv := { s.rsv with held := s.rsv.held ++ [x] } }

/-- Put a record into the staging area, at the next place of the ring. -/
def State.stageAt (s : State) (r : JRec) (latest : Bool) : State :=
  let bs := JRec.toBytes s r s.rsv.nextLsn
  let off := s.rsv.ringOff
  { s with rsv := { s.rsv with
      nextLsn := s.rsv.nextLsn + 1
      ringOff := if s.ringBytes ≤ off + bs.length then 0 else off + bs.length
      staged := s.rsv.staged ++ [⟨s.rsv.nextLsn, r, off, bs, false, latest⟩] } }

/-- Stage one record; a pad record fills the end of the ring before one of two units (R395, R397). -/
def State.stage (s : State) (r : JRec) (latest : Bool := false) : State :=
  let n := 64 * (JRec.layout s r).2.1
  (if s.ringBytes < s.rsv.ringOff + n then s.stageAt .pad false else s).stageAt r latest

/-- The staged records are written to the ring, in LSN order (R397); each command ends with this (log entry 137). -/
def State.journalFlush (s : State) : State :=
  if s.rsv.staged.all (·.written) then s
  else
    let s := (s.rsv.staged.filter (!·.written)).foldl (fun s x => s.targetWrite (0x2000 + x.off) x.data) s
    { s with rsv := { s.rsv with staged := s.rsv.staged.map fun x => { x with written := true } } }

/-- A block reports a change (R390). -/
def State.report (s : State) (r : JRec) : State := if s.rsvOn then s.stage r else s

/-- The object of a record that a head or floor report may follow: a context, or a pair of contexts. -/
def JRec.object : JRec → Option (Nat × Nat × Nat)
  | .ctxOpen c _ => some (1, c, 0)
  | .ctxState c .. => some (1, c, 0)
  | .peer r c .. => some (2, c, r)
  | _ => none

/-- A block reports a head or a floor: a staged record of one that has not been written is replaced (R397). -/
def State.reportLatest (s : State) (r : JRec) : State :=
  if !s.rsvOn then s
  else match (s.rsv.staged.filter fun x => !x.written && JRec.object x.body == JRec.object r).getLast? with
    | some y =>
      if !y.latest then s.stage r true
      else { s with rsv := { s.rsv with staged := s.rsv.staged.map fun x =>
        if x.lsn = y.lsn then { x with body := r, data := JRec.toBytes s r x.lsn } else x } }
    | none => s.stage r true

/-- Write a superblock with the given state, after the records staged so far (R394), alternately to the two copies. -/
def State.superblock (s : State) (st sealLsn sealOff dsc : Nat) : State :=
  let s := s.journalFlush
  let gen := s.rsv.sbGen + 1
  let fs := [(0, 4, 1), (8, 8, gen), (16, 8, s.fld SEC_IDENTITY.identity 0 0), (24, 8, s.rsv.journalId),
    (32, 8, s.ringBytes), (40, 8, s.rsv.tailLsn), (48, 8, s.rsv.tailOff), (56, 8, sealLsn), (64, 8, sealOff),
    (72, 8, dsc), (80, 1, st)]
  let crc := (crc32c (fieldBytes 512 fs)).toNat
  let s := { s with rsv := { s.rsv with sbGen := gen } }
  s.targetWrite (gen % 2 * 0x1000) (fieldBytes 512 ((4, 4, crc) :: fs))

/-- Squelch every lane. -/
def State.squelchAll (s : State) : State := (List.range 288).foldl (fun s l => s.emit (.laneSquelch l)) s

/-- The Dirty Shutdown Count that the target reports in its health information; zero for host memory (R71, R394). -/
def State.dirtyCount (s : State) : Nat :=
  if s.fld RSV_TARGET.kind 0 0 = 1 then
    ((s.sub (s.fld RSV_TARGET.port 0 0) (s.fld RSV_TARGET.sublink 0 0)).device.map (·.dirty)).getD 0
  else 0

/-- A fresh host-read tag (R55). -/
def State.takeTag (s : State) : Nat × State :=
  (s.hif.nextTag, { s with hif := { s.hif with nextTag := s.hif.nextTag + 1 } })

/-- A host request outside the gathers is issued: its tag. -/
def State.takeOther (s : State) (p fn : Nat) (u : OtherUse) : Nat × State :=
  let x := s.takeTag
  (x.1, { x.2 with hif := { x.2.hif with others := SMap.insert x.2.hif.others x.1 ⟨p, fn, u⟩ } })

/-- A host request outside the gathers has ended. -/
def State.dropOther (s : State) (u : OtherUse) : State :=
  { s with hif := { s.hif with others := s.hif.others.filter fun e => e.2.use != u } }

/-- A host request of a use is outstanding. -/
def State.awaits (s : State) (u : OtherUse) : Bool := s.hif.others.any fun e => e.2.use == u

/-- The first flush of a seal: GPF phase 1, or a read of the last superblock (R401, step 6). -/
def State.sealFlush (s : State) : State :=
  let p := s.fld RSV_TARGET.port 0 0
  if s.fld RSV_TARGET.kind 0 0 = 1 then s.emit (.dsGpf p (s.fld RSV_TARGET.sublink 0 0) 1)
  else
    let x := s.takeOther p 0 .seal
    x.2.emit (.memRead p 0 x.1 (s.fld RSV_TARGET_BASE.base 0 0 * 2 ^ 12 + s.rsv.sbGen % 2 * 0x1000) 8)

/-- The SEAL record and the sealed superblock (R401, step 5). -/
def State.sealWrite (s : State) (cause : Nat) : State :=
  let dsc := s.dirtyCount
  let s := s.stage (.sealed (s.fld RSV_LAST_SEAL.time 0 0) cause dsc)
  s.superblock 1 (s.rsv.nextLsn - 1) ((s.rsv.staged.getLast?.map (·.off)).getD 0) dsc

/-- A draining seal goes on once the staging area is empty: the SEAL record, the superblock and the first flush (R401). -/
def State.sealDrain (s : State) : State :=
  match s.rsv.sealing with
  | some x =>
    if x.stage == 0 && s.rsv.staged.isEmpty then
      let s := s.sealWrite x.cause
      let s : State := { s with rsv := { s.rsv with staged := [], sealing := some { x with stage := 1 } } }
      s.sealFlush
    else s
  | none => s

/-- A seal starts (R400, R401): the journal freezes, draining starts; causes 1 and 2 stop the data path for good. A
running seal carries on whatever happens. -/
def State.sealStart (s : State) (cause : Nat) : State :=
  let s := if cause = 1 ∨ cause = 2 then { s with rsv := { s.rsv with halt := true } } else s
  if s.rsvOn && s.rsv.sealing.isNone then
    let s := s.squelchAll
    let s := s.setFld RSV_STATUS.state 0 0 4
    let s := s.setFld RSV_LAST_SEAL.time 0 0 s.fabric
    let s : State := { s with rsv := { s.rsv with sealing := some ⟨cause, s.now, 0⟩ } }
    s.sealDrain
  else s

end Sys2Proof.Machine
end

