-- ==== Sys2Proof/Machine/CfgSpace.lean ====
section
/-!
DEFINITION. What the functions of a host port present in configuration space, and what a root port presents of its slots
(R36, R45, R46, R63). The places of the fields are those of the base specifications that R45 names (log entry 106).
-/
set_option Elab.async false
namespace Sys2Proof.Machine

/-- A field of configuration space: dword, high bit, low bit, value. -/
abbrev CfgField := Nat × Nat × Nat × Nat

/-- A capability header: identifier, and where the next one lies. -/
def capHead (off id next : Nat) : List CfgField := [(off / 4, 7, 0, id), (off / 4, 15, 8, next)]
def extCapHead (off id next : Nat) : List CfgField := [(off / 4, 15, 0, id), (off / 4, 31, 20, next)]

/-- A base address register: the bits that can be written, and the type bits below them. -/
structure BarShape where
  mask : Nat
  type : Nat
  deriving DecidableEq, Repr

/-- The six registers of the physical function (R36): BAR0 and BAR1 of 64 MiB, BAR2 and BAR3 of 4 GiB, BAR4 and BAR5 of
128 GiB. -/
def pfBars : List BarShape :=
  [⟨0xFC000000, 0⟩, ⟨0xFC000000, 0⟩, ⟨0, 0xC⟩, ⟨0xFFFFFFFF, 0⟩, ⟨0, 0xC⟩, ⟨0xFFFFFFE0, 0⟩]

/-- The six VF registers (R46): BAR0 of 64 KiB, BAR2 and BAR3 of 16 MiB, no other. -/
def vfBars : List BarShape :=
  [⟨0xFFFF0000, 0⟩, ⟨0, 0⟩, ⟨0xFF000000, 0xC⟩, ⟨0xFFFFFFFF, 0⟩, ⟨0, 0⟩, ⟨0, 0⟩]

/-- The fields of base address registers from dword `d`, with what has been written to them. -/
def barFields (d : Nat) (shapes : List BarShape) (written : SMap Nat) : List CfgField :=
  shapes.zipIdx.map fun e => (d + e.2, 31, 0, SMap.getD (fun _ => 0) written e.2 &&& e.1.mask ||| e.1.type)

/-- A write of dword `dword` reaches a base address register of those from dword `d`. -/
def barWrite (d dword val : Nat) (written : SMap Nat) : SMap Nat :=
  if d ≤ dword ∧ dword < d + 6 then SMap.put (fun _ => 0) written (dword - d) val else written

/-- Identification, the same for physical and virtual functions but for the device ID (R45). -/
def cfgIdent (f : Nat) : List CfgField :=
  [(0, 15, 0, 0x1E7A), (0, 31, 16, if f = 0 then 0x0048 else 0x0049), (1, 20, 20, 1), (2, 31, 0, 0x028000A1), (3, 23, 16, 0),
   (0xD, 7, 0, 0x40), (0xF, 15, 8, if f = 0 then 1 else 0)]

/-- Power Management: version 3, D0 and D3hot only, No_Soft_Reset, no PME. -/
def cfgPm (v : FnState) : List CfgField :=
  capHead 0x40 0x01 0x50 ++ [(0x10, 31, 16, 3), (0x11, 1, 0, if v.d3 then 3 else 0), (0x11, 3, 3, 1), (0x11, 8, 8, 0)]

/-- MSI-X: the table of 2,048 entries in BAR0, or of 64 in VF BAR0, and the pending bits (R45, R48). -/
def cfgMsix (p f : Nat) (v : FnState) : List CfgField :=
  capHead 0x50 0x11 0x60 ++
    [(0x14, 26, 16, if f = 0 then 2047 else 63), (0x14, 31, 31, b2n v.msixEn),
     (0x15, 31, 0, if f = 0 then 0x100000 + p * 0x10000 else 0),
     (0x16, 31, 0, if f = 0 then 0x108000 + p * 0x10000 else 0x800)]

/-- PCI Express: version 2, an endpoint, 1,024-byte payload, extended and 10-bit tags, function-level reset, completion timeout
ranges B, C, D and Disable, 64.0 GT/s and 16 lanes, Flit Mode as advertised (R40). -/
def cfgPcie (flit : Bool) (v : FnState) : List CfgField :=
  capHead 0x60 0x10 0 ++
    [(0x18, 23, 16, 2), (0x18, 31, 31, b2n flit), (0x19, 2, 0, 3), (0x19, 5, 5, 1), (0x19, 28, 28, 1), (0x1B, 3, 0, 6),
     (0x1B, 9, 4, 16), (0x21, 3, 0, 0b1110), (0x21, 4, 4, 1), (0x21, 17, 16, 3), (0x22, 6, 6, b2n v.atomicReq),
     (0x22, 8, 8, b2n v.ido)]

/-- The capabilities above 0x100 and their order (R45). -/
def cfgExtCaps : List CfgField :=
  extCapHead 0x100 0x0001 0x148 ++ extCapHead 0x148 0x000E 0x150 ++ [(0x53, 15, 8, 0)] ++ extCapHead 0x150 0x0003 0x160 ++
  extCapHead 0x160 0x0010 0x1A0 ++ extCapHead 0x1A0 0x0019 0x1D0 ++ extCapHead 0x1D0 0x0025 0x1E0 ++ [(0x75, 0, 0, 1)] ++
  extCapHead 0x1E0 0x0026 0x210 ++ extCapHead 0x210 0x002A 0x240 ++ extCapHead 0x240 0x0031 0x260 ++
  extCapHead 0x260 0x0027 0x2B0 ++ extCapHead 0x2B0 0x0022 0x2C0 ++ extCapHead 0x2C0 0x0023 0

/-- A time of Readiness Time Reporting: the least that its value and scale can say which is not below `ns`. -/
def readyTime (ns : Nat) : Nat :=
  ((List.range 6).findSome? fun k =>
    let n := (ns + 32 ^ k - 1) / 32 ^ k
    if n < 512 then some (k * 512 + n) else none).getD 0xFFF

/-- Readiness Time Reporting: reset 100 ms, DL_Up 0, FLR 1 ms, D3hot to D0 10 ms. -/
def cfgReadiness : List CfgField :=
  [(0xAD, 11, 0, readyTime 100000000), (0xAD, 23, 12, readyTime 0), (0xAD, 31, 31, 1), (0xAE, 11, 0, readyTime 1000000),
   (0xAE, 23, 12, readyTime 10000000)]

/-- SR-IOV (R46). -/
def cfgSriov (h : HPortState) : List CfgField :=
  [(0x59, 0, 0, 0), (0x5A, 0, 0, b2n h.vfEnable), (0x5B, 31, 0, 256 * 2 ^ 16 + 256), (0x5C, 15, 0, h.numVfs),
   (0x5D, 31, 0, 2 ^ 16 + 1), (0x5E, 31, 16, 0x0049), (0x5F, 31, 0, 1), (0x60, 31, 0, 1), (0x67, 31, 0, 0)] ++
  barFields 0x61 vfBars h.vfBars

/-- Ihlord's vendor-specific capability: its identifier, the host port, the layout version 1 and the node ID. -/
def cfgVendor (p node : Nat) : List CfgField :=
  [(0xB1, 15, 0, 0x1E7A), (0xB2, 15, 0, 0x0001), (0xB2, 23, 16, p), (0xB2, 31, 24, 1), (0xB3, 31, 0, node)]

/-- What R45 and R46 give of the configuration space of function `f` of port `p`. -/
def State.cfgFields (s : State) (p f : Nat) : List CfgField :=
  let v := s.fn p f
  let h := s.hport p
  let id := s.fld SEC_IDENTITY.identity 0 0
  let both := cfgIdent f ++ cfgPm v ++ cfgMsix p f v ++
    cfgPcie (h.flit && s.fld HIF_PORT_CFG.max_speed p 0 == 0) v ++
    [(1, 2, 2, b2n v.busMaster), (1, 10, 10, b2n v.intxDis), (1, 19, 19, b2n (f == 0 && h.wire))]
  if f ≠ 0 then both ++ barFields 4 (List.replicate 6 ⟨0, 0⟩) []
  else both ++ barFields 4 pfBars v.bars ++ cfgExtCaps ++ [(0x41, 31, 0, h.aerUnc), (0x44, 31, 0, h.aerCor),
    (0x55, 31, 0, id), (0x56, 31, 0, id / 2 ^ 32)] ++ cfgSriov h ++ cfgReadiness ++ cfgVendor p s.node

/-- A dword of configuration space: what R45 and R46 give, over what only the base specification gives. -/
def State.cfgRead (s : State) (p f dword : Nat) : Nat :=
  ((s.cfgFields p f).filter fun e => e.1 == dword).foldl (fun n e => putBits n e.2.1 e.2.2.1 e.2.2.2)
    (Config.cfgSpace (fnKey p f * 1024 + dword)).toNat

/-- A write of a dword that no named request covers: base address registers, and the power state (D0 or D3hot). -/
def State.cfgStore (s : State) (p f dword val : Nat) : State :=
  let v := s.fn p f
  let h := s.hport p
  let s := if dword = 0x11 ∧ (val % 4 = 0 ∨ val % 4 = 3) then s.setFn p f { v with d3 := val % 4 == 3 } else s
  if f ≠ 0 then s
  else
    let s := s.setFn p f { s.fn p f with bars := barWrite 4 dword val v.bars }
    s.setHport p { h with vfBars := barWrite 0x61 dword val h.vfBars }

/-- The slot capability that sub-link `k` of port `p` presents as a root port (R63): attention button, power controller, both
indicators, hot-plug and surprise; no MRL sensor, no interlock; slot 4p + k. -/
def slotCapability (p k : Nat) : Nat :=
  [(0, 0, 1), (1, 1, 1), (2, 2, 0), (3, 3, 1), (4, 4, 1), (5, 5, 1), (6, 6, 1), (17, 17, 0), (31, 19, 4 * p + k)].foldl
    (fun n (e : Nat × Nat × Nat) => putBits n e.1 e.2.1 e.2.2) 0

end Sys2Proof.Machine
end

