-- ==== Sys2Proof/Machine/Operands.lean ====
section
/-!
DEFINITION. The operand forms: descriptors (R88 to R98), handles (R19), completion entries (R100), packet headers and
their kind areas (R236 to R239) and the match extension (R150): reading every field, and building packets.
-/
set_option Elab.async false
namespace Sys2Proof.Machine

/-! ## Descriptors -/

/-- Bits [hi:lo] of the bytes from byte `b` of a descriptor. -/
def dget (d : Descriptor) (b hi lo : Nat) : Nat := bitsOf d.toNat (8 * b + hi) (8 * b + lo)

def dOpcode (d : Descriptor) : Nat := dget d 0 7 0
def dIrq (d : Descriptor) : Bool := dget d 1 7 7 == 1
def dLcnt (d : Descriptor) : Bool := dget d 1 6 6 == 1
def dRcnt (d : Descriptor) : Bool := dget d 1 5 5 == 1
def dClass (d : Descriptor) : Nat := dget d 1 4 3
def dUrgent (d : Descriptor) : Bool := dget d 1 2 2 == 1
def dTag (d : Descriptor) : Nat := dget d 2 15 0
def dTarget (d : Descriptor) : Nat := dget d 4 39 0
def dSub (d : Descriptor) : Nat := dget d 9 7 0
def dWindow (d : Descriptor) : Nat := dget d 10 15 0
def dKey (d : Descriptor) : Nat := dget d 12 15 0
def dLocalCounter (d : Descriptor) : Nat := dget d 14 15 0
/-- The address in bytes 16–23. -/
def dAddr (d : Descriptor) : Nat := dget d 16 63 0
/-- The address or offset in bytes 24–31. -/
def dAddr2 (d : Descriptor) : Nat := dget d 24 63 0
/-- The packet class of a descriptor: 0b11 when urgent (R237). -/
def dPktClass (d : Descriptor) : Nat := if dUrgent d then 3 else dClass d

/-- The length of the operation: PUT and GET at 32, SEND and RECV_POST at 24, an ATOMIC's operand size. -/
def dLength (d : Descriptor) : Nat :=
  match dOpcode d with
  | 1 => dget d 32 31 0
  | 2 => dget d 32 31 0
  | 3 => if dSub d = 0x0C then 16 else 8
  | 4 => dget d 24 31 0
  | 5 => dget d 24 31 0
  | _ => 0

/-- local_kind or buffer_kind. -/
def dKind (d : Descriptor) : Nat :=
  match dOpcode d with
  | 1 => dget d 36 7 0
  | 2 => dget d 36 7 0
  | 4 => dget d 37 7 0
  | 5 => dget d 37 7 0
  | _ => 0

/-- The inline data of a PUT or SEND (R93, R95). -/
def dInline (d : Descriptor) : List Byte := (leBytes 64 d.toNat).drop 48 |>.take (dLength d)

def dRemoteCounter (d : Descriptor) : Nat := dget d 38 15 0
def dMatchTag (d : Descriptor) : Nat := dget d 28 31 0
def dComm (d : Descriptor) : Nat := dget d 32 15 0
def dRank (d : Descriptor) : Nat := dget d 34 23 0
def dAnySource (d : Descriptor) : Bool := dget d 38 0 0 == 1
def dAnyTag (d : Descriptor) : Bool := dget d 38 1 1 == 1
/-- The counter and threshold of COUNTER_ARM and TRIGGERED (R98). -/
def dCounter (d : Descriptor) : Nat := if dOpcode d = 9 then dget d 32 15 0 else dget d 24 15 0
def dThreshold (d : Descriptor) : Nat := if dOpcode d = 9 then dget d 24 63 0 else dget d 16 63 0

/-- Byte `b` of a descriptor is zero, for all bytes from `b` up to `e`. -/
def dZero (d : Descriptor) (b e : Nat) : Bool := bitsOf d.toNat (8 * e + 7) (8 * b) == 0

/-- Descriptors whose target field is used (R92). -/
def dHasTarget (d : Descriptor) : Bool :=
  let o := dOpcode d
  o == 1 || o == 2 || o == 3 || o == 4 || (o == 8 && dSub d == 2)

/-! ## The checks of R90 -/

/-- Check 2: every byte and bit marked "—" for the opcode is zero (R91 to R98). Bytes 16 to 63 of a NOP, which no table gives a
field, and bytes 40 to 47 and 56 to 63 of an ATOMIC whose operation code is unlisted, count as reserved (log entry 116). -/
def dReservedOk (d : Descriptor) : Bool :=
  let o := dOpcode d
  let flags := dget d 1 1 0 == 0 && (o == 1 || o == 2 || !dRcnt d)
  let target := dHasTarget d || dZero d 4 8
  let sub := o == 3 || o == 7 || o == 8 || o == 9 || o == 0xB || dZero d 9 9
  let window := o == 1 || o == 2 || o == 3 || dZero d 10 13
  let body :=
    match o with
    | 0 => dZero d 16 63
    | 1 => dZero d 37 37 && dZero d 40 47 &&
           (if dKind d = 3 then (dget d 32 31 0 ≥ 16 || dZero d (48 + dget d 32 31 0) 63) else dZero d 48 63)
    | 2 => dZero d 37 37 && dZero d 40 63
    | 3 => dSub d == 0x0C || (dZero d 40 47 && dZero d 56 63)
    | 4 => dZero d 38 47 &&
           (if dKind d = 3 then (dget d 24 31 0 ≥ 16 || dZero d (48 + dget d 24 31 0) 63) else dZero d 48 63)
    | 5 => dget d 38 7 2 == 0 && dZero d 39 63
    | 6 => dZero d 24 63
    | 7 => dget d 38 7 4 == 0 && dZero d 46 47 && dget d 48 31 17 == 0 && dZero d 52 63
    | 8 => dZero d 16 63
    | 9 => dget d 9 7 1 == 0 && dZero d 34 63
    | 0xA => dZero d 26 63
    | 0xB => dZero d 17 63
    | _ => true
  flags && target && sub && window && body

/-- The datatype codes (R211). -/
def dtypeListed (t : Nat) : Bool := [0, 1, 2, 3, 4, 0x10, 0x11, 0x12, 0x13, 0x20].contains t

/-- Check 3: every encoded field holds a listed value (R90, R92 to R98). -/
def dListedOk (d : Descriptor) : Bool :=
  let o := dOpcode d
  let cls := dClass d != 3
  let body :=
    match o with
    | 1 => dKind d ≤ 3
    | 2 => dKind d ≤ 2
    | 3 => 1 ≤ dSub d && dSub d ≤ 0x0C
    | 4 => dKind d ≤ 3
    | 5 => dKind d ≤ 2 && (!dAnySource d || dRank d == 0) && (!dAnyTag d || dMatchTag d == 0)
    | 7 =>
      let sub := dSub d
      let reducing := sub == 2 || sub == 3 || sub == 4
      1 ≤ sub && sub ≤ 6 && dget d 39 7 4 ≤ 2 && dget d 39 3 0 ≤ 2 &&
        (reducing || dget d 37 7 0 == 0) && dtypeListed (dget d 36 7 0) && dget d 37 7 0 ≤ 6 &&
        (List.range 3).all (fun k =>
          let g := dget d (40 + 2 * k) 15 0
          g < 4096 && (bitOf (dget d 38 2 0) k || g == 0)) &&
        (sub == 1 || sub == 2 || dget d 48 16 0 == 0)
    | 8 => dSub d == 1 || dSub d == 2
    | 0xB => 1 ≤ dSub d && dSub d ≤ 3 && dget d 16 7 0 ≤ 63
    | _ => true
  cls && body

/-- Check 4: urgent only where it is allowed (R90). -/
def dUrgentOk (d : Descriptor) : Bool :=
  let o := dOpcode d
  !dUrgent d || o == 0xB || ((o == 1 || o == 2 || o == 3 || o == 4) && dLength d ≤ 256)

/-- Check 5: every length within its limit (R93, R95). -/
def dLengthOk (d : Descriptor) : Bool :=
  let o := dOpcode d
  !((o == 1 || o == 4) && dKind d == 3 && 16 < dLength d)

/-- The checks of R90 in order: the status and detail of the first failure. -/
def descCheck (d : Descriptor) : Option (Nat × Nat) :=
  if 0xB < dOpcode d then some (0x15, 1)
  else if !dReservedOk d then some (0x15, 2)
  else if !dListedOk d then some (0x15, 3)
  else if !dUrgentOk d then some (0x15, 4)
  else if !dLengthOk d then some (0x13, 0)
  else none

/-- The descriptor may be gated by a TRIGGERED (R99). -/
def dGateable (d : Descriptor) : Bool := [1, 2, 3, 4, 7].contains (dOpcode d)

/-! ## Packets -/

/-- Pack (low bit, width, value) fields into a number. -/
def packFields (fs : List (Nat × Nat × Nat)) : Nat := fs.foldl (fun a (lo, w, v) => a + v % 2 ^ w * 2 ^ lo) 0

/-- Bits [hi:lo] of the common part of a header (R237). -/
def hget (p : Packet) (hi lo : Nat) : Nat := bitsOf p.hdr.toNat hi lo

/-- Bits [hi:lo] of the kind area, bytes 13–31 (R239). -/
def kget (p : Packet) (hi lo : Nat) : Nat := bitsOf p.hdr.toNat (104 + hi) (104 + lo)

def pDstNode (p : Packet) : Nat := hget p 16 0
def pSrcNode (p : Packet) : Nat := hget p 33 17
def pDstCtx (p : Packet) : Nat := hget p 53 34
def pSrcCtx (p : Packet) : Nat := hget p 73 54
def pSrcPort (p : Packet) : Nat := hget p 76 74
def pVc (p : Packet) : Nat := hget p 79 77
def pEpoch (p : Packet) : Nat := hget p 80 80
def pType (p : Packet) : Nat := hget p 84 81
def pDetour (p : Packet) : Nat := hget p 87 85
def pClass (p : Packet) : Nat := hget p 89 88
def pBytes (p : Packet) : Nat := hget p 103 91

/-- The source endpoint of a packet (R237). -/
def pSrcEp (p : Packet) : Nat := mkEp (pSrcNode p) (pSrcPort p) (pSrcCtx p)

def pOsn (p : Packet) : Nat := kget p 31 0
def pFdelta (p : Packet) : Nat := kget p 47 32
/-- The floor a request carries (R239). -/
def pFloor (p : Packet) : Nat := (pOsn p + 2 ^ 32 - pFdelta p) % 2 ^ 32
def pWindow (p : Packet) : Nat := kget p 63 48
def pKey (p : Packet) : Nat := kget p 79 64
def pIndex (p : Packet) : Nat := kget p 99 80
def pRcnt (p : Packet) : Bool := kget p 101 101 == 1
def pCounter (p : Packet) : Nat := kget p 117 102
def pLength (p : Packet) : Nat := kget p 149 118
def pAtomOffset (p : Packet) : Nat := kget p 143 80
def pAtomOp (p : Packet) : Nat := kget p 151 144
def pMop (p : Packet) : Nat := kget p 51 48
def pHandle (p : Packet) : Nat := kget p 115 52
def pAux (p : Packet) : Nat := kget p 147 116

/-- The parts of an operation of length `l` (R170). -/
def partsOf (l : Nat) : Nat := max 1 ((l + 4095) / 4096)

/-- The size of part `k`. -/
def partLen (l k : Nat) : Nat := min l (4096 * (k + 1)) - 4096 * k

/-- The range word of a PUT data packet or GET request: its last 8 bytes (R236). -/
def pRange (p : Packet) : Nat := ofLE (p.bytes.drop (p.bytes.length - 8))

/-- The data of a PUT data packet. -/
def pData (p : Packet) : List Byte := p.bytes.take (p.bytes.length - 8)

/-- The flits of a packet (R236). -/
def pFlits (p : Packet) : Nat := (32 + p.bytes.length + 63) / 64

/-- Whether a packet is an answer (R238, R239). -/
def isAnswer (ptype kind : Nat) : Bool :=
  match ptype with
  | 2 => true | 4 => true | 5 => true | 6 => true
  | 7 => let mop := bitsOf kind 51 48; mop == 2 || mop == 3 || mop == 5 || mop == 6 || mop == 7
  | 8 => false
  | _ => false

/-- The virtual channel a packet of a class starts on (R241). -/
def vcOf (cls : Nat) (answer : Bool) : Nat := if cls = 3 then 0 else 2 * cls + (if answer then 2 else 1)

/-- A header (R237): the common fields and the kind area. -/
def mkHdr (dstNode srcNode dstCtx srcCtx srcPort vc epoch ptype detour cls bytes kind : Nat) : BitVec 256 :=
  BitVec.ofNat 256 (packFields [(0, 17, dstNode), (17, 17, srcNode), (34, 20, dstCtx), (54, 20, srcCtx),
    (74, 3, srcPort), (77, 3, vc), (80, 1, epoch), (81, 4, ptype), (85, 3, detour), (88, 2, cls), (91, 13, bytes),
    (104, 152, kind)])

/-- A packet of this node, from host port `port` and context `c`, to an endpoint. -/
def State.mkPkt (s : State) (port c dst ptype cls kind : Nat) (bytes : List Byte) : Packet :=
  ⟨mkHdr (epNode dst) s.node (epCtx dst) c port (vcOf cls (isAnswer ptype kind)) (s.fld RTE_EPOCH.active 0 0) ptype 0
    cls bytes.length kind, bytes⟩

/-- The kind area of PUT data and GET requests. -/
def kindReq (osn fdelta window key index : Nat) (last rcnt : Bool) (counter length : Nat) : Nat :=
  packFields [(0, 32, osn), (32, 16, fdelta), (48, 16, window), (64, 16, key), (80, 20, index), (100, 1, b2n last),
    (101, 1, b2n rcnt), (102, 16, counter), (118, 32, length)]

/-- The kind area of ATOMIC requests. -/
def kindAtomic (osn fdelta window key off op : Nat) : Nat :=
  packFields [(0, 32, osn), (32, 16, fdelta), (48, 16, window), (64, 16, key), (80, 64, off), (144, 8, op)]

/-- The kind area of a GET response. -/
def kindGetResp (osn index : Nat) (last : Bool) (length : Nat) : Nat :=
  packFields [(0, 32, osn), (32, 20, index), (52, 1, b2n last), (53, 32, length)]

/-- The kind area of an ATOMIC response. -/
def kindAtomResp (osn op : Nat) : Nat := packFields [(0, 32, osn), (32, 8, op)]

/-- The kind area of a refusal. -/
def kindRefusal (osn status detail : Nat) (busy : Bool) (req index : Nat) : Nat :=
  packFields [(0, 32, osn), (32, 8, status), (40, 8, detail), (48, 1, b2n busy), (49, 3, req), (52, 20, index)]

/-- The kind area of MAT traffic. -/
def kindMat (osn fdelta mop handle aux : Nat) : Nat :=
  packFields [(0, 32, osn), (32, 16, fdelta), (48, 4, mop), (52, 64, handle), (116, 32, aux)]

/-- The match extension of a SEND packet or withdrawal (R150). -/
def mkExt (tag comm rank mkind msn length offset handle : Nat) : List Byte :=
  leBytes 32 (packFields [(0, 32, tag), (32, 16, comm), (48, 24, rank), (72, 2, mkind), (96, 32, msn), (128, 32, length),
    (160, 32, offset), (192, 64, handle)])

/-- Bits [hi:lo] of a packet's match extension. -/
def xget (p : Packet) (hi lo : Nat) : Nat := bitsOf (ofLE (p.bytes.take 32)) hi lo

/-- A completion entry (R100). -/
def mkEntry (handle status detail : Nat) (phase : Bool) (bytes time result : Nat) : List Byte :=
  leBytes 32 (packFields [(0, 64, handle), (64, 8, status), (72, 8, detail), (80, 1, b2n phase), (96, 32, bytes),
    (128, 64, time), (192, 64, result)])

end Sys2Proof.Machine
end

