-- ==== Sys2Proof/Machine/Sample.lean ====
section
/-!
DEFINITION. Precise sampling: which items are followed, their stamps and their records (R449 to R453).
-/
set_option Elab.async false
namespace Sys2Proof.Machine

/-- One advance of the 32-bit LFSR x^32 + x^22 + x^2 + x + 1 (R449; its shift direction is log entry 13). -/
def lfsrStep (l : Nat) : Nat :=
  if bitOf l 31 then (l * 2 % 2 ^ 32) ^^^ 0x00400007 else l * 2 % 2 ^ 32

/-- Whether PMC_SAMPLE_CFG.kind admits an item: 1 descriptor, 2 packet delivered, 3 packet forwarded. -/
def sampleKindOk (cfg kind : Nat) : Bool :=
  match cfg with
  | 0 => kind == 1
  | 1 => kind == 2
  | 2 => kind == 3
  | _ => kind == 2 || kind == 3

/-- Whether PMC_SAMPLE_FILTER admits an item of operation `op`, of one of the contexts and one of the ports. -/
def State.sampleFilterOk (s : State) (kind op : Nat) (ctxs ports : List Nat) : Bool :=
  bitOf (s.fld PMC_SAMPLE_FILTER.opmask 0 0) op &&
    (!s.flag PMC_SAMPLE_FILTER.ctx_en 0 0 || ctxs.contains (s.fld PMC_SAMPLE_FILTER.context 0 0)) &&
    (kind == 1 || s.fld PMC_SAMPLE_FILTER.port 0 0 == 0xFF || ports.contains (s.fld PMC_SAMPLE_FILTER.port 0 0))

/-- The lowest free slot of the 64. -/
def State.sampleSlot (s : State) : Option Nat :=
  (List.range 64).find? fun k => (SMap.find? s.pmc.live k).isNone

/-- PMC considers an item (R449, R450): it is followed from stage 0 on, skipped, or left alone. -/
def State.sampleConsider (s : State) (kind key op size : Nat) (item : BitVec 384) (ctxs ports : List Nat) (base : Nat) : State :=
  if !s.flag PMC_SAMPLE_CFG.enable 0 0 || s.inSetup 17 || s.stopped ||
      !sampleKindOk (s.fld PMC_SAMPLE_CFG.kind 0 0) kind || !s.sampleFilterOk kind op ctxs ports then s
  else
    let l := lfsrStep s.pmc.lfsr
    let s := { s with pmc := { s.pmc with lfsr := l } }
    if l % 2 ^ min 24 (s.fld PMC_SAMPLE_CFG.period_log2 0 0) ≠ 0 then s
    else match s.sampleSlot with
      | none => (s.bump PMC_SAMPLE_STATUS.skipped 0 0).pmcEv 17 2 0 0 1
      | some k =>
        { s with pmc := { s.pmc with
            live := SMap.insert s.pmc.live k
              ⟨kind, key, op, 0, false, size, base, s.now - (s.fabric - base) * 1000, item, [(0, 0)], false⟩ } }

/-- Change the running sample of an item. -/
def State.sampleUpdate (s : State) (kind key : Nat) (f : Sample → Sample) : State :=
  { s with pmc := { s.pmc with
      live := s.pmc.live.map fun e =>
        if e.2.kind == kind && e.2.key == key && !e.2.ended then (e.1, f e.2) else e } }

/-- Stamp a stage the first time the item reaches it (R452). -/
def State.stampFirst (s : State) (kind key stage : Nat) : State :=
  s.sampleUpdate kind key fun v =>
    if (SMap.find? v.stamps stage).isSome then v
    else { v with stamps := SMap.insert v.stamps stage ((s.fabric - v.base) % 2 ^ 32) }

/-- Stamp a stage each time the item reaches it, so that the last time stands. -/
def State.stampLast (s : State) (kind key stage : Nat) : State :=
  s.sampleUpdate kind key fun v => { v with stamps := SMap.insert v.stamps stage ((s.fabric - v.base) % 2 ^ 32) }

/-- Stamp a stage that was reached at a given fabric time. -/
def State.stampAt (s : State) (kind key stage t : Nat) : State :=
  s.sampleUpdate kind key fun v => { v with stamps := SMap.insert v.stamps stage ((t - v.base) % 2 ^ 32) }

/-- Change the running sample of a delivered packet, which its header as received names. -/
def State.samplePacket (s : State) (hdr : BitVec 256) (f : Sample → Sample) : State :=
  { s with pmc := { s.pmc with
      live := s.pmc.live.map fun e =>
        if e.2.kind == 2 && e.2.item.setWidth 256 == hdr && !e.2.ended then (e.1, f e.2) else e } }

/-- Stamp a stage of a delivered packet, the first time. -/
def State.stampPkt (s : State) (hdr : BitVec 256) (stage : Nat) : State :=
  s.samplePacket hdr fun v =>
    if (SMap.find? v.stamps stage).isSome then v
    else { v with stamps := SMap.insert v.stamps stage ((s.fabric - v.base) % 2 ^ 32) }

/-- The first memory access of a delivered packet is issued, at an address (R451, R452). -/
def State.stampAccess (s : State) (hdr : BitVec 256) (addr : Nat) : State :=
  s.samplePacket hdr fun v =>
    if (SMap.find? v.stamps 4).isSome then v
    else { v with
      stamps := SMap.insert v.stamps 4 ((s.fabric - v.base) % 2 ^ 32)
      item := BitVec.ofNat 384 (putBits v.item.toNat 383 320 addr) }

/-- A delivered packet has reached its last stage; `answered` when that is the presentation of its answer. -/
def State.endPkt (s : State) (hdr : BitVec 256) (answered : Bool) : State :=
  (if answered then s.stampPkt hdr 5 else s).samplePacket hdr fun v => { v with ended := true }

/-- The local address of a descriptor's record (R451), once XLT has translated it. -/
def State.sampleLocal (s : State) (key addr : Nat) : State :=
  (s.stampFirst 1 key 5).sampleUpdate 1 key fun v =>
    { v with item := BitVec.ofNat 384 (putBits v.item.toNat 255 192 addr) }

/-- The item has ended with a status and, for a descriptor, its byte count (R450, R451). -/
def State.sampleEnd (s : State) (kind key status : Nat) (size : Option Nat) : State :=
  s.sampleUpdate kind key fun v => { v with status := status, size := size.getD v.size, ended := true }

/-- The 128 bytes of a record (R451). -/
def Sample.record (v : Sample) : BitVec 1024 :=
  let stamps := (List.range 16).foldl
    (fun a k => a + ((SMap.find? v.stamps k).getD 0xFFFFFFFF) * 2 ^ (512 + 32 * k)) 0
  BitVec.ofNat 1024 (v.kind + v.op % 256 * 2 ^ 8 + v.status % 256 * 2 ^ 16 + b2n v.incomplete * 2 ^ 24 +
    v.size % 2 ^ 32 * 2 ^ 32 + v.base * 2 ^ 64 + v.item.toNat * 2 ^ 128 + stamps)

end Sys2Proof.Machine
end

