-- ==== Sys2Proof/Machine/Intr.lean ====
section
/-!
DEFINITION. Interrupts to the host: MSI-X vector events, the pending bit arrays and INTx emulation (R51 to R55).
-/
set_option Elab.async false
namespace Sys2Proof.Machine

/-- Word `k` of a function's MSI-X table (R43, R48, R50): 2n is the address of entry n, 2n + 1 its data and control. -/
def State.msixWord (s : State) (p f k : Nat) : Word :=
  if f = 0 then s.reg ⟨.HIF_MSIX_TABLE, p, k⟩
  else SMap.getD (fun j => if j % 2 = 1 then 0x100000000#64 else 0#64) (s.fn p f).tbl k

/-- Whether the table masks a vector (bit 0 of the entry's control word). -/
def State.msixMasked (s : State) (p f vec : Nat) : Bool := bitOf (s.msixWord p f (2 * vec + 1)).toNat 32

/-- A pending bit of a function. -/
def State.pbaBit (s : State) (p f vec : Nat) : Bool :=
  if f = 0 then bitOf (s.reg ⟨.HIF_MSIX_PBA, p, vec / 64⟩).toNat (vec % 64) else bitOf (s.fn p f).pba.toNat vec

/-- Set or clear a pending bit. -/
def State.setPba (s : State) (p f vec : Nat) (b : Bool) : State :=
  if f = 0 then
    let r : RegRef := ⟨.HIF_MSIX_PBA, p, vec / 64⟩
    s.setReg r (BitVec.ofNat 64 (putBits (s.reg r).toNat (vec % 64) (vec % 64) (b2n b)))
  else
    let v := s.fn p f
    s.setFn p f { v with pba := BitVec.ofNat 64 (putBits v.pba.toNat (vec % 64) (vec % 64) (b2n b)) }

/-- Some pending bit of a port's physical function is set. -/
def State.anyPba (s : State) (p : Nat) : Bool :=
  (List.range 32).any fun k => s.reg ⟨.HIF_MSIX_PBA, p, k⟩ != 0

/-- Bring the INTA wire of a port to what its inputs give, with the message that a change sends (R52, R54). -/
def State.updateWire (s : State) (p : Nat) : State :=
  let v := s.fn p 0
  let want := !v.msixEn && !v.intxDis && !v.flr && s.fld HIF_PORT_STATUS.sublink_up p 0 != 0 && s.anyPba p
  let h := s.hport p
  if want == h.wire then s
  else (s.setHport p { h with wire := want }).emit (if want then .assertInta p else .deassertInta p)

/-- Send the message of a vector. -/
def State.sendMsix (s : State) (p f vec : Nat) : State :=
  s.emit (.msix p f vec (s.msixWord p f (2 * vec)).toNat ((s.msixWord p f (2 * vec + 1)).toNat % 2 ^ 32))

/-- An event on a vector of a function (R51, R52, R55): a message, or a pending bit. -/
def State.vecEvent (s : State) (p f vec : Nat) : State :=
  let v := s.fn p f
  if v.flr then s
  else if v.msixEn then
    if s.msixMasked p f vec then s.setPba p f vec true else s.sendMsix p f vec
  else if f = 0 then (s.setPba p 0 vec true).updateWire p
  else s.setPba p f vec true

/-- Send every pending vector that is not masked, in ascending order, and clear its bit (R54). -/
def State.flushPending (s : State) (p f : Nat) : State :=
  (List.range (if f = 0 then 2048 else 64)).foldl
    (fun s vec => if s.pbaBit p f vec && !s.msixMasked p f vec then (s.sendMsix p f vec).setPba p f vec false else s) s

/-- A vector sent to every physical function whose port has block_irq_en set (R51). -/
def State.blockVec (s : State) (vec : Nat) : State :=
  (List.range 8).foldl
    (fun s p => if s.endpoint p && s.flag HIF_PORT_CFG.block_irq_en p 0 then s.vecEvent p 0 vec else s) s

end Sys2Proof.Machine
end

