-- ==== Sys2Proof/Machine/Faults.lean ====
section
/-!
DEFINITION. The fault windows: counting and severity, first record and merging, the escalation timer's start, and the
device stop (R363 to R372, R386).
-/
set_option Elab.async false
namespace Sys2Proof.Machine

/-- The key of a block's source. -/
def srcKey (blk n : Nat) : Nat := blk * 2048 + n

/-- Take every link that is not in setup and not retired down with cause 0x0D (R386). -/
def State.stopLinks (s : State) : State :=
  (List.range 144).foldl (fun s p =>
    let st := s.fld LNK_PORT_STATUS.state p 0
    if st = 0 ∨ st = 6 then s
    else
      let s := if st = 4 then s.setFld RTE_PORT_MAP.state 0 p 0 else s
      ((s.setFld LNK_PORT_STATUS.state p 0 1).setFld LNK_PORT_STATUS.down_cause p 0 0x0D).bump LNK_DOWN_COUNT.count p 0) s

/-- The device stop (R386). -/
def State.deviceStop (s : State) (blk src : Nat) : State :=
  if s.stopped then s else
  let s := s.setFlag TOP_STOP.stopped 0 0 true
  let s := s.setFld TOP_STOP.block 0 0 blk
  let s := s.setFld TOP_STOP.source 0 0 src
  let s := (if s.rsvOn && s.rsv.sealing.isNone then s else s.squelchAll).stopLinks
  let s := (s.sealStart 2).ibi 2
  s.blockVec 0

/-- The core cycle the clock stands in (R8). -/
def State.cycle (s : State) : Nat := s.now / 500

/-- Add an event to FLT_ALSO and also_count (R368, R369). -/
def State.alsoRecord (s : State) (blk src : Nat) : State :=
  let s := s.setFlag ⟨.FLT_ALSO, src % 64, src % 64, .w1c, 0⟩ blk (src / 64) true
  s.setFld FLT_STATUS.also_count blk 0 (min (s.fld FLT_STATUS.also_count blk 0 + 1) (2 ^ 32 - 1))

/-- Make the first record (R359, R367). -/
def State.firstRecord (s : State) (blk sev src m detail : Nat) (inj : Bool) : State :=
  let s := s.setReg ⟨.FLT_FIRST, blk, 0⟩ (BitVec.ofNat 64
    (sev * 2 ^ 62 + b2n inj * 2 ^ 61 + src % 2048 * 2 ^ 48 + m % 2 ^ 24 * 2 ^ 24 + detail % 2 ^ 24))
  let s := s.setFld FLT_FIRST_TIME.time blk 0 s.fabric
  let s := s.setFlag FLT_STATUS.first_valid blk 0 true
  { s with flt := { s.flt with firstAt := SMap.insert s.flt.firstAt blk s.cycle } }

/-- Record an event: the first record, a merge into it, or, among the events of one cycle, the more severe (and then
lower) source takes the first record (R367 to R369). Answers whether a first record was made. -/
def State.record (s : State) (blk sev src m detail : Nat) (inj : Bool) : State × Bool :=
  if !s.flag FLT_STATUS.first_valid blk 0 then
    ((s.firstRecord blk sev src m detail inj).setFld FLT_STATUS.also_count blk 0 0, true)
  else
    let sev0 := s.fld FLT_FIRST.severity blk 0
    let src0 := s.fld FLT_FIRST.source blk 0
    if SMap.find? s.flt.firstAt blk == some s.cycle && (sev0 < sev || (sev0 == sev && src < src0)) then
      ((s.alsoRecord blk src0).firstRecord blk sev src m detail inj, false)
    else (s.alsoRecord blk src, false)

/-- The escalation timer's length (R362). -/
def State.escLen (s : State) (blk : Nat) : Nat := us (max 10 (min 400 (s.fld FLT_ESC_TIMER.duration_us blk 0)))

/-- Set a source pending and start the block's timer when it is idle (R372). -/
def State.escalate (s : State) (blk src : Nat) : State :=
  let s := s.setFlag FLT_COUNT.pending blk src true
  if (SMap.find? s.flt.esc blk).isSome then s
  else { s with flt := { s.flt with esc := SMap.insert s.flt.esc blk (s.now + s.escLen blk) } }

/-- A window opens at the event with the W and N of now (R361, R363). -/
def State.openWindow (s : State) (blk src : Nat) : State :=
  let w := max 1 (s.fld FLT_WINDOW.w_us blk src)
  let s := s.setFld FLT_COUNT.win_count blk src 1
  { s with flt := { s.flt with
      wins := SMap.insert s.flt.wins (srcKey blk src) ⟨s.now + us w, s.fld FLT_THRESH.n_events blk src⟩ } }

/-- The window rule (R363): the open window's count goes up, or a window opens. -/
def State.windowCount (s : State) (blk src : Nat) : State :=
  match SMap.find? s.flt.wins (srcKey blk src) with
  | some w =>
    if s.now ≤ w.ends then
      s.setFld FLT_COUNT.win_count blk src (min (s.fld FLT_COUNT.win_count blk src + 1) 16383)
    else s.openWindow blk src
  | none => s.openWindow blk src

/-- Whether the open window's count has reached its threshold. -/
def State.windowFull (s : State) (blk src : Nat) : Bool :=
  match SMap.find? s.flt.wins (srcKey blk src) with
  | some w => w.n != 0 && w.n ≤ s.fld FLT_COUNT.win_count blk src
  | none => false

/-- One event of a source (R363, R365, R367 to R372), fatal when its reaction is device stop or `fatal` says so; an
injected one is carried out unless hw_enable is 0 (R387). -/
def State.event (s : State) (blk src m detail : Nat) (inj fatal : Bool) : State :=
  match sourceSpec blk src with
  | none => s
  | some sp =>
    let s := s.bump FLT_COUNT.total blk src
    let was := s.flag FLT_COUNT.severe blk src
    let s := if was then s else s.windowCount blk src
    let turns := !was && s.windowFull blk src
    let s := if turns then s.setFlag FLT_COUNT.severe blk src true else s
    let stop := fatal || sp.react == .deviceStop
    let sev := if stop then 3 else if turns then 2 else if s.fld FLT_THRESH.n_events blk src = 0 then 0 else 1
    let r := s.record blk sev src m detail inj
    let s := if turns && sp.react != .none && !stop then r.1.escalate blk src else r.1
    let s := if r.2 || turns then s.blockVec blk else s
    if stop && (!inj || s.flag FLT_ESC_ACTION.hw_enable blk 0) then s.deviceStop blk src else s

/-- An event of the device's own hardware. -/
def State.fault (s : State) (blk src detail : Nat) : State := s.event blk src (mDev blk) detail false false

/-- An event that an access of master `m` caused. -/
def State.faultBy (s : State) (blk src m detail : Nat) : State := s.event blk src m detail false false

/-- The detail of an access source: register-space offset bits [25:3] (R359). -/
def offDetail (off : Nat) : Nat := off / 8 % 2 ^ 23

end Sys2Proof.Machine
end

