-- ==== Sys2Proof/Machine/Sem.lean ====
section
/-!
DEFINITION. The semaphores: acquiring reads, releases, grants, inheritance and the release of a reset master's holds
(R346 to R350).
-/
set_option Elab.async false
namespace Sys2Proof.Machine

/-- A semaphore. -/
def State.semOf (s : State) (n : Nat) : Semaphore := SMap.getD (fun _ => .init) s.sem.sems n

/-- Write a semaphore. -/
def State.setSem (s : State) (n : Nat) (v : Semaphore) : State :=
  { s with sem := { s.sem with sems := SMap.put (fun _ => .init) s.sem.sems n v } }

/-- The holder's effective priority: the highest of its own and those of the registered waiters (R349). -/
def Semaphore.eff (v : Semaphore) : Nat := max v.prio ((v.waiters.map (·.prio)).foldl max 0)

/-- The waiter served next: the highest priority, and among equals the earliest registration (R348). -/
def bestWaiter : List SemWaiter → Option SemWaiter
  | [] => none
  | w :: ws =>
    match bestWaiter ws with
    | none => some w
    | some v => if v.prio < w.prio || (v.prio == w.prio && w.seq < v.seq) then some w else some v

/-- The core state a grant touches: hxstat.semwake (R323). -/
def State.wakeCore (s : State) (c : Nat) : State :=
  let k := SMap.getD (fun _ => HCore.init) s.hdl.cores c
  { s with hdl := { s.hdl with cores := SMap.put (fun _ => .init) s.hdl.cores c { k with hxstat := k.hxstat ||| 0x20 } } }

/-- Interrupt a waiter to which a semaphore is reserved (R348). -/
def State.semWake (s : State) (m : Nat) : State :=
  match m / 2 ^ 21 with
  | 0 => let p := m / 2 ^ 18 % 8
         let f := m % 512
         s.vecEvent p f (if f = 0 then 20 else 0)
  | 1 => s.wakeCore (m % 64)
  | _ => s

/-- Reserve a free semaphore for its next waiter and interrupt it, or leave it free (R348). -/
def State.semGrant (s : State) (n : Nat) : State :=
  let v := s.semOf n
  match bestWaiter v.waiters with
  | none => s.setSem n { v with holder := none, reserved := none, prio := 0 }
  | some w =>
    (s.setSem n { v with
      holder := none, prio := 0, reserved := some w.master, reservedAt := s.now,
      waiters := v.waiters.filter fun x => x.master != w.master }).semWake w.master

/-- Register a refused reader as a waiter; a registered master takes the new priority (R348). -/
def semRegister (v : Semaphore) (m k : Nat) : Semaphore :=
  match v.waiters.find? fun w => w.master == m with
  | some _ => { v with waiters := v.waiters.map fun w => if w.master = m then { w with prio := k } else w }
  | none => { v with waiters := v.waiters ++ [⟨m, k, v.nextSeq⟩], nextSeq := v.nextSeq + 1 }

/-- An inheritance: the holder's effective priority has risen above what it was (R349). -/
def State.semInherit (s : State) (n was : Nat) : State :=
  let v := s.semOf n
  match v.holder with
  | some h =>
    if was < v.eff then
      let s := s.setReg ⟨.SEM_INHERIT_LOG, 0, 0⟩ (BitVec.ofNat 64 (v.eff * 2 ^ 40 + n * 2 ^ 32 + h))
      s.blockVec 21
    else s
  | none => s

/-- The word that an acquiring read returns (R346). -/
def semWord (v : Semaphore) (outcome : Nat) : Word :=
  BitVec.ofNat 64 ((if v.holder.isSome then v.eff else 0) * 2 ^ 32 + (v.holder.getD 0) * 2 ^ 8 + outcome)

/-- A read of alias `k` by master `m` (R346, R348, R349, R351): the outcome code and the state. -/
def State.semAcquire (s : State) (n m k : Nat) : Nat × State :=
  let v := s.semOf n
  if s.inSetup 13 then (6, s)
  else if v.holder = some m then (7, s)
  else if v.holder = none ∧ (v.reserved = none ∨ v.reserved = some m) then
    let s := s.setSem n { v with
      holder := some m, orphan := false, reserved := none, prio := k,
      waiters := v.waiters.filter fun w => w.master != m }
    ((if v.orphan then 3 else 1), s.pmcEv 13 1 n 0 1)
  else if 64 ≤ v.waiters.length && !(v.waiters.any fun w => w.master == m) then (6, s.pmcEv 13 2 n 0 1)
  else
    let s := (s.setSem n (semRegister v m k)).semInherit n v.eff
    (2, s.pmcEv 13 2 n 0 1)

/-- Release a held semaphore (R347), with or without its orphan flag, and grant it on. -/
def State.semFree (s : State) (n : Nat) (orphan : Bool) : State :=
  let v := s.semOf n
  (s.setSem n { v with holder := none, orphan := v.orphan || orphan }).semGrant n

/-- Remove a master's registration; a reservation of it passes on. -/
def State.semForget (s : State) (n m : Nat) : State :=
  let v := s.semOf n
  let s := s.setSem n { v with waiters := v.waiters.filter fun w => w.master != m }
  if v.reserved = some m then s.semGrant n else s

/-- The reset or stop of a master: every hold released with its orphan flag, every registration removed (R350). -/
def State.semReset (s : State) (m : Nat) : State :=
  (List.range 64).foldl (fun s n =>
    let s := s.semForget n m
    if (s.semOf n).holder = some m then s.semFree n true else s) s

end Sys2Proof.Machine
end

