-- ==== Sys2Proof/Machine/Trig.lean ====
section
/-!
DEFINITION. Handler triggers: their table, which fire on an arrival, a counter or a completion, and the event queue
(R326 to R329).
-/
set_option Elab.async false
namespace Sys2Proof.Machine

/-- The number of queue places (R329). -/
def trigQueueMax : Nat := 65536

/-- A trigger. -/
def State.trig (s : State) (t : Nat) : TrigCfg := SMap.getD (fun _ => .init) s.hdl.trigs t

/-- Write a trigger. -/
def State.setTrig (s : State) (t : Nat) (v : TrigCfg) : State :=
  { s with hdl := { s.hdl with trigs := SMap.put (fun _ => .init) s.hdl.trigs t v } }

/-- Clear a trigger's enable; its reserved completion entry is free again (R328). -/
def State.disarmTrig (s : State) (t : Nat) : State := s.setTrig t { s.trig t with enable := false }

/-- The enabled triggers with a property, by rising number. -/
def State.trigsWhere (s : State) (f : TrigCfg → Bool) : List (Nat × TrigCfg) :=
  s.hdl.trigs.filter fun e => e.2.enable && f e.2

/-- Room for `n` more events; the full bit records that there was none (R329). -/
def State.trigRoom (s : State) (n : Nat) : Bool := s.hdl.queue.length + n ≤ trigQueueMax

/-- Queue an event. -/
def State.queueEv (s : State) (e : TrigEv) : State := { s with hdl := { s.hdl with queue := s.hdl.queue ++ [e] } }

/-- The queue was full (HDL_QUEUE.full). -/
def State.markFull (s : State) : State := s.setFlag HDL_QUEUE.full 0 0 true

/-- The events of arrival triggers that an operation ending at window entry `w` fires. -/
def State.arrivalEvs (s : State) (w src pkind off len : Nat) : List TrigEv :=
  (s.trigsWhere fun t => t.kind == 0 && t.source == w).map fun (n, t) =>
    ⟨n, 0, t.owner, src + pkind * 2 ^ 40, off, len, s.fabric, t⟩

/-- The events of completion triggers that an entry fires. -/
def State.completionEvs (s : State) (c op handle word result : Nat) : List TrigEv :=
  (s.trigsWhere fun t => t.kind == 2 && t.owner == c && bitOf t.source op).map fun (n, t) =>
    ⟨n, 2, t.owner, handle, word, result, s.fabric, t⟩

/-- Fire the counter triggers of counter `n` whose condition holds (R326): each queues its event and its enable clears;
without room it fires when room appears. -/
def State.fireCounter (s : State) (n : Nat) (value : Word) : State :=
  (s.trigsWhere fun t => t.kind == 1 && t.source == n && t.arg ≤ value.toNat).foldl
    (fun s e =>
      if s.trigRoom 1 then
        (s.queueEv ⟨e.1, 1, e.2.owner, value.toNat, 0, 0, s.fabric, e.2⟩).disarmTrig e.1
      else s.markFull) s

/-- Work for the resident firmware. -/
def State.fwPush (s : State) (w : FwWork) : State := { s with hdl := { s.hdl with fw := s.hdl.fw ++ [w] } }

end Sys2Proof.Machine
end

