-- ==== Sys2Proof/Machine/Cmd.lean ====
section
/-!
DEFINITION. CMD: the ring part of a context, counters, completions and their entries, holds, fences and handle
assignment (R72 to R105, R189 to R191).
-/
set_option Elab.async false
namespace Sys2Proof.Machine

/-! ## The configuration part of a context record (R72, R109) -/

/-- Bits [hi:lo] of the bytes from byte `b`. -/
def CtxRec.get (r : CtxRec) (b hi lo : Nat) : Nat := bitsOf r.cfg.toNat (8 * b + hi) (8 * b + lo)

def CtxRec.drBase (r : CtxRec) : Nat := r.get 0 63 0
def CtxRec.crBase (r : CtxRec) : Nat := r.get 8 63 0
def CtxRec.crLog2 (r : CtxRec) : Nat := r.get 17 7 0
def CtxRec.cqVector (r : CtxRec) : Nat := r.get 18 15 0
def CtxRec.timeoutUs (r : CtxRec) : Nat := r.get 20 31 0
def CtxRec.port (r : CtxRec) : Nat := r.get 32 2 0
def CtxRec.func (r : CtxRec) : Nat := r.get 33 8 0
def CtxRec.pin (r : CtxRec) : Bool := r.get 35 0 0 == 1
def CtxRec.pgCode (r : CtxRec) : Nat := r.get 36 1 0
def CtxRec.winBase (r : CtxRec) : Nat := r.get 40 20 0
def CtxRec.winCount (r : CtxRec) : Nat := r.get 44 16 0
def CtxRec.xltBase (r : CtxRec) : Nat := r.get 48 23 0
def CtxRec.xltCount (r : CtxRec) : Nat := r.get 52 24 0
def CtxRec.vaBase (r : CtxRec) : Nat := r.get 56 63 0

/-- The state code of R109. -/
def CtxPhase.code : CtxPhase → Nat
  | .closed => 0
  | .opened => 1
  | .draining => 2

/-- The context is open. -/
def State.isOpen (s : State) (c : Nat) : Bool := (s.ctx c).phase == .opened

/-- Handles of the context assigned and not completed (R109). -/
def State.outstanding (s : State) (c : Nat) : Nat := (s.handlesOf c).length

/-- The floor of a context: the index of its oldest uncompleted handle, or fetch (R173). -/
def State.floorOf (s : State) (c : Nat) : Nat :=
  let f := (s.ctx c).fetch
  -- the oldest is the one furthest behind fetch
  let d := (s.handlesOf c).foldl (fun a h => max a ((f + 2 ^ 32 - h.index) % 2 ^ 32)) 0
  (f + 2 ^ 32 - d) % 2 ^ 32

/-- The endpoint of a local context (R18). -/
def State.epOf (s : State) (c : Nat) : Nat := mkEp s.node (s.ctx c).port c

/-- The handle value of an assigned descriptor (R19, R74). -/
def State.handleWord (s : State) (h : Handle) : Nat := mkHandle (s.ctx h.ctx).drLog2 h.ctx h.index (dTag h.desc)

/-- The uncompleted handle that a 64-bit handle value names, when it is current (R106). -/
def State.currentHandle (s : State) (w : Nat) : Option Handle :=
  (s.handlesOf (w / 2 ^ 44 % 2 ^ 20)).find? fun h => s.handleWord h == w

/-- A CTX_STATE record of the context as it stands (R396). -/
def State.ctxRecord (s : State) (c : Nat) : JRec :=
  let r := s.ctx c
  .ctxState c r.phase.code r.fetch r.post r.head r.postStamp r.presStamp

/-! ## The context cache (R116) -/

/-- Records in the on-chip cache. -/
def State.cachedCtxs (s : State) : List (Nat × CtxRec) := s.ctxs.filter fun e => e.2.cached

/-- Open contexts with pin set. -/
def State.pinnedCtxs (s : State) : Nat :=
  (s.ctxs.filter fun e => e.2.phase == .opened && e.2.pin).length

/-- The least recently used record that may be evicted. -/
def State.lruCtx (s : State) : Option Nat :=
  (s.cachedCtxs.filter fun e => !(e.2.phase == .opened && e.2.pin)).foldl
    (fun a e => match a with
      | none => some e.1
      | some c => if e.2.used < (s.ctx c).used then some e.1 else a) none

/-- Place a record in the cache, evicting one when it is full, and mark its use. -/
def State.cacheIn (s : State) (c : Nat) : State :=
  let s := if (s.ctx c).cached || s.cachedCtxs.length < 65536 then s
    else match s.lruCtx with
      | some v => s.setCtx v { s.ctx v with cached := false }
      | none => s
  let s := s.pmcEv 3 (if (s.ctx c).cached then 1 else 2) 0 0 1
  s.setCtx c { s.ctx c with cached := true, used := s.now }

/-- An access needs the record of a context: it is on chip from then on, unless the context is closed (R116; which accesses
count is log entry 124). -/
def State.ctxUse (s : State) (c : Nat) : State := if (s.ctx c).phase == .closed then s else s.cacheIn c

/-! ## Counters (R189 to R191) -/

/-- A counter. -/
def State.ctr (s : State) (n : Nat) : Counter := SMap.getD (fun _ => .init) s.rma.ctrs n

/-- Write a counter. -/
def State.setCtr (s : State) (n : Nat) (v : Counter) : State :=
  { s with rma := { s.rma with ctrs := SMap.put (fun _ => .init) s.rma.ctrs n v } }

/-- RMA_CTR_CFG of a counter as a number. -/
def Counter.cfgBits (v : Counter) : Nat :=
  b2n v.enable * 2 ^ 31 + b2n v.bytes * 2 ^ 30 + b2n v.mirror * 2 ^ 29 + v.owner

/-- The COUNTER record of a counter. -/
def State.ctrRecord (s : State) (n : Nat) : JRec :=
  let v := s.ctr n
  .counter n v.cfgBits v.value v.fail v.addr

/-- A counter within the configured counters of a context (R189). -/
def State.ctrOk (s : State) (n c : Nat) : Bool := (s.ctr n).enable && (s.ctr n).owner == c

/-- The mirror write of a counter, when it is made (R191). -/
def State.mirrorWrite (s : State) (n : Nat) : State :=
  let v := s.ctr n
  let r := s.ctx v.owner
  if v.mirror && r.phase != .closed && !r.step4 then s.hostWrite r.port r.func v.addr (leBytes 8 v.value.toNat) else s

/-- What follows a change of a counter's value: the report, the mirror, and counter triggers (R191, R198, R326). -/
def State.ctrChanged (s : State) (n : Nat) : State :=
  let s := s.report (s.ctrRecord n)
  s.fireCounter n (s.ctr n).value

/-- A counter update (R190): 1 or the byte count, and the fail count when `bad`. -/
def State.ctrUpdate (s : State) (n bytes : Nat) (bad : Bool) : State :=
  let v := s.ctr n
  let s := s.setCtr n { v with
    value := v.value + BitVec.ofNat 64 (if v.bytes then bytes else 1)
    fail := if bad then (v.fail + 1) % 2 ^ 32 else v.fail }
  (s.ctrChanged n).mirrorWrite n

/-! ## Completions (R100 to R105) -/

/-- Send cq_vector after an entry, for an irq descriptor or an armed ring, which it disarms (R79). -/
def State.cqVectorSend (s : State) (c : Nat) (irq : Bool) : State :=
  let r := s.ctx c
  if irq || r.armed then (s.setCtx c { r with armed := false }).vecEvent r.port r.func r.cqVector else s

/-- The phase bit of the entry that a completion ring takes next (R100). -/
def CtxRec.entryPhase (r : CtxRec) : Bool := r.post / 2 ^ r.crLog2 % 2 == 0

/-- Write one completion entry of a context, with its phase (R100, R102), and send its vector. -/
def State.postEntry (s : State) (c handle status detail bytes result : Nat) (irq : Bool) : State :=
  let s := s.ctxUse c
  let r := s.ctx c
  let j := r.post
  let phase := r.entryPhase
  let s := s.hostWrite r.port r.func (r.crBase + 32 * (j % 2 ^ r.crLog2))
    (mkEntry handle status detail phase bytes s.fabric result)
  let s := s.setCtx c { r with post := (j + 1) % 2 ^ 32 }
  (s.cqVectorSend c irq).pmcEv 2 4 c 0 1

/-- The handle leaves the table. -/
def State.dropHandle (s : State) (h : HandleRef) : State :=
  { s with handles := SMap.erase s.handles (handleKey h) }

/-- The sample of a handle ends (R450): its entry and, where one went, its message have been issued; or a reset released
it. -/
def State.sampleDone (s : State) (hr : HandleRef) (mute : Bool) (status bytes : Nat) : State :=
  let key := handleKey hr
  let s := if mute then s else s.stampFirst 1 key 11
  let s := match mute, s.out.getLast? with
    | false, some (.msix ..) => s.stampFirst 1 key 12
    | _, _ => s
  s.sampleEnd 1 key status (some bytes)

/-- Complete a handle that has not completed: lcnt, the journal record, the entry with its vector, completion triggers
(R102, R105, R190, R89). While RSV takes no report (R399, R401), or while the event queue has no room for its triggers (R329),
CMD holds the entry. A handle of a reset function writes nothing to the host (R61). A TRUNCATED receive carries its result
(R151 and its worked example; log entry 32). A handle already completed is left alone. -/
def State.complete (s : State) (hr : HandleRef) (status detail bytes : Nat) (result : Word) : State :=
  match s.handle? hr with
  | none => s
  | some h =>
    let st := if status = 0 ∧ h.recov then 1 else status
    let good := st = 0 ∨ st = 1
    let res : Word := if good ∨ (st = 0x14 ∧ dOpcode h.desc = 5) then result else 0
    let w := s.handleWord h
    let evs := if h.mute then [] else
      s.completionEvs h.ctx (dOpcode h.desc) w 
        (bytes * 2 ^ 32 + b2n (s.ctx h.ctx).entryPhase * 2 ^ 16 + detail * 2 ^ 8 + st) res.toNat
    if s.hdl.heldPosts.any (fun x => match x with | .completion g .. => g == hr | .answer .. => false) then s
    else if s.rsvHeld || !s.trigRoom evs.length then
      let s := s.setHandle { h with phase := .active }
      let s := if s.rsvHeld then s else s.markFull
      { s with hdl := { s.hdl with heldPosts := s.hdl.heldPosts ++ [.completion hr status detail bytes result] } }
    else
      let s := if dLcnt h.desc && s.ctrOk (dLocalCounter h.desc) h.ctx then
          s.ctrUpdate (dLocalCounter h.desc) bytes (!good) else s
      let s := s.report (.handleDone h.ctx h.index (dTag h.desc) st detail bytes (s.ctx h.ctx).post res)
      let s := s.dropHandle hr
      let s := if h.mute then s else s.postEntry h.ctx w st detail bytes res.toNat (dIrq h.desc)
      let s := s.sampleDone hr h.mute st bytes
      evs.foldl State.queueEv s

/-- Complete with a status and nothing moved. -/
def State.finish (s : State) (hr : HandleRef) (status detail : Nat) : State := s.complete hr status detail 0 0

/-! ## Holds and fetching (R84 to R86) -/

/-- Completion entries that a context's enabled triggers reserve (R328). -/
def State.trigReserved (s : State) (c : Nat) : Nat := (s.trigsWhere fun t => t.owner == c).length

/-- The lowest applicable hold cause of index `i` of a context; 0 when it may be fetched (R84, R86). -/
def State.holdCauseAt (s : State) (c i extra : Nat) : Nat :=
  let r := s.ctx c
  if r.awaiting then 5
  else if (s.handle? ⟨c, (i + 2 ^ 32 - 2 ^ r.drLog2) % 2 ^ 32⟩).isSome then 1
  else if 2 ^ r.crLog2 ≤ (r.post + 2 ^ 32 - r.head) % 2 ^ 32 + s.outstanding c + s.trigReserved c + extra then 2
  else if 2 ^ 24 ≤ s.handles.length + extra then 3
  else if r.phase != .opened || s.flag HIF_PORT_STATUS.low_speed r.port 0 then 4
  else 0

/-- The hold cause that DB_STATUS shows: of the next index below the tail, 0 when there is none or it may be fetched. -/
def State.holdCause (s : State) (c : Nat) : Nat :=
  let r := s.ctx c
  if r.awaiting then 5 else if r.tail = r.fetch then 0 else s.holdCauseAt c r.fetch 0

/-- Record the entry into a hold, once per hold (R86). -/
def State.noteHold (s : State) (c : Nat) : State :=
  let r := s.ctx c
  let now := s.holdCause c != 0
  if now == r.inHold then s
  else
    let s := s.setCtx c { r with inHold := now }
    if now then (s.setFlag CMD_RING_HELD.held 0 0 true).setFld CMD_RING_HELD.last_ctx 0 0 c else s

/-- Record the entries of every context; of those that enter in one command the last, with the highest number, stays in last_ctx
(log entry 117). -/
def State.noteHolds (s : State) : State := s.ctxs.foldl (fun s e => s.noteHold e.1) s

/-! ## Dispatch order and fences (R87, R194) -/

/-- How far an index lies ahead of the floor of its context, for comparing ages. -/
def State.ageKey (s : State) (c i : Nat) : Nat := (i + 2 ^ 32 - s.floorOf c) % 2 ^ 32

/-- The uncompleted handles of the context that are older than `h`. -/
def State.older (s : State) (h : Handle) : List Handle :=
  (s.handlesOf h.ctx).filter fun g => s.ageKey h.ctx g.index < s.ageKey h.ctx h.index

/-- The handle is a FENCE of a kind. -/
def Handle.isFence (h : Handle) (k : Nat) : Bool := dOpcode h.desc == 8 && dSub h.desc == k

/-- An older FENCE holds the handle (R194). -/
def State.fenced (s : State) (h : Handle) : Bool :=
  (s.older h).any fun f =>
    f.isFence 1 ||
    (f.isFence 2 &&
      (dOpcode h.desc == 8 || (dHasTarget h.desc && dTarget h.desc == dTarget f.desc) ||
        (s.older f).any fun g => g.isFence 2))

/-- The condition of a FENCE holds (R194). -/
def State.fenceMet (s : State) (f : Handle) : Bool :=
  if f.isFence 1 then (s.older f).isEmpty
  else (s.older f).all fun g => !(dHasTarget g.desc && dOpcode g.desc != 8 && dTarget g.desc == dTarget f.desc)

/-- The block that executes an opcode (R22). -/
def blockOf (op : Nat) : Nat :=
  match op with
  | 1 => 6 | 2 => 6 | 3 => 6 | 9 => 6 | 0xA => 6
  | 4 => 5 | 5 => 5 | 6 => 5
  | 7 => 7
  | 0xB => 13
  | _ => 2

/-- An older descriptor held by the same block holds this one (R159, R160, R200, R232). -/
def State.heldBehind (s : State) (h : Handle) : Bool :=
  (s.older h).any fun g => g.phase == .held && blockOf (dOpcode g.desc) == blockOf (dOpcode h.desc)

/-- A descriptor of the same context is held by the handle's block: a gated one whose trigger fires, which takes its place in the
order only then, waits behind it (R137). -/
def State.blockHolds (s : State) (h : Handle) : Bool :=
  (s.handlesOf h.ctx).any fun g => g.phase == .held && blockOf (dOpcode g.desc) == blockOf (dOpcode h.desc)

/-- The handle stands behind the uncompleted TRIGGERED of the index before it (R99). -/
def State.isPartner (s : State) (h : Handle) : Bool :=
  match s.handle? ⟨h.ctx, (h.index + 2 ^ 32 - 1) % 2 ^ 32⟩ with
  | some t => dOpcode t.desc == 0xA
  | none => false

/-- Something other than its turn keeps an assigned handle back: a FENCE, a held descriptor of its block, a TRIGGERED. -/
def State.keptBack (s : State) (h : Handle) : Bool := s.fenced h || s.heldBehind h || s.isPartner h

/-- The dispatch of the handle makes a change that its block holds now: SEND, RECV_POST, RECV_CANCEL and a COUNTER_ARM report at
their dispatch (R399; log entry 125). -/
def State.reportHeld (s : State) (h : Handle) : Bool := s.rsvHeld && [4, 5, 6, 9].contains (dOpcode h.desc)

/-- The handle is the next of its context to be dispatched (R87). -/
def State.dispatchable (s : State) (h : Handle) : Bool :=
  !s.frozen && !s.reportHeld h && !(s.ctx h.ctx).awaiting && h.phase == .assigned && !s.keptBack h &&
    (s.older h).all fun g => g.phase != .assigned || s.keptBack g

/-! ## Assignment (R87, R89, R90, R99) -/

/-- A fresh handle. -/
def mkHandleRec (c i : Nat) (d : Descriptor) : Handle :=
  ⟨c, i, d, .assigned, false, 0, false, false, 0, false, [], none, false, [], 0, .none, false, none, false⟩

/-- The TRIGGERED at the index before, when it waits for its partner. -/
def State.waitingTrig (s : State) (c i : Nat) : Option Handle :=
  match s.handle? ⟨c, (i + 2 ^ 32 - 1) % 2 ^ 32⟩ with
  | some t => if dOpcode t.desc = 0xA ∧ t.phase = .waiting then some t else none
  | none => none

/-- RMA's answer to a TRIGGERED whose partner is known (R189, R193): registered, or both completed. -/
def State.registerTrig (s : State) (t p : Handle) : State :=
  if !s.ctrOk (dCounter t.desc) t.ctx || (dLcnt t.desc && !s.ctrOk (dLocalCounter t.desc) t.ctx) then
    (s.finish t.ref 0x18 1).finish p.ref 0x18 1
  else if 2 ^ 20 ≤ s.rma.trigs.length then (s.finish t.ref 0x18 2).finish p.ref 0x18 2
  else
    let s := s.setHandle { p with phase := .gated }
    let s := s.setHandle { t with phase := .waiting }
    { s with rma := { s.rma with trigs := s.rma.trigs ++ [⟨t.ctx, t.index, dCounter t.desc, dThreshold t.desc⟩] } }

/-- The fabric time of the doorbell that announced index `i` of a context (R452), now where none is known. -/
def State.bellOf (s : State) (c i : Nat) : Nat :=
  match (s.ctx c).bells.find? fun b => (b.1 + 2 ^ 32 - (i + 1)) % 2 ^ 32 < 2 ^ 31 with
  | some b => b.2
  | none => s.fabric

/-- PMC considers an assigned descriptor (R449, R451), announced at `bell`, its read issued at `readAt`. -/
def State.sampleDesc (s : State) (h : Handle) (bell : Nat) (readAt : Option Nat) : State :=
  let d := h.desc
  let key := handleKey h.ref
  let item := packFields [(0, 64, s.handleWord h), (64, 40, if dHasTarget d then dTarget d else 0),
    (104, 3, (s.ctx h.ctx).port), (128, 64, if [1, 2, 3].contains (dOpcode d) then dAddr2 d else 0)]
  let s := s.sampleConsider 1 key (dOpcode d) 0 (BitVec.ofNat 384 item) [h.ctx] [] bell
  let s := match readAt with
    | some t => (s.stampAt 1 key 1 t).stampFirst 1 key 2
    | none => s
  s.stampFirst 1 key 3

/-- CMD assigns the next handle of a context and checks its descriptor (R87, R90); a failing descriptor completes at
once; the partner of a waiting TRIGGERED is gated (R99). -/
def State.assign (s : State) (c : Nat) (d : Descriptor) (readAt : Option Nat) : State :=
  let r := s.ctx c
  let i := r.fetch
  let h := mkHandleRec c i d
  let bell := s.bellOf c i
  let next := (i + 1) % 2 ^ 32
  let s := s.setCtx c { r with fetch := next, used := s.now, bells := r.bells.filter fun b => b.1 != next }
  let s := ((s.setHandle h).pmcEv 2 2 c 0 1).sampleDesc h bell readAt
  let s := s.report (.handleAssign c i (dTag d) s.fabric d)
  match descCheck d, s.waitingTrig c i with
  | some (st, dt), none => s.finish h.ref st dt
  | some (st, dt), some t => (s.finish t.ref 0x15 8).finish h.ref st dt
  | none, some t => if dGateable d then s.registerTrig t h else s.finish t.ref 0x15 8
  | none, none => s

/-- A handle is dispatched: its timeout starts (R103). -/
def State.activate (s : State) (h : Handle) : State :=
  s.setHandle { h with phase := .active, dispAt := s.now, tx := [], lostAt := none }

end Sys2Proof.Machine
end

