-- ==== Sys2Proof/Machine/Log.lean ====
section
/-!
DEFINITION. The change log: its records, its chain and its room (R433 to R437).
-/
set_option Elab.async false
namespace Sys2Proof.Machine

/-- The 32 bytes of a record (R434). -/
def LogRec.bytes (r : LogRec) : List Byte :=
  leBytes 8 r.time ++ leBytes 8 r.old.toNat ++ leBytes 8 r.new.toNat ++ leBytes 3 r.master ++
    leBytes 1 (r.kind % 16 + 16 * (r.reason % 16)) ++ leBytes 4 r.addr

/-- Records written so far. -/
def State.logTail (s : State) : Nat := s.fld LOG_TAIL.count 0 0

/-- Records consumed so far. -/
def State.logHead (s : State) : Nat := s.fld LOG_HEAD.count 0 0

/-- mirror_log2, where values outside 10 to 19 act as 19 (R439). -/
def State.mirrorLog2 (s : State) : Nat :=
  let v := s.fld LOG_CTL.mirror_log2 0 0
  if 10 ≤ v ∧ v ≤ 19 then v else 19

/-- The capacity C (R435). -/
def State.logCap (s : State) : Nat :=
  if !s.log.ring then 8192
  else if s.flag LOG_CTL.mirror_en 0 0 then 2 ^ s.mirrorLog2 else 524288

/-- A write must wait (R435). -/
def State.logFull (s : State) : Bool := s.logCap - 64 ≤ s.logTail - s.logHead

/-- Append a record: the next index, the ring's oldest record gone, the chain extended. -/
def State.logAppend (s : State) (r : LogRec) : State :=
  let i := s.logTail
  let s := (s.setFld LOG_TAIL.count 0 0 (i + 1)).pmcEv 16 1 0 0 1
  let recs := SMap.insert s.log.recs i r
  { s with log := { s.log with
      recs := if i < 524288 then recs else SMap.erase recs (i - 524288)
      chain := Config.sha512 (leBytes 64 s.log.chain.toNat ++ r.bytes) } }

/-- A register write performed (kind 0). -/
def State.logWrite (s : State) (m off : Nat) (old new : Word) : State :=
  s.logAppend ⟨s.fabric, old, new, m, 0, 0, off⟩

/-- A register write ignored (kind 1), with its reason: 1 unmapped, 2 setup state, 3 refused by a field rule. -/
def State.logIgnored (s : State) (m off reason : Nat) (old tried : Word) : State :=
  s.logAppend ⟨s.fabric, old, tried, m, 1, reason, off⟩

/-- A table update (kind 2): table 1 translation, 2 route bank, 3 window, 4 context, 5 counter. -/
def State.logTable (s : State) (m table index : Nat) (old new : Word) : State :=
  s.logAppend ⟨s.fabric, old, new, m, 2, 0, table * 2 ^ 27 + index % 2 ^ 27⟩

/-- A marker (kind 3). -/
def State.logMarker (s : State) (addr : Nat) (old new : Word) : State :=
  s.logAppend ⟨s.fabric, old, new, mDev 0, 3, 0, addr⟩

end Sys2Proof.Machine
end

