-- ==== Sys2Proof/Machine/Rte.lean ====
section
/-!
DEFINITION. RTE: the port map and line state, routes, the adaptive choice, injection, local delivery, holding and
discarding (R233 to R261, R265), and the credit of LNK's pools that the choice asks for (R303).
-/
set_option Elab.async false
namespace Sys2Proof.Machine

/-! ## LNK's pools -/

/-- A port instance of LNK. -/
def State.lport (s : State) (p : Nat) : LPort := SMap.getD (fun _ => .init) s.lnk.ports p

/-- Write a port instance. -/
def State.setLport (s : State) (p : Nat) (v : LPort) : State :=
  { s with lnk := { s.lnk with ports := SMap.put (fun _ => .init) s.lnk.ports p v } }

/-- A pool of a port. -/
def LPort.pool (v : LPort) (k : Nat) : LPool := SMap.getD (fun _ => .init) v.pools k

/-- Write a pool of a port. -/
def LPort.setPool (v : LPort) (k : Nat) (x : LPool) : LPort :=
  { v with pools := SMap.put (fun _ => .init) v.pools k x }

/-- A pool's receive size in flits (R302). -/
def State.poolSize (s : State) (p k : Nat) : Nat :=
  bitsOf (s.reg ⟨.LNK_POOL_CFG, p, 0⟩).toNat (7 * k + 6) (7 * k) * (if p < 141 then 16 else 128)

/-- The sender may send a flit on a pool (R303). -/
def LPort.hasCredit (v : LPort) (k : Nat) : Bool :=
  match (v.pool k).limit with
  | some l =>
    let d := (l + 2 ^ 16 - (v.pool k).sent % 2 ^ 16) % 2 ^ 16
    1 ≤ d && d ≤ v.adm.sizes.getD k 0
  | none => false

/-- A buffer of a pool is free again. -/
def State.freeFlits (s : State) (src : Option (Nat × Nat)) (n : Nat) : State :=
  match src with
  | none => s
  | some (p, k) =>
    let v := s.lport p
    let x := v.pool k
    s.setLport p (v.setPool k { x with freed := (x.freed + n) % 2 ^ 16 })

/-! ## Ports, rows and banks -/

/-- The dimension of a line port (R20). -/
def portDim (p : Nat) : Nat := p / 47

/-- A port usable for routing (R235). -/
def State.portUsable (s : State) (p : Nat) : Bool :=
  s.fld RTE_PORT_MAP.state 0 p == 1 && !s.flag RTE_PORT_MAP.route_dis 0 p

/-- The usable line port to coordinate `c` of dimension `d` (R233, R234). -/
def State.portTo (s : State) (d c : Nat) : Option Nat :=
  ((List.range 47).map fun j => 47 * d + j).find? fun p => s.portUsable p && s.fld RTE_PORT_MAP.peer 0 p == c

/-- The node's own row of dimension `d` (R253). -/
def State.ownRow (s : State) (d : Nat) : Nat :=
  (List.range 48).foldl (fun a c => if (s.portTo d c).isSome then a + 2 ^ c else a) 0

/-- Row `e` of dimension `d` (R253). -/
def State.rowOf (s : State) (d e : Nat) : Nat :=
  if e = s.coord d then s.ownRow d else s.fld RTE_LINE_STATE.row 0 (48 * d + e)

/-- The link between line members `e` and `c` of dimension `d` is usable (R254). -/
def State.linkUsable (s : State) (d e c : Nat) : Bool :=
  if e = s.coord d then (s.portTo d c).isSome
  else if c = s.coord d then (s.portTo d e).isSome
  else bitOf (s.rowOf d e) c && bitOf (s.rowOf d c) e

/-- A route-bank entry: table 0 the line table, 1 the auxiliary table (R244). -/
def State.bankEntry (s : State) (bank table index : Nat) : Word :=
  SMap.getD (fun _ => (0 : Word)) s.rte.banks (bank * 1024 + table * 512 + index)

/-- The line-table entry of a bank for (d, c). -/
def State.lineEntry (s : State) (bank d c : Nat) : Nat := (s.bankEntry bank 0 (48 * d + c)).toNat

/-- The auxiliary entry of a bank that serves a destination: its auxiliary port and the node that owns the link. -/
def State.auxFor (s : State) (bank node : Nat) : Option (Nat × Nat) :=
  (List.range 64).findSome? fun i =>
    let e := (s.bankEntry bank 1 i).toNat
    if bitOf e 36 && bitsOf e 35 34 != 3 && bitsOf e 16 0 == node then some (141 + bitsOf e 35 34, bitsOf e 33 17)
    else none

/-- The node whose coordinates route a packet, and the auxiliary port it leaves on there (R244); the node's own ID is
delivered here whatever an auxiliary entry names (R25). -/
def State.routeNode (s : State) (bank node : Nat) : Nat × Option Nat :=
  if node = s.node then (node, none)
  else match s.auxFor bank node with
    | some (p, via) => (via, some p)
    | none => (node, none)

/-- The difference set D (R233). -/
def State.diffs (s : State) (node : Nat) : List Nat := [0, 1, 2].filter fun d => s.coord d != nodeCoord node d

/-- Some intermediate of dimension `d` leads to coordinate `c` (R254). -/
def State.viaExists (s : State) (d c : Nat) : Bool :=
  (List.range 48).any fun e => e != s.coord d && e != c && s.linkUsable d (s.coord d) e && s.linkUsable d e c

/-- RTE has a route to a node under the active bank (R254). -/
def State.hasRoute (s : State) (node : Nat) : Bool :=
  let bank := s.fld RTE_EPOCH.active 0 0
  let (t, aux) := s.routeNode bank node
  ((s.diffs t).all fun d =>
    let c := nodeCoord t d
    bitOf (s.lineEntry bank d c) 55 && ((s.portTo d c).isSome || s.viaExists d c)) &&
  (!(s.diffs t).isEmpty || aux.all s.portUsable)

/-! ## The choice of a hop -/

/-- A hop: the port, the virtual channel and its credit pool, and the dimension in which it detours. -/
structure Hop where
  port : Nat
  pool : Nat
  vc : Nat
  detour : Option Nat
  deriving DecidableEq, Repr

/-- What RTE decides for a packet. -/
inductive Decision where
  | deliver
  | go (h : Hop)
  | wait
  | hold
  deriving DecidableEq, Repr

/-- The intermediate of an escape detour (R242). -/
def State.escapeVia (s : State) (bank d c : Nat) : Option Nat :=
  let a := s.coord d
  let ok (e : Nat) : Bool := e != a && e != c && s.linkUsable d a e && s.linkUsable d e c
  let w := s.lineEntry bank d c
  let pref := bitsOf w 53 48
  if bitOf w 54 && pref < 48 && ok pref then some pref else (List.range 48).find? ok

/-- The route of R242 in dimension order: the port and whether it is the escape detour. -/
def State.escapeHop (s : State) (p : Packet) (t : Nat) : Option (Nat × Option Nat) :=
  match s.diffs t with
  | [] => none
  | d :: _ =>
    let c := nodeCoord t d
    match s.portTo d c with
    | some q => some (q, none)
    | none =>
      if bitOf (pDetour p) d then none
      else (s.escapeVia (pEpoch p) d c).bind fun e => (s.portTo d e).map fun q => (q, some d)

/-- The route of R242 as a hop on VC7: pool E0, or E1 for the detour. -/
def State.escape7 (s : State) (p : Packet) (t : Nat) : Option Hop :=
  (s.escapeHop p t).map fun (q, dt) => ⟨q, if dt.isSome then 8 else 7, 7, dt⟩

/-- Minimal candidates (R249). -/
def State.minCands (s : State) (p : Packet) (t : Nat) : List Hop :=
  (s.diffs t).filterMap fun d => (s.portTo d (nodeCoord t d)).map fun q => ⟨q, pVc p, pVc p, none⟩

/-- Ports in cyclic order from the rotor. -/
def State.cyclic (s : State) : List Nat := (List.range 144).map fun i => (s.rte.rotor + i) % 144

/-- Non-minimal candidates, at most nm_count, in cyclic port order from the rotor (R249). -/
def State.nonminCands (s : State) (p : Packet) (t : Nat) : List Hop :=
  let all := s.cyclic.filterMap fun q =>
    let d := portDim q
    let e := s.fld RTE_PORT_MAP.peer 0 q
    let c := nodeCoord t d
    if q < 141 && s.portUsable q && (s.diffs t).contains d && !bitOf (pDetour p) d && e != c &&
        bitOf (s.lineEntry (pEpoch p) d c) e && s.linkUsable d e c then some ⟨q, pVc p, pVc p, some d⟩
    else none
  all.take (min 4 (s.fld RTE_CTL.nm_count 0 0))

/-- Flits queued at a port on one pool. -/
def State.poolQueue (s : State) (port k : Nat) : Nat :=
  ((s.rte.pkts.filter fun x => x.place == .queued port k).map fun x => x.got - x.sent).sum

/-- Flits queued at a port on VC1 to VC7, saturating at 255 (R250). -/
def State.queueDepth (s : State) (port : Nat) : Nat :=
  min 255 (((List.range 8).map fun k => s.poolQueue port (k + 1)).sum)

/-- The neighbour's hint for a dimension; 15 when none has come in the last 1 µs (R250). -/
def State.hintOf (s : State) (port d : Nat) : Nat :=
  let v := s.lport port
  match v.hintAt with
  | some t => if s.now ≤ t + us 1 then bitsOf v.hint (4 * d + 3) (4 * d) else 15
  | none => 15

/-- The cost of a hop (R250). -/
def State.hopCost (s : State) (t : Nat) (h : Hop) : Nat :=
  let left := if h.detour.isSome then s.diffs t else (s.diffs t).filter fun d => d != portDim h.port
  let hint := match left with | [] => 0 | d :: _ => s.hintOf h.port d
  s.fld RTE_ADAPT.w_queue 0 0 * s.queueDepth h.port + s.fld RTE_ADAPT.w_hint 0 0 * hint +
    (if h.detour.isSome then s.fld RTE_ADAPT.nm_bias 0 0 else 0)

/-- The candidate of lowest cost, the first in cyclic order from the rotor among equals (R250). -/
def State.bestHop (s : State) (t : Nat) (hs : List Hop) : Option Hop :=
  let dist (h : Hop) : Nat := (h.port + 144 - s.rte.rotor % 144) % 144
  hs.foldl (fun best h =>
    match best with
    | none => some h
    | some b =>
      let (ch, cb) := (s.hopCost t h, s.hopCost t b)
      if ch < cb || (ch == cb && dist h < dist b) then some h else some b) none

/-- The candidates of a packet on VC1 to VC6 under the routing mode (R249). -/
def State.candidates (s : State) (p : Packet) (t : Nat) : List Hop :=
  match s.fld RTE_CTL.mode 0 0 with
  | 0 => s.minCands p t
  | 2 => ((s.escapeHop p t).map fun (q, dt) => (⟨q, pVc p, pVc p, dt⟩ : Hop)).toList
  | _ => s.minCands p t ++ s.nonminCands p t

/-- What RTE does with a packet at this node (R233, R242, R244, R249 to R251, R256, R259). -/
def State.decideHop (s : State) (p : Packet) : Decision :=
  let (t, aux) := s.routeNode (pEpoch p) (pDstNode p)
  if (s.diffs t).isEmpty then
    match aux with
    | none => .deliver
    | some q => if s.portUsable q then .go ⟨q, pVc p, pVc p, none⟩ else .hold
  else if pVc p = 7 then
    match s.escape7 p t with
    | some h => .go h
    | none => .hold
  else if pVc p = 0 then
    match s.escapeHop p t with
    | some (q, none) => .go ⟨q, 0, 0, none⟩
    | some (q, some d) => .go ⟨q, 8, 7, some d⟩
    | none => .hold
  else
    let cs := s.candidates p t
    match s.bestHop t (cs.filter fun h => (s.lport h.port).hasCredit h.pool) with
    | some h => .go h
    | none => if cs.isEmpty && (s.escape7 p t).isNone then .hold else .wait

/-! ## Packets at the node -/

/-- A packet that RTE carries. -/
def State.rtePkt (s : State) (id : Nat) : Option RtePkt := s.rte.pkts.find? fun x => x.id == id

/-- Change a packet. -/
def State.setRtePkt (s : State) (x : RtePkt) : State :=
  { s with rte := { s.rte with pkts := s.rte.pkts.map fun y => if y.id = x.id then x else y } }

/-- A packet leaves the node's count, which notes the time (R246). -/
def State.dropPkt (s : State) (id : Nat) : State :=
  match s.rtePkt id with
  | none => s
  | some x =>
    { s with rte := { s.rte with
        pkts := s.rte.pkts.filter fun y => y.id != id
        busy0 := if pEpoch x.pkt = 0 then s.fabric else s.rte.busy0
        busy1 := if pEpoch x.pkt = 1 then s.fabric else s.rte.busy1 } }

/-- Packets of an epoch present at the node; zero throughout setup (R246, R265). A packet that waits for urgent tokens is
not injected yet (R245, R261). -/
def State.drainCount (s : State) (e : Nat) : Nat :=
  if s.inSetup 8 then 0 else (s.rte.pkts.filter fun x => x.place != .tokens && pEpoch x.pkt == e).length

/-- Discard a packet and count it in RTE_DISCARD_COUNT (R240, R256, R265); its buffered flits are free. -/
def State.discardPkt (s : State) (id : Nat) : State :=
  match s.rtePkt id with
  | none => s
  | some x =>
    let s := (s.sampleEnd 2 id 2 none).sampleEnd 3 id 2 none
    ((s.dropPkt id).freeFlits x.src (x.got - x.freed)).bump RTE_DISCARD_COUNT.count 0 0

/-- A header with its virtual channel, and a detour bit set, for the hop taken. -/
def setHop (p : Packet) (vc : Nat) (detour : Option Nat) : Packet :=
  let h := putBits p.hdr.toNat 79 77 vc
  let h := match detour with | some d => putBits h (85 + d) (85 + d) 1 | none => h
  { p with hdr := BitVec.ofNat 256 h }

/-- The item bytes of a packet's sample record (R451). -/
def sampleItem (p : Packet) (inPort outPort vc : Nat) : BitVec 384 :=
  BitVec.ofNat 384 (p.hdr.toNat + inPort * 2 ^ 256 + outPort * 2 ^ 264 + vc * 2 ^ 272)

/-- PMC considers a packet that came from a link (R449). -/
def State.samplePkt (s : State) (x : RtePkt) (kind outPort vc : Nat) : State :=
  match x.src with
  | none => s
  | some (q, _) =>
    let s := s.sampleConsider kind x.id (pType x.pkt) (pBytes x.pkt) (sampleItem x.pkt q outPort vc)
      [pDstCtx x.pkt, pSrcCtx x.pkt] [q, outPort] s.fabric
    s.stampFirst kind x.id 1

/-- A packet takes a hop: it joins the port's queue, with its counts (R249, R251, R259). -/
def State.takeHop (s : State) (x : RtePkt) (h : Hop) : State :=
  let s := s.samplePkt x 3 h.port h.vc
  let s := if h.detour.isSome then (s.bump RTE_NONMIN_COUNT.count 0 0).pmcEv 8 3 h.port 0 1 else s
  let s := if 1 ≤ pVc x.pkt ∧ pVc x.pkt ≤ 6 ∧ h.vc = 7 then (s.bump RTE_ESCAPE_COUNT.count 0 0).pmcEv 8 4 0 0 1 else s
  let s := if pVc x.pkt = 0 ∧ h.vc = 7 then s.bump RTE_URGENT_DIVERT_COUNT.count 0 0 else s
  let s := s.setRtePkt { x with pkt := setHop x.pkt h.vc h.detour, place := .queued h.port h.pool }
  { s with rte := { s.rte with rotor := (s.rte.rotor + 1) % 144 } }

/-- The next packet number. -/
def State.pktId (s : State) : Nat := s.rte.nextId

/-- A packet enters RTE, from a link or from a block. -/
def State.carry (s : State) (p : Packet) (src : Option (Nat × Nat)) (got total : Nat) (place : PktPlace)
    (mcast : Option Nat) : RtePkt × State :=
  let x : RtePkt := ⟨s.pktId, p, src, got, total, 0, 0, place, mcast⟩
  (x, { s with rte := { s.rte with pkts := s.rte.pkts ++ [x], nextId := s.rte.nextId + 1 } })

/-! ## Urgent tokens (R261) -/

/-- Tokens missing from a full bucket now, × 10^6. -/
def State.debtNow (s : State) : Nat :=
  s.rte.debt - max 1 (s.fld RTE_URGENT_CFG.rate 0 0) * (s.now - s.rte.debtAt)

/-- A bucket size: values below 5 act as 5 (R264). -/
def burstOf (n : Nat) : Nat := max 5 n

/-- The bucket holds tokens for `n` flits. -/
def State.tokensFor (s : State) (n : Nat) : Bool :=
  s.debtNow + n * 1000000 ≤ burstOf (s.fld RTE_URGENT_CFG.burst 0 0) * 1000000

/-- Take the tokens of `n` flits. -/
def State.takeTokens (s : State) (n : Nat) : State :=
  { s with rte := { s.rte with debt := s.debtNow + n * 1000000, debtAt := s.now } }

/-- A write of RTE_URGENT_CFG finds in the bucket what the old rate has brought so far; tokens beyond a smaller bucket are
gone, and a larger bucket fills at the new rate. -/
def State.urgentCfg (s : State) (w : Word) : State :=
  let old := burstOf (s.fld RTE_URGENT_CFG.burst 0 0) * 1000000
  let new := burstOf (bitsOf w.toNat RTE_URGENT_CFG.burst.hi RTE_URGENT_CFG.burst.lo) * 1000000
  let s : State := { s with rte := { s.rte with debt := new - (old - s.debtNow), debtAt := s.now } }
  s.setReg ⟨.RTE_URGENT_CFG, 0, 0⟩ w

/-- An urgent packet, subject to the token bucket: line-state notices are outside it (R253, R261). -/
def urgentPkt (p : Packet) : Bool := pVc p == 0 && pType p != 9

/-! ## Injection -/

/-- What RTE answers to an injection (R240, R254, R265). -/
inductive Injection where
  | ok | noRoute | bad
  deriving DecidableEq, Repr

/-- Whether RTE takes a packet. -/
def State.injectable (s : State) (p : Packet) : Injection :=
  if 110592 ≤ pDstNode p || 9 < pType p then .bad
  else if s.inSetup 8 || s.frozen || !s.hasRoute (pDstNode p) then .noRoute
  else .ok

/-- A packet with the epoch that is active as it is injected (R245). -/
def State.stampEpoch (s : State) (p : Packet) : Packet :=
  { p with hdr := BitVec.ofNat 256 (putBits p.hdr.toNat 80 80 (s.fld RTE_EPOCH.active 0 0)) }

/-- A packet enters RTE at injection: an urgent one waits where its tokens, or its turn, have not come. -/
def State.enter (s : State) (p : Packet) : RtePkt × State :=
  let n := pFlits p
  let p := s.stampEpoch p
  if urgentPkt p && (!s.tokensFor n || s.rte.pkts.any fun x => x.place == .tokens) then
    s.carry p none n n .tokens none
  else
    let s := if urgentPkt p then s.takeTokens n else s
    s.carry p none n n (.waiting s.now) none

/-- RTE refuses an injection for want of a route, which shows in RTE_STATUS (R254). -/
def State.refuseInjection (s : State) (i : Injection) : State :=
  match i with
  | .noRoute => s.setFlag RTE_STATUS.no_route 0 0 true
  | _ => s

/-! ## Local delivery -/

/-- The copy that a relay sends on: to relay_to, with relay 0 (R258). -/
def relayCopy (p : Packet) : Packet :=
  let h := putBits (putBits p.hdr.toNat 16 0 (kget p 139 123)) (104 + 140) (104 + 123) 0
  ⟨BitVec.ofNat 256 (putBits (putBits h 79 77 (vcOf (pClass p) (hget p 60 58 == 2))) 87 85 0), p.bytes⟩

/-- A relay injects its copy as a unicast, which the scoring at the command's end routes (R251, R258). -/
def State.relayOn (s : State) (p : Packet) : State :=
  let q := relayCopy p
  if s.injectable q = .ok then (s.enter q).2 else s.refuseInjection (s.injectable q)

/-- A whole packet is handed to its block at this node (R25); of a Cascade packet with relay 1 a copy goes on (R258). -/
def State.handOver (s : State) (x : RtePkt) : State :=
  let s := s.samplePkt x 2 0xFF (pVc x.pkt)
  let s := s.stampFirst 2 x.id 2
  let s := s.dropPkt x.id
  let s := if pType x.pkt = 8 ∧ kget x.pkt 140 140 = 1 then s.relayOn x.pkt else s
  { s with delivered := s.delivered ++ [x.pkt] }

/-- A copy of a line multicast takes the one hop to its member, and waits for its credit; it takes no detour and no escape,
so it is held while its port is not usable (R256, R258). -/
def State.copyHop (s : State) (p : Packet) : Decision :=
  match s.diffs (pDstNode p) with
  | d :: _ =>
    match s.portTo d (nodeCoord (pDstNode p) d) with
    | some q => if (s.lport q).hasCredit (pVc p) then .go ⟨q, pVc p, pVc p, none⟩ else .wait
    | none => .hold
  | [] => .deliver

/-- What RTE does with a packet: a copy of a line multicast, or any other. -/
def State.hopOf (s : State) (x : RtePkt) : Decision := if x.mcast.isSome then s.copyHop x.pkt else s.decideHop x.pkt

/-- A held packet of VC0 whose next port is not usable goes on VC7 from now on, which is counted (R259). -/
def State.divertHeld (s : State) (x : RtePkt) : RtePkt × State :=
  if pVc x.pkt = 0 ∧ !(s.diffs (s.routeNode (pEpoch x.pkt) (pDstNode x.pkt)).1).isEmpty ∧ x.mcast.isNone then
    ({ x with pkt := setHop x.pkt 7 none }, s.bump RTE_URGENT_DIVERT_COUNT.count 0 0)
  else (x, s)

/-- A packet without any candidate is held at the node (R256). -/
def State.holdPkt (s : State) (x : RtePkt) : State :=
  let y := s.divertHeld x
  (y.2.setRtePkt { y.1 with place := match x.place with | .held t => .held t | _ => .held s.now }).setFlag
    RTE_STATUS.held 0 0 true

/-- Route one packet whose head is at the node. -/
def State.routePkt (s : State) (x : RtePkt) : State :=
  match s.hopOf x with
  | .deliver =>
    let s := s.freeFlits x.src (x.got - x.freed)
    if x.total ≤ x.got then s.handOver x else s.setRtePkt { x with place := .here, freed := x.got }
  | .go h => s.takeHop x h
  | .wait => s.setRtePkt { x with place := match x.place with | .waiting t => .waiting t | _ => .waiting s.now }
  | .hold => s.holdPkt x

/-- Every packet that waits for credit or is held is scored again (R251, R256). -/
def State.rescore (s : State) : State :=
  s.rte.pkts.foldl (fun s x =>
    match x.place with
    | .waiting _ => s.routePkt x
    | .held _ => s.routePkt x
    | _ => s) s

/-! ## Injection by the blocks of the node -/

/-- A packet that RTE takes enters, and is routed unless it waits for tokens. -/
def State.inject (s : State) (p : Packet) : State :=
  let x := s.enter p
  if x.1.place = .tokens then x.2 else x.2.routePkt x.1

/-- Present a packet: RTE takes it, or it is gone. -/
def State.present (s : State) (p : Packet) : State :=
  match s.injectable p with
  | .ok => s.inject p
  | i => s.refuseInjection i

/-! ## Line multicast (R206, R258) -/

/-- The node ID of the member at coordinate `c` of the node's line in dimension `d`. -/
def State.memberNode (s : State) (d c : Nat) : Nat :=
  nodeOf (if d = 0 then c else s.coord 0) (if d = 1 then c else s.coord 1) (if d = 2 then c else s.coord 2)

/-- A packet with its destination node. -/
def setDst (p : Packet) (n : Nat) : Packet := { p with hdr := BitVec.ofNat 256 (putBits p.hdr.toNat 16 0 n) }

/-- A packet for a relay, which forwards it to node `n` (R239). -/
def setRelay (p : Packet) (n : Nat) : Packet :=
  { p with hdr := BitVec.ofNat 256 (putBits (putBits p.hdr.toNat (104 + 139) (104 + 123) n) (104 + 140) (104 + 140) 1) }

/-- RTE has room for another packet awaiting copies (R258). -/
def State.mcastRoom (s : State) : Bool :=
  ((s.rte.pkts.filterMap fun x => match x.place with
    | .waiting _ => x.mcast
    | _ => none).eraseDups).length < 64

/-- One copy of multicast `id`, or its refusal. -/
def State.sendCopy (s : State) (id : Nat) (p : Packet) : State :=
  match s.injectable p with
  | .ok =>
    let x := s.carry (s.stampEpoch p) none (pFlits p) (pFlits p) (.waiting s.now) (some id)
    x.2.routePkt x.1
  | i => s.refuseInjection i

/-- Send a packet to a set of member coordinates of dimension `d`: copies to the members whose port is usable, and for
each other member a copy by way of the next recipient in cyclic order, or a unicast where there is none (R206). -/
def State.multicast (s : State) (d : Nat) (dsts : List Nat) (p : Packet) : State :=
  if !s.flag RTE_CTL.mcast_en 0 0 then dsts.foldl (fun s t => s.present (setDst p (s.memberNode d t))) s
  else
    let id := s.pktId
    let live := dsts.filter fun t => (s.portTo d t).isSome
    let dist (t r : Nat) : Nat := (r + 48 - t) % 48
    let relay (t : Nat) : Option Nat :=
      live.foldl (fun best r => match best with
        | none => some r
        | some b => if dist t r < dist t b then some r else some b) none
    let s := live.foldl (fun s t => s.sendCopy id (setDst p (s.memberNode d t))) s
    (dsts.filter fun t => !live.contains t).foldl (fun s t =>
      match relay t with
      | some r => s.sendCopy id (setRelay (setDst p (s.memberNode d r)) (s.memberNode d t))
      | none => s.present (setDst p (s.memberNode d t))) s

/-! ## Line-state notices (R253) -/

/-- The notice that carries the node's row of dimension `d` to a node. -/
def State.notice (s : State) (d dst : Nat) : Packet :=
  ⟨mkHdr dst s.node 0 0 0 0 (s.fld RTE_EPOCH.active 0 0) 9 0 3 0 (d + s.ownRow d * 4), []⟩

/-- Send the row of dimension `d` to the member on one port, when it is live. -/
def State.sendNotice (s : State) (p : Nat) : State :=
  let d := portDim p
  if s.fld RTE_PORT_MAP.state 0 p = 1 && p < 141 && !s.inSetup 8 && !s.frozen then
    s.inject (s.notice d (s.memberNode d (s.fld RTE_PORT_MAP.peer 0 p)))
  else s

/-- Send the row of dimension `d` to every live member of the line. -/
def State.sendRow (s : State) (d : Nat) : State :=
  (List.range 47).foldl (fun s j => s.sendNotice (47 * d + j)) s

/-! ## A port's usability changes (R255) -/

/-- Packets queued at a port that have not started go back to route computation. -/
def State.requeue (s : State) (p : Nat) : State :=
  s.rte.pkts.foldl (fun s x =>
    match x.place with
    | .queued q _ => if q = p ∧ x.sent = 0 then s.routePkt { x with place := .waiting s.now } else s
    | _ => s) s

/-- After a change of a line port's usability: its queue is re-routed when it is now unusable, and the row is sent. -/
def State.usabilityChanged (s : State) (p : Nat) : State :=
  let s := if s.portUsable p then s else s.requeue p
  if p < 141 then s.sendRow (portDim p) else s

end Sys2Proof.Machine
end

