-- ==== Sys2Proof/Machine/Rv64.lean ====
section
/-!
DEFINITION. The instruction set of a handler core, RV64IMAC with Zicsr, Zifencei, Zicntr, Zicbom and Zihintpause (R321): decoding
and arithmetic. R321 leaves both to the RISC-V specifications (PRESUMED, log entry 59).
-/
set_option Elab.async false
namespace Sys2Proof.Machine

/-! ## Instructions -/

/-- Register and immediate arithmetic. -/
inductive RvAlu where
  | add | sub | sll | slt | sltu | xor | srl | sra | or | and
  deriving DecidableEq, Repr

/-- Multiplication and division. -/
inductive RvMul where
  | mul | mulh | mulhsu | mulhu | div | divu | rem | remu
  deriving DecidableEq, Repr

/-- Conditions of branches. -/
inductive RvCond where
  | eq | ne | lt | ge | ltu | geu
  deriving DecidableEq, Repr

/-- Atomic memory operations. -/
inductive RvAmo where
  | swap | add | xor | and | or | min | max | minu | maxu
  deriving DecidableEq, Repr

/-- CSR accesses: write, set, clear. -/
inductive RvCsr where
  | rw | rs | rc
  deriving DecidableEq, Repr

/-- Cache-block operations. -/
inductive RvCbo where
  | inval | clean | flush
  deriving DecidableEq, Repr

/-- The second operand of arithmetic, or the source of a CSR access: a register or a constant. -/
inductive RvSrc where
  | reg (r : Nat)
  | imm (v : Word)
  deriving DecidableEq, Repr

/-- An instruction; sizes are in bytes, `w` marks the 32-bit forms, which extend their results' sign. -/
inductive RvOp where
  | lui (rd : Nat) (v : Word)
  | auipc (rd : Nat) (v : Word)
  | jal (rd : Nat) (off : Word)
  | jalr (rd rs1 : Nat) (off : Word)
  | branch (k : RvCond) (rs1 rs2 : Nat) (off : Word)
  | load (n : Nat) (signed : Bool) (rd rs1 : Nat) (off : Word)
  | store (n : Nat) (rs1 rs2 : Nat) (off : Word)
  | alu (w : Bool) (k : RvAlu) (rd rs1 : Nat) (x : RvSrc)
  | mul (w : Bool) (k : RvMul) (rd rs1 rs2 : Nat)
  | lr (n rd rs1 : Nat)
  | sc (n rd rs1 rs2 : Nat)
  | amo (k : RvAmo) (n rd rs1 rs2 : Nat)
  | csr (k : RvCsr) (rd num : Nat) (x : RvSrc)
  | cbo (k : RvCbo) (rs1 : Nat)
  | fence
  | fenceI
  | wfi
  | ecall
  | ebreak
  | mret
  | illegal
  deriving DecidableEq, Repr

/-! ## Fields -/

/-- The low `w` bits of a number, extended by their sign. -/
def sx (w n : Nat) : Word := (BitVec.ofNat w n).signExtend 64

/-- The immediates of the 32-bit formats. -/
def immI (i : Nat) : Word := sx 12 (bitsOf i 31 20)
def immS (i : Nat) : Word := sx 12 (bitsOf i 31 25 * 32 + bitsOf i 11 7)
def immB (i : Nat) : Word :=
  sx 13 (bitsOf i 31 31 * 4096 + bitsOf i 7 7 * 2048 + bitsOf i 30 25 * 32 + bitsOf i 11 8 * 2)
def immU (i : Nat) : Word := sx 32 (bitsOf i 31 12 * 4096)
def immJ (i : Nat) : Word :=
  sx 21 (bitsOf i 31 31 * 2 ^ 20 + bitsOf i 19 12 * 4096 + bitsOf i 20 20 * 2048 + bitsOf i 30 21 * 2)

/-- The arithmetic that funct3 names; `alt` is the second of two. -/
def aluOf (f3 : Nat) (alt : Bool) : RvAlu :=
  match f3 with
  | 0 => if alt then .sub else .add
  | 1 => .sll
  | 2 => .slt
  | 3 => .sltu
  | 4 => .xor
  | 5 => if alt then .sra else .srl
  | 6 => .or
  | _ => .and

/-- The multiplication or division that funct3 names. -/
def mulOf (f3 : Nat) : RvMul :=
  match f3 with
  | 0 => .mul
  | 1 => .mulh
  | 2 => .mulhsu
  | 3 => .mulhu
  | 4 => .div
  | 5 => .divu
  | 6 => .rem
  | _ => .remu

/-- The condition that funct3 of a branch names. -/
def condOf (f3 : Nat) : Option RvCond :=
  match f3 with
  | 0 => some .eq
  | 1 => some .ne
  | 4 => some .lt
  | 5 => some .ge
  | 6 => some .ltu
  | 7 => some .geu
  | _ => none

/-- The operation that funct5 of an AMO names. -/
def amoOf (f5 : Nat) : Option RvAmo :=
  match f5 with
  | 1 => some .swap
  | 0 => some .add
  | 4 => some .xor
  | 12 => some .and
  | 8 => some .or
  | 16 => some .min
  | 20 => some .max
  | 24 => some .minu
  | 28 => some .maxu
  | _ => none

/-! ## The 32-bit formats -/

/-- Loads. -/
def rvLoad (i rd f3 rs1 : Nat) : RvOp :=
  if f3 = 7 then .illegal else .load (2 ^ (f3 % 4)) (f3 < 4) rd rs1 (immI i)

/-- Arithmetic with a constant. -/
def rvOpImm (i rd f3 rs1 : Nat) (w : Bool) : RvOp :=
  let top := if w then bitsOf i 31 25 else bitsOf i 31 26 * 2
  let sh : RvSrc := .imm (BitVec.ofNat 64 (if w then bitsOf i 24 20 else bitsOf i 25 20))
  match f3 with
  | 1 => if top = 0 then .alu w .sll rd rs1 sh else .illegal
  | 5 => if top = 0 then .alu w .srl rd rs1 sh else if top = 0x20 then .alu w .sra rd rs1 sh else .illegal
  | 0 => .alu w .add rd rs1 (.imm (immI i))
  | _ => if w then .illegal else .alu false (aluOf f3 false) rd rs1 (.imm (immI i))

/-- Arithmetic of two registers. -/
def rvOp (i rd f3 rs1 rs2 : Nat) (w : Bool) : RvOp :=
  match bitsOf i 31 25 with
  | 0 => if w && !([0, 1, 5].contains f3) then .illegal else .alu w (aluOf f3 false) rd rs1 (.reg rs2)
  | 0x20 => if f3 = 0 ∨ f3 = 5 then .alu w (aluOf f3 true) rd rs1 (.reg rs2) else .illegal
  | 1 => if w && (f3 == 1 || f3 == 2 || f3 == 3) then .illegal else .mul w (mulOf f3) rd rs1 rs2
  | _ => .illegal

/-- Fences and cache-block operations. -/
def rvMiscMem (i rd f3 rs1 : Nat) : RvOp :=
  match f3 with
  | 0 => .fence
  | 1 => .fenceI
  | 2 =>
    if rd ≠ 0 then .illegal
    else match bitsOf i 31 20 with
      | 0 => .cbo .inval rs1
      | 1 => .cbo .clean rs1
      | 2 => .cbo .flush rs1
      | _ => .illegal
  | _ => .illegal

/-- Atomics. -/
def rvAtomic (i rd f3 rs1 rs2 : Nat) : RvOp :=
  if f3 ≠ 2 ∧ f3 ≠ 3 then .illegal
  else
    let n := 2 ^ f3
    match bitsOf i 31 27 with
    | 2 => if rs2 = 0 then .lr n rd rs1 else .illegal
    | 3 => .sc n rd rs1 rs2
    | f5 => match amoOf f5 with
      | some k => .amo k n rd rs1 rs2
      | none => .illegal

/-- System instructions and CSR accesses. -/
def rvSystem (i rd f3 rs1 : Nat) : RvOp :=
  let num := bitsOf i 31 20
  let imm : RvSrc := .imm (BitVec.ofNat 64 rs1)
  match f3 with
  | 0 =>
    if i = 0x00000073 then .ecall
    else if i = 0x00100073 then .ebreak
    else if i = 0x30200073 then .mret
    else if i = 0x10500073 then .wfi
    else .illegal
  | 1 => .csr .rw rd num (.reg rs1)
  | 2 => .csr .rs rd num (.reg rs1)
  | 3 => .csr .rc rd num (.reg rs1)
  | 5 => .csr .rw rd num imm
  | 6 => .csr .rs rd num imm
  | 7 => .csr .rc rd num imm
  | _ => .illegal

/-- A 32-bit instruction. -/
def rvDecode32 (i : Nat) : RvOp :=
  let rd := bitsOf i 11 7
  let f3 := bitsOf i 14 12
  let rs1 := bitsOf i 19 15
  let rs2 := bitsOf i 24 20
  match i % 128 with
  | 0x37 => .lui rd (immU i)
  | 0x17 => .auipc rd (immU i)
  | 0x6F => .jal rd (immJ i)
  | 0x67 => if f3 = 0 then .jalr rd rs1 (immI i) else .illegal
  | 0x63 => match condOf f3 with
    | some k => .branch k rs1 rs2 (immB i)
    | none => .illegal
  | 0x03 => rvLoad i rd f3 rs1
  | 0x23 => if f3 < 4 then .store (2 ^ f3) rs1 rs2 (immS i) else .illegal
  | 0x13 => rvOpImm i rd f3 rs1 false
  | 0x1B => rvOpImm i rd f3 rs1 true
  | 0x33 => rvOp i rd f3 rs1 rs2 false
  | 0x3B => rvOp i rd f3 rs1 rs2 true
  | 0x0F => rvMiscMem i rd f3 rs1
  | 0x2F => rvAtomic i rd f3 rs1 rs2
  | 0x73 => rvSystem i rd f3 rs1
  | _ => .illegal

/-! ## The 16-bit formats -/

/-- A constant operand of a number. -/
def immN (n : Nat) : RvSrc := .imm (BitVec.ofNat 64 n)

/-- Quadrant 0. -/
def rvC0 (i f3 : Nat) : RvOp :=
  let r1 := 8 + bitsOf i 9 7
  let r2 := 8 + bitsOf i 4 2
  let w := BitVec.ofNat 64 (bitsOf i 12 10 * 8 + bitsOf i 6 6 * 4 + bitsOf i 5 5 * 64)
  let d := BitVec.ofNat 64 (bitsOf i 12 10 * 8 + bitsOf i 6 5 * 64)
  match f3 with
  | 0 =>
    let n := bitsOf i 12 11 * 16 + bitsOf i 10 7 * 64 + bitsOf i 6 6 * 4 + bitsOf i 5 5 * 8
    if n = 0 then .illegal else .alu false .add r2 2 (immN n)
  | 2 => .load 4 true r2 r1 w
  | 3 => .load 8 true r2 r1 d
  | 6 => .store 4 r1 r2 w
  | 7 => .store 8 r1 r2 d
  | _ => .illegal

/-- Quadrant 1, the arithmetic on x8 to x15. -/
def rvC1Alu (i : Nat) (imm : Word) : RvOp :=
  let r := 8 + bitsOf i 9 7
  let r2 : RvSrc := .reg (8 + bitsOf i 4 2)
  let sh := immN (bitsOf i 12 12 * 32 + bitsOf i 6 2)
  match bitsOf i 11 10 with
  | 0 => .alu false .srl r r sh
  | 1 => .alu false .sra r r sh
  | 2 => .alu false .and r r (.imm imm)
  | _ => match bitsOf i 12 12 * 4 + bitsOf i 6 5 with
    | 0 => .alu false .sub r r r2
    | 1 => .alu false .xor r r r2
    | 2 => .alu false .or r r r2
    | 3 => .alu false .and r r r2
    | 4 => .alu true .sub r r r2
    | 5 => .alu true .add r r r2
    | _ => .illegal

/-- Quadrant 1. -/
def rvC1 (i f3 : Nat) : RvOp :=
  let rd := bitsOf i 11 7
  let imm := sx 6 (bitsOf i 12 12 * 32 + bitsOf i 6 2)
  let b := sx 9 (bitsOf i 12 12 * 256 + bitsOf i 11 10 * 8 + bitsOf i 6 5 * 64 + bitsOf i 4 3 * 2 + bitsOf i 2 2 * 32)
  match f3 with
  | 0 => .alu false .add rd rd (.imm imm)
  | 1 => if rd = 0 then .illegal else .alu true .add rd rd (.imm imm)
  | 2 => .alu false .add rd 0 (.imm imm)
  | 3 =>
    if imm = 0 then .illegal
    else if rd = 2 then
      .alu false .add 2 2 (.imm (sx 10 (bitsOf i 12 12 * 512 + bitsOf i 6 6 * 16 + bitsOf i 5 5 * 64 + bitsOf i 4 3 * 128 +
        bitsOf i 2 2 * 32)))
    else .lui rd (sx 18 (bitsOf i 12 12 * 2 ^ 17 + bitsOf i 6 2 * 2 ^ 12))
  | 4 => rvC1Alu i imm
  | 5 => .jal 0 (sx 12 (bitsOf i 12 12 * 2048 + bitsOf i 11 11 * 16 + bitsOf i 10 9 * 256 + bitsOf i 8 8 * 1024 +
      bitsOf i 7 7 * 64 + bitsOf i 6 6 * 128 + bitsOf i 5 3 * 2 + bitsOf i 2 2 * 32))
  | 6 => .branch .eq (8 + bitsOf i 9 7) 0 b
  | _ => .branch .ne (8 + bitsOf i 9 7) 0 b

/-- Quadrant 2. -/
def rvC2 (i f3 : Nat) : RvOp :=
  let rd := bitsOf i 11 7
  let r2 := bitsOf i 6 2
  let top := bitsOf i 12 12
  match f3 with
  | 0 => .alu false .sll rd rd (immN (top * 32 + r2))
  | 2 => if rd = 0 then .illegal
         else .load 4 true rd 2 (BitVec.ofNat 64 (top * 32 + bitsOf i 6 4 * 4 + bitsOf i 3 2 * 64))
  | 3 => if rd = 0 then .illegal
         else .load 8 true rd 2 (BitVec.ofNat 64 (top * 32 + bitsOf i 6 5 * 8 + bitsOf i 4 2 * 64))
  | 4 =>
    if top = 0 then
      (if r2 = 0 then (if rd = 0 then .illegal else .jalr 0 rd 0) else .alu false .add rd 0 (.reg r2))
    else if r2 = 0 then (if rd = 0 then .ebreak else .jalr 1 rd 0)
    else .alu false .add rd rd (.reg r2)
  | 6 => .store 4 2 r2 (BitVec.ofNat 64 (bitsOf i 12 9 * 4 + bitsOf i 8 7 * 64))
  | 7 => .store 8 2 r2 (BitVec.ofNat 64 (bitsOf i 12 10 * 8 + bitsOf i 9 7 * 64))
  | _ => .illegal

/-- A 16-bit instruction. -/
def rvDecode16 (i : Nat) : RvOp :=
  match i % 4 with
  | 0 => rvC0 i (bitsOf i 15 13)
  | 1 => rvC1 i (bitsOf i 15 13)
  | _ => rvC2 i (bitsOf i 15 13)

/-! ## Arithmetic -/

/-- The low half of a word with its sign extended. -/
def sextW (x : Word) : Word := (x.setWidth 32).signExtend 64

/-- Arithmetic on 64 bits. -/
def alu64 (k : RvAlu) (x y : Word) : Word :=
  match k with
  | .add => x + y
  | .sub => x - y
  | .sll => x <<< (y.toNat % 64)
  | .slt => if x.slt y then 1 else 0
  | .sltu => if x.ult y then 1 else 0
  | .xor => x ^^^ y
  | .srl => x >>> (y.toNat % 64)
  | .sra => x.sshiftRight (y.toNat % 64)
  | .or => x ||| y
  | .and => x &&& y

/-- Arithmetic of the 32-bit forms. -/
def alu32 (k : RvAlu) (x y : Word) : Word :=
  let a : BitVec 32 := x.setWidth 32
  match k with
  | .sll => (a <<< (y.toNat % 32)).signExtend 64
  | .srl => (a >>> (y.toNat % 32)).signExtend 64
  | .sra => (a.sshiftRight (y.toNat % 32)).signExtend 64
  | k => sextW (alu64 k x y)

/-- Multiplication and division of integers of `w` bits: a division by zero gives all ones and the dividend as its rest, and one
that overflows wraps. -/
def mulInt (w : Nat) (k : RvMul) (x y : BitVec w) : Int :=
  let h (n : Int) : Int := n / (2 ^ w : Nat)
  match k with
  | .mul => x.toInt * y.toInt
  | .mulh => h (x.toInt * y.toInt)
  | .mulhsu => h (x.toInt * y.toNat)
  | .mulhu => h ((x.toNat * y.toNat : Nat) : Int)
  | .div => if y = 0 then -1 else x.toInt.tdiv y.toInt
  | .divu => if y = 0 then -1 else ((x.toNat / y.toNat : Nat) : Int)
  | .rem => if y = 0 then x.toInt else x.toInt.tmod y.toInt
  | .remu => if y = 0 then x.toInt else ((x.toNat % y.toNat : Nat) : Int)

/-- Multiplication and division. -/
def mulRv (w : Bool) (k : RvMul) (x y : Word) : Word :=
  if w then (BitVec.ofInt 32 (mulInt 32 k (x.setWidth 32) (y.setWidth 32))).signExtend 64
  else BitVec.ofInt 64 (mulInt 64 k x y)

/-- Whether a branch is taken. -/
def condMet (k : RvCond) (x y : Word) : Bool :=
  match k with
  | .eq => x == y
  | .ne => x != y
  | .lt => x.slt y
  | .ge => !x.slt y
  | .ltu => x.ult y
  | .geu => !x.ult y

/-- A value of `n` bytes as a load puts it into a register. -/
def loadExt (n : Nat) (signed : Bool) (v : Nat) : Word := if signed then sx (8 * n) v else BitVec.ofNat 64 (v % 2 ^ (8 * n))

/-- The new value of a word of `n` bytes under an atomic operation. -/
def amoApply (k : RvAmo) (n : Nat) (old x : Nat) : Nat :=
  let a := loadExt n true old
  let b := loadExt n true x
  let ua := loadExt n false old
  let ub := loadExt n false x
  let r : Word :=
    match k with
    | .swap => b
    | .add => a + b
    | .xor => a ^^^ b
    | .and => a &&& b
    | .or => a ||| b
    | .min => if b.slt a then b else a
    | .max => if a.slt b then b else a
    | .minu => if ub.ult ua then ub else ua
    | .maxu => if ua.ult ub then ub else ua
  r.toNat % 2 ^ (8 * n)

/-- What a CSR access leaves in the CSR. -/
def csrNew (k : RvCsr) (old x : Word) : Word :=
  match k with
  | .rw => x
  | .rs => old ||| x
  | .rc => old &&& ~~~x

end Sys2Proof.Machine
end

