-- ==== Sys2Proof/Machine/Spd.lean ====
section
/-!
DEFINITION. The scratchpad: its banks, port A and port B accesses (R339 to R344, R380).
-/
set_option Elab.async false
namespace Sys2Proof.Machine

/-- The size of the scratchpad. -/
def spdSize : Nat := 64 * 2 ^ 20

/-- What a port access finds at a bank. -/
inductive SpdAnswer where
  | ok | busy | retired
  deriving DecidableEq, Repr

/-- The banks that a byte range touches. -/
def spdBanks (off len : Nat) : List Nat :=
  if len = 0 then [] else (List.range 64).filter fun b => off / 2 ^ 20 ≤ b && b ≤ (off + len - 1) / 2 ^ 20

/-- The escalated march tests the slice of this bank that the range touches (R378). -/
def State.sliceHit (s : State) (b off len : Nat) : Bool :=
  match SMap.find? s.spd.slices b with
  | some k =>
    let lo := b * 2 ^ 20 + k % 8 * 2 ^ 17
    off < lo + 2 ^ 17 && lo < off + len
  | none => false

/-- What an access finds at bank `b` (R344, R345, R378, R380). -/
def State.spdBank (s : State) (b off len : Nat) : SpdAnswer :=
  let st := s.fld SPD_BANK_CTL.state 0 b
  if st = 4 then .retired
  else if s.sliceHit b off len then .busy
  else if st = 3 then .busy
  else if st = 1 ∨ st = 2 then (if s.flag SPD_BANK_CTL.auto_wake 0 b then .ok else .busy)
  else .ok

/-- The access wakes a bank in retention under auto_wake: retain clears and the bank wakes (R344). -/
def State.spdWake (s : State) (b : Nat) : State :=
  if s.fld SPD_BANK_CTL.state 0 b = 1 && s.flag SPD_BANK_CTL.auto_wake 0 b then
    (s.setFlag SPD_BANK_CTL.retain 0 b false).setFld SPD_BANK_CTL.state 0 b 2
  else s

/-- The answer to an access of a range: the worst of its banks. -/
def State.spdCheck (s : State) (off len : Nat) : SpdAnswer :=
  let rs := (spdBanks off len).map fun b => s.spdBank b off len
  if rs.contains .retired then .retired else if rs.contains .busy then .busy else .ok

/-- Wake every bank that an accepted access touches. -/
def State.spdTouch (s : State) (off len : Nat) : State := (spdBanks off len).foldl State.spdWake s

/-- A byte of the scratchpad as a reader sees it: an uncorrectable word reads all ones (R339). -/
def State.spdByte (s : State) (a : Nat) : Byte := if s.spd.bad.contains (a / 8) then 0xFF else s.spdMem.byte a

/-- Bytes of the scratchpad. -/
def State.spdBytes (s : State) (off len : Nat) : List Byte := (List.range len).map fun i => s.spdByte (off + i)

/-- Store bytes; a rewritten word is good again. -/
def State.spdStore (s : State) (off : Nat) (bs : List Byte) : State :=
  { s with
    spdMem := s.spdMem.write off bs
    spd := { s.spd with bad := s.spd.bad.filter fun w => !(off ≤ 8 * w && 8 * w + 8 ≤ off + bs.length) } }

/-- A BAR4 access received BUSY (R342). -/
def State.spdBusyHost (s : State) (p : Nat) : State :=
  s.setFld SPD_STATUS.busy_host 0 0 (s.fld SPD_STATUS.busy_host 0 0 ||| 2 ^ p)

/-- A collision of word `a / 8` (R341): kind 0 write and write, 1 read and write. -/
def State.spdCollision (s : State) (a kind : Nat) : State :=
  let s := s.bump SPD_COLLISION_COUNT.count 0 0
  let s := s.setReg ⟨.SPD_COLLISION_LAST, 0, 0⟩ (BitVec.ofNat 64 (kind * 2 ^ 32 + a / 8 % 2 ^ 23 * 8))
  (s.fault 12 (4 * (a / 2 ^ 20) + 3) (a / 2 ^ 20)).pmcEv 12 3 (a / 2 ^ 20) 0 1

end Sys2Proof.Machine
end

