-- ==== Sys2Proof/Machine/Xlt.lean ====
section
/-!
DEFINITION. XLT: windows and their commits, admission checks, translation, the loader, and fabric memory
(R114, R118 to R133).
-/
set_option Elab.async false
namespace Sys2Proof.Machine

/-! ## Windows (R118, R119, R121, R122) -/

/-- A window-table entry. -/
def State.win (s : State) (e : Nat) : WinEntry := SMap.getD (fun _ => .init) s.xlt.wins e

/-- Write a window-table entry. -/
def State.setWin (s : State) (e : Nat) (v : WinEntry) : State :=
  { s with xlt := { s.xlt with wins := SMap.put (fun _ => .init) s.xlt.wins e v } }

/-- One of the two images; `true` names image 1. -/
def WinEntry.image (v : WinEntry) (one : Bool) : WinImage := if one then v.img1 else v.img0

/-- The operations pinned to an image. -/
def WinEntry.pins (v : WinEntry) (one : Bool) : Nat := if one then v.pins1 else v.pins0

/-- An image from its 24 bytes (R118). -/
def imageOf (n : Nat) : WinImage where
  enable := bitOf n 0
  read := bitOf n 1
  write := bitOf n 2
  atomic := bitOf n 3
  keyGen := bitOf n 4
  kind := bitsOf n 15 8
  key := bitsOf n 31 16
  base := bitsOf n 127 64
  length := bitsOf n 175 128

/-- An image as its 24 bytes. -/
def WinImage.bits (v : WinImage) : BitVec 192 :=
  BitVec.ofNat 192 (b2n v.enable + 2 * b2n v.read + 4 * b2n v.write + 8 * b2n v.atomic + 16 * b2n v.keyGen +
    v.kind * 2 ^ 8 + v.key * 2 ^ 16 + v.base * 2 ^ 64 + v.length * 2 ^ 128)

/-- The reserved bits of an image are zero (R118). -/
def imageReservedOk (n : Nat) : Bool :=
  bitsOf n 7 5 == 0 && bitsOf n 63 32 == 0 && bitsOf n 66 64 == 0 && bitsOf n 191 176 == 0

/-- The effective key of an image under a generation (R118). -/
def WinImage.effKey (v : WinImage) (gen : Nat) : Nat := if v.keyGen then (v.key + gen) % 2 ^ 16 else v.key

/-- The fabric-memory size (R131), smaller by 1,152 MiB for each retired pseudo-channel (R379). -/
def State.fmemSize (s : State) : Nat :=
  (144 - s.fld XLT_FMEM_CFG.reserved_gib 0 0) * 2 ^ 30 - s.pwr.gone.length * 1152 * 2 ^ 20

/-- Check 8 of R119: an image of kind 1 or 2 lies within its memory. -/
def State.imageFits (s : State) (v : WinImage) : Bool :=
  match v.kind with
  | 1 => v.base + v.length ≤ spdSize
  | 2 => v.base + v.length ≤ s.fmemSize
  | _ => true

/-- The three staged words as one number. -/
def State.winStage (s : State) : Nat :=
  (List.range 3).foldl (fun a k => a + (s.reg ⟨.XLT_WIN_STAGE, 0, k⟩).toNat * 2 ^ (64 * k)) 0

/-- The WINDOW record of an entry (R396); a pending image stands in the inactive place. -/
def State.winRecord (s : State) (e : Nat) : JRec :=
  let v := s.win e
  let im (k : Bool) : WinImage :=
    let own := if k then v.img1 else v.img0
    if k = v.active then own else v.queued.getD own
  .window e v.gen v.active v.queued.isSome (im false).bits (im true).bits

/-- Apply a commit: the image takes the inactive place, which becomes active; the generation goes up; LOG and RSV hear of
it (R121, R122, R434). -/
def State.applyCommit (s : State) (m e : Nat) (img : WinImage) : State :=
  let v := s.win e
  let old := BitVec.ofNat 64 (v.gen + b2n v.active * 2 ^ 16)
  let gen := (v.gen + 1) % 2 ^ 16
  let v' : WinEntry :=
    { v with
      img0 := if v.active then img else v.img0
      img1 := if v.active then v.img1 else img
      active := !v.active
      gen := gen
      queued := none }
  let s := (s.setWin e v').logTable m 3 e old (BitVec.ofNat 64 (gen + b2n v'.active * 2 ^ 16))
  s.report (s.winRecord e)

/-- Commits pending in the queue (R122). -/
def State.pendingCommits (s : State) : Nat := (s.xlt.wins.filter fun e => e.2.queued.isSome).length

/-- The result code of a commit to entry `e` by master `m` (R121, R123). -/
def State.commitResult (s : State) (m e : Nat) : Nat :=
  let v := s.win e
  let n := s.winStage
  let img := imageOf n
  if m ≠ s.fld XLT_WIN_RESULT.stager 0 0 then 4
  else if v.queued.isSome then 2
  else if !imageReservedOk n || 2 < img.kind || !s.imageFits img then 5
  else if v.pins (!v.active) = 0 then 0
  else if 64 ≤ s.pendingCommits then 3
  else 1

/-- A commit (R121): applied, pending or refused. -/
def State.commit (s : State) (m e : Nat) : State :=
  let r := s.commitResult m e
  let s := s.setFld XLT_WIN_RESULT.result 0 0 r
  match r with
  | 0 => s.applyCommit m e (imageOf s.winStage)
  | 1 =>
    let s := s.setWin e { s.win e with queued := some (imageOf s.winStage) }
    s.report (s.winRecord e)
  | _ => s

/-- The operations an admission check distinguishes. -/
inductive WinOp where
  | put | get
  /-- An ATOMIC, of operand size `size`; `host` when it has a PCIe AtomicOp and its function may send one (R187). -/
  | atomic (size : Nat) (host : Bool)
  deriving DecidableEq, Repr

/-- The checks of R119 in order: the first refusal. -/
def State.windowRefusal (s : State) (c w key : Nat) (op : WinOp) (off len : Nat) : Option (Nat × Nat) :=
  let r := s.ctx c
  let v := s.win (r.winBase + w)
  let a := v.image v.active
  let b := v.image (!v.active)
  let perm := match op with
    | .put => a.write
    | .get => a.read
    | .atomic _ _ => a.atomic
  let hostOk := match op with
    | .atomic _ host => a.kind != 0 || host
    | _ => true
  let aligned := match op with
    | .atomic size _ => off % size == 0
    | _ => true
  if r.phase ≠ .opened then some (0x12, 0x01)
  else if r.winCount ≤ w then some (0x12, 0x02)
  else if !a.enable then some (0x12, 0x03)
  else if key ≠ a.effKey v.gen then
    some (0x12, if key = b.effKey ((v.gen + 2 ^ 16 - 1) % 2 ^ 16) then 0x05 else 0x04)
  else if !perm then some (0x12, 0x06)
  else if !hostOk then some (0x12, 0x0A)
  else if a.length < off + len then some (0x13, 0x01)
  else if !aligned then some (0x13, 0x07)
  else if !s.imageFits a then some (0x13, 0x06)
  else none

/-- Pin an operation to an image. -/
def State.pinImage (s : State) (e : Nat) (one : Bool) : State :=
  let v := s.win e
  s.setWin e (if one then { v with pins1 := v.pins1 + 1 } else { v with pins0 := v.pins0 + 1 })

/-- Release a pin. -/
def State.unpin (s : State) (e : Nat) (one : Bool) : State :=
  let v := s.win e
  s.setWin e (if one then { v with pins1 := v.pins1 - 1 } else { v with pins0 := v.pins0 - 1 })

/-! ## Places and translation (R124, R125) -/

/-- Where a byte range lies: host bus address of a function, scratchpad offset or fabric-memory offset. -/
inductive Place where
  | host (p fn addr : Nat)
  | spd (off : Nat)
  | fmem (off : Nat)
  deriving DecidableEq, Repr

/-- The address that a place has in its own space. -/
def Place.addr : Place → Nat
  | .host _ _ a => a
  | .spd o => o
  | .fmem o => o

/-- The page shift of a context (R124). -/
def pgShift (code : Nat) : Nat :=
  match code with
  | 0 => 12
  | 1 => 16
  | 2 => 21
  | _ => 30

/-- A translation-table entry. -/
def State.xltEntry (s : State) (i : Nat) : Word := SMap.getD (fun _ => (0 : Word)) s.xlt.table i

/-- Write a translation-table entry. -/
def State.setXltEntry (s : State) (i : Nat) (w : Word) : State :=
  { s with xlt := { s.xlt with table := SMap.put (fun _ => (0 : Word)) s.xlt.table i w } }

/-- A range lies within the scratchpad or fabric memory (R124). -/
def State.placeFits (s : State) (p : Place) (len : Nat) : Bool :=
  match p with
  | .host .. => true
  | .spd o => o + len ≤ spdSize
  | .fmem o => o + len ≤ s.fmemSize

/-- Translate one address of a context for an access that stays in its page: the place, or the BOUNDS detail. -/
def State.translate (s : State) (c va len : Nat) (write : Bool) : Except Nat Place :=
  let r := s.ctx c
  let sh := pgShift r.pgCode
  let page := (va - r.vaBase) / 2 ^ sh
  let e := (s.xltEntry (r.xltBase + page)).toNat
  let frame := bitsOf e 63 12
  let addr := (frame * 2 ^ 12 + va % 2 ^ sh) % 2 ^ 64
  if va < r.vaBase ∨ r.xltCount ≤ page then .error 0x02
  else if !bitOf e 0 || frame % 2 ^ (sh - 12) != 0 then .error 0x03
  else if write && !bitOf e 1 then .error 0x04
  else
    let p? : Option Place := match bitsOf e 11 10 with
      | 0 => some (.host r.port r.func addr)
      | 1 => some (.fmem addr)
      | 2 => some (.spd addr)
      | _ => none
    match p? with
    | none => .error 0x05
    | some p => if s.placeFits p len then .ok p else .error 0x06

/-- Translate a range of a context, split at page boundaries (R124); at most `fuel` pages. -/
def State.translateRange (s : State) (c : Nat) (write : Bool) : Nat → Nat → Nat → Except Nat (List (Place × Nat))
  | 0, _, _ => .ok []
  | fuel + 1, va, len =>
    if len = 0 then .ok []
    else
      let size := 2 ^ pgShift (s.ctx c).pgCode
      let n := min len (size - va % size)
      match s.translate c va n write with
      | .error d => .error d
      | .ok p =>
        match s.translateRange c write fuel (va + n) (len - n) with
        | .error d => .error d
        | .ok ps => .ok ((p, n) :: ps)

/-- The places of a byte range named by a kind (0 context-virtual, 1 scratchpad, 2 fabric memory) and an address: no
place for no bytes (R124). -/
def State.places (s : State) (c kind addr len : Nat) (write : Bool) : Except Nat (List (Place × Nat)) :=
  if len = 0 then .ok []
  else match kind with
    | 0 => s.translateRange c write (len / 4096 + 2) addr len
    | 1 => if addr + len ≤ spdSize then .ok [(.spd addr, len)] else .error 0x06
    | _ => if addr + len ≤ s.fmemSize then .ok [(.fmem addr, len)] else .error 0x06

/-! ## The translations kept on chip (R129) -/

/-- One translation through an entry of the table: a hit, or a miss that brings the entry on chip, where the least recently used
of 32,768 leaves (R129, R445; log entry 123). -/
def State.xltTouch (s : State) (i : Nat) : State :=
  let hit := s.xlt.cache.contains i
  ({ s with xlt := { s.xlt with
      cache := (i :: s.xlt.cache.filter (· != i)).take 32768 } }).pmcEv 4 (if hit then 1 else 2) 0 0 1

/-- The entries that translate a range of a context, in its slice of the table. -/
def State.xltIndices (s : State) (c va len : Nat) : List Nat :=
  let r := s.ctx c
  let size := 2 ^ pgShift r.pgCode
  let page (a : Nat) : Nat := (a - r.vaBase) / size
  if len = 0 ∨ va < r.vaBase ∨ r.xltCount ≤ page va then []
  else
    let n := min (page (va + len - 1)) (r.xltCount - 1) - page va + 1
    (List.range n).map fun k => r.xltBase + page va + k

/-- An access to a byte range, as `places` names it, is translated. -/
def State.xltUse (s : State) (c kind addr len : Nat) : State :=
  if kind = 0 then (s.xltIndices c addr len).foldl State.xltTouch s else s

/-! ## Fabric memory and places -/

/-- The HBM address of a fabric-memory offset (R131). -/
def State.hbmAddr (s : State) (off : Nat) : Nat := s.fld XLT_FMEM_CFG.reserved_gib 0 0 * 2 ^ 30 + off

/-- The address of an access as a packet's record shows it (R451): bus address, scratchpad offset or HBM address. -/
def State.accessAddr (s : State) (ps : List (Place × Nat)) : Nat :=
  match ps with
  | (.fmem o, _) :: _ => s.hbmAddr o
  | (p, _) :: _ => p.addr
  | [] => 0

/-- The first place of a descriptor's local buffer, where it has one (R451). -/
def State.localAddr (s : State) (c : Nat) (d : Descriptor) : Nat :=
  let op := dOpcode d
  let ps := if op = 3 then (if dAddr d = 0 then .ok [] else s.places c 0 (dAddr d) 8 true)
    else if (op = 1 ∨ op = 2 ∨ op = 4) ∧ dKind d ≠ 3 then s.places c (dKind d) (dAddr d) (dLength d) (op == 2)
    else .ok []
  match ps with
  | .ok ((p, _) :: _) => p.addr
  | _ => 0

/-- The pseudo-channel of an HBM address: 256-byte interleave over 128. -/
def hbmChannel (a : Nat) : Nat := a / 256 % 128

/-- Some word of an HBM range reads uncorrectable (R385). -/
def State.hbmBad (s : State) (a len : Nat) : Bool :=
  s.pwr.hbmBad.any fun w => a < 8 * w + 8 && 8 * w < a + len

/-- The words of an HBM range that are written whole are good again. -/
def State.hbmMend (s : State) (a len : Nat) : State :=
  { s with pwr := { s.pwr with
      hbmBad := s.pwr.hbmBad.filter fun w => !(a ≤ 8 * w && 8 * w + 8 ≤ a + len) } }

/-- Store to fabric memory. -/
def State.fmemStore (s : State) (off : Nat) (bs : List Byte) : State :=
  let a := s.hbmAddr off
  (({ s with fmem := s.fmem.write off bs }).hbmMend a bs.length).pmcEv 19 2 (hbmChannel a) 0 bs.length

/-- Why an access to a place is refused: the scratchpad's answers and an uncorrectable word (R380, R385). -/
inductive PlaceFail where
  | busy | retired | uncorrectable
  deriving DecidableEq, Repr

/-- What stands in the way of an access. -/
def State.placeCheck (s : State) (p : Place) (len : Nat) (write : Bool) : Option PlaceFail :=
  match p with
  | .host .. => none
  | .spd o => match s.spdCheck o len with
    | .ok => if !write && (s.spd.bad.any fun w => o < 8 * w + 8 && 8 * w < o + len) then some .busy else none
    | .busy => some .busy
    | .retired => some .retired
  | .fmem o => if !write && s.hbmBad (s.hbmAddr o) len then some .uncorrectable else none

/-- The first failure over a list of places. -/
def State.placesCheck (s : State) (ps : List (Place × Nat)) (write : Bool) : Option PlaceFail :=
  ps.findSome? fun (p, n) => s.placeCheck p n write

/-- Write bytes to a place that passed its check. -/
def State.placeWrite (s : State) (p : Place) (bs : List Byte) : State :=
  match p with
  | .host q f a => s.hostWrite q f a bs
  | .spd o => ((s.spdTouch o bs.length).spdStore o bs).pmcEv 12 1 (o / 2 ^ 20) 0 1
  | .fmem o => s.fmemStore o bs

/-- Write bytes over a list of places in order. -/
def State.placesWrite (s : State) : List (Place × Nat) → List Byte → State
  | [], _ => s
  | (p, n) :: ps, bs => (s.placeWrite p (bs.take n)).placesWrite ps (bs.drop n)

/-- Read the bytes of a place on chip or in HBM; a host place has none to give at once. -/
def State.placeBytes (s : State) (p : Place) (n : Nat) : Option (List Byte) :=
  match p with
  | .host .. => none
  | .spd o => some (s.spdBytes o n)
  | .fmem o => some (s.fmem.read o n)

/-- The counts and wakes of a read of a place. -/
def State.placeTouch (s : State) (p : Place) (n : Nat) : State :=
  match p with
  | .host .. => s
  | .spd o => (s.spdTouch o n).pmcEv 12 1 (o / 2 ^ 20) 0 1
  | .fmem o => s.pmcEv 19 1 (hbmChannel (s.hbmAddr o)) 0 n

/-- The pages of a range of a context, each with its place where its translation is not refused; at most `fuel`. -/
def State.pageList (s : State) (c : Nat) (write : Bool) : Nat → Nat → Nat → List (Option Place × Nat)
  | 0, _, _ => []
  | fuel + 1, va, len =>
    if len = 0 then []
    else
      let size := 2 ^ pgShift (s.ctx c).pgCode
      let n := min len (size - va % size)
      ((match s.translate c va n write with | .ok p => some p | .error _ => none), n) ::
        s.pageList c write fuel (va + n) (len - n)

/-- The pages of a byte range named by a kind and an address. -/
def State.pages (s : State) (c kind addr len : Nat) (write : Bool) : List (Option Place × Nat) :=
  if kind = 0 then s.pageList c write (len / 4096 + 2) addr len
  else match s.places c kind addr len write with
    | .ok ps => ps.map fun (p, n) => (some p, n)
    | .error _ => [(none, len)]

/-- The pages of a write that a bank keeps waiting. -/
def State.pagesBusy (s : State) (ps : List (Option Place × Nat)) : Bool :=
  ps.any fun (p, n) => match p with
    | some p => s.placeCheck p n true == some .busy
    | none => false

/-- Write bytes page by page: a refused page gets nothing, and counts as source `src` of XLT's window (R148, R153, R196);
nothing goes to the host when `mute` (R61); a place that cannot be written gets nothing. -/
def State.writeEach (s : State) (src : Option Nat) (mute : Bool) : List (Option Place × Nat) → List Byte → State
  | [], _ => s
  | (none, n) :: ps, bs =>
    (match src with | some k => s.fault 4 k 0 | none => s).writeEach src mute ps (bs.drop n)
  | (some p, n) :: ps, bs =>
    let host := match p with | .host .. => true | _ => false
    let s := if (mute && host) || (s.placeCheck p n true).isSome then s else s.placeWrite p (bs.take n)
    s.writeEach src mute ps (bs.drop n)

/-! ## Host reads: gathers -/

/-- Issue a host read that serves a chunk of a gather. -/
def State.issueRead (s : State) (p fn addr len gather chunk : Nat) : State :=
  let (t, s) := s.takeTag
  let s := s.emit (.memRead p fn t addr len)
  { s with hif := { s.hif with reads := SMap.insert s.hif.reads t ⟨p, fn, gather, chunk, len, false⟩ } }

/-- The functions that would issue the reads of a gather are in no reset (R59, step 4). -/
def State.mayRead (s : State) (ps : List (Place × Nat)) : Bool :=
  ps.all fun e => match e.1 with
    | .host q f _ => !(s.fn q f).flr
    | _ => true

/-- Start to gather the bytes of a list of places for a use: host places are read, the rest is taken at once. Answers the
gather's number. Nothing is read for a function that is being reset. -/
def State.gather (s : State) (ps : List (Place × Nat)) (u : GatherUse) : Nat × State :=
  if !s.mayRead ps then (0, s)
  else
  let (g, s) := s.takeTag
  let s := ps.foldl (fun s e => s.placeTouch e.1 e.2) s
  let chunks := ps.map fun (p, n) => s.placeBytes p n
  let s := { s with hif := { s.hif with gathers := SMap.insert s.hif.gathers g ⟨u, chunks⟩ } }
  let s := ((List.range ps.length).zip ps).foldl (fun s (k, (p, n)) =>
    match p with
    | .host q f a => s.issueRead q f a n g k
    | _ => s) s
  (g, s)

/-- The bytes of a gather, once every chunk is there. -/
def Gather.bytes (g : Gather) : Option (List Byte) :=
  g.chunks.foldr (fun c acc => match c, acc with
    | some b, some bs => some (b ++ bs)
    | _, _ => none) (some [])

/-- Remove a gather. -/
def State.dropGather (s : State) (g : Nat) : State :=
  { s with hif := { s.hif with gathers := SMap.erase s.hif.gathers g } }

/-! ## The loader (R127) -/

/-- A translation entry is written, its reserved bits reading zero (R125), and leaves the chip (R126); the change log and RSV hear
of it. -/
def State.writeXlt (s : State) (m i : Nat) (w : Word) : State :=
  let w := w &&& 0xFFFFFFFFFFFFFE0F
  let old := s.xltEntry i
  let s : State := { s with xlt := { s.xlt with cache := s.xlt.cache.filter (· != i) } }
  let s := (s.setXltEntry i w).logTable m 1 i old w
  s.report (.xlt i [w])

/-- The loader reads its next source entry. -/
def State.loaderRead (s : State) : State :=
  let l := s.xlt.loader
  let (t, s) := s.takeOther l.port 0 .loader
  s.emit (.memRead l.port 0 t (l.addr + 8 * s.fld XLT_LOAD_STATUS.loaded 0 0) 8)

/-- The loader stops with a state: 2 done, 3 failed. -/
def State.loaderEnd (s : State) (st : Nat) : State :=
  let s := s.dropOther .loader
  ({ s with xlt := { s.xlt with loader := { s.xlt.loader with running := false } } }).setFld XLT_LOAD_STATUS.state 0 0 st

/-- The loader starts with the fields of XLT_LOAD_CTL and XLT_LOAD_ADDR. -/
def State.loaderStart (s : State) : State :=
  let first := s.fld XLT_LOAD_CTL.first 0 0
  let count := s.fld XLT_LOAD_CTL.count 0 0
  let s := { s with xlt := { s.xlt with
    loader := ⟨true, s.fld XLT_LOAD_CTL.port 0 0, s.fld XLT_LOAD_ADDR.addr 0 0 * 8, first, count⟩ } }
  let s := (s.setFld XLT_LOAD_STATUS.state 0 0 1).setFld XLT_LOAD_STATUS.loaded 0 0 0
  if count = 0 ∨ 2 ^ 24 < first + count then s.loaderEnd 3 else s.loaderRead

/-- The master whose name the loader's records carry: the physical function of its port. -/
def State.loaderMaster (s : State) : Nat := mHost s.xlt.loader.port 0

/-- A source entry returns to the running loader, or its read fails. -/
def State.loaderEntry (s : State) (e : Option Word) : State :=
  let l := s.xlt.loader
  if !l.running || s.logFull || s.rsvHeld then s
  else
  let s := s.dropOther .loader
  match e with
    | none => s.loaderEnd 3
    | some w =>
      let n := s.fld XLT_LOAD_STATUS.loaded 0 0
      let s := (s.writeXlt s.loaderMaster (l.first + n) w).setFld XLT_LOAD_STATUS.loaded 0 0 (n + 1)
      if n + 1 = l.count then s.loaderEnd 2 else s.loaderRead

end Sys2Proof.Machine
end

