-- ==== Sys2Proof/Machine/Hdl.lean ====
section
/-!
DEFINITION. HDL: cores, invocations and their stops, triggers, the TLBs and their refill (R321 to R338, R381).
-/
set_option Elab.async false
namespace Sys2Proof.Machine

/-! ## Cores (R322, R352) -/

/-- A core. -/
def State.core (s : State) (c : Nat) : HCore := SMap.getD (fun _ => .init) s.hdl.cores c

/-- Write a core. -/
def State.setCore (s : State) (c : Nat) (v : HCore) : State :=
  { s with hdl := { s.hdl with cores := SMap.put (fun _ => .init) s.hdl.cores c v } }

/-- HDL_CORE_STATUS.state: 0 reset, 1 idle, 2 running, 3 firmware, 4 retired. -/
def State.coreSt (s : State) (c : Nat) : Nat := s.fld HDL_CORE_STATUS.state c 0

/-- The number of firmware cores (R352). -/
def State.fwCores (s : State) : Nat := max 1 (min 32 (s.fld HDL_CFG.fw_cores 0 0))

/-- A firmware core by its number. -/
def State.isFw (s : State) (c : Nat) : Bool := 64 - s.fwCores ≤ c

/-- A live user core (R381). -/
def State.userCore (s : State) (c : Nat) : Bool := !s.isFw c && (s.coreSt c == 1 || s.coreSt c == 2)

/-- The cores eligible for a mask: all user cores when it names no live one (R329, R381). -/
def State.eligible (s : State) (mask : Word) : List Nat :=
  let named := (List.range 64).filter fun c => bitOf mask.toNat c && s.userCore c
  if named.isEmpty then (List.range 64).filter s.userCore else named

/-! ## Invocations (R329, R330) -/

/-- An invocation of the trigger runs. -/
def State.trigRuns (s : State) (t : Nat) : Bool := s.hdl.cores.any fun e => e.2.inv.any fun v => v.1 == t

/-- The core that an event may start on now: idle, and not in an interrupt. -/
def State.coreFor (s : State) (e : TrigEv) : Option Nat :=
  if e.cfg.serial && s.trigRuns e.trig then none
  else (s.eligible e.cfg.cores).find? fun c => s.coreSt c == 1 && (s.core c).pc == residentMain

/-- The next event to dispatch: the highest priority, and then the oldest, among those that have a core. -/
def State.nextEvent (s : State) : Option (Nat × TrigEv × Nat) :=
  ((List.range s.hdl.queue.length).zip s.hdl.queue).foldl (fun best (k, e) =>
    match s.coreFor e with
    | none => best
    | some c => match best with
      | none => some (k, e, c)
      | some (k', e', c') =>
        if e'.cfg.prio < e.cfg.prio then some (k, e, c) else some (k', e', c')) none

/-- The registers of a context's slice (R330, R333). -/
def State.loadSlice (s : State) (v : HCore) (c : Nat) : HCore :=
  let r := s.ctx c
  { v with
    hxctx := c
    hxvabase := BitVec.ofNat 64 r.vaBase
    hxslice := BitVec.ofNat 64 (r.pgCode * 2 ^ 49 + r.xltBase * 2 ^ 25 + r.xltCount) }

/-- The integer registers an invocation starts with. -/
def State.startRegs (s : State) (c : Nat) (e : TrigEv) : SMap Word :=
  let w (n : Nat) : Word := BitVec.ofNat 64 n
  [(2, s.reg ⟨.HDL_CORE_SP, c, 0⟩), (10, w (e.trig + e.kind * 2 ^ 12)), (11, w e.a1), (12, w e.a2), (13, w e.a3),
    (14, w e.cfg.arg), (15, w e.time)].filter fun x => x.2 != 0

/-- Start the invocation of an event on a core. -/
def State.invoke (s : State) (c : Nat) (e : TrigEv) : State :=
  let v := s.loadSlice (s.core c) e.owner
  let s := s.setCore c { v with
    inv := some (e.trig, e.owner, s.now), umode := true, pc := BitVec.ofNat 64 e.cfg.pc, x := s.startRegs c e,
    resv := none }
  let s := (s.setFld HDL_CORE_STATUS.state c 0 2).setFld HDL_CORE_STATUS.trigger c 0 e.trig
  s.pmcEv 11 1 c 0 1

/-- Dispatch one event (R329). -/
def State.dispatchEvent (s : State) : State :=
  if s.inSetup 11 || s.frozen then s
  else match s.nextEvent with
    | none => s
    | some (k, e, c) => ({ s with hdl := { s.hdl with queue := s.hdl.queue.eraseIdx k } }).invoke c e

/-- What a load of a core still awaits is dropped. -/
def State.dropCoreReads (s : State) (c : Nat) : State :=
  { s with hif := { s.hif with gathers := s.hif.gathers.filter fun e => e.2.use != .core c } }

/-- The invocation ends; the core is idle. -/
def State.endInv (s : State) (c : Nat) : State :=
  let v := s.core c
  let s := s.setCore c { v with
    inv := none, umode := false, pc := residentMain, hxstat := v.hxstat &&& 0x38, resv := none, wait := none }
  (s.dropCoreReads c).setFld HDL_CORE_STATUS.state c 0 1

/-- An invocation stops (R331): the handler-stop entry, the semaphores, the trigger, and the record of it. -/
def State.stopInv (s : State) (c status detail : Nat) (mtval : Word) : State :=
  let v := s.core c
  match v.inv with
  | none => s
  | some (t, owner, _) =>
    let s := (s.endInv c).disarmTrig t
    let s := (s.setFld HDL_CORE_STATUS.stop_status c 0 status).setFld HDL_CORE_STATUS.stop_detail c 0 detail
    let s := if (s.ctx owner).phase = .closed || (s.ctx owner).byReset then s
      else s.postEntry owner (owner * 2 ^ 44 + t) status detail c mtval.toNat false
    (s.semReset (mCore c)).fault 11 (4 * c + 2) c

/-! ## Registers and loads that wait (R321, R324) -/

/-- An integer register; x0 is zero. -/
def HCore.xr (v : HCore) (r : Nat) : Word := if r = 0 then 0 else SMap.getD (fun _ => 0) v.x r

/-- Write an integer register; x0 discards it. -/
def HCore.setX (v : HCore) (r : Nat) (w : Word) : HCore :=
  if r = 0 then v else { v with x := SMap.put (fun _ => (0 : Word)) v.x r w }

/-- An instruction has been performed: the next one follows. -/
def HCore.retire (v : HCore) (next : Word) : HCore := { v with pc := next, minstret := v.minstret + 1 }

/-- The value that a load waits for has come. -/
def HCore.take (v : HCore) (w : CoreWait) (val : Nat) : HCore :=
  ({ v with wait := none }.setX w.rd (loadExt w.size w.signed val)).retire w.next

/-- A register access of a core has brought its data. -/
def State.coreTake (s : State) (c off val : Nat) : State :=
  match (s.core c).wait with
  | some w => if w.off = some off then s.setCore c ((s.core c).take w val) else s
  | none => s

/-- The host data that a load waits for is there. -/
def State.coreGathered (s : State) (c : Nat) (bs : List Byte) : State :=
  match (s.core c).wait with
  | some w => if w.off = none then s.setCore c ((s.core c).take w (ofLE bs)) else s
  | none => s

/-! ## Traps (R321, R322, R331) -/

/-- A field of mstatus. -/
def HCore.mst (v : HCore) (hi lo : Nat) : Nat := bitsOf v.mstatus.toNat hi lo

/-- A core after a trap: where it was and why, interrupts off, machine mode; the vector is left to the caller. -/
def HCore.trapped (v : HCore) (cause : Nat) (tval : Word) : HCore :=
  { v with
    mepc := v.pc, mcause := cause, mtval := tval, umode := false
    mstatus := BitVec.ofNat 64 (putBits (putBits (putBits v.mstatus.toNat 7 7 (v.mst 3 3)) 3 3 0) 12 11
      (if v.umode then 0 else 3)) }

/-- A core after mret: back where mepc says, in the mode that mstatus kept; a refill has ended (R334). -/
def HCore.returned (v : HCore) : HCore :=
  let user := v.mst 12 11 == 0
  let m := putBits (putBits (putBits v.mstatus.toNat 3 3 (v.mst 7 7)) 7 7 1) 12 11 0
  { v with
    pc := v.mepc, umode := user, hxstat := v.hxstat &&& 0x38
    mstatus := BitVec.ofNat 64 (if user then putBits m 17 17 0 else m) }

/-- The base of mtvec. -/
def HCore.trapBase (v : HCore) : Word := v.mtvec &&& ~~~(3 : Word)

/-- The core is in refill mode (R334). -/
def HCore.refill (v : HCore) : Bool := v.hxstat.getLsbD 0

/-- An exception: in a user handler, or while a refill runs, it stops the invocation (R331); elsewhere the core traps. -/
def State.coreFault (s : State) (c cause : Nat) (tval : Word) : State :=
  let v := s.core c
  let t := v.trapped cause tval
  if v.inv.isSome && (v.umode || v.refill) then (s.setCore c t).stopInv c 0x15 0x93 tval
  else s.setCore c { t with pc := v.trapBase }

/-- The host data that a load waits for will not come: an access fault. -/
def State.coreUnread (s : State) (c : Nat) : State :=
  match (s.core c).wait with
  | some w => if w.off = none then (s.setCore c { s.core c with wait := none }).coreFault c 5 w.va else s
  | none => s

/-! ## The TLBs (R332 to R338) -/

/-- The page that an entry's tag names contains an address. -/
def TlbEntry.hits (e : TlbEntry) (c : Nat) (va : Word) : Bool :=
  e.ctx == c && e.vpn == va.toNat / 2 ^ pgShift e.pg

/-- The page code of a core's slice. -/
def HCore.pgCode (v : HCore) : Nat := bitsOf v.hxslice.toNat 50 49

/-- An entry serves an access of the core: under its context, or, a locked one, in machine mode under every context, so that the
refill routine finds its code and its table (log entry 134). -/
def HCore.serves (v : HCore) (e : TlbEntry) (va : Word) : Bool :=
  e.hits v.hxctx va || (e.locked && !v.umode && e.hits e.ctx va)

/-- The first-level TLB of an access. -/
def HCore.l1 (v : HCore) (fetch : Bool) : List TlbEntry := if fetch then v.itlb else v.dtlb

/-- Look an access up in the first-level TLB of its kind, then in the second level. -/
def HCore.lookup (v : HCore) (va : Word) (fetch : Bool) : Option TlbEntry :=
  ((v.l1 fetch).find? fun e => v.serves e va).or (v.l2.find? fun e => v.serves e va)

/-- Add an entry to a TLB of `size` entries in which `inSet` share its set: an unlocked victim leaves a full set, which
one being free (log entry 7). -/
def tlbAdd (tlb : List TlbEntry) (e : TlbEntry) (size : Nat) (inSet : TlbEntry → Bool) (pick : Nat) : List TlbEntry :=
  let tlb := tlb.filter fun x => x.locked || !(x.ctx == e.ctx && x.vpn == e.vpn && x.pg == e.pg)
  let here := tlb.filter inSet
  let tlb := if size ≤ here.length then
      match (here.filter (!·.locked))[pick % max 1 (here.filter (!·.locked)).length]? with
      | some x => tlb.erase x
      | none => tlb
    else tlb
  tlb ++ [e]

/-- Install an entry: in the first level that missed, and in the second level, whose set is the page number's low bits. -/
def State.tlbInstall (s : State) (c : Nat) (e : TlbEntry) (fetch : Bool) : State :=
  let (p, s) := s.fresh 16
  let v := s.core c
  let k := p.toNat
  let v := if fetch then { v with itlb := tlbAdd v.itlb e 16 (fun _ => true) k }
    else { v with dtlb := tlbAdd v.dtlb e 32 (fun _ => true) k }
  let v := if e.locked then v
    else { v with l2 := tlbAdd v.l2 e 4 (fun x => x.vpn % 256 == e.vpn % 256) (k / 256) }
  s.setCore c v

/-- Trap to the refill vector (R334, R336). -/
def State.refillTrap (s : State) (c : Nat) (va : Word) (acc : Nat) (dirty : Bool) : State :=
  let v := s.core c
  let flags : BitVec 6 := BitVec.ofNat 6 (1 + 2 * b2n (acc == 2) + 4 * b2n (acc == 0) + 8 * b2n dirty)
  (s.setCore c { v.trapped (24 + acc) va with
    pc := v.hxrvec, hxbad := va, hxstat := (v.hxstat &&& 0x38) ||| flags }).pmcEv 11 2 c 0 1

/-- A miss, or a store through a clean entry: the refill trap, or, in refill mode, the double miss (R334). -/
def State.missTrap (s : State) (c : Nat) (va : Word) (acc : Nat) (dirty : Bool) : State :=
  if (s.core c).refill then s.stopInv c 0x16 0x80 va else s.refillTrap c va acc dirty

/-- An access of a core is translated (R332, R334, R336): the entry that serves it, in its first-level TLB from now on, or the
trap. acc is 0 for a fetch, 1 for a load, 2 for a store. -/
def State.coreEntry (s : State) (c : Nat) (va : Word) (acc : Nat) : Option TlbEntry × State :=
  let v := s.core c
  match v.lookup va (acc == 0) with
  | none => (none, s.missTrap c va acc false)
  | some e =>
    if acc = 2 && !bitOf e.entry.toNat 3 then (none, s.missTrap c va acc true)
    else (some e, if (v.l1 (acc == 0)).any fun x => v.serves x va then s else s.tlbInstall c e (acc == 0))

/-- A core executes: a handler or firmware, or, while idle, an interrupt's handler. -/
def State.coreActs (s : State) (c : Nat) : Bool :=
  s.coreSt c == 2 || s.coreSt c == 3 || (s.coreSt c == 1 && (s.core c).pc != residentMain)

/-- TLB_MISS: an access that a core makes is translated. -/
def State.tlbMiss (s : State) (c : Nat) (va : Word) (acc : Nat) : State :=
  if !s.coreActs c || 2 < acc then s else (s.coreEntry c va acc).2

/-- mret out of the refill: the access is retried (R334). -/
def State.refillReturn (s : State) (c : Nat) : State :=
  if (s.core c).refill then s.setCore c (s.core c).returned else s

/-- Why a fill is refused (R335): the status and detail of the stop. -/
def fillRefusal (entry : Word) (pg : Nat) (fetch : Bool) : Option (Nat × Nat) :=
  let e := entry.toNat
  if bitsOf e 11 10 = 3 ∧ (!bitOf e 9 ∨ fetch) then some (0x17, 0x80)
  else if !bitOf e 0 ∨ bitsOf e 63 12 % 2 ^ (pgShift pg - 12) ≠ 0 then some (0x13, 0x83)
  else none

/-- The bits that a fill sets: a, and d for a store miss or a dirty trap (R336). -/
def HCore.adBits (v : HCore) : Word := if v.hxstat.getLsbD 1 || v.hxstat.getLsbD 3 then 0xC else 0x4

/-- A fill waits: it would change the table while RSV takes no report or the change log has no room (R390, R399, R435). -/
def State.fillStall (s : State) (c : Nat) : Bool :=
  let v := s.core c
  !s.flag XLT_AD_MODE.mode 0 0 && s.xltEntry v.hxidx ||| v.adBits != s.xltEntry v.hxidx && (s.rsvHeld || s.logFull)

/-- In mode 0, XLT sets a and d in the table (R336): the entry as the TLB gets it. -/
def State.setAD (s : State) (c : Nat) : Word × State :=
  let v := s.core c
  if s.flag XLT_AD_MODE.mode 0 0 then (v.hxentry, s)
  else
    let bits := v.adBits
    let old := s.xltEntry v.hxidx
    let new := old ||| bits
    let s := if new = old then s
      else ((s.setXltEntry v.hxidx new).logTable (mCore c) 1 v.hxidx old new).report (.xlt v.hxidx [new])
    (v.hxentry ||| bits, s)

/-- A fill or lock-fill of hxentry (R333, R335, R336). -/
def State.fillEntry (s : State) (c pg : Nat) (lock : Bool) : State :=
  let v := s.core c
  let fetch := v.hxstat.getLsbD 2
  match fillRefusal v.hxentry pg fetch with
  | some (st, dt) => s.stopInv c st dt v.hxbad
  | none =>
    let (e, s) := s.setAD c
    let full := lock && (if fetch then 2 ≤ (v.itlb.filter (·.locked)).length else 4 ≤ (v.dtlb.filter (·.locked)).length)
    if full then s
    else s.tlbInstall c ⟨v.hxctx, v.hxbad.toNat / 2 ^ pgShift pg, pg, e, lock, s.now⟩ fetch

/-- TLB_FILL and TLB_LOCK_FILL: the refill handler sets hxentry and hxidx, fills, and returns; a fill that must wait has not
happened yet (R334, R335). -/
def State.tlbFill (s : State) (c : Nat) (entry : Word) (idx pg : Nat) (lock : Bool) : State :=
  if !s.coreActs c then s
  else
    let s1 := s.setCore c { s.core c with hxentry := entry, hxidx := idx % 2 ^ 24 }
    if s1.fillStall c then s else (s1.fillEntry c pg lock).refillReturn c

/-- Drop the entries of a core's TLBs that a test names. -/
def HCore.tlbDrop (v : HCore) (f : TlbEntry → Bool) : HCore :=
  { v with itlb := v.itlb.filter (!f ·), dtlb := v.dtlb.filter (!f ·), l2 := v.l2.filter (!f ·) }

/-- The ager (R337). -/
def State.tlbAge (s : State) : State :=
  (List.range 64).foldl (fun s c =>
    s.setCore c ((s.core c).tlbDrop fun e => !e.locked && e.loadAt + ms 3 ≤ s.now)) s

/-! ## Resets and retirement (R350, R352, R381) -/

/-- What a core reset and a retirement share: the stop, the TLBs, the caches, the pending interrupts and the semaphores; the core
starts at the resident firmware again. -/
def State.clearCore (s : State) (c : Nat) : State :=
  let s := (s.stopInv c 0x15 0x91 0).semReset (mCore c)
  let v := s.core c
  let s := (s.dropCoreReads c).setCore c { v with
    itlb := [], dtlb := [], l2 := [], mtip := false, hxstat := v.hxstat &&& 0x18, icache := [], dcache := [],
    pc := residentMain, umode := false, resv := none, wait := none }
  let r : RegRef := ⟨.HDL_IPI_PEND, 0, 0⟩
  s.setReg r (s.reg r &&& ~~~(BitVec.ofNat 64 (2 ^ c)))

/-- A core reset (R352): a user core is idle, a firmware core starts again. -/
def State.resetCore (s : State) (c : Nat) : State :=
  if s.coreSt c = 4 then s
  else (s.clearCore c).setFld HDL_CORE_STATUS.state c 0 (if s.coreSt c = 0 then 0 else if s.userCore c then 1 else 3)

/-- A core retirement (R381); the last firmware core's work goes to the highest user core. -/
def State.retireCore (s : State) (c : Nat) : State :=
  if s.coreSt c = 4 then s
  else
    let s := (s.clearCore c).setFld HDL_CORE_STATUS.state c 0 4
    if (List.range 64).any fun k => s.coreSt k == 3 then s
    else match ((List.range 64).filter s.userCore).getLast? with
      | some k => (s.stopInv k 0x15 0x91 0).setFld HDL_CORE_STATUS.state k 0 3
      | none => s

/-- The user cores leave reset as HDL leaves its setup state (R322). -/
def State.startUserCores (s : State) : State :=
  (List.range 64).foldl (fun s c =>
    if s.isFw c || s.coreSt c != 0 then s else s.setFld HDL_CORE_STATUS.state c 0 1) s

/-- The firmware cores start from the boot image (R322, R416). -/
def State.startFwCores (s : State) : State :=
  (List.range 64).foldl (fun s c =>
    if s.isFw c && s.coreSt c == 0 then s.setFld HDL_CORE_STATUS.state c 0 3 else s) s

/-- For replay, the live user cores are released in machine mode into the replay code, and are returned to reset at its end
(R322, R405). -/
def State.startReplayCores (s : State) : State :=
  (List.range 64).foldl (fun s c =>
    if !s.isFw c && s.coreSt c == 0 then s.setFld HDL_CORE_STATUS.state c 0 3 else s) s
def State.endReplayCores (s : State) : State :=
  (List.range 64).foldl (fun s c =>
    if !s.isFw c && s.coreSt c == 3 then s.setFld HDL_CORE_STATUS.state c 0 0 else s) s

/-! ## Triggers (R326 to R329) -/

/-- HDL_TRIG_CFG of a trigger as a number. -/
def TrigCfg.cfgBits (t : TrigCfg) : Nat :=
  b2n t.enable * 2 ^ 63 + t.kind * 2 ^ 61 + b2n t.serial * 2 ^ 60 + t.prio * 2 ^ 57 + t.owner * 2 ^ 32 + t.source

/-- A trigger with the fields of an HDL_TRIG_CFG value. -/
def TrigCfg.withCfg (t : TrigCfg) (n : Nat) : TrigCfg :=
  { t with
    enable := bitOf n 63, kind := bitsOf n 62 61, serial := bitOf n 60, prio := bitsOf n 59 57,
    owner := bitsOf n 51 32, source := bitsOf n 20 0 }

/-- The owner's completion ring has the entry that a trigger reserves (R328). -/
def State.trigEntryFree (s : State) (c : Nat) : Bool :=
  let r := s.ctx c
  (r.post + 2 ^ 32 - r.head) % 2 ^ 32 + s.outstanding c + s.trigReserved c + 1 ≤ 2 ^ r.crLog2

/-- A write of HDL_TRIG_CFG to the selected trigger (R327): the new configuration, or the source of its refusal. -/
def State.trigWrite (s : State) (n v : Nat) : Except Nat State :=
  let old := s.trig n
  let new := old.withCfg v
  if old.enable && (old.kind != new.kind || old.source != new.source || old.owner != new.owner) then .error 258
  else if !old.enable && new.enable && !(s.isOpen new.owner && s.trigEntryFree new.owner) then .error 257
  else .ok (s.setTrig n new)

/-- The triggers of a context that moves to draining are disarmed (R327). -/
def State.disarmOwner (s : State) (c : Nat) : State :=
  (s.trigsWhere fun t => t.owner == c).foldl (fun s e => s.disarmTrig e.1) s

/-- What waits at its source for room in the event queue, or for RSV, goes on while it can, oldest first (R329, R399). -/
def State.releasePosts (s : State) : Nat → State
  | 0 => s
  | fuel + 1 =>
    match s.hdl.heldPosts with
    | [] => s
    | x :: rest =>
      let s' := { s with hdl := { s.hdl with heldPosts := rest } }
      match x with
      | .answer es p =>
        if s.trigRoom es.length then ((es.foldl State.queueEv s').present p).releasePosts fuel else s
      | .completion h st dt n r =>
        let s' := s'.complete h st dt n r
        if !s.rsvHeld && s'.hdl.heldPosts.length = rest.length then s'.releasePosts fuel else s

/-- Counter triggers whose condition holds fire while there is room. -/
def State.fireWaiting (s : State) : State :=
  (s.trigsWhere fun t => t.kind == 1).foldl (fun s e => s.fireCounter e.2.source (s.ctr e.2.source).value) s

/-! ## Handler memory (R325, R130) -/

/-- The size of handler memory: 1 GiB, plus what the reserved region has beyond 16 GiB (R131). -/
def State.hmemSize (s : State) : Nat := (max 16 (s.fld XLT_FMEM_CFG.reserved_gib 0 0) - 15) * 2 ^ 30

end Sys2Proof.Machine
end

