-- ==== Sys2Proof/Machine/Float.lean ====
section
/-!
DEFINITION. Floating-point values as exact sums: accumulators, their single rounding, additions, minimum and maximum
(R186, R213 to R216, R219).
-/
set_option Elab.async false
namespace Sys2Proof.Machine

/-- A binary interchange format: significand bits `p` (with the hidden one) and exponent bits. -/
structure FloatFmt where
  p : Nat
  eb : Nat
  deriving DecidableEq, Repr

def fmt64 : FloatFmt := ⟨53, 11⟩
def fmt32 : FloatFmt := ⟨24, 8⟩
def fmt16 : FloatFmt := ⟨11, 5⟩
def fmtB16 : FloatFmt := ⟨8, 8⟩

/-- The all-ones biased exponent. -/
def FloatFmt.emax (f : FloatFmt) : Nat := 2 ^ f.eb - 1
/-- The bit length of a value without its sign. -/
def FloatFmt.mag (f : FloatFmt) : Nat := f.p - 1 + f.eb
/-- The weight of bit 0 is 2^(−unit): the smallest subnormal (R214). -/
def FloatFmt.unit (f : FloatFmt) : Nat := 2 ^ (f.eb - 1) - 3 + f.p
/-- The sign, biased exponent and fraction of a value. -/
def FloatFmt.sign (f : FloatFmt) (x : Nat) : Bool := bitOf x f.mag
def FloatFmt.exp (f : FloatFmt) (x : Nat) : Nat := bitsOf x (f.mag - 1) (f.p - 1)
def FloatFmt.frac (f : FloatFmt) (x : Nat) : Nat := x % 2 ^ (f.p - 1)
/-- A NaN. -/
def FloatFmt.isNan (f : FloatFmt) (x : Nat) : Bool := f.exp x == f.emax && f.frac x != 0
/-- The canonical NaN (R216). -/
def FloatFmt.canon (f : FloatFmt) : Nat := f.emax * 2 ^ (f.p - 1) + 2 ^ (f.p - 2)

/-- The accumulator that one contribution makes (R215). -/
def FloatFmt.toAcc (f : FloatFmt) (x : Nat) : Acc :=
  let s := f.sign x
  let e := f.exp x
  let m : Nat := if e = 0 then f.frac x else (2 ^ (f.p - 1) + f.frac x) * 2 ^ (e - 1)
  let special := e == f.emax
  { sum := if special then 0 else if s then -(m : Int) else m
    nan := f.isNan x
    pinf := special && f.frac x == 0 && !s
    ninf := special && f.frac x == 0 && s
    nnz := !(s && e == 0 && f.frac x == 0) }

/-- Combining two accumulators (R215). -/
def Acc.add (a b : Acc) : Acc := ⟨a.sum + b.sum, a.nan || b.nan, a.pinf || b.pinf, a.ninf || b.ninf, a.nnz || b.nnz⟩

/-- A sign on a magnitude. -/
def FloatFmt.withSign (f : FloatFmt) (neg : Bool) (m : Nat) : Nat := m + b2n neg * 2 ^ f.mag

/-- Round a magnitude counted in units of 2^(−unit−extra) to nearest, ties to even (R216; `extra` is 0 there). -/
def FloatFmt.roundMag (f : FloatFmt) (extra m : Nat) : Nat :=
  let h := Nat.log2 m
  let k := if h < extra + f.p - 1 then extra else h + 1 - f.p
  let q := m / 2 ^ k
  let r := m % 2 ^ k
  let up := k != 0 && (2 ^ (k - 1) < r || (r == 2 ^ (k - 1) && q % 2 == 1))
  let q := q + b2n up
  -- the exponent's place is k − extra; a carry out of the significand moves into the exponent field
  let bits := (k - extra) * 2 ^ (f.p - 1) + q
  if f.emax * 2 ^ (f.p - 1) ≤ bits then f.emax * 2 ^ (f.p - 1) else bits

/-- The value an accumulator leaves as, through one rounding (R216). -/
def FloatFmt.round (f : FloatFmt) (extra : Nat) (a : Acc) : Nat :=
  if a.nan || (a.pinf && a.ninf) then f.canon
  else if a.pinf then f.emax * 2 ^ (f.p - 1)
  else if a.ninf then f.withSign true (f.emax * 2 ^ (f.p - 1))
  else if a.sum = 0 then f.withSign (!a.nnz) 0
  else f.withSign (a.sum < 0) (f.roundMag extra a.sum.natAbs)

/-- Addition with one rounding, special values as in R216 (R219). -/
def FloatFmt.add (f : FloatFmt) (x y : Nat) : Nat := f.round 0 ((f.toAcc x).add (f.toAcc y))

/-- A value as binary32, exactly. -/
def FloatFmt.widen (f : FloatFmt) (x : Nat) : Nat :=
  let a := f.toAcc x
  fmt32.round 0 { a with sum := a.sum * 2 ^ (fmt32.unit - f.unit) }

/-- A binary32 value rounded to a shorter format. -/
def FloatFmt.narrow (f : FloatFmt) (x : Nat) : Nat := f.round (fmt32.unit - f.unit) (fmt32.toAcc x)

/-- The place of a value in the order that puts −0 below +0. -/
def FloatFmt.key (f : FloatFmt) (x : Nat) : Int :=
  let m : Int := (x % 2 ^ f.mag : Nat)
  if f.sign x then -m - 1 else m

/-- The minimum and maximum operations (R213). -/
def FloatFmt.min (f : FloatFmt) (x y : Nat) : Nat :=
  if f.isNan x || f.isNan y then f.canon else if f.key y < f.key x then y else x
def FloatFmt.max (f : FloatFmt) (x y : Nat) : Nat :=
  if f.isNan x || f.isNan y then f.canon else if f.key x < f.key y then y else x

/-- FETCH_ADD_F64 (R186). -/
def fetchAddF64 (old op : Nat) : Nat :=
  let quiet (x : Nat) : Nat := x ||| 2 ^ 51
  if fmt64.isNan old then quiet old else if fmt64.isNan op then quiet op else fmt64.add old op

end Sys2Proof.Machine
end

