-- ==== Sys2Proof/Machine/Peer.lean ====
section
/-!
DEFINITION. Peer records and operation records at the target, and the classification of an arriving request
(R138, R175 to R178).
-/
set_option Elab.async false
namespace Sys2Proof.Machine

/-! ## Peer records -/

/-- The peer record of a local context and a remote endpoint. -/
def State.peer? (s : State) (c remote : Nat) : Option Peer :=
  s.rma.peers.find? fun v => v.ctx == c && v.remote == remote

/-- The record, or a fresh one. -/
def State.peerOf (s : State) (c remote : Nat) : Peer := (s.peer? c remote).getD ⟨c, remote, 0, false, 0, 0, 0, false, 0⟩

/-- The bucket of a pair in the peer table: CRC-32C of the remote endpoint and the context (R175). -/
def peerBucket (c remote : Nat) : Nat := (crc32c (leBytes 5 remote ++ leBytes 3 c)).toNat % 2 ^ 21

/-- The places taken in a bucket of 8, and in the peer overflow area. -/
def State.bucketUsed (s : State) (b : Nat) : List Nat :=
  (s.rma.peers.filter fun v => v.slot / 8 == b).map fun v => v.slot % 8
def State.peerOvf (s : State) : List Nat :=
  (s.rma.peers.filter fun v => 2 ^ 24 ≤ v.slot).map fun v => v.slot - 2 ^ 24

/-- A new record's place: in its bucket, or, where that is full, in the overflow area, where the resident firmware puts it. -/
def State.placePeer (s : State) (v : Peer) : State :=
  let b := peerBucket v.ctx v.remote
  let used := s.bucketUsed b
  let (k, s) := if used.length < 8 then s.takePlace used 8 else s.takePlace s.peerOvf (2 ^ 23)
  let slot := if used.length < 8 then 8 * b + k else 2 ^ 24 + k
  { s with rma := { s.rma with peers := s.rma.peers ++ [{ v with slot := slot }] } }

/-- Write a peer record; a new pair joins the table. -/
def State.setPeer (s : State) (v : Peer) : State :=
  match s.peer? v.ctx v.remote with
  | some old =>
    { s with rma := { s.rma with peers := s.rma.peers.map fun w =>
        if w.ctx = v.ctx ∧ w.remote = v.remote then { v with slot := old.slot } else w } }
  | none => s.placePeer v

/-- A record can be created for a pair (R175): its bucket of 8 has room, or the overflow area of 256 MiB (R180) has. -/
def State.peerRoom (s : State) (c remote : Nat) : Bool :=
  (s.bucketUsed (peerBucket c remote)).length < 8 || s.peerOvf.length < 2 ^ 23

/-- The PEER record of a pair. -/
def State.peerRecord (s : State) (c remote : Nat) : JRec :=
  let v := s.peerOf c remote
  .peer remote c v.floor v.nextMsn v.expectedMsn

/-- Write a peer record and report it. -/
def State.putPeer (s : State) (v : Peer) : State :=
  let s := s.setPeer v
  s.report (s.peerRecord v.ctx v.remote)

/-- Write a peer record whose floor has moved; the floor is reported (R397). -/
def State.putFloor (s : State) (v : Peer) : State :=
  let s := s.setPeer v
  s.reportLatest (s.peerRecord v.ctx v.remote)

/-! ## Operation records -/

/-- The operation record of a peer's operation. -/
def State.op? (s : State) (c remote osn : Nat) : Option OpRec :=
  s.rma.ops.find? fun v => v.ctx == c && v.remote == remote && v.osn == osn

/-- The bucket of an operation in the operation table: CRC-32C of its peer's index and its osn (R178; log entry 130). -/
def State.opBucket (s : State) (c remote osn : Nat) : Nat :=
  (crc32c (leBytes 4 (s.peerOf c remote).slot ++ leBytes 4 osn)).toNat % 2 ^ 21

/-- The places taken in a bucket of the operation table. -/
def State.opsUsed (s : State) (b : Nat) : List Nat :=
  (s.rma.ops.filter fun v => v.slot / 8 == b).map fun v => v.slot % 8

/-- A new operation record joins the table, at a free place of its bucket. -/
def State.placeOp (s : State) (v : OpRec) : State :=
  let b := s.opBucket v.ctx v.remote v.osn
  let (k, s) := s.takePlace (s.opsUsed b) 8
  { s with rma := { s.rma with ops := s.rma.ops ++ [{ v with slot := 8 * b + k }] } }

/-- Write an operation record; a new one joins the table. -/
def State.setOp (s : State) (v : OpRec) : State :=
  match s.op? v.ctx v.remote v.osn with
  | some old =>
    { s with rma := { s.rma with ops := s.rma.ops.map fun w =>
        if w.ctx = v.ctx ∧ w.remote = v.remote ∧ w.osn = v.osn then { v with slot := old.slot } else w } }
  | none => s.placeOp v

/-- The operation records that belong to a peer (R175). -/
def State.opCount (s : State) (v : Peer) : Nat :=
  (s.rma.ops.filter fun o => o.ctx == v.ctx && o.remote == v.remote).length

/-- The 32 bytes of a peer record (R138, R175). -/
def State.peerBytes (s : State) (v : Peer) : List Byte :=
  leBytes 5 v.remote ++ leBytes 3 (v.ctx + 2 ^ 20) ++ leBytes 4 v.floor ++ leBytes 3 (s.opCount v) ++
    leBytes 1 (b2n v.floorValid) ++ leBytes 4 v.nextMsn ++ leBytes 4 v.expectedMsn ++ leBytes 3 v.earlyCount ++
    leBytes 1 (b2n v.wdPending) ++ leBytes 4 0

/-- The state code of an OPREC record (R396): 0 removed. -/
def OpPhase.code : OpPhase → Nat
  | .active => 1
  | .ended => 2
  | .refused => 3
  | .abandoned => 4

/-- The OPREC record of an operation record with a state code. -/
def OpRec.record (v : OpRec) (code : Nat) : JRec :=
  .oprec v.remote v.ctx v.osn code v.pkind v.regwin v.status v.detail v.window v.gen v.total v.result

/-- Write an operation record and report it. -/
def State.putOp (s : State) (v : OpRec) : State := (s.setOp v).report (v.record v.phase.code)

/-- The operation holds a pin (R120). -/
def OpRec.pinned (v : OpRec) : Bool := v.phase == .active && !v.regwin

/-- The pin of an operation is released. -/
def State.unpinOp (s : State) (v : OpRec) : State :=
  if v.pinned then s.unpin ((s.ctx v.ctx).winBase + v.window) v.image else s

/-- The operation is abandoned (R120, R124): its record stays, its pin does not. -/
def State.abandonOp (s : State) (v : OpRec) : State := (s.unpinOp v).putOp { v with phase := .abandoned }

/-- A record leaves the table. -/
def State.removeOp (s : State) (v : OpRec) : State :=
  let s := (s.unpinOp v).report (v.record 0)
  { s with rma := { s.rma with ops := s.rma.ops.filter fun w =>
      !(w.ctx == v.ctx && w.remote == v.remote && w.osn == v.osn) } }

/-- Retire the operation records of a peer whose osn lies from `lo` up to before `hi` (R176). -/
def State.retireOps (s : State) (c remote lo hi : Nat) : State :=
  (s.rma.ops.filter fun v => v.ctx == c && v.remote == remote &&
    (v.osn + 2 ^ 32 - lo) % 2 ^ 32 < (hi + 2 ^ 32 - lo) % 2 ^ 32).foldl State.removeOp s

/-- A discarded or repeated packet counts (R176): source 0 retired, 1 duplicate. -/
def State.countDup (s : State) (src : Nat) : State :=
  ((s.bump RMA_DUP_COUNT.count 0 0).fault 6 src 0).pmcEv 6 2 0 0 1

/-! ## Classification (R176) -/

/-- What the classification answers before any operation record is looked at. -/
inductive Verdict where
  | pass
  | refuse (status detail : Nat)
  | busy
  | retired
  deriving DecidableEq, Repr

/-- The floor of a request reaches the peer record, which is created where there is none (R175, R176). -/
def State.takeFloor (s : State) (c src floor : Nat) : State :=
  let v := s.peerOf c src
  if !v.floorValid then s.putFloor { v with floor := floor, floorValid := true }
  else if (floor + 2 ^ 32 - v.floor) % 2 ^ 32 < 2 ^ 31 then
    if floor = v.floor then s
    else (s.retireOps c src v.floor floor).putFloor { v with floor := floor }
  else s

/-- Classify a request up to its operation record. -/
def State.classify (s : State) (p : Packet) : Verdict × State :=
  let c := pDstCtx p
  let src := pSrcEp p
  if (s.peer? c src).isNone && !s.isOpen c then (.refuse 0x12 0x01, s)
  else if (s.peer? c src).isNone && !s.peerRoom c src then (.busy, s)
  else
    let s := s.takeFloor c src (pFloor p)
    let d := (pOsn p + 2 ^ 32 - (s.peerOf c src).floor) % 2 ^ 32
    if pType p = 7 ∧ pMop p = 1 then (.pass, s)
    else if 2 ^ 31 ≤ d then (.retired, s.countDup 0)
    else if 65536 ≤ d then (.refuse 0x12 0x08, s)
    else (.pass, s)

/-! ## Entrances -/

/-- The data path takes no arriving packet: a stopped or sealing device discards it (R386, R401). -/
def State.deaf (s : State) : Bool := s.frozen

/-- A request of a device in quarantine is discarded and counted (R404). -/
def State.dropQuarantined (s : State) : State := s.bump RSV_DROP_COUNT.count 0 0

/-- An arrival command takes its packet from those that RTE has handed over (R25). -/
def State.takeDelivered (s : State) (p : Packet) : State :=
  ({ s with delivered := s.delivered.erase p }).stampPkt p.hdr 3

/-- A delivered packet that has been acted on ends its sample, unless host data of its answer is still awaited (R450). -/
def State.endDelivered (s : State) (p : Packet) (answered : Bool) : State :=
  let waits := s.hif.gathers.any fun g => match g.2.use with
    | .getServe q => q.hdr == p.hdr
    | .pullServe q => q.hdr == p.hdr
    | _ => false
  if waits then s else s.endPkt p.hdr answered

end Sys2Proof.Machine
end

