-- ==== Sys2Proof/Machine/Rma.lean ====
section
/-!
DEFINITION. RMA at the initiator: dispatch of PUT, GET, ATOMIC and COUNTER_ARM, the packets of an operation, answers,
re-sends, timeouts and late answers (R168 to R174, R181 to R183, R192, R196, R200).
-/
set_option Elab.async false
namespace Sys2Proof.Machine

/-! ## Packets of an operation -/

/-- The length of an operation, its parts and one part's packet header fields (R170, R239). -/
def State.reqKind (s : State) (h : Handle) (k : Nat) : Nat :=
  let d := h.desc
  let n := partsOf (dLength d)
  kindReq h.index ((h.index + 2 ^ 32 - s.floorOf h.ctx) % 2 ^ 32) (dWindow d) (dKey d) k (k + 1 == n) (dRcnt d)
    (dRemoteCounter d) (dLength d)

/-- The PUT data packet of part `k` with its bytes. -/
def State.putPkt (s : State) (h : Handle) (k : Nat) (bs : List Byte) : Packet :=
  s.mkPkt (s.ctx h.ctx).port h.ctx (dTarget h.desc) 0 (dPktClass h.desc) (s.reqKind h k) (bs ++ leBytes 8 (dAddr2 h.desc))

/-- The GET request of part `k`. -/
def State.getPkt (s : State) (h : Handle) (k : Nat) : Packet :=
  s.mkPkt (s.ctx h.ctx).port h.ctx (dTarget h.desc) 1 (dPktClass h.desc) (s.reqKind h k) (leBytes 8 (dAddr2 h.desc))

/-- The operands of an ATOMIC: operand0, then operand1, of its size (R94, R239). -/
def atomicOperands (d : Descriptor) : List Byte :=
  let n := if dSub d = 0x0C then 16 else 8
  leBytes n (dget d 32 127 0) ++ leBytes n (dget d 48 127 0)

/-- The ATOMIC request. -/
def State.atomicPkt (s : State) (h : Handle) : Packet :=
  let d := h.desc
  s.mkPkt (s.ctx h.ctx).port h.ctx (dTarget d) 3 (dPktClass d)
    (kindAtomic h.index ((h.index + 2 ^ 32 - s.floorOf h.ctx) % 2 ^ 32) (dWindow d) (dKey d) (dAddr2 d) (dSub d))
    (atomicOperands d)

/-- The key of a withdrawal among the packets of a SEND; the offsets lie below it. -/
def wdPart : Nat := 2 ^ 32

/-- What is known of the packet of a part. -/
def Handle.txOf (h : Handle) (k : Nat) : Option Tx := h.tx.find? (·.part == k)

/-- Set what is known of the packet of a part. -/
def Handle.putTx (h : Handle) (t : Tx) : Handle := { h with tx := h.tx.filter (·.part != t.part) ++ [t] }

/-- RTE has taken the packet of a part before: presenting it again is a re-send. -/
def Handle.taken (h : Handle) (k : Nat) : Bool := (h.txOf k).any (·.taken)

/-- Count `n` re-sent packets. -/
def State.countResends (s : State) (n : Nat) : State := (s.bump RMA_RESEND_COUNT.count 0 0 n).pmcEv 6 3 0 0 n

/-- Present the packet of part `k` of a handle to RTE: taken, and counted when it was taken before; held while there is no
route; refused for ever (R181, R182, R240). -/
def State.presentFor (s : State) (hr : HandleRef) (k : Nat) (p : Packet) : State :=
  match s.handle? hr with
  | none => s
  | some h =>
    match s.injectable p with
    | .ok =>
      let s := s.setHandle ({ h with sent := true, routed := true, lostAt := none }.putTx ⟨k, s.now, true, none⟩)
      let s := if h.taken k then (s.countResends 1).stampFirst 1 (handleKey hr) 13 else s
      ((s.inject p).stampFirst 1 (handleKey hr) 6).stampLast 1 (handleKey hr) 7
    | .noRoute => (s.setHandle ({ h with lostAt := some (h.lostAt.getD s.now) }.putTx ⟨k, s.now, h.taken k, none⟩)).setFlag RTE_STATUS.no_route 0 0 true
    | .bad => s.finish hr 0x15 3

/-- The local places of part `k` of a PUT or GET. -/
def State.localPart (s : State) (h : Handle) (k : Nat) (write : Bool) : Except Nat (List (Place × Nat)) :=
  s.places h.ctx (dKind h.desc) (dAddr h.desc + 4096 * k) (partLen (dLength h.desc) k) write

/-- Set the packet of part `k` to be sent again at a time (R159, R177). -/
def Handle.putBusy (h : Handle) (now t k : Nat) : Handle :=
  h.putTx ⟨k, ((h.txOf k).map (·.time)).getD now, h.taken k, some t⟩

/-- Set the time of the busy retry of part `k` (R177). -/
def State.scheduleBusy (s : State) (hr : HandleRef) (k : Nat) : State :=
  match s.handle? hr with
  | none => s
  | some h => s.setHandle (h.putBusy s.now (s.now + us (max 1 (s.fld RMA_CTL.busy_retry_us 0 0))) k)

/-- What a local place that cannot be accessed does to its operation: a busy bank is tried again, a retired bank and an
uncorrectable word end it (R380, R385; log entry 20). -/
def State.localFail (s : State) (hr : HandleRef) (k : Nat) (f : PlaceFail) : State :=
  match f with
  | .busy => s.scheduleBusy hr k
  | .retired => s.finish hr 0x18 7
  | .uncorrectable => s.finish hr 0x18 8

/-- Start to send part `k` of an operation: a PUT's bytes are gathered, other requests go at once. -/
def State.sendPart (s : State) (hr : HandleRef) (k : Nat) : State :=
  match s.handle? hr with
  | none => s
  | some h =>
    match dOpcode h.desc with
    | 1 =>
      if dKind h.desc = 3 then s.presentFor hr k (s.putPkt h k (dInline h.desc))
      else match s.localPart h k false with
        | .error d => s.finish hr 0x13 d
        | .ok ps => match s.placesCheck ps false with
          | some f => s.localFail hr k f
          | none =>
            let s := s.xltUse h.ctx (dKind h.desc) (dAddr h.desc + 4096 * k) (partLen (dLength h.desc) k)
            (s.gather ps (.put hr k)).2
    | 2 => s.presentFor hr k (s.getPkt h k)
    | 3 => s.presentFor hr k (s.atomicPkt h)
    | _ => s

/-- Send a list of parts. -/
def State.sendParts (s : State) (hr : HandleRef) (ks : List Nat) : State := ks.foldl (fun s k => s.sendPart hr k) s

/-- The parts of an operation that are unanswered (R181). -/
def Handle.unanswered (h : Handle) : List Nat :=
  (List.range (partsOf (if dOpcode h.desc = 3 then 0 else dLength h.desc))).filter fun k => !h.got.contains k

/-! ## Dispatch (R196, R200) -/

/-- The local checks of R196 in their order: the status and detail of the first failure. -/
def State.localRefusal (s : State) (h : Handle) : Option (Nat × Nat) :=
  let d := h.desc
  let op := dOpcode d
  let buf : Option (Nat × Nat) :=
    if (op = 1 ∨ op = 2) ∧ dKind d ≠ 3 then
      match s.places h.ctx (dKind d) (dAddr d) (dLength d) (op == 2) with
      | .error e => some (0x13, e)
      | .ok _ => none
    else if op = 3 ∧ dAddr d ≠ 0 then
      match s.places h.ctx 0 (dAddr d) (dLength d) true with
      | .error e => some (0x13, e)
      | .ok _ => none
    else none
  match buf with
  | some r => some r
  | none => if dLcnt d && !s.ctrOk (dLocalCounter d) h.ctx then some (0x18, 1) else none

/-- Hold a dispatched descriptor at its block (R200, R160, R232, R351, R137). -/
def State.hold (s : State) (h : Handle) : State := s.setHandle { h with phase := .held }

/-- Dispatch of a PUT, GET or ATOMIC at RMA. -/
def State.dispatchRma (s : State) (h : Handle) : State :=
  if s.inSetup 6 then s.hold h
  else match s.localRefusal h with
    | some (st, dt) => s.finish h.ref st dt
    | none => ((s.activate h).sampleLocal (handleKey h.ref) (s.localAddr h.ctx h.desc)).sendParts h.ref h.unanswered

/-- Dispatch of a COUNTER_ARM (R192): the counter is checked and set; the wait ends when value ≥ threshold. -/
def State.dispatchArm (s : State) (h : Handle) : State :=
  if s.inSetup 6 then s.hold h
  else if !s.ctrOk (dCounter h.desc) h.ctx || (dLcnt h.desc && !s.ctrOk (dLocalCounter h.desc) h.ctx) then
    s.finish h.ref 0x18 1
  else
    let n := dCounter h.desc
    let s := if dSub h.desc % 2 = 1 ∧ !h.armedSet then
        (s.setCtr n { s.ctr n with value := BitVec.ofNat 64 (dget h.desc 16 63 0) }).ctrChanged n else s
    s.setHandle { h with phase := .waiting, armedSet := true }

/-- The handle's lcnt names a counter outside the context's (R189). -/
def State.lcntBad (s : State) (h : Handle) : Bool := dLcnt h.desc && !s.ctrOk (dLocalCounter h.desc) h.ctx

/-! ## Answers (R172, R181 to R184) -/

/-- A late answer (R183). -/
def State.lateAnswer (s : State) (c osn : Nat) : State :=
  let s := s.bump RMA_LATE_COUNT.count 0 0
  (s.setFld RMA_LATE_LAST.context 0 0 c).setFld RMA_LATE_LAST.osn 0 0 osn

/-- The open handle of this node that an answer belongs to: dispatched, of one of the opcodes. -/
def State.answered (s : State) (p : Packet) (ops : List Nat) : Option Handle :=
  match s.handle? ⟨pDstCtx p, pOsn p⟩ with
  | some h => if h.phase = .active ∧ ops.contains (dOpcode h.desc) then some h else none
  | none => none

/-- Stamp the delivery of an answer (R452), which uses the record of the handle's context (R116). -/
def State.stampAnswer (s : State) (h : Handle) : State :=
  ((s.ctxUse h.ctx).stampFirst 1 (handleKey h.ref) 9).stampLast 1 (handleKey h.ref) 10

/-- Some page of a write lies in a retired bank (R380). -/
def State.pagesRetired (s : State) (ps : List (Option Place × Nat)) : Bool :=
  ps.any fun (p, n) => p.any fun p => s.placeCheck p n true == some .retired

/-- A GET response arrives at the initiator (R172, R196). -/
def State.getResponse (s : State) (p : Packet) : State :=
  match s.answered p [2] with
  | none => s.lateAnswer (pDstCtx p) (pOsn p)
  | some h =>
    let s := s.stampAnswer h
    let k := kget p 51 32
    let n := partsOf (dLength h.desc)
    if n ≤ k ∨ h.got.contains k then s
    else
      let len := partLen (dLength h.desc) k
      let take (s : State) : State :=
        let h := { h with got := h.got ++ [k], gotBytes := h.gotBytes + len }
        if h.got.length < n then s.setHandle h else s.complete h.ref 0 0 (dLength h.desc) 0
      let s := s.xltUse h.ctx (dKind h.desc) (dAddr h.desc + 4096 * k) len
      let ps := s.pages h.ctx (dKind h.desc) (dAddr h.desc + 4096 * k) len true
      if s.pagesBusy ps then s
      else if s.pagesRetired ps then s.finish h.ref 0x18 7
      else take (s.writeEach (some 4) h.mute ps p.bytes)

/-- A PUT response arrives (R172). -/
def State.putResponse (s : State) (p : Packet) : State :=
  match s.answered p [1] with
  | none => s.lateAnswer (pDstCtx p) (pOsn p)
  | some h => (s.stampAnswer h).complete h.ref 0 0 (dLength h.desc) 0

/-- An ATOMIC response arrives (R172, R101): the fetched value goes to result_addr and into the completion. A response whose
result_addr lies in a bank that is busy is not taken: the request is sent again in time, and answered again (R179; log entry
20). -/
def State.atomicResponse (s : State) (p : Packet) : State :=
  match s.answered p [3] with
  | none => s.lateAnswer (pDstCtx p) (pOsn p)
  | some h =>
    let s := s.stampAnswer h
    let n := dLength h.desc
    let bs := p.bytes.take n
    let done (s : State) : State := s.complete h.ref 0 0 n (BitVec.ofNat 64 (ofLE (bs.take 8)))
    if dAddr h.desc = 0 then done s
    else
      let s := s.xltUse h.ctx 0 (dAddr h.desc) n
      let ps := s.pages h.ctx 0 (dAddr h.desc) n true
      if s.pagesBusy ps then s
      else if s.pagesRetired ps then s.finish h.ref 0x18 7
      else done (s.writeEach (some 4) h.mute ps bs)

/-- A refusal arrives (R172, R177). -/
def State.refusalRecv (s : State) (p : Packet) : State :=
  match s.answered p [1, 2, 3] with
  | none => s.lateAnswer (pDstCtx p) (pOsn p)
  | some h =>
    let s := s.stampAnswer h
    if kget p 48 48 = 1 then s.scheduleBusy h.ref (kget p 71 52) else s.finish h.ref (kget p 39 32) (kget p 47 40)

/-! ## Re-sends and timeouts -/

/-- The re-send interval (R181). -/
def State.retryPs (s : State) : Nat := us (max 10 (s.fld RMA_CTL.retry_us 0 0))

/-- When a packet is sent again: at its busy retry, or the re-send interval after it was last presented. -/
def Tx.due (t : Tx) (retry : Nat) : Nat := min (t.time + retry) (t.busyAt.getD (t.time + retry))

/-- When the first of the packets `ks` of a handle is sent again. -/
def Handle.resendAt (h : Handle) (retry : Nat) (ks : List Nat) : Option Nat :=
  ((ks.filterMap h.txOf).map (·.due retry)).min?

/-- When the first busy retry among the packets `ks` of a handle is (R159, R177). -/
def Handle.busyRetryAt (h : Handle) (ks : List Nat) : Option Nat := ((ks.filterMap h.txOf).filterMap (·.busyAt)).min?

/-- The packets among `ks` whose time to be sent again has come. -/
def Handle.dueParts (h : Handle) (now retry : Nat) (ks : List Nat) : List Nat :=
  ks.filter fun k => (h.txOf k).any fun t => t.due retry ≤ now

/-- The packets `ks` are about to be presented: their time starts anew. -/
def Handle.restart (h : Handle) (now : Nat) (ks : List Nat) : Handle :=
  { h with tx := h.tx.map fun t => if ks.contains t.part then { t with time := now, busyAt := none } else t }

/-- Re-send, with the current floor, the unanswered parts of an operation whose time has come: by the re-send timer a PUT
repeats all its parts (R177, R181). -/
def State.resendRma (s : State) (h : Handle) : State :=
  let due := h.dueParts s.now s.retryPs h.unanswered
  let timer := due.any fun k => (h.txOf k).any fun t => t.time + s.retryPs ≤ s.now
  let ks := if dOpcode h.desc = 1 ∧ timer then h.unanswered else due
  (s.setHandle (h.restart s.now ks)).sendParts h.ref ks

/-- The status of an expired operation: PEER_LOST when RTE had a route at no attempt and has none now (R182). -/
def State.timeoutStatus (s : State) (h : Handle) : Nat :=
  if !h.routed && !s.hasRoute (epNode (dTarget h.desc)) then 0x11 else 0x10

/-- An operation has not completed within timeout_us (R182). -/
def State.timeoutRma (s : State) (h : Handle) : State :=
  let s := s.pmcEv 6 4 0 0 1
  s.complete h.ref (s.timeoutStatus h) 0 (if dOpcode h.desc = 2 then h.gotBytes else 0) 0

end Sys2Proof.Machine
end

