-- ==== Sys2Proof/Machine/Tgt.lean ====
section
/-!
DEFINITION. RMA at the target: admission, the parts of PUT, GET and ATOMIC on windows, their end, their refusals and the
answers given again (R119, R120, R124, R168 to R188, R197).
-/
set_option Elab.async false
namespace Sys2Proof.Machine

/-! ## Answers -/

/-- A packet that answers a request of `src` at context `c`. -/
def State.tgtAnswer (s : State) (c src cls ptype kind : Nat) (bs : List Byte) : Packet :=
  s.mkPkt (s.ctx c).port c src ptype cls kind bs

/-- Send a refusal of a request (R239). -/
def State.tgtRefuse (s : State) (p : Packet) (st dt : Nat) (busy : Bool) : State :=
  s.present (s.tgtAnswer (pDstCtx p) (pSrcEp p) (pClass p) 6
    (kindRefusal (pOsn p) st dt busy (pType p) (if pType p = 3 then 0 else pIndex p)) [])

/-- A busy refusal, which is not recorded (R177). -/
def State.tgtBusy (s : State) (p : Packet) : State :=
  let s := (s.setFlag RMA_STATUS.busy 0 0 true).bump RMA_BUSY_COUNT.count 0 0
  s.tgtRefuse p 0 0 true

/-- The operation of a request. -/
def State.opOf (s : State) (p : Packet) : Option OpRec := s.op? (pDstCtx p) (pSrcEp p) (pOsn p)

/-- The operand size of an operation code (R185). -/
def atomSize (op : Nat) : Nat := if op = 0x0C then 16 else 8

/-- The remote offset, the length and the number of parts of a request (R170, R239). -/
def reqOff (p : Packet) : Nat := if pType p = 3 then pAtomOffset p else pRange p
def reqLen (p : Packet) : Nat := if pType p = 3 then atomSize (pAtomOp p) else pLength p
def reqParts (p : Packet) : Nat := if pType p = 3 then 1 else partsOf (pLength p)
/-- The part a request names. -/
def reqPart (p : Packet) : Nat := if pType p = 3 then 0 else pIndex p

/-! ## Records (R177, R178) -/

/-- Units of the bitmap pool that an operation takes. -/
def poolUnits (total : Nat) : Nat := if 128 < total then (total + 511) / 512 else 0

/-- Room for the operation record of a request and its bitmap: 2^21 buckets of 8 records, 252 MiB of pool (R178, R180). -/
def State.opRoom (s : State) (p : Packet) : Bool :=
  let b := s.opBucket (pDstCtx p) (pSrcEp p) (pOsn p)
  let total := reqParts p
  (s.opsUsed b).length < 8 &&
    ((s.rma.ops.map fun v => poolUnits v.total).sum + poolUnits total) * 64 ≤ 252 * 2 ^ 20

/-- A new operation record for a request. -/
def State.newOp (s : State) (p : Packet) (phase : OpPhase) (st dt gen : Nat) (image : Bool) : OpRec :=
  { ctx := pDstCtx p, remote := pSrcEp p, osn := pOsn p, phase := phase, pkind := pType p,
    regwin := pWindow p == 0xFFFF, image := image, status := st, detail := dt, window := pWindow p, gen := gen,
    total := reqParts p, present := [], lastTime := s.now, result := 0, rsize := reqLen p, applied := false,
    vclass := pClass p, served := [], acode := pAtomOp p, off := reqOff p, slot := 0 }

/-- A recorded refusal: the record is created or becomes refused, its pin goes, and the refusal is sent (R177). -/
def State.recordRefusal (s : State) (p : Packet) (st dt : Nat) : State :=
  let s := match s.opOf p with
    | some v => (s.unpinOp v).putOp { v with phase := .refused, status := st, detail := dt }
    | none => s.putOp (s.newOp p .refused st dt 0 false)
  s.tgtRefuse p st dt false

/-- A part is refused after its operation was admitted: abandoned when another part has been applied, else a recorded
refusal (R124, R177, R380, R385). -/
def State.partRefused (s : State) (p : Packet) (v : OpRec) (st dt : Nat) : State :=
  if v.applied then s.abandonOp v else s.recordRefusal p st dt

/-! ## The end of an operation (R120, R190, R326) -/

/-- The window entry of an operation. -/
def State.opEntry (s : State) (v : OpRec) : Nat := (s.ctx v.ctx).winBase + v.window

/-- An operation ends: its record, its pin, its rcnt update, its triggers, and its answer, which waits for them while the
event queue is full (R329). -/
def State.endOp (s : State) (v : OpRec) (counter : Option Nat) (answer : Packet) : State :=
  let s := (s.unpinOp v).putOp { v with phase := .ended }
  let s := match counter with
    | some n => s.ctrUpdate n v.rsize false
    | none => s
  let evs := if v.regwin then [] else s.arrivalEvs (s.opEntry v) v.remote v.pkind v.off v.rsize
  if s.trigRoom evs.length then (evs.foldl State.queueEv s).present answer
  else
    let s := s.markFull
    { s with hdl := { s.hdl with heldPosts := s.hdl.heldPosts ++ [.answer evs answer] } }

/-- The counter that a request's rcnt names. -/
def reqCounter (p : Packet) : Option Nat := if pType p ≠ 3 ∧ pRcnt p then some (pCounter p) else none

/-- The PUT response of an operation. -/
def State.putAnswer (s : State) (v : OpRec) : Packet := s.tgtAnswer v.ctx v.remote v.vclass 5 v.osn []

/-- The GET response of a part. -/
def State.getAnswer (s : State) (v : OpRec) (k : Nat) (bs : List Byte) : Packet :=
  s.tgtAnswer v.ctx v.remote v.vclass 2 (kindGetResp v.osn k (k + 1 == v.total) v.rsize) bs

/-- The ATOMIC response of an operation. -/
def State.atomicAnswer (s : State) (v : OpRec) : Packet :=
  s.tgtAnswer v.ctx v.remote v.vclass 4 (kindAtomResp v.osn v.acode) (leBytes (atomSize v.acode) v.result.toNat)

/-! ## Places in a window (R118, R124, R168) -/

/-- The places of bytes of a window image. -/
def State.winPlaces (s : State) (c : Nat) (im : WinImage) (off len : Nat) (write : Bool) :
    Except Nat (List (Place × Nat)) :=
  s.places c im.kind (im.base + off) len write

/-- The image an operation is pinned to. -/
def State.opImage (s : State) (v : OpRec) : WinImage := (s.win (s.opEntry v)).image v.image

/-- An access to bytes of an operation's window is translated (R129). -/
def State.winUse (s : State) (v : OpRec) (off len : Nat) : State :=
  let im := s.opImage v
  s.xltUse v.ctx im.kind (im.base + off) len

/-- What stops a part: a translation, a bank, an uncorrectable word. -/
inductive PartStop where
  | refuse (st dt : Nat)
  | busy
  deriving DecidableEq, Repr

/-- The places of a part, or what stops it: every piece of it is translated and checked before any is accessed, so that a part
refused in one piece is refused whole (log entry 120). -/
def State.partPlaces (s : State) (v : OpRec) (off len : Nat) (write : Bool) : Except PartStop (List (Place × Nat)) :=
  match s.winPlaces v.ctx (s.opImage v) off len write with
  | .error d => .error (.refuse 0x13 d)
  | .ok ps => match s.placesCheck ps write with
    | none => .ok ps
    | some .busy => .error .busy
    | some .retired => .error (.refuse 0x18 7)
    | some .uncorrectable => .error (.refuse 0x18 8)

/-- What a stopped part does. -/
def State.partStopped (s : State) (p : Packet) (v : OpRec) : PartStop → State
  | .refuse st dt => s.partRefused p v st dt
  | .busy => s.tgtBusy p

/-! ## PUT -/

/-- Apply a part of a PUT (R170, R172). -/
def State.applyPut (s : State) (p : Packet) (v : OpRec) : State :=
  let k := pIndex p
  match s.partPlaces v (reqOff p + 4096 * k) (partLen v.rsize k) true with
  | .error e => s.partStopped p v e
  | .ok ps =>
    let s := s.winUse v (reqOff p + 4096 * k) (partLen v.rsize k)
    let s := (s.stampAccess p.hdr (s.accessAddr ps)).placesWrite ps (pData p)
    let v := { v with present := v.present ++ [k], applied := true }
    if v.present.length < v.total then s.setOp v else s.endOp v (reqCounter p) (s.putAnswer v)

/-! ## GET -/

/-- Start to read a part of a GET (R172, R180). -/
def State.applyGet (s : State) (p : Packet) (v : OpRec) : State :=
  let k := pIndex p
  match s.partPlaces v (reqOff p + 4096 * k) (partLen v.rsize k) false with
  | .error e => s.partStopped p v e
  | .ok ps =>
    let s := s.winUse v (reqOff p + 4096 * k) (partLen v.rsize k)
    let v := { v with present := if v.present.contains k then v.present else v.present ++ [k], applied := true }
    (((s.setOp v).stampAccess p.hdr (s.accessAddr ps)).gather ps (.getServe p)).2

/-- The data of a part has been read: its response goes, and the last one ends the GET (R120, R180). -/
def State.getServed (s : State) (p : Packet) (bs : List Byte) : State :=
  match s.opOf p with
  | none => s
  | some v =>
    let k := pIndex p
    let s := s.endPkt p.hdr true
    let v := { v with served := if v.served.contains k then v.served else v.served ++ [k] }
    if v.phase = .active ∧ v.served.length = v.total then s.endOp v (reqCounter p) (s.getAnswer v k bs)
    else if v.phase = .active ∨ v.phase = .ended then (s.setOp v).present (s.getAnswer v k bs)
    else s

/-! ## ATOMIC (R185 to R188) -/

/-- The new value of the target word (R185). -/
def atomNew (op : Nat) (old a b : BitVec 128) : BitVec 128 :=
  let x := old.setWidth 64
  let y := a.setWidth 64
  let w (r : BitVec 64) : BitVec 128 := r.setWidth 128
  match op with
  | 0x01 => w (x + y)
  | 0x02 => w (x &&& y)
  | 0x03 => w (x ||| y)
  | 0x04 => w (x ^^^ y)
  | 0x05 => w y
  | 0x06 => if x = y then w (b.setWidth 64) else w x
  | 0x07 => w (if x.toInt ≤ y.toInt then x else y)
  | 0x08 => w (if y.toInt ≤ x.toInt then x else y)
  | 0x09 => w (if x.toNat ≤ y.toNat then x else y)
  | 0x0A => w (if y.toNat ≤ x.toNat then x else y)
  | 0x0B => w (BitVec.ofNat 64 (fetchAddF64 x.toNat y.toNat))
  | _ => if old = a then b else old

/-- The operands of a request. -/
def atomOperand (p : Packet) (k : Nat) : BitVec 128 :=
  let n := atomSize (pAtomOp p)
  BitVec.ofNat 128 (ofLE ((p.bytes.drop (k * n)).take n))

/-- The operations that have a PCIe AtomicOp (R187). -/
def hostAtomic (op : Nat) : Bool := [0x01, 0x05, 0x06, 0x0C].contains op

/-- Apply an ATOMIC (R187, R188): to the host as an AtomicOp whose completion ends it, elsewhere at once. A CSWAP128 whose 16
bytes cross a page of the host, which no AtomicOp reaches, is log entry 120. -/
def State.applyAtomic (s : State) (p : Packet) (v : OpRec) : State :=
  let n := atomSize (pAtomOp p)
  match s.partPlaces v (reqOff p) n true with
  | .error e => s.partStopped p v e
  | .ok ps =>
    let s := (s.winUse v (reqOff p) n).stampAccess p.hdr (s.accessAddr ps)
    match ps with
    | [(.host q f a, _)] =>
      if (s.fn q f).flr then s else
      let (t, s) := s.takeOther q f (.atomic ⟨v.ctx, v.remote, v.osn⟩)
      (s.emit (.atomicOp q f t (pAtomOp p) a p.bytes)).setOp { v with present := [0] }
    | _ =>
      match s.placesCheck ps false with
      | some .uncorrectable => s.partRefused p v 0x18 8
      | some _ => s.tgtBusy p
      | none =>
        let bs := ps.flatMap fun e => (s.placeBytes e.1 e.2).getD []
        let old := BitVec.ofNat 128 (ofLE bs)
        let new := atomNew (pAtomOp p) old (atomOperand p 0) (atomOperand p 1)
        let s := s.placesWrite ps (leBytes n new.toNat)
        let v := { v with present := [0], served := [0], applied := true, result := old }
        s.endOp v none (s.atomicAnswer v)

/-- The host completes an AtomicOp (R187); after a reset of the function that issued it the completion is discarded (R59,
step 4). -/
def State.atomicOpDone (s : State) (r : OpRef) (res : HostResult) : State :=
  match s.op? r.ctx r.remote r.osn with
  | none => s
  | some v =>
    if v.phase ≠ .active ∨ v.pkind ≠ 3 ∨ !s.awaits (.atomic r) then s
    else
    let s := s.dropOther (.atomic r)
    match res with
      | .ok bs =>
        let v := { v with served := [0], applied := true, result := BitVec.ofNat 128 (ofLE bs) }
        s.endOp v none (s.atomicAnswer v)
      | .error =>
        let s := (s.unpinOp v).putOp { v with phase := .refused, status := 0x12, detail := 0x0B }
        s.present (s.tgtAnswer v.ctx v.remote v.vclass 6 (kindRefusal v.osn 0x12 0x0B false 3 0) [])

/-! ## Admission (R119, R176, R197) -/

/-- The check of a request's counter (R197). -/
def State.rcntRefusal (s : State) (p : Packet) : Option (Nat × Nat) :=
  match reqCounter p with
  | some n => if s.ctrOk n (pDstCtx p) then none else some (0x12, 0x09)
  | none => none

/-- The checks of a window request in order. -/
def State.admitRefusal (s : State) (p : Packet) : Option (Nat × Nat) :=
  let c := pDstCtx p
  let r := s.ctx c
  let op : WinOp := match pType p with
    | 0 => .put
    | 1 => .get
    | _ => .atomic (atomSize (pAtomOp p)) (hostAtomic (pAtomOp p) && (s.fn r.port r.func).atomicReq)
  (s.windowRefusal c (pWindow p) (pKey p) op (reqOff p) (reqLen p)).or (s.rcntRefusal p)

/-- Apply the part of an operation that runs. -/
def State.applyPart (s : State) (p : Packet) (v : OpRec) : State :=
  match pType p with
  | 0 => s.applyPut p v
  | 1 => s.applyGet p v
  | _ => s.applyAtomic p v

/-- Admit a new operation, or refuse it (R119, R177). -/
def State.admitOp (s : State) (p : Packet) : State :=
  if !s.opRoom p then s.tgtBusy p
  else match s.admitRefusal p with
    | some (st, dt) => (s.pmcEv 4 3 0 0 (b2n (st != 0x12 || dt != 9))).recordRefusal p st dt
    | none =>
      let e := (s.ctx (pDstCtx p)).winBase + pWindow p
      let w := s.win e
      let v := s.newOp p .active 0 0 w.gen w.active
      let s := (s.pinImage e w.active).putOp v
      (s.pmcEv 6 1 0 0 1).applyPart p v

/-- Count a packet answered as a duplicate in RMA_DUP_COUNT (R179); no fault source names it. -/
def State.countAnswered (s : State) : State := (s.bump RMA_DUP_COUNT.count 0 0).pmcEv 6 2 0 0 1

/-- A repeated request of an ended operation (R179, R180). -/
def State.answerAgain (s : State) (p : Packet) (v : OpRec) : State :=
  match v.pkind with
  | 0 => s.countAnswered.present (s.putAnswer v)
  | 3 => s.countAnswered.present (s.atomicAnswer v)
  | _ =>
    if v.regwin then s.countAnswered.present (s.getAnswer v 0 (leBytes 8 v.result.toNat))
    else if ((s.win (s.opEntry v)).gen + 2 ^ 16 - v.gen) % 2 ^ 16 ≤ 1 then s.countAnswered.applyGet p v
    else s.fault 6 2 0

/-- A part of an operation that has a record (R176). -/
def State.continueOp (s : State) (p : Packet) (v : OpRec) : State :=
  match v.phase with
  | .abandoned => s.countDup 0
  | .refused => s.tgtRefuse p v.status v.detail false
  | .ended => s.answerAgain p v
  | .active =>
    let v := { v with lastTime := s.now }
    let s := s.setOp v
    if v.present.contains (reqPart p) then s.countDup 1 else s.applyPart p v

/-- A continuing packet to a host-memory window of a context that a reset of its function drained (R114); a repeated packet of an
operation that has ended counts as one (log entry 119). -/
def State.closedContinue (s : State) (p : Packet) : Bool :=
  let r := s.ctx (pDstCtx p)
  r.phase == .draining && r.step4 && (s.opOf p).any fun v =>
    !v.regwin && (s.opImage v).kind == 0 && (v.phase == .active || v.phase == .ended)

/-- RMA cannot take a request now: setup, a held report, a context that awaits resumption (R200, R399, R407). -/
def State.rmaBusy (s : State) (p : Packet) : Bool :=
  s.inSetup 6 || s.rsvHeld || (s.ctx (pDstCtx p)).awaiting

/-- What a request to a window finds: refused on the way, or its operation. `opens` makes a new one. -/
def State.rmaRequest (s : State) (p : Packet) (opens : State → State) : State :=
  let s := s.ctxUse (pDstCtx p)
  if s.rsv.quarantineEnd.isSome then s.dropQuarantined
  else if s.rmaBusy p then s.tgtBusy p
  else if s.closedContinue p then s.fault 4 1 0
  else match s.classify p with
    | (.refuse st dt, s) => s.tgtRefuse p st dt false
    | (.busy, s) => s.tgtBusy p
    | (.retired, s) => s
    | (.pass, s) => match s.opOf p with
      | none => opens s
      | some v => s.continueOp p v

/-! ## The pin limit (R120) -/

/-- The pin limit in the model's clock. -/
def State.pinLimit (s : State) : Nat := us (max 100 (s.fld XLT_CTL.pin_limit_us 0 0))

/-- An operation whose last packet is older than the pin limit is abandoned. -/
def State.pinExpire (s : State) (v : OpRec) : State := (s.abandonOp v).fault 4 2 0

end Sys2Proof.Machine
end

