-- ==== Sys2Proof/Machine/Deliver.lean ====
section
/-!
DEFINITION. The ends of register accesses: which register and which part of it an access reaches, and what its master gets
back (R11, R30, R169, R486, R489).
-/
set_option Elab.async false
namespace Sys2Proof.Machine

/-- The part of a register that an aligned access of 8 or 4 bytes reaches (R11); none for any other. -/
def WaitAcc.part (a : WaitAcc) : Option AccSize :=
  match a.size with
  | .w64 => if a.off % 8 = 0 then some .full else none
  | .w32 => if a.off % 8 = 0 then some .lo else if a.off % 8 = 4 then some .hi else none
  | .odd => none

/-- The register that an access reaches. -/
def WaitAcc.reg (a : WaitAcc) : Option RegRef :=
  match a.part with
  | some _ => regAt (a.off - a.off % 8)
  | none => none

/-- The bits of the register that an access reaches. -/
def accMask : AccSize → Nat
  | .full => 2 ^ 64 - 1
  | .lo => 2 ^ 32 - 1
  | .hi => 2 ^ 64 - 2 ^ 32

/-- The data of an access, in its place in the register. -/
def accPlace (p : AccSize) (w : Word) : Word :=
  match p with
  | .full => w
  | .lo => BitVec.ofNat 64 (w.toNat % 2 ^ 32)
  | .hi => BitVec.ofNat 64 (w.toNat % 2 ^ 32 * 2 ^ 32)

/-- What a reader of part of a register gets. -/
def accTake (p : AccSize) (w : Word) : Word :=
  match p with
  | .full => w
  | .lo => BitVec.ofNat 64 (w.toNat % 2 ^ 32)
  | .hi => BitVec.ofNat 64 (w.toNat / 2 ^ 32)

/-- A register-window operation ends (R169): a write answers as a PUT does, a read with its 8 bytes. -/
def State.regWinEnd (s : State) (r : OpRef) (ctr : Option Nat) (val : Option Word) : State :=
  match s.op? r.ctx r.remote r.osn with
  | none => s
  | some v =>
    if v.phase ≠ .active then s
    else
      let v := { v with present := [0], served := [0], applied := true }
      match val with
      | none => s.endOp v ctr (s.putAnswer v)
      | some w =>
        let v := { v with result := w.setWidth 128 }
        s.endOp v ctr (s.getAnswer v 0 (leBytes 8 w.toNat))

/-- The mailbox takes the end of its access; one that has timed out is forgotten (R486). -/
def State.mbTake (s : State) (a : WaitAcc) (val : Word) (result : Nat) : State :=
  if s.pwr.mb.busy = some a.since then
    { s with pwr := { s.pwr with mb := { s.pwr.mb with got := some (val, result) } } }
  else s

/-- The data register of REGACC takes the end of its access (R489). -/
def State.jtagTake (s : State) (a : WaitAcc) (val : Word) (status : Nat) : State :=
  let dr := if a.write.isSome then s.pwr.jtag.dr.toNat else putBits s.pwr.jtag.dr.toNat 63 0 val.toNat
  { s with pwr := { s.pwr with jtag := { s.pwr.jtag with dr := BitVec.ofNat 96 dr, status := status } } }

/-- An access ends: its master gets the data of a read. `stop` marks a write that a device stop ignored. -/
def State.deliver (s : State) (a : WaitAcc) (val : Word) (stop : Bool) : State :=
  let val := accTake (a.part.getD .full) val
  match a.m / 2 ^ 21 with
  | 2 => match a.op with
    | some (r, ctr) => s.regWinEnd r ctr (if a.write.isSome then none else some val)
    | none => s
  | 3 => s.mbTake a val (if stop then 2 else 0)
  | 4 => s.jtagTake a val (if stop then 3 else 0)
  | 5 => s
  | 1 => if a.write.isSome then s else (s.emit (.regData a.m a.off val)).coreTake (a.m % 64) a.off val.toNat
  | _ => if a.write.isSome then s else s.emit (.regData a.m a.off val)

end Sys2Proof.Machine
end

