-- ==== Sys2Proof/Machine/Csc.lean ====
section
/-!
DEFINITION. CSC: line groups, the steps of a collective and what each node sends and receives in them, combining, exact
partial records, segments and staging, early packets, re-requests and aborts (R201 to R232).
-/
set_option Elab.async false
namespace Sys2Proof.Machine

/-! ## The COLL descriptor (R97, R211, R212) -/

def cCount (d : Descriptor) : Nat := dget d 32 31 0
def cType (d : Descriptor) : Nat := dget d 36 7 0
def cOp (d : Descriptor) : Nat := dget d 37 7 0
def cPhase (d : Descriptor) (k : Nat) : Bool := bitOf (dget d 38 2 0) k
def cRecvKind (d : Descriptor) : Nat := dget d 39 7 4
def cSendKind (d : Descriptor) : Nat := dget d 39 3 0
def cGroup (d : Descriptor) (k : Nat) : Nat := dget d (40 + 2 * k) 15 0
def cRoot (d : Descriptor) : Nat := dget d 48 16 0

/-- The size of a datatype (R211). -/
def dtSize (t : Nat) : Nat :=
  match t with
  | 0 => 0 | 1 => 8 | 2 => 4 | 3 => 2 | 4 => 2 | 0x10 => 8 | 0x11 => 8 | 0x12 => 4 | 0x13 => 4 | _ => 1

/-- The format of a floating-point datatype. -/
def dtFmt (t : Nat) : Option FloatFmt :=
  match t with
  | 1 => some fmt64 | 2 => some fmt32 | 3 => some fmt16 | 4 => some fmtB16 | _ => none

/-- The limbs of a datatype's accumulator (R214). -/
def dtLimbs (t : Nat) : Nat :=
  match t with
  | 1 => 34 | 2 => 5 | 3 => 2 | _ => 5

/-- A floating-point SUM, exact or not (R212, R219). -/
def cExact (d : Descriptor) : Bool := cOp d == 1 && dget d 38 3 3 == 1 && (dtFmt (cType d)).isSome
def cInexact (d : Descriptor) : Bool := cOp d == 1 && dget d 38 3 3 == 0 && (dtFmt (cType d)).isSome

/-- The combinations of R212. -/
def cComboOk (d : Descriptor) : Bool :=
  let t := cType d
  let sub := dSub d
  let float := (dtFmt t).isSome
  let int := 0x10 ≤ t && t ≤ 0x13
  if sub = 6 then t == 0 && cOp d == 0 && cCount d == 0 && dAddr d == 0 && dAddr2 d == 0
  else if sub = 1 ∨ sub = 5 then cOp d == 0 && t != 0
  else (1 ≤ cOp d && cOp d ≤ 3 && (float || int)) || (4 ≤ cOp d && cOp d ≤ 6 && int)

/-- The active dimensions (R203). -/
def cDims (d : Descriptor) : List Nat := [0, 1, 2].filter (cPhase d)

/-! ## Groups (R201, R230) -/

/-- A line group. -/
def State.group (s : State) (dim g : Nat) : CscGroup := SMap.getD (fun _ => .init) s.csc.groups (dim * 4096 + g)

/-- Write a line group. -/
def State.setGroup (s : State) (dim g : Nat) (v : CscGroup) : State :=
  { s with csc := { s.csc with groups := SMap.put (fun _ => .init) s.csc.groups (dim * 4096 + g) v } }

/-- The coordinates of a mask, and the member index of a coordinate. -/
def coordsOf (mask : Nat) : List Nat := (List.range 48).filter (bitOf mask)
def memberIdx (mask c : Nat) : Nat := ((coordsOf mask).filter (· < c)).length

/-- An active instance uses the group (CSC_GROUP_CFG.busy). -/
def State.groupBusy (s : State) (dim g : Nat) : Bool :=
  s.csc.insts.any fun i => cPhase i.desc dim && cGroup i.desc dim == g

/-! ## An instance's geometry (R203, R207, R208) -/

/-- The kinds of a line step. -/
inductive CscKind where
  | E | R | B | RS | AG
  deriving DecidableEq, Repr

/-- The steps of an instance, in order. -/
def CscInst.steps (i : CscInst) : List (CscKind × Nat) :=
  let ds := cDims i.desc
  match dSub i.desc with
  | 1 => ds.map (.B, ·)
  | 2 => ds.map (.R, ·)
  | 3 => if i.long then ds.map (.RS, ·) ++ ds.map (.AG, ·) else ds.map (.E, ·)
  | 4 => ds.map (.RS, ·)
  | 5 => ds.map (.AG, ·)
  | _ => ds.map (.E, ·)

def CscInst.mask (i : CscInst) (dim : Nat) : Nat := i.masks.getD dim 0

/-- The member count and this node's member index in a dimension. -/
def CscInst.size (i : CscInst) (dim : Nat) : Nat := (coordsOf (i.mask dim)).length
def State.instIdx (s : State) (i : CscInst) (dim : Nat) : Nat := memberIdx (i.mask dim) (s.coord dim)

/-- The root's member index. -/
def CscInst.rootIdx (i : CscInst) (dim : Nat) : Nat := memberIdx (i.mask dim) (nodeCoord (cRoot i.desc) dim)

/-- The box size P. -/
def CscInst.box (i : CscInst) : Nat := (cDims i.desc).foldl (fun a d => a * i.size d) 1

/-- The elements that the instance ranges over. -/
def CscInst.total (i : CscInst) : Nat :=
  cCount i.desc * (if dSub i.desc = 4 ∨ dSub i.desc = 5 then i.box else 1)

/-- Block `j` of `m` of a range (R208). -/
def blockOfRange (r : Nat × Nat) (m j : Nat) : Nat × Nat :=
  let n := r.2 - r.1
  (r.1 + j * n / m, r.1 + (j + 1) * n / m)

/-- The range this node holds before the RS step number `k`. -/
def State.rsRange (s : State) (i : CscInst) (k : Nat) : Nat × Nat :=
  ((cDims i.desc).take k).foldl (fun r d => blockOfRange r (i.size d) (s.instIdx i d)) (0, i.total)

/-- Element indices of a range. -/
def rangeList (r : Nat × Nat) : List Nat := (List.range (r.2 - r.1)).map (r.1 + ·)

/-- The elements that member `j` of dimension `dim` holds before AG step number `k`. -/
def State.agHeld (s : State) (i : CscInst) (k dim j : Nat) : List Nat :=
  let ds := cDims i.desc
  let done := ds.take k
  (ds.foldl (fun rs d =>
    rs.flatMap fun r =>
      if done.contains d then (List.range (i.size d)).map fun a => blockOfRange r (i.size d) a
      else [blockOfRange r (i.size d) (if d = dim then j else s.instIdx i d)]) [(0, i.total)]).flatMap rangeList

/-- This node takes part in a step (R207). -/
def State.takesPart (s : State) (i : CscInst) (st : CscKind × Nat) : Bool :=
  let at_ (d : Nat) : Bool := s.coord d == nodeCoord (cRoot i.desc) d
  match st.1 with
  | .B => (cDims i.desc).all fun e => e ≤ st.2 || at_ e
  | .R => (cDims i.desc).all fun e => st.2 ≤ e || at_ e
  | _ => true

/-- The other members of the line. -/
def State.others (s : State) (i : CscInst) (dim : Nat) : List Nat :=
  (List.range (i.size dim)).filter (· != s.instIdx i dim)

/-- The members from which this node needs contributions in a step. -/
def State.recvFrom (s : State) (i : CscInst) (st : CscKind × Nat) : List Nat :=
  let d := st.2
  let me := s.instIdx i d
  match st.1 with
  | .E => if cInexact i.desc ∧ me ≠ 0 then [0] else s.others i d
  | .R => if me = i.rootIdx d then s.others i d else []
  | .B => if me = i.rootIdx d then [] else [i.rootIdx d]
  | _ => s.others i d

/-- The destinations of this node's data as a step starts: (key, members); key 64 means all at once. -/
def State.sendUnits (s : State) (i : CscInst) (st : CscKind × Nat) : List (Nat × List Nat) :=
  let d := st.2
  let me := s.instIdx i d
  let us := match st.1 with
    | .E => if cInexact i.desc then (if me = 0 then [] else [(0, [0])]) else [(64, s.others i d)]
    | .R => if me = i.rootIdx d then [] else [(i.rootIdx d, [i.rootIdx d])]
    | .B => if me = i.rootIdx d then [(64, s.others i d)] else []
    | .RS => (s.others i d).map fun j => (j, [j])
    | .AG => [(64, s.others i d)]
  us.filter fun u => !u.2.isEmpty

/-- This node's own value enters the combination, or is what the step spreads. -/
def State.ownNeeded (s : State) (i : CscInst) (st : CscKind × Nat) : Bool :=
  let me := s.instIdx i st.2
  match st.1 with
  | .E => !(cInexact i.desc && me != 0)
  | .R => me == i.rootIdx st.2
  | .B => me == i.rootIdx st.2
  | _ => true

/-- The elements that member `src` sends toward destination key `to` in step number `t`. -/
def State.unitIdx (s : State) (i : CscInst) (t : Nat) (dest src : Nat) : List Nat :=
  match i.steps[t]? with
  | some (.RS, d) => rangeList (blockOfRange (s.rsRange i t) (i.size d) dest)
  | some (.AG, d) => s.agHeld i (t - (if dSub i.desc = 3 then (cDims i.desc).length else 0)) d src
  | _ => rangeList (0, i.total)

/-- Elements of a segment, and the segments of `n` elements (R222); a collective without data has one token (R210). -/
def State.segElems (s : State) (d : Descriptor) : Nat :=
  let kib := max 1 (min 0x80 (s.fld CSC_CTL.seg_kib 0 0))
  max 1 (kib * 1024 / max 1 (dtSize (cType d)))
def State.segCount (s : State) (d : Descriptor) (n : Nat) : Nat :=
  if cCount d = 0 then 1 else (n + s.segElems d - 1) / s.segElems d
def State.segSlice (s : State) (d : Descriptor) (l : List Nat) (g : Nat) : List Nat :=
  (l.drop (g * s.segElems d)).take (s.segElems d)

/-- The destination key under which this node receives in a step. -/
def State.myKey (s : State) (i : CscInst) (st : CscKind × Nat) : Nat := if st.1 = .RS then s.instIdx i st.2 else 64

/-- Segments of step `t` at this node: as many as it sends or receives. -/
def State.segsOf (s : State) (i : CscInst) (t : Nat) : Nat :=
  match i.steps[t]? with
  | none => 0
  | some st =>
    let n (dest src : Nat) : Nat := s.segCount i.desc (s.unitIdx i t dest src).length
    let me := s.instIdx i st.2
    let ins := (me :: s.recvFrom i st).map fun j => n (s.myKey i st) j
    let outs := (s.sendUnits i st).map fun u => n u.1 me
    (ins ++ outs).foldl max 0

/-- The level of the values that step `t` starts from: after the last step before it in which this node took part. -/
def State.inLevel (s : State) (i : CscInst) (t : Nat) : Nat :=
  ((List.range t).filter fun k => (i.steps[k]?).any (s.takesPart i)).foldl (fun _ k => k + 1) 0

/-- The step after which values are rounded: the last that combines (R207, R209); none where nothing combines. -/
def CscInst.roundStep (i : CscInst) : Option Nat :=
  ((List.range i.steps.length).filter fun k => match i.steps[k]? with
    | some (.E, _) => true | some (.R, _) => true | some (.RS, _) => true | _ => false).getLast?

/-! ## Elements and records (R213, R218, R219) -/

def CscInst.val (i : CscInst) (lv k : Nat) : Option CscElem := SMap.find? i.vals (lv * 2 ^ 40 + k)
def CscInst.setVal (i : CscInst) (lv : Nat) (e : Nat × CscElem) : CscInst :=
  { i with vals := SMap.insert i.vals (lv * 2 ^ 40 + e.1) e.2 }

/-- An element as an accumulator. -/
def toAcc (d : Descriptor) : CscElem → Acc
  | .acc a => a
  | .raw x => match dtFmt (cType d) with | some f => f.toAcc x | none => ⟨x, false, false, false, true⟩

/-- A signed reading of the low `w` bits. -/
def signedOf (w x : Nat) : Int := if x % 2 ^ w < 2 ^ (w - 1) then x % 2 ^ w else (x % 2 ^ w : Nat) - (2 ^ w : Nat)

/-- Combine two elements' bits by an operation other than an exact SUM (R213, R219): halves are added in binary32. -/
def opBits (d : Descriptor) (x y : Nat) : Nat :=
  let t := cType d
  let w := 8 * dtSize t
  match dtFmt t with
  | some f =>
    match cOp d with
    | 1 => if w = 16 then fmt32.add x y else f.add x y
    | 2 => f.min x y
    | _ => f.max x y
  | none =>
    let signed := t == 0x10 || t == 0x12
    let lt := if signed then decide (signedOf w x < signedOf w y) else decide (x < y)
    match cOp d with
    | 1 => (x + y) % 2 ^ w
    | 2 => if lt then x else y
    | 3 => if lt then y else x
    | 4 => x &&& y
    | 5 => x ||| y
    | _ => x ^^^ y

def rawBits : CscElem → Nat
  | .raw x => x
  | .acc _ => 0

/-- An element as it enters a combination: an accumulator, a binary32 value of a half, or itself. -/
def enterElem (d : Descriptor) (e : CscElem) : CscElem :=
  if cExact d then .acc (toAcc d e)
  else if cInexact d ∧ dtSize (cType d) = 2 then
    .raw (match dtFmt (cType d) with | some f => f.widen (rawBits e) | none => rawBits e)
  else e

def combineElems (d : Descriptor) (a b : CscElem) : CscElem :=
  if cExact d then .acc ((toAcc d a).add (toAcc d b)) else .raw (opBits d (rawBits a) (rawBits b))

/-- A contribution on its own, as one that a combination begins with: a float MIN or MAX makes every NaN canonical (R213). -/
def loneElem (d : Descriptor) (e : CscElem) : CscElem :=
  if (dtFmt (cType d)).isSome && (cOp d == 2 || cOp d == 3) then combineElems d e e else e

/-- A combination leaves a step: a non-exact SUM in its own datatype (R209, R219). -/
def leaveElem (d : Descriptor) (e : CscElem) : CscElem :=
  if cInexact d ∧ dtSize (cType d) = 2 then
    .raw (match dtFmt (cType d) with | some f => f.narrow (rawBits e) | none => rawBits e)
  else e

/-- The final value of an element (R209, R216). -/
def roundElem (d : Descriptor) (e : CscElem) : CscElem :=
  if cExact d then
    .raw (match dtFmt (cType d) with | some f => f.round 0 (toAcc d e) | none => 0)
  else e

/-- The partial record of an accumulator of `n` limbs, the shortest (R218). -/
def Acc.record (n : Nat) (a : Acc) : List Byte :=
  let st := b2n a.nan + 2 * b2n a.pinf + 4 * b2n a.ninf + 8 * b2n a.nnz
  let m := (a.sum % (2 ^ (64 * n) : Nat)).toNat
  let limb (k : Nat) : Nat := m / 2 ^ (64 * k) % 2 ^ 64
  let (lo, cnt) :=
    if a.sum = 0 then (0, 0)
    else
      let lo := ((List.range n).find? fun k => limb k != 0).getD 0
      let fits (c : Nat) : Bool :=
        signedOf (64 * c) (m / 2 ^ (64 * lo)) == signedOf (64 * (n - lo)) (m / 2 ^ (64 * lo))
      (lo, (((List.range (n - lo)).map (· + 1)).find? fits).getD (n - lo))
  leBytes 8 (st * 2 ^ 48 + cnt * 2 ^ 52 + lo * 2 ^ 58) ++ leBytes (8 * cnt) (m / 2 ^ (64 * lo))

/-- Read one record of an accumulator of `n` limbs. -/
def readRecord (n : Nat) (bs : List Byte) : Option (Acc × List Byte) :=
  let h := ofLE (bs.take 8)
  let lo := bitsOf h 63 58
  let cnt := bitsOf h 57 52
  if bs.length < 8 + 8 * cnt ∨ n < lo + cnt then none
  else
    let v := ofLE ((bs.drop 8).take (8 * cnt))
    let sum : Int := if cnt = 0 then 0 else signedOf (64 * cnt) v * (2 ^ (64 * lo) : Nat)
    some (⟨sum, bitOf h 48, bitOf h 49, bitOf h 50, bitOf h 51⟩, bs.drop (8 + 8 * cnt))

/-- Elements of step `t` travel as partial records (R209, R218): between the combining steps of an exact SUM. -/
def CscInst.partial? (i : CscInst) (t : Nat) : Bool :=
  cExact i.desc && t != 0 && (match i.roundStep with | some k => t ≤ k | none => false)

/-- One element's bytes. -/
def elemBytes (d : Descriptor) (rec : Bool) (e : CscElem) : List Byte :=
  if rec then (toAcc d e).record (dtLimbs (cType d)) else leBytes (dtSize (cType d)) (rawBits e)

/-- Read `k` elements from a packet's bytes; none where a record breaks its bound or the bytes do not fit. -/
def readElems (d : Descriptor) (rec : Bool) : Nat → List Byte → Option (List CscElem)
  | 0, bs => if bs.isEmpty then some [] else none
  | k + 1, bs =>
    if rec then
      match readRecord (dtLimbs (cType d)) bs with
      | some (a, bs) => (readElems d rec k bs).map (CscElem.acc a :: ·)
      | none => none
    else
      let n := dtSize (cType d)
      if bs.length < n then none else (readElems d rec k (bs.drop n)).map (CscElem.raw (ofLE (bs.take n)) :: ·)

/-! ## Packets (R220, R239) -/

/-- The signature of an instance. -/
def CscInst.signature (i : CscInst) : Nat :=
  let d := i.desc
  (crc32c (leBytes 1 (dSub d) ++ leBytes 1 (cType d) ++ leBytes 1 (cOp d) ++ leBytes 1 (dget d 38 7 0) ++
    leBytes 4 (cCount d) ++ leBytes 4 (cRoot d) ++ leBytes 2 (cGroup d 0) ++ leBytes 2 (cGroup d 1) ++
    leBytes 2 (cGroup d 2) ++ leBytes 1 (b2n (dSub d == 3 && i.long)) ++ leBytes 1 0)).toNat

def xCdim (p : Packet) : Nat := hget p 35 34
def xGroup (p : Packet) : Nat := hget p 47 36
def xMember (p : Packet) : Nat := hget p 53 48
def xStep (p : Packet) : Nat := hget p 57 54
def xCtype (p : Packet) : Nat := hget p 60 58
def xAttempt (p : Packet) : Nat := hget p 68 61
def xSeq (p : Packet) : Nat := kget p 31 0
def xSig (p : Packet) : Nat := kget p 63 32
def xSeg (p : Packet) : Nat := kget p 89 64
def xFirst (p : Packet) : Nat := kget p 106 90
def xNelem (p : Packet) : Nat := kget p 122 107

/-- A Cascade packet of this node, its destination still to be set. -/
def State.cascadePkt (s : State) (cls dim group member step ctype attempt seq sig seg first nelem : Nat)
    (bs : List Byte) : Packet :=
  let f := packFields [(0, 2, dim), (2, 12, group), (14, 6, member), (20, 4, step), (24, 3, ctype), (27, 8, attempt)]
  ⟨mkHdr 0 s.node (f % 2 ^ 20) (f / 2 ^ 20 % 2 ^ 20) (f / 2 ^ 40) (vcOf cls (ctype == 2)) (s.fld RTE_EPOCH.active 0 0) 8 0
    cls bs.length
    (packFields [(0, 32, seq), (32, 32, sig), (64, 26, seg), (90, 17, first), (107, 16, nelem)]), bs⟩

/-- A packet of an instance in a dimension. -/
def State.instPkt (s : State) (i : CscInst) (dim step ctype attempt seg first nelem : Nat) (bs : List Byte) : Packet :=
  s.cascadePkt (dPktClass i.desc) dim (cGroup i.desc dim) (s.instIdx i dim) step ctype attempt (i.seqs.getD dim 0)
    i.signature seg first nelem bs

/-- Hand a multicast to RTE, or keep it while RTE has no room (R258). -/
def State.cscOut (s : State) (dim : Nat) (coords : List Nat) (p : Packet) : State :=
  if coords.isEmpty then s
  else if s.csc.out.isEmpty && s.mcastRoom then s.multicast dim coords p
  else { s with csc := { s.csc with out := s.csc.out ++ [(dim, coords, p)] } }

/-- Hand waiting multicasts to RTE. -/
def State.cscDrain (s : State) : Nat → State
  | 0 => s
  | fuel + 1 =>
    match s.csc.out with
    | [] => s
    | (d, cs, p) :: rest =>
      if s.mcastRoom then (({ s with csc := { s.csc with out := rest } }).multicast d cs p).cscDrain fuel else s

/-- The coordinates of some members. -/
def CscInst.coords (i : CscInst) (dim : Nat) (ms : List Nat) : List Nat :=
  ms.filterMap fun m => (coordsOf (i.mask dim))[m]?

/-- Split elements into packets of at most 4,096 bytes: (first, elements), in order. -/
def packElems (d : Descriptor) (rec : Bool) : Nat → List CscElem → List (Nat × List CscElem) → List (Nat × List CscElem)
  | _, [], acc => acc.reverse
  | k, e :: es, [] => packElems d rec (k + 1) es [(k, [e])]
  | k, e :: es, (f, cur) :: acc =>
    if ((cur ++ [e]).map fun x => (elemBytes d rec x).length).sum ≤ 4096 then
      packElems d rec (k + 1) es ((f, cur ++ [e]) :: acc)
    else packElems d rec (k + 1) es ((k, [e]) :: (f, cur) :: acc)

/-- Send a segment's elements to members: one packet at least. -/
def State.sendElems (s : State) (i : CscInst) (dim t g attempt : Nat) (members : List Nat) (es : List CscElem) : State :=
  let rec? := i.partial? t
  let parts := match packElems i.desc rec? 0 es [] with | [] => [(0, [])] | ps => ps
  let s := match s.handle? ⟨i.ctx, i.index⟩ with
    | some h =>
      let key := handleKey h.ref
      ((s.setHandle { h with sent := true }).stampFirst 1 key 6).stampLast 1 key 7
    | none => s
  parts.foldl (fun s (f, es) =>
    s.cscOut dim (i.coords dim members)
      (s.instPkt i dim t 0 attempt g f es.length (es.flatMap (elemBytes i.desc rec?)))) s

/-! ## Instances -/

/-- The instance of a handle. -/
def State.inst? (s : State) (h : HandleRef) : Option CscInst :=
  s.csc.insts.find? fun i => i.ctx == h.ctx && i.index == h.index

def CscInst.ref (i : CscInst) : HandleRef := ⟨i.ctx, i.index⟩

/-- Write an instance. -/
def State.setInst (s : State) (v : CscInst) : State :=
  { s with csc := { s.csc with insts := s.csc.insts.map fun i => if i.ctx = v.ctx ∧ i.index = v.index then v else i } }

/-- An instance ends here. -/
def State.dropInst (s : State) (v : CscInst) : State :=
  { s with csc := { s.csc with insts := s.csc.insts.filter fun i => !(i.ctx == v.ctx && i.index == v.index) } }

/-- byte_count of an instance so far. -/
def CscInst.bytes (i : CscInst) : Nat := i.written.length * dtSize (cType i.desc)

/-- Send the aborts of an instance on its lines that have another member, but for the one an abort came by (R226). -/
def State.sendAborts (s : State) (i : CscInst) (st dt : Nat) (but : Option Nat) : State :=
  ((cDims i.desc).filter fun d => some d != but && !(s.others i d).isEmpty).foldl (fun s d =>
    let s := (s.bump CSC_ABORT_COUNT.count 0 0).setFlag CSC_STATUS.abort 0 0 true
    s.cscOut d (i.coords d (s.others i d)) (s.instPkt i d 0 3 0 0 (st + dt * 2 ^ 8) 0 [])) s

/-- Abort an instance (R226). -/
def State.abortInst (s : State) (i : CscInst) (st dt : Nat) (but : Option Nat) : State :=
  ((s.dropInst i).sendAborts i st dt but).complete i.ref st dt i.bytes 0

/-- The segment-step, as it stands or fresh. -/
def CscInst.segAt (i : CscInst) (t g : Nat) : CscSeg :=
  (i.segs.find? fun x => x.step == t && x.seg == g).getD ⟨t, g, false, false, 0, 0, 0, []⟩

def CscInst.setSeg (i : CscInst) (v : CscSeg) : CscInst :=
  if i.segs.any fun x => x.step == v.step && x.seg == v.seg then
    { i with segs := i.segs.map fun x => if x.step = v.step ∧ x.seg = v.seg then v else x }
  else { i with segs := i.segs ++ [v] }

/-! ## Buffers -/

/-- The bytes of `recv_addr` at which an element lies (R207). -/
def State.recvOffset (s : State) (i : CscInst) (k : Nat) : Nat :=
  let lo := if dSub i.desc = 4 then (s.rsRange i (cDims i.desc).length).1 else 0
  (k - lo) * dtSize (cType i.desc)

/-- The bytes of `send_addr` at which an element lies: an allgather contributes its own block. -/
def State.sendOffset (s : State) (i : CscInst) (k : Nat) : Nat :=
  let lo := if dSub i.desc = 5 then (s.rsRange i (cDims i.desc).length).1 else 0
  (k - lo) * dtSize (cType i.desc)

/-- Runs of consecutive elements. -/
def runsOf : List (Nat × CscElem) → List (Nat × List CscElem)
  | [] => []
  | (k, e) :: rest =>
    match runsOf rest with
    | (k', es) :: rs => if k' = k + 1 then (k, e :: es) :: rs else (k, [e]) :: (k', es) :: rs
    | [] => [(k, [e])]

/-- The elements that this node writes (R207). -/
def State.writesElem (s : State) (i : CscInst) (k : Nat) : Bool :=
  match dSub i.desc with
  | 2 => cRoot i.desc == s.node
  | 4 => let r := s.rsRange i (cDims i.desc).length
         r.1 ≤ k && k < r.2
  | 6 => false
  | _ => true

/-- Values of a level are final (R209). -/
def State.finalAt (_ : State) (i : CscInst) (lv : Nat) : Bool :=
  match i.roundStep with
  | none => true
  | some k => k < lv

/-- What stands in the way of a buffer access: a page's first failure. -/
def State.bufFail (s : State) (i : CscInst) (recv : Bool) (off len : Nat) : Option PlaceFail :=
  let (kind, addr) := if recv then (cRecvKind i.desc, dAddr2 i.desc) else (cSendKind i.desc, dAddr i.desc)
  (s.pages i.ctx kind (addr + off) len recv).findSome? fun (p, n) => p.bind fun p => s.placeCheck p n recv

/-- Write final elements not yet written; a retired bank aborts (R380). -/
def State.writeFinal (s : State) (i : CscInst) (es : List (Nat × CscElem)) : State :=
  let es := es.filter fun e => s.writesElem i e.1 && !i.written.contains e.1
  if dtSize (cType i.desc) = 0 then s
  else
    let mute := (s.handle? i.ref).any (·.mute)
    let s := (runsOf es).foldl (fun s (k, xs) =>
      let bs := xs.flatMap fun e => leBytes (dtSize (cType i.desc)) (rawBits e)
      let a := dAddr2 i.desc + s.recvOffset i k
      (s.xltUse i.ctx (cRecvKind i.desc) a bs.length).writeEach none mute
        (s.pages i.ctx (cRecvKind i.desc) a bs.length true) bs) s
    match s.inst? i.ref with
    | some j => s.setInst { j with written := j.written ++ es.map Prod.fst }
    | none => s

/-- Keep values of a level, and write those that are final. -/
def State.keepVals (s : State) (i : CscInst) (lv : Nat) (es : List (Nat × CscElem)) : State :=
  let s := s.setInst (es.foldl (fun i e => i.setVal lv e) i)
  match s.inst? i.ref with
  | some i => if s.finalAt i lv then s.writeFinal i (es.map fun e => (e.1, roundElem i.desc e.2)) else s
  | none => s

/-! ## Staging (R222, R223) -/

/-- The bytes of a segment at the datatype size, at most what the instance's largest step holds. -/
def State.segBytes (s : State) (i : CscInst) : Nat :=
  min (s.segElems i.desc) i.total * dtSize (cType i.desc)

/-- Staged bytes of an instance. -/
def CscInst.staged (i : CscInst) : Nat :=
  (((i.sent.filter fun x => x.step != 0).map fun x => (x.step, x.seg, x.dest, x.bytes)).eraseDups.map fun x => x.2.2.2).sum

/-- Staging in use: each instance's reservation of two segments, or what it stages beyond it. -/
def State.stagingUsed (s : State) : Nat := (s.csc.insts.map fun i => max (2 * s.segBytes i) i.staged).sum

/-- The step staging area. -/
def stagingSize : Nat := 960 * 2 ^ 20

/-- This node sends data in a step: as it starts, or, at member 0 of a non-exact sum, as it ends. -/
def State.sendsIn (s : State) (i : CscInst) (st : CscKind × Nat) : Bool :=
  !(s.sendUnits i st).isEmpty ||
    (st.1 == .E && cInexact i.desc && s.instIdx i st.2 == 0 && !(s.others i st.2).isEmpty)

/-- A segment of a later step may be staged, or has nothing that leaves this node. -/
def State.stageRoom (s : State) (i : CscInst) (t : Nat) (st : CscKind × Nat) : Bool :=
  t == 0 || !s.sendsIn i st || i.staged + s.segBytes i ≤ 2 * s.segBytes i || s.stagingUsed + s.segBytes i ≤ stagingSize

/-! ## Starting and ending segment-steps -/

/-- Elements of a segment for a destination key. -/
def State.sliceIdx (s : State) (i : CscInst) (t g dest src : Nat) : List Nat := s.segSlice i.desc (s.unitIdx i t dest src) g

/-- What this node must hold to start a segment-step: (destination key, elements). -/
def State.startNeeds (s : State) (i : CscInst) (t g : Nat) (st : CscKind × Nat) : List (Nat × List Nat) :=
  let me := s.instIdx i st.2
  let own := if s.ownNeeded i st then [(s.myKey i st, s.sliceIdx i t g (s.myKey i st) me)] else []
  own ++ ((s.sendUnits i st).map fun u => (u.1, s.sliceIdx i t g u.1 me)).filter fun u => !(own.map Prod.fst).contains u.1

/-- The elements of a need, once all are there. -/
def CscInst.elemsAt (i : CscInst) (lv : Nat) (ks : List Nat) : Option (List CscElem) :=
  ks.foldr (fun k acc => match i.val lv k, acc with
    | some e, some es => some (e :: es)
    | _, _ => none) (some [])

/-- Record data sent to members as unconfirmed. -/
def CscInst.addSent (i : CscInst) (t g dest : Nat) (ms : List Nat) (bytes : Nat) : CscInst :=
  { i with sent := i.sent ++ ms.map fun m => ⟨t, g, dest, m, bytes⟩ }

/-- Send one unit of a segment-step, when this node has it. -/
def State.sendUnit (s : State) (h : HandleRef) (t g : Nat) (st : CscKind × Nat) (lv : Nat) (u : Nat × List Nat) : State :=
  match s.inst? h with
  | none => s
  | some i =>
    let ks := s.sliceIdx i t g u.1 (s.instIdx i st.2)
    if ks.isEmpty && cCount i.desc != 0 then s
    else match i.elemsAt lv ks with
      | none => s
      | some es =>
        let s := s.setInst (i.addSent t g u.1 u.2 ((es.map fun e => (elemBytes i.desc (i.partial? t) e).length).sum))
        s.sendElems i st.2 t g 0 u.2 es

/-- The reduction unit that takes a segment-step: a free choice among those not retired (R382; log entry 7). -/
def State.pickUnit (s : State) : Nat × State :=
  let (u, s) := s.fresh 3
  ((((List.range 8).map fun k => (u.toNat + k) % 8).find? fun k => !s.csc.retired.contains k).getD u.toNat, s)

/-- Start a segment-step whose needs are met. -/
def State.startSeg (s : State) (h : HandleRef) (t g : Nat) (st : CscKind × Nat) : State :=
  match s.inst? h with
  | none => s
  | some i =>
    let (u, s) := s.pickUnit
    let lv := s.inLevel i t
    let me := s.instIdx i st.2
    let x := i.segAt t g
    let ks := s.sliceIdx i t g (s.myKey i st) me
    let own := if s.ownNeeded i st then (i.elemsAt lv ks).map fun es => (⟨me, 0, es⟩ : CscPart) else none
    let s := s.setInst (i.setSeg { x with
      started := true, startAt := s.now, unit := u, got := x.got ++ own.toList })
    (s.sendUnits i st).foldl (fun s u => s.sendUnit h t g st lv u) s

/-- The elements that member `m` has contributed to a segment-step, when all are there. -/
def CscSeg.fromMember (x : CscSeg) (m n : Nat) : Option (List CscElem) :=
  (List.range n).foldr (fun k acc =>
    let e := x.got.findSome? fun p =>
      if p.member = m ∧ p.first ≤ k then p.elems[k - p.first]? else none
    match e, acc with
    | some e, some es => some (e :: es)
    | _, _ => none) (some [])

/-- A token or data of the member has come. -/
def CscSeg.has (x : CscSeg) (m n : Nat) : Bool :=
  if n = 0 then x.got.any (fun p => p.member == m) else (x.fromMember m n).isSome

/-- Members whose contribution to a segment-step is missing. -/
def State.missing (s : State) (i : CscInst) (t g : Nat) (st : CscKind × Nat) : List Nat :=
  let x := i.segAt t g
  (s.recvFrom i st).filter fun j =>
    let n := (s.sliceIdx i t g (s.myKey i st) j).length
    !(n == 0 && cCount i.desc != 0) && !x.has j n

/-- The values that a segment-step leaves: combined, or received as they are. -/
def State.segResult (s : State) (i : CscInst) (t g : Nat) (st : CscKind × Nat) : List (Nat × CscElem) :=
  let d := i.desc
  let x := i.segAt t g
  let me := s.instIdx i st.2
  let take (j : Nat) : List (Nat × CscElem) :=
    let ks := s.sliceIdx i t g (s.myKey i st) j
    ks.zip ((x.fromMember j ks.length).getD [])
  match st.1 with
  | .AG => (me :: s.recvFrom i st).flatMap take
  | .B => take (i.rootIdx st.2)
  | _ =>
    if st.1 = .E ∧ cInexact d ∧ me ≠ 0 then take 0
    else if st.1 = .R ∧ me ≠ i.rootIdx st.2 then []
    else
      let ks := s.sliceIdx i t g (s.myKey i st) me
      let at_ (k : Nat) : Option CscElem :=
        let es := x.got.filterMap fun p => if p.first ≤ k then p.elems[k - p.first]? else none
        match es.map (enterElem d) with
        | [] => none
        | e :: es => some (leaveElem d (es.foldl (combineElems d) (loneElem d e)))
      (ks.zip (List.range ks.length)).filterMap fun (i, k) => (at_ k).map (i, ·)

/-- The step-end of a segment-step, to every member that sent to it (R221). -/
def State.stepEnd (s : State) (i : CscInst) (t g : Nat) (st : CscKind × Nat) (ms : List Nat) : State :=
  s.cscOut st.2 (i.coords st.2 ms) (s.instPkt i st.2 t 2 (i.segAt t g).attempt g 0 0 [])

/-- End a segment-step: its values stand, its senders hear of it, and member 0 spreads a non-exact sum (R219, R221). -/
def State.endSeg (s : State) (h : HandleRef) (t g : Nat) (st : CscKind × Nat) : State :=
  match s.inst? h with
  | none => s
  | some i =>
    let es := s.segResult i t g st
    let es := if i.roundStep = some t then es.map fun e => (e.1, roundElem i.desc e.2) else es
    let adds := if cExact i.desc ∧ st.1 ≠ .AG ∧ st.1 ≠ .B then
        ((i.segAt t g).got.map fun p => p.elems.length * (if t = 0 then 2 else 1)).sum else 0
    let s := s.pmcEv 7 1 (i.segAt t g).unit 0 adds
    let from_ := (s.recvFrom i st).filter fun j => (i.segAt t g).got.any fun p => p.member == j
    let s := s.stepEnd i t g st from_
    let s := s.setInst (i.setSeg { i.segAt t g with done := true })
    let s := match s.inst? h with | some i => s.keepVals i (t + 1) es | none => s
    match s.inst? h with
    | some i =>
      if st.1 = .E ∧ cInexact i.desc ∧ s.instIdx i st.2 = 0 ∧ !(s.others i st.2).isEmpty then
        s.sendUnit h t g st (t + 1) (64, s.others i st.2)
      else s
    | none => s

/-- A buffer that keeps an access waiting. -/
def State.bufBusy (s : State) (i : CscInst) (recv : Bool) (ks : List Nat) : Bool :=
  ks.any fun k => s.bufFail i recv ((if recv then s.recvOffset i k else s.sendOffset i k)) (dtSize (cType i.desc)) == some .busy

/-- The first buffer failure that ends the instance: RESOURCE_LIMIT detail 7 or 8 (R380, R385). -/
def State.bufDead (s : State) (i : CscInst) (recv : Bool) (ks : List Nat) : Option Nat :=
  ks.findSome? fun k =>
    match s.bufFail i recv (if recv then s.recvOffset i k else s.sendOffset i k) (dtSize (cType i.desc)) with
    | some .retired => some 7
    | some .uncorrectable => some 8
    | _ => none

/-- Read a run of the contribution (R222): to start a segment, or again for a member. -/
def State.readSend (s : State) (i : CscInst) (dest seg : Nat) (ks : List Nat) (again : Option (Nat × Nat)) : State :=
  let sz := dtSize (cType i.desc)
  match ks with
  | [] => s
  | k :: _ =>
    match s.places i.ctx (cSendKind i.desc) (dAddr i.desc + s.sendOffset i k) (ks.length * sz) false with
    | .error _ => s
    | .ok ps =>
      let s := if again.isSome then s else s.setInst { i with reading := i.reading ++ [(dest, seg)] }
      let s := s.xltUse i.ctx (cSendKind i.desc) (dAddr i.desc + s.sendOffset i k) (ks.length * sz)
      (s.gather ps (.csc i.ref dest seg again)).2

/-- The segment-steps of an instance, in order. -/
def State.segSteps (s : State) (i : CscInst) : List (Nat × Nat × (CscKind × Nat)) :=
  (List.range i.steps.length).flatMap fun t => match i.steps[t]? with
    | some st => if s.takesPart i st then (List.range (s.segsOf i t)).map fun g => (t, g, st) else []
    | none => []

/-- What can happen next in an instance (R222). -/
inductive CscAct where
  | endIt (t g : Nat) (st : CscKind × Nat)
  | startIt (t g : Nat) (st : CscKind × Nat)
  | readIt (dest g : Nat) (ks : List Nat)
  | dead (detail : Nat)
  deriving DecidableEq, Repr

/-- The segments of a step that may be active at once, and those that are (R222). -/
def State.segWindow (s : State) : Nat := max 1 (s.fld CSC_CTL.seg_window 0 0)
def CscInst.segsActive (i : CscInst) (t : Nat) : Nat :=
  (i.segs.filter fun y => y.step == t && y.started && !y.done).length

/-- A segment-step could start but for want of staging (R223). -/
def State.segStaging (s : State) (i : CscInst) (t g : Nat) (st : CscKind × Nat) : Bool :=
  let x := i.segAt t g
  !x.started && !x.done && i.segsActive t < s.segWindow && !s.stageRoom i t st &&
    (s.startNeeds i t g st).all fun u => (i.elemsAt (s.inLevel i t) u.2).isSome

/-- The action that a segment-step allows. -/
def State.segAct (s : State) (i : CscInst) (t g : Nat) (st : CscKind × Nat) : Option CscAct :=
  let x := i.segAt t g
  let window := s.segWindow
  let active := i.segsActive t
  if x.done then none
  else if x.started then
    let out := (s.segResult i t g st).map Prod.fst
    let writes := if s.finalAt i (t + 1) then out.filter fun k => s.writesElem i k && !i.written.contains k else []
    if !(s.missing i t g st).isEmpty then none
    else match s.bufDead i true writes with
      | some dt => some (.dead dt)
      | none => if s.bufBusy i true writes then none else some (.endIt t g st)
  else if window ≤ active || !s.stageRoom i t st then none
  else
    let lv := s.inLevel i t
    let needs := s.startNeeds i t g st
    if needs.all fun u => (i.elemsAt lv u.2).isSome then some (.startIt t g st)
    else if lv != 0 then none
    else match needs.find? fun u => !(i.elemsAt 0 u.2).isSome && !i.reading.contains (u.1, g) with
      | none => none
      | some u => match s.bufDead i false u.2 with
        | some dt => some (.dead dt)
        | none => if s.bufBusy i false u.2 then none else some (.readIt u.1 g u.2)

/-- The segments of a box of one node, which runs no step: the contribution is the result. -/
def State.loneAct (s : State) (i : CscInst) : Option CscAct :=
  if !i.steps.isEmpty then none
  else (List.range (s.segCount i.desc i.total)).findSome? fun g =>
    let ks := s.segSlice i.desc (rangeList (0, i.total)) g
    if ks.isEmpty || i.reading.contains (64, g) || (i.elemsAt 0 ks).isSome then none
    else match (s.bufDead i false ks).or (s.bufDead i true ks) with
      | some dt => some (.dead dt)
      | none => if s.bufBusy i false ks || s.bufBusy i true ks then none else some (.readIt 64 g ks)

/-- The elements that the node must have written before it completes. -/
def State.allWritten (s : State) (i : CscInst) : Bool :=
  if cCount i.desc = 0 || dtSize (cType i.desc) = 0 then true
  else
    let want := match dSub i.desc with
      | 2 => if cRoot i.desc = s.node then i.total else 0
      | 4 => let r := s.rsRange i (cDims i.desc).length
             r.2 - r.1
      | _ => i.total
    want ≤ i.written.length

/-- The instance has run to its end (R210). -/
def State.instDone (s : State) (i : CscInst) : Bool :=
  i.sent.isEmpty && s.allWritten i && (s.segSteps i).all fun (t, g, _) => (i.segAt t g).done

/-- Take the instance as far as it goes, in at most `fuel` actions. -/
def State.cscRun (s : State) (h : HandleRef) : Nat → State
  | 0 => s
  | fuel + 1 =>
    match s.inst? h with
    | none => s
    | some i =>
      match ((s.segSteps i).findSome? fun (t, g, st) => s.segAct i t g st).or (s.loneAct i) with
      | some (.endIt t g st) => (s.endSeg h t g st).cscRun h fuel
      | some (.startIt t g st) => (s.startSeg h t g st).cscRun h fuel
      | some (.readIt dest g ks) => (s.readSend i dest g ks none).cscRun h fuel
      | some (.dead dt) => s.abortInst i 0x18 dt none
      | none => if s.instDone i then (s.dropInst i).complete h 0 0 i.bytes 0 else s

/-- Enough actions for every segment-step. -/
def State.cscFuel (s : State) (i : CscInst) : Nat :=
  200 * ((s.segSteps i).length + s.segCount i.desc i.total) + 8

/-- Take an instance as far as it goes. -/
def State.cscGo (s : State) (h : HandleRef) : State :=
  match s.inst? h with
  | some i => s.cscRun h (s.cscFuel i)
  | none => s

/-- Take every instance as far as it goes. -/
def State.cscGoAll (s : State) : State :=
  let s := s.cscDrain 64
  s.csc.insts.foldl (fun s i => s.cscGo i.ref) s

/-- The bytes of a read of the contribution are there. -/
def State.cscGathered (s : State) (h : HandleRef) (dest g : Nat) (again : Option (Nat × Nat)) (bs : List Byte) : State :=
  match s.inst? h with
  | none => s
  | some i =>
    let sz := max 1 (dtSize (cType i.desc))
    let es := (List.range (bs.length / sz)).map fun k => CscElem.raw (ofLE ((bs.drop (k * sz)).take sz))
    match again with
    | some (m, attempt) =>
      match i.steps[0]? with
      | some (_, d) => s.sendElems i d 0 g attempt [m] es
      | none => s
    | none =>
      match i.steps[0]? with
      | some st =>
        let ks := s.sliceIdx i 0 g dest (s.instIdx i st.2)
        let i := { i with reading := i.reading.filter (· != (dest, g)) }
        let own := dSub i.desc = 5 || dSub i.desc = 1
        let s := s.setInst ((ks.zip es).foldl (fun i e => i.setVal 0 e) i)
        match s.inst? h with
        | some i => if own then s.writeFinal i (ks.zip es) else s
        | none => s
      | none =>
        let ks := s.segSlice i.desc (rangeList (0, i.total)) g
        let i := { i with reading := i.reading.filter (· != (dest, g)) }
        let s := s.setInst ((ks.zip es).foldl (fun i e => i.setVal 0 e) i)
        match s.inst? h with
        | some i => s.writeFinal i ((ks.zip es).map fun e => (e.1, roundElem i.desc (enterElem' i.desc e.2)))
        | none => s
where
  /-- A lone contribution enters and leaves a combination once. -/
  enterElem' (d : Descriptor) (e : CscElem) : CscElem := leaveElem d (loneElem d (enterElem d e))

/-! ## Dispatch (R204, R205, R223, R232) -/

/-- The instance that a COLL makes. -/
def State.newInst (s : State) (h : Handle) : CscInst :=
  let d := h.desc
  ⟨h.ctx, h.index, d,
    [0, 1, 2].map (fun k => if cPhase d k then (s.group k (cGroup d k)).seq else 0),
    [0, 1, 2].map (fun k => if cPhase d k then (s.group k (cGroup d k)).mask else 0),
    s.fld CSC_CTL.long_min_kib 0 0 * 1024 ≤ cCount d * dtSize (cType d), [], [], [], [], []⟩

/-- Send and receive lengths at this node (R207). -/
def CscInst.sendLen (i : CscInst) : Nat :=
  let cs := cCount i.desc * dtSize (cType i.desc)
  match dSub i.desc with
  | 4 => i.box * cs
  | 6 => 0
  | _ => cs
def State.recvLen (s : State) (i : CscInst) : Nat :=
  let cs := cCount i.desc * dtSize (cType i.desc)
  match dSub i.desc with
  | 2 => if cRoot i.desc = s.node then cs else 0
  | 5 => i.box * cs
  | 6 => 0
  | _ => cs

/-- The root lies in the box (R203). -/
def State.rootInBox (s : State) (i : CscInst) : Bool :=
  cRoot i.desc < 110592 && [0, 1, 2].all fun d =>
    if cPhase i.desc d then bitOf (i.mask d) (nodeCoord (cRoot i.desc) d)
    else nodeCoord (cRoot i.desc) d == s.coord d

/-- The checks of R205 in order. -/
def State.collRefusal (s : State) (h : Handle) : Option (Nat × Nat) :=
  let d := h.desc
  let i := s.newInst h
  let gs := (cDims d).map fun k => (k, s.group k (cGroup d k))
  let range (kind addr len : Nat) (write : Bool) : Option (Nat × Nat) :=
    match s.places h.ctx kind addr len write with
    | .error e => some (0x13, e)
    | .ok _ => none
  let sl := i.sendLen
  let rl := s.recvLen i
  if s.lcntBad h then some (0x18, 1)
  else if !cComboOk d then some (0x15, 3)
  else if !(gs.all fun g => g.2.valid && g.2.owner == h.ctx) then some (0x18, 3)
  else if !(gs.all fun g => bitOf g.2.mask (s.coord g.1)) then some (0x18, 4)
  else if dSub d = 6 then none
  else if (dSub d = 1 ∨ dSub d = 2) ∧ !s.rootInBox i then some (0x18, 5)
  else if 2 ^ 36 < sl ∨ 2 ^ 36 < rl then some (0x13, 0)
  else match range (cSendKind d) (dAddr d) sl false with
    | some e => some e
    | none => match range (cRecvKind d) (dAddr2 d) rl true with
      | some e => some e
      | none =>
        if cSendKind d = cRecvKind d ∧ 0 < sl ∧ 0 < rl ∧ dAddr d < dAddr2 d + rl ∧ dAddr2 d < dAddr d + sl then
          some (0x13, 9)
        else none

/-- Staging has room for an instance's reservation (R223). -/
def State.collStaging (s : State) (i : CscInst) : Bool := s.stagingUsed + 2 * s.segBytes i ≤ stagingSize

/-- Room to start another instance (R223, R229). -/
def State.collRoom (s : State) (i : CscInst) : Bool := s.csc.insts.length < 16384 && s.collStaging i

/-- A group's sequence count is taken (R204). -/
def State.takeSeq (s : State) (dim g : Nat) : State :=
  let v := s.group dim g
  s.setGroup dim g { v with seq := (v.seq + 1) % 2 ^ 32 }

/-! ## Arrivals (R220 to R226) -/

/-- The instance that a packet belongs to. -/
def State.instOf (s : State) (p : Packet) : Option CscInst :=
  s.csc.insts.find? fun i => xCdim p < 3 && cPhase i.desc (xCdim p) && cGroup i.desc (xCdim p) == xGroup p &&
    i.seqs.getD (xCdim p) 0 == xSeq p

/-- How far a packet's sequence number lies ahead of its group's count. -/
def State.seqAhead (s : State) (p : Packet) : Nat := (xSeq p + 2 ^ 32 - (s.group (xCdim p) (xGroup p)).seq) % 2 ^ 32

/-- The early arrival area has room (R223). -/
def State.earlyRoom (s : State) (p : Packet) : Bool :=
  ((s.csc.early.map fun q => 64 * pFlits q).sum + 64 * pFlits p) ≤ 64 * 2 ^ 20

/-- An early packet is discarded. -/
def State.dropEarly (s : State) : State := s.bump CSC_EARLY_DROP_COUNT.count 0 0

/-- A packet breaks the format (R218, R220). -/
def State.badFormat (s : State) : State := s.fault 7 1 0

/-- Answer a packet with the step-end of its segment-step, from its own fields (R221, R224). -/
def State.answerEnd (s : State) (p : Packet) : State :=
  let d := xCdim p
  s.cscOut d [nodeCoord (pSrcNode p) d]
    (s.cascadePkt (pClass p) d (xGroup p) (memberIdx (s.group d (xGroup p)).mask (s.coord d)) (xStep p) 2 (xAttempt p)
      (xSeq p) (xSig p) (xSeg p) 0 0 [])

/-- Data for an active instance (R221, R225). -/
def State.dataFor (s : State) (i : CscInst) (p : Packet) : State :=
  let t := xStep p
  match i.steps[t]? with
  | none => s
  | some st =>
    if st.2 ≠ xCdim p || !s.takesPart i st || !(s.recvFrom i st).contains (xMember p) then s
    else
      let x := i.segAt t (xSeg p)
      if x.done then s.stepEnd i t (xSeg p) st [xMember p]
      else if xAttempt p < x.attempt % 256 then s
      else match readElems i.desc (i.partial? t) (xNelem p) p.bytes with
        | none => s.badFormat
        | some es =>
          if x.got.any fun q => q.member == xMember p && q.first == xFirst p then s
          else
            (s.setInst (i.setSeg { x with got := x.got ++ [⟨xMember p, xFirst p, es⟩] })).cscGo i.ref

/-- A step-end for an active instance: its sender's data is confirmed. -/
def State.endFor (s : State) (i : CscInst) (p : Packet) : State :=
  (s.setInst { i with sent := i.sent.filter fun x =>
    !(x.step == xStep p && x.seg == xSeg p && x.member == xMember p) }).cscGo i.ref

/-- A re-request for an active instance: the data goes again, from staging or from the send buffer (R225). -/
def State.againFor (s : State) (i : CscInst) (p : Packet) : State :=
  let t := xStep p
  let g := xSeg p
  let m := xMember p
  match i.steps[t]? with
  | none => s
  | some st =>
    if st.2 ≠ xCdim p || !s.takesPart i st || !(i.segAt t g).started then s
    else
      let me := s.instIdx i st.2
      let spread := decide (st.1 = .E) && cInexact i.desc && me == 0
      if spread && !(i.segAt t g).done then s
      else
        let key := if st.1 = .RS then m else 64
        let lv := if spread then t + 1 else s.inLevel i t
        let ks := s.sliceIdx i t g key me
        if lv = 0 && !ks.isEmpty then s.readSend i key g ks (some (m, xAttempt p))
        else match i.elemsAt lv ks with
          | some es => s.sendElems i st.2 t g (xAttempt p) [m] es
          | none => s

/-- A packet for an active instance: its signature first (R220, R226). -/
def State.cscAct (s : State) (i : CscInst) (p : Packet) : State :=
  if xCtype p = 3 then s.abortInst i (bitsOf (xFirst p) 7 0) (bitsOf (xFirst p) 15 8) (some (xCdim p))
  else if xSig p ≠ i.signature then s.abortInst i 0x18 6 none
  else match xCtype p with
    | 0 => s.dataFor i p
    | 1 => s.againFor i p
    | _ => s.endFor i p

/-- A packet without an active instance: kept early, or of an instance that has completed (R224). -/
def State.cscEarly (s : State) (p : Packet) : State :=
  let a := s.seqAhead p
  if 3 ≤ xCdim p then s.dropEarly
  else if 2 ^ 31 ≤ a then (if xCtype p = 0 then s.answerEnd p else s)
  else if xCtype p = 1 ∨ xCtype p = 2 then s
  else if a < 16 && s.earlyRoom p then { s with csc := { s.csc with early := s.csc.early ++ [p] } }
  else s.dropEarly

/-- A Cascade packet arrives (R220, R224, R232). -/
def State.cscArrive (s : State) (p : Packet) : State :=
  if s.inSetup 7 then s.dropEarly
  else if 4 ≤ xCtype p then s.badFormat
  else match s.instOf p with
    | some i => s.cscAct i p
    | none => s.cscEarly p

/-- Start the instance of a COLL that has passed its checks: sequence numbers, then the early packets (R204, R224). -/
def State.startInst (s : State) (h : Handle) : State :=
  let i := s.newInst h
  let s := (s.activate h).stampFirst 1 (handleKey h.ref) 5
  let s := (cDims h.desc).foldl (fun s d => s.takeSeq d (cGroup h.desc d)) s
  let s := { s with csc := { s.csc with insts := s.csc.insts ++ [i] } }
  let mine := s.csc.early.filter fun p => s.instOf p == some i
  let s := { s with csc := { s.csc with early := s.csc.early.filter fun p => !mine.contains p } }
  let s := mine.foldl (fun s p => match s.inst? h.ref with | some i => s.cscAct i p | none => s) s
  s.cscGo h.ref

/-- Dispatch of a COLL; `turn` when it leads those that wait for staging. -/
def State.dispatchColl (s : State) (h : Handle) (turn : Bool) : State :=
  if s.inSetup 7 then s.hold h
  else match s.collRefusal h with
    | some (st, dt) => s.finish h.ref st dt
    | none =>
      if (turn || s.csc.wait.isEmpty) && s.collRoom (s.newInst h) then s.startInst h
      else if s.csc.wait.contains h.ref then s
      else
        let s := s.hold h
        { s with csc := { s.csc with wait := s.csc.wait ++ [h.ref] } }

/-- Staging has freed: waiting COLLs start in order while there is room, and waiting segments (R223). -/
def State.stagingFreed (s : State) : Nat → State
  | 0 => s
  | fuel + 1 =>
    match s.csc.wait with
    | [] => s
    | hr :: rest =>
      match s.handle? hr with
      | none => ({ s with csc := { s.csc with wait := rest } }).stagingFreed fuel
      | some h =>
        if s.collRoom (s.newInst h) then
          let s := { s with csc := { s.csc with wait := rest } }
          (s.dispatchColl h true).stagingFreed fuel
        else s

/-- Re-request what a segment-step lacks (R225). -/
def State.rerequest (s : State) (i : CscInst) (t g : Nat) (st : CscKind × Nat) : State :=
  let ms := s.missing i t g st
  if ms.isEmpty then s
  else
    let x := i.segAt t g
    let s := s.setInst (i.setSeg { x with startAt := s.now })
    let s := (s.bump CSC_RESTART_COUNT.count 0 0).pmcEv 7 2 0 0 1
    s.cscOut st.2 (i.coords st.2 ms) (s.instPkt i st.2 t 1 (x.attempt % 256) g 0 0 [])

/-- The re-request interval (R225). -/
def State.rereqPs (s : State) : Nat := us (max 50 (s.fld CSC_CTL.rerequest_us 0 0))

/-- A segment-step restarts: its state is gone, the attempt goes up, every contribution is asked for again (R225). -/
def State.restartSeg (s : State) (h : HandleRef) (t g : Nat) : State :=
  match s.inst? h with
  | none => s
  | some i =>
    match i.steps[t]? with
    | none => s
    | some st =>
      let x := i.segAt t g
      let me := s.instIdx i st.2
      let own := x.got.filter fun p => p.member == me
      let (u, s) := s.pickUnit
      let s := s.setInst (i.setSeg { x with got := own, unit := u, attempt := x.attempt + 1, startAt := s.now })
      match s.inst? h with
      | some i => s.rerequest i t g st
      | none => s

/-- The running segment-steps that a reduction unit holds restart (R225, R366). -/
def State.unitLost (s : State) (u : Nat) : State :=
  s.csc.insts.foldl (fun s i =>
    (i.segs.filter fun x => x.started && !x.done && x.unit == u).foldl (fun s x => s.restartSeg i.ref x.step x.seg) s) s

/-- The running segment-steps of which a retired HBM pseudo-channel holds state restart (R225): of which it does is a free
value (log entry 132). -/
def State.pcLost (s : State) : State :=
  s.csc.insts.foldl (fun s i =>
    (i.segs.filter fun x => x.started && !x.done).foldl (fun s x =>
      let (b, s) := s.fresh 1
      if b = 1 then s.restartSeg i.ref x.step x.seg else s) s) s

/-- An open COLL after a replay (R228): its aborts are sent and it ends. Its sequence numbers are not journalled: the aborts
carry free values (log entry 132). -/
def State.collLost (s : State) (h : Handle) : State :=
  let (a, s) := s.fresh 32
  let (b, s) := s.fresh 32
  let (c, s) := s.fresh 32
  let i := { s.newInst h with seqs := [a.toNat, b.toNat, c.toNat] }
  (s.sendAborts i 0x11 0 none).finish h.ref 0x11 0

/-- The timeout of a COLL (R226). -/
def State.timeoutColl (s : State) (h : Handle) : State :=
  let s := s.pmcEv 6 4 0 0 1
  match s.inst? h.ref with
  | some i => s.abortInst i 0x11 0 none
  | none => s.finish h.ref 0x11 0

end Sys2Proof.Machine
end

