-- ==== Sys2Proof/Machine/Mat.lean ====
section
/-!
DEFINITION. MAT: the match store and the Sump, presentation and posting, early messages, placement, pulls, withdrawals,
SEND at its source, cancelling and closing (R134 to R164).
-/
set_option Elab.async false
namespace Sys2Proof.Machine

/-! ## Keys, bins and entries (R142, R143) -/

/-- The key block of a class. -/
def matKey (cls ctx comm rank tag src msn : Nat) : List Byte :=
  leBytes 1 cls ++ leBytes 3 ctx ++
    (if cls = 4 then leBytes 5 src ++ leBytes 4 msn
     else leBytes 2 comm ++ leBytes 3 (if cls = 1 ∨ cls = 3 then 0 else rank) ++
       leBytes 4 (if cls = 2 ∨ cls = 3 then 0 else tag)) ++ leBytes 3 0

/-- The key of an entry. -/
def MatEntry.key (e : MatEntry) : List Byte := matKey e.cls e.ctx e.comm e.rank e.tag e.src e.msn

/-- The bin of a key. -/
def State.binOf (s : State) (key : List Byte) : Nat :=
  ((crc32c key).toNat ^^^ s.fld MAT_HASH_SEED.seed 0 0) % 2 ^ 22

/-- Probes of the bins of some keys, for a context: match attempts, of which the match cache of 4,096 bins serves those whose bin
it holds (R166, R445). The cache keeps the bins last probed (log entry 140). -/
def State.matProbes (s : State) (c : Nat) (keys : List (List Byte)) : State :=
  keys.foldl (fun s k =>
    let b := s.binOf k
    let hit := s.mat.binCache.contains b
    let s : State := { s with mat := { s.mat with binCache := (b :: s.mat.binCache.filter (· != b)).take 4096 } }
    (s.pmcEv 5 1 (c % 8) 0 1).pmcEv 5 2 (c % 8) 0 (b2n hit)) s

/-- The head of a key's list. -/
def State.matHead (s : State) (key : List Byte) : Option (Nat × MatEntry) :=
  List.find? (fun (e : Nat × MatEntry) => e.2.key == key) s.mat.store

/-- Entries in hardware and in the overflow area. -/
def State.matHw (s : State) : List (Nat × MatEntry) := s.mat.store.filter fun e => !e.2.ovf
def State.matOvf (s : State) : List (Nat × MatEntry) := s.mat.store.filter fun e => e.2.ovf

/-- The distinct keys of some entries. -/
def keysOf (es : List (Nat × MatEntry)) : List (List Byte) := (es.map fun e => e.2.key).eraseDups

/-- The keys of bin `b` whose list begins in the overflow area (R156). -/
def State.spillKeys (s : State) (b : Nat) : List (List Byte) :=
  (keysOf (s.matOvf.filter fun e => s.binOf e.2.key == b)).filter fun k => (s.matHead k).any fun e => e.2.ovf

/-- A bin is flagged. -/
def State.binFlagged (s : State) (b : Nat) : Bool := !(s.spillKeys b).isEmpty

/-- Flagged bins. -/
def State.flaggedBins (s : State) : List Nat :=
  ((s.matOvf.map fun e => s.binOf e.2.key).eraseDups).filter s.binFlagged

/-- The places taken in a bin of 8, in the pool, and in the overflow area (R143). -/
def State.binUsed (s : State) (b : Nat) : List Nat :=
  (s.matHw.filter fun e => e.2.slot / 8 == b).map fun e => e.2.slot % 8
def State.poolUsed (s : State) : List Nat :=
  (s.matHw.filter fun e => 2 ^ 25 ≤ e.2.slot).map fun e => e.2.slot - 2 ^ 25
def State.ovfUsed (s : State) : List Nat := s.matOvf.map fun e => e.2.slot - 2 ^ 26

/-- Where a new entry goes: hardware, the overflow area through the firmware, or nowhere (R156, R159). -/
inductive MatRoom where
  | hw | ovf | full
  deriving DecidableEq, Repr

/-- Room for an entry of a key: the later entries of a list come from the pool, the first of a key from its bin. -/
def State.matRoom (s : State) (key : List Byte) : MatRoom :=
  let ok :=
    if (s.matHead key).isSome then s.poolUsed.length < 2 ^ 25
    else (s.binUsed (s.binOf key)).length < 8
  if ok then .hw else if s.matOvf.length < 2 ^ 23 then .ovf else .full

/-- The place of a new entry of a key, in hardware or in the overflow area. -/
def State.matPlace (s : State) (key : List Byte) (ovf : Bool) : Nat × State :=
  if ovf then
    let (k, s) := s.takePlace s.ovfUsed (2 ^ 23)
    (2 ^ 26 + k, s)
  else if (s.matHead key).isSome then
    let (k, s) := s.takePlace s.poolUsed (2 ^ 25)
    (2 ^ 25 + k, s)
  else
    let b := s.binOf key
    let (k, s) := s.takePlace (s.binUsed b) 8
    (8 * b + k, s)

/-- The MATCH_ADD record of an entry (R390, R396): posted receives, unexpected headers and tombstones. -/
def State.addRecord (s : State) (e : MatEntry) : JRec :=
  .matchAdd e.kind e.cls e.ctx e.comm e.rank e.tag e.stamp
    (if e.kind = 0 then ((s.handle? ⟨e.ctx, e.handle⟩).map s.handleWord).getD 0 else e.handle)
    (if e.kind = 0 then e.addr else e.src + e.gran * 2 ^ 40) e.size e.msn e.arrived.length e.total e.pull e.heldSend e.bufKind

/-- The entry is journalled. -/
def MatEntry.journalled (e : MatEntry) : Bool := e.cls != 4 || e.kind == 2

/-- An entry joins the store at a place, last of its list, and is journalled. -/
def State.matAt (s : State) (e : MatEntry) (slot : Nat) (ovf : Bool) : State :=
  let s := { s with mat := { s.mat with
    store := SMap.insert s.mat.store s.mat.nextId { e with ovf := ovf, slot := slot }
    nextId := s.mat.nextId + 1 } }
  if e.journalled then s.report (s.addRecord e) else s

/-- Store an entry in hardware, or through the firmware in the overflow area (R143, R156). -/
def State.matStore (s : State) (e : MatEntry) (ovf : Bool) : State :=
  let (k, s) := s.matPlace e.key ovf
  let s := if ovf then ((s.fault 5 1 0).pmcEv 5 3 0 0 1).fwPush (.matchOverflow e.ctx) else s
  s.matAt e k ovf

/-- Insert an entry, where there is room. -/
def State.matInsert (s : State) (e : MatEntry) : Option State :=
  match s.matRoom e.key with
  | .hw => some (s.matStore e false)
  | .ovf => some (s.matStore e true)
  | .full => none

/-- Change an entry. -/
def State.matSet (s : State) (i : Nat) (e : MatEntry) : State :=
  { s with mat := { s.mat with store := SMap.insert s.mat.store i e } }

/-- A place has become free: in a flagged bin, the firmware moves an overflow key back into it (R157). -/
def State.placeFreed (s : State) (slot : Nat) : State :=
  if 2 ^ 25 ≤ slot then s
  else match s.spillKeys (slot / 8) with
    | [] => s
    | k :: _ => match s.matHead k with
      | some (j, n) => s.matSet j { n with ovf := false, slot := slot }
      | none => s

/-- Remove an entry: where it is the head, the next of its list takes its place (R141, R157). -/
def State.matRemove (s : State) (i : Nat) (e : MatEntry) : State :=
  let head := (s.matHead e.key).map Prod.fst == some i
  let s := { s with mat := { s.mat with store := SMap.erase s.mat.store i } }
  let s := if e.journalled then s.report (.matchDel e.ctx e.cls e.stamp e.src e.msn) else s
  match head, s.matHead e.key with
  | true, some (j, n) => (s.matSet j { n with ovf := e.ovf, slot := e.slot }).placeFreed n.slot
  | _, _ => s.placeFreed e.slot

/-- Unexpected messages of a context, in presentation order (the chain of R144). -/
def State.uxChain (s : State) (c : Nat) : List (Nat × MatEntry) :=
  s.mat.store.filter fun e => e.2.ctx == c && e.2.cls == 0 && e.2.kind == 1

/-- The index of the entry before and after one in a list of entries, where there is one (R143). -/
def entryAfter (es : List (Nat × MatEntry)) (i : Nat) : Nat :=
  (((es.dropWhile fun e => e.1 != i).drop 1).head?.map fun e => e.2.slot).getD 0x7FFFFFF

/-- The 64 bytes of an entry (R143), with its links in its list and in its context's chain. -/
def State.matEntryBytes (s : State) (i : Nat) (e : MatEntry) : List Byte :=
  let list := s.mat.store.filter fun x => x.2.key == e.key
  let chain := if e.cls = 0 ∧ e.kind = 1 then s.uxChain e.ctx else []
  let handle := if e.kind = 0 then ((s.handle? ⟨e.ctx, e.handle⟩).map s.handleWord).getD 0 else e.handle
  let tail := if (list.head?.map Prod.fst) = some i then (list.getLast?.map fun x => x.2.slot).getD 0x7FFFFFF else 0x7FFFFFF
  fieldBytes 64 [
    (0, 1, 2 ^ 7 + b2n e.heldSend * 2 ^ 6 + b2n e.pull * 2 ^ 5 + b2n (e.kind == 1 && e.arrived.length == e.total) * 2 ^ 4 +
      b2n (e.kind != 0) * 2 ^ 3 + e.cls),
    (1, 3, e.ctx), (4, 2, e.comm), (6, 3, e.rank), (9, 1, e.bufKind), (10, 4, e.tag), (14, 1, e.arrived.length),
    (15, 1, e.total), (16, 8, e.stamp), (24, 8, handle), (32, 8, if e.kind = 0 then e.addr else e.src + e.gran * 2 ^ 40),
    (40, 4, e.size), (44, 4, e.msn), (48, 4, entryAfter list i), (52, 4, tail), (56, 4, entryAfter chain.reverse i),
    (60, 4, entryAfter chain i)]

/-! ## The Sump (R149) -/

/-- Granules of a run. -/
def granules (size : Nat) : Nat := (size + 255) / 256

/-- The runs in use, of stored messages and of bound ones whose payload is still to be copied: first granule and length. -/
def State.sumpRuns (s : State) : List (Nat × Nat) :=
  ((s.mat.store.filter fun e => e.2.kind == 1 && !e.2.pull && e.2.size != 0).map fun e => (e.2.gran, granules e.2.size)) ++
    ((s.mat.bound.filter fun b => !b.wait.isEmpty && b.length != 0).map fun b => (b.gran, granules b.length))

/-- Granules in use. -/
def State.sumpUsed (s : State) : Nat := (s.sumpRuns.map Prod.snd).sum

/-- The lowest start of a free run of `n` granules: 0, or the end of a run in use. -/
def State.sumpFit (s : State) (n : Nat) : Option Nat :=
  let runs := s.sumpRuns
  let free (a : Nat) : Bool := a + n ≤ 2 ^ 24 && runs.all fun (b, m) => a + n ≤ b || b + m ≤ a
  let starts := (0 :: runs.map fun (b, m) => b + m).filter free
  starts.foldl (fun best a => match best with | none => some a | some b => some (min a b)) none

/-- The high mark asks for deferral of a message of this length. -/
def State.sumpHigh (s : State) (size : Nat) : Bool :=
  let pct := min 100 (s.fld MAT_SUMP_CFG.high_pct 0 0)
  (2 ^ 24 - s.sumpUsed) * 100 ≤ (100 - pct) * 2 ^ 24 && s.fld MAT_SUMP_CFG.small_limit 0 0 < size

/-- Give an eager message that appears its run, or defer it. -/
def State.sumpTake (s : State) (m : MatEntry) : MatEntry × State :=
  if m.pull then (m, s)
  else
    let fit := if m.size = 0 then some 0 else s.sumpFit (granules m.size)
    match s.sumpHigh m.size, fit with
    | false, some a => ({ m with gran := a }, s)
    | _, _ => ({ m with pull := true, arrived := [], data := [], gran := 0 }, s.bump MAT_DEFER_COUNT.count 0 0)

/-! ## Messages and packets -/

/-- The most data of a SEND packet. -/
def sendChunk : Nat := 4064

/-- The packets of an eager message. -/
def sendTotal (len : Nat) : Nat := max 1 ((len + sendChunk - 1) / sendChunk)

def pMsn (p : Packet) : Nat := xget p 127 96
def pMsgLen (p : Packet) : Nat := xget p 159 128
def pMsgOff (p : Packet) : Nat := xget p 191 160
def pMkind (p : Packet) : Nat := xget p 73 72

/-- The message that a SEND packet belongs to, with no packet present. -/
def msgOf (p : Packet) : MatEntry where
  kind := 1
  cls := 0
  ctx := pDstCtx p
  comm := xget p 47 32
  rank := xget p 71 48
  tag := xget p 31 0
  stamp := 0
  handle := xget p 255 192
  src := pSrcEp p
  msn := pMsn p
  bufKind := 0
  addr := 0
  size := pMsgLen p
  heldSend := false
  pull := pMkind p == 1
  arrived := []
  total := if pMkind p = 1 then 1 else sendTotal (pMsgLen p)
  gran := 0
  data := []
  osn := pOsn p
  vclass := pClass p
  ovf := false
  slot := 0

/-- The key of class 4. -/
def earlyKey (c src msn : Nat) : List Byte := matKey 4 c 0 0 0 src msn

/-- Send an answer of MAT from a context to an endpoint. -/
def State.matAnswer (s : State) (c dst cls osn fdelta mop handle aux : Nat) (bs : List Byte) : State :=
  s.present (s.mkPkt (s.ctx c).port c dst 7 cls (kindMat osn fdelta mop handle aux) bs)

/-- Report one packet of a message placed. -/
def State.reportPlaced (s : State) (c src cls osn handle off : Nat) : State := s.matAnswer c src cls osn 0 2 handle off []

/-- Refuse a packet of a SEND, or a withdrawal. -/
def State.matRefuse (s : State) (p : Packet) (st dt : Nat) (busy : Bool) : State :=
  s.matAnswer (pDstCtx p) (pSrcEp p) (pClass p) (pOsn p) 0 7 (xget p 255 192) (st + dt * 2 ^ 8 + b2n busy * 2 ^ 16) []

/-- A busy refusal (R159): every busy refusal that MAT sends of a SEND or withdrawal, for whatever cause, counts in
MAT_BUSY_COUNT and as store-busy (log entry 121). -/
def State.matBusy (s : State) (p : Packet) : State :=
  (((s.matRefuse p 0 0 true).bump MAT_BUSY_COUNT.count 0 0).setFlag MAT_STATUS.busy 0 0 true).fault 5 2 0

/-! ## Bound receives (R151) -/

/-- The bound receive of a message. -/
def State.boundOf (s : State) (c src msn : Nat) : Option Bound :=
  s.mat.bound.find? fun b => b.ctx == c && b.src == src && b.msn == msn

/-- The bound receive of a RECV_POST that still runs. -/
def State.boundFor (s : State) (h : HandleRef) : Option Bound :=
  s.mat.bound.find? fun b => b.ctx == h.ctx && b.index == h.index && !b.finished

/-- Write a bound receive. -/
def State.setBound (s : State) (v : Bound) : State :=
  { s with mat := { s.mat with bound := s.mat.bound.map fun b =>
      if b.ctx = v.ctx ∧ b.src = v.src ∧ b.msn = v.msn then v else b } }

/-- The bytes a bound receive takes. -/
def Bound.want (b : Bound) : Nat := min b.length b.capacity

/-- The pages of a receive's buffer that message bytes from an offset fall into, below the capacity. -/
def State.boundPages (s : State) (b : Bound) (off : Nat) (bs : List Byte) : List (Option Place × Nat) :=
  s.pages b.ctx b.bufKind (b.addr + off) (bs.take (b.capacity - off)).length true

/-- Place message bytes at an offset; those at or beyond the capacity are discarded. A retired bank takes nothing, and the
receive will end with its refusal (R380; log entry 20). -/
def State.placeAt (s : State) (b : Bound) (off : Nat) (bs : List Byte) : State :=
  let keep := bs.take (b.capacity - off)
  let mute := (s.handle? ⟨b.ctx, b.index⟩).any (·.mute)
  let s := s.xltUse b.ctx b.bufKind (b.addr + off) keep.length
  let ps := s.boundPages b off bs
  let bad := s.pagesRetired ps
  let s := s.writeEach (some 3) mute ps keep
  s.setBound { b with placed := b.placed + keep.length, arrived := b.arrived ++ [off], retired := b.retired || bad }

/-- The finish notice of a pull: the bytes placed. -/
def State.finishNotice (s : State) (b : Bound) : State := s.matAnswer b.ctx b.src b.vclass b.osn 0 6 b.handle b.placed []

/-- A bound receive ends with a status and a detail. -/
def State.boundDone (s : State) (b : Bound) (status detail bytes : Nat) : State :=
  (s.setBound { b with finished := true }).complete ⟨b.ctx, b.index⟩ status detail bytes
    (BitVec.ofNat 64 (b.tag + b.rank * 2 ^ 32))

/-- End a bound receive once every byte it takes is placed (R151, R153). -/
def State.boundEnd (s : State) (c src msn : Nat) : State :=
  match s.boundOf c src msn with
  | none => s
  | some b =>
    if b.finished || b.placed < b.want then s
    else
      let s := if b.pull then s.finishNotice b else s
      if b.retired then s.boundDone b 0x18 7 0
      else s.boundDone b (if b.capacity < b.length then 0x14 else 0) 0 b.want

/-- The offsets of a pull that have not been answered. -/
def Bound.unpulled (b : Bound) : List Nat :=
  ((List.range ((b.want + 4095) / 4096)).map (4096 * ·)).filter fun o => !b.pulled.contains o

/-- Present the unanswered requests of a pull (R153). -/
def State.pullSend (s : State) (b : Bound) : State :=
  let s := s.setBound { b with lastTx := s.now, lostAt := if s.hasRoute (epNode b.src) then none else some (b.lostAt.getD s.now) }
  b.unpulled.foldl (fun s o =>
    s.matAnswer b.ctx b.src b.vclass b.osn (min 4096 (b.want - o) - 1) 4 b.handle o []) s

/-- Copy what a bound message has in the Sump into the receive's buffer, as far as no bank keeps it waiting (R151). -/
def State.copySump (s : State) (c src msn : Nat) : State :=
  let parts := ((s.boundOf c src msn).map (·.wait)).getD []
  let s := parts.foldl (fun s (off, bs) =>
    match s.boundOf c src msn with
    | none => s
    | some b =>
      if s.pagesBusy (s.boundPages b off bs) then s
      else
        let s := s.placeAt { b with wait := b.wait.filter (·.1 != off) } off bs
        if s.rsvOn then s.reportPlaced c src b.vclass b.osn b.handle off else s) s
  s.boundEnd c src msn

/-- A bound message with payload that can be copied from the Sump now. -/
def State.readyCopy (s : State) : Option Bound :=
  s.mat.bound.find? fun b => b.wait.any fun x => !s.pagesBusy (s.boundPages b x.1 x.2)

/-- Bind a message to a receive: final. Bytes held in the Sump are placed, a pull starts (R135, R151, R153). -/
def State.bindMsg (s : State) (m r : MatEntry) : State :=
  let b : Bound := ⟨m.ctx, r.handle, m.src, m.msn, m.handle, m.osn, m.vclass, m.size, r.size, r.bufKind, r.addr, m.tag,
    m.rank, m.pull, m.total, [], 0, s.now, none, [], false, m.gran, if m.pull then [] else m.data, false⟩
  let old := s.mat.bound.filter fun x => !(x.ctx == m.ctx && x.src == m.src && x.msn == m.msn)
  let s := { s with mat := { s.mat with bound := old ++ [b] } }
  let s := s.report (.bind m.ctx r.handle m.handle m.src m.pull m.msn m.size)
  if m.pull then
    let s := s.pullSend b
    s.boundEnd m.ctx m.src m.msn
  else s.copySump m.ctx m.src m.msn

/-! ## Presentation and posting (R145, R146) -/

/-- Posted, unbound receives of a wildcard class. -/
def CtxRec.wcCount (r : CtxRec) (k : Nat) : Nat :=
  match k with
  | 1 => r.wcSrc
  | 2 => r.wcTag
  | _ => r.wcBoth

/-- Change the count of a wildcard class by one. -/
def State.wcAdd (s : State) (c k : Nat) (up : Bool) : State :=
  let r := s.ctx c
  let f (n : Nat) : Nat := if up then n + 1 else n - 1
  match k with
  | 1 => s.setCtx c { r with wcSrc := f r.wcSrc }
  | 2 => s.setCtx c { r with wcTag := f r.wcTag }
  | 3 => s.setCtx c { r with wcBoth := f r.wcBoth }
  | _ => s

/-- The classes a presentation probes. -/
def State.probeClasses (s : State) (c : Nat) : List Nat :=
  [0, 1, 2, 3].filter fun k => k == 0 || (s.ctx c).wcCount k != 0

/-- The matching receive with the lowest posting stamp. -/
def State.bestReceive (s : State) (m : MatEntry) : Option (Nat × MatEntry) :=
  (s.probeClasses m.ctx).foldl (fun best k =>
    match s.matHead (matKey k m.ctx m.comm m.rank m.tag 0 0) with
    | some (i, r) =>
      if r.kind != 0 then best
      else match best with
        | none => some (i, r)
        | some (_, b) => if r.stamp < b.stamp then some (i, r) else best
    | none => best) none

/-- A context's CTX_STATE record after a stamp moved. -/
def State.reportCtx (s : State) (c : Nat) : State := s.report (s.ctxRecord c)

/-- The keys that the presentation of a message probes. -/
def State.presentKeys (s : State) (m : MatEntry) : List (List Byte) :=
  (s.probeClasses m.ctx).map fun k => matKey k m.ctx m.comm m.rank m.tag 0 0

/-- The probes of a presentation. -/
def State.presentProbe (s : State) (m : MatEntry) : State := s.matProbes m.ctx (s.presentKeys m)

/-- A message that no receive matches takes the next presentation stamp: its entry. -/
def State.unexpected (s : State) (m : MatEntry) : MatEntry × State :=
  let c := s.ctx m.ctx
  ({ m with kind := 1, cls := 0, stamp := c.presStamp, heldSend := m.pull || s.rsvOn },
    (s.setCtx m.ctx { c with presStamp := c.presStamp + 1 }).pmcEv 5 4 0 0 1)

/-- Present a message (R145); none where the store is full. -/
def State.presentMsg (s : State) (m : MatEntry) : Option State :=
  let s := s.presentProbe m
  match s.bestReceive m with
  | some (i, r) => some (((s.matRemove i r).wcAdd m.ctx r.cls false).bindMsg m r)
  | none =>
    let (e, s) := s.unexpected m
    (s.matInsert e).map fun s => s.reportCtx m.ctx

/-- Present the early message of a class-4 entry (R141): where no receive matches it, that entry becomes its unexpected
entry. -/
def State.presentEarly (s : State) (i : Nat) (m : MatEntry) : State :=
  let s := s.presentProbe m
  match s.bestReceive { m with cls := 0 } with
  | some (j, r) => (((s.matRemove i m).matRemove j r).wcAdd m.ctx r.cls false).bindMsg { m with cls := 0 } r
  | none =>
    let (e, s) := s.unexpected m
    let s : State := { s with mat := { s.mat with store := SMap.erase s.mat.store i } }
    (s.matAt e m.slot m.ovf).reportCtx m.ctx

/-- expected_msn of a pair advances. -/
def State.advanceMsn (s : State) (c src : Nat) : State :=
  let v := s.peerOf c src
  s.putPeer { v with expectedMsn := (v.expectedMsn + 1) % 2 ^ 32 }

/-- early_count of a pair changes by one. -/
def State.earlyAdd (s : State) (c src : Nat) (up : Bool) : State :=
  let v := s.peerOf c src
  s.setPeer { v with earlyCount := if up then v.earlyCount + 1 else v.earlyCount - 1 }

/-- Some of the keys lie in a flagged bin, whose probe the firmware completes (R157). -/
def State.anyFlagged (s : State) (ks : List (List Byte)) : Bool := ks.any fun k => s.binFlagged (s.binOf k)

/-- An event of a context waits for the firmware before every later one of the context (R158). -/
def State.eventFirst (s : State) (e : MatEvent) (c : Nat) : State :=
  let s := s.pmcEv 5 3 0 0 1
  { s with mat := { s.mat with events := (c, e) :: s.mat.events } }

/-- The class-4 probe for the expected message of a pair, and what it finds (R141): a tombstone is passed over, a message is
presented, once the firmware has completed the probes that need it (`found`). Whether the resolution goes on. -/
def State.resolveOne (s : State) (c src : Nat) (found : Bool) : State × Bool :=
  match s.matHead (earlyKey c src (s.peerOf c src).expectedMsn) with
  | none => (s, false)
  | some (i, e) =>
    if e.kind = 2 then (((s.matRemove i e).earlyAdd c src false).advanceMsn c src, true)
    else if !found && s.anyFlagged (s.presentKeys e) then (s.eventFirst (.resolve c src true) c, false)
    else (((s.presentEarly i e).earlyAdd c src false).advanceMsn c src, true)

/-- Resolve the early messages of a pair (R141), in at most `fuel` steps; a probe of a flagged bin waits for the firmware. -/
def State.resolveEarly (s : State) (c src : Nat) : Nat → State
  | 0 => s
  | fuel + 1 =>
    let v := s.peerOf c src
    if v.earlyCount = 0 then s
    else
      let s := s.matProbes c [earlyKey c src v.expectedMsn]
      if s.anyFlagged [earlyKey c src v.expectedMsn] then s.eventFirst (.resolve c src false) c
      else match s.resolveOne c src false with
        | (s, true) => s.resolveEarly c src fuel
        | (s, false) => s

/-- What follows a presentation or withdrawal at expected_msn. -/
def State.advanceAll (s : State) (c src : Nat) : State :=
  (s.advanceMsn c src).resolveEarly c src (s.mat.store.length + 1)

/-- The entry of a RECV_POST. -/
def recvEntry (h : Handle) : MatEntry :=
  let d := h.desc
  let cls := if dAnySource d then (if dAnyTag d then 3 else 1) else if dAnyTag d then 2 else 0
  ⟨0, cls, h.ctx, dComm d, dRank d, dMatchTag d, 0, h.index, 0, 0, dKind d, dAddr d, dLength d, false, false, [], 0, 0, [],
    0, 0, false, 0⟩

/-- A message matches a receive (R134). -/
def matches? (m r : MatEntry) : Bool :=
  m.ctx == r.ctx && m.comm == r.comm && (r.cls == 1 || r.cls == 3 || m.rank == r.rank) &&
    (r.cls == 2 || r.cls == 3 || m.tag == r.tag)

/-- The earliest presented message that a receive matches. -/
def State.firstMessage (s : State) (r : MatEntry) : Option (Nat × MatEntry) :=
  (s.uxChain r.ctx).find? fun e => matches? e.2 r

/-- Post a receive (R146); none where it must wait for an entry. -/
def State.postRecv (s : State) (h : Handle) : Option State :=
  let r := recvEntry h
  let s := if r.cls = 0 then s.matProbes h.ctx [r.key] else s
  match s.firstMessage r with
  | some (i, m) => some ((s.matRemove i m).bindMsg m r)
  | none =>
    let c := s.ctx h.ctx
    match s.matInsert { r with stamp := c.postStamp } with
    | none => none
    | some s =>
      some (((s.setCtx h.ctx { s.ctx h.ctx with postStamp := c.postStamp + 1 }).wcAdd h.ctx r.cls true).reportCtx h.ctx)

/-! ## Held receives and cancels (R159, R161) -/

/-- Wait in the context's receive stream. -/
def State.recvWait (s : State) (h : HandleRef) : State :=
  let s := s.setCtx h.ctx { s.ctx h.ctx with recvHeld := true }
  { s with mat := { s.mat with held := s.mat.held ++ [(h.ctx, h.index)] } }

/-- A receive leaves the wait. -/
def State.recvUnwait (s : State) (h : HandleRef) : State :=
  let s := { s with mat := { s.mat with held := s.mat.held.filter (· != (h.ctx, h.index)) } }
  s.setCtx h.ctx { s.ctx h.ctx with recvHeld := s.mat.held.any fun e => e.1 == h.ctx }

/-- A RECV_POST event (R146, R159): behind a held receive of its context it waits too. -/
def State.postEvent (s : State) (hr : HandleRef) : State :=
  match s.handle? hr with
  | none => s
  | some h =>
    if (s.ctx hr.ctx).recvHeld then s.recvWait hr
    else match s.postRecv h with
      | some s => s
      | none => s.recvWait hr

/-- A posted, unbound receive ends ABORTED detail 0x05. -/
def State.cancelPosted (s : State) (i : Nat) (r : MatEntry) : State :=
  ((s.matRemove i r).wcAdd r.ctx r.cls false).finish ⟨r.ctx, r.handle⟩ 0x15 5

/-- The posted entry of a RECV_POST. -/
def State.postedEntry (s : State) (h : HandleRef) : Option (Nat × MatEntry) :=
  List.find? (fun (e : Nat × MatEntry) => e.2.kind == 0 && e.2.ctx == h.ctx && e.2.handle == h.index) s.mat.store

/-- A RECV_CANCEL acts on the receive it names (R161). -/
def State.cancelNow (s : State) (hr : HandleRef) : State :=
  match s.handle? hr with
  | none => s
  | some h =>
    let w := dAddr h.desc
    if w / 2 ^ 44 % 2 ^ 20 ≠ h.ctx then s.finish hr 0x15 3
    else
      let s := match s.currentHandle w with
        | none => s
        | some r =>
          if dOpcode r.desc ≠ 5 then s
          else if s.mat.held.contains (r.ctx, r.index) then (s.recvUnwait r.ref).finish r.ref 0x15 5
          else match s.postedEntry r.ref with
            | some (i, e) => s.cancelPosted i e
            | none => s
      s.finish hr 0 0

/-- The RECV_CANCEL names the held receive of its context: the one that leads the wait (R159). -/
def State.namesHeld (s : State) (h : Handle) : Bool :=
  match s.currentHandle (dAddr h.desc) with
  | some r => (s.mat.held.find? fun e => e.1 == h.ctx) == some (r.ctx, r.index)
  | none => false

/-- A RECV_CANCEL event (R159, R161): behind a held receive that it does not name it waits. -/
def State.cancelEvent (s : State) (hr : HandleRef) : State :=
  match s.handle? hr with
  | none => s
  | some h => if (s.ctx hr.ctx).recvHeld && !s.namesHeld h then s.recvWait hr else s.cancelNow hr

/-- Retry the receive stream of a context from its front, in at most `fuel` steps (R159). -/
def State.recvRelease (s : State) (c : Nat) : Nat → State
  | 0 => s
  | fuel + 1 =>
    match s.mat.held.find? fun e => e.1 == c with
    | none => s
    | some (_, i) =>
      let hr : HandleRef := ⟨c, i⟩
      match s.handle? hr with
      | none => (s.recvUnwait hr).recvRelease c fuel
      | some h =>
        if dOpcode h.desc = 6 then (s.recvUnwait hr).cancelNow hr |>.recvRelease c fuel
        else match s.postRecv h with
          | none => s
          | some s => (s.recvUnwait hr).recvRelease c fuel

/-! ## Arriving SEND packets and withdrawals (R140, R155, R164) -/

/-- The distance d of R140. -/
def State.msnDist (s : State) (p : Packet) : Nat :=
  (pMsn p + 2 ^ 32 - (s.peerOf (pDstCtx p) (pSrcEp p)).expectedMsn) % 2 ^ 32

/-- Put an eager packet's data into a stored message; reported where the source need not wait (R152). -/
def State.joinStored (s : State) (i : Nat) (e : MatEntry) (p : Packet) : State :=
  if e.pull || pMkind p = 1 then s
  else if e.arrived.contains (pMsgOff p) then
    if e.arrived.length = e.total ∧ !s.rsvOn then
      s.reportPlaced e.ctx e.src e.vclass e.osn e.handle (pMsgOff p) else s
  else
    let e := { e with arrived := e.arrived ++ [pMsgOff p], data := e.data ++ [(pMsgOff p, p.bytes.drop 32)] }
    let s := s.matSet i e
    if s.rsvOn then s else s.reportPlaced e.ctx e.src e.vclass e.osn e.handle (pMsgOff p)

/-- The message as its first packet brings it: in the Sump, or deferred, or to be pulled. -/
def State.newMsg (s : State) (p : Packet) : MatEntry × State :=
  let (m, s) := s.sumpTake (msgOf p)
  if m.pull then (m, s)
  else ({ m with arrived := [pMsgOff p], data := [(pMsgOff p, p.bytes.drop 32)] }, s)

/-- Report the first packet of a message that has been stored. -/
def State.reportFirst (s : State) (m : MatEntry) (p : Packet) : State :=
  if m.pull || s.rsvOn then s else s.reportPlaced m.ctx m.src m.vclass m.osn m.handle (pMsgOff p)

/-- The next message of the pair arrives (d = 0). -/
def State.presentPacket (s : State) (p : Packet) : State :=
  let m0 := msgOf p
  let bound := (s.bestReceive m0).isSome
  -- a message that binds at once needs no run
  let (m, s1) := if bound then
      (if m0.pull then m0 else { m0 with arrived := [pMsgOff p], data := [(pMsgOff p, p.bytes.drop 32)] }, s)
    else s.newMsg p
  match s1.presentMsg m with
  | none => s.matBusy p
  | some s2 =>
    let s2 := if bound && !m.pull && !s2.rsvOn then
        s2.reportPlaced m.ctx m.src m.vclass m.osn m.handle (pMsgOff p)
      else if bound then s2 else s2.reportFirst m p
    s2.advanceAll m.ctx m.src

/-- An early message arrives (d from 1 to 65,535). -/
def State.earlyPacket (s : State) (p : Packet) : State :=
  let c := pDstCtx p
  let src := pSrcEp p
  match s.matHead (earlyKey c src (pMsn p)) with
  | some (i, e) => if e.kind = 2 then s else s.joinStored i e p
  | none =>
    let (m, s1) := s.newMsg p
    match s1.matInsert { m with cls := 4 } with
    | none => s.matBusy p
    | some s2 => (s2.earlyAdd c src true).reportFirst m p

/-- A packet of a message already presented or withdrawn (d of 2^31 and above). -/
def State.laterPacket (s : State) (p : Packet) : State :=
  let c := pDstCtx p
  let src := pSrcEp p
  match s.boundOf c src (pMsn p) with
  | some b =>
    let b := { b with tag := xget p 31 0, rank := xget p 71 48, vclass := pClass p }
    if b.pull then (if b.finished then s.finishNotice b else s.setBound b)
    else if b.arrived.length = b.total || b.finished && b.arrived.contains (pMsgOff p) then
      s.reportPlaced c src b.vclass b.osn b.handle (pMsgOff p)
    else if b.arrived.contains (pMsgOff p) then s
    else if b.wait.any (·.1 == pMsgOff p) then s
    else if s.pagesBusy (s.boundPages b (pMsgOff p) (p.bytes.drop 32)) then s.matBusy p
    else
      let s := s.placeAt b (pMsgOff p) (p.bytes.drop 32)
      let s := s.reportPlaced c src b.vclass b.osn b.handle (pMsgOff p)
      s.boundEnd c src b.msn
  | none =>
    match (s.uxChain c).find? fun e => e.2.src == src && e.2.msn == pMsn p with
    | some (i, e) => s.joinStored i e p
    | none =>
      if s.flag RSV_STATUS.replayed 0 0 then
        if pMkind p = 1 then s.matAnswer c src (pClass p) (pOsn p) 0 6 (xget p 255 192) (pMsgLen p) []
        else s.reportPlaced c src (pClass p) (pOsn p) (xget p 255 192) (pMsgOff p)
      else s

/-- A SEND packet that is a match event or continues its message (R140, R163). -/
def State.matPacket (s : State) (p : Packet) : State :=
  let d := s.msnDist p
  if pMkind p = 3 then s.matRefuse p 0x12 0x08 false
  else if !s.isOpen (pDstCtx p) && (s.boundOf (pDstCtx p) (pSrcEp p) (pMsn p)).isNone then
    s.matRefuse p 0x12 0x01 false
  else if 2 ^ 31 ≤ d then s.laterPacket p
  else if 65536 ≤ d then s.matRefuse p 0x12 0x08 false
  else if d = 0 then
    match s.bestReceive (msgOf p) with
    | some (_, r) =>
      if pMkind p != 1 && s.pagesBusy (s.pages (pDstCtx p) r.bufKind (r.addr + pMsgOff p)
          ((p.bytes.drop 32).take (r.size - pMsgOff p)).length true) then s.matBusy p
      else s.presentPacket p
    | none => s.presentPacket p
  else s.earlyPacket p

/-- Answer a withdrawal. -/
def State.wdAnswer (s : State) (p : Packet) (bound : Bool) : State :=
  let s := if bound then s else s.bump MAT_WITHDRAW_COUNT.count 0 0
  s.matAnswer (pDstCtx p) (pSrcEp p) (pClass p) (pOsn p) 0 3 (xget p 255 192) (b2n bound) []

/-- A tombstone of class 4. -/
def tombstone (p : Packet) : MatEntry :=
  { msgOf p with kind := 2, cls := 4, bufKind := 3, pull := false, size := 0, total := 0 }

/-- A withdrawal (R155). -/
def State.matWithdraw (s : State) (p : Packet) : State :=
  let c := pDstCtx p
  let src := pSrcEp p
  let d := s.msnDist p
  if pMkind p = 3 then s.matRefuse p 0x12 0x08 false
  else if !s.isOpen c && (s.boundOf c src (pMsn p)).isNone then s.matRefuse p 0x12 0x01 false
  else if d = 0 then (s.advanceAll c src).wdAnswer p false
  else if 65536 ≤ d ∧ d < 2 ^ 31 then s.matRefuse p 0x12 0x08 false
  else if d < 2 ^ 31 then
    match s.matHead (earlyKey c src (pMsn p)) with
    | some (i, e) =>
      if e.kind = 2 then s.wdAnswer p false
      else
        -- the tombstone takes the entry's place
        let t := { tombstone p with slot := e.slot, ovf := e.ovf }
        ((s.matSet i t).report (s.addRecord t)).wdAnswer p false
    | none =>
      match s.matInsert (tombstone p) with
      | some s => (s.earlyAdd c src true).wdAnswer p false
      | none => s.matBusy p
  else if (s.boundOf c src (pMsn p)).isSome then s.wdAnswer p true
  else match (s.uxChain c).find? fun e => e.2.src == src && e.2.msn == pMsn p with
    | some (i, e) => (s.matRemove i e).wdAnswer p false
    | none => s.wdAnswer p false

/-! ## Match events and the firmware (R147, R156 to R158) -/

/-- The context of an event. -/
def MatEvent.ctx : MatEvent → Nat
  | .packet p => pDstCtx p
  | .post h => h.ctx
  | .cancel h => h.ctx
  | .resolve c _ _ => c

/-- The keys that an event probes first: none for a receive that waits behind a held one (R159). -/
def State.eventKeys (s : State) : MatEvent → List (List Byte)
  | .packet p =>
    let d := s.msnDist p
    if 2 ^ 31 ≤ d then []
    else if d = 0 then
      if pMop p = 1 then []
      else s.presentKeys (msgOf p)
    else if d < 65536 then [earlyKey (pDstCtx p) (pSrcEp p) (pMsn p)] else []
  | .post h =>
    match s.handle? h with
    | some h => if (s.ctx h.ctx).recvHeld then [] else [(recvEntry h).key]
    | none => []
  | .cancel _ => []
  | .resolve c src found =>
    let key := earlyKey c src (s.peerOf c src).expectedMsn
    if found then ((s.matHead key).map fun e => s.presentKeys e.2).getD [] else [key]

/-- A RECV_CANCEL names a receive in the overflow area, which the firmware unlinks (R161). -/
def State.cancelsOvf (s : State) (h : HandleRef) : Bool :=
  (s.handle? h).any fun h => (s.currentHandle (dAddr h.desc)).any fun r => (s.postedEntry r.ref).any fun e => e.2.ovf

/-- The event needs the firmware: it probes a flagged bin (R157), or cancels in the overflow area (R161). -/
def State.needsFirmware (s : State) (e : MatEvent) : Bool :=
  s.anyFlagged (s.eventKeys e) || match e with
    | .cancel h => s.cancelsOvf h
    | _ => false

/-- Carry out a match event. -/
def State.matRun (s : State) : MatEvent → State
  | .packet p => if pMop p = 1 then s.matWithdraw p else s.matPacket p
  | .post h => s.postEvent h
  | .cancel h => s.cancelEvent h
  | .resolve c src found => match s.resolveOne c src found with
    | (s, true) => s.resolveEarly c src (s.mat.store.length + 1)
    | (s, false) => s

/-- An event occurs: it runs, or waits for the firmware, or behind one that does. -/
def State.matEvent (s : State) (e : MatEvent) : State :=
  if (s.mat.events.any fun x => x.1 == e.ctx) || s.needsFirmware e then
    let s := if s.mat.events.any fun x => x.1 == e.ctx then s else s.pmcEv 5 3 0 0 1
    { s with mat := { s.mat with events := s.mat.events ++ [(e.ctx, e)] } }
  else s.matRun e

/-- Run the waiting events of a context up to the next that needs the firmware. -/
def State.runEvents (s : State) (c : Nat) : Nat → State
  | 0 => s
  | fuel + 1 =>
    match s.mat.events.find? fun x => x.1 == c with
    | none => s
    | some (_, e) =>
      if s.needsFirmware e then s
      else
        let s := { s with mat := { s.mat with events := s.mat.events.erase (c, e) } }
        (s.matRun e).runEvents c fuel

/-- The firmware returns the probe of a context's first waiting event. -/
def State.firmwareProbe (s : State) (c : Nat) : State :=
  match s.mat.events.find? fun x => x.1 == c with
  | none => s
  | some (_, e) =>
    let s := { s with mat := { s.mat with events := s.mat.events.erase (c, e) } }
    (s.matRun e).runEvents c s.mat.events.length

/-- A SEND packet or withdrawal arrives at MAT (R160, R164, R176, R399, R404, R407). -/
def State.matArrive (s : State) (p : Packet) : State :=
  let s := s.ctxUse (pDstCtx p)
  if s.rsv.quarantineEnd.isSome then s.dropQuarantined
  else if s.inSetup 5 || s.inSetup 6 || s.rsvHeld || (s.ctx (pDstCtx p)).awaiting then s.matBusy p
  else match s.classify p with
    | (.refuse st dt, s) => s.matRefuse p st dt false
    | (.busy, s) => s.matBusy p
    | (.retired, s) => s
    | (.pass, s) =>
      if pMop p = 1 || s.msnDist p < 65536 then s.matEvent (.packet p) else s.matPacket p

/-! ## SEND at its source (R137, R149, R152, R154) -/

/-- The SEND goes eager: by its length, or because urgent and inline SENDs always do (R149). -/
def State.sendEager (s : State) (d : Descriptor) : Bool :=
  dLength d ≤ min 16384 (s.fld MAT_CTL.eager_limit 0 0) || dUrgent d || dKind d == 3

/-- The match extension of a SEND's packets. -/
def State.sendExt (s : State) (h : Handle) (mkind off : Nat) : List Byte :=
  mkExt (dMatchTag h.desc) (dComm h.desc) (dRank h.desc) mkind h.msn (dLength h.desc) off (s.handleWord h)

/-- fdelta of a request of a handle, 0 once the floor has passed it (R154). -/
def State.fdeltaOf (s : State) (c i : Nat) : Nat :=
  let d := (i + 2 ^ 32 - s.floorOf c) % 2 ^ 32
  if 2 ^ 31 ≤ d then 0 else d

/-- A packet of a SEND: mop 0 with data, mop 1 the withdrawal. -/
def State.sendPkt (s : State) (h : Handle) (mop mkind off : Nat) (bs : List Byte) : Packet :=
  s.mkPkt (s.ctx h.ctx).port h.ctx (dTarget h.desc) 7 (dPktClass h.desc)
    (kindMat h.index (s.fdeltaOf h.ctx h.index) mop (s.handleWord h) 0) (s.sendExt h mkind off ++ bs)

/-- The offsets of a SEND's packets that have no placement report. -/
def State.sendOffsets (_ : State) (h : Handle) : List Nat :=
  let n := if h.eager then sendTotal (dLength h.desc) else 1
  ((List.range n).map (sendChunk * ·)).filter fun o => !h.got.contains o

/-- The packets of a SEND that are unanswered: those with no placement report, and a withdrawal (R159, R181). -/
def State.sendUnanswered (s : State) (h : Handle) : List Nat := s.sendOffsets h ++ (if h.wd = .sent then [wdPart] else [])

/-- Set the busy retry of a SEND: every packet that is unanswered (R159). -/
def State.scheduleMat (s : State) (hr : HandleRef) : State :=
  match s.handle? hr with
  | none => s
  | some h =>
    let t := s.now + us (max 1 (s.fld MAT_CTL.busy_retry_us 0 0))
    s.setHandle ((s.sendUnanswered h).foldl (fun h k => h.putBusy s.now t k) h)

/-- Start to send the packet of a SEND at an offset. -/
def State.sendAt (s : State) (hr : HandleRef) (off : Nat) : State :=
  match s.handle? hr with
  | none => s
  | some h =>
    let d := h.desc
    let n := min sendChunk (dLength d - off)
    if !h.eager then s.presentFor hr off (s.sendPkt h 0 1 0 [])
    else if dKind d = 3 then s.presentFor hr off (s.sendPkt h 0 0 0 (dInline d))
    else match s.places h.ctx (dKind d) (dAddr d + off) n false with
      | .error _ => s
      | .ok ps => match s.placesCheck ps false with
        | some .busy => s.scheduleMat hr
        | some _ => s
        | none => ((s.xltUse h.ctx (dKind d) (dAddr d + off) n).gather ps (.send hr off)).2

/-- Send packets of a SEND: an offset's packet, or the withdrawal. -/
def State.sendThese (s : State) (hr : HandleRef) (ks : List Nat) : State :=
  ks.foldl (fun s k =>
    if k ≠ wdPart then s.sendAt hr k
    else match s.handle? hr with
      | none => s
      | some h => s.presentFor hr wdPart (s.sendPkt h 1 2 0 [])) s

/-- Send what a SEND still has to send, and its withdrawal where one is unanswered. -/
def State.sendAll (s : State) (hr : HandleRef) : State :=
  match s.handle? hr with
  | none => s
  | some h => s.sendThese hr (s.sendUnanswered h)

/-- The checks of R196 on a SEND's source range, its counter, and whether its bytes can be read at all. -/
def State.sendRefusal (s : State) (h : Handle) : Option (Nat × Nat) :=
  let d := h.desc
  if dKind d = 3 then (if s.lcntBad h then some (0x18, 1) else none)
  else match s.places h.ctx (dKind d) (dAddr d) (dLength d) false with
    | .error e => some (0x13, e)
    | .ok ps =>
      if s.lcntBad h then some (0x18, 1)
      else match s.placesCheck ps false with
        | some .retired => some (0x18, 7)
        | some .uncorrectable => some (0x18, 8)
        | _ => none

/-- Dispatch of a SEND (R137, R149, R160, R196). -/
def State.dispatchSend (s : State) (h : Handle) : State :=
  if s.inSetup 5 then s.hold h
  else match s.sendRefusal h with
    | some (st, dt) => s.finish h.ref st dt
    | none =>
      let t := dTarget h.desc
      if (s.peer? h.ctx t).isNone && !s.peerRoom h.ctx t then s.hold h
      else
        let v := s.peerOf h.ctx t
        -- a SEND carried over a replay keeps its msn (R409)
        let msn := if h.msnOk then h.msn else v.nextMsn
        let s := if h.msnOk then s else s.putPeer { v with nextMsn := (v.nextMsn + 1) % 2 ^ 32 }
        let s := s.activate { h with msn := msn, msnOk := true, eager := s.sendEager h.desc }
        (s.sampleLocal (handleKey h.ref) (s.localAddr h.ctx h.desc)).sendAll h.ref

/-- The open SEND that an answer names by its handle. -/
def State.sendOf (s : State) (p : Packet) : Option Handle :=
  match s.currentHandle (pHandle p) with
  | some h => if dOpcode h.desc = 4 ∧ h.phase = .active ∧ h.ctx = pDstCtx p then some h else none
  | none => none

/-- A withdrawal that a context has sent to a target is unanswered (R138). -/
def State.wdOpen (s : State) (c t : Nat) : Bool :=
  ((s.handlesOf c).any fun h => dOpcode h.desc == 4 && h.wd == .sent && dTarget h.desc == t) ||
    s.mat.lost.any fun l => l.ctx == c && dTarget l.desc == t

/-- wd_pending of a pair, where it has a record, follows its withdrawals. -/
def State.refreshWd (s : State) (c t : Nat) : State :=
  match s.peer? c t with
  | some v => s.setPeer { v with wdPending := s.wdOpen c t }
  | none => s

/-- A SEND reaches its end: the status it earns, TIMEOUT once a withdrawal was answered bound, or nothing yet while the
withdrawal is unanswered (R152, R154). -/
def State.sendEnd (s : State) (h : Handle) (st dt bytes : Nat) : State :=
  match h.wd with
  | .sent => s.setHandle { h with fin := some (0x10, 0, bytes) }
  | .bound => s.complete h.ref 0x10 0 bytes 0
  | _ => s.complete h.ref st dt bytes 0

/-- A placement report arrives (R152). -/
def State.placementReport (s : State) (p : Packet) : State :=
  match s.sendOf p with
  | none => s.lateAnswer (pDstCtx p) (pOsn p)
  | some h =>
    let s := s.stampAnswer h
    if h.got.contains (pAux p) then s
    else
      let h := { h with got := h.got ++ [pAux p] }
      let s := s.setHandle h
      if h.eager && (s.sendOffsets h).isEmpty then s.sendEnd h 0 0 (dLength h.desc) else s

/-- A finish notice arrives (R152, R153). -/
def State.finishRecv (s : State) (p : Packet) : State :=
  match s.sendOf p with
  | none => s.lateAnswer (pDstCtx p) (pOsn p)
  | some h =>
    let s := s.stampAnswer h
    match h.fin with
    | some (0x13, dt, _) => s.sendEnd h 0x13 dt (pAux p)
    | _ => s.sendEnd h 0 0 (pAux p)

/-- A withdrawal is no longer re-sent once its handle has completed and it is answered. -/
def State.dropLost (s : State) (c i : Nat) : State :=
  { s with mat := { s.mat with lost := s.mat.lost.filter fun l => !(l.ctx == c && l.index == i) } }

/-- What a withdrawal answer does to the SEND it names. -/
def State.withdrawalEnd (s : State) (p : Packet) : State :=
  match s.sendOf p with
  | none => (s.dropLost (pDstCtx p) (pOsn p)).lateAnswer (pDstCtx p) (pOsn p)
  | some h =>
    let s := s.stampAnswer h
    if h.wd ≠ .sent then s
    else
      -- the withdrawal is answered, whatever still holds the handle
      let h := { h with wd := .bound }
      let s := s.setHandle h
      if pAux p % 2 = 0 then s.complete h.ref 0x10 0 0 0
      else match h.fin with
        | some (0x10, _, n) => s.complete h.ref 0x10 0 n 0
        | _ => s

/-- A withdrawal answer arrives (R154). -/
def State.withdrawalAnswer (s : State) (p : Packet) : State :=
  (s.withdrawalEnd p).refreshWd (pDstCtx p) (pSrcEp p)

/-- The bound receive whose pull an answer belongs to. -/
def State.pullOf (s : State) (p : Packet) : Option Bound :=
  s.mat.bound.find? fun b =>
    b.ctx == pDstCtx p && b.src == pSrcEp p && b.handle == pHandle p && b.pull && !b.finished

/-- A refusal of MAT arrives: of a pull request, or of a SEND or its withdrawal (R152, R153, R159). -/
def State.matRefused (s : State) (p : Packet) : State :=
  let st := bitsOf (pAux p) 7 0
  let dt := bitsOf (pAux p) 15 8
  let busy := bitOf (pAux p) 16
  match s.pullOf p with
  | some b =>
    if busy then s
    else
      let s := if st = 0x12 then s else s.finishNotice b
      s.boundDone b 0x11 0 b.placed
  | none =>
    match s.sendOf p with
    | none =>
      let s := if busy then s else s.dropLost (pDstCtx p) (pOsn p)
      (s.lateAnswer (pDstCtx p) (pOsn p)).refreshWd (pDstCtx p) (pSrcEp p)
    | some h =>
      let s := s.stampAnswer h
      if busy then s.scheduleMat h.ref
      else ((s.setHandle { h with wd := .none }).finish h.ref st dt).refreshWd h.ctx (dTarget h.desc)

/-- The bytes of a pull request are there: the response goes. -/
def State.pullServed (s : State) (p : Packet) (bs : List Byte) : State :=
  (s.matAnswer (pDstCtx p) (pSrcEp p) (pClass p) (pOsn p) (pFdelta p) 5 (pHandle p) (pAux p) bs).endPkt p.hdr true

/-- A pull request arrives at the source (R153), which RMA in setup refuses as busy (R200); a deferred inline SEND is served from
its descriptor. -/
def State.pullRequest (s : State) (p : Packet) : State :=
  let refuse (s : State) (st dt : Nat) (busy : Bool) : State :=
    s.matAnswer (pDstCtx p) (pSrcEp p) (pClass p) (pOsn p) 0 7 (pHandle p) (st + dt * 2 ^ 8 + b2n busy * 2 ^ 16) []
  if s.rsv.quarantineEnd.isSome then s.dropQuarantined
  else if s.inSetup 6 then refuse s 0 0 true
  else match s.sendOf p with
    | none => refuse s 0x12 0x07 false
    | some h =>
      let s := s.ctxUse h.ctx
      let n := pFdelta p + 1
      if dKind h.desc = 3 then s.pullServed p (((dInline h.desc).drop (pAux p)).take n)
      else match s.places h.ctx (dKind h.desc) (dAddr h.desc + pAux p) n false with
      | .error d => refuse ((s.setHandle { h with fin := some (0x13, d, 0) }).fault 4 6 0) 0x13 d false
      | .ok ps => match s.placesCheck ps false with
        | some .busy => refuse s 0 0 true
        | some .retired => refuse (s.setHandle { h with fin := some (0x13, 7, 0) }) 0x13 7 false
        | some .uncorrectable => refuse (s.setHandle { h with fin := some (0x13, 8, 0) }) 0x13 8 false
        | none => ((s.xltUse h.ctx (dKind h.desc) (dAddr h.desc + pAux p) n).gather ps (.pullServe p)).2

/-- A pull response arrives at the receiver (R153). -/
def State.pullResponse (s : State) (p : Packet) : State :=
  match s.pullOf p with
  | none => s.lateAnswer (pDstCtx p) (pOsn p)
  | some b =>
    if !b.unpulled.contains (pAux p) then s
    else if s.pagesBusy (s.boundPages b (pAux p) p.bytes) then s
    else
      let s := s.placeAt { b with pulled := b.pulled ++ [pAux p] } (pAux p) p.bytes
      s.boundEnd b.ctx b.src b.msn

/-- The re-send timer of a pull: its unanswered requests go again (R153, R181). -/
def State.resendPull (s : State) (b : Bound) : State :=
  (s.countResends (if s.hasRoute (epNode b.src) then b.unpulled.length else 0)).pullSend b

/-- No route to the source of a bound receive for timeout_us of its context (R153). -/
def State.pullLost (s : State) (b : Bound) : State := s.boundDone b 0x11 0 b.placed

/-- Re-send the unanswered packets of a SEND, its withdrawal among them, whose time has come (R154, R159, R181). -/
def State.resendSend (s : State) (h : Handle) : State :=
  let ks := h.dueParts s.now s.retryPs (s.sendUnanswered h)
  (s.setHandle (h.restart s.now ks)).sendThese h.ref ks

/-- The unanswered packets of a PUT, GET, ATOMIC or SEND. -/
def State.openParts (s : State) (h : Handle) : List Nat :=
  match dOpcode h.desc with
  | 4 => s.sendUnanswered h
  | 1 => h.unanswered
  | 2 => h.unanswered
  | 3 => h.unanswered
  | _ => []

/-- Re-send what an operation has to send again by now. -/
def State.resendOp (s : State) (h : Handle) : State :=
  if dOpcode h.desc = 4 then s.resendSend h else s.resendRma h

/-- Re-send a withdrawal whose handle has completed (R154). -/
def State.resendLost (s : State) (l : LostWd) : State :=
  let h := { mkHandleRec l.ctx l.index l.desc with msn := l.msn }
  let s := { s with mat := { s.mat with
    lost := s.mat.lost.map fun (x : LostWd) =>
      if x.ctx = l.ctx ∧ x.index = l.index then { x with lastTx := s.now } else x } }
  (s.countResends (b2n (s.hasRoute (epNode (dTarget l.desc))))).present (s.sendPkt h 1 2 0 [])

/-- A SEND without a route to its target ends PEER_LOST; its withdrawal is still sent until it is answered (R154). -/
def State.sendLost (s : State) (h : Handle) : State :=
  let w := s.handleWord h
  let s := (s.pmcEv 6 4 0 0 1).complete h.ref 0x11 0 0 0
  { s with mat := { s.mat with lost := s.mat.lost ++ [⟨h.ctx, h.index, h.desc, h.msn, w, s.now⟩] } }

/-- The timeout of a SEND (R154, R182). -/
def State.timeoutSend (s : State) (h : Handle) : State :=
  let t := dTarget h.desc
  if s.timeoutStatus h = 0x11 then (s.sendLost h).refreshWd h.ctx t
  else
    let s := (s.setHandle { h with wd := .sent }).refreshWd h.ctx t
    s.presentFor h.ref wdPart (s.sendPkt h 1 2 0 [])

/-! ## Receives: dispatch, and the close (R148, R159, R160, R163) -/

/-- A check of a RECV_POST at dispatch (R148, R189, R380). -/
def State.recvRefusal (s : State) (h : Handle) : Option (Nat × Nat) :=
  match s.places h.ctx (dKind h.desc) (dAddr h.desc) (dLength h.desc) true with
  | .error e => some (0x13, e)
  | .ok ps =>
    if s.lcntBad h then some (0x18, 1)
    else if s.placesCheck ps true = some .retired then some (0x18, 7) else none

/-- Dispatch of a RECV_POST. -/
def State.dispatchRecv (s : State) (h : Handle) : State :=
  if s.inSetup 5 then s.hold h
  else match s.recvRefusal h with
    | some (st, dt) => s.finish h.ref st dt
    | none => (s.activate h).matEvent (.post h.ref)

/-- Dispatch of a RECV_CANCEL. -/
def State.dispatchCancel (s : State) (h : Handle) : State :=
  if s.inSetup 5 then s.hold h
  else if s.lcntBad h then s.finish h.ref 0x18 1
  else (s.activate h).matEvent (.cancel h.ref)

/-- The match state of a context that moves to draining (R163). -/
def State.matDrain (s : State) (c : Nat) : State :=
  let evs := s.mat.events.filter fun x => x.1 == c
  let s := { s with mat := { s.mat with events := s.mat.events.filter fun x => x.1 != c } }
  let s := evs.foldl (fun s x => s.matRun x.2) s
  let s := (s.mat.store.filter fun e => e.2.ctx == c && e.2.kind == 0).foldl (fun s e => s.cancelPosted e.1 e.2) s
  let waiting := s.mat.held.filter fun e => e.1 == c
  let s := { s with mat := { s.mat with held := s.mat.held.filter fun e => e.1 != c } }
  let s := s.setCtx c { s.ctx c with recvHeld := false }
  let endOf (post : Bool) (s : State) (e : Nat × Nat) : State :=
    match s.handle? ⟨e.1, e.2⟩ with
    | some h =>
      if dOpcode h.desc = 6 then (if post then s else s.cancelNow h.ref)
      else if post then s.finish h.ref 0x15 5 else s
    | none => s
  let s := waiting.foldl (endOf true) s
  let s := waiting.foldl (endOf false) s
  let s := (s.mat.store.filter fun e => e.2.ctx == c && e.2.kind != 0).foldl (fun s (i, e) =>
    let s := s.matRemove i e
    let s := if e.cls = 4 then s.earlyAdd c e.src false else s
    if e.kind = 1 && (e.pull || s.rsvOn) then
      s.matAnswer c e.src e.vclass e.osn 0 7 e.handle (0x12 + 0x01 * 2 ^ 8) []
    else s) s
  s

/-- A closed context leaves nothing in MAT (R138, R154). -/
def State.matClosed (s : State) (c : Nat) : State :=
  { s with
    mat := { s.mat with
      bound := s.mat.bound.filter fun b => b.ctx != c
      lost := s.mat.lost.filter fun l => l.ctx != c
      events := s.mat.events.filter fun e => e.1 != c }
    rma := { s.rma with peers := s.rma.peers.filter fun v => v.ctx != c } }

/-- A bound message is still being assembled: its receive runs, a pull among them (log entry 122), or packets of it are still to
come. -/
def Bound.assembling (b : Bound) : Bool := !b.finished || (!b.pull && b.arrived.length != b.total)

/-- A message of the pair is still being assembled, or waits early, or wd_pending is set (MAT_ORDER_RESET). -/
def State.orderBusy (s : State) (c remote : Nat) : Bool :=
  (s.mat.store.any fun e => e.2.ctx == c && e.2.src == remote && e.2.kind != 0 &&
      (e.2.cls == 4 || (!e.2.pull && e.2.arrived.length != e.2.total))) ||
    (s.mat.bound.any fun b => b.ctx == c && b.src == remote && b.assembling) || (s.peerOf c remote).wdPending

/-- MAT_ORDER_RESET (R167): the message-order part of a pair returns to zero, or the write is ignored and counted. -/
def State.orderReset (s : State) (m c remote : Nat) : State :=
  if s.orderBusy c remote then s.faultBy 5 4 m (offDetail 0x500030)
  else
    let s := { s with mat := { s.mat with bound := s.mat.bound.filter fun b => !(b.ctx == c && b.src == remote) } }
    match s.peer? c remote with
    | none => s
    | some v => s.putPeer { v with nextMsn := 0, expectedMsn := 0, earlyCount := 0, wdPending := false }

end Sys2Proof.Machine
end

