-- ==== Sys2Proof/Machine/Ctx.lean ====
section
/-!
DEFINITION. CTX: the context cache, the view, opening, closing and draining (R109 to R117).
-/
set_option Elab.async false
namespace Sys2Proof.Machine

/-! ## The tail, and inline doorbells whose record is being filled (R77, R82, R116, R117) -/

/-- DB_TAIL (R77). -/
def State.dbTail (s : State) (m c v : Nat) : State :=
  let r := s.ctx c
  let d := (v + 2 ^ 32 - r.tail) % 2 ^ 32
  if d ≤ 2 ^ r.drLog2 then
    s.setCtx c { r with
      tail := v % 2 ^ 32, used := s.now,
      bells := if d = 0 then r.bells else r.bells ++ [(v % 2 ^ 32, s.fabric)] }
  else if 2 ^ 31 < d then s.bump CMD_DB_STALE.count 0 0
  else s.faultBy 2 0 m 0

/-- An inline doorbell that does not take the fast path (R82). -/
def State.inlineFallback (s : State) (m c : Nat) : State :=
  (s.bump CMD_INLINE_FALLBACK.count 0 0).dbTail m c (((s.ctx c).tail + 1) % 2 ^ 32)

/-- CMD may fetch and assign now: its data path runs, it is out of setup, and RSV takes its reports (R386, R399). -/
def State.cmdRuns (s : State) : Bool := !s.frozen && !s.inSetup 2 && !s.rsvHeld

/-- The carried descriptor against the filled record (R82). -/
def State.inlineTry (s : State) (m c : Nat) (d : Descriptor) : State :=
  let r := s.ctx c
  if s.flag CMD_CTL.inline_en 0 0 && r.fetch == r.tail && s.cmdRuns && s.holdCauseAt c r.tail 0 == 0 then
    let t := (r.tail + 1) % 2 ^ 32
    ((s.setCtx c { r with tail := t, bells := r.bells ++ [(t, s.fabric)] }).pmcEv 2 3 c 0 1).assign c d none
  else s.inlineFallback m c

/-- The inline doorbells that waited for a context's record go on, in their order, once it is on chip (R82, R117). -/
def State.inlineGo (s : State) (c : Nat) : State :=
  let r := s.ctx c
  if r.cached && !r.inlineWait.isEmpty then
    r.inlineWait.foldl (fun s d => s.inlineTry (mDev 3) c d) (s.setCtx c { r with inlineWait := [] })
  else s

/-- The same for every context. -/
def State.inlineGoAll (s : State) : State := s.ctxs.foldl (fun s e => s.inlineGo e.1) s

/-- The fill of a context's record ends (R116): the record is on chip, and the inline doorbells that waited go on. -/
def State.contextFill (s : State) (c : Nat) : State :=
  let r := s.ctx c
  if r.phase = .closed ∨ r.cached then s else (s.cacheIn c).inlineGo c

/-- An access to the record, after the doorbells that wait for its fill (R81, R116, R117). -/
def State.fillFirst (s : State) (c : Nat) : State := (s.ctxUse c).inlineGo c

/-! ## The view (R109, R144, R173) -/

/-- An active FENCE of a kind. -/
def State.activeFence (s : State) (c k : Nat) : Option Handle :=
  (s.handlesOf c).find? fun h => h.isFence k && h.phase == .waiting

/-- The 128 bytes of a context record. -/
def State.ctxBytes (s : State) (c : Nat) : List Byte :=
  let r := s.ctx c
  let chain := s.uxChain c
  -- a record that no OPEN has reached is zero
  let ends (e : Option (Nat × MatEntry)) : Nat := match e with
    | some x => x.2.slot
    | none => if r.cfg = 0 then 0 else 0x7FFFFFF
  leBytes 64 r.cfg.toNat ++
    fieldBytes 64 [(0, 4, r.tail), (4, 4, r.fetch), (8, 4, r.post), (12, 4, r.head), (16, 4, s.outstanding c),
      (20, 1, r.phase.code + 4 * b2n r.armed + 8 * b2n r.cached), (21, 4, s.floorOf c),
      (25, 1, b2n (s.activeFence c 1).isSome + 2 * b2n (s.activeFence c 2).isSome),
      (26, 5, match s.activeFence c 2 with | some f => dTarget f.desc | none => 0),
      (32, 8, r.postStamp), (40, 8, r.presStamp), (48, 4, ends chain.head?), (52, 4, ends chain.getLast?),
      (56, 8, r.wcSrc + r.wcTag * 2 ^ 17 + r.wcBoth * 2 ^ 34 + b2n r.recvHeld * 2 ^ 51)]

/-- CTX_CMD READ (R110): the record into CTX_VIEW. -/
def State.ctxRead (s : State) (c : Nat) : State :=
  let s := s.fillFirst c
  let bs := s.ctxBytes c
  let s := (List.range 16).foldl (fun s k =>
    s.setReg ⟨.CTX_VIEW, 0, k⟩ (BitVec.ofNat 64 (ofLE ((bs.drop (8 * k)).take 8)))) s
  s.setFld CTX_STATUS.result 0 0 0

/-! ## Opening (R111) -/

/-- The staged configuration. -/
def State.ctxStage (s : State) : BitVec 512 :=
  BitVec.ofNat 512 ((List.range 8).foldl (fun a k => a + (s.reg ⟨.CTX_STAGE, 0, k⟩).toNat * 2 ^ (64 * k)) 0)

/-- Every reserved bit of a configuration is zero (R72, R109). -/
def CtxRec.reservedOk (r : CtxRec) : Bool :=
  r.get 24 63 0 == 0 && r.get 32 7 3 == 0 && r.get 33 15 9 == 0 && r.get 35 7 1 == 0 && r.get 36 7 2 == 0 &&
    r.get 37 23 0 == 0 && r.get 40 31 21 == 0 && r.get 44 31 17 == 0 && r.get 48 31 24 == 0 && r.get 52 31 25 == 0

/-- The result code of OPEN of context `c` by master `m`: the first check of R111 that fails, or 0. -/
def State.openResult (s : State) (m c : Nat) : Nat :=
  let r := { CtxRec.init with cfg := s.ctxStage }
  let f := r.func
  let vec := r.cqVector
  let size := 2 ^ pgShift r.pgCode
  if (s.ctx c).phase ≠ .closed then 1
  else if m ≠ s.fld CTX_STATUS.stager 0 0 then 2
  else if !r.reservedOk then 3
  else if !(r.drBase % 4096 == 0 && r.crBase % 4096 == 0 && 4 ≤ r.drLog2 && r.drLog2 ≤ 16 && 4 ≤ r.crLog2 &&
      r.crLog2 ≤ 16 && 10 ≤ r.timeoutUs) then 4
  else if !(if f = 0 then 32 ≤ vec && vec ≤ 2047 else 1 ≤ vec && vec ≤ 63) then 5
  else if !(s.endpoint r.port && !s.flag HIF_PORT_STATUS.in_setup r.port 0 &&
      (f == 0 || ((s.hport r.port).vfEnable && f ≤ (s.hport r.port).numVfs))) then 6
  else if !(r.winCount ≤ 65536 && r.winBase + r.winCount ≤ 2 ^ 21) then 7
  else if !(r.xltBase + r.xltCount ≤ 2 ^ 24 && r.vaBase % size == 0 && r.vaBase + r.xltCount * size ≤ 2 ^ 64) then 8
  else if r.pin && 49152 ≤ s.pinnedCtxs then 9
  else 0

/-- A context's state changes: RSV hears of it first, and LOG keeps the old and the new state (R115, R434). -/
def State.movePhase (s : State) (m c : Nat) (p : CtxPhase) : State :=
  let r := s.ctx c
  let s := (s.setCtx c { r with phase := p }).logTable m 4 c (BitVec.ofNat 64 r.phase.code) (BitVec.ofNat 64 p.code)
  match p with
  | .opened => s.report (.ctxOpen c r.cfg)
  | _ => s.report (s.ctxRecord c)

/-- CTX_CMD OPEN (R111). -/
def State.ctxOpen (s : State) (m c : Nat) : State :=
  let res := s.openResult m c
  let s' := s.setFld CTX_STATUS.result 0 0 res
  if res = 0 then ((s'.setCtx c { CtxRec.init with cfg := s.ctxStage }).movePhase m c .opened).cacheIn c else s'

/-! ## Draining and closing (R112, R113) -/

/-- The handle counts as not yet dispatched when its context leaves the open state (R112). -/
def Handle.undispatched (h : Handle) : Bool :=
  match h.phase with
  | .assigned => true
  | .gated => true
  | .held => true
  | .waiting => dOpcode h.desc == 9 || dOpcode h.desc == 0xA || dOpcode h.desc == 0xB
  | .active => false

/-- A SEM acquire that waits gives up its registration (R351). -/
def State.semAbandon (s : State) (h : Handle) : State :=
  if dOpcode h.desc = 0xB ∧ h.phase = .waiting then
    s.semForget (dget h.desc 16 5 0) (mHost (s.ctx h.ctx).port (s.ctx h.ctx).func)
  else s

/-- Every undispatched handle of a context ends ABORTED with a detail, oldest first; its trigger and its place behind a
hold go. -/
def State.endUndispatched (s : State) (c detail : Nat) : State :=
  let hs := (s.handlesOf c).filter Handle.undispatched
  let s := { s with
    rma := { s.rma with trigs := s.rma.trigs.filter fun t => t.ctx != c }
    csc := { s.csc with wait := s.csc.wait.filter fun h => !(hs.any fun g => g.ref == h) } }
  (hs.mergeSort fun a b => s.ageKey c a.index ≤ s.ageKey c b.index).foldl
    (fun s h => (s.semAbandon h).finish h.ref 0x15 detail) s

/-- A context moves to draining: undispatched handles end, MAT empties, its triggers are disarmed. -/
def State.drain (s : State) (m c detail : Nat) : State :=
  let s := s.movePhase m c .draining
  let s := s.setCtx c { s.ctx c with inlineWait := [], awaiting := false }
  ((s.endUndispatched c detail).matDrain c).disarmOwner c

/-- CTX_CMD CLOSE (R112), after the doorbells that arrived before it (R117). -/
def State.ctxClose (s : State) (m c : Nat) : State :=
  let s := s.fillFirst c
  if s.isOpen c then (s.setFld CTX_STATUS.result 0 0 0).drain m c 0x07
  else s.setFld CTX_STATUS.result 0 0 1

/-- An operation admitted at a window of the context is still pinned. -/
def State.anyPinned (s : State) (c : Nat) : Bool := s.rma.ops.any fun v => v.ctx == c && v.pinned

/-- A draining context with nothing outstanding and nothing pinned becomes closed (R112); what its pairs kept goes
(R138). The move waits while RSV takes no report (R399, R401). -/
def State.contextClosed (s : State) (c : Nat) : State :=
  if s.rsvHeld then s
  else if (s.ctx c).phase = .draining ∧ s.outstanding c = 0 ∧ !s.anyPinned c then
    let s := s.movePhase (mDev 3) c .closed
    let s := s.setCtx c { s.ctx c with cached := false, byReset := false, step4 := false, armed := false }
    let s := s.matClosed c
    { s with rma := { s.rma with ops := s.rma.ops.filter fun v => v.ctx != c } }
  else s

/-- CTX_CMD: the op acts, or CTX in its setup state sets result 0x0F (R110). -/
def State.ctxCmd (s : State) (m op : Nat) : State :=
  let c := s.fld CTX_SEL.context 0 0
  if s.inSetup 3 then s.setFld CTX_STATUS.result 0 0 0x0F
  else match op with
    | 1 => s.ctxRead c
    | 2 => s.ctxOpen m c
    | 3 => s.ctxClose m c
    | _ => s

end Sys2Proof.Machine
end

