-- ==== Sys2Proof/Machine/Ring.lean ====
section
/-!
DEFINITION. CMD: doorbells, descriptor fetch and return, the fast path and the handle query (R76 to R88, R106, R107).
-/
set_option Elab.async false
namespace Sys2Proof.Machine

/-- The context a doorbell page belongs to (R36, R47). -/
def State.pageCtx (s : State) : DbPage → Nat
  | .ctx c => c % 2 ^ 20
  | .vf p v i => s.fld HIF_VF_CTX_BLOCK.block p.val (v.val + 1) * 4096 + i % 4096

/-- A doorbell of master `m` for context `c` acts, or is discarded: uncounted in a device stop (R386), and counted when
its function is in reset (R59), CMD is in setup or the context is not open (R80). -/
def State.doorbell (s : State) (m c : Nat) (act : State → State) : State :=
  let r := s.ctx c
  if s.stopped then s
  else if (s.fn r.port r.func).flr && (r.phase != .closed || (s.fn r.port r.func).flrCtxs.contains c) then s.faultBy 1 (8 * r.port + 3) m r.port
  else if s.inSetup 2 then s.faultBy 2 3 m 0
  else if r.phase ≠ .opened then s.faultBy 2 2 m 0
  else act (s.pmcEv 2 1 c 0 1)

/-- The head moves (R78). -/
def State.headMove (s : State) (m c v : Nat) : State :=
  let r := s.ctx c
  let e := (v + 2 ^ 32 - r.head) % 2 ^ 32
  if e ≤ (r.post + 2 ^ 32 - r.head) % 2 ^ 32 then
    let s := s.setCtx c { r with head := v % 2 ^ 32, used := s.now }
    s.reportLatest (s.ctxRecord c)
  else s.faultBy 2 1 m 0

/-- DB_CQ_HEAD (R78): the change is held while RSV takes no report (R399, R401). -/
def State.dbHead (s : State) (m c v : Nat) : State :=
  if s.rsvHeld then s.holdChange (.head m c v) else s.headMove m c v

/-- DB_CQ_ARM (R79): the ring is armed, or its vector goes at once when entries are unconsumed. -/
def State.dbArm (s : State) (c v : Nat) : State :=
  let r := s.ctx c
  if !bitOf v 0 then s
  else if r.post ≠ r.head then (s.setCtx c { r with armed := false }).vecEvent r.port r.func r.cqVector
  else s.setCtx c { r with armed := true }

/-- DB_INLINE (R82); a write of fewer than 64 bytes carries no descriptor. One whose context's record is not on chip waits for
the fill, with the descriptor that it carries. -/
def State.dbInline (s : State) (m c : Nat) (d : Option Descriptor) : State :=
  match d with
  | none => (s.fillFirst c).inlineFallback m c
  | some d =>
    let r := s.ctx c
    if r.cached then (s.fillFirst c).inlineTry m c d else s.setCtx c { r with inlineWait := r.inlineWait ++ [d] }

/-- A write of 4 or 8 bytes at an offset of the doorbell page of a context (R76): DB_TAIL, DB_CQ_HEAD, DB_CQ_ARM, or part of
DB_INLINE, which carries no whole descriptor (R82); at every other offset it is ignored. -/
def State.dbPageWrite (s : State) (m c off v : Nat) : State :=
  if off = 0x000 then s.doorbell m c fun s => (s.fillFirst c).dbTail m c (v % 2 ^ 32)
  else if off = 0x008 then s.doorbell m c fun s => (s.fillFirst c).dbHead m c (v % 2 ^ 32)
  else if off = 0x010 then s.doorbell m c fun s => (s.fillFirst c).dbArm c v
  else if 0x040 ≤ off ∧ off < 0x080 then s.doorbell m c fun s => s.dbInline m c none
  else s

/-! ## Fetch (R84, R85) -/

/-- How many descriptors the next read carries: consecutive fetchable ones, up to the batch, the tail, the end of the
ring and the next 1 KiB boundary. -/
def State.fetchCount (s : State) (c : Nat) : Nat :=
  let r := s.ctx c
  let slot := r.fetch % 2 ^ r.drLog2
  let batch := 2 ^ min 4 (s.fld CMD_CTL.fetch_batch 0 0)
  let lim := min (min batch ((r.tail + 2 ^ 32 - r.fetch) % 2 ^ 32)) (min (16 - slot % 16) (2 ^ r.drLog2 - slot))
  ((List.range lim).takeWhile fun k => s.holdCauseAt c ((r.fetch + k) % 2 ^ 32) k == 0).length

/-- CMD reads the next descriptors of a context (R84, R85); one read of a context is in flight at a time. -/
def State.fetchDescriptors (s : State) (c : Nat) : State :=
  let r := s.ctx c
  let n := s.fetchCount c
  if !s.cmdRuns || r.fetching.isSome || r.phase ≠ .opened || n = 0 then s
  else
    let s := s.ctxUse c
    let r := s.ctx c
    let (t, s) := s.takeOther r.port r.func (.descriptors c)
    let s := s.emit (.memRead r.port r.func t (r.drBase + 64 * (r.fetch % 2 ^ r.drLog2)) (64 * n))
    s.setCtx c { r with fetching := some (r.fetch, n, t), fetchAt := s.fabric }

/-- The tag of the oldest read of a context's descriptors that is outstanding. -/
def State.descRead (s : State) (c : Nat) : Option Nat :=
  (List.find? (fun e : Nat × OtherReq => e.2.use == .descriptors c) s.hif.others).map Prod.fst

/-- The data of the context's oldest outstanding read returns (log entry 126): discarded when the context has left the open
state since that read was issued, else each descriptor gets its handle in index order (R84, R87). -/
def State.returnDescriptors (s : State) (c : Nat) (ds : List Descriptor) : State :=
  let tag := s.descRead c
  let s : State := { s with hif := { s.hif with others := s.hif.others.filter fun e => some e.1 != tag } }
  let r := s.ctx c
  match r.fetching with
  | none => s
  | some (_, n, t) =>
    if some t != tag then s
    else
    let s := s.setCtx c { r with fetching := none }
    if s.frozen || r.phase ≠ .opened then s else (ds.take n).foldl (fun s d => s.assign c d (some r.fetchAt)) s

/-! ## The handle query (R106, R107) -/

/-- The state code of a handle value. -/
def State.handleState (s : State) (w : Nat) : Nat :=
  match s.currentHandle w with
  | none => 0
  | some h => if h.phase = .gated ∨ (h.phase = .assigned ∧ (s.fenced h ∨ s.isPartner h)) then 1 else 2

/-- CMD_HANDLE_QUERY loads CMD_HANDLE_STATE. -/
def State.handleQuery (s : State) (w : Nat) : State :=
  s.setReg ⟨.CMD_HANDLE_STATE, 0, 0⟩ (BitVec.ofNat 64 (w / 2 ^ 16 * 2 ^ 16 + s.handleState w))

/-- DB_STATUS and DB_CQ_STATUS of a context (R76). -/
def State.dbStatus (s : State) (c : Nat) : Word :=
  let k := s.holdCause c
  BitVec.ofNat 64 (b2n (k != 0) * 2 ^ 63 + k * 2 ^ 60 + (s.ctx c).fetch)

def State.dbCqStatus (s : State) (c : Nat) : Word :=
  BitVec.ofNat 64 (b2n (s.ctx c).armed * 2 ^ 63 + (s.ctx c).post)

/-- The word at an offset of the doorbell page of a context: reads have no side effect, and every offset that R76 does not list
for reading reads zero (log entry 127). -/
def State.dbPageWord (s : State) (c off : Nat) : Word :=
  if off = 0x080 then s.dbStatus c else if off = 0x088 then s.dbCqStatus c else 0

end Sys2Proof.Machine
end

