-- ==== Sys2Proof/Machine/Settle.lean ====
section
/-!
DEFINITION. Dispatch of the opcodes that CMD and SEM execute, and what follows by itself from a command: gathered host
data, FENCEs, triggers, counter waits, semaphore waits and held entries (R22, R86, R89, R99, R192 to R194, R329, R351).
-/
set_option Elab.async false
namespace Sys2Proof.Machine

/-! ## NOP, FENCE, TRIGGERED, SEM -/

/-- NOP (R22). -/
def State.dispatchNop (s : State) (h : Handle) : State :=
  if s.lcntBad h then s.finish h.ref 0x18 1 else s.finish h.ref 0 0

/-- FENCE (R194): it waits until its condition is met. -/
def State.dispatchFence (s : State) (h : Handle) : State :=
  if s.lcntBad h then s.finish h.ref 0x18 1 else s.setHandle { h with phase := .waiting }

/-- TRIGGERED (R99, R193): its partner is gated, or invalid, or not announced yet. -/
def State.dispatchTriggered (s : State) (h : Handle) : State :=
  if s.inSetup 6 then s.hold h
  else
    let i := (h.index + 1) % 2 ^ 32
    match s.handle? ⟨h.ctx, i⟩ with
    | some p => if dGateable p.desc then s.registerTrig h p else s.finish h.ref 0x15 8
    | none =>
      if (s.ctx h.ctx).fetch = i then s.setHandle { h with phase := .waiting } else s.finish h.ref 0x15 8

/-- The master for which a SEM descriptor acts, its priority and its semaphore (R351). -/
def State.semMaster (s : State) (h : Handle) : Nat := mHost (s.ctx h.ctx).port (s.ctx h.ctx).func
def semPrio (d : Descriptor) : Nat := if dUrgent d then 7 else 1 + dClass d
def dSem (d : Descriptor) : Nat := dget d 16 5 0

/-- A semaphore is free for a master, or reserved for it. -/
def State.semFor (s : State) (n m : Nat) : Bool :=
  let v := s.semOf n
  v.holder.isNone && (v.reserved.isNone || v.reserved == some m)

/-- A SEM acquire takes its semaphore when it can, and else is registered and waits (R351). -/
def State.semTake (s : State) (h : Handle) : State :=
  let m := s.semMaster h
  let n := dSem h.desc
  if s.semFor n m then
    let (o, s) := s.semAcquire n m (semPrio h.desc)
    s.complete h.ref 0 0 0 (BitVec.ofNat 64 o)
  else if (s.semOf n).holder = some m then s
  else (s.semAcquire n m (semPrio h.desc)).2

/-- SEM with sub 0x01. -/
def State.dispatchSemWait (s : State) (h : Handle) : State :=
  if s.inSetup 13 then s.hold h
  else if s.lcntBad h then s.finish h.ref 0x18 1
  else (s.setHandle { h with phase := .waiting }).semTake h

/-- SEM with sub 0x02. -/
def State.dispatchSemTry (s : State) (h : Handle) : State :=
  if s.inSetup 13 then s.hold h
  else if s.lcntBad h then s.finish h.ref 0x18 1
  else
    let (o, s) := s.semAcquire (dSem h.desc) (s.semMaster h) (semPrio h.desc)
    s.complete h.ref 0 0 0 (BitVec.ofNat 64 o)

/-- SEM with sub 0x03: RELEASED, or NOT_HOLDER, which is counted (R347). -/
def State.dispatchSemRelease (s : State) (h : Handle) : State :=
  if s.inSetup 13 then s.hold h
  else if s.lcntBad h then s.finish h.ref 0x18 1
  else if (s.semOf (dSem h.desc)).holder = some (s.semMaster h) then
    (s.semFree (dSem h.desc) false).complete h.ref 0 0 0 4
  else (s.faultBy 13 0 (s.semMaster h) (dSem h.desc)).complete h.ref 0 0 0 5

/-- A handle goes to the block that executes its opcode (R22). -/
def State.dispatch (s : State) (h : Handle) : State :=
  let s := (s.ctxUse h.ctx).stampFirst 1 (handleKey h.ref) 4
  match dOpcode h.desc with
  | 0 => s.dispatchNop h
  | 1 => s.dispatchRma h
  | 2 => s.dispatchRma h
  | 3 => s.dispatchRma h
  | 4 => s.dispatchSend h
  | 5 => s.dispatchRecv h
  | 6 => s.dispatchCancel h
  | 7 => s.dispatchColl h false
  | 8 => s.dispatchFence h
  | 9 => s.dispatchArm h
  | 0xA => s.dispatchTriggered h
  | _ =>
    match dSub h.desc with
    | 1 => s.dispatchSemWait h
    | 2 => s.dispatchSemTry h
    | _ => s.dispatchSemRelease h

/-- The handles that a block held while it was in setup are dispatched as it leaves (R160, R200, R232, R351), each
context's in order. -/
def State.dispatchHeld (s : State) (blk : Nat) : State :=
  (s.handles.map Prod.snd).foldl (fun s h =>
    if h.phase = .held ∧ blockOf (dOpcode h.desc) = blk then
      match s.handle? h.ref with
      | some g => if s.heldBehind g then s else s.dispatch g
      | none => s
    else s) s

/-! ## What follows by itself -/

/-- The use of a complete gather. -/
def State.useGather (s : State) (u : GatherUse) (bs : List Byte) : State :=
  match u with
  | .put hr k =>
    match s.handle? hr with
    | some h => if h.phase = .active ∧ !h.got.contains k then s.presentFor hr k (s.putPkt h k bs) else s
    | none => s
  | .send hr off =>
    match s.handle? hr with
    | some h => if h.phase = .active ∧ !h.got.contains off then s.presentFor hr off (s.sendPkt h 0 0 off bs) else s
    | none => s
  | .getServe p => s.getServed p bs
  | .pullServe p => s.pullServed p bs
  | .csc hr dest seg again => (s.cscGathered hr dest seg again bs).cscGo hr
  | .core c => s.coreGathered c bs

/-- The first gather whose every chunk is there. -/
def State.readyGather (s : State) : Option (Nat × GatherUse × List Byte) :=
  s.hif.gathers.findSome? fun e => e.2.bytes.map fun bs => (e.1, e.2.use, bs)

/-- The first handle with a property, by context and key. -/
def State.waiter (s : State) (f : Handle → Bool) : Option Handle :=
  (s.handles.map Prod.snd).find? fun h => h.phase == .waiting && f h

/-- A COUNTER_ARM whose counter has reached its threshold (R192). -/
def State.armMet (s : State) (h : Handle) : Bool :=
  dOpcode h.desc == 9 && dThreshold h.desc ≤ (s.ctr (dCounter h.desc)).value.toNat

/-- The gated partner of a registered trigger. -/
def State.partnerOf (s : State) (t : Trig) : Option Handle := s.handle? ⟨t.ctx, (t.index + 1) % 2 ^ 32⟩

/-- A registered trigger whose counter has reached its threshold, the lowest context and then index first, when neither a FENCE
nor an older descriptor held by the partner's block holds the partner (R137, R193, R194). -/
def State.readyTrig (s : State) : Option Trig :=
  (s.rma.trigs.filter fun t => t.threshold ≤ (s.ctr t.counter).value.toNat &&
      (s.partnerOf t).all fun p => !s.fenced p && !s.reportHeld p && !s.blockHolds p).foldl
    (fun a t => match a with
      | none => some t
      | some b => if t.ctx < b.ctx ∨ (t.ctx = b.ctx ∧ s.ageKey t.ctx t.index < s.ageKey t.ctx b.index) then some t
                  else some b) none

/-- A trigger fires: the TRIGGERED completes and its partner is dispatched (R99). -/
def State.fireTrig (s : State) (t : Trig) : State :=
  let p := s.partnerOf t
  let s := { s with rma := { s.rma with trigs := s.rma.trigs.erase t } }
  let s := s.finish ⟨t.ctx, t.index⟩ 0 0
  match p with
  | some p => s.dispatch p
  | none => s

/-- One thing that follows by itself, where there is one. -/
def State.follow? (s : State) : Option State :=
  match s.readyGather with
  | some (g, u, bs) => some ((s.dropGather g).useGather u bs)
  | none =>
    match s.readyTrig with
    | some t => some (s.fireTrig t)
    | none =>
      match s.waiter fun h => dOpcode h.desc == 8 && s.fenceMet h with
      | some h => some (s.finish h.ref 0 0)
      | none =>
        match s.waiter s.armMet with
        | some h => some (s.complete h.ref 0 0 0 (s.ctr (dCounter h.desc)).value)
        | none =>
          match s.waiter fun h => dOpcode h.desc == 0xB && s.semFor (dSem h.desc) (s.semMaster h) with
          | some h => some (s.semTake h)
          | none => s.readyCopy.map fun b => s.copySump b.ctx b.src b.msn

/-- Follow it through, at most `fuel` times. -/
def State.followAll (s : State) : Nat → State
  | 0 => s
  | fuel + 1 => match s.follow? with
    | some s' => s'.followAll fuel
    | none => s

/-- What follows by itself from a command, none of it while the data path is stopped (R386, R401); packets that wait for
credit or are held at RTE are scored again (R251). -/
def State.settle (s : State) : State :=
  let s := s.inlineGoAll
  if s.frozen then s
  else
    let s := ((s.releasePosts s.hdl.heldPosts.length).fireWaiting).cscGoAll
    ((s.followAll 1000000).noteHolds).rescore

end Sys2Proof.Machine
end

