-- ==== Sys2Proof/Machine/Reservoir.lean ====
section
/-!
DEFINITION. RSV after staging: acknowledgements, restatement, the end of a seal, a lost target, leaving setup, replay and
resumption (R390, R398 to R413).
-/
set_option Elab.async false
namespace Sys2Proof.Machine

/-- Set or clear a block's bit of TOP_SETUP_DONE. -/
def State.setDone (s : State) (blk : Nat) (b : Bool) : State :=
  s.setFld TOP_SETUP_DONE.done 0 0 (putBits (s.fld TOP_SETUP_DONE.done 0 0) blk blk (b2n b))

/-- HBM is zero: XLT leaves its setup state where a write of its bit waited for that (R133). -/
def State.xltRelease (s : State) : State :=
  if s.pwr.xltWaits && s.log.ring then
    ({ s with pwr := { s.pwr with xltWaits := false } }).setDone 4 true
  else s

/-! ## A lost target (R412) -/

/-- The target is lost: journalling stops, or every change stays held. -/
def State.targetLost (s : State) : State :=
  if s.fld RSV_STATUS.state 0 0 ≠ 2 ∨ s.flag RSV_STATUS.target_lost 0 0 then s
  else
    let s := (s.fault 14 2 0).setFlag RSV_STATUS.target_lost 0 0 true
    let s := s.setFlag RSV_STATUS.protected 0 0 false
    if s.flag RSV_CFG.on_loss 0 0 then s
    else
      let s := s.setFld RSV_STATUS.state 0 0 3
      { s with rsv := { s.rsv with staged := [] } }

/-- The sub-link holds the active target (R69). -/
def State.targetOn (s : State) (p k : Nat) : Bool :=
  s.fld RSV_TARGET.kind 0 0 == 1 && s.fld RSV_TARGET.port 0 0 == p && s.fld RSV_TARGET.sublink 0 0 == k &&
    s.flag RSV_CFG.enable 0 0 && [1, 2, 4].contains (s.fld RSV_STATUS.state 0 0)

/-- A write that the target refuses counts; three in 1 ms are a loss. -/
def State.targetError (s : State) : State :=
  let s := s.fault 14 1 0
  let recent := (s.rsv.errors.filter fun t => s.now < t + ms 1) ++ [s.now]
  let s := { s with rsv := { s.rsv with errors := recent } }
  if 3 ≤ recent.length then s.targetLost else s

/-! ## Acknowledgements and the end of a seal (R399, R401) -/

/-- The target acknowledges the oldest staged record, or refuses it: the write is then made again. -/
def State.journalAck (s : State) (ok : Bool) : State :=
  match s.rsv.staged with
  | [] => s
  | x :: rest =>
    if ok then
      let s : State := { s with rsv := { s.rsv with staged := rest } }
      s.sealDrain
    else
      let s := s.targetError
      if s.rsv.staged.isEmpty then s else s.targetWrite (0x2000 + x.off) x.data

/-- RSV returns to its setup state (R413). -/
def State.rsvToSetup (s : State) : State :=
  let s := (s.setDone 14 false).setFld RSV_STATUS.state 0 0 0
  let s := s.setFlag RSV_STATUS.protected 0 0 false
  { s with rsv := { s.rsv with staged := [], sealing := none, replayed := false } }

/-- A seal ends (R400, R401): sealed; then journalling resumes in a new segment, unless a power failure or a device stop has
come since; RSV goes to setup; or the data path stays stopped. -/
def State.sealEnd (s : State) (x : Seal) : State :=
  let s := if x.startAt + ms 1 < s.now then s.fault 14 3 0 else s
  let s := (s.setFld RSV_STATUS.state 0 0 5).ibi 4
  let s : State := { s with rsv := { s.rsv with sealing := none } }
  if x.cause = 4 then s.rsvToSetup
  else if x.cause = 3 && !s.sec.resetWaits && !s.rsv.halt then
    (s.setFld RSV_STATUS.state 0 0 2).superblock (if s.rsv.cycle = 0 then 2 else 0) 0 0 0
  else s

/-- A flush completes: the GPF's second phase follows its first; then the seal has ended. -/
def State.sealFlushed (s : State) : State :=
  match s.rsv.sealing with
  | none => s
  | some x =>
    let s := s.dropOther .seal
    if x.stage = 0 then s
    else if x.stage = 1 ∧ s.fld RSV_TARGET.kind 0 0 = 1 then
      let s : State := { s with rsv := { s.rsv with sealing := some { x with stage := 2 } } }
      s.emit (.dsGpf (s.fld RSV_TARGET.port 0 0) (s.fld RSV_TARGET.sublink 0 0) 2)
    else s.sealEnd x

/-- RSV_CTL.detach (R413): a seal with cause 4, or, where no journal can be sealed, setup at once. -/
def State.detach (s : State) : State :=
  if s.rsvOn && !s.flag RSV_STATUS.target_lost 0 0 then s.sealStart 4
  else if s.rsv.sealing.isSome then s
  else s.rsvToSetup

/-! ## Restatement (R398) -/

/-- The records that restate every live object. -/
def State.liveRecords (s : State) : List JRec :=
  (s.ctxs.filter fun e => e.2.phase != .closed).flatMap (fun e => [.ctxOpen e.1 e.2.cfg, s.ctxRecord e.1]) ++
    (s.handles.map fun e => .handleAssign e.2.ctx e.2.index (dTag e.2.desc) s.fabric e.2.desc) ++
    (s.xlt.wins.map fun e => s.winRecord e.1) ++
    (s.xlt.table.map fun e => .xlt e.1 [e.2]) ++
    (s.rma.peers.map fun v => s.peerRecord v.ctx v.remote) ++
    (s.rma.ops.map fun v => v.record v.phase.code) ++
    (s.rma.ctrs.map fun e => s.ctrRecord e.1) ++
    ((s.mat.store.filter fun e => e.2.journalled).map fun e => s.addRecord e.2) ++
    ((s.mat.bound.filter fun b => !b.finished).map fun b =>
      .bind b.ctx b.index b.handle b.src b.pull b.msn b.length)

/-- Begin a cycle. -/
def State.cycleBegin (s : State) : State :=
  let lsn := s.rsv.nextLsn
  let off := s.rsv.ringOff
  let s := s.stage (.cycle s.rsv.cycle true)
  { s with rsv := { s.rsv with cycleLsn := lsn, cycleOff := off } }

/-- A cycle ends: every live object has been restated, the tail goes to its beginning, and the next cycle begins. -/
def State.cycleEnd (s : State) : State :=
  if !s.rsvOn then s
  else
    let recs := s.liveRecords
    let s := recs.foldl (fun s r => s.stage r) s
    let s := s.stage (.cycle s.rsv.cycle false)
    let s : State := { s with rsv := { s.rsv with
      tailLsn := s.rsv.cycleLsn, tailOff := s.rsv.cycleOff, cycle := s.rsv.cycle + 1 } }
    let s := s.setFld RSV_USAGE.live_mib 0 0 ((recs.map fun r => 64 * (JRec.layout s r).2.1).sum / 2 ^ 20)
    let s := if s.flag RSV_STATUS.target_lost 0 0 then s else s.setFlag RSV_STATUS.protected 0 0 true
    (s.superblock 0 0 0 0).cycleBegin

/-- A device may serve as the target (R71): a Type 3 device with capacity for the journal, Global Persistent Flush, and a
Phase 2 of at most 400 µs. -/
def deviceServes (d : SubDevice) (gib : Nat) : Bool :=
  d.type == 3 && gib * 1024 ≤ d.persistMib && d.gpf && d.phase2Us ≤ 400

/-- The target is there: its sub-link is up with a device that may serve, or its port is an endpoint out of setup (R71,
R392). -/
def State.targetReady (s : State) : Bool :=
  let p := s.fld RSV_TARGET.port 0 0
  match s.fld RSV_TARGET.kind 0 0 with
  | 1 => let k := s.fld RSV_TARGET.sublink 0 0
         !s.endpoint p && s.flag HIF_DS_SLOT_STATUS.dll_active p k && !s.flag HIF_DS_SLOT_STATUS.removed p k &&
           5 ≤ s.fld HIF_DS_SLOT_STATUS.speed p k &&
           ((s.sub p k).device.any fun d => deviceServes d (s.fld RSV_TARGET.size_gib 0 0))
  | 2 => s.endpoint p && !s.flag HIF_PORT_STATUS.in_setup p 0
  | _ => false

/-- RSV leaves its setup state (R413): a new journal, unless a replay has just taken place; off, nothing is journalled. -/
def State.rsvStart (s : State) : State :=
  if !s.flag RSV_CFG.enable 0 0 then s.setFld RSV_STATUS.state 0 0 3
  else if s.rsv.replayed then s.setFld RSV_STATUS.state 0 0 2
  else
    let s := s.setFld RSV_STATUS.state 0 0 2
    if !s.targetReady then s.targetLost
    else
      let s := { s with rsv := { s.rsv with
        journalId := s.fabric, ringOff := 0, tailOff := 0, tailLsn := s.rsv.nextLsn, cycle := 0, staged := [] } }
      (s.superblock 2 0 0 0).cycleBegin

/-! ## Replay (R405) -/

/-- The tables that replay fills, from empty. -/
def State.replayClear (s : State) : State :=
  { s with
    ctxs := [], handles := []
    xlt := { s.xlt with wins := [], table := [], cache := [] }
    rma := ⟨[], [], [], []⟩
    mat := { s.mat with store := [], bound := [], held := [], events := [], lost := [] } }

/-- An operation record as its journal record gives it. -/
def replayOp (c r o st pk : Nat) (rw : Bool) (sta dt w g t : Nat) (res : BitVec 128) : OpRec :=
  { ctx := c, remote := r, osn := o,
    phase := match st with | 1 => .active | 2 => .ended | 3 => .refused | _ => .abandoned,
    pkind := pk, regwin := rw, image := g % 2 == 1, status := sta, detail := dt, window := w, gen := g, total := t,
    present := [], lastTime := 0, result := res, rsize := 0, applied := false, vclass := 0, served := [], acode := 0,
    off := 0, slot := 0 }

/-- A context leaves nothing behind once its closing record is applied. -/
def State.replayClosed (s : State) (c : Nat) : State :=
  { s with
    ctxs := SMap.erase s.ctxs c
    handles := s.handles.filter fun e => e.2.ctx != c
    rma := { s.rma with
      peers := s.rma.peers.filter fun v => v.ctx != c
      ops := s.rma.ops.filter fun v => v.ctx != c }
    mat := { s.mat with
      store := s.mat.store.filter fun e => e.2.ctx != c
      bound := s.mat.bound.filter fun b => b.ctx != c } }

/-- The SEND whose dispatch a PEER record with a higher next_msn reports: the earliest of the pair without an msn. -/
def State.replayMsn (s : State) (c r n : Nat) : State :=
  let hs := (s.handlesOf c).filter fun h => dOpcode h.desc == 4 && dTarget h.desc == r && !h.msnOk
  match hs.foldl (fun a h => match a with
      | none => some h
      | some g => if s.ageKey c h.index < s.ageKey c g.index then some h else some g) none with
  | some h => s.setHandle { h with msn := (n + 2 ^ 32 - 1) % 2 ^ 32, msnOk := true }
  | none => s

/-- Remove the entry that a key names. -/
def State.replayUnmatch (s : State) (c cls stamp src msn : Nat) : State :=
  { s with mat := { s.mat with store := s.mat.store.filter fun e =>
      !(e.2.ctx == c && e.2.cls == cls && e.2.stamp == stamp && e.2.src == src && e.2.msn == msn) } }

/-- A match-store entry read back; it replaces the one of its key. Its place follows when the store is rebuilt. -/
def State.replayMatch (s : State) (e : MatEntry) : State :=
  let s := s.replayUnmatch e.ctx e.cls e.stamp e.src e.msn
  { s with mat := { s.mat with store := SMap.insert s.mat.store s.mat.nextId e, nextId := s.mat.nextId + 1 } }

/-- The order in which entries read back are inserted: posted receives, unexpected headers, tombstones, each by stamp. -/
def replayBefore (a b : MatEntry) : Bool := a.kind < b.kind || (a.kind == b.kind && a.stamp ≤ b.stamp)

/-- Rebuild the match store (R405, step 4): every entry gets its place anew, in hardware or in the overflow area. -/
def State.replayStore (s : State) : State :=
  let es := (s.mat.store.map Prod.snd).mergeSort replayBefore
  es.foldl (fun s e =>
    let ovf := s.matRoom e.key != .hw
    let (k, s) := s.matPlace e.key ovf
    s.matAt e k ovf) { s with mat := { s.mat with store := [] } }

/-- A binding read back (R405, step 5): the receive starts again from its journalled descriptor. Where the message's own entry is
not in the journal window, its tag and rank are the descriptor's until a packet of it comes (log entry 131). -/
def State.replayBind (s : State) (c i sh src : Nat) (pull : Bool) (msn len : Nat) : State :=
  match s.handle? ⟨c, i⟩ with
  | none => s
  | some h =>
    let d := h.desc
    let m := (s.mat.store.map Prod.snd).find? fun e => e.ctx == c && e.kind == 1 && e.src == src && e.msn == msn
    let r := recvEntry h
    let b : Bound := ⟨c, i, src, msn, sh, sh / 2 ^ 28 % 2 ^ 16, (m.map (·.vclass)).getD 0, len, r.size, r.bufKind, r.addr,
      (m.map (·.tag)).getD (dMatchTag d), (m.map (·.rank)).getD (dRank d), pull, sendTotal len, [], 0, s.now, none, [],
      false, 0, [], false⟩
    { s with mat := { s.mat with
      bound := (s.mat.bound.filter fun x => !(x.ctx == c && x.index == i)) ++ [b]
      store := s.mat.store.filter fun e =>
        !(e.2.ctx == c && ((e.2.kind == 0 && e.2.handle == i) || (e.2.kind == 1 && e.2.src == src && e.2.msn == msn))) } }

/-- The index of a handle that a record names: that of the handle as it stands, or where none stands the ring's slot. -/
def State.recIndex (s : State) (w : Nat) : Nat := ((s.currentHandle w).map (·.index)).getD (w / 2 ^ 28 % 2 ^ 16)

/-- A record as its bytes spell it (R396), or none for a type that is not listed. -/
def JRec.parse (s : State) (r : List Byte) : Option JRec :=
  let n (o l : Nat) : Nat := bytesAt r o l
  let b (o k : Nat) : Bool := bitOf (n o 1) k
  let w := n 16 8
  let c := w / 2 ^ 44
  let tag := w % 2 ^ 16
  match n 0 1 with
  | 0x01 => some (.ctxOpen (n 16 4) (BitVec.ofNat 512 (n 24 64)))
  | 0x02 => some (.ctxState (n 16 4) (n 20 1) (n 24 4) (n 28 4) (n 32 4) (n 40 8) (n 48 8))
  | 0x03 => some (.handleAssign c (n 24 4) tag (n 32 8) (BitVec.ofNat 512 (n 64 64)))
  | 0x04 => some (.handleDone c (s.recIndex w) tag (n 24 1) (n 25 1) (n 28 4) (n 32 4) (BitVec.ofNat 64 (n 40 8)))
  | 0x05 => some (.window (n 16 4) (n 20 2) (b 22 0) (b 22 1) (BitVec.ofNat 192 (n 24 24)) (BitVec.ofNat 192 (n 48 24)))
  | 0x06 => some (.xlt (n 16 3) ((List.range (n 19 1)).map fun k => BitVec.ofNat 64 (n (24 + 8 * k) 8)))
  | 0x07 => some (.peer (n 16 5) (n 21 3) (n 24 4) (n 28 4) (n 32 4))
  | 0x08 => some (.oprec (n 16 5) (n 21 3) (n 24 4) (n 28 1) (n 29 1 % 8) (b 29 3) (n 30 1) (n 31 1) (n 32 2) (n 34 2) (n 36 4)
      (BitVec.ofNat 128 (n 40 16)))
  | 0x09 => some (.counter (n 16 2) (n 20 4) (BitVec.ofNat 64 (n 24 8)) (n 32 4) (n 40 8))
  | 0x0A => some (.matchAdd (b2n (b 16 3)) (n 16 1 % 8) (n 17 3) (n 20 2) (n 22 3) (n 26 4) (n 32 8) (n 40 8) (n 48 8) (n 56 4)
      (n 60 4) (n 30 1) (n 31 1) (b 16 5) (b 16 6) (n 25 1))
  | 0x0B => some (.matchDel (n 16 4) (n 20 1) (n 24 8) (n 32 5) (n 40 4))
  | 0x0C => some (.bind c (s.recIndex w) (n 24 8) (n 32 5) (b 37 0) (n 40 4) (n 44 4))
  | 0x7D => some .pad
  | 0x7E => some (.cycle (n 16 8) (b 24 0))
  | 0x7F => some (.sealed (n 16 8) (n 24 1) (n 32 8))
  | _ => none

/-- Apply one record (R405, step 1): it replaces the whole of its object. -/
def State.replayRec (s : State) : JRec → State
  | .ctxOpen c cfg => s.setCtx c { CtxRec.init with cfg := cfg, phase := .opened }
  | .ctxState c st f po hd ps pr =>
    if st = 0 then s.replayClosed c
    else s.setCtx c { s.ctx c with
      phase := if st = 1 then .opened else .draining, fetch := f, post := po, head := hd, postStamp := ps, presStamp := pr }
  | .handleAssign c i _ _ d =>
    let s := s.setCtx c { s.ctx c with
      fetch := if (i + 2 ^ 32 - (s.ctx c).fetch) % 2 ^ 32 < 2 ^ 31 then (i + 1) % 2 ^ 32 else (s.ctx c).fetch }
    s.setHandle { mkHandleRec c i d with recov := true }
  | .handleDone c i _ _ _ _ po _ =>
    (s.setCtx c { s.ctx c with post := (po + 1) % 2 ^ 32 }).dropHandle ⟨c, i⟩
  | .window e g a pend i0 i1 =>
    let im0 := imageOf i0.toNat
    let im1 := imageOf i1.toNat
    if pend then s.setWin e ⟨im0, im1, (g + 1) % 2 ^ 16, !a, 0, 0, none⟩ else s.setWin e ⟨im0, im1, g, a, 0, 0, none⟩
  | .xlt first es =>
    ((List.range es.length).zip es).foldl (fun s (k, e) => s.setXltEntry (first + k) e) s
  | .peer r c f n e =>
    let old := (s.peerOf c r).nextMsn
    let s := s.setPeer ⟨c, r, f, true, n, e, 0, false, 0⟩
    if n = (old + 1) % 2 ^ 32 then s.replayMsn c r n else s
  | .oprec r c o st pk rw sta dt w g t res =>
    if st = 0 then
      { s with rma := { s.rma with ops := s.rma.ops.filter fun v => !(v.ctx == c && v.remote == r && v.osn == o) } }
    else s.setOp (replayOp c r o st pk rw sta dt w g t res)
  | .counter n cfg v f m =>
    s.setCtr n ⟨v, f, cfg % 2 ^ 20, bitOf cfg 31, bitOf cfg 30, bitOf cfg 29, m⟩
  | .matchAdd k cl c co ra tg st h a sz m _ar dest _pu hs bk =>
    s.replayMatch {
      kind := if k = 0 then 0 else if k = 2 ∨ bk = 3 then 2 else 1, cls := cl, ctx := c, comm := co, rank := ra, tag := tg,
      stamp := st, handle := if k = 0 then ((s.currentHandle h).map (·.index)).getD 0 else h, src := if k = 0 then 0 else a % 2 ^ 40, msn := m,
      bufKind := bk, addr := if k = 0 then a else 0, size := sz, heldSend := hs, pull := k == 1, arrived := [],
      total := dest, gran := 0, data := [], osn := h / 2 ^ 28 % 2 ^ 16, vclass := 0, ovf := false, slot := 0 }
  | .matchDel c cl st src m => s.replayUnmatch c cl st src m
  | .bind c i sh src pu m l => s.replayBind c i sh src pu m l
  | .pad => s
  | .cycle n _ => { s with rsv := { s.rsv with cycle := n + 1 } }
  | .sealed t c _ =>
    (s.setFld RSV_LAST_SEAL.time 0 0 t).setFld RSV_REPLAY.cause 0 0 c

/-- The orphan flag of every semaphore is set, and none is held (R391, R405). -/
def State.orphanAll (s : State) : State :=
  { s with sem := { s.sem with sems := (List.range 64).map fun n => (n, { Semaphore.init with orphan := true }) } }

/-- SENDs of a pair that were dispatched before the seal, but whose msn no record shows: the numbers just below the first
known one, in index order. -/
def State.replaySends (s : State) (c r : Nat) : State :=
  let hs := ((s.handlesOf c).filter fun h => dOpcode h.desc == 4 && dTarget h.desc == r).mergeSort
    fun a b => s.ageKey c a.index ≤ s.ageKey c b.index
  let known := (hs.filter (·.msnOk)).map (·.msn)
  let free := hs.filter fun h => !h.msnOk && !s.keptBack h
  let top := known.headD (s.peerOf c r).nextMsn
  ((List.range free.length).zip free).foldl (fun s (k, h) =>
    s.setHandle { h with msn := (top + 2 ^ 32 + k - free.length) % 2 ^ 32, msnOk := true }) s

/-- What stands in the store or is bound is dispatched already; the rest waits for resumption (R408, R409). -/
def State.replayPhase (s : State) (h : Handle) : State :=
  let stored := s.mat.store.any fun e => e.2.ctx == h.ctx && e.2.kind == 0 && e.2.handle == h.index
  let bound := s.mat.bound.any fun b => b.ctx == h.ctx && b.index == h.index
  s.setHandle { h with
    phase := if dOpcode h.desc = 5 && (stored || bound) then .active else .assigned
    armedSet := dOpcode h.desc == 9 && !s.keptBack h }

/-- The counts of a recovered context that follow from what was restored (R405, steps 4 and 8). -/
def State.replayCtx (s : State) (c : Nat) : State :=
  let r := s.ctx c
  let posted (k : Nat) : Nat :=
    (s.mat.store.filter fun e => e.2.ctx == c && e.2.kind == 0 && e.2.cls == k).length
  let top (kind start : Nat) : Nat :=
    (s.mat.store.filter fun e => e.2.ctx == c && e.2.kind == kind && e.2.cls != 4).foldl
      (fun a e => max a (e.2.stamp + 1)) start
  s.setCtx c { r with
    tail := r.fetch, armed := false, awaiting := true, wcSrc := posted 1, wcTag := posted 2, wcBoth := posted 3,
    postStamp := top 0 r.postStamp, presStamp := top 1 r.presStamp }

/-- Steps 2 to 8 of R405 on the records applied. -/
def State.replayFinish (s : State) : State :=
  let ops := s.rma.ops.map fun (v : OpRec) => if v.phase = .active then { v with phase := .abandoned } else v
  let early (v : Peer) : Nat :=
    (s.mat.store.filter fun e => e.2.ctx == v.ctx && e.2.src == v.remote && e.2.cls == 4).length
  let peers := s.rma.peers.map fun v => { v with earlyCount := early v }
  let s : State := { s with rma := { s.rma with ops := ops, peers := peers } }.replayStore
  let s := s.rma.peers.foldl (fun s v => s.replaySends v.ctx v.remote) s
  let s := (s.handles.map Prod.snd).foldl State.replayPhase s
  (s.ctxs.foldl (fun s e => s.replayCtx e.1) s).orphanAll

/-- The records of a run of ring bytes, one after another. -/
def splitRecords : Nat → List Byte → List (List Byte)
  | 0, _ => []
  | fuel + 1, bs =>
    let n := 64 * bytesAt bs 1 1
    if bs.isEmpty || n = 0 then [] else bs.take n :: splitRecords fuel (bs.drop n)

/-- One record of the ring is read and applied. -/
def State.replayOne (s : State) (r : List Byte) : State :=
  match JRec.parse s r with
  | some x => s.replayRec x
  | none => s

/-- Replay of the journal ends (R405, R406): the recovered state stands, is restated, the journal goes on after its seal, and the
next restatement cycle begins. -/
def State.replay (s : State) : State :=
  let s := ((splitRecords s.rsv.ring.length s.rsv.ring).foldl State.replayOne s.replayClear).replayFinish
  let s := (s.setFld RSV_REPLAY.contexts 0 0 s.ctxs.length).setFld RSV_REPLAY.replay_ms 0 0 ((s.now - s.sec.bootAt) / ms 1)
  let s := (s.setFld RSV_STATUS.state 0 0 2).setFlag RSV_STATUS.replayed 0 0 true
  let s : State := { s with rsv := { s.rsv with replayed := true, ring := [], cycle := max 1 s.rsv.cycle } }
  ((s.liveRecords.foldl (fun s r => s.stage r) s).superblock 0 0 0 0).cycleBegin

/-! ## Resumption (R407, R408) -/

/-- Ports whose recovered contexts await resumption (RSV_STATUS.awaiting). -/
def State.awaitingPorts (s : State) : Nat :=
  (List.range 8).foldl (fun a p =>
    if s.ctxs.any fun e => e.2.awaiting && e.2.phase != .closed && e.2.port == p then a + 2 ^ p else a) 0

/-- CMD dispatches the handles of a context that were open at the seal, in index order; an open COLL ends (R409). -/
def State.redispatch (s : State) (c : Nat) : State :=
  let hs := (s.handlesOf c).mergeSort fun a b => s.ageKey c a.index ≤ s.ageKey c b.index
  hs.foldl (fun s h =>
    match s.handle? h.ref with
    | some h =>
      if dOpcode h.desc = 7 ∧ h.recov then s.collLost h
      else if s.dispatchable h then s.dispatch h
      else s
    | none => s) s

/-- A port's recovered contexts resume; every mirrored counter is written once (R410). -/
def State.resumePort (s : State) (p : Nat) : State :=
  let cs := (s.ctxs.filter fun e => e.2.awaiting && e.2.port == p).map Prod.fst
  let s := cs.foldl (fun s c => s.setCtx c { s.ctx c with awaiting := false }) s
  let s := (s.rma.ctrs.filter fun e => cs.contains e.2.owner).foldl (fun s e => s.mirrorWrite e.1) s
  let s := cs.foldl State.redispatch s
  (s.mat.bound.filter fun b => cs.contains b.ctx && b.pull && !b.finished).foldl State.pullSend s

/-- RSV_RESUME (R407). -/
def State.resume (s : State) (ports : Nat) : State :=
  ((List.range 8).filter (bitOf ports)).foldl State.resumePort s

end Sys2Proof.Machine
end

