-- ==== Sys2Proof/Machine/Hif.lean ====
section
/-!
DEFINITION. HIF: function-level and port resets, link training, configuration requests, the MSI-X enables, downstream
slots and accesses, and the ends of host reads (R39 to R70).
-/
set_option Elab.async false
namespace Sys2Proof.Machine

/-! ## Function-level reset (R59 to R62, R113) -/

/-- The contexts that are bound to a function and not closed. -/
def State.fnCtxs (s : State) (p f : Nat) : List Nat :=
  (s.ctxs.filter fun e => e.2.phase != .closed && e.2.port == p && e.2.func == f).map Prod.fst

/-- A dispatched handle that has sent no packet and is not a bound receive ends at a reset (R59, step 5; R163). -/
def Handle.resetEnds (h : Handle) : Bool :=
  !h.sent && dOpcode h.desc != 5 && dOpcode h.desc != 6 && (h.phase == .active || h.phase == .waiting)

/-- End one handle ABORTED with detail 0x06. -/
def State.resetEnd (s : State) (h : Handle) : State :=
  match s.inst? h.ref with
  | some i => s.abortInst i 0x15 6 none
  | none => (s.handle? h.ref).elim s fun _ => s.finish h.ref 0x15 6

/-- Nothing of a context's handles is written to the host any more (R61). -/
def State.muteAll (s : State) (c : Nat) : State :=
  (s.handlesOf c).foldl (fun s h => s.setHandle { h with mute := true }) s

/-- A context bound to a function that is reset drains (R113), with step 4 of R59 passed, after the doorbells that arrived before
the reset (R117). -/
def State.ctxFnReset (s : State) (c : Nat) : State :=
  let s := (s.fillFirst c).muteAll c
  let s := if (s.ctx c).phase = .opened then s.drain (mDev 3) c 0x06 else s
  let s := s.setCtx c { s.ctx c with byReset := true, step4 := true, fetching := none, inlineWait := [] }
  let hs := (s.handlesOf c).filter Handle.resetEnds
  (hs.mergeSort fun a b => s.ageKey c a.index ≤ s.ageKey c b.index).foldl State.resetEnd s

/-- The contexts that were bound to a function when its reset began drain; while RSV takes no report, their moves are held
(R115, R399, R401). -/
def State.fnDrain (s : State) (p f : Nat) : State :=
  if s.rsvHeld then s.holdChange (.drain p f)
  else (s.fn p f).flrCtxs.foldl State.ctxFnReset s

/-- A held change is made. -/
def State.heldChange (s : State) : HeldChange → State
  | .head m c v => if s.isOpen c then s.headMove m c v else s
  | .drain p f => s.fnDrain p f

/-- RSV takes reports again: the blocks make the changes that they held, oldest first. -/
def State.releaseHeld (s : State) : State :=
  if s.rsvHeld then s
  else s.rsv.held.foldl State.heldChange { s with rsv := { s.rsv with held := [] } }

/-- The reads of a function are no longer awaited: their completions are discarded (R59, step 4). -/
def State.dropReads (s : State) (p f : Nat) : State :=
  let gone := s.hif.reads.filter fun e => e.2.p == p && e.2.fn == f
  { s with hif := { s.hif with
      reads := s.hif.reads.filter fun e => !(e.2.p == p && e.2.fn == f)
      others := s.hif.others.filter fun e => !(e.2.p == p && e.2.fn == f && e.2.use != .seal)
      gathers := s.hif.gathers.filter fun e => !(gone.any fun r => r.2.gather == e.1) } }

/-- What depends on the physical function of a port: the loader (R127) and a host-memory target (R412). -/
def State.pfLost (s : State) (p : Nat) : State :=
  let s := if s.xlt.loader.running && s.xlt.loader.port == p then s.loaderEnd 3 else s
  if s.fld RSV_TARGET.kind 0 0 = 2 ∧ s.fld RSV_TARGET.port 0 0 = p then s.targetLost else s

/-- Steps 2 to 5 of a function-level reset (R59); a second reset before step 6 merges into the first (R60). -/
def State.oneFnReset (s : State) (p f : Nat) : State :=
  if (s.fn p f).flr then s
  else
    let s := s.setFn p f { s.fn p f with flr := true, flrAt := s.now, flrCtxs := s.fnCtxs p f }
    let s := s.fnDrain p f
    let s := (s.dropReads p f).semReset (mHost p f)
    if f = 0 then (s.pfLost p).updateWire p else s

/-- A function-level reset; that of the physical function clears VF Enable and resets the port's virtual functions
(R62). -/
def State.fnReset (s : State) (p f : Nat) : State :=
  let s := s.oneFnReset p f
  if f ≠ 0 then s
  else
    let s := s.setHport p { s.hport p with vfEnable := false, numVfs := 0 }
    (List.range 256).foldl (fun s v => s.oneFnReset p (v + 1)) s

/-- Step 6 of R59 for one function: its registers, table and pending bits hold their reset values. -/
def State.oneFnDone (s : State) (p f : Nat) : State :=
  let v := s.fn p f
  if !v.flr || s.rsv.held.contains (.drain p f) then s
  else
    let s := s.setFn p f { FnState.init with ready := v.ready, vfRegAddr := v.vfRegAddr }
    if f ≠ 0 then s
    else
      let s := s.setHport p { s.hport p with vfBars := [] }
      let base := (RegRef.mk .HIF_MSIX_TABLE p 0).off
      { s with regs := s.regs.filter fun e => e.1 < base || base + 0x8100 ≤ e.1 }

/-! ## Links and ports (R40 to R42, R62) -/

/-- The link of a port starts to train, Flit mode advertised at 64.0 GT/s only (R40, R42). -/
def State.linkTrain (s : State) (p : Nat) (flit : Bool) : State :=
  (s.setHport p { s.hport p with training := true, trainDue := false, flit := flit }).emit (.linkTrain p)

/-- The link of a port out of setup trains, once PERST_N is high and the reset that runs is complete (R42, R417). -/
def State.trainWhen (s : State) (p : Nat) : State :=
  let h := s.hport p
  let flit := s.fld HIF_PORT_CFG.max_speed p 0 == 0
  if s.endpoint p && h.perst then s.setHport p { h with flit := flit }
  else if s.endpoint p && (s.fn p 0).flr then s.setHport p { h with flit := flit, trainDue := true }
  else s.linkTrain p flit

/-- A function-level reset is complete; with the physical function's, those of its virtual functions (R62), and the link
that has waited for it trains (R42). -/
def State.fnDone (s : State) (p f : Nat) : State :=
  if f ≠ 0 then s.oneFnDone p f
  else
    let s := (List.range 257).foldl (fun s v => s.oneFnDone p v) s
    if (s.hport p).trainDue then s.trainWhen p else s

/-- Sub-link `k` exists in the port's mode and bifurcation (R39). -/
def State.subExists (s : State) (p k : Nat) : Bool :=
  if s.endpoint p then k == 0
  else match s.fld HIF_PORT_CFG.bifurcation p 0 with
    | 0 => k == 0
    | 1 => decide (k < 2)
    | _ => decide (k < 4)

/-- Set or clear a bit of sublink_up. -/
def State.setUp (s : State) (p k : Nat) (b : Bool) : State :=
  s.setFld HIF_PORT_STATUS.sublink_up p 0 (putBits (s.fld HIF_PORT_STATUS.sublink_up p 0) k k (b2n b))

/-- A slot event: vector 22 and work for the resident firmware (R51, R63). -/
def State.slotEvent (s : State) (p k : Nat) : State := (s.blockVec 22).fwPush (.slot p k)

/-- A status bit of a slot becomes 1; with its enable and hp_int_en set that is a slot event (R63). -/
def State.slotBit (s : State) (p k : Nat) (bit en : Field) : State :=
  if s.flag bit p k then s
  else
    let s := s.setFlag bit p k true
    if s.flag en p k && s.flag HIF_DS_SLOT_CTL.hp_int_en p k then s.slotEvent p k else s

/-- The access is one of configuration space. -/
def DsKind.isCfg : DsKind → Bool
  | .cfgRead => true
  | .cfgWrite => true
  | _ => false

/-- The data of an access that failed (R65, R67). -/
def DsKind.allOnes (k : DsKind) : Word := if k.isCfg then 0xFFFFFFFF else BitVec.allOnes 64

/-- The outstanding access of a sub-link ends: the data of a read goes to its master. -/
def State.dsEnd (s : State) (d : DsOut) (data : Word) : State :=
  let s : State := { s with hif := { s.hif with ds := none } }
  s.deliver d.acc data false

/-- A surprise removal (R65): what is outstanding completes at once, and a target there is lost (R412). -/
def State.surpriseRemoval (s : State) (p k : Nat) : State :=
  let s := s.setFlag HIF_DS_SLOT_STATUS.removed p k true
  let s := match s.hif.ds with
    | some d => if d.p = p ∧ d.s = k then s.dsEnd d d.kind.allOnes else s
    | none => s
  if s.targetOn p k then s.targetLost else s

/-- A removal now would be a surprise (R65). -/
def State.slotLive (s : State) (p k : Nat) : Bool :=
  !s.flag HIF_DS_SLOT_CTL.pwr_ctl p k && !s.flag HIF_DS_SLOT_CTL.link_disable p k

/-- An indicator of a slot shows what its field asks for, where that is not what `o` asked for (R483). -/
def State.slotInd (s : State) (p k : Nat) (attn : Bool) (o : Word) : State :=
  let f := if attn then HIF_DS_SLOT_CTL.attn_ind else HIF_DS_SLOT_CTL.pwr_ind
  if s.endpoint p || !s.subExists p k || s.fld f p k = bitsOf o.toNat f.hi f.lo then s else s.emit (.slotLed p k attn (s.fld f p k))

/-- low_speed of a downstream port: a sub-link has settled at 2.5 or 5.0 GT/s (R41). -/
def State.lowSpeed (s : State) (p : Nat) : State :=
  s.setFlag HIF_PORT_STATUS.low_speed p 0 ((List.range 4).any fun k =>
    s.flag HIF_DS_SLOT_STATUS.dll_active p k && s.fld HIF_DS_SLOT_STATUS.speed p k ≤ 2)

/-- dll_active of a sub-link changes (R41, R63, R65). -/
def State.dllChange (s : State) (p k : Nat) (active : Bool) (width speed : Nat) : State :=
  if s.flag HIF_DS_SLOT_STATUS.dll_active p k = active then s
  else
    let s := s.setFlag HIF_DS_SLOT_STATUS.dll_active p k active
    let s := s.setFld HIF_DS_SLOT_STATUS.width p k (if active then width else 0)
    let s := s.setFld HIF_DS_SLOT_STATUS.speed p k (if active then speed else 0)
    let s := (s.setUp p k active).lowSpeed p
    let s := if active then s else s.setSub p k { s.sub p k with device := none }
    let s := if k = 0 then (s.setFld HIF_PORT_STATUS.width p 0 (if active then width else 0)).setFld
        HIF_PORT_STATUS.speed p 0 (if active then speed else 0) else s
    let s := s.slotBit p k HIF_DS_SLOT_STATUS.dll_chg HIF_DS_SLOT_CTL.dll_chg_en
    if !active && s.slotLive p k then s.surpriseRemoval p k else s

/-- A sub-link of a downstream port may come up. -/
def State.dllMay (s : State) (p k : Nat) : Bool :=
  !s.endpoint p && s.subExists p k && !s.flag HIF_PORT_STATUS.in_setup p 0 && (s.sub p k).powered && !(s.sub p k).perst &&
    !s.flag HIF_DS_SLOT_CTL.link_disable p k

/-- The widest and the fastest that a sub-link may settle at (R39, R40). -/
def State.linkFits (s : State) (p width speed : Nat) : Bool :=
  let wide := if s.endpoint p then 16 else 16 / 2 ^ min 2 (s.fld HIF_PORT_CFG.bifurcation p 0)
  [1, 2, 4, 8, 16].contains width && width ≤ wide && 1 ≤ speed &&
    speed ≤ min (6 - s.fld HIF_PORT_CFG.max_speed p 0) (if (s.hport p).flit then 6 else 5)

/-- The resident firmware enumerates what has come up on a sub-link (R70): a Type 3 device at 32.0 GT/s or more is asked to
identify itself and for its health; a Type 1 or Type 2 device, or a slower sub-link, is left unconfigured with cfg_error. -/
def State.deviceFound (s : State) (p k speed : Nat) (dev : Option SubDevice) : State :=
  let s := s.setSub p k { s.sub p k with device := dev }
  let t : Nat := (dev.map fun d => d.type).getD 0
  if speed < 5 ∨ t = 1 ∨ t = 2 then s.setFlag HIF_DS_SLOT_STATUS.cfg_error p k true
  else if t = 3 then (s.emit (.dsIdentify p k)).emit (.dsHealth p k)
  else s

/-- A sub-link of a downstream port reaches DL_Active (R40): below 64.0 GT/s in Flit mode the port retrains once without it. -/
def State.subUp (s : State) (p k width speed : Nat) (dev : Option SubDevice) : State :=
  let h := s.hport p
  if s.flag HIF_DS_SLOT_STATUS.dll_active p k then s
  else if h.flit && speed < 6 then (s.setFlag HIF_PORT_STATUS.nonflit_fallback p 0 true).linkTrain p false
  else ((s.setHport p { h with training := false }).dllChange p k true width speed).deviceFound p k speed dev

/-- Training ends (R40, R41): below 64.0 GT/s in Flit mode the port retrains once without it, else it settles. -/
def State.linkTrained (s : State) (p k width speed : Nat) (dev : Option SubDevice) : State :=
  let h := s.hport p
  if !(s.linkFits p width speed) then s
  else if s.endpoint p then
    if !h.training || k ≠ 0 then s
    else if h.flit && speed < 6 then (s.setFlag HIF_PORT_STATUS.nonflit_fallback p 0 true).linkTrain p false
    else
      let s := s.setHport p { h with training := false }
      let s := ((s.setUp p 0 true).setFld HIF_PORT_STATUS.width p 0 width).setFld HIF_PORT_STATUS.speed p 0 speed
      (s.setFlag HIF_PORT_STATUS.low_speed p 0 (decide (speed ≤ 2))).updateWire p
  else if !s.dllMay p k then s
  else s.subUp p k width speed dev

/-- The instance leaves its setup state; its link trains once PERST_N is high and no reset runs (R42, R417). -/
def State.portExit (s : State) (p : Nat) : State :=
  if !s.flag HIF_PORT_STATUS.in_setup p 0 then s
  else (s.setFlag HIF_PORT_STATUS.in_setup p 0 false).trainWhen p

/-- A port reset (R62): a reset of every function, the link down, and the instance back in its setup state (R42). -/
def State.portReset (s : State) (p : Nat) : State :=
  let s := if s.endpoint p then
      (s.setHport p { s.hport p with wire := false }).fnReset p 0
    else (List.range 4).foldl (fun s k => s.dllChange p k false 0 0) s
  let s := s.setHport p { s.hport p with training := false, trainDue := false }
  let s := (s.setFld HIF_PORT_STATUS.sublink_up p 0 0).setFld HIF_PORT_STATUS.width p 0 0
  let s := (s.setFld HIF_PORT_STATUS.speed p 0 0).setFlag HIF_PORT_STATUS.low_speed p 0 false
  (s.setFlag HIF_PORT_STATUS.nonflit_fallback p 0 false).setFlag HIF_PORT_STATUS.in_setup p 0 true

/-- PERST_N of an endpoint port is asserted (R62, R417). -/
def State.perstLow (s : State) (p : Nat) : State :=
  if !s.endpoint p || (s.hport p).perst then s
  else
    let s := (s.setHport p { s.hport p with perst := true }).portReset p
    (List.range 257).foldl (fun s f =>
      if (s.fn p f).ready then s.setFn p f { s.fn p f with ready := false } else s) s

/-- PERST_N rises: a port out of setup trains, and the 100 ms of readiness begin (R417). -/
def State.perstHigh (s : State) (p : Nat) : State :=
  if !(s.hport p).perst then s
  else
    let s := s.setHport p { s.hport p with perst := false, perstAt := s.now }
    if s.endpoint p && !s.flag HIF_PORT_STATUS.in_setup p 0 then s.trainWhen p else s

/-! ## Configuration requests (R45, R46, R60) -/

/-- The function exists: the physical function of an endpoint port, or an enabled virtual function (R46). -/
def State.fnExists (s : State) (p f : Nat) : Bool :=
  s.endpoint p && (f == 0 || ((s.hport p).vfEnable && f ≤ (s.hport p).numVfs))

/-- The function answers: it exists, its link is up, it is ready and in no reset (R60, R417). -/
def State.fnAnswers (s : State) (p f : Nat) : Bool :=
  s.fnExists p f && s.fld HIF_PORT_STATUS.sublink_up p 0 != 0 && (s.fn p f).ready && !(s.fn p f).flr

/-- VF Enable and NumVFs are written: clearing VF Enable takes the virtual functions away, which resets them. -/
def State.writeVfEnable (s : State) (p : Nat) (en : Bool) (n : Nat) : State :=
  let h := s.hport p
  if en && !h.vfEnable then s.setHport p { h with vfEnable := true, numVfs := min 256 n }
  else if !en && h.vfEnable then
    let s := s.setHport p { h with vfEnable := false, numVfs := 0 }
    (List.range 256).foldl (fun s v => (s.oneFnReset p (v + 1)).oneFnDone p (v + 1)) s
  else s

/-- A configuration request reaches a function (R60). A virtual function whose physical function is being reset is gone with
VF Enable, which the reset has cleared (R62), and answers nothing (log entry 107). -/
def State.cfgRequest (s : State) (p f : Nat) (req : CfgReq) : State :=
  if !s.fnExists p f || s.fld HIF_PORT_STATUS.sublink_up p 0 = 0 then s
  else if !s.fnAnswers p f then s.emit (.cfgRetry p f)
  else
    let v := s.fn p f
    let h := s.hport p
    match req with
    | .read dword => s.emit (.cfgDone p f (s.cfgRead p f dword))
    | .writeBusMaster en => (s.setFn p f { v with busMaster := en }).emit (.cfgDone p f 0)
    | .writeVfEnable en n => (if f = 0 then s.writeVfEnable p en n else s).emit (.cfgDone p f 0)
    | .writeIdo en => (s.setFn p f { v with ido := en }).emit (.cfgDone p f 0)
    | .writeAtomicReq en => (s.setFn p f { v with atomicReq := en }).emit (.cfgDone p f 0)
    | .writeAer dword val =>
      let keep (n : Nat) : Nat := (BitVec.ofNat 32 n &&& ~~~val).toNat
      let h := if f ≠ 0 then h
        else if dword = 0x41 then { h with aerUnc := keep h.aerUnc }
        else if dword = 0x44 then { h with aerCor := keep h.aerCor } else h
      (s.setHport p h).emit (.cfgDone p f 0)
    | .writeOther dword val => (s.cfgStore p f dword val.toNat).emit (.cfgDone p f 0)

/-- MSI-X Enable of a function changes (R54). -/
def State.msixEnable (s : State) (p f : Nat) (en : Bool) : State :=
  let v := s.fn p f
  if !s.fnAnswers p f || v.msixEn == en then s
  else
    let s := s.setFn p f { v with msixEn := en }
    let s := if f = 0 then s.updateWire p else s
    if en then s.flushPending p f else s

/-- Interrupt Disable of a physical function changes (R54). -/
def State.intxDisable (s : State) (p : Nat) (dis : Bool) : State :=
  let v := s.fn p 0
  if !s.fnAnswers p 0 || v.intxDis == dis then s
  else (s.setFn p 0 { v with intxDis := dis }).updateWire p

/-- A function becomes ready (R417). -/
def State.fnReady (s : State) (p f : Nat) : State :=
  let v := s.fn p f
  if s.sec.step = 0 || !s.fnExists p f || (s.hport p).perst || v.ready then s
  else s.setFn p f { v with ready := true }

/-- An AER error of a port (R45): a status bit, which the base specification chooses, and the count in HIF's window. -/
def State.aer (s : State) (p : Nat) (uncorrectable : Bool) : State :=
  if s.fld HIF_PORT_STATUS.sublink_up p 0 = 0 then s
  else
    let x := s.fresh 32
    let s := x.2
    let h := s.hport p
    let s := s.setHport p (if uncorrectable then { h with aerUnc := (BitVec.ofNat 32 h.aerUnc ||| x.1).toNat }
      else { h with aerCor := (BitVec.ofNat 32 h.aerCor ||| x.1).toNat })
    s.fault 1 (8 * p + b2n uncorrectable) p

/-! ## Slots (R63 to R65, R483) -/

/-- Slot power is removed. -/
def State.slotOff (s : State) (p k : Nat) : State :=
  (s.setSub p k { s.sub p k with powered := false, offBy := none }).emit (.slotPower p k false)

/-- PERST of a slot goes low with pwr_ctl at 1. -/
def State.slotPerstLow (s : State) (p k : Nat) : State :=
  (s.setSub p k { s.sub p k with perst := true }).emit (.slotPerst p k true)

/-- pwr_ctl goes from 0 to 1 by a write (R64). -/
def State.powerOff (s : State) (p k : Nat) : State :=
  let s := s.setFlag HIF_DS_SLOT_CTL.link_disable p k true
  let s := s.slotPerstLow p k
  s.setSub p k { s.sub p k with offBy := some (s.now + ms 1) }

/-- pwr_ctl goes from 1 to 0 by a write with a device present (R64). -/
def State.powerOn (s : State) (p k : Nat) : State :=
  (s.setSub p k { s.sub p k with powered := true, offBy := none, onAt := s.now }).emit (.slotPower p k true)

/-- The presence input of a sub-link changes (R63). -/
def State.presence (s : State) (p k : Nat) (present : Bool) : State :=
  if s.endpoint p || !s.subExists p k || s.flag HIF_DS_SLOT_STATUS.pres_state p k == present then s
  else
    let s := s.setFlag HIF_DS_SLOT_STATUS.pres_state p k present
    let s := s.slotBit p k HIF_DS_SLOT_STATUS.pres_chg HIF_DS_SLOT_CTL.pres_chg_en
    if !present && s.slotLive p k then s.surpriseRemoval p k else s

/-- The board's power controller reports a fault (R63, R65). -/
def State.slotFault (s : State) (p k : Nat) : State :=
  if s.endpoint p || !s.subExists p k then s
  else
    let active := s.flag HIF_DS_SLOT_STATUS.dll_active p k
    let s := s.slotBit p k HIF_DS_SLOT_STATUS.pwr_fault HIF_DS_SLOT_CTL.pwr_fault_en
    let s := if s.flag HIF_DS_SLOT_CTL.pwr_ctl p k then s
      else ((s.setFlag HIF_DS_SLOT_CTL.pwr_ctl p k true).slotPerstLow p k).slotOff p k
    if active then s.surpriseRemoval p k else s

/-- The attention button (R63, R483). -/
def State.attention (s : State) (p k : Nat) : State :=
  if s.endpoint p || !s.subExists p k then s
  else s.slotBit p k HIF_DS_SLOT_STATUS.attn_btn HIF_DS_SLOT_CTL.attn_btn_en

/-! ## Downstream accesses (R66 to R70) -/

/-- A downstream address lies in the enabled HDM range. -/
def State.inHdm (s : State) (p k addr : Nat) : Bool :=
  let base := s.fld HIF_DS_HDM_CFG.base p k * 2 ^ 28
  s.flag HIF_DS_HDM_CFG.enable p k && base ≤ addr && addr < base + s.fld HIF_DS_HDM_CFG.size p k * 2 ^ 28

/-- A new access to a sub-link: refused with all ones or discarded after a removal or with the link down (R65), else
issued and outstanding. -/
def State.dsIssue (s : State) (a : WaitAcc) (p k : Nat) (kind : DsKind) (val : Word) : State :=
  let d : DsOut := ⟨a, p, k, kind, s.now⟩
  if s.flag HIF_DS_SLOT_STATUS.removed p k then s.dsEnd d kind.allOnes
  else if !s.flag HIF_DS_SLOT_STATUS.dll_active p k then
    (s.setFlag HIF_DS_SLOT_STATUS.cfg_error p k true).dsEnd d kind.allOnes
  else
    let s := { s with hif := { s.hif with ds := some d } }
    let fn := s.fld HIF_DS_CFG_ADDR.function p k
    let dword := s.fld HIF_DS_CFG_ADDR.dword p k
    let addr := s.fld HIF_DS_MEM_ADDR.addr p k * 8
    match kind with
    | .cfgRead => s.emit (.dsCfgRead p k fn dword)
    | .cfgWrite => s.emit (.dsCfgWrite p k fn dword (val.toNat % 2 ^ 32))
    | .memRead => s.emit (.dsMemRead p k (s.inHdm p k addr) addr)
    | .memWrite => s.emit (.dsMemWrite p k (s.inHdm p k addr) addr val)

/-- The outstanding access ends with a failure (R67). -/
def State.dsFail (s : State) (d : DsOut) : State :=
  (s.setFlag HIF_DS_SLOT_STATUS.cfg_error d.p d.s true).dsEnd d d.kind.allOnes

/-- The device below completes the outstanding access of a sub-link (R67). A memory access that ends with anything but data ends
as one that times out (log entry 108); poisoned data of the target is an error that RSV counts (R70). -/
def State.dsComplete (s : State) (p k : Nat) (cfg : Bool) (r : DsResult) : State :=
  match s.hif.ds with
  | none => s
  | some d =>
    if d.p ≠ p ∨ d.s ≠ k ∨ d.kind.isCfg ≠ cfg then s
    else match r with
      | .ok data => s.dsEnd d (if cfg then data &&& 0xFFFFFFFF else data)
      | .poisoned => (if s.targetOn p k then s.targetError else s).dsFail d
      | _ => s.dsFail d

/-- An inbound request of a downstream device (R68; row 26 of R458). -/
def State.dsInbound (s : State) (p k : Nat) (kind : DsInbound) : State :=
  if !s.flag HIF_DS_SLOT_STATUS.dll_active p k then s
  else match kind with
    | .msi => s.slotBit p k HIF_DS_SLOT_STATUS.attn_btn HIF_DS_SLOT_CTL.attn_btn_en
    | .memory => s.emit (.dsUnsupported p k)
    | .intx => s

/-! ## The ends of host reads -/

/-- The data of a host read fills its chunk; it counts as received payload. -/
def State.readDone (s : State) (p tag : Nat) (data : List Byte) : State :=
  match SMap.find? s.hif.reads tag with
  | none => s
  | some r =>
    if r.p ≠ p ∨ r.len ≠ data.length then s
    else
      let s := { s with hif := { s.hif with reads := SMap.erase s.hif.reads tag } }
      let s := s.pmcEv 1 2 p 0 data.length
      match SMap.find? s.hif.gathers r.gather with
      | some g => { s with hif := { s.hif with
          gathers := SMap.insert s.hif.gathers r.gather { g with chunks := g.chunks.set r.chunk (some data) } } }
      | none => s

/-- The data of a Cascade segment will be read again. -/
def State.cscUnread (s : State) (h : HandleRef) (dest seg : Nat) : State :=
  match s.inst? h with
  | some i => s.setInst { i with reading := i.reading.filter fun x => x != (dest, seg) }
  | none => s

/-- A host request outside the gathers reaches its completion timeout: descriptors are read again, the loader fails, the
read that ends a seal is made again, and an AtomicOp leaves its operation active (R187). -/
def State.otherLost (s : State) (p tag : Nat) : State :=
  match SMap.find? s.hif.others tag with
  | none => s
  | some r =>
    if r.p ≠ p then s
    else
      let s := s.fault 1 (8 * p + 2) p
      let s := { s with hif := { s.hif with others := SMap.erase s.hif.others tag } }
      match r.use with
      | .descriptors c => if (s.ctx c).fetching.any fun x => x.2.2 == tag then
          s.setCtx c { s.ctx c with fetching := none } else s
      | .loader => s.loaderEnd 3
      | .seal => s.sealFlush
      | .atomic _ => s

/-- A host read reaches its completion timeout: what it was for is not sent, and is read again at the next re-send,
re-request or pull. -/
def State.readLost (s : State) (p tag : Nat) : State :=
  match SMap.find? s.hif.reads tag with
  | none => s.otherLost p tag
  | some r =>
    if r.p ≠ p then s
    else
      let s := (s.fault 1 (8 * p + 2) p)
      let use : Option GatherUse := (SMap.find? s.hif.gathers r.gather).map fun (g : Gather) => g.use
      let s := { s with hif := { s.hif with
        reads := s.hif.reads.filter fun e => e.2.gather != r.gather } }
      let s := s.dropGather r.gather
      match use with
      | some (GatherUse.csc h dest seg _) => s.cscUnread h dest seg
      | some (GatherUse.core c) => s.coreUnread c
      | _ => s

end Sys2Proof.Machine
end

