-- ==== Sys2Proof/Machine/Lane.lean ====
section
/-!
DEFINITION. LAN's primitives that the link layer uses: lane states and their changes (R266, R267, R274).
-/
set_option Elab.async false
namespace Sys2Proof.Machine

/-- A lane. -/
def State.lane (s : State) (l : Nat) : LaneState := SMap.getD (fun _ => .init) s.lan.lanes l

/-- Write a lane. -/
def State.setLane (s : State) (l : Nat) (v : LaneState) : State :=
  { s with lan := { s.lan with lanes := SMap.put (fun _ => .init) s.lan.lanes l v } }

/-- A lane's state code (R266). -/
def State.laneSt (s : State) (l : Nat) : Nat := s.fld LAN_STATUS.state l 0

/-- The lane states of R266. -/
def lsSetup : Nat := 0
def lsIdle : Nat := 1
def lsTrain : Nat := 2
def lsAlign : Nat := 3
def lsReady : Nat := 4
def lsTest : Nat := 5
def lsRetired : Nat := 6
def lsDropped : Nat := 7

/-- A port in Malsol mode (R282). -/
def State.malsol (s : State) (p : Nat) : Bool := s.flag LAN_CFG.malsol (2 * p) 0

/-- A pattern code that is off (R284). -/
def patOff (c : Nat) : Bool := c == 0 || 5 ≤ c

/-- The generator of a lane runs. -/
def State.genOn (s : State) (l : Nat) : Bool := !patOff (s.fld LAN_TEST_CFG.gen_pat l 0)

/-- The transmitter of a lane in a state is not squelched (R266): in test and in retired, while its generator runs (R285). -/
def State.sends (s : State) (l st : Nat) : Bool :=
  st == lsTrain || st == lsAlign || st == lsReady || ((st == lsTest || st == lsRetired) && s.genOn l)

/-- The transmitter is squelched, or begins to send what its state says. -/
def State.laneTx (s : State) (l st : Nat) : State :=
  let on := s.sends l st
  let s := s.setLane l { s.lane l with tx := on, txAt := s.now }
  if on then s else s.emit (.laneSquelch l)

/-- A lane enters a state, which squelches its transmitter or not; outside align and ready no lock is held. -/
def State.laneTo (s : State) (l st : Nat) : State :=
  let s := s.setFld LAN_STATUS.state l 0 st
  let s := if st = lsAlign ∨ st = lsReady then s
    else ((s.setFlag LAN_STATUS.am_lock l 0 false).setFlag LAN_M2_STATUS.aligned l 0 false).setFlag
      LAN_M2_STATUS.deskewed l 0 false
  s.laneTx l st

/-- A state of PRBS13 that is not zero, from a free value (log entry 99). -/
def seed13 (v : BitVec 13) : Nat := if v = 0 then 1 else v.toNat

/-- A lane starts training (R273, R274): no window has completed, the handshakes start over, and the training pattern starts
somewhere. -/
def State.laneTrain (s : State) (l : Nat) (width1 : Bool) : State :=
  let v := s.lane l
  let s := s.setLane l { v with
    goodWindows := 0, readyFrames := 0, myReq := 0, response := 0, lastReq := 0, since := s.now, width1 := width1, marks := 0,
    lastMark := 0, missed := 0 }
  let x := ((s.setFld LAN_EYE.ef l 0 0x8000).laneTo l lsTrain).fresh 13
  x.2.setLane l { x.2.lane l with gen := seed13 x.1 }

/-- A lane enters align, its search for markers starting over (R279). -/
def State.laneAlign (s : State) (l : Nat) : State :=
  let s := s.setLane l { s.lane l with marks := 0, lastMark := 0, missed := 0, since := s.now, k283 := none, bytes := [] }
  ((s.setFlag LAN_STATUS.am_lock l 0 false).setFlag LAN_M2_STATUS.deskewed l 0 false).laneTo l lsAlign

/-- A lane may be moved to train by a link reset (R267); a dropped lane when the reset offers ×2. -/
def State.laneTrainable (s : State) (l : Nat) (wide : Bool) : Bool :=
  let st := s.laneSt l
  st == lsIdle || st == lsAlign || st == lsReady || st == lsTrain || (wide && st == lsDropped)

/-- The transmit stream of a port starts over as its lanes leave align and ready. -/
def State.dropTx (s : State) (p : Nat) : State := { s with lan := { s.lan with tx := SMap.erase s.lan.tx p } }

/-- LNK moves the lanes of a port to train (R267): both, or the survivor of a ×1 reset while the other stays idle. A
Malsol port uses no training frames and goes to align (R282). -/
def State.trainPort (s : State) (p : Nat) (survivor : Option Nat) : State :=
  [0, 1].foldl (fun s k =>
    let l := 2 * p + k
    if !s.laneTrainable l survivor.isNone then s
    else if s.malsol p then s.laneAlign l
    else match survivor with
      | none => s.laneTrain l false
      | some j => if j = k then s.laneTrain l true else s.laneTo l lsIdle) (if s.malsol p then s else s.dropTx p)

/-- Both lanes of a port have left setup (R320). -/
def State.lanesOut (s : State) (p : Nat) : Bool := s.laneSt (2 * p) != lsSetup && s.laneSt (2 * p + 1) != lsSetup

/-- The lanes that carry the port are ready: both, or one while the other is idle, retired or dropped. -/
def State.lanesReady (s : State) (p : Nat) : Bool :=
  let a := s.laneSt (2 * p)
  let b := s.laneSt (2 * p + 1)
  let off (x : Nat) : Bool := x == lsIdle || x == lsRetired || x == lsDropped
  (a == lsReady && b == lsReady) || (a == lsReady && off b) || (off a && b == lsReady)

/-- The port runs at ×1 on this lane, when only one lane is ready. -/
def State.soleLane (s : State) (p : Nat) : Option Nat :=
  let a := s.laneSt (2 * p) == lsReady
  let b := s.laneSt (2 * p + 1) == lsReady
  if a && !b then some 0 else if b && !a then some 1 else none

/-- The lanes that carry the transmit stream (R275): one alone where the other is idle, retired or dropped. -/
def State.txSole (s : State) (p : Nat) : Option Nat :=
  let off (x : Nat) : Bool := x == lsIdle || x == lsRetired || x == lsDropped
  if off (s.laneSt (2 * p + 1)) then some 0 else if off (s.laneSt (2 * p)) then some 1 else none

/-- The transmitter of a lane is squelched. -/
def State.squelch (s : State) (l : Nat) : State := (s.setLane l { s.lane l with tx := false }).emit (.laneSquelch l)

/-- Retire a lane (R288, step 1). -/
def State.laneRetired (s : State) (l : Nat) : State := s.laneTo l lsRetired

end Sys2Proof.Machine
end

