-- ==== Sys2Proof/Machine/Lnk.lean ====
section
/-!
DEFINITION. LNK: link-down and bring-up, blocks received and sent, sequences, replay and credits, control messages,
admission, the Canary, resets, and TIM (R291 to R320, R425 to R427).
-/
set_option Elab.async false
namespace Sys2Proof.Machine

/-- The states of LNK_PORT_STATUS.state. -/
def psSetup : Nat := 0
def psReset : Nat := 1
def psHello : Nat := 2
def psAdmit : Nat := 3
def psLive : Nat := 4
def psTest : Nat := 5
def psRetired : Nat := 6

/-- A port's state. -/
def State.portSt (s : State) (p : Nat) : Nat := s.fld LNK_PORT_STATUS.state p 0

/-- Enter a port state. -/
def State.portTo2 (s : State) (p st : Nat) : State := s.setFld LNK_PORT_STATUS.state p 0 st

/-- Count an event of kind `k` of port `p` (R318). -/
def State.lnkEvent (s : State) (p k detail : Nat) : State := s.fault 9 (8 * p + k) detail

/-! ## Control flits (R305) -/

/-- A control flit from its (byte offset, length, value) fields. -/
def ctlFlit (fs : List (Nat × Nat × Nat)) : Flit :=
  BitVec.ofNat 512 (fs.foldl (fun a (o, n, v) => a + v % 256 ^ n * 256 ^ o) 0)

/-- Bytes [o, o + n) of a flit as a number. -/
def flitBytes (f : Flit) (o n : Nat) : Nat := bitsOf f.toNat (8 * (o + n) - 1) (8 * o)

/-- Queue a control flit on a port. -/
def State.pushCtl (s : State) (p : Nat) (f : Flit) : State :=
  let v := s.lport p
  s.setLport p { v with ctl := v.ctl ++ [f] }

/-- The HELLO of this end (R305). -/
def State.helloFlit (s : State) (p : Nat) : Flit :=
  ctlFlit ([(0, 1, 1), (8, 8, s.fld SEC_IDENTITY.identity 0 0), (16, 4, s.node), (20, 1, p),
    (21, 1, b2n (s.flag LNK_PORT_STATUS.x1 p 0)), (22, 1, (s.soleLane p).getD 0), (23, 1, 2)] ++
    (List.range 9).map fun k => (24 + 2 * k, 2, s.poolSize p k))

/-- A fragment of an admission step (R425). -/
def admitFlit (step frag frags payload : Nat) : Flit :=
  ctlFlit [(0, 1, 2), (1, 1, step), (2, 1, frag), (3, 1, frags), (8, 56, payload)]

/-! ## Packets whose end does not come (R255, R306) -/

/-- A packet ends as poisoned: the port it is being sent on sends POISON in place of its missing flits, and it leaves. -/
def State.poisonPkt (s : State) (id : Nat) : State :=
  match s.rtePkt id with
  | none => s
  | some x =>
    let s := match x.place with
      | .queued q k =>
        if x.sent = 0 then s
        else
          let v := s.lport q
          let s := s.setLport q (v.setPool k { v.pool k with tx := none })
          ((s.pushCtl q (ctlFlit [(0, 1, 3), (1, 1, k)])).lnkEvent q 6 k)
      | _ => s
    let s := (s.sampleEnd 2 id 1 none).sampleEnd 3 id 1 none
    (s.dropPkt id).freeFlits x.src (x.got - x.freed)

/-- Poison every packet a port is receiving (R307, step 1). -/
def State.poisonRx (s : State) (p : Nat) : State :=
  (List.range 9).foldl (fun s k =>
    match ((s.lport p).pool k).rx with
    | some r => match r.id with
      | some id => s.poisonPkt id
      | none => s
    | none => s) s

/-- Keep, or drop, the packets a port has begun to send (R307, steps 2 and 3). -/
def State.retainTx (s : State) (p : Nat) : State :=
  let heads := (s.lport p).unacked.flatMap (·.heads)
  s.rte.pkts.foldl (fun s x =>
    match x.place with
    | .queued q k =>
      if q = p ∧ 0 < x.sent then
        if heads.contains x.id then s.setRtePkt { x with place := .retained p k, sent := 0 }
        else (s.dropPkt x.id).freeFlits x.src (x.got - x.freed)
      else s
    | _ => s) s

/-- Retained packets of a port go back to route computation (R255, R307). -/
def State.releaseRetained (s : State) (p : Nat) : State :=
  s.rte.pkts.foldl (fun s x =>
    if x.place.keptBy p then s.routePkt { x with place := .waiting s.now } else s) s

/-! ## The upstream port of TIM (R316) -/

/-- The peer's time distance that a port reports. -/
def State.peerDistance (s : State) (p : Nat) : Nat := s.fld LNK_TIME_STATUS.peer_distance p 0

/-- The upstream port: the live line port whose peer reports the lowest distance, the lower index among equals (R316). -/
def State.bestUpstream (s : State) : Option Nat :=
  (List.range 141).foldl (fun best p =>
    if s.portSt p != psLive || s.peerDistance p == 0xFF then best
    else match best with
      | none => some p
      | some b => if s.peerDistance p < s.peerDistance b then some p else best) none

/-- The node's own time distance (R316). -/
def State.distance (s : State) : Nat :=
  if s.lnk.timeRef then 0
  else match s.bestUpstream with
    | some p => min 0xFF (s.peerDistance p + 1)
    | none => 0xFF

/-- TIM chooses its upstream again, as a port enters or leaves live and as a peer reports its distance; a change is an
event (R316, R384). -/
def State.chooseUpstream (s : State) : State :=
  let u := if s.lnk.timeRef then none else s.bestUpstream
  if u = s.lnk.upstream then s
  else
    let s := { s with lnk := { s.lnk with upstream := u, locked := false, slewAt := none } }
    s.fault 18 1 (u.getD 0)

/-! ## Link-down and bring-up (R309 to R314) -/

/-- A port leaves live, if it was live: RTE's view, poisoning, retention (R235, R255, R307). -/
def State.leaveLive (s : State) (p : Nat) : State :=
  if s.portSt p != psLive then s
  else
    let s := (s.setFld RTE_PORT_MAP.state 0 p 0).portTo2 p psReset
    (((s.poisonRx p).retainTx p).usabilityChanged p).chooseUpstream

/-- A link goes down with a cause (R309): counted unless the device stops; what bring-up keeps stays. A reset cause while
the port is in reset merges into that reset. -/
def State.linkDown (s : State) (p cause : Nat) : State :=
  let st := s.portSt p
  if st = psSetup ∨ st = psRetired ∨ st = psReset ∨ st = psTest then s
  else
    let s := s.leaveLive p
    let s := (s.portTo2 p psReset).setFld LNK_PORT_STATUS.down_cause p 0 cause
    let s := s.bump LNK_DOWN_COUNT.count p 0
    let v := s.lport p
    let s := s.setLport p { LPort.init with
      downAt := if st = psLive then s.now else v.downAt, stepAt := s.now, survivor := v.survivor }
    if cause = 0x0D then s else s.lnkEvent p 4 cause

/-- Bring-up starts: the lanes train (R310 step 3, R312). -/
def State.bringUp (s : State) (p : Nat) : State :=
  let v := s.lport p
  let s := s.setLport p { v with stepAt := s.now, retryAt := none }
  s.trainPort p v.survivor

/-- A port is retired (R376): down with cause 0x0B, its lanes squelched, its retained packets re-routed; resident
firmware sends the node's rows to its three lines (R257). -/
def State.portRetire (s : State) (p : Nat) : State :=
  if s.portSt p = psRetired then s
  else
    let s := s.linkDown p 0x0B
    let s := (s.setFld LNK_PORT_STATUS.down_cause p 0 0x0B).portTo2 p psRetired
    let s := s.setFld RTE_PORT_MAP.state 0 p 2
    let s := (s.squelch (2 * p)).squelch (2 * p + 1)
    ((s.releaseRetained p).sendRow 0 |>.sendRow 1).sendRow 2

/-- A link reset without RESET_REQ: down, then bring-up at the port's width, or with the given survivor (R309, R310); where
that lane is retired here the two ends name different survivors, and the port is retired (R289). -/
def State.linkReset (s : State) (p cause : Nat) (survivor : Option Nat) : State :=
  let was := s.portSt p
  let s := s.linkDown p cause
  if was = psSetup ∨ was = psRetired ∨ was = psReset ∨ was = psTest then s
  else
    let v := s.lport p
    let s := s.setLport p { v with survivor := survivor }
    if survivor.any fun k => s.laneSt (2 * p + k) == lsRetired then s.portRetire p else s.bringUp p

/-- A failed check or admission: one admit-fail event, the port down, another try 100 ms later (R314). -/
def State.admitFail (s : State) (p cause : Nat) : State :=
  let s := (s.lnkEvent p 5 cause).linkDown p cause
  s.setLport p { s.lport p with retryAt := some (s.now + ms 100) }

/-- The lanes of a port in reset are ready: LNK frames blocks with every count at zero and sends HELLO (R312, steps 3
and 4); after a failure not before bring-up is tried again (R314). -/
def State.frameUp (s : State) (p : Nat) : State :=
  if s.portSt p != psReset || !s.lanesReady p || (s.lport p).framed || (s.lport p).retryAt.isSome then s
  else
    let v := s.lport p
    let s := s.setFlag LNK_PORT_STATUS.x1 p 0 (s.soleLane p).isSome
    let s := s.setLport p { LPort.init with
      framed := true, stepAt := s.now, beatAt := s.now, downAt := v.downAt, survivor := v.survivor, malsol := s.malsol p }
    (s.portTo2 p psHello).pushCtl p (s.helloFlit p)

/-- Every pool has had its first credit slot (R312, step 6). -/
def LPort.credited (v : LPort) : Bool := (List.range 9).all fun k => (v.pool k).limit.isSome

/-- Both ends have admitted each other: step 5 of R312 is done. -/
def LPort.admitted (v : LPort) : Bool := v.adm.agreed

/-- A kept packet is queued again on the pool it was sent on (R307). -/
def RtePkt.again (x : RtePkt) : RtePkt :=
  match x.place with
  | .retained p k => { x with place := .queued p k }
  | _ => x

/-- An admitted port with its first credit slots goes live (R312, step 7): retained packets go first. -/
def State.tryLive (s : State) (p : Nat) : State :=
  let v := s.lport p
  if s.portSt p = psAdmit ∧ v.admitted ∧ v.credited then
    let s := (s.portTo2 p psLive).setFld RTE_PORT_MAP.state 0 p 1
    let mine := (s.rte.pkts.filter fun x => x.place.keptBy p).map RtePkt.again
    let rest := s.rte.pkts.filter fun x => !x.place.keptBy p
    let s := { s with rte := { s.rte with pkts := mine ++ rest } }
    ((s.usabilityChanged p).rescore).chooseUpstream
  else s

/-! ## Admission (R313, R425 to R427) -/

/-- The device certificate (R424). -/
def State.cert (s : State) : List Byte := s.flash.read 0 112

/-- Bytes 0–191 of the PROOF this end sends (R426). -/
def State.proofBody (s : State) (p : Nat) : List Byte :=
  s.cert ++ leBytes 64 s.sec.fwRunning.toNat ++ leBytes 4 (s.fld SEC_SVN.svn 0 0) ++ leBytes 4 s.node ++ leBytes 8 p

/-- The seed in the fuses; zero before they are sensed. -/
def State.seed (s : State) : BitVec 256 := (s.sec.fuses.map (·.seed)).getD 0

/-- Send the PROOF in its five fragments (R425, R426), once both nonces are known. -/
def State.sendProof (s : State) (p : Nat) : State :=
  let v := s.lport p
  match v.adm.ownNonce, v.adm.peerNonce with
  | some own, some peer =>
    if v.adm.proved then s
    else
      let body := s.proofBody p
      let sig := Config.sign s.seed (leBytes 32 peer.toNat ++ leBytes 32 own.toNat ++ body)
      let all := ofLE (body ++ leBytes 64 sig.toNat)
      let s := s.setLport p { v with adm := { v.adm with proved := true } }
      (List.range 5).foldl (fun s k => s.pushCtl p (admitFlit 2 k 5 (all / 256 ^ (56 * k) % 256 ^ 56))) s
  | _, _ => s

/-- Admission starts: the NONCE, from SEC's random source (R425). -/
def State.startAdmission (s : State) (p : Nat) : State :=
  let (n, s) := s.fresh 256
  let v := s.lport p
  let s := s.setLport p { v with adm := { v.adm with ownNonce := some n }, stepAt := s.now }
  let s := (s.portTo2 p psAdmit).pushCtl p (admitFlit 1 0 1 n.toNat)
  s.sendProof p

/-- The HELLO check of R313. -/
def State.helloOk (s : State) (p : Nat) (f : Flit) : Bool :=
  let node := flitBytes f 16 4 % 2 ^ 17
  let peerPort := flitBytes f 20 1
  let x1 := s.flag LNK_PORT_STATUS.x1 p 0
  (flitBytes f 23 1 == 2 || (flitBytes f 23 1 == 1 && s.malsol p)) &&
    (flitBytes f 21 1 == b2n x1) && (!x1 || some (flitBytes f 22 1) == s.soleLane p) &&
    (if p < 141 then
       node == s.memberNode (portDim p) (s.fld RTE_PORT_MAP.peer 0 p) && portDim peerPort == portDim p && peerPort < 141
     else node == s.fld RTE_PORT_MAP.peer 0 p)

/-- A HELLO arrives (R313): the check passes and admission starts, or the port goes down. -/
def State.helloRecv (s : State) (p : Nat) (f : Flit) : State :=
  if s.portSt p != psHello then s
  else if s.helloOk p f then
    let v := s.lport p
    let s := s.setLport p { v with adm := { v.adm with
      peer := some (flitBytes f 8 8, flitBytes f 16 4 % 2 ^ 17, flitBytes f 20 1)
      version := flitBytes f 23 1
      sizes := (List.range 9).map fun k => flitBytes f (24 + 2 * k) 2 } }
    (s.setFld LNK_PORT_STATUS.peer_port p 0 (flitBytes f 20 1)).startAdmission p
  else s.admitFail p 0x09

/-- A NONCE arrives (R425). -/
def State.nonceRecv (s : State) (p : Nat) (f : Flit) : State :=
  let v := s.lport p
  if s.portSt p != psHello && s.portSt p != psAdmit then s
  else
    (s.setLport p { v with adm := { v.adm with
      peerNonce := some (BitVec.ofNat 256 (flitBytes f 8 32)) } }).sendProof p

/-- The certificate is in SEC's cache, under its identity (R428). -/
def State.certCached (s : State) (cert : List Byte) : Bool := s.sec.certs.contains (ofLE (cert.take 8), cert)

/-- The certificate's signature verifies under the manufacturing key (R424). -/
def certSigned (cert : List Byte) : Bool :=
  Config.verify ((List.range 32).map Config.mfgKey) (cert.take 48) (BitVec.ofNat 512 (ofLE ((cert.drop 48).take 64)))

/-- A verified certificate is cached; with 256 of them one leaves, and which is free (R428; log entry 139). -/
def State.certSeen (s : State) (cert : List Byte) : State :=
  if s.certCached cert || !certSigned cert then s
  else
    let id := ofLE (cert.take 8)
    let cs := s.sec.certs.filter fun e => e.1 != id
    let (f, s) := if cs.length < 256 then (0, s) else s.fresh 8
    let cs := if cs.length < 256 then cs else cs.eraseIdx f.toNat
    { s with sec := { s.sec with certs := cs ++ [(id, cert)] } }

/-- The refusal code of a complete PROOF, 0 when it is accepted (R427); a cached certificate skips check 0x01 (R428). -/
def State.proofCode (s : State) (p : Nat) (body : List Byte) : Nat :=
  let v := s.lport p
  let cert := body.take 112
  let identity := ofLE (cert.take 8)
  let key := (cert.drop 8).take 32
  let meas := BitVec.ofNat 512 (ofLE ((body.drop 112).take 64))
  let sig := BitVec.ofNat 512 (ofLE ((body.drop 192).take 64))
  let own := leBytes 32 (v.adm.ownNonce.getD 0).toNat
  let peer := leBytes 32 (v.adm.peerNonce.getD 0).toNat
  if !s.certCached cert && !certSigned cert then 1
  else if identity ≠ (Config.sha512 key).toNat % 2 ^ 64 then 2
  else if s.sec.deny.contains identity then 3
  else if !(if s.sec.allow.isEmpty then meas == s.sec.fwRunning else s.sec.allow.contains meas) then 4
  else if !Config.verify key (own ++ peer ++ body.take 192) sig then 5
  else if v.adm.peer ≠ some (identity, ofLE ((body.drop 180).take 4) % 2 ^ 17, ofLE ((body.drop 184).take 1)) then 6
  else 0

/-- SEC refuses a peer, or sees its refusal (R427). -/
def State.admitRefused (s : State) (p code : Nat) : State :=
  let s := (s.setFld SEC_ADMIT_LAST.code 0 0 code).setFld SEC_ADMIT_LAST.port 0 0 p
  s.fault 15 2 (code * 256 + p)

/-- Both verdicts are known: the port is admitted, and LNK_PEER_ID loaded, or admission fails (R314, R427). -/
def State.judge (s : State) (p : Nat) : State :=
  let v := s.lport p
  match v.adm.verdictOut, v.adm.verdictIn with
  | some 0, some 0 =>
    (s.setFld LNK_PEER_ID.identity p 0 ((v.adm.peer.map (·.1)).getD 0)).tryLive p
  | some _, some _ => s.admitFail p 0x0A
  | _, _ => s

/-- This end sends its VERDICT. -/
def State.sendVerdict (s : State) (p code : Nat) : State :=
  let v := s.lport p
  let s := s.setLport p { v with adm := { v.adm with verdictOut := some code } }
  let s := s.pushCtl p (admitFlit 3 0 1 code)
  let s := if code = 0 then s else s.admitRefused p code
  s.judge p

/-- A PROOF fragment arrives (R425, R427): once all five are there, or one is malformed, the VERDICT is sent. -/
def State.proofRecv (s : State) (p : Nat) (f : Flit) : State :=
  let v := s.lport p
  if s.portSt p != psAdmit || v.adm.verdictOut.isSome then s
  else if flitBytes f 3 1 ≠ 5 ∨ 5 ≤ flitBytes f 2 1 ∨ flitBytes f 4 4 ≠ 0 then s.sendVerdict p 7
  else
    let frags := SMap.insert v.adm.frags (flitBytes f 2 1) (BitVec.ofNat 448 (flitBytes f 8 56))
    let s := s.setLport p { v with adm := { v.adm with frags := frags } }
    if frags.length < 5 then s
    else
      let body := (frags.flatMap fun e => leBytes 56 e.2.toNat).take 256
      (s.certSeen (body.take 112)).sendVerdict p (s.proofCode p body)

/-- A VERDICT arrives (R427). -/
def State.verdictRecv (s : State) (p : Nat) (f : Flit) : State :=
  let v := s.lport p
  if s.portSt p != psAdmit then s
  else
    let code := flitBytes f 8 1
    let s := s.setLport p { v with adm := { v.adm with verdictIn := some code } }
    let s := if code ≠ 0 ∧ (v.adm.verdictOut.isNone ∨ v.adm.verdictOut = some 0) then s.admitRefused p code else s
    s.judge p

/-! ## Resets (R310, R311) -/

/-- The one-way delay of a port in ps: R315, 12.5 µs while none has been measured (R298). -/
def State.oneWay (s : State) (p : Nat) : Nat :=
  let d := s.fld LNK_TIME_STATUS.delay p 0
  if d = 0 then 12500000 else d * 250

/-- This end asks for a link reset (R310, step 1): RESET_REQ, or at once where no block can carry it. -/
def State.requestReset (s : State) (p cause : Nat) (survivor : Option Nat) : State :=
  let st := s.portSt p
  if st = psSetup ∨ st = psRetired ∨ st = psReset ∨ st = psTest then s
  else
    let v := s.lport p
    let x1 := survivor.isSome || s.flag LNK_PORT_STATUS.x1 p 0
    let s := s.pushCtl p (ctlFlit [(0, 1, 5), (1, 1, b2n x1), (2, 1, (survivor.orElse fun _ => s.soleLane p).getD 0),
      (3, 1, cause), (8, 8, s.fld SEC_IDENTITY.identity 0 0)])
    s.setLport p { s.lport p with
      reqUntil := some (s.now + us 10), reqCause := cause, survivor := survivor.orElse fun _ => v.survivor }

/-- The requesting end goes on with its reset (R310, steps 2 to 4). -/
def State.proceedReset (s : State) (p : Nat) : State :=
  let v := s.lport p
  if v.reqUntil.isNone then s else s.linkReset p v.reqCause v.survivor

/-! ## TIM (R315, R316) -/

/-- A stamp: fabric time in units of 0.25 ns. -/
def State.stamp (s : State) : Nat := ((s.now : Int) + s.timAdj).toNat / 250 % 2 ^ 64

/-- The TIME message of this end, stamped as it is sent (R305, R315). -/
def State.timeFlit (s : State) (p : Nat) : Flit :=
  let v := s.lport p
  ctlFlit [(0, 1, 4), (8, 8, s.stamp), (16, 8, v.peerRecv), (24, 8, v.peerSend), (32, 1, s.distance)]

/-- TIM follows an offset of its upstream, in 0.25 ns (R316): a step at first lock when it exceeds 1 µs, else a slew of
at most 1 ns for each µs since TIM last followed this upstream. -/
def State.follow (s : State) (off : Int) : State :=
  let ps := off * 250
  let l := { s.lnk with locked := true, slewAt := some s.now }
  if !s.lnk.locked && 1000000 < ps.natAbs then
    ({ s with timAdj := s.timAdj + ps, lnk := l }).fault 18 2 0
  else
    let cap : Int := (s.now - s.lnk.slewAt.getD s.now) / 1000
    let d := if ps < -cap then -cap else if cap < ps then cap else ps
    { s with timAdj := s.timAdj + d, lnk := l }

/-- A TIME message arrives, stamped `t4` (R315); one received during discarding, or from a Malsol M2 (R317), is not used. -/
def State.timeRecv (s : State) (p : Nat) (f : Flit) (t4 : Nat) : State :=
  let v := s.lport p
  if !v.framed || v.adm.version == 1 || v.discarding then s
  else
    let t1 : Int := flitBytes f 24 8
    let t2 : Int := flitBytes f 16 8
    let t3 : Int := flitBytes f 8 8
    let t4i : Int := t4
    let asym : Int := (BitVec.ofNat 16 (s.fld LNK_TIME_ADJ.asym p 0)).toInt
    let s := s.setFld LNK_TIME_STATUS.peer_distance p 0 (flitBytes f 32 1)
    let known := decide (t1 ≠ 0)
    let d := ((t4i - t1) - (t3 - t2)) / 2
    let off := ((t2 - t1) - (t4i - t3)) / 2 - asym
    let s := if known then s.setFld LNK_TIME_STATUS.delay p 0 d.toNat else s
    let s := s.setLport p { v with
      peerSend := flitBytes f 8 8, peerRecv := t4, offset := if known then off else v.offset }
    let s := s.chooseUpstream
    if known && s.lnk.upstream == some p then s.follow off else s

/-! ## Sending blocks (R293, R295, R296, R299, R303) -/

/-- The most blocks a port may have unacknowledged (R301). -/
def State.txBound (s : State) (p : Nat) : Nat := min 32768 (372 + min 16 (s.fld LNK_PORT_CFG.spill_mib p 0) * 2048)

/-- The CRC of a block's 260 bytes (R291). -/
def blockCrc (fs : List Flit) (slot tags : Nat) : BitVec 32 :=
  crc32 ((fs.flatMap fun f => leBytes 64 f.toNat) ++ leBytes 2 slot ++ leBytes 2 tags)

/-- A block from its flits with tags, and its slot. -/
def mkBlock (fs : List (Nat × Flit)) (slot : Nat) : LinkBlock :=
  let g (i : Nat) : Nat × Flit := fs.getD i (0, 0)
  let tags := (g 0).1 + 16 * (g 1).1 + 256 * (g 2).1 + 4096 * (g 3).1
  ⟨(g 0).2, (g 1).2, (g 2).2, (g 3).2, BitVec.ofNat 16 slot, BitVec.ofNat 16 tags,
    blockCrc [(g 0).2, (g 1).2, (g 2).2, (g 3).2] (slot % 2 ^ 16) tags⟩

/-- The sideband slot of the block at position `q` with sequence `sq` (R295). -/
def State.slotFor (s : State) (p q sq : Nat) : Nat :=
  let v := s.lport p
  match q % 4 with
  | 0 => sq
  | 1 => (v.expected + 2 ^ 16 - 1) % 2 ^ 16
  | 2 =>
    let k := q / 4 % 9
    ((v.pool k).freed + s.poolSize p k) % 2 ^ 16
  | _ =>
    match q / 4 % 4 with
    | 0 => (s.rte.hints.getD 0 0) + 16 * (s.rte.hints.getD 1 0) + 256 * (s.rte.hints.getD 2 0)
    | 2 => v.beat
    | _ => v.nakCount

/-- Flit `i` of a packet (R236). -/
def pktFlit (x : RtePkt) (i : Nat) : Flit :=
  BitVec.ofNat 512 (bitsOf (x.pkt.hdr.toNat + ofLE x.pkt.bytes * 2 ^ 256) (512 * i + 511) (512 * i))

/-- The packet that may put its next flit on pool `k` of a port: the one in progress there, else the first queued (R293);
it must have a flit ready. -/
def State.readyPkt (s : State) (p k : Nat) : Option RtePkt :=
  let x := match ((s.lport p).pool k).tx with
    | some id => s.rtePkt id
    | none => s.rte.pkts.find? fun x => x.place == PktPlace.queued p k && x.sent == 0
  x.bind fun x => if x.sent < x.got then some x else none

/-- The pool whose flit takes the next slot (R260, R303). -/
def State.nextPool (s : State) (p : Nat) : Option Nat :=
  let v := s.lport p
  let ok (k : Nat) : Bool := v.hasCredit k && (s.readyPkt p k).isSome
  if ok 0 then some 0
  else if v.cur ≠ 0 ∧ (v.pool v.cur).tx.isSome ∧ ok v.cur then some v.cur
  else ((List.range 8).map (· + 1)).find? ok

/-- What one slot of a block takes. -/
structure SlotFlit where
  tag : Nat
  flit : Flit
  head : Option Nat
  tail : Option Nat

/-- The first head of a descriptor's packets leaves the node (R452). -/
def State.headOut (s : State) (x : RtePkt) : State :=
  if x.src.isSome then s
  else if pType x.pkt = 0 ∨ pType x.pkt = 1 ∨ pType x.pkt = 3 ∨ (pType x.pkt = 7 ∧ pMop x.pkt = 0) then
    s.stampFirst 1 (handleKey ⟨pSrcCtx x.pkt, pOsn x.pkt⟩) 8
  else if pType x.pkt = 8 ∧ hget x.pkt 60 58 = 0 then
    match s.csc.insts.find? fun i =>
        dget i.desc (40 + 2 * hget x.pkt 35 34) 15 0 == hget x.pkt 47 36 &&
          i.seqs.getD (hget x.pkt 35 34) 0 == kget x.pkt 31 0 with
    | some i => s.stampFirst 1 (handleKey ⟨i.ctx, i.index⟩) 8
    | none => s
  else s

/-- Put the next data flit of a pool on the link. -/
def State.takeFlit (s : State) (p k : Nat) (x : RtePkt) : SlotFlit × State :=
  let v := s.lport p
  let done := x.sent + 1 == x.total
  let y := v.pool k
  let v := v.setPool k { y with sent := (y.sent + 1) % 2 ^ 16, tx := if done then none else some x.id, waitFrom := none }
  let s := s.setLport p { v with cur := if k = 0 then v.cur else k }
  let s := (s.setRtePkt { x with sent := x.sent + 1, freed := max x.freed (x.sent + 1) }).freeFlits x.src
    (x.sent + 1 - x.freed)
  let s := s.pmcEv 8 1 p (pVc x.pkt) 1
  let s := if x.sent = 0 then ((s.stampFirst 3 x.id 2).stampFirst 3 x.id 3).headOut x else s
  let s := if done then s.stampFirst 3 x.id 4 else s
  (⟨if k = 8 then 2 else if k = 7 then 15 else 8 + k, pktFlit x x.sent, if x.sent = 0 then some x.id else none,
    if done then some x.id else none⟩, s)

/-- The next slot of a new block: a control flit ahead of every pool, a data flit when the port is live (R305). -/
def State.takeSlot (s : State) (p : Nat) : Option SlotFlit × State :=
  let v := s.lport p
  match v.ctl with
  | f :: rest =>
    let s := s.setLport p { v with ctl := rest }
    if flitBytes f 0 1 = 4 then
      let t := s.timeFlit p
      (some ⟨1, t, none, none⟩, s.setLport p { s.lport p with lastSend := flitBytes t 8 8 })
    else (some ⟨1, f, none, none⟩, s)
  | [] =>
    if s.portSt p != psLive then (none, s)
    else match s.nextPool p with
      | none => (none, s)
      | some k => match s.readyPkt p k with
        | none => (none, s)
        | some x =>
          let (f, s) := s.takeFlit p k x
          (some f, s)

/-- Up to `n` slots. -/
def State.takeSlots (p : Nat) : Nat → State → List SlotFlit × State
  | 0, s => ([], s)
  | n + 1, s =>
    match s.takeSlot p with
    | (none, s) => ([], s)
    | (some f, s) =>
      let (fs, s) := State.takeSlots p n s
      (f :: fs, s)

/-- Start the wait of a drain pool whose flit finds no credit, and end it when it does not wait (R304). -/
def State.noteCreditWaits (s : State) (p : Nat) : State :=
  [0, 2, 4, 6, 7, 8].foldl (fun s k =>
    let v := s.lport p
    let y := v.pool k
    let waits := s.portSt p == psLive && (s.readyPkt p k).isSome && !v.hasCredit k
    let w := if waits then some (y.waitFrom.getD s.now) else none
    if w = y.waitFrom then s else s.setLport p (v.setPool k { y with waitFrom := w })) s

/-- Move the send position on. -/
def State.nextPos (s : State) (p : Nat) : State :=
  let v := s.lport p
  s.setLport p { v with pos := (v.pos + 1) % 144 }

/-- The blocks that stand in the port's Spillway (R300): all but the 372 newest of those unacknowledged. -/
def LPort.spillway (v : LPort) : List TxBlock := v.unacked.take (v.unacked.length - 372)

/-- Send an idle block, which takes no sequence (R292, R296). -/
def State.sendIdle (s : State) (p : Nat) : State :=
  let v := s.lport p
  (s.emit (.block p (mkBlock [] (s.slotFor p v.pos v.nextSeq)))).nextPos p

/-- Send block `b` again, its slot and stamps afresh, and move the replay on (R299). -/
def State.resendBlock (s : State) (p : Nat) (b : TxBlock) : State :=
  let v := s.lport p
  let fs := b.flits.map fun e => if e.1 = 1 ∧ flitBytes e.2 0 1 = 4 then (e.1, s.timeFlit p) else e
  let next := (b.seq + 1) % 2 ^ 16
  let s := s.setLport p { v with
    replay := if v.unacked.any fun c => c.seq == next then some next else none
    unacked := v.unacked.map fun c => if c.seq = b.seq then { c with at_ := s.now, flits := fs } else c }
  (s.emit (.block p (mkBlock fs (s.slotFor p v.pos b.seq)))).nextPos p

/-- Send a new sequenced block of the given slots (R296). -/
def State.sendNew (s : State) (p : Nat) (fs : List SlotFlit) : State :=
  let v := s.lport p
  let flits := fs.map fun f => (f.tag, f.flit)
  let b := mkBlock flits (s.slotFor p v.pos v.nextSeq)
  let s := s.setLport p { v with
    nextSeq := (v.nextSeq + 1) % 2 ^ 16
    unacked := v.unacked ++ [⟨v.nextSeq, flits, fs.filterMap (·.head), fs.filterMap (·.tail), s.now⟩] }
  ((s.emit (.block p b)).pmcEv 9 1 p 0 1).nextPos p

/-- The RESET_ACK that a port owes stands among the slots just sent. -/
def ackSent (fs : List SlotFlit) : Bool := fs.any fun f => f.tag == 1 && flitBytes f.flit 0 1 == 6

/-- RESET_ACK has left: the port resets (R310, step 3). -/
def State.afterAck (s : State) (p : Nat) (fs : List SlotFlit) : State :=
  match (s.lport p).ackOwed with
  | some surv => if ackSent fs then s.linkReset p 0x06 surv else s
  | none => s

/-- A new block is due. One more block than the 372 on chip needs its oldest spilled; whether the Spillway's writes keep
pace is free (log entry 78), and where they do not LNK sends idle blocks and counts the stall (R300). -/
def State.sendFresh (s : State) (p : Nat) : State :=
  let n := (s.lport p).unacked.length
  if s.txBound p ≤ n then (s.noteCreditWaits p).sendIdle p
  else
    let x : BitVec 1 × State := if n < 372 then (0, s) else s.fresh 1
    if x.1 = 1 then (x.2.lnkEvent p 7 p).sendIdle p
    else
      let y := State.takeSlots p 4 x.2
      let s := y.2.noteCreditWaits p
      if y.1.isEmpty then s.sendIdle p else (s.sendNew p y.1).afterAck p y.1

/-- The replay that is due starts at a position divisible by 4 (R299). -/
def LPort.beginReplay (v : LPort) : LPort :=
  if v.replayDue && v.pos % 4 == 0 then
    { v with replayDue := false, replay := some ((v.unacked.map (·.seq)).headD v.nextSeq) }
  else v

/-- LNK sends its next block (R295, R296, R299): of a replay, an idle one where nothing is unacknowledged, or a new one. -/
def State.sendBlock (s : State) (p : Nat) : State :=
  let v := (s.lport p).beginReplay
  if !v.framed || s.stopped then s
  else
    let s := s.setLport p v
    match v.replay with
    | none => s.sendFresh p
    | some sq =>
      match v.unacked.find? fun b => b.seq == sq with
      | some b => s.resendBlock p b
      | none => (s.setLport p { v with replay := none }).sendIdle p

/-! ## Replays (R298, R299) -/

/-- A replay from the last ACK + 1 is due; until it starts, blocks go on as they would, those of a replay that runs among
them. Too many in a row take the link down. -/
def State.startReplay (s : State) (p : Nat) : State :=
  let v := s.lport p
  if max 1 (s.fld LNK_PORT_CFG.replay_max p 0) ≤ v.replays then s.linkReset p 0x04 v.survivor
  else
    let s := s.setLport p { v with replays := v.replays + 1, replayDue := true }
    (s.bump LNK_REPLAY_COUNT.count p 0).pmcEv 9 3 p 0 1

/-- An ACK slot (R296, R299): the blocks up to it are done, and with them the packets whose tails they carried (R246). -/
def State.ackRecv (s : State) (p a : Nat) : State :=
  let v := s.lport p
  let isDone (b : TxBlock) : Bool := (a + 2 ^ 16 - b.seq) % 2 ^ 16 < 2 ^ 15
  let done := v.unacked.takeWhile isDone
  if done.isEmpty then s
  else
    let rest := v.unacked.dropWhile isDone
    let gone (sq : Nat) : Bool := !rest.any fun b => b.seq == sq
    let s := s.setLport p { v with
      unacked := rest, replays := 0
      replay := if (v.replay.map gone).getD false then (rest.map (·.seq)).head? else v.replay }
    (done.flatMap (·.tails)).foldl (fun s id =>
      ((s.stampFirst 3 id 5).sampleEnd 3 id 0 none).dropPkt id) s

/-- Enter discarding (R298). -/
def State.enterDiscard (s : State) (p : Nat) : State :=
  let v := s.lport p
  s.setLport p { v with discarding := true, discSince := s.now, nakCount := (v.nakCount + 1) % 2 ^ 16 }

/-! ## Receiving blocks (R293 to R297) -/

/-- The tag of flit `i`. -/
def blkTag (b : LinkBlock) (i : Nat) : Nat := b.tags.toNat / 16 ^ i % 16

/-- The flits of a block. -/
def blkFlits (b : LinkBlock) : List Flit := [b.flit0, b.flit1, b.flit2, b.flit3]

/-- A block is bad (R294). -/
def blkBad (b : LinkBlock) (marked : Bool) : Bool :=
  marked || b.crc != blockCrc (blkFlits b) b.slot.toNat b.tags.toNat ||
    (List.range 4).any fun i => 3 ≤ blkTag b i && blkTag b i < 8

/-- The pool of a data tag (R292, R293). -/
def tagPool (t : Nat) : Nat := if t = 2 then 8 else t - 8

/-- A head flit arrives on a pool (R293, R240, R265): RTE takes the packet, or discards it and its later flits. -/
def State.headFlit (s : State) (p k : Nat) (f : Flit) : State :=
  let hdr := BitVec.ofNat 256 (f.toNat % 2 ^ 256)
  let n := bitsOf hdr.toNat 103 91
  let total := (32 + n + 63) / 64
  let pkt : Packet := ⟨hdr, (leBytes 32 (f.toNat / 2 ^ 256)).take n⟩
  let setRx (s : State) (id : Option Nat) : State :=
    let v := s.lport p
    s.setLport p (v.setPool k { v.pool k with rx := if total ≤ 1 then none else some ⟨id, total - 1⟩ })
  let discard (s : State) : State := ((setRx s none).freeFlits (some (p, k)) 1).bump RTE_DISCARD_COUNT.count 0 0
  if s.inSetup 8 then discard s
  else if 110592 ≤ pDstNode pkt then discard (s.fault 8 2 p)
  else if 9 < pType pkt ∨ (pType pkt = 7 ∧ 7 < pMop pkt) then discard (s.fault 8 3 p)
  else
    let (x, s) := s.carry pkt (some (p, k)) 1 total (.waiting s.now) none
    (setRx s (some x.id)).routePkt x

/-- A later flit of a packet. -/
def State.bodyFlit (s : State) (p k : Nat) (r : RxPkt) (f : Flit) : State :=
  let v := s.lport p
  let s := s.setLport p (v.setPool k { v.pool k with rx := if r.left ≤ 1 then none else some { r with left := r.left - 1 } })
  match r.id.bind fun id => s.rtePkt id with
  | none => s.freeFlits (some (p, k)) 1
  | some x =>
    let have_ := x.pkt.bytes.length
    let more := (leBytes 64 f.toNat).take (pBytes x.pkt - have_)
    let x := { x with pkt := { x.pkt with bytes := x.pkt.bytes ++ more }, got := x.got + 1 }
    let s := s.setRtePkt x
    if x.place = .here then
      let x := { x with freed := x.got }
      let s := (s.setRtePkt x).freeFlits x.src 1
      if x.total ≤ x.got then s.handOver x else s
    else s

/-- A POISON ends the packet in progress on its pool (R306). -/
def State.poisonRecv (s : State) (p : Nat) (f : Flit) : State :=
  let k := flitBytes f 1 1
  let v := s.lport p
  match (v.pool k).rx with
  | none => s
  | some r =>
    let s := s.setLport p (v.setPool k { v.pool k with rx := none })
    match r.id with
    | some id => s.poisonPkt id
    | none => s

/-- A RESET_ACK arrives (R310). -/
def State.resetAckRecv (s : State) (p : Nat) (f : Flit) : State :=
  if flitBytes f 8 8 = s.fld SEC_IDENTITY.identity 0 0 then s.proceedReset p else s

/-- The lane that remains where the other lane of the port is retired. -/
def State.lastLane (s : State) (p : Nat) : Option Nat :=
  if s.laneSt (2 * p) = lsRetired then some 1 else if s.laneSt (2 * p + 1) = lsRetired then some 0 else none

/-- A RESET_REQ arrives (R310, R311): crossing requests are resolved by identity; else this end owes RESET_ACK, which goes
out behind every earlier block, and then resets with the requester's width and survivor. A retired lane stays retired, so
the width it leaves is offered in training. -/
def State.resetReqRecv (s : State) (p : Nat) (f : Flit) : State :=
  let v := s.lport p
  let peer := flitBytes f 8 8
  let own := s.fld SEC_IDENTITY.identity 0 0
  if !v.framed || v.ackOwed.isSome then s
  else if v.reqUntil.isSome ∧ peer ≤ own then s
  else
    let s := if v.reqUntil.isSome then s.setFlag LNK_PORT_STATUS.req_dropped p 0 true else s
    let v := s.lport p
    let surv := if flitBytes f 1 1 = 1 then some (flitBytes f 2 1 % 2) else s.lastLane p
    s.setLport p { v with ctl := v.ctl ++ [ctlFlit [(0, 1, 6), (8, 8, peer)]], reqUntil := none, ackOwed := some surv }

/-- A control flit is accepted (R305). -/
def State.ctlRecv (s : State) (p : Nat) (f : Flit) : State :=
  match flitBytes f 0 1 with
  | 1 => s.helloRecv p f
  | 2 => match flitBytes f 1 1 with
    | 1 => s.nonceRecv p f
    | 2 => s.proofRecv p f
    | 3 => s.verdictRecv p f
    | _ => s
  | 3 => s.poisonRecv p f
  | 4 => s.timeRecv p f s.stamp
  | 5 => s.resetReqRecv p f
  | 6 => s.resetAckRecv p f
  | t => s.lnkEvent p 0 t

/-- The port may carry data flits: it is live, or both ends have admitted each other (R312, R314). -/
def State.dataOk (s : State) (p : Nat) : Bool :=
  s.portSt p == psLive || (s.portSt p == psAdmit && (s.lport p).admitted)

/-- One accepted flit with its tag; a data flit that comes before admission is dropped. -/
def State.flitRecv (s : State) (p t : Nat) (f : Flit) : State :=
  if !(s.lport p).framed then s
  else if t = 0 then s
  else if t = 1 then s.ctlRecv p f
  else if !s.dataOk p then s.freeFlits (some (p, tagPool t)) 1
  else
    let k := tagPool t
    match ((s.lport p).pool k).rx with
    | none => s.headFlit p k f
    | some r => s.bodyFlit p k r f

/-- Accept a block's flits in order. -/
def State.acceptFlits (s : State) (p : Nat) (b : LinkBlock) : State :=
  (List.range 4).foldl (fun s i => s.flitRecv p (blkTag b i) ((blkFlits b).getD i 0)) s

/-- A credit slot (R303). -/
def State.creditRecv (s : State) (p k v : Nat) : State :=
  let x := s.lport p
  let y := x.pool k
  let s := s.setLport p (x.setPool k { y with
    limit := some v, waitFrom := if y.limit = some v then y.waitFrom else none })
  (s.tryLive p).rescore

/-- Use the sideband slot of a good block at position `q` (R295). -/
def State.slotRecv (s : State) (p q v : Nat) : State :=
  match q % 4 with
  | 1 => s.ackRecv p v
  | 2 => s.creditRecv p (q / 4 % 9) v
  | 3 =>
    let x := s.lport p
    match q / 4 % 4 with
    | 0 => s.setLport p { x with hint := v, hintAt := some s.now }
    | 2 => s.setLport p { x with peerBeat := some v }
    | _ => if v = x.nakSeen then s else (s.setLport p { x with nakSeen := v }).startReplay p
  | _ => s

/-- The receiver's action on a good sequenced or idle block (R297). -/
def State.sequenceRecv (s : State) (p q : Nat) (b : LinkBlock) : State :=
  let v := s.lport p
  let idle := b.tags.toNat == 0
  let slot := b.slot.toNat
  let arr := if q % 4 = 0 then slot else match v.lastArr with | some a => (a + 1) % 2 ^ 16 | none => v.expected
  let s := if idle then s else s.setLport p { v with lastArr := some arr }
  if v.discarding then
    if q % 4 = 0 ∧ slot = v.expected then
      let v := s.lport p
      let s := s.setLport p { v with
        discarding := false, expected := if idle then v.expected else (v.expected + 1) % 2 ^ 16 }
      if idle then s else s.acceptFlits p b
    else s
  else if idle then s
  else if arr = v.expected then
    let v := s.lport p
    (s.setLport p { v with expected := (v.expected + 1) % 2 ^ 16 }).acceptFlits p b
  else if (v.expected + 2 ^ 16 - arr) % 2 ^ 16 < 2 ^ 15 then s
  else s.enterDiscard p

/-- A block arrives on a port (R294, R295, R297). -/
def State.blockRecv (s : State) (p : Nat) (b : LinkBlock) (marked : Bool) : State :=
  let v := s.lport p
  if !v.framed || s.stopped then s
  else
    let q := v.rpos
    let s := s.setLport p { v with rpos := (q + 1) % 144 }
    if blkBad b marked then
      let s := ((s.bump LNK_CRC_COUNT.count p 0).pmcEv 9 2 p 0 1).lnkEvent p 0 0
      if (s.lport p).discarding || !(s.lport p).framed then s else s.enterDiscard p
    else (s.slotRecv p q b.slot.toNat).sequenceRecv p q b

end Sys2Proof.Machine
end

