-- ==== Sys2Proof/Machine/Lan.lean ====
section
/-!
DEFINITION. LAN: lane commands, training, the eye figure, codewords and markers, Malsol characters, test patterns,
injection and lane retirement (R266 to R290).
-/
set_option Elab.async false
namespace Sys2Proof.Machine

/-- The other lane of a port. -/
def otherLane (l : Nat) : Nat := 2 * (l / 2) + (1 - l % 2)

/-- Count an event of kind `k` of lane `l` (R287). -/
def State.lanEvent (s : State) (l k : Nat) : State := s.fault 10 (4 * l + k) l

/-! ## Lane commands and retirement (R267, R288) -/

/-- Bring-up waits for both lanes to leave setup (R320). -/
def State.maybeBringUp (s : State) (p : Nat) : State :=
  if s.portSt p == psReset && s.lanesOut p && !s.stopped then s.bringUp p else s

/-- LAN_CTL.lane_reset. -/
def State.laneReset (s : State) (l : Nat) : State :=
  if s.laneSt l = lsRetired then s
  else
    let p := l / 2
    let s := s.linkDown p 0x0F
    ((s.setLane l .init).setFld LAN_EYE.ef l 0 0x8000).laneTo l lsSetup

/-- The Malsol settings of a port's two lanes differ (R282). -/
def State.malsolDiffers (s : State) (l : Nat) : Bool :=
  s.flag LAN_CFG.malsol l 0 != s.flag LAN_CFG.malsol (otherLane l) 0

/-- LAN_CTL.setup_exit in a write of `t` by master `m`: it is ignored and counted where the port's settings differ (R282). -/
def State.laneExit (s : State) (m : Nat) (t : Word) (l : Nat) : State :=
  if s.laneSt l ≠ lsSetup then s
  else if s.malsolDiffers l then
    let r : RegRef := ⟨.LAN_CTL, l, 0⟩
    (s.logIgnored m r.off 3 0 t).faultBy 10 1152 m (offDetail r.off)
  else (s.laneTo l lsIdle).maybeBringUp (l / 2)

/-- Retire a lane (R288; row 9 of R458): the port goes to ×1 with the other lane, or is retired with it. -/
def State.laneRetire (s : State) (l : Nat) : State :=
  if s.laneSt l = lsRetired then s
  else
    let p := l / 2
    let o := otherLane l
    let s := s.laneRetired l
    if s.laneSt o = lsRetired ∨ s.laneSt o = lsDropped ∨ s.malsol p then s.portRetire p
    else
      let v := s.lport p
      let s := s.setLport p { v with survivor := some (o % 2) }
      if s.portSt p = psReset then
        if s.laneSt o = lsTrain ∨ s.laneSt o = lsAlign then s.laneTrain o true else s
      else s.requestReset p 0x07 (some (o % 2))

/-! ## Training (R273, R274, R289) -/

/-- A tap of LAN_TX_EQ as a signed value: tap 0 is c(−3), tap 5 c(2). -/
def tapOf (taps t : Nat) : Int := (BitVec.ofNat 8 (taps / 256 ^ (5 - t))).toInt

/-- The taps satisfy the limits of R269. -/
def tapsOk (taps : Nat) : Bool :=
  ((List.range 6).map fun t => (tapOf taps t).natAbs).sum ≤ 64 && 24 ≤ tapOf taps 3

/-- One tap set to a signed value. -/
def setTap (taps t : Nat) (v : Int) : Nat := putBits taps (8 * (5 - t) + 7) (8 * (5 - t)) (BitVec.ofInt 8 v).toNat

/-- The preset (R269). -/
def tapPreset : Nat := 0x0000F834FC00

/-- The taps after a request (R273), and the response: 1 updated, 2 at limit. -/
def tapRequest (taps t request : Nat) : Nat × Nat :=
  match request with
  | 3 => (tapPreset, 1)
  | _ =>
    let v := tapOf taps t + (if request = 1 then 1 else -1)
    let next := setTap taps t v
    if -128 ≤ v ∧ v ≤ 127 ∧ tapsOk next then (next, 1) else (taps, 2)

/-- rx_ready of a lane (R274). -/
def LaneState.rxReady (v : LaneState) : Bool := decide (4 ≤ v.goodWindows) && v.myReq == 0

/-- The frame a lane sends (R273), inverted where LAN_CFG says so (R268). -/
def State.ownFrame (s : State) (l : Nat) : TrainFrame :=
  let v := s.lane l
  ⟨v.myReq % 8, v.myReq / 8, v.response, v.rxReady, v.width1, (s.lport (l / 2)).survivor.getD 0, l % 2,
    s.flag LAN_CFG.tx_invert l 0⟩

/-- A receiver whose eye is not good yet may request a tap, which its adaptation picks: a free value (log entry 41). -/
def State.ownRequest (s : State) (l : Nat) : State :=
  if 4 ≤ (s.lane l).goodWindows then s
  else
    let x := s.fresh 5
    let v := x.1.toNat
    if v % 8 < 6 ∧ v / 8 ≠ 0 then x.2.setLane l { x.2.lane l with myReq := v } else x.2

/-- The peer offers ×1 with a survivor (R289). Answers whether this lane goes on training. -/
def State.peerX1 (s : State) (l k : Nat) : Bool × State :=
  let p := l / 2
  let v := s.lane l
  if v.width1 ∧ (s.lport p).survivor.getD k ≠ k then (false, s.portRetire p)
  else
    let drop := 2 * p + (1 - k)
    let s := if s.laneSt drop = lsTrain ∨ s.laneSt drop = lsAlign ∨ s.laneSt drop = lsIdle then s.laneTo drop lsDropped else s
    let s := s.setLport p { s.lport p with survivor := some k }
    if l % 2 = k then (true, s.setLane l { s.lane l with width1 := true }) else (false, s)

/-- A frame of the peer acts on a lane in train: its polarity, its request, the response to this end's own, its status. Once
a response has arrived this end holds, and requests again after the peer has answered the hold. -/
def State.frameIn (s : State) (l : Nat) (f : TrainFrame) : State :=
  let s := s.setFlag LAN_STATUS.rx_inverted l 0 f.inverted
  let v := s.lane l
  let req := 8 * f.request + f.tap
  let fresh := f.request % 4 ≠ 0 ∧ f.tap < 6 ∧ req ≠ v.lastReq
  let x := tapRequest (s.fld LAN_TX_EQ.taps l 0) f.tap (f.request % 4)
  let s := if fresh then s.setFld LAN_TX_EQ.taps l 0 x.1 else s
  let response := if f.request % 4 = 0 then 0 else if fresh then x.2 else v.response
  let v := { v with
    lastReq := if f.request % 4 = 0 then 0 else req, response := response
    myReq := if f.response % 4 = 0 then v.myReq else 0
    readyFrames := if f.ready && v.rxReady then v.readyFrames + 1 else 0 }
  let s := s.setLane l v
  if 16 ≤ v.readyFrames then s.laneAlign l
  else if v.myReq = 0 ∧ f.response % 4 = 0 then s.ownRequest l
  else s

/-- A training frame arrives (R273, R280, R289); on a lane in ready the peer has begun a link reset, which this end follows
at the width its lanes allow. -/
def State.trainFrame (s : State) (l : Nat) (f : TrainFrame) : State :=
  let p := l / 2
  if s.malsol p then s
  else
    let s := if s.laneSt l = lsReady then s.linkReset p 0x0C (if f.width1 then some (f.survivor % 2) else s.lastLane p) else s
    if s.laneSt l ≠ lsTrain then s
    else if f.width1 then
      let x := s.peerX1 l (f.survivor % 2)
      if x.1 then x.2.frameIn l f else x.2
    else s.frameIn l f

/-- A lane detects a signal: its 20 ms start (R274). -/
def State.signalUp (s : State) (l : Nat) : State :=
  if s.flag LAN_STATUS.signal l 0 then s
  else (s.setFlag LAN_STATUS.signal l 0 true).setLane l { s.lane l with since := s.now }

/-- Signal detect or clock recovery fails (R287), which takes a port in ready down (R280, R309); a device whose data path is
stopped counts no event (R386). -/
def State.signalDown (s : State) (l : Nat) : State :=
  if !s.flag LAN_STATUS.signal l 0 then s
  else
    let s := s.setFlag LAN_STATUS.signal l 0 false
    let st := s.laneSt l
    if s.frozen then s
    else if st = lsReady then (s.lanEvent l 3).linkReset (l / 2) 0x05 (s.lport (l / 2)).survivor
    else if st = lsAlign ∨ st = lsTest then s.lanEvent l 3
    else s

/-- A lane that has not left train counts align-loss and starts again from the preset (R274). -/
def State.trainLimit (s : State) (l : Nat) : State :=
  let s := s.lanEvent l 2
  (s.setFld LAN_TX_EQ.taps l 0 tapPreset).laneTrain l (s.lane l).width1

/-! ## The eye figure (R271, R272) -/

/-- The greatest `k` with 10^k at most `n`, for positive `n`. -/
def log10Floor : Nat → Nat → Nat
  | 0, _ => 0
  | fuel + 1, n => if n < 10 then 0 else log10Floor fuel (n / 10) + 1

/-- The least `k` with `n` at most 10^k, for positive `n`. -/
def log10Ceil (n : Nat) : Nat :=
  let k := log10Floor (Nat.log2 n + 1) n
  if 10 ^ k = n then k else k + 1

/-- 200·log10(a / b) rounded to the nearest integer, for positive a and b: the greatest n with
10^(2n − 1) ≤ (a / b)^400. -/
def eyeTenths (a b : Nat) : Int :=
  let x := a ^ 400
  let y := b ^ 400
  let fl : Int :=
    if y ≤ x then Int.ofNat (log10Floor (Nat.log2 (x / y) + 1) (x / y)) else -Int.ofNat (log10Ceil ((y + x - 1) / x))
  Int.fdiv (fl + 1) 2

/-- One eye's figure, in units of 0.1 dB, saturating (R271). -/
def eyeOf (gap : Int) (noise : Nat) : Int :=
  if gap ≤ 0 then -0x7FFF
  else if noise = 0 then 0x7FFF
  else max (-0x7FFF) (min 0x7FFF (eyeTenths gap.toNat noise))

/-- The eye figure of a window: the least of its eyes. -/
def eyeFigure (means : List Int) (sigmas : List Nat) : Int :=
  ((List.range (means.length - 1)).map fun k =>
    eyeOf (means.getD (k + 1) 0 - means.getD k 0) (sigmas.getD k 0 + sigmas.getD (k + 1) 0)).foldl min 0x7FFF

/-- A signed 16-bit value. -/
def s16 (n : Nat) : Int := (BitVec.ofNat 16 n).toInt

/-- The peaking that a CTLE code sets, in 0.5 dB steps: codes above 40 act as 40 (R270, R290). -/
def State.ctlePeak (s : State) (l : Nat) : Nat := min 40 (s.fld LAN_RX_EQ.ctle l 0)

/-- The DFE tap moved by a step, in two's complement, within its range. -/
def dfeStep (d : Nat) (step : Int) : Nat := (BitVec.ofInt 8 (max (-128) (min 127 ((BitVec.ofNat 8 d).toInt + step)))).toNat

/-- The receiver adapts over a window (R270): in train all it has, in align and ready the DFE tap by at most one step of 256,
in Malsol mode its CTLE and gain (R282); held while adapt_freeze is 1. Where the adaptation goes is a free value (log entry
100). -/
def State.adapt (s : State) (l : Nat) : State :=
  let st := s.laneSt l
  if s.flag LAN_CFG.adapt_freeze l 0 || st == lsTest then s
  else if st == lsTrain || s.malsol (l / 2) then
    let x := s.fresh 24
    let v := x.1.toNat
    let s := (x.2.setFld LAN_RX_EQ.ctle l 0 (v % 256 % 41)).setFld LAN_RX_EQ.gain l 0 (v / 256 % 256)
    if st == lsTrain then s.setFld LAN_RX_EQ.dfe1 l 0 (v / 65536) else s
  else
    let x := s.fresh 2
    let step : Int := match x.1.toNat with
      | 1 => 1
      | 2 => -1
      | _ => 0
    x.2.setFld LAN_RX_EQ.dfe1 l 0 (dfeStep (s.fld LAN_RX_EQ.dfe1 l 0) step)

/-- The figure of a window is stored and compared (R271, R272, R274). -/
def State.eyeStore (s : State) (l : Nat) (ef : Int) : State :=
  let s := s.setFld LAN_EYE.ef l 0 (BitVec.ofInt 16 ef).toNat
  let s := if ef < s16 (s.fld LAN_EYE.ef_min l 0) then s.setFld LAN_EYE.ef_min l 0 (BitVec.ofInt 16 ef).toNat else s
  let warn := decide (s16 (s.fld LAN_EF_THRESH.warn 0 0) ≤ ef)
  if s.laneSt l = lsTrain then
    s.setLane l { s.lane l with goodWindows := if warn then (s.lane l).goodWindows + 1 else 0 }
  else
    let s := s.setFlag LAN_STATUS.eye_warn l 0 (!warn)
    if ef < s16 (s.fld LAN_EF_THRESH.fail 0 0) then (s.bump LAN_EYE.low_windows l 0).lanEvent l 1 else s

/-- A window ends (R270 to R272). -/
def State.eyeWindow (s : State) (l : Nat) (means : List Int) (sigmas : List Nat) : State :=
  let st := s.laneSt l
  let n := if s.malsol (l / 2) then 2 else 4
  if (st ≠ lsTrain ∧ st ≠ lsAlign ∧ st ≠ lsReady ∧ st ≠ lsTest) ∨ means.length ≠ n ∨ sigmas.length ≠ n then s
  else (s.eyeStore l (eyeFigure means sigmas)).adapt l

/-! ## Codewords and markers (R275 to R280) -/

/-- The lane that carried symbol `j` of a port's received codewords. -/
def State.symLane (s : State) (p j : Nat) : Nat :=
  match s.soleLane p with
  | some k => 2 * p + k
  | none => 2 * p + (if s.flag LAN_STATUS.swapped (2 * p) 0 then 1 - j % 2 else j % 2)

/-- The lane on which an uncorrectable codeword counts (R280). -/
def State.uncorrLane (s : State) (p : Nat) : Nat :=
  match s.soleLane p with
  | some k => 2 * p + k
  | none => if s16 (s.fld LAN_EYE.ef (2 * p + 1) 0) < s16 (s.fld LAN_EYE.ef (2 * p) 0) then 2 * p + 1 else 2 * p

/-- Stream bytes reach LNK's side of a port; the first codeword starts at its block_ptr (R276). -/
def State.streamIn (s : State) (p ptr : Nat) (bs : List Byte) (bad : Bool) : State :=
  let xs := bs.map fun b => (b, bad)
  match SMap.find? s.lan.stream p with
  | some old => { s with lan := { s.lan with stream := SMap.insert s.lan.stream p (old ++ xs) } }
  | none => if 320 ≤ ptr || bad then s
            else { s with lan := { s.lan with stream := SMap.insert s.lan.stream p (xs.drop ptr) } }

/-- The descrambler of a port after a codeword, and the number modulo 48 of the next one. -/
def State.rxNext (s : State) (p prbs next : Nat) : State :=
  { s with lan := { s.lan with prbs := SMap.insert s.lan.prbs p prbs, cwIn := SMap.insert s.lan.cwIn p (next % 48) } }

/-- The next codeword of a port is the marker of its group (R276). -/
def State.markerDue (s : State) (p : Nat) : Bool := SMap.find? s.lan.cwIn p == some 0

/-- The number of the codeword after one that is no marker seen. -/
def State.nextIn (s : State) (p : Nat) : Nat := (SMap.find? s.lan.cwIn p).getD 1 + 1

/-- A codeword with more than 7 errors (R280): it counts, and its bytes go on as bad; a marker that is lost so carries none, and
the scrambler restarts after it all the same (R276). -/
def State.codewordLost (s : State) (p prbs : Nat) (w : List Nat) : State :=
  let s := (s.bump LAN_FEC_UNCORR.count (2 * p) 0).bump LAN_FEC_UNCORR.count (2 * p + 1) 0
  let s := ((s.pmcEv 10 2 (2 * p) 0 1).pmcEv 10 2 (2 * p + 1) 0 1).lanEvent (s.uncorrLane p) 0
  if s.markerDue p then s.rxNext p 0x7FFFFFFF 1
  else
    let x := codewordBytes prbs w
    (s.rxNext p x.2 (s.nextIn p)).streamIn p 0 x.1 true

/-- A codeword is decoded, corrected, descrambled and passed on (R280); a marker restarts the scrambler (R276). -/
def State.codeword (s : State) (p : Nat) (w : List Nat) : State :=
  if s.portSt p = psRetired || s.malsol p || !s.lanesReady p || w.length != 272 then s
  else
    let prbs := (SMap.find? s.lan.prbs p).getD 0x7FFFFFFF
    match rsDecode w with
    | some (fixed, places) =>
      let s := places.foldl (fun s j =>
        (s.bump LAN_FEC_CORR.count (s.symLane p j) 0).pmcEv 10 1 (s.symLane p j) 0 1) s
      if bitOf (fixed.headD 0) 9 then s.rxNext p 0x7FFFFFFF 1
      else
        let x := codewordBytes prbs fixed
        (s.rxNext p x.2 (s.nextIn p)).streamIn p (fixed.headD 0 % 512) x.1 false
    | none => s.codewordLost p prbs w

/-- The received stream of a port starts over. -/
def State.streamReset (s : State) (p : Nat) : State :=
  { s with lan := { s.lan with stream := SMap.erase s.lan.stream p, prbs := SMap.erase s.lan.prbs p,
                               cwIn := SMap.erase s.lan.cwIn p } }

/-- A lane that is locked: three markers in a row, the count equal on the other lane of a ×2 port (R279). -/
def State.laneLocked (s : State) (l : Nat) (sole : Bool) : Bool :=
  let v := s.lane l
  let o := s.lane (otherLane l)
  decide (3 ≤ v.marks) && (sole || (decide (3 ≤ o.marks) && v.lastMark == o.lastMark))

/-- The lanes of a port in align move to ready, or return to train for skew (R279). -/
def State.alignDone (s : State) (p : Nat) (lanes : List Nat) (swapped : Bool) (port : Nat) : State :=
  if lanes.any fun l => 256 < (s.lane l).skew then
    let s := s.lanEvent (lanes.headD (2 * p)) 2
    lanes.foldl (fun s l => s.laneTrain l (s.lane l).width1) s
  else
    let s := lanes.foldl (fun s l =>
      ((((s.setFlag LAN_STATUS.swapped l 0 swapped).setFld LAN_STATUS.peer_port l 0 port).setFld
        LAN_STATUS.skew l 0 (s.lane l).skew).setFlag LAN_STATUS.am_lock l 0 true).laneTo l lsReady) s
    (s.streamReset p).frameUp p

/-- A marker arrives on a lane, or an expected one is missing or fails decoding (R279, R280). -/
def State.markerIn (s : State) (l : Nat) (mk : Option Marker) : State :=
  let p := l / 2
  let st := s.laneSt l
  if s.malsol p || (st != lsAlign && st != lsReady) then s
  else
    let v := s.lane l
    match mk with
    | none =>
      let v := { v with missed := v.missed + 1, marks := if st = lsAlign then 0 else v.marks }
      let s := s.setLane l v
      if v.missed < 4 || !s.flag LAN_STATUS.am_lock l 0 then s
      else
        let s := (s.setLane l { v with missed := 0, marks := 0 }).setFlag LAN_STATUS.am_lock l 0 false
        if st = lsReady then (s.lanEvent l 2).linkReset p 0x05 (s.lport p).survivor else s
    | some m =>
      let next := v.marks == 0 || m.amCount == (v.lastMark + 1) % 256
      let v := { v with missed := 0, marks := if next then v.marks + 1 else 1, lastMark := m.amCount, skew := m.skew }
      let s := s.setLane l v
      if st = lsReady then s
      else
        let o := otherLane l
        let sole := v.width1 || s.laneSt o == lsRetired || s.laneSt o == lsDropped || s.laneSt o == lsIdle
        if !s.laneLocked l sole then s
        else if sole then s.alignDone p [l] false m.port
        else if s.laneSt o ≠ lsAlign then s.setFlag LAN_STATUS.am_lock l 0 true
        else s.alignDone p [2 * p, 2 * p + 1] (m.lane % 2 != l % 2) m.port

/-- A port has not reached ready within 100 µs of align (R279). -/
def State.alignLimit (s : State) (p : Nat) : State :=
  let ls := [2 * p, 2 * p + 1].filter fun l => s.laneSt l == lsAlign
  if ls.isEmpty then s
  else
    let open_ := ls.filter fun l =>
      if s.malsol p then !s.flag LAN_M2_STATUS.aligned l 0 else !s.flag LAN_STATUS.am_lock l 0
    let s := (if open_.isEmpty then [2 * p] else open_).foldl (fun s l => s.lanEvent l 2) s
    if s.malsol p then ls.foldl State.laneAlign s
    else ls.foldl (fun s l => s.laneTrain l (s.lane l).width1) s

/-! ## The transmit stream (R275, R276, R278, R286) -/

/-- The 264 bytes of a link block (R291). -/
def blockBytes (b : LinkBlock) : List Byte :=
  ((blkFlits b).flatMap fun f => leBytes 64 f.toNat) ++ leBytes 2 b.slot.toNat ++ leBytes 2 b.tags.toNat ++
    leBytes 4 b.crc.toNat

/-- The lane that sends symbol `j` of a port's codewords (R275). -/
def State.sendLane (s : State) (p j : Nat) : Nat := 2 * p + ((s.txSole p).getD (j % 2))

/-- The PAM4 level of two bits, the first the more significant (R268). -/
def pamLevel (a b : Bool) : Int :=
  match a, b with
  | false, false => -3
  | false, true => -1
  | true, true => 1
  | true, false => 3

/-- The levels of bits, two at a time. -/
def pamLevels : List Bool → List Int
  | a :: b :: bs => pamLevel a b :: pamLevels bs
  | _ => []

/-- Send levels on a lane, each inverted where LAN_CFG says so (R268). -/
def State.sendLevels (s : State) (l : Nat) (xs : List Int) : State :=
  s.emit (.levels l (if s.flag LAN_CFG.tx_invert l 0 then xs.map Int.neg else xs))

/-- The five levels of each symbol, bit 9 first (R275). -/
def symLevels (ws : List Nat) : List Int :=
  pamLevels (ws.flatMap fun v => (List.range 10).map fun i => bitOf v (9 - i))

/-- Send a codeword: its symbols on the lanes that carry them, those of them that are in align or ready (R275). -/
def State.sendCodeword (s : State) (p : Nat) (w : List Nat) : State :=
  let s := s.emit (.codeword p (w.map fun v => BitVec.ofNat 10 v))
  [2 * p, 2 * p + 1].foldl (fun s l =>
    let mine := (List.range w.length).filter fun j => s.sendLane p j == l
    if mine.isEmpty || (s.laneSt l != lsAlign && s.laneSt l != lsReady) then s
    else s.sendLevels l (symLevels (mine.map fun j => w.getD j 0))) s

/-- An injection damages the symbols a lane carries of one data codeword, and counts it (R286). -/
def State.injectSyms (s : State) (l : Nat) (w : List Nat) : State × List Nat :=
  if (s.lane l).injAt.isNone || s.fld LAN_INJECT.mode l 0 != 2 then (s, w)
  else
    let mine := ((List.range 257).filter fun j => 1 ≤ j && s.sendLane (l / 2) j == l).take (s.fld LAN_INJECT.nsym l 0)
    let n := s.fld LAN_INJECT.count l 0 - 1
    let s := s.setFld LAN_INJECT.count l 0 n
    let s := if n = 0 then s.setLane l { s.lane l with injAt := none } else s
    (s, mine.foldl (fun (w : List Nat) j => w.set j ((w.getD j 0) ^^^ 0x3FF)) w)

/-- The transmit side of a port. -/
def State.lanTx (s : State) (p : Nat) : LanTx := (SMap.find? s.lan.tx p).getD .init

/-- Write the transmit side of a port. -/
def State.setLanTx (s : State) (p : Nat) (x : LanTx) : State :=
  { s with lan := { s.lan with tx := SMap.insert s.lan.tx p x } }

/-- Send the marker that begins a group of codewords (R278); the scrambler restarts after it. -/
def State.sendMarker (s : State) (p : Nat) : State :=
  let x := s.lanTx p
  let k := s.txSole p
  (s.setLanTx p { x with index := 1, am := (x.am + 1) % 256, prbs := 0x7FFFFFFF }).sendCodeword p
    (markerCodeword x.am (k.getD 1) (k.getD 0) p)

/-- Send a data codeword of the first 320 bytes of a port's stream (R276), which injections may damage. -/
def State.sendData (s : State) (p : Nat) : State :=
  let x := s.lanTx p
  let w := dataCodeword x.prbs ((x.starts.find? fun o => o < 320).getD 0x1FF) (x.bytes.take 320)
  let s := s.setLanTx p { x with
    bytes := x.bytes.drop 320, starts := (x.starts.filter fun o => 320 ≤ o).map fun o => o - 320
    index := (x.index + 1) % 48, prbs := w.2 }
  let a := s.injectSyms (2 * p) w.1
  let b := a.1.injectSyms (2 * p + 1) a.2
  b.1.sendCodeword p b.2

/-- Send the codewords that a port's stream fills: every 48th is a marker. -/
def State.txCodewords (s : State) (p : Nat) : Nat → State
  | 0 => s
  | fuel + 1 =>
    if (s.lanTx p).index = 0 then (s.sendMarker p).txCodewords p fuel
    else if (s.lanTx p).bytes.length < 320 then s
    else (s.sendData p).txCodewords p fuel

/-! ### Malsol mode (R282, R317) -/

/-- The ten bits of a character at a disparity, and the disparity after it; the K-characters are those in use. -/
def encode8 (c : Char8) (rd : Bool) : Nat × Bool :=
  match c with
  | .data b => encD b.toNat rd
  | .k v => encK ((((kChars.find? fun k => k.1 == v).map Prod.snd)).getD 0b0111101000) rd
  | _ => encK 0b0111101000 rd

/-- Characters in order from a disparity. -/
def encodeAll : List Char8 → Bool → List Nat × Bool
  | [], rd => ([], rd)
  | c :: cs, rd =>
    let x := encode8 c rd
    let y := encodeAll cs x.2
    (x.1 :: y.1, y.2)

/-- Send characters on a lane, each bit inverted where LAN_CFG says so. -/
def State.sendChars (s : State) (l : Nat) (cs : List Char8) : State :=
  let x := encodeAll cs (s.lane l).txRd
  let s := s.setLane l { s.lane l with txRd := x.2 }
  s.emit (.chars l (x.1.map fun v => BitVec.ofNat 10 (if s.flag LAN_CFG.tx_invert l 0 then 1023 - v else v)))

/-- The characters of both lanes with K28.3 put in where one is due, every 2,048 slots; and the slots since the last one. -/
def withK283 : Nat → List (Char8 × Char8) → List (Char8 × Char8) × Nat
  | n, [] => ([], n)
  | n, c :: cs =>
    if n % 2048 = 0 then
      let r := withK283 2 cs
      ((.k 0x7C, .k 0x7C) :: c :: r.1, r.2)
    else
      let r := withK283 ((n + 1) % 2048) cs
      (c :: r.1, r.2)

/-- Send character slots on the lanes of a port whose transmitters send, and K28.3 among them. -/
def State.sendSlots (s : State) (p : Nat) (cs : List (Char8 × Char8)) : State :=
  let x := s.lanTx p
  let y := withK283 x.slots cs
  let s := s.setLanTx p { x with slots := y.2 }
  let s := if (s.lane (2 * p)).tx then s.sendChars (2 * p) (y.1.map Prod.fst) else s
  if (s.lane (2 * p + 1)).tx then s.sendChars (2 * p + 1) (y.1.map Prod.snd) else s

/-- Bytes on the two lanes, even bytes on lane 0. -/
def laneBytes : List Byte → List (Char8 × Char8)
  | a :: b :: bs => (.data a, .data b) :: laneBytes bs
  | _ => []

/-- A link block on a Malsol port: K27.7, its 264 bytes, K29.7, K28.5 (R317), the K-characters on both lanes. -/
def blockSlots (b : LinkBlock) : List (Char8 × Char8) :=
  (.k 0xFB, .k 0xFB) :: laneBytes (blockBytes b) ++ [(.k 0xFD, .k 0xFD), (.k 0xBC, .k 0xBC)]

/-- A block that LNK sends enters the port's codeword stream, or goes out in characters. -/
def State.txBlock (s : State) (p : Nat) (b : LinkBlock) : State :=
  if s.malsol p then s.sendSlots p (blockSlots b)
  else
    let x := s.lanTx p
    (s.setLanTx p { x with bytes := x.bytes ++ blockBytes b, starts := x.starts ++ [x.bytes.length] }).txCodewords p 4

/-- LNK sends its next block, and LAN codes it. -/
def State.sendCoded (s : State) (p : Nat) : State :=
  let n := s.out.length
  let s := s.sendBlock p
  match (s.out.drop n).findSome? fun (o : Output) => match o with
    | .block q b => if q = p then some b else none
    | _ => none with
  | some b => s.txBlock p b
  | none => s

/-- The bytes of two lanes in order, even bytes from lane 0 (R282). -/
def interleave : List (Byte × Bool) → List (Byte × Bool) → List (Byte × Bool)
  | a :: as, b :: bs => a :: b :: interleave as bs
  | _, _ => []

/-- The stream that LAN has received on a port and LNK has not taken. -/
def State.rxStream (s : State) (p : Nat) : List (Byte × Bool) :=
  if s.malsol p then interleave (s.lane (2 * p)).bytes (s.lane (2 * p + 1)).bytes
  else (SMap.find? s.lan.stream p).getD []

/-- The block at the head of a port's stream is this one. -/
def State.streamHas (s : State) (p : Nat) (b : LinkBlock) : Bool := ((s.rxStream p).take 264).map Prod.fst == blockBytes b

/-- A block that LNK receives leaves the stream from which it was cut. -/
def State.streamCut (s : State) (p : Nat) (b : LinkBlock) : State :=
  if !s.streamHas p b then s
  else if s.malsol p then
    [2 * p, 2 * p + 1].foldl (fun s l => s.setLane l { s.lane l with bytes := (s.lane l).bytes.drop 132 }) s
  else { s with lan := { s.lan with stream := SMap.insert s.lan.stream p ((s.rxStream p).drop 264) } }

/-- Bytes of the block at the head of the stream that LAN marked bad. -/
def State.streamBad (s : State) (p : Nat) (b : LinkBlock) : Bool :=
  s.streamHas p b && ((s.rxStream p).take 264).any Prod.snd

/-! ## Malsol mode (R282, R283) -/

/-- K28.5 of either disparity. -/
def isComma (w : Nat) : Bool := w == 0b0011111010 || w == 0b1100000101

/-- The comma search over the last character and this one: the offset of the last comma found. -/
def commaAt (prev : Option Nat) (ch : Nat) : Option Nat :=
  if isComma ch then some 0
  else match prev with
    | none => none
    | some q => (((List.range 10).drop 1).filter fun n => isComma ((q * 1024 + ch) / 2 ^ (10 - n) % 1024)).getLast?

/-- Both lanes of a Malsol port are deskewed, and those in align are ready. -/
def State.m2Deskewed (s : State) (p : Nat) : State :=
  ([2 * p, 2 * p + 1].foldl (fun s k =>
    let s := s.setFlag LAN_M2_STATUS.deskewed k 0 true
    if s.laneSt k = lsAlign then s.laneTo k lsReady else s) s).frameUp p

/-- K28.3 arrives on a lane (R283): the lane that comes second deskews the port, or shows its skew too great. Of the two
ways to pair the K-characters of the lanes, 2,048 slots apart on each, the nearer counts. -/
def State.k283In (s : State) (l : Nat) : State :=
  let p := l / 2
  let o := otherLane l
  let n := (s.lane o).k283
  let s := s.setLane l { s.lane l with k283 := some 0 }
  if !s.flag LAN_M2_STATUS.aligned l 0 || !s.flag LAN_M2_STATUS.aligned o 0 then s
  else match n with
  | none => s
  | some n =>
    if 1024 < n then s
    else if 16 < n then (if s.laneSt l = lsAlign then s.lanEvent (2 * p) 2 else s)
    else s.m2Deskewed p

/-- A lane's bytes of a Malsol port's stream: a block starts at K27.7, and bad characters poison it. -/
def State.m2Stream (s : State) (l : Nat) (c : Char8) : State :=
  let put (xs : List (Byte × Bool)) : State := s.setLane l { s.lane l with bytes := xs }
  let old := (s.lane l).bytes
  match c with
  | .data b => put (old ++ [(b, false)])
  | .k 0xFB => put []
  | .k 0xFE => put (old ++ [(0, true)])
  | .wrongDisparity => put (old ++ [(0, true)])
  | .violation => put (old ++ [(0, true)])
  | .k _ => s

/-- A lane loses its character alignment (R283): one align-loss event, and a port in ready goes down (R280). -/
def State.m2Lost (s : State) (l : Nat) : State :=
  let s := ((s.setFlag LAN_M2_STATUS.aligned l 0 false).setLane l { s.lane l with viols := [], commas := 0 }).lanEvent l 2
  if s.laneSt l = lsReady then s.linkReset (l / 2) 0x05 (s.lport (l / 2)).survivor else s

/-- The decoded character of a lane: errors, alignment, deskew, bytes. -/
def State.m2Char (s : State) (l : Nat) (c : Char8) : State :=
  let s := match c with
    | .wrongDisparity => s.bump LAN_M2_ERR.disp_err l 0
    | .violation => s.bump LAN_M2_ERR.code_viol l 0
    | _ => s
  let v := s.lane l
  let viols := (v.viols.filter fun k => v.count < k + 64) ++ (if c = .violation then [v.count] else [])
  let s := s.setLane l { v with viols := viols }
  let s := if 8 ≤ viols.length && s.flag LAN_M2_STATUS.aligned l 0 then s.m2Lost l else s
  let s := if c = .k 0x7C then s.k283In l else s
  if s.laneSt l = lsReady then s.m2Stream l c else s

/-- The ten bits at a lane's character boundary, from the last ten that came and these. -/
def LaneState.window (v : LaneState) (ch : Nat) : Nat :=
  if v.boundary = 0 then ch else (v.raw.getD 0 * 1024 + ch) / 2 ^ (10 - v.boundary) % 1024

/-- Ten bits arrive on a lane in Malsol mode, and with them the character that ends at its boundary (R282, R283). -/
def State.m2Receive (s : State) (l bits : Nat) : State :=
  let p := l / 2
  let st := s.laneSt l
  if !s.malsol p || (st != lsAlign && st != lsReady) then s
  else
    let v := s.lane l
    let ch := v.window bits
    let found := commaAt v.prev ch
    let s := match found with
      | some n => (s.setFlag LAN_M2_STATUS.comma_seen l 0 true).setFld LAN_M2_STATUS.comma_pos l 0 n
      | none => s
    let commas := match found with | none => v.commas | some 0 => v.commas + 1 | some _ => 0
    let s := s.setLane l { v with
      raw := some bits, prev := some ch, commas := commas, count := v.count + 1, rdKnown := v.rdKnown || isComma ch
      k283 := v.k283.map (· + 1) }
    let s := if 4 ≤ commas then s.setFlag LAN_M2_STATUS.aligned l 0 true else s
    let rd := if !v.rdKnown && isComma ch then ch == 0b1100000101 else s.flag LAN_M2_STATUS.rd l 0
    let x := decodeChar ch rd
    let s := s.setFlag LAN_M2_STATUS.rd l 0 x.2
    if !v.rdKnown && !isComma ch then s else s.m2Char l x.1

/-- LAN_M2_CTL.slip moves the character boundary one bit later (R283). -/
def State.m2Slip (s : State) (l : Nat) : State :=
  (s.setFlag LAN_M2_STATUS.comma_seen l 0 false).setLane l
    { s.lane l with boundary := ((s.lane l).boundary + 1) % 10, prev := none, commas := 0 }

/-! ## Test patterns (R284, R285) -/

/-- A write of LAN_TEST_CFG is accepted (R285): it turns no pattern on, or the lane or its port allows it. -/
def State.testOk (s : State) (l old new : Nat) : Bool :=
  let st := s.laneSt l
  let on (hi lo : Nat) : Bool := !patOff (bitsOf new hi lo) && bitsOf new hi lo != bitsOf old hi lo
  !(on 2 0 || on 6 4) || st == lsSetup || st == lsIdle || st == lsRetired || s.flag RTE_PORT_MAP.route_dis 0 (l / 2)

/-- All four patterns of a port are off. -/
def State.patternsOff (s : State) (p : Nat) : Bool :=
  [2 * p, 2 * p + 1].all fun l => patOff (s.fld LAN_TEST_CFG.gen_pat l 0) && patOff (s.fld LAN_TEST_CFG.chk_pat l 0)

/-- A generator starts on a new pattern: a PRBS from a state that is not zero and free (log entry 99), the user pattern from
its bit 0 (R284). -/
def State.genStart (s : State) (l : Nat) : State :=
  let x := s.fresh 31
  let n := (prbsTaps (s.fld LAN_TEST_CFG.gen_pat l 0)).1
  x.2.setLane l { x.2.lane l with gen := if x.1.toNat % 2 ^ n = 0 then 1 else x.1.toNat % 2 ^ n, genBit := 0 }

/-- All patterns of a port's lanes are off again: lanes in test move to idle, and LNK starts a link reset (R285). -/
def State.testEnd (s : State) (p : Nat) : State :=
  if s.laneSt (2 * p) = lsTest ∨ s.laneSt (2 * p + 1) = lsTest then
    let s := [2 * p, 2 * p + 1].foldl (fun s k => if s.laneSt k = lsTest then s.laneTo k lsIdle else s) s
    if s.portSt p = psTest then
      ((s.portTo2 p psReset).setLport p { s.lport p with survivor := s.lastLane p }).bringUp p
    else s
  else s

/-- A pattern is on for a lane that trained or carried the port: both lanes move to test and the link goes down (R285); a
lane that is retired or dropped stays so (R267). -/
def State.testBegin (s : State) (p : Nat) : State :=
  let s := s.linkDown p 0x08
  let s := [2 * p, 2 * p + 1].foldl (fun s k =>
    if s.laneSt k = lsRetired ∨ s.laneSt k = lsDropped then s else s.laneTo k lsTest) s
  if s.portSt p = psReset then s.portTo2 p psTest else s

/-- The lane's patterns have changed (R284, R285), its generator's among them or not. -/
def State.testChanged (s : State) (l : Nat) (gen : Bool) : State :=
  let p := l / 2
  let s := s.setLane l { s.lane l with chkBits := [], chkGood := 0, chkSeen := 0, chkErrs := 0 }
  let s := s.setFlag LAN_TEST_ERR.lock l 0 false
  let s := if gen then s.genStart l else s
  let st := s.laneSt l
  let s := if gen && (st == lsTest || st == lsRetired) then s.laneTx l st else s
  if s.patternsOff p then s.testEnd p
  else if st = lsTrain ∨ st = lsAlign ∨ st = lsReady then s.testBegin p
  else s

/-- The bit the checker expects next: from the recent bits for a PRBS, from 64 bits ago for the user pattern; none until
it is seeded. The latest bit stands first. -/
def chkExpect (pat : Nat) (user : Nat) (bits : List Bool) : Option Bool :=
  if pat = 4 then
    if bits.length < 64 then none
    else
      let got := bitsLow (bits.take 64).reverse
      let rotations := (List.range 64).map fun k => user / 2 ^ k + user * 2 ^ (64 - k) % 2 ^ 64
      if rotations.contains got then some (bits.getD 63 false) else none
  else
    let n := (prbsTaps pat).1
    if bits.length < n || !(bits.take n).any id then none
    else some (prbsNext pat (bitsLow (bits.take n)))

/-- The checker takes one bit (R284): it seeds, locks after 64 error-free bits, and then counts errors. -/
def State.chkBit (s : State) (l pat : Nat) (b : Bool) : State :=
  let v := s.lane l
  let e := chkExpect pat (s.reg ⟨.LAN_TEST_PATTERN, l, 0⟩).toNat v.chkBits
  let keep (x : Bool) : List Bool := (x :: v.chkBits).take 64
  if !s.flag LAN_TEST_ERR.lock l 0 then
    let good := if e = some b then v.chkGood + 1 else 0
    let s := s.setLane l { v with chkBits := keep b, chkGood := good, chkSeen := 0, chkErrs := 0 }
    if 64 ≤ good then s.setFlag LAN_TEST_ERR.lock l 0 true else s
  else
    let want := e.getD false
    let wrong := want != b
    let s := if wrong then s.bump LAN_TEST_ERR.errors l 0 else s
    let errs := v.chkErrs + b2n wrong
    if 256 < errs then
      (s.setLane l { v with chkBits := [], chkGood := 0, chkSeen := 0, chkErrs := 0 }).setFlag LAN_TEST_ERR.lock l 0 false
    else
      let seen := (v.chkSeen + 1) % 1024
      s.setLane l { v with chkBits := keep want, chkSeen := seen, chkErrs := if seen = 0 then 0 else errs }

/-- Pattern bits arrive at a lane whose checker is on, in test, or retired with its patterns running (R266, R285). -/
def State.chkReceive (s : State) (l : Nat) (bits : List Bool) : State :=
  let pat := s.fld LAN_TEST_CFG.chk_pat l 0
  if patOff pat || (s.laneSt l != lsTest && s.laneSt l != lsRetired) then s
  else bits.foldl (fun s b => s.chkBit l pat b) s

/-- LAN_INJECT.start (R286). -/
def State.injectBegin (s : State) (l : Nat) : State :=
  let on := s.fld LAN_INJECT.count l 0 != 0 && (s.fld LAN_INJECT.mode l 0 == 1 || s.fld LAN_INJECT.mode l 0 == 2)
  s.setLane l { s.lane l with injAt := if on then some s.now else none }

/-- Blocks of a pattern injection still to come: 1,024 bits take 4,572 ps at 224 Gb/s and 99,297 ps in Malsol mode. -/
def State.injectLeft (s : State) (l : Nat) : Nat :=
  let n := s.fld LAN_INJECT.count l 0
  match (s.lane l).injAt with
  | some t =>
    if s.fld LAN_INJECT.mode l 0 = 1 && !patOff (s.fld LAN_TEST_CFG.gen_pat l 0) then
      n - (s.now - t) / (if s.malsol (l / 2) then 99297 else 4572)
    else n
  | none => n

end Sys2Proof.Machine
end

