-- ==== Sys2Proof/Machine/React.lean ====
section
/-!
DEFINITION. Reactions of the fault windows and what starts them: escalation, act-now and withdraw, injection, and the
errors of arrays, HBM, the scratchpad, caches, the crossbar and the reduction units (R366, R373 to R387).
-/
set_option Elab.async false
namespace Sys2Proof.Machine

/-! ## Reactions (R376 to R382) -/

/-- A bank is retired (R380). -/
def State.bankRetire (s : State) (b : Nat) : State :=
  let s : State := { s with spd := { s.spd with slices := SMap.erase s.spd.slices b } }
  s.setFld SPD_BANK_CTL.state 0 b 4

/-- A march of a bank by escalation starts with its first slice; a bank in retention is woken first (R345, R378). A retired
bank is left alone. -/
def State.bankMarch (s : State) (b : Nat) : State :=
  if s.fld SPD_BANK_CTL.state 0 b = 4 || (SMap.find? s.spd.slices b).isSome then s
  else
    let s := if s.fld SPD_BANK_CTL.state 0 b = 1 then
        (s.setFlag SPD_BANK_CTL.retain 0 b false).setFld SPD_BANK_CTL.state 0 b 2 else s
    { s with spd := { s.spd with slices := SMap.insert s.spd.slices b 0 } }

/-- Soft repairs of a bank use its spare columns (R345). -/
def State.bankRepaired (s : State) (b n : Nat) : State :=
  let n := min n (s.fld SPD_REPAIR.spare_left 0 b)
  (s.setFld SPD_REPAIR.spare_left 0 b (s.fld SPD_REPAIR.spare_left 0 b - n)).bump SPD_REPAIR.soft 0 b n

/-- A row repair of a pseudo-channel starts (R379). -/
def State.rowRepair (s : State) (c : Nat) : State :=
  if s.pwr.repairing.contains c then s
  else { s with pwr := { s.pwr with repairing := s.pwr.repairing ++ [c] } }

/-- The pseudo-channel that source `n` of HBM names is retired: its slots are copied, and segment-steps with state in it
restart (R225); a fifth retirement stops the device (R379). -/
def State.pcRetire (s : State) (n : Nat) : State :=
  let c := n / 4
  if s.pwr.copying.contains c || s.pwr.gone.contains c then s
  else if 4 ≤ (s.pwr.copying ++ s.pwr.gone).length then s.deviceStop 19 n
  else ({ s with pwr := { s.pwr with copying := s.pwr.copying ++ [c] } }).pcLost

/-- A reduction unit is retired (R382). -/
def State.unitRetire (s : State) (u : Nat) : State :=
  if s.csc.retired.contains u then s
  else
    let s : State := { s with csc := { s.csc with retired := s.csc.retired ++ [u] } }
    s.unitLost u

/-- The reaction of a source acts on the instance that its index names (R376, R387). -/
def State.reactOn (s : State) (blk n : Nat) (r : Reaction) : State :=
  match r with
  | .none => s
  | .linkReset => s.requestReset (n / 8) 0x01 none
  | .laneRetire => s.laneRetire (n / 4)
  | .portRetire => s.portRetire (if blk = 8 then n - 8 else n / 8)
  | .coreRetire => s.retireCore (n / 4)
  | .bankRetire => s.bankRetire (n / 4)
  | .bankMarch => s.bankMarch (n / 4)
  | .rowRepair => s.rowRepair (n / 4)
  | .pcRetire => s.pcRetire n
  | .unitRetire => s.unitRetire (n - 8)
  | .deviceStop => s.deviceStop blk n

/-! ## Escalation (R372 to R375) -/

/-- A source is no longer severe or pending, and its window closes. -/
def State.clearSource (s : State) (blk n : Nat) : State :=
  let s := (s.setFlag FLT_COUNT.severe blk n false).setFlag FLT_COUNT.pending blk n false
  let s := s.setFld FLT_COUNT.win_count blk n 0
  { s with flt := { s.flt with wins := SMap.erase s.flt.wins (srcKey blk n) } }

/-- The sources of a block that await their reaction, ascending. -/
def State.pendingSrcs (s : State) (blk : Nat) : List Nat :=
  (List.range 2048).filter fun n => (sourceSpec blk n).isSome && s.flag FLT_COUNT.pending blk n

/-- The timer stops when no source is pending (R374). -/
def State.escStop (s : State) (blk : Nat) : State :=
  if (s.pendingSrcs blk).isEmpty then { s with flt := { s.flt with esc := SMap.erase s.flt.esc blk } } else s

/-- Carry out the reaction of a pending source, then clear it (R373). -/
def State.carryOut (s : State) (blk n : Nat) : State :=
  match sourceSpec blk n with
  | none => s
  | some sp =>
    let s := (s.reactOn blk n sp.react).clearSource blk n
    let s := s.setFlag FLT_STATUS.esc_done blk 0 true
    let s := (s.setFld FLT_ESC_ACTION.last_reaction blk 0 sp.react.code).setFld FLT_ESC_ACTION.last_source blk 0 n
    s.blockVec blk

/-- The escalation timer expires (R373). -/
def State.escExpire (s : State) (blk : Nat) : State :=
  let s : State := { s with flt := { s.flt with esc := SMap.erase s.flt.esc blk } }
  if s.flag FLT_ESC_ACTION.hw_enable blk 0 then (s.pendingSrcs blk).foldl (fun s n => s.carryOut blk n) s else s

/-- The sources that a command of FLT_ESC_ACTION names, of those pending. -/
def State.escNamed (s : State) (blk : Nat) (every : Bool) (n : Nat) : List Nat :=
  (s.pendingSrcs blk).filter fun k => every || k == n

/-- Act now (R374). -/
def State.actNow (s : State) (blk : Nat) (every : Bool) (n : Nat) : State :=
  ((s.escNamed blk every n).foldl (fun s k => s.carryOut blk k) s).escStop blk

/-- Withdraw (R374). -/
def State.escWithdraw (s : State) (blk : Nat) (every : Bool) (n : Nat) : State :=
  ((s.escNamed blk every n).foldl (fun s k => s.clearSource blk k) s).escStop blk

/-- A source's window ends (R363): win_count returns to 0. -/
def State.windowEnd (s : State) (blk n : Nat) : State :=
  let s : State := { s with flt := { s.flt with wins := SMap.erase s.flt.wins (srcKey blk n) } }
  s.setFld FLT_COUNT.win_count blk n 0

/-- The handling of the first record ends (R358, R369). -/
def State.firstClear (s : State) (blk : Nat) : State :=
  let s := (s.setReg ⟨.FLT_FIRST, blk, 0⟩ 0).setReg ⟨.FLT_FIRST_TIME, blk, 0⟩ 0
  let s := s.setFlag FLT_STATUS.first_valid blk 0 false
  let s := s.setFld FLT_STATUS.also_count blk 0 0
  { s with flt := { s.flt with firstAt := SMap.erase s.flt.firstAt blk } }

/-! ## Injection (R387) -/

/-- The instance that a source index implies; zero for a source without one. -/
def srcInstance (blk n : Nat) : Nat :=
  match blk with
  | 1 => if n < 64 then n / 8 else 0
  | 7 => if 8 ≤ n ∧ n < 16 then n - 8 else 0
  | 8 => if 8 ≤ n ∧ n < 152 then n - 8 else 0
  | 9 => if n < 1152 then n / 8 else 0
  | 10 => if n < 1152 then n / 4 else 0
  | 11 => if n < 256 then n / 4 else 0
  | 12 => if n < 256 then n / 4 else 0
  | 19 => if n < 512 then n / 4 else 0
  | _ => 0

/-- The spacing of injected events. -/
def State.injGap (s : State) (blk : Nat) : Nat := us (max 1 (s.fld FLT_INJECT.interval_us blk 0))

/-- Insert one event and count it down; injection ends at zero. -/
def State.injectOne (s : State) (blk : Nat) (x : FltInj) : State :=
  let s := s.event blk x.source x.master (srcInstance blk x.source) true false
  let left := s.fld FLT_INJECT.count blk 0 - 1
  let s := s.setFld FLT_INJECT.count blk 0 left
  if left = 0 then
    let s := s.setFlag FLT_INJECT.busy blk 0 false
    { s with flt := { s.flt with inj := SMap.erase s.flt.inj blk } }
  else { s with flt := { s.flt with inj := SMap.insert s.flt.inj blk { x with next := s.now + s.injGap blk } } }

/-- A write of FLT_INJECT with start (R387), its other fields written: ignored for a source the block does not have, or
while busy; count 0 inserts nothing. -/
def State.injectStart (s : State) (blk m count interval source : Nat) : State :=
  if s.flag FLT_INJECT.busy blk 0 || (sourceSpec blk source).isNone then s
  else
    let s := (s.setFld FLT_INJECT.count blk 0 count).setFld FLT_INJECT.interval_us blk 0 interval
    let s := s.setFld FLT_INJECT.source blk 0 source
    if count = 0 then s else (s.setFlag FLT_INJECT.busy blk 0 true).injectOne blk ⟨source, m, 0⟩

/-- The next injected event falls due. -/
def State.injectTick (s : State) (blk : Nat) : State :=
  match SMap.find? s.flt.inj blk with
  | some x => s.injectOne blk x
  | none => s

/-! ## Errors (R339, R366, R383 to R385) -/

/-- An error of an on-chip array (R383). -/
def State.sramError (s : State) (blk : Nat) (unc : Bool) : State := s.fault blk (if unc then 2046 else 2045) 0

/-- The areas of HBM (R130). -/
inductive HbmArea where
  | fabric (off : Nat)
  | spill (p : Nat)
  | staging
  | samples
  | handler (off : Nat)
  | other
  deriving DecidableEq, Repr

/-- The area of an HBM address (R130). -/
def State.hbmArea (s : State) (a : Nat) : HbmArea :=
  let res := s.fld XLT_FMEM_CFG.reserved_gib 0 0 * 2 ^ 30
  if res ≤ a then .fabric (a - res)
  else if 0x3C0000000 ≤ a then .handler (a - 0x3C0000000)
  else if 0x2F8000000 ≤ a ∧ a < 0x2F8000000 + 144 * 2 ^ 24 then .spill ((a - 0x2F8000000) / 2 ^ 24)
  else if 0x2B8000000 ≤ a ∧ a < 0x2F8000000 then .staging
  else if 0x399000000 ≤ a ∧ a < 0x3A9000000 then .samples
  else .other

/-- A segment-step whose staged data is lost restarts; which one the word held is free (log entry 7). -/
def State.stagingLost (s : State) : State :=
  let segs := s.csc.insts.flatMap fun i => (i.segs.filter fun x => x.started && !x.done).map fun x => (i.ref, x.step, x.seg)
  if segs.isEmpty then s
  else
    let (f, s) := s.fresh 16
    match segs[f.toNat % segs.length]? with
    | some (h, t, g) => s.restartSeg h t g
    | none => s

/-- A record of the precise-sample buffer is lost (R385, R449): dropped and counted. -/
def State.sampleLost (s : State) (a : Nat) : State :=
  let s : State := { s with pmc := { s.pmc with buf := SMap.erase s.pmc.buf ((a - 0x399000000) / 128) } }
  (s.bump PMC_SAMPLE_STATUS.dropped 0 0).fault 17 1 0

/-- The word at an HBM address reads uncorrectable from now on. -/
def State.hbmSpoil (s : State) (a : Nat) : State :=
  if s.pwr.hbmBad.contains (a / 8) then s else { s with pwr := { s.pwr with hbmBad := s.pwr.hbmBad ++ [a / 8] } }

/-- The event of an uncorrectable word that is not fatal. -/
def State.hbmSeen (s : State) (a : Nat) : State := s.fault 19 (4 * hbmChannel a + 1) (hbmChannel a)

/-- What an uncorrectable HBM read makes of its word, by the area the word lies in (R385): one event, and its effect. -/
def State.hbmLost (s : State) (a : Nat) : HbmArea → State
  | .other => s.event 19 (4 * hbmChannel a + 1) (mDev 19) (hbmChannel a) false true
  | .spill p => (s.hbmSeen a).linkReset p 0x01 none
  | .staging => (s.hbmSeen a).stagingLost
  | .samples => (s.hbmSeen a).sampleLost a
  | _ => (s.hbmSeen a).hbmSpoil a

/-- An uncorrectable HBM read (R385). -/
def State.hbmUncorrected (s : State) (a : Nat) : State := s.hbmLost a (s.hbmArea a)

/-- An HBM read error (R366, R379, R385). -/
def State.hbmError (s : State) (a : Nat) (unc : Bool) : State :=
  if unc then s.hbmUncorrected a else s.fault 19 (4 * hbmChannel a) (hbmChannel a)

/-- The rows repaired in a stack of 32 pseudo-channels. -/
def State.repairsOf (s : State) (stack : Nat) : Nat := SMap.getD (fun _ => 0) s.pwr.repairs stack

/-- A row repair ends (R379): a spare row is used, or, with none left, a corrected event of the source is counted. -/
def State.rowRepaired (s : State) (c : Nat) : State :=
  if !s.pwr.repairing.contains c then s
  else
    let st := c / 32
    let n := s.repairsOf st
    let s : State := { s with pwr := { s.pwr with repairing := s.pwr.repairing.erase c } }
    if Config.spareRow st n then { s with pwr := { s.pwr with repairs := SMap.insert s.pwr.repairs st (n + 1) } }
    else s.fault 19 (4 * c) c

/-- The copy of a retiring pseudo-channel's slots ends (R379, step 3): fabric memory is smaller and what stood beyond is
lost. -/
def State.copyDone (s : State) (c : Nat) : State :=
  if !s.pwr.copying.contains c then s
  else
    let s : State := { s with pwr := { s.pwr with copying := s.pwr.copying.erase c, gone := s.pwr.gone ++ [c] } }
    let size := s.fmemSize
    { s with fmem := s.fmem.filter fun x => x.1 < size }

/-- A slice of an escalated march ends, with its failing columns repaired (R378): the next slice; after the eighth, the bank
is retired if one of its slices still fails. -/
def State.sliceDone (s : State) (b : Nat) (pass : Bool) (repaired : Nat) : State :=
  match SMap.find? s.spd.slices b with
  | none => s
  | some k =>
    let s := s.bankRepaired b repaired
    let failed := !pass || 8 ≤ k
    if k % 8 = 7 then
      if failed then s.bankRetire b else { s with spd := { s.spd with slices := SMap.erase s.spd.slices b } }
    else { s with spd := { s.spd with slices := SMap.insert s.spd.slices b (k % 8 + 1 + 8 * b2n failed) } }

/-- A read of a scratchpad word found an error (R339, R366): corrected data is written back; an uncorrectable word reads
all ones until it is written. -/
def State.spdEcc (s : State) (a : Nat) (unc : Bool) : State :=
  let b := a / 2 ^ 20
  if 64 ≤ b then s
  else
    let s := if unc && !s.spd.bad.contains (a / 8) then
        { s with spd := { s.spd with bad := s.spd.bad ++ [a / 8] } } else s
    s.fault 12 (4 * b + b2n unc) b

/-- A parity error of a core's cache or TLB (R366): the line is fetched, or the entry refilled, again. Which TLB entry it
was is free (log entry 7). -/
def State.coreParity (s : State) (c : Nat) (tlb : Bool) : State :=
  let s := s.fault 11 (4 * c + b2n tlb) c
  let (f, s) := s.fresh 16
  let v := s.core c
  if !tlb then
    let k := f.toNat % max 1 (v.icache.length + v.dcache.length)
    s.setCore c (if k < v.icache.length then { v with icache := v.icache.eraseIdx k }
      else { v with dcache := v.dcache.eraseIdx (k - v.icache.length) })
  else
    let all := (v.itlb ++ v.dtlb ++ v.l2).filter (!·.locked)
    match all[f.toNat % max 1 all.length]? with
    | some e => s.setCore c (v.tlbDrop fun x => x == e)
    | none => s

/-- A crossbar error of a port on a packet (R366): the packet is poisoned. -/
def State.xbarError (s : State) (p id : Nat) : State := (s.fault 8 (8 + p) p).poisonPkt id

/-- An error of a reduction unit (R366): the segment-steps that it held restart. -/
def State.cscError (s : State) (u : Nat) : State := (s.fault 7 (8 + u) u).unitLost u

end Sys2Proof.Machine
end

