-- ==== Sys2Proof/Machine/Pmc.lean ====
section
/-!
DEFINITION. PMC: what the counters count in a core cycle, overflow and chaining, freezes and snapshots, the sample
buffer, and with them the passing of time (R441 to R454).
-/
set_option Elab.async false
namespace Sys2Proof.Machine

/-! ## Events (R442, R445) -/

/-- A state event's current values: instance, VC and value. Core cycles count as one that is always 1, and to
the HBM bytes that are occurrences comes what the blocks move of their own structures, a free value (log entry 42). -/
def State.pmcLevels (s : State) (blk code : Nat) : List (Nat × Nat × Nat) :=
  match blk, code with
  | 0, 0 => [(0, 0, 1)]
  | 1, 3 => (List.range 8).map fun p =>
      (p, 0, (s.hif.reads.filter fun r => r.2.p == p).length + (s.hif.others.filter fun r => r.2.p == p).length +
        b2n (s.hif.ds.any fun d => d.p == p))
  | 2, 5 => [(0, 0, s.handles.length)]
  | 2, 6 => [(0, 0, (s.ctxs.filter fun c => c.2.inHold).length)]
  | 5, 5 => [(0, 0, s.sumpUsed)]
  | 8, 2 => s.rte.pkts.filterMap fun x => match x.place with
      | .queued q _ => some (q, pVc x.pkt, x.got - x.sent)
      | _ => none
  | 8, 5 => s.rte.pkts.filterMap fun x => match x.place with
      | .queued q k => if x.sent = 0 ∧ !(s.lport q).hasCredit k then some (q, pVc x.pkt, 1) else none
      | _ => none
  | 9, 4 => s.lnk.ports.map fun v => (v.1, 0, v.2.spillway.length)
  | 11, 3 => (List.range 64).map fun c => (c, 0, b2n (s.coreSt c == 2))
  | 11, 4 => [(0, 0, s.hdl.queue.length)]
  | 14, 2 => [(0, 0, s.lag / 1024)]
  | 19, k => (List.range 128).map fun c => (c, 0, Config.hbmTraffic k c (s.now / 500))
  | _, _ => []

/-- Whether an event of R445 is per instance. -/
def pmcPerInst (blk code : Nat) : Bool :=
  match blk with
  | 1 => true
  | 2 => code ≤ 4
  | 5 => code ≤ 2
  | 7 => code == 1
  | 8 => code != 4
  | 9 => true
  | 10 => true
  | 11 => code ≤ 3
  | 12 => true
  | 13 => true
  | 19 => true
  | _ => false

/-- Whether an event of R445 is VC-aware. -/
def pmcPerVc (blk code : Nat) : Bool := blk == 8 && (code == 1 || code == 2 || code == 5)

/-- The events that are listed (R445): block and its highest code. A code outside counts nothing. -/
def pmcListed (blk code : Nat) : Bool :=
  match blk with
  | 0 => code == 0
  | 1 => 1 ≤ code && code ≤ 3
  | 2 => 1 ≤ code && code ≤ 6
  | 3 => 1 ≤ code && code ≤ 2
  | 4 => 1 ≤ code && code ≤ 3
  | 5 => 1 ≤ code && code ≤ 5
  | 6 => 1 ≤ code && code ≤ 4
  | 7 => 1 ≤ code && code ≤ 2
  | 8 => 1 ≤ code && code ≤ 5
  | 9 => 1 ≤ code && code ≤ 4
  | 10 => 1 ≤ code && code ≤ 2
  | 11 => 1 ≤ code && code ≤ 4
  | 12 => 1 ≤ code && code ≤ 3
  | 13 => 1 ≤ code && code ≤ 2
  | 14 => 1 ≤ code && code ≤ 2
  | 16 => code == 1
  | 17 => 1 ≤ code && code ≤ 2
  | 19 => 1 ≤ code && code ≤ 3
  | _ => false

/-- A counter's selection, as a word of PMC_EVSEL. -/
abbrev EvSel := Nat

/-- The selection admits an instance and a VC of its event. -/
def EvSel.admits (e : EvSel) (inst vc : Nat) : Bool :=
  let blk := bitsOf e 52 48
  let code := bitsOf e 47 40
  (!pmcPerInst blk code || bitOf e 20 || bitsOf e 19 0 == inst) && (!pmcPerVc blk code || bitOf (bitsOf e 39 32) vc)

/-- The weights of a counter (R442): of the current cycle with its occurrences, and of a cycle without any. -/
def State.pmcSums (s : State) (e : EvSel) : Nat × Nat :=
  let blk := bitsOf e 52 48
  let code := bitsOf e 47 40
  if !pmcListed blk code then (0, 0)
  else
    let level := ((s.pmcLevels blk code).filterMap fun (i, v, w) => if EvSel.admits e i v then some w else none).sum
    let here := (s.pmc.events.filterMap fun x =>
      if x.blk == blk && x.code == code && EvSel.admits e x.inst x.vc then some x.w else none).sum
    (here + level, level)

/-! ## Counting (R442 to R444) -/

/-- The offset of PMC_EVSEL[0], PMC_COUNT[0] and PMC_SNAP[0] (R455). -/
def evselBase : Nat := 0x1101000
def countBase : Nat := 0x1102000
def snapBase : Nat := 0x1103000

/-- The enabled counters, ascending, with their selections; an unlisted PMC_EVSEL is disabled. -/
def State.enabledCtrs (s : State) : List (Nat × EvSel) :=
  s.regs.filterMap fun (o, w) =>
    if evselBase ≤ o && o < evselBase + 4096 && bitOf w.toNat 63 then some ((o - evselBase) / 8, w.toNat) else none

/-- A counter counts the overflows of the one below it. -/
def EvSel.chained (n : Nat) (e : EvSel) : Bool := bitOf e 61 && n % 16 != 0

/-- The value of a counter. -/
def State.count (s : State) (n : Nat) : Nat := s.fld PMC_COUNT.value 0 n

/-- What an unchained counter adds over `n` cycles, the first with the occurrences of now, and the sum of the last. -/
def State.ownAdd (s : State) (k : Nat) (e : EvSel) (n : Nat) : Nat × Nat :=
  let (w0, w) := s.pmcSums e
  let last := if 1 < n then w else w0
  if bitOf e 62 then
    let p := SMap.getD (fun _ => 0) s.pmc.sums k
    (b2n (w0 != 0 && p == 0) + b2n (decide (1 < n) && w != 0 && w0 == 0), last)
  else (w0 + (n - 1) * w, last)

/-- The additions of every enabled counter over `n` cycles with the overflows each makes: counter, selection, addition,
last sum, overflows. -/
def State.pmcAdds (s : State) (n : Nat) : List (Nat × EvSel × Nat × Nat × Nat) :=
  (s.enabledCtrs.foldl (fun (acc : List (Nat × EvSel × Nat × Nat × Nat) × (Nat × Nat)) (x : Nat × EvSel) =>
    let below := if acc.2.1 = x.1 then acc.2.2 else 0
    let own := s.ownAdd x.1 x.2 n
    let add := if EvSel.chained x.1 x.2 then below else own.1
    let ov := (s.count x.1 + add) / 2 ^ 48
    (acc.1 ++ [(x.1, x.2, add, own.2, ov)], (x.1 + 1, ov))) ([], (0, 0))).1

/-- The cycles after which counter `n` has overflowed `k` more times, if it does while nothing else happens. -/
def State.cyclesTo (s : State) : Nat → Nat → Nat → Option Nat
  | 0, _, _ => none
  | fuel + 1, n, k =>
    match s.enabledCtrs.find? fun x => x.1 == n with
    | none => none
    | some (_, e) =>
      let need := k * 2 ^ 48 - s.count n
      if EvSel.chained n e then s.cyclesTo fuel (n - 1) need
      else
        let (w0, w) := s.pmcSums e
        if bitOf e 62 then none
        else if need ≤ w0 then some 1
        else if w = 0 then none
        else some (1 + (need - w0 + w - 1) / w)

/-! ## Freezes (R446, R447) -/

/-- PMC counts: it is out of its setup state and not frozen. -/
def State.pmcRuns (s : State) : Bool := !s.inSetup 17 && !s.flag PMC_STATUS.frozen 0 0

/-- The first tick 20 ns after a time of the model's clock. -/
def State.tickAfter (s : State) (t : Nat) : Nat := (((t : Int) + s.timAdj).toNat + 20000 + 999) / 1000

/-- A freeze request for tick `t`: ignored in setup and while frozen; with one pending, the earliest wins. -/
def State.freezeReq (s : State) (t : Nat) : State :=
  if !s.pmcRuns then s
  else { s with pmc := { s.pmc with freezeAt := some (match s.pmc.freezeAt with | some u => min u t | none => t) } }

/-- A request at once: freeze_now, an overflow, an event pin. -/
def State.freezeSoon (s : State) : State := s.freezeReq (s.tickAfter s.now)

/-- freeze_at. -/
def State.freezeAtTime (s : State) : State := s.freezeReq (max (s.fld PMC_FREEZE_TIME.time 0 0) (s.tickAfter s.now))

/-- unfreeze. -/
def State.unfreeze (s : State) : State :=
  let s : State := { s with pmc := { s.pmc with freezeAt := none } }
  s.setFlag PMC_STATUS.frozen 0 0 false

/-- The snapshot at tick `t` (R446). -/
def State.freeze (s : State) (t : Nat) : State :=
  let snaps := s.regs.filterMap fun (o, w) =>
    if countBase ≤ o && o < countBase + 4096 then some (o - countBase + snapBase, w) else none
  let rest := s.regs.filter fun e => !(snapBase ≤ e.1 && e.1 < snapBase + 4096)
  let regs := snaps.foldl (fun m e => SMap.put resetWord m e.1 e.2) rest
  let s : State := { s with regs := regs, pmc := { s.pmc with freezeAt := none } }
  let s := (s.setFld PMC_SNAP_TIME.time 0 0 t).setFlag PMC_STATUS.snap_valid 0 0 true
  if s.flag PMC_CTL.snap_only 0 0 then s else s.setFlag PMC_STATUS.frozen 0 0 true

/-- The model's clock when fabric time reaches tick `t`. -/
def State.clockOf (s : State) (t : Nat) : Nat := ((t * 1000 : Nat) - s.timAdj).toNat

/-! ## The passing of time -/

/-- One counter takes its addition, with its overflow (R444). -/
def State.countUp (s : State) (x : Nat × EvSel × Nat × Nat × Nat) : State :=
  let (n, e, add, last, ov) := x
  let s := if add = 0 then s else s.setFld PMC_COUNT.value 0 n (s.count n + add)
  let s : State := { s with pmc := { s.pmc with sums := SMap.put (fun _ => 0) s.pmc.sums n last } }
  if ov = 0 then s
  else
    let s := s.setFlag ⟨.PMC_OVF, n % 64, n % 64, .w1c, 0⟩ 0 (n / 64) true
    let s := if bitOf e 60 then s.blockVec 17 else s
    if bitOf e 59 then s.freezeSoon else s

/-- The clock moves on to `t`, and the counters count the core cycles that end. -/
def State.clock (s : State) (t : Nat) : State :=
  let n := t / 500 - s.now / 500
  if n = 0 then { s with now := max s.now t }
  else
    let adds := if s.pmcRuns then s.pmcAdds n else []
    let s : State := { s with now := t, pmc := { s.pmc with events := [] } }
    adds.foldl State.countUp s

/-- The next time before `t` at which a counter with freeze_on_ovf overflows or a pending freeze falls due. -/
def State.nextStop (s : State) (t : Nat) : Nat :=
  let ovf := s.enabledCtrs.filterMap fun (n, e) =>
    if bitOf e 59 then (s.cyclesTo 16 n 1).map fun k => (s.now / 500 + k) * 500 else none
  let frz := (s.pmc.freezeAt.map fun u => max s.now (s.clockOf u)).toList
  ((if s.pmcRuns then ovf else []) ++ frz).foldl min t

/-- Move the clock on to `t`, through the freezes on the way. -/
def State.advanceBy (s : State) (t : Nat) : Nat → State
  | 0 => s.clock t
  | fuel + 1 =>
    let u := s.nextStop t
    let s := s.clock u
    match s.pmc.freezeAt with
    | some k => if s.clockOf k ≤ s.now then (s.freeze k).advanceBy t fuel
                else if u < t then s.advanceBy t fuel else s
    | none => if u < t then s.advanceBy t fuel else s

/-- Time passes until `t` at least (log entry 5). -/
def State.advance (s : State) (t : Nat) : State := if s.now < t then s.advanceBy t 1000 else s

/-- The current core cycle ends (R443). -/
def State.endCycle (s : State) : State := s.advance ((s.now / 500 + 1) * 500)

/-- Time passes until counter `n` overflows, if it does (R444). -/
def State.overflow (s : State) (n : Nat) : State :=
  if !s.pmcRuns then s
  else match s.cyclesTo 16 n 1 with
    | some k => s.advance ((s.now / 500 + k) * 500)
    | none => s

/-- The pending freeze's tick comes. -/
def State.freezeTick (s : State) : State :=
  match s.pmc.freezeAt with
  | some k =>
    let s := s.advance (s.clockOf k)
    if s.pmc.freezeAt = some k then s.freeze k else s
  | none => s

/-! ## The sample buffer (R450, R453, R454) -/

/-- The size of the buffer in records. -/
def State.sampleBuf (s : State) : Nat := 2 ^ max 10 (min 21 (s.fld PMC_CTL.buf_log2 0 0))

/-- A record is written, or dropped and counted when the buffer is full; its slot is free. -/
def State.sampleWrite (s : State) (slot : Nat) (v : Sample) : State :=
  let s : State := { s with pmc := { s.pmc with live := SMap.erase s.pmc.live slot } }
  let tail := s.fld PMC_SAMPLE_TAIL.count 0 0
  if s.sampleBuf ≤ tail - s.fld PMC_SAMPLE_HEAD.count 0 0 then
    (s.bump PMC_SAMPLE_STATUS.dropped 0 0).fault 17 1 0
  else
    let s : State := { s with pmc := { s.pmc with buf := SMap.insert s.pmc.buf (tail % s.sampleBuf) v.record } }
    (s.setFld PMC_SAMPLE_TAIL.count 0 0 (tail + 1)).pmcEv 17 1 0 0 1

/-- The record of an ended item. -/
def State.sampleRecord (s : State) (slot : Nat) : State :=
  match SMap.find? s.pmc.live slot with
  | some v => if v.ended then s.sampleWrite slot v else s
  | none => s

/-- The record of an item that has not ended in sample_max_ms. -/
def State.sampleLimit (s : State) (slot : Nat) : State :=
  match SMap.find? s.pmc.live slot with
  | some v =>
    if v.ended then s
    else
      let s := s.advance (v.startAt + ms (max 1 (s.fld PMC_CTL.sample_max_ms 0 0)))
      s.sampleWrite slot { v with incomplete := true }
  | none => s

/-- A byte word of the record that PMC_SAMPLE_SEL names (R453). -/
def State.sampleData (s : State) (k : Nat) : Word :=
  let i := s.fld PMC_SAMPLE_SEL.index 0 0
  let tail := s.fld PMC_SAMPLE_TAIL.count 0 0
  if tail ≤ i ∨ i + s.sampleBuf < tail then 0
  else BitVec.ofNat 64 ((SMap.getD (fun _ => (0 : BitVec 1024)) s.pmc.buf (i % s.sampleBuf)).toNat / 2 ^ (64 * k))

end Sys2Proof.Machine
end

