-- ==== Sys2Proof/Machine/Sec.lean ====
section
/-!
DEFINITION. SEC: device reset, the steps of power-up, the flash, live update, attestation (R416 to R432, R438, R440).
-/
set_option Elab.async false
namespace Sys2Proof.Machine

/-! ## Device reset (R418, R463) -/

/-- What leaves the device as it is reset: the lanes fall silent, and the slots lose their power and their lights (R483, R491). -/
def State.resetOutputs (s : State) : State :=
  let s := (List.range 288).foldl (fun s l => if s.laneSt l = lsSetup then s else s.emit (.laneSquelch l)) s
  s.hif.subs.foldl (fun s e =>
    let (p, k) := (e.1 / 4, e.1 % 4)
    let s := if s.fld HIF_DS_SLOT_CTL.pwr_ind p k = 3 then s else s.emit (.slotLed p k false 3)
    let s := if s.fld HIF_DS_SLOT_CTL.attn_ind p k = 3 then s else s.emit (.slotLed p k true 3)
    if e.2.powered then (s.emit (.slotPerst p k true)).emit (.slotPower p k false) else s) s

/-- Every register at its reset value, every table and memory on chip and in HBM empty. What the reset does not touch:
the clock, what has left and what waits at the edge of the model, the flash, the fuses, the levels of the pins, the clocks
and rails (R482), the TAP, and the journal on its target with its place (R403, R414). -/
def State.cleared (s : State) : State :=
  let ps : SMap HPortState := s.hif.ports.filterMap fun e =>
    if e.2.perst then some (e.1, { HPortState.init with perst := true }) else none
  let t : State := { State.reset with
    pending := s.pending, now := s.now, timAdj := s.timAdj, out := s.out, free := s.free, flash := s.flash,
    hif := { HifState.init with ports := ps }
    rsv := { RsvState.init with
      nextLsn := s.rsv.nextLsn, ringOff := s.rsv.ringOff, sbGen := s.rsv.sbGen, journalId := s.rsv.journalId,
      tailLsn := s.rsv.tailLsn, tailOff := s.rsv.tailOff }
    pwr := { PwrState.init with
      pwrgood := s.pwr.pwrgood, pfLow := s.pwr.pfLow, pfAt := s.pwr.pfAt, jtag := s.pwr.jtag }
    sec := { SecState.init with
      svnFused := s.sec.svnFused, addrSel := s.sec.addrSel, dogUsed := s.sec.dogUsed, fuses := s.sec.fuses } }
  let t := (t.setFld PWR_STATUS.rail_ok 0 0 (s.fld PWR_STATUS.rail_ok 0 0)).setFld PWR_STATUS.host_ref_ok 0 0
    (s.fld PWR_STATUS.host_ref_ok 0 0)
  let t := (t.setFld PWR_STATUS.fab_ref_ok 0 0 (s.fld PWR_STATUS.fab_ref_ok 0 0)).setFld PWR_STATUS.core_ref_ok 0 0
    (s.fld PWR_STATUS.core_ref_ok 0 0)
  t.setFlag PWR_STATUS.pwrfail 0 0 s.pwr.pfLow

/-- A device reset while power is good (R418): steps 2 to 10 of R416 follow; the marker carries the cause. -/
def State.deviceReset (s : State) (cause : Nat) : State :=
  let s := s.resetOutputs.cleared
  let s : State := { s with sec := { s.sec with step := 1, bootAt := s.now, cause := cause } }
  s.logMarker 1 0 (BitVec.ofNat 64 cause)

/-- PWRGOOD falls (R418, R478): the device reset takes effect at once, and nothing follows until it rises. -/
def State.powerFall (s : State) : State :=
  if !s.pwr.pwrgood then s
  else
    let s := s.resetOutputs.cleared
    let s : State := { s with
      pwr := { s.pwr with pwrgood := false }, sec := { s.sec with dogUsed := false } }
    (((s.setFld PWR_STATUS.rail_ok 0 0 0).setFld PWR_STATUS.host_ref_ok 0 0 0).setFld PWR_STATUS.fab_ref_ok 0 0 0).setFld
      PWR_STATUS.core_ref_ok 0 0 0

/-- A TOP_RESET that waited for its seal takes effect (R418). -/
def State.resetWhenSealed (s : State) : State :=
  if s.sec.resetWaits && s.rsv.sealing.isNone then s.deviceReset 2 else s

/-- An accepted TOP_RESET (R418): a running journal is sealed first, and a running seal ends first (R400). -/
def State.topReset (s : State) : State :=
  let s : State := { s with sec := { s.sec with resetWaits := true } }
  (if s.fld RSV_STATUS.state 0 0 = 2 then s.sealStart 3 else s).resetWhenSealed

/-! ## Power-up up to the choice of the slot (R416, R421) -/

/-- PWRGOOD rises with every reference good, and with the rails of a mask in tolerance (R416, R476). -/
def State.powerRise (s : State) (addrSel rails : Nat) : State :=
  if s.pwr.pwrgood then s
  else
    let s : State := { s with
      pwr := { s.pwr with pwrgood := true }
      sec := { SecState.init with
        svnFused := s.sec.svnFused, fuses := s.sec.fuses, step := 1, bootAt := s.now, cause := 1, addrSel := addrSel % 4 } }
    let s := (s.setFld PWR_STATUS.rail_ok 0 0 rails).setFld PWR_STATUS.host_ref_ok 0 0 0xFF
    let s := (s.setFld PWR_STATUS.fab_ref_ok 0 0 0xF).setFlag PWR_STATUS.core_ref_ok 0 0 true
    s.logMarker 1 0 1

/-- A step of R416 has been reached. -/
def State.atStep (s : State) (n : Nat) : State := { s with sec := { s.sec with step := n } }

/-- The device identity that follows from a seed (R423). -/
def identityOf (seed : BitVec 256) : Nat := (Config.sha512 (leBytes 32 (Config.identityKey seed).toNat)).toNat % 2 ^ 64

/-- Where rails were out of tolerance as PWRGOOD rose, all have now been in tolerance for 1 ms (R476). -/
def State.railsSettled (s : State) : State :=
  if s.fld PWR_STATUS.rail_ok 0 0 = 0x1FFF then s
  else (s.advance (s.now + ms 1)).setFld PWR_STATUS.rail_ok 0 0 0x1FFF

/-- The fuses of the scratchpad's banks: the production repairs, and the spare columns they leave of 16 (R345). -/
def State.spdFuses (s : State) (repairs : List (Nat × Nat)) : State :=
  (List.range 64).foldl (fun s b =>
    let n := min 16 (((repairs.find? fun e => e.1 == b).map (·.2)).getD 0)
    (s.setFld SPD_REPAIR.fused 0 b n).setFld SPD_REPAIR.spare_left 0 b (16 - n)) s

/-- Step 2: the fuses are sensed and the identity is valid. A device's fuses are those it was first sensed with. -/
def State.fusesSensed (s : State) (fuses : Fuses) : State :=
  if s.sec.step ≠ 1 then s
  else
    let f := s.sec.fuses.getD fuses
    let s := s.railsSettled.atStep 2
    let s : State := { s with sec := { s.sec with fuses := some f } }
    let s := (s.setFld TOP_PART_INFO.stepping 0 0 f.stepping).setFld SEC_IDENTITY.identity 0 0 (identityOf f.seed)
    let s := s.setFld SEC_SVN.svn_min 0 0 (max (f.svnMin % 2 ^ 32) s.sec.svnFused)
    s.spdFuses f.spdRepairs

/-- Step 3: the PLLs are locked. -/
def State.pllLocked (s : State) : State :=
  if s.sec.step ≠ 2 then s else (s.atStep 3).setFld PWR_STATUS.pll_lock 0 0 0x3F

/-- The flash offset of a slot (R419). -/
def slotBase (slot : Nat) : Nat := 0x10000 + 0x1000000 * slot

/-- A little-endian number of a slot in flash. -/
def State.slotNum (s : State) (slot off n : Nat) : Nat := ofLE (s.flash.read (slotBase slot + off) n)

/-- The sequence of a slot's configuration section. -/
def State.slotSeq (s : State) (slot : Nat) : Nat := s.slotNum slot (0xF00000 + 16) 4

/-- The code of a slot in SEC_BOOT_STATUS. -/
def State.slotCode (s : State) (slot : Nat) : Nat :=
  if slot = 0 then s.fld SEC_BOOT_STATUS.code_a 0 0 else s.fld SEC_BOOT_STATUS.code_b 0 0

/-- Set the code of a slot. -/
def State.setSlotCode (s : State) (slot code : Nat) : State :=
  if slot = 0 then s.setFld SEC_BOOT_STATUS.code_a 0 0 code else s.setFld SEC_BOOT_STATUS.code_b 0 0 code

/-- Boot has failed (R421): the host ports leave setup as endpoints at 64.0 GT/s, and nothing else does. -/
def State.bootFailed (s : State) : State :=
  let s := s.setFld SEC_BOOT_STATUS.state 0 0 3
  (List.range 8).foldl (fun s p =>
    ((s.setFld HIF_PORT_CFG.mode p 0 0).setFld HIF_PORT_CFG.max_speed p 0 0).portExit p) s

/-- The flash offset of a slot's configuration section (R419). -/
def cfgBase (slot : Nat) : Nat := slotBase slot + 0xF00000

/-- A little-endian number of a slot's configuration section. -/
def State.cfgNum (s : State) (slot off n : Nat) : Nat := s.slotNum slot (0xF00000 + off) n

/-- Check 0x01 of R421: both format fields, and every length within its limit (R420). -/
def State.formatOk (s : State) (slot : Nat) : Bool :=
  s.slotNum slot 0 4 == 1 && s.cfgNum slot 0 4 == 1 && s.slotNum slot 8 4 ≤ 8 * 2 ^ 20 && s.cfgNum slot 4 4 ≤ 128 * 1024 &&
    s.cfgNum slot 20 2 ≤ 16 && s.cfgNum slot 22 2 ≤ 256 && s.cfgNum slot 24 4 ≤ 4000

/-- A key of the flash is that of one of the fuse slots (R421). -/
def State.keyFused (s : State) (at_ : Nat) (slots : Fuses → List (BitVec 512)) : Bool :=
  (s.sec.fuses.map slots).any fun l => l.contains (Config.sha512 (s.flash.read at_ 32))

/-- Checks 0x01 and 0x02 of R421: the code of the first that fails, 0 where both pass. -/
def State.imageCode (s : State) (slot : Nat) : Nat :=
  if !s.formatOk slot then 1
  else if !s.keyFused (slotBase slot + 16) (·.vendorKeys) then 2
  else 0

/-- The configuration section with its signature taken as zero (R420). -/
def State.cfgSigned (s : State) (slot : Nat) : List Byte :=
  let all := s.flash.read (cfgBase slot) (s.cfgNum slot 4 4)
  all.take 64 ++ (all.drop 64).mapIdx fun i b => if i < 64 then 0 else b

/-- The checks of step 4 (R421) in order: the code of the first that fails, 0 where all pass. -/
def State.headerCode (s : State) (slot : Nat) : Nat :=
  let key := s.flash.read (cfgBase slot + 32) 32
  if s.imageCode slot ≠ 0 then s.imageCode slot
  else if !s.keyFused (cfgBase slot + 32) (·.ownerKeys) then 5
  else if !Config.verify key (s.cfgSigned slot) (BitVec.ofNat 512 (s.cfgNum slot 64 64)) then 6
  else if s.cfgNum slot 8 8 ≠ s.fld SEC_IDENTITY.identity 0 0 then 7
  else 0

/-- The firmware section of a slot (R419). -/
def State.fwSection (s : State) (slot : Nat) : List Byte := s.flash.read (slotBase slot + 0x1000) (s.slotNum slot 8 4)

/-- Checks 0x03 and 0x04 of R421. -/
def State.firmwareCode (s : State) (slot : Nat) : Nat :=
  let key := s.flash.read (slotBase slot + 16) 32
  if (Config.sha512 (s.fwSection slot)).toNat ≠ s.slotNum slot 48 64 ||
      !Config.verify key (s.flash.read (slotBase slot) 112) (BitVec.ofNat 512 (s.slotNum slot 112 64)) then 3
  else if s.slotNum slot 4 4 < s.fld SEC_SVN.svn_min 0 0 then 4
  else 0

/-- The write list of a slot (R420): each entry's offset, whether its bytes 4 to 7 are zero, and its value. -/
def State.writeList (s : State) (slot : Nat) : List (Nat × Bool × Word) :=
  let first := 128 + 64 * s.cfgNum slot 20 2 + 8 * s.cfgNum slot 22 2
  (List.range (s.cfgNum slot 24 4)).map fun i =>
    let o := first + 16 * i
    (s.cfgNum slot o 4, s.cfgNum slot (o + 4) 4 == 0, BitVec.ofNat 64 (s.cfgNum slot (o + 8) 8))

/-- Step 4: both slots' headers and configuration sections are checked; the best candidate is the valid slot with the
higher sequence, and slot A where they are equal. -/
def State.headersChecked (s : State) : State :=
  if s.sec.step ≠ 3 then s
  else
    let s := ((s.atStep 4).setSlotCode 0 (s.headerCode 0)).setSlotCode 1 (s.headerCode 1)
    let s := s.setFld SEC_BOOT_STATUS.state 0 0 1
    let okA := s.slotCode 0 = 0
    let okB := s.slotCode 1 = 0
    let cand := if okA ∧ (¬ okB ∨ s.slotSeq 1 ≤ s.slotSeq 0) then 0 else 1
    if okA ∨ okB then { s with sec := { s.sec with cand := cand } } else s.bootFailed

/-- The candidate is invalid (R421): the other slot is tried, once, when it has passed step 4. -/
def State.candidateBad (s : State) (code : Nat) : State :=
  let c := s.sec.cand
  let s := s.setSlotCode c code
  if !s.sec.tried && s.slotCode (1 - c) == 0 then
    { s with sec := { s.sec with cand := 1 - c, tried := true } }
  else s.bootFailed

/-- What booting a slot loads (R422, R429): its measurement, svn and lists. -/
def State.loadSlot (s : State) : State :=
  let c := s.sec.cand
  let cfgAt := cfgBase c
  let n := s.cfgNum c 20 2
  let d := s.cfgNum c 22 2
  let fw := BitVec.ofNat 512 (s.slotNum c 48 64)
  let s : State := { s with sec := { s.sec with
    fwBoot := fw, fwRunning := fw
    cfg := Config.sha512 (s.flash.read cfgAt (s.cfgNum c 4 4))
    allow := (List.range n).map fun i => BitVec.ofNat 512 (ofLE (s.flash.read (cfgAt + 128 + 64 * i) 64))
    deny := (List.range d).map fun i => ofLE (s.flash.read (cfgAt + 128 + 64 * n + 8 * i) 8) } }
  (s.setFlag SEC_BOOT_STATUS.slot 0 0 (c == 1)).setFld SEC_SVN.svn 0 0 (s.slotNum c 4 4)

/-! ## HBM and firmware (R416, steps 7 to 9) -/

/-- Step 7. -/
def State.hbmTrained (s : State) : State :=
  if s.sec.step < 3 ∨ s.sec.hbmTrained then s else { s with sec := { s.sec with hbmTrained := true } }

/-- Step 8: all of HBM is zero and good (R133), and LOG's records are in the ring. -/
def State.hbmZeroed (s : State) : State :=
  if !s.sec.hbmTrained || s.log.ring then s
  else { s with
    fmem := [], hmem := []
    xlt := { s.xlt with wins := [], table := [], cache := [] }
    pmc := { s.pmc with buf := [] }
    pwr := { s.pwr with hbmBad := [] }
    log := { s.log with ring := true } }

/-- Step 10 waits until PWRFAIL_N has been high for 10 ms (R478): the wait begins, or is known, as PWRFAIL_N stands now. -/
def State.bootWait (s : State) : State :=
  let ends := s.pwr.pfAt + ms 10
  if s.pwr.pfLow then { s with sec := { s.sec with waitFrom := some s.now } }
  else { s with sec := { s.sec with waited := s.sec.waited + (ends - s.now) } }

/-- PWRFAIL_N changes while step 10 is awaited: a wait begins where the last one ends, or its end is known (R416, R478). -/
def State.bootWaitEdge (s : State) (low : Bool) : State :=
  if s.sec.step ≠ 9 then s
  else if low then { s with sec := { s.sec with waitFrom := some (max s.now (s.pwr.pfAt + ms 10)) } }
  else match s.sec.waitFrom with
    | some t => { s with sec := { s.sec with waitFrom := none, waited := s.sec.waited + (s.now + ms 10 - t) } }
    | none => s

/-- The boot watchdog (R416): a device reset once, then the failed state. The time in which step 10 waits for PWRFAIL_N does
not count. -/
def State.bootWatchdog (s : State) : State :=
  if !s.pwr.pwrgood || 10 ≤ s.sec.step || s.fld SEC_BOOT_STATUS.state 0 0 == 3 || s.sec.waitFrom.isSome then s
  else
    let s := s.advance (s.sec.bootAt + ms 1000 + s.sec.waited)
    if s.sec.dogUsed then s.bootFailed
    else ({ s with sec := { s.sec with dogUsed := true } }).deviceReset 3

/-! ## The flash (R438, R440) -/

/-- The flash byte address of SEC_FLASH_ADDR. -/
def State.flashAt (s : State) : Nat := s.fld SEC_FLASH_ADDR.addr 0 0 * 8

/-- An access advances the address by 8. -/
def State.flashNext (s : State) : State := s.bump SEC_FLASH_ADDR.addr 0 0

/-- A program or erase at an address is refused: the device area, and the slot booted. -/
def State.flashProtected (s : State) (a : Nat) : Bool :=
  a < 0x10000 || (6 ≤ s.sec.step && slotBase s.sec.cand ≤ a && a < slotBase s.sec.cand + 0x1000000)

/-- The flash is busy. -/
def State.flashBusy (s : State) : Bool := s.flag SEC_FLASH_CTL.busy 0 0

/-- A read of SEC_FLASH_DATA. -/
def State.flashRead (s : State) : Word × State :=
  if s.flashBusy then (0, s) else (BitVec.ofNat 64 (ofLE (s.flash.read s.flashAt 8)), s.flashNext)

/-- A flash operation runs, for at most so many ps. -/
def State.flashRun (s : State) (t : Nat) : State :=
  let s : State := { s with sec := { s.sec with flashUntil := s.now + t } }
  s.setFlag SEC_FLASH_CTL.busy 0 0 true

/-- Program 8 bytes that are not protected. -/
def State.flashProgram (s : State) (w : Word) : State :=
  (({ s with flash := s.flash.write s.flashAt (leBytes 8 w.toNat) }).flashNext).flashRun (us 20)

/-- Erase the sector holding the address: its bytes read 0xFF (log entry 43). -/
def State.flashErase (s : State) : State :=
  let lo := s.flashAt / 65536 * 65536
  let out := s.flash.filter fun e => e.1 < lo
  let hi := s.flash.filter fun e => lo + 65536 ≤ e.1
  ({ s with flash := out ++ ((List.range 65536).map fun i => (lo + i, (0xFF : Byte))) ++ hi }).flashRun (ms 400)

/-- The operation ends. -/
def State.flashDone (s : State) : State := s.setFlag SEC_FLASH_CTL.busy 0 0 false

/-! ## Live update (R431, R432) -/

/-- SEC_UPDATE_STATUS.state. -/
def State.updState (s : State) : Nat := s.fld SEC_UPDATE_STATUS.state 0 0

/-- A verify starts. -/
def State.verifyStart (s : State) (slot : Nat) : State :=
  let s : State := { s with sec := { s.sec with verSlot := slot, updAt := s.now } }
  (s.setFld SEC_UPDATE_STATUS.state 0 0 1).setFld SEC_UPDATE_STATUS.code 0 0 0

/-- Checks 0x01 to 0x04 of R421 on the slot under verification. -/
def State.updateCode (s : State) : Nat :=
  let k := s.sec.verSlot
  if s.imageCode k ≠ 0 then s.imageCode k else s.firmwareCode k

/-- A verify ends: verified, with the firmware section copied into the firmware workspace at a place the command names (log entry
138), or refused with its code. -/
def State.verifyDone (s : State) (place : Nat) : State :=
  let code := s.updateCode
  if s.updState ≠ 1 then s
  else if code ≠ 0 then (s.setFld SEC_UPDATE_STATUS.state 0 0 5).setFld SEC_UPDATE_STATUS.code 0 0 code
  else
    let k := s.sec.verSlot
    let s : State := { s with
      sec := { s.sec with verHash := BitVec.ofNat 512 (s.slotNum k 48 64), verSvn := s.slotNum k 4 4 }
      hdl := { s.hdl with work := s.hdl.work.write (place % (360 * 2 ^ 20)) (s.fwSection k) } }
    s.setFld SEC_UPDATE_STATUS.state 0 0 2

/-- An activation is accepted. -/
def State.activateOk (s : State) : Bool :=
  s.updState == 2 && s.fld RSV_STATUS.state 0 0 != 1 && !s.stopped

/-- An accepted activation starts. -/
def State.updateStart (s : State) : State :=
  ({ s with sec := { s.sec with updAt := s.now } }).setFld SEC_UPDATE_STATUS.state 0 0 3

/-- The new code reports ready. -/
def State.fwReady (s : State) : State :=
  if s.updState ≠ 3 then s
  else
    let old := s.fld SEC_SVN.svn 0 0
    let s : State := { s with sec := { s.sec with fwRunning := s.sec.verHash, updated := true } }
    let s := (s.setFld SEC_SVN.svn 0 0 s.sec.verSvn).setFld SEC_UPDATE_STATUS.state 0 0 4
    s.logMarker 2 (BitVec.ofNat 64 old) (BitVec.ofNat 64 s.sec.verSvn)

/-- The new code is not ready by 500 µs: the old code runs again. -/
def State.activationLimit (s : State) : State :=
  if s.updState ≠ 3 then s else (s.advance (s.sec.updAt + us 500)).setFld SEC_UPDATE_STATUS.state 0 0 6

/-- The fused svn_min rises to the running svn. -/
def State.commitSvn (s : State) : State :=
  let m := max (s.fld SEC_SVN.svn_min 0 0) (s.fld SEC_SVN.svn 0 0)
  ({ s with sec := { s.sec with svnFused := max s.sec.svnFused m } }).setFld SEC_SVN.svn_min 0 0 m

/-! ## Attestation (R429, R430) -/

/-- A quote starts: the nonce is sampled. -/
def State.quoteStart (s : State) (m : Nat) : State :=
  let n := (List.range 4).foldl (fun a k => a + (s.reg ⟨.SEC_QUOTE_NONCE, 0, k⟩).toNat * 2 ^ (64 * k)) 0
  let s : State := { s with sec := { s.sec with quoteNonce := BitVec.ofNat 256 n } }
  (s.setFlag SEC_QUOTE_CTL.busy 0 0 true).setFld SEC_QUOTE_CTL.requester 0 0 m

/-- The 352 bytes that a quote's signature covers. -/
def State.quoteBody (s : State) : List Byte :=
  let flags := b2n s.sec.updated + 2 * b2n s.stopped + 4 * b2n (s.flag RSV_STATUS.replayed 0 0)
  leBytes 4 1 ++ leBytes 4 flags ++ leBytes 8 (s.fld SEC_IDENTITY.identity 0 0) ++ leBytes 8 s.fabric ++
    leBytes 4 (s.fld SEC_SVN.svn 0 0) ++ leBytes 4 Config.romVersion ++ leBytes 8 s.logTail ++ leBytes 24 0 ++
    leBytes 32 s.sec.quoteNonce.toNat ++ leBytes 64 s.sec.fwBoot.toNat ++ leBytes 64 s.sec.fwRunning.toNat ++
    leBytes 64 s.sec.cfg.toNat ++ leBytes 64 s.log.chain.toNat

/-- The quote is signed and readable. -/
def State.quoteDone (s : State) : State :=
  if !s.flag SEC_QUOTE_CTL.busy 0 0 then s
  else
    let body := s.quoteBody
    let all := body ++ leBytes 64 (Config.sign s.seed body).toNat
    let s := (List.range 52).foldl (fun s k =>
      s.setReg ⟨.SEC_QUOTE_DATA, 0, k⟩ (BitVec.ofNat 64 (ofLE ((all.drop (8 * k)).take 8)))) s
    s.setFlag SEC_QUOTE_CTL.busy 0 0 false

end Sys2Proof.Machine
end

