-- ==== Sys2Proof/Machine/Pwr.lean ====
section
/-!
DEFINITION. PWR: rails, clocks, temperature, PWRFAIL_N, the event pins, I3C, JTAG, service life; and the change log's
mirror (R436, R460 to R463, R474 to R494).
-/
set_option Elab.async false
namespace Sys2Proof.Machine

/-! ## Rails, PLLs and reference clocks (R474, R482) -/

/-- A rail lies outside its tolerance. -/
def State.railFault (s : State) (rail : Nat) : State :=
  (s.setFld PWR_STATUS.rail_ok 0 0 (putBits (s.fld PWR_STATUS.rail_ok 0 0) rail rail 0)).fault 19 514 0

/-- A PLL loses lock. -/
def State.pllUnlock (s : State) (pll : Nat) : State :=
  if !bitOf (s.fld PWR_STATUS.pll_lock 0 0) pll then s
  else (s.setFld PWR_STATUS.pll_lock 0 0 (putBits (s.fld PWR_STATUS.pll_lock 0 0) pll pll 0)).fault 19 514 0

/-- A bit of a field of PWR_STATUS. -/
def State.setRef (s : State) (f : Field) (k : Nat) (b : Bool) : State := s.setFld f 0 0 (putBits (s.fld f 0 0) k k (b2n b))

/-- The lanes of the 36 ports of a fabric clock lose it. -/
def State.fabClockLost (s : State) (k : Nat) : State :=
  (List.range 72).foldl (fun s j => (s.emit (.laneSquelch (72 * k + j))).signalDown (72 * k + j)) s

/-- A reference clock is lost: 0 the core's, 1 to 4 the fabric's, 5 to 12 the host ports'. -/
def State.refLost (s : State) (clk : Nat) : State :=
  if clk = 0 then
    if !s.flag PWR_STATUS.core_ref_ok 0 0 then s
    else ((s.setFlag PWR_STATUS.core_ref_ok 0 0 false).setFld PWR_STATUS.pll_lock 0 0 0).fault 19 514 0
  else if clk ≤ 4 then
    if !bitOf (s.fld PWR_STATUS.fab_ref_ok 0 0) (clk - 1) then s
    else (s.setRef PWR_STATUS.fab_ref_ok (clk - 1) false).fabClockLost (clk - 1)
  else if clk ≤ 12 then
    if !bitOf (s.fld PWR_STATUS.host_ref_ok 0 0) (clk - 5) then s
    else (s.setRef PWR_STATUS.host_ref_ok (clk - 5) false).portReset (clk - 5)
  else s

/-- A reference clock returns. -/
def State.refBack (s : State) (clk : Nat) : State :=
  if clk = 0 then s.setFlag PWR_STATUS.core_ref_ok 0 0 true
  else if clk ≤ 4 then s.setRef PWR_STATUS.fab_ref_ok (clk - 1) true
  else if clk ≤ 12 then s.setRef PWR_STATUS.host_ref_ok (clk - 5) true
  else s

/-! ## Temperature (R480, R494) -/

/-- The trip threshold, at most 115 °C. -/
def State.tripAt (s : State) : Int := min (s16 (s.fld PWR_THERMAL_CFG.trip 0 0)) 0x398

/-- The values of a reading stand in PWR_TEMP. -/
def State.tempStore (s : State) (tj hottest mean : Nat) : State :=
  let s := (s.setFld PWR_TEMP.tj_max 0 0 tj).setFld PWR_TEMP.hottest 0 0 hottest
  let s := s.setFld PWR_TEMP.tj_mean 0 0 mean
  if s16 (s.fld PWR_TEMP.tj_peak 0 0) < s16 tj then s.setFld PWR_TEMP.tj_peak 0 0 tj else s

/-- thermal-warn: counted when tj_max reaches warn, and again only after a fall of 2 °C below it. -/
def State.thermalWarn (s : State) (tj : Int) : State :=
  let warn := s16 (s.fld PWR_THERMAL_CFG.warn 0 0)
  if warn ≤ tj then
    if s.pwr.warned then s
    else
      let s : State := { s with pwr := { s.pwr with warned := true } }
      (s.ibi 3).fault 19 512 0
  else if tj ≤ warn - 16 then { s with pwr := { s.pwr with warned := false } }
  else s

/-- thermal-trip: three readings in a row at or above trip. -/
def State.thermalTrip (s : State) (tj : Int) : State :=
  let hot := if s.tripAt ≤ tj then min 3 (s.pwr.hot + 1) else 0
  let trips := hot == 3 && s.pwr.hot != 3
  let s : State := { s with pwr := { s.pwr with hot := hot } }
  if trips then (s.ibi 5).fault 19 513 0 else s

/-- A reading of the sensors. -/
def State.thermal (s : State) (tj hottest mean : Nat) : State :=
  let t := tj % 2 ^ 16
  ((s.tempStore t hottest mean).thermalWarn (s16 t)).thermalTrip (s16 t)

/-- The largest `n` below 2^(`bits` + 1) above `n` with n^80 ≤ 2^e: the whole part of 2^(e / 80). -/
def root80 (e : Nat) : Nat → Nat → Nat
  | 0, n => if (n + 1) ^ 80 ≤ 2 ^ e then n + 1 else n
  | bits + 1, n =>
    let m := n + 2 ^ (bits + 1)
    root80 e bits (if m ^ 80 ≤ 2 ^ e then m else n)

/-- The seconds at 95 °C that one second at tj_max counts as, 2^((tj_max − 95 °C) / 10 °C): the whole part, and whether
it is exact. -/
def lifeSeconds (tj : Int) : Nat × Bool :=
  if tj < 760 then (0, false)
  else
    let e := (tj - 760).toNat
    (root80 e (e / 80) 0, decide (e % 80 = 0))

/-- PWR_LIFE takes the equivalent time of one second (R494); a fraction is rounded either way (a free value). -/
def State.life (s : State) : State :=
  if !s.pwr.pwrgood then s
  else
    let s := s.advance (s.sec.bootAt + ms 1000 * ((s.now - s.sec.bootAt) / ms 1000 + 1))
    let x := lifeSeconds (s16 (s.fld PWR_TEMP.tj_max 0 0))
    let f := s.fresh 1
    if x.2 then s.bump PWR_LIFE.seconds 0 0 x.1 else f.2.bump PWR_LIFE.seconds 0 0 (x.1 + f.1.toNat)

/-! ## PWRFAIL_N (R401, R477, R478) -/

/-- The pin changes its level. -/
def State.pwrfailPin (s : State) (low : Bool) : State :=
  if s.pwr.pfLow == low then s
  else
    let s := s.bootWaitEdge low
    let s : State := { s with pwr := { s.pwr with pfLow := low, pfAt := s.now } }
    s.setFlag PWR_STATUS.pwrfail 0 0 low

/-- The time zero of a seal for power failure is the falling edge (R401). -/
def State.sealFromEdge (s : State) : State :=
  match s.rsv.sealing with
  | some x => if x.cause = 1 then
      { s with rsv := { s.rsv with sealing := some { x with startAt := s.pwr.pfAt } } } else s
  | none => s

/-- The input is taken, 1.02 µs after it fell: the data path stops and a running journal is sealed. During boot only step
10 waits. -/
def State.pwrfailTake (s : State) : State :=
  if !s.pwr.pfLow || !s.pwr.pwrgood then s
  else
    let s := s.advance (s.pwr.pfAt + 1020000)
    let s := s.setFlag PWR_STATUS.pwrfail_seen 0 0 true
    if s.sec.step < 10 || s.rsv.halt then s
    else ((if s.rsvOn then s else s.squelchAll).sealStart 1).sealFromEdge

/-! ## Event pins (R461 to R463) -/

/-- The function of an event pin. -/
def State.pinFunc (s : State) (k : Nat) : Nat := bitsOf (s.reg ⟨.TOP_PIN_OWNER, 0, 0⟩).toNat (8 * k + 7) (8 * k)

/-- A falling edge at an event pin. -/
def State.pinEdge (s : State) (k : Nat) : State :=
  match s.pinFunc k with
  | 1 => s.freezeSoon
  | 4 => s.setFld TOP_PIN_CAPTURE.time 0 k s.fabric
  | _ => s

/-- Whether some counter has overflowed (PMC_STATUS.ovf). -/
def State.anyOvf (s : State) : Bool := (List.range 8).any fun k => s.fld PMC_OVF.ovf 0 k != 0

/-- Whether a pin owned by a level output is asserted. -/
def State.pinAsserted (s : State) (k : Nat) : Bool :=
  match s.pinFunc k with
  | 2 => s.anyOvf
  | 5 => s.stopped
  | 6 => s.fld RSV_STATUS.state 0 0 == 5
  | _ => false

/-- Drive the pins of the tick function. -/
def State.tickPins (s : State) (b : Bool) : State :=
  ((List.range 4).filter fun k => s.pinFunc k == 3).foldl (fun s k => s.emit (.pinOut k b)) s

/-- The next multiple of 1,000,000 ns of fabric time: the pins of the tick function assert for 1 µs. -/
def State.timeTick (s : State) : State :=
  let t := (s.fabric / 1000000 + 1) * 1000000
  let s := (s.advance (s.clockOf t)).tickPins true
  if (List.range 4).any fun k => s.pinFunc k == 3 then (s.advance (s.now + us 1)).tickPins false else s

/-! ## I3C (R484, R487) -/

/-- Pending in-band interrupts are sent, lowest first. -/
def State.ibiFlush (s : State) : State :=
  if s.pwr.ibiEn && s.pwr.dyn.isSome then
    let l := s.pwr.ibis
    let s : State := { s with pwr := { s.pwr with ibis := [] } }
    l.foldl (fun s n => s.emit (.ibi n)) s
  else s

/-- The device takes a dynamic address. -/
def State.takeAddr (s : State) (a : Nat) : State :=
  let s : State := { s with pwr := { s.pwr with dyn := some a } }
  s.ibiFlush

/-- SETDASA to the static address. -/
def State.setDasa (s : State) (a : Nat) : State :=
  if !s.pwr.pwrgood || s.pwr.dyn.isSome then s else (s.emit (.i3cAck (0x58 + s.sec.addrSel))).takeAddr a

/-- The provisional ID (R484). -/
def State.i3cPid (s : State) : Nat := 0x2C5 * 2 ^ 33 + 0x48 * 2 ^ 16 + s.fld SEC_IDENTITY.identity 0 0 % 2 ^ 16

/-- ENTDAA: the device gives its identifiers; the spec gives no DCR (a free value). -/
def State.entDaa (s : State) (a : Nat) : State :=
  if !s.pwr.pwrgood || s.pwr.dyn.isSome then s
  else
    let f := s.fresh 8
    (f.2.emit (.i3cId f.2.i3cPid 6 f.1.toNat)).takeAddr a

/-- RSTDAA: the device answers as an I2C target again. -/
def State.rstDaa (s : State) : State := { s with pwr := { s.pwr with dyn := none } }

/-- ENEC: in-band interrupts are enabled. -/
def State.enec (s : State) : State :=
  if s.pwr.dyn.isNone then s
  else
    let s : State := { s with pwr := { s.pwr with ibiEn := true } }
    s.ibiFlush

/-! ## JTAG (R488) -/

/-- Boundary scan may disturb the outputs: before step 6 has completed, after a failed boot, and during a device stop. -/
def State.scanAllowed (s : State) : Bool := decide (s.sec.step < 6) || s.fld SEC_BOOT_STATUS.state 0 0 == 3 || s.stopped

/-- The code of an instruction. -/
def JtagOp.code : JtagOp → Nat
  | .extest => 0x00 | .idcode => 0x01 | .sample => 0x02 | .clamp => 0x04 | .highz => 0x05
  | .extestPulse => 0x0A | .extestTrain => 0x0B | .regacc => 0x20 | .bypass => 0xFF

/-- Whether an instruction takes effect in the two cases of R488 only. -/
def JtagOp.guarded : JtagOp → Bool
  | .extest => true | .clamp => true | .highz => true | .extestPulse => true | .extestTrain => true
  | .idcode => false | .sample => false | .regacc => false | .bypass => false

/-- An instruction is loaded; a guarded one loads as BYPASS outside the two cases. -/
def State.jtagLoad (s : State) (op : JtagOp) : State :=
  let op := if op.guarded && !s.scanAllowed then JtagOp.bypass else op
  let s : State := { s with pwr := { s.pwr with jtag := { s.pwr.jtag with ir := op.code } } }
  s.emit (.jtag op (if op == .idcode then 0x100489CB else 0))

/-! ## The change log's mirror (R436) -/

/-- A port carries writes to its host. -/
def State.portCarries (s : State) (p : Nat) : Bool :=
  s.endpoint p && s.fld HIF_PORT_STATUS.sublink_up p 0 != 0 && !(s.fn p 0).flr

/-- One record goes to the mirror. -/
def State.mirrorRec (s : State) (i : Nat) : State :=
  match SMap.find? s.log.recs i with
  | some r => s.hostWrite (s.fld LOG_CTL.mirror_port 0 0) 0
      (s.fld LOG_MIRROR_BASE.base 0 0 * 4096 + 32 * (i % 2 ^ s.mirrorLog2)) r.bytes
  | none => s

/-- The pending records are mirrored, then the tail. -/
def State.logMirror (s : State) : State :=
  let tail := s.logTail
  if s.inSetup 16 || !s.flag LOG_CTL.mirror_en 0 0 || s.log.tailTold == tail then s
  else if !s.portCarries (s.fld LOG_CTL.mirror_port 0 0) then
    (s.setFlag LOG_STATUS.mirror_error 0 0 true).fault 16 2 0
  else
    let s := ((List.range (tail - s.log.mirrored)).map (s.log.mirrored + ·)).foldl State.mirrorRec s
    let s := s.hostWrite (s.fld LOG_CTL.mirror_port 0 0) 0 (s.fld LOG_MIRROR_TAIL_ADDR.addr 0 0 * 8) (leBytes 8 tail)
    { s with log := { s.log with mirrored := tail, tailTold := tail } }

end Sys2Proof.Machine
end

