-- ==== Sys2Proof/Machine/View.lean ====
section
/-!
DEFINITION. What a register reads as (R14): its stored fields, and the fields that follow from other state.
-/
set_option Elab.async false
namespace Sys2Proof.Machine

/-- Set fields of a register value. -/
def withFields (w : Word) (fs : List (Field × Nat)) : Word :=
  BitVec.ofNat 64 (fs.foldl (fun n e => putBits n e.1.hi e.1.lo e.2) w.toNat)

/-- The word of a virtual function's table or PBA that HIF_VF_TBL_ADDR selects (R50): the function and the word. -/
def State.vfTblSel (s : State) (p : Nat) : Option (Nat × Nat) :=
  let v := s.fld HIF_VF_TBL_ADDR.vf p 0
  let w := s.fld HIF_VF_TBL_ADDR.word p 0
  if 1 ≤ v ∧ v ≤ 256 ∧ w ≤ 128 then some (v, w) else none

/-- A word of a virtual function's MSI-X table, or its PBA as word 128. -/
def State.vfWord (s : State) (p v w : Nat) : Word := if w = 128 then (s.fn p v).pba else s.msixWord p v w

/-- HIF_INTX_CAUSE (R55). -/
def State.intxCause (s : State) (p : Nat) : Nat :=
  (List.range 32).foldl (fun a k => if s.reg ⟨.HIF_MSIX_PBA, p, k⟩ = 0 then a else a + 2 ^ k) 0

/-- XLT_WIN_STATUS of the selected entry (R123). -/
def State.winStatus (s : State) : Word :=
  let v := s.win (s.fld XLT_WIN_SEL.index 0 0)
  withFields 0 [(XLT_WIN_STATUS.generation, v.gen), (XLT_WIN_STATUS.pending, b2n v.queued.isSome),
    (XLT_WIN_STATUS.active, b2n v.active), (XLT_WIN_STATUS.pins_inactive, min (v.pins !v.active) (2 ^ 23 - 1)),
    (XLT_WIN_STATUS.pins_active, min (v.pins v.active) (2 ^ 23 - 1))]

/-- The selected line group (R230): dimension and number; none for dimension 0b11. -/
def State.groupSel (s : State) : Option (Nat × Nat) :=
  let d := s.fld CSC_GROUP_SEL.dim 0 0
  if d < 3 then some (d, s.fld CSC_GROUP_SEL.group 0 0) else none

/-- CSC_GROUP_CFG of the selected group. -/
def State.groupCfg (s : State) : Word :=
  match s.groupSel with
  | none => 0
  | some (d, g) =>
    let v := s.group d g
    withFields 0 [(CSC_GROUP_CFG.busy, b2n (s.groupBusy d g)), (CSC_GROUP_CFG.valid, b2n v.valid),
      (CSC_GROUP_CFG.owner, v.owner)]

/-- A COLL or a segment waits for staging (CSC_STATUS.staging_full, R223). -/
def State.stagingFull (s : State) : Bool :=
  (!s.inSetup 7 && (s.csc.wait.head?.bind s.handle?).any fun h => !s.collStaging (s.newInst h)) ||
    s.csc.insts.any fun i => (s.segSteps i).any fun x => s.segStaging i x.1 x.2.1 x.2.2

/-- The entry of the route banks that RTE_BANK_SEL selects (R244). -/
def State.bankSel (s : State) : Option (Nat × Nat × Nat) :=
  let t := s.fld RTE_BANK_SEL.table 0 0
  let i := s.fld RTE_BANK_SEL.index 0 0
  if (t = 0 ∧ i < 144) ∨ (t = 1 ∧ i < 64) then some (s.fld RTE_BANK_SEL.bank 0 0, t, i) else none

/-- The counter that RMA_CTR_SEL selects. -/
def State.ctrSel (s : State) : Nat := s.fld RMA_CTR_SEL.counter 0 0

/-- A 64-bit mask of the elements of `n` from 64k that a test picks. -/
def maskOf (k n : Nat) (f : Nat → Bool) : Word :=
  BitVec.ofNat 64 ((List.range 64).foldl (fun a j => if 64 * k + j < n && f (64 * k + j) then a + 2 ^ j else a) 0)

/-- Fabric time of the last cycle in which a packet of an epoch was present (R246): now, while one is. -/
def State.lastBusy (s : State) (e : Nat) : Nat :=
  if s.drainCount e ≠ 0 then s.fabric else if e = 0 then s.rte.busy0 else s.rte.busy1

/-- SEM_STATE of a semaphore (R346). -/
def State.semState (s : State) (n : Nat) : Word :=
  let v := s.semOf n
  withFields 0 [(SEM_STATE.held, b2n v.holder.isSome), (SEM_STATE.orphan, b2n v.orphan),
    (SEM_STATE.reserved, b2n v.reserved.isSome), (SEM_STATE.effective, if v.holder.isSome then v.eff else 0),
    (SEM_STATE.waiters, v.waiters.length), (SEM_STATE.master, (v.holder.or v.reserved).getD 0)]

/-- Sources of a block whose severe bit is set (R358). -/
def State.severeCount (s : State) (blk : Nat) : Nat :=
  ((List.range 2048).filter fun n => (sourceSpec blk n).isSome && s.flag FLT_COUNT.severe blk n).length

/-- FLT_ESC_TIMER's running and remaining_us (R362). -/
def State.escLeft (s : State) (blk : Nat) : List (Field × Nat) :=
  match SMap.find? s.flt.esc blk with
  | some t => [(FLT_ESC_TIMER.running, 1), (FLT_ESC_TIMER.remaining_us, (t - s.now + us 1 - 1) / us 1)]
  | none => []

/-- A word of the change-log record that LOG_READ_SEL names (R439). -/
def State.logRead (s : State) (k : Nat) : Word :=
  let i := s.fld LOG_READ_SEL.index 0 0
  if s.logTail ≤ i ∨ i + 524288 < s.logTail then 0
  else match SMap.find? s.log.recs i with
    | some r => BitVec.ofNat 64 (ofLE ((r.bytes.drop (8 * k)).take 8))
    | none => 0

/-- A word of a user page (R448). -/
def State.userPage (s : State) (p n : Nat) : Nat :=
  if bitOf (s.fld PMC_USER_EN.pages 0 0) p && bitOf (s.fld PMC_USER_MASK.groups 0 p) (n / 16) then s.count n else 0

/-- The trigger that HDL_TRIG_SEL selects. -/
def State.trigSel (s : State) : Nat := s.fld HDL_TRIG_SEL.trigger 0 0

/-- The offset of HDL_MEM_ADDR. -/
def State.hmemAt (s : State) : Nat := s.fld HDL_MEM_ADDR.offset 0 0 * 8

/-- The fields of a register that follow from other state. -/
def State.derived (s : State) (r : RegRef) : List (Field × Nat) :=
  match r.reg with
  | .TOP_NODE_COORD => [(TOP_NODE_COORD.node_id, s.node)]
  | .HIF_INTX_CAUSE => [(HIF_INTX_CAUSE.summary, s.intxCause r.i)]
  | .HIF_VF_TBL_DATA => match s.vfTblSel r.i with
    | some (v, w) => [(HIF_VF_TBL_DATA.data, (s.vfWord r.i v w).toNat)]
    | none => []
  | .CMD_OUTSTANDING => [(CMD_OUTSTANDING.count, s.handles.length)]
  | .CMD_RING_HELD => [(CMD_RING_HELD.device_bound, b2n (s.handles.length == 2 ^ 24))]
  | .CTX_STATUS => [(CTX_STATUS.state, (s.ctx (s.fld CTX_SEL.context 0 0)).phase.code)]
  | .CTX_CACHE => [(CTX_CACHE.pinned, s.pinnedCtxs), (CTX_CACHE.cached, s.cachedCtxs.length)]
  | .XLT_WIN_STATUS => [(⟨.XLT_WIN_STATUS, 63, 0, .ro, 0⟩, s.winStatus.toNat)]
  | .XLT_ENTRY_DATA => [(XLT_ENTRY_DATA.entry, (s.xltEntry (s.fld XLT_ENTRY_SEL.index 0 0)).toNat)]
  | .XLT_SYNC => [(XLT_SYNC.busy, b2n s.xlt.syncBusy)]
  | .MAT_STATUS => [(MAT_STATUS.ovf_active, b2n !s.flaggedBins.isEmpty),
      (MAT_STATUS.held, b2n (s.ctxs.any fun e => e.2.recvHeld)), (MAT_STATUS.used, s.matHw.length)]
  | .MAT_SUMP_STATUS => [(MAT_SUMP_STATUS.free, 2 ^ 24 - s.sumpUsed),
      (MAT_SUMP_STATUS.held, (s.mat.store.filter fun e => e.2.kind != 0).length)]
  | .MAT_OVF_STATUS => [(MAT_OVF_STATUS.bins, s.flaggedBins.length), (MAT_OVF_STATUS.entries, s.matOvf.length)]
  | .RMA_STATUS => [(RMA_STATUS.ops_used, s.rma.ops.length), (RMA_STATUS.peers_used, s.rma.peers.length)]
  | .RMA_CTR_CFG => [(⟨.RMA_CTR_CFG, 31, 0, .ro, 0⟩, (s.ctr s.ctrSel).cfgBits)]
  | .RMA_CTR_VALUE => [(RMA_CTR_VALUE.value, (s.ctr s.ctrSel).value.toNat)]
  | .RMA_CTR_FAIL => [(RMA_CTR_FAIL.fail, (s.ctr s.ctrSel).fail)]
  | .RMA_CTR_MIRROR => [(RMA_CTR_MIRROR.addr, (s.ctr s.ctrSel).addr / 8)]
  | .RMA_CTR_WORD => [(RMA_CTR_WORD.value, (s.ctr r.k).value.toNat)]
  | .RMA_TRIG_STATUS => [(RMA_TRIG_STATUS.pending, s.rma.trigs.length)]
  | .CSC_STATUS => [(CSC_STATUS.staging_full, b2n s.stagingFull), (CSC_STATUS.active, s.csc.insts.length),
      (CSC_STATUS.staging_kib, (s.stagingUsed + 1023) / 1024)]
  | .CSC_GROUP_CFG => [(⟨.CSC_GROUP_CFG, 63, 0, .ro, 0⟩, s.groupCfg.toNat)]
  | .CSC_GROUP_MASK => [(CSC_GROUP_MASK.members, (s.groupSel.map fun x => (s.group x.1 x.2).mask).getD 0)]
  | .CSC_GROUP_SEQ => [(CSC_GROUP_SEQ.next, (s.groupSel.map fun x => (s.group x.1 x.2).seq).getD 0)]
  | .RTE_DRAIN => [(RTE_DRAIN.count, s.drainCount r.k)]
  | .RTE_DRAIN_TIME => [(RTE_DRAIN_TIME.last_busy, s.lastBusy r.k)]
  | .RTE_BANK_DATA => match s.bankSel with
    | some (b, t, i) => [(RTE_BANK_DATA.entry, (s.bankEntry b t i).toNat)]
    | none => []
  | .RTE_LINE_STATE => [(RTE_LINE_STATE.row, s.rowOf (r.k / 48) (r.k % 48))]
  | .LAN_STATUS => if s.malsol (r.i / 2) then [(LAN_STATUS.am_lock, s.fld LAN_M2_STATUS.aligned r.i 0)] else []
  | .LAN_INJECT => [(LAN_INJECT.count, s.injectLeft r.i)]
  | .LAN_RETIRED => [(LAN_RETIRED.lanes, (maskOf r.k 288 fun l => s.laneSt l == lsRetired).toNat)]
  | .LNK_REPLAY_STATUS =>
    [(LNK_REPLAY_STATUS.outstanding, (s.lport r.i).unacked.length),
      (LNK_REPLAY_STATUS.spilled, (s.lport r.i).spillway.length)]
  | .LNK_LIVE => [(LNK_LIVE.ports, (maskOf r.k 144 fun p => s.portSt p == psLive).toNat)]
  | .HDL_IPI_SET => [(HDL_IPI_SET.msip, s.fld HDL_IPI_PEND.msip 0 0)]
  | .HDL_TRIG_CFG => [(⟨.HDL_TRIG_CFG, 63, 0, .ro, 0⟩, (s.trig s.trigSel).cfgBits)]
  | .HDL_TRIG_CORES => [(HDL_TRIG_CORES.mask, (s.trig s.trigSel).cores.toNat)]
  | .HDL_TRIG_PC => [(HDL_TRIG_PC.entry, (s.trig s.trigSel).pc / 2)]
  | .HDL_TRIG_ARG => [(HDL_TRIG_ARG.arg, (s.trig s.trigSel).arg)]
  | .HDL_QUEUE => [(HDL_QUEUE.queued, s.hdl.queue.length)]
  | .HDL_MEM_DATA => [(HDL_MEM_DATA.data, if s.hmemAt < s.hmemSize then ofLE (s.hmem.read s.hmemAt 8) else 0)]
  | .SEM_STATE => [(⟨.SEM_STATE, 63, 0, .ro, 0⟩, (s.semState r.k).toNat)]
  | .FLT_STATUS => [(FLT_STATUS.esc_running, b2n (SMap.find? s.flt.esc r.i).isSome),
      (FLT_STATUS.severe_count, s.severeCount r.i)]
  | .FLT_ESC_TIMER => s.escLeft r.i
  | .RSV_STATUS => [(RSV_STATUS.quarantine, b2n s.rsv.quarantineEnd.isSome), (RSV_STATUS.stalled, b2n s.rsvHold),
      (RSV_STATUS.awaiting, s.awaitingPorts)]
  | .RSV_USAGE => [(RSV_USAGE.used_mib, s.ringUsed / 2 ^ 20), (RSV_USAGE.lag_kib, (s.lag + 1023) / 1024)]
  | .SEC_FLASH_DATA =>
    [(SEC_FLASH_DATA.data, if s.flashBusy then 0 else ofLE (s.flash.read s.flashAt 8))]
  | .LOG_STATUS => [(LOG_STATUS.stalled, b2n (s.logFull && s.waits.any fun a => a.write.isSome))]
  | .LOG_READ_DATA => [(LOG_READ_DATA.data, (s.logRead r.k).toNat)]
  | .LOG_CHAIN => [(LOG_CHAIN.digest, s.log.chain.toNat / 2 ^ (64 * r.k))]
  | .PMC_STATUS => [(PMC_STATUS.ovf, b2n s.anyOvf), (PMC_STATUS.pending, b2n s.pmc.freezeAt.isSome)]
  | .PMC_SAMPLE_DATA => [(PMC_SAMPLE_DATA.data, (s.sampleData r.k).toNat)]
  | .PMC_USER_PAGE => [(PMC_USER_PAGE.data, s.userPage r.i r.k)]
  | _ => []

/-- What a register shows (R14): its stored value with the fields that follow from other state. -/
def State.regView (s : State) (r : RegRef) : Word := withFields (s.reg r) (s.derived r)

end Sys2Proof.Machine
end

