-- ==== Sys2Proof/Machine/Units.lean ====
section
/-!
DEFINITION. What remains of the blocks: sync, RTE's timers, LNK's setup state and timers, the scratchpad's tests and
retention, cores and semaphores at their deadlines, and leaving setup (R35, R128, R250 to R261, R298 to R320, R323,
R330 to R348).
-/
set_option Elab.async false
namespace Sys2Proof.Machine

/-- The model's clock at the next multiple of `n` ps. -/
def State.nextTick (s : State) (n : Nat) : Nat := (s.now / n + 1) * n

/-! ## XLT's sync (R128) -/

/-- A sync starts: the reads outstanding now are those it waits for. -/
def State.syncStart (s : State) : State :=
  let reads := s.hif.reads.map fun e => (e.1, { e.2 with sync := true })
  { s with hif := { s.hif with reads := reads }, xlt := { s.xlt with syncBusy := true } }

/-- A sync ends, once none of those reads is outstanding. -/
def State.syncDone (s : State) : State :=
  if s.hif.reads.any fun e => e.2.sync then s else { s with xlt := { s.xlt with syncBusy := false } }

/-! ## RTE's timers (R250, R251, R253, R256, R261, R307) -/

/-- RTE_CTL.hold_us in ps. -/
def State.holdPs (s : State) : Nat := us (max 1 (s.fld RTE_CTL.hold_us 0 0))

/-- A packet on VC1 to VC6 has waited escape_wait cycles and finds no candidate with credit still: it moves to VC7 if the
route of R242 has credit there. -/
def State.escapeWait (s : State) (id : Nat) : State :=
  match s.rtePkt id with
  | none => s
  | some x =>
    match x.place with
    | .waiting t =>
      if pVc x.pkt < 1 ∨ 6 < pVc x.pkt ∨ x.mcast.isSome then s
      else
        let s := s.advance (t + 500 * s.fld RTE_CTL.escape_wait 0 0)
        match s.hopOf x, s.escape7 x.pkt (s.routeNode (pEpoch x.pkt) (pDstNode x.pkt)).1 with
        | .wait, some h => if (s.lport h.port).hasCredit h.pool then s.takeHop x h else s
        | _, _ => s.routePkt x
    | _ => s

/-- A packet has been held for hold_us: it is discarded and counted. -/
def State.holdEnd (s : State) (id : Nat) : State :=
  match (s.rtePkt id).map fun x => x.place with
  | some (PktPlace.held t) => ((s.advance (t + s.holdPs)).discardPkt id).fault 8 6 0
  | _ => s

/-- A held packet is routed again. -/
def State.heldRoute (s : State) (id : Nat) : State :=
  match s.rtePkt id with
  | some x => match x.place with
    | .held _ => s.routePkt x
    | _ => s
  | none => s

/-- A port has stayed down for hold_us: its retained packets go back to route computation. -/
def State.retentionEnd (s : State) (p : Nat) : State :=
  if s.portSt p = psLive || !(s.rte.pkts.any fun x => x.place.keptBy p) then s
  else (s.advance ((s.lport p).downAt + s.holdPs)).releaseRetained p

/-- A line-state notice replaces the stored row of its sender. -/
def State.noticeIn (s : State) (p : Packet) : State :=
  let d := kget p 1 0
  let e := nodeCoord (pSrcNode p) d
  if 3 ≤ d ∨ e = s.coord d then s else s.setFld RTE_LINE_STATE.row 0 (48 * d + e) (kget p 49 2)

/-- Every 1 ms the node sends its rows. -/
def State.rowTimer (s : State) : State := (((s.advance (s.nextTick (ms 1))).sendRow 0).sendRow 1).sendRow 2

/-- The node's congestion hint for a dimension. -/
def State.ownHint (s : State) (d : Nat) : Nat :=
  let ps := ((List.range 47).map fun j => 47 * d + j).filter s.portUsable
  let q := (ps.map fun p => ((List.range 8).map fun k => s.poolQueue p (k + 1)).sum).sum
  if ps.isEmpty then 0 else min 15 (q / (16 * ps.length))

/-- The hints are computed again, every 64 ns. -/
def State.hintRefresh (s : State) : State :=
  let s := s.advance (s.nextTick 64000)
  { s with rte := { s.rte with hints := [s.ownHint 0, s.ownHint 1, s.ownHint 2] } }

/-- The time at which the bucket holds tokens for `n` flits. -/
def State.tokensAt (s : State) (n : Nat) : Nat :=
  let rate := max 1 (s.fld RTE_URGENT_CFG.rate 0 0)
  let need := s.rte.debt + n * 1000000 - burstOf (s.fld RTE_URGENT_CFG.burst 0 0) * 1000000
  s.rte.debtAt + (need + rate - 1) / rate

/-- The first urgent packet that waits for tokens is injected. -/
def State.tokenGrant (s : State) : State :=
  match s.rte.pkts.find? fun x => x.place == .tokens with
  | some x =>
    let s := (s.advance (s.tokensAt x.total)).takeTokens x.total
    s.routePkt { x with pkt := s.stampEpoch x.pkt, place := .waiting s.now }
  | none => s

/-! ## LNK: setup and bring-up (R309, R312, R314, R320) -/

/-- setup_exit of a port instance: it is locked, and bring-up starts once both lanes have left setup. -/
def State.lnkExit (s : State) (p : Nat) : State :=
  if s.portSt p ≠ psSetup then s
  else ((s.setLport p { LPort.init with downAt := s.now, stepAt := s.now }).portTo2 p psReset).maybeBringUp p

/-- Lanes that carried or trained for a port in setup go back to idle (R320). -/
def State.lanesIdle (s : State) (p : Nat) : State :=
  [2 * p, 2 * p + 1].foldl (fun s l =>
    if [lsTrain, lsAlign, lsReady, lsTest].contains (s.laneSt l) then s.laneTo l lsIdle else s) s

/-- enter_setup: the link goes down with cause 0x0E and the instance is in setup. -/
def State.lnkSetup (s : State) (p : Nat) : State :=
  if s.portSt p = psSetup ∨ s.portSt p = psRetired then s
  else
    let s := ((s.linkDown p 0x0E).releaseRetained p).lanesIdle p
    (s.setLport p LPort.init).portTo2 p psSetup

/-- A step of bring-up exceeds its bound: 10 µs for HELLO, 300 µs for admission, whose end both verdicts mark. -/
def State.stepLimit (s : State) (p : Nat) : State :=
  let t := (s.lport p).stepAt
  if s.portSt p = psHello then (s.advance (t + us 10)).admitFail p 0x09
  else if s.portSt p = psAdmit && !(s.lport p).admitted then (s.advance (t + us 300)).admitFail p 0x0A
  else s

/-- 100 ms after a failed check or admission bring-up starts again. -/
def State.bringRetry (s : State) (p : Nat) : State :=
  match (s.lport p).retryAt with
  | some t => if s.portSt p = psReset then (s.advance t).bringUp p else s
  | none => s

/-! ## LNK's timers (R298, R299, R304, R308, R310, R315) -/

/-- The receiver still discards 2d + 500 ns later: nak_count goes up again. -/
def State.nakAgain (s : State) (p : Nat) : State :=
  let v := s.lport p
  if !v.discarding then s else (s.advance (v.discSince + 2 * s.oneWay p + 500000)).enterDiscard p

/-- The oldest unacknowledged block has waited 2d + 1 µs: a replay. -/
def State.replayLimit (s : State) (p : Nat) : State :=
  match (s.lport p).unacked.head? with
  | some b =>
    let s := s.advance (b.at_ + 2 * s.oneWay p + us 1)
    (s.lnkEvent p 1 p).startReplay p
  | none => s

/-- A flit has waited credit_timeout_us on a drain pool: the link goes down with cause credit. -/
def State.creditLimit (s : State) (p k : Nat) : State :=
  match ((s.lport p).pool k).waitFrom with
  | some t =>
    let s := s.advance (t + us (max 10 (s.fld LNK_PORT_CFG.credit_timeout_us p 0)))
    (s.lnkEvent p 2 p).linkReset p 0x03 (s.lport p).survivor
  | none => s

/-- A tick of the Canary: the own heartbeat goes up and the peer's is judged; 16 misses take the link down. -/
def State.canary (s : State) (p : Nat) : State :=
  if !(s.lport p).framed then s
  else
    let s := s.advance ((s.lport p).beatAt + us 1)
    let v := s.lport p
    let missed := if v.peerBeat.isSome && v.peerBeat != v.tickBeat then 0 else v.missed + 1
    let s := s.setLport p { v with
      beat := (v.beat + 1) % 2 ^ 16, tickBeat := v.peerBeat, missed := missed, beatAt := v.beatAt + us 1 }
    if 16 ≤ missed then (s.lnkEvent p 3 p).linkReset p 0x02 v.survivor else s

/-- A live port sends TIME, every 64 µs, or every 1 µs on the port that TIM follows. -/
def State.timeTimer (s : State) (p : Nat) : State :=
  if s.portSt p ≠ psLive then s
  else
    let period := if s.lnk.upstream = some p then us 1 else us 64
    let last := ((250 * (s.lport p).lastSend : Nat) - s.timAdj).toNat
    let s := if (s.lport p).lastSend = 0 then s else s.advance (last + period)
    if (s.lport p).ctl.any fun f => flitBytes f 0 1 == 4 then s else s.pushCtl p (s.timeFlit p)

/-- 10 µs have passed without RESET_ACK. -/
def State.ackLimit (s : State) (p : Nat) : State :=
  match (s.lport p).reqUntil with
  | some t => (s.advance t).proceedReset p
  | none => s

/-! ## The scratchpad: march tests and retention (R344, R345) -/

/-- SPD_MARCH_CTL.start: the masked banks are under test, woken first; a retired bank stays so. -/
def State.marchStart (s : State) : State :=
  if s.flag SPD_MARCH_STATUS.running 0 0 then s
  else
    let mask := s.reg ⟨.SPD_MARCH_MASK, 0, 0⟩
    let s : State := { s with spd := { s.spd with march := some (mask, s.fld SPD_MARCH_CTL.mode 0 0) } }
    let s := (s.setFlag SPD_MARCH_STATUS.running 0 0 true).setFld SPD_MARCH_FAIL.banks 0 0 0
    (List.range 64).foldl (fun s b =>
      if !bitOf mask.toNat b || s.fld SPD_BANK_CTL.state 0 b = 4 then s
      else (s.setFlag SPD_BANK_CTL.retain 0 b false).setFld SPD_BANK_CTL.state 0 b 3) s

/-- The contents of a bank are gone: every byte zero, every word good. -/
def State.bankZero (s : State) (b : Nat) : State :=
  let keep (a : Nat) : Bool := a / 2 ^ 20 != b
  { s with
    spdMem := s.spdMem.filter fun x => keep x.1
    spd := { s.spd with bad := s.spd.bad.filter fun w => keep (8 * w) } }

/-- A bank's test ends: mode 0 leaves zeros, a failing bank is set in SPD_MARCH_FAIL and counted. -/
def State.bankTested (s : State) (mode b : Nat) (fails : Bool) : State :=
  let s := if mode = 0 then s.bankZero b else s
  let s := if s.fld SPD_BANK_CTL.state 0 b = 3 then s.setFld SPD_BANK_CTL.state 0 b 0 else s
  if fails then (s.setFlag ⟨.SPD_MARCH_FAIL, b, b, .ro, 0⟩ 0 0 true).fault 12 (4 * b + 2) b else s

/-- A march test ends. -/
def State.marchDone (s : State) (fails : Word) (repairs : List (Nat × Nat)) : State :=
  match s.spd.march with
  | none => s
  | some (mask, mode) =>
    let s : State := { s with spd := { s.spd with march := none } }
    let s := (s.setFlag SPD_MARCH_STATUS.running 0 0 false).setFlag SPD_MARCH_STATUS.done 0 0 true
    let s := if s.flag SPD_MARCH_CTL.repair 0 0 then
        (repairs.filter fun x => bitOf mask.toNat x.1 && x.1 < 64).foldl (fun s x => s.bankRepaired x.1 x.2) s else s
    ((List.range 64).filter fun b => bitOf mask.toNat b && s.fld SPD_BANK_CTL.state 0 b != 4).foldl
      (fun s b => s.bankTested mode b (bitOf fails.toNat b)) s

/-- A bank whose retention is asked for enters it. -/
def State.bankRetained (s : State) (b : Nat) : State :=
  if s.flag SPD_BANK_CTL.retain 0 b && s.fld SPD_BANK_CTL.state 0 b = 0 then s.setFld SPD_BANK_CTL.state 0 b 1 else s

/-- retain is 0: a bank in retention starts to wake. -/
def State.bankWoken (s : State) (b : Nat) : State :=
  if !s.flag SPD_BANK_CTL.retain 0 b && s.fld SPD_BANK_CTL.state 0 b = 1 then s.setFld SPD_BANK_CTL.state 0 b 2 else s

/-- A waking bank is active. -/
def State.bankActive (s : State) (b : Nat) : State :=
  if s.fld SPD_BANK_CTL.state 0 b = 2 then s.setFld SPD_BANK_CTL.state 0 b 0 else s

/-! ## Semaphores and cores at their deadlines (R323, R330, R331, R333, R337, R348) -/

/-- The reserved waiter has not read within grant_window_us. -/
def State.grantEnd (s : State) (n : Nat) : State :=
  let v := s.semOf n
  if v.reserved.isNone then s
  else (s.advance (v.reservedAt + us (max 1 (s.fld SEM_CTL.grant_window_us 0 0)))).semGrant n

/-- A handler runs ecall with a7 = 0. -/
def State.ecall (s : State) (c : Nat) : State :=
  if (s.core c).inv.isSome && (s.core c).umode && s.coreSt c = 2 then s.endInv c else s

/-- An invocation has exceeded budget_us. -/
def State.budgetEnd (s : State) (c : Nat) : State :=
  match (s.core c).inv with
  | some (_, _, t) => (s.advance (t + us (max 1 (s.fld HDL_CFG.budget_us 0 0)))).stopInv c 0x15 0x90 0
  | none => s

/-- An exception in user mode or in refill mode stops the invocation (R331). -/
def State.handlerTrap (s : State) (c : Nat) (mtval : Word) : State :=
  if (s.core c).umode || (s.core c).refill then s.stopInv c 0x15 0x93 mtval else s

/-- hxcmd op 3: the refill handler refuses the fill. -/
def State.fillRefused (s : State) (c detail : Nat) : State := s.stopInv c 0x13 (0x80 + detail % 0x80) (s.core c).hxbad

/-- hxcmd op 4: the unlocked entries of hxctx that contain an address go (R332, R333). -/
def State.tlbDropPage (s : State) (c : Nat) (va : Word) : State :=
  let v := { s.core c with hxentry := va }
  s.setCore c (v.tlbDrop fun e => !e.locked && e.hits v.hxctx va)

/-- hxcmd op 5. -/
def State.tlbDropCtx (s : State) (c : Nat) : State :=
  let v := s.core c
  s.setCore c (v.tlbDrop fun e => !e.locked && e.ctx == v.hxctx)

/-- hxcmd op 6. -/
def State.tlbDropAll (s : State) (c : Nat) : State := s.setCore c ((s.core c).tlbDrop fun e => !e.locked)

/-- hxcmd op 7. -/
def State.tlbUnlock (s : State) (c : Nat) : State :=
  let f (l : List TlbEntry) : List TlbEntry := l.map fun e => { e with locked := false }
  let v := s.core c
  s.setCore c { v with itlb := f v.itlb, dtlb := f v.dtlb, l2 := f v.l2 }

/-- The ager's tick. -/
def State.agerTick (s : State) : State := (s.advance (s.nextTick (ms 1))).tlbAge

/-- Whether HDL_CORE_TIMECMP is at or below fabric time. -/
def State.timerDue (s : State) (c : Nat) : Bool := s.fld HDL_CORE_TIMECMP.cmp c 0 ≤ s.fabric

/-- The machine timer interrupt is the level that the comparison gives. -/
def State.timerLevel (s : State) (c : Nat) : State := s.setCore c { s.core c with mtip := s.timerDue c }

/-- Fabric time reaches HDL_CORE_TIMECMP. -/
def State.timerMatch (s : State) (c : Nat) : State :=
  (s.advance (s.clockOf (s.fld HDL_CORE_TIMECMP.cmp c 0))).timerLevel c

/-! ## Leaving setup (R35) -/

/-- What follows as a block leaves its setup state: what it held is dispatched, cores start, the journal starts. -/
def State.leaveEffect (s : State) (blk : Nat) : State :=
  match blk with
  | 5 => s.dispatchHeld 5
  | 6 => s.dispatchHeld 6
  | 7 => s.dispatchHeld 7
  | 11 => s.startUserCores
  | 13 => s.dispatchHeld 13
  | 14 => s.rsvStart
  | _ => s

/-- A block leaves its setup state. -/
def State.leaveSetup (s : State) (blk : Nat) : State :=
  if !s.inSetup blk then s else (s.setDone blk true).leaveEffect blk

/-- The blocks of a list leave setup. -/
def State.leaveAll (s : State) (bs : List Nat) : State := bs.foldl State.leaveSetup s

end Sys2Proof.Machine
end

