-- ==== Sys2Proof/Machine/RegWrite.lean ====
section
/-!
DEFINITION. A register write, part by part: how each field takes it (R14, R15), the writes that a field rule refuses, where
the value goes, and what the write then does.
-/
set_option Elab.async false
namespace Sys2Proof.Machine

/-! ## Merging (R11, R13 to R15) -/

/-- The bits of a field in its register. -/
def Field.mask (f : Field) : Word := BitVec.ofNat 64 (2 ^ (f.hi + 1) - 2 ^ f.lo)

/-- The field's value in a register's value. -/
def Field.of (f : Field) (w : Word) : Nat := bitsOf w.toNat f.hi f.lo

/-- The block that a register belongs to. -/
def RegRef.block (r : RegRef) : Nat := r.off / 2 ^ 20

/-- The bits of an SL field that a write may change now: those whose instance or block is in its setup state (R15, R35, R42,
R234, R268, R320, R481). -/
def State.slOpen (s : State) (r : RegRef) (f : Field) : Word :=
  let all (b : Bool) : Word := if b then BitVec.ofNat 64 (2 ^ 64 - 1) else 0
  match r.reg with
  | .HIF_PORT_CFG => all (s.flag HIF_PORT_STATUS.in_setup r.i 0)
  | .LNK_PORT_CFG => all (s.portSt r.i == psSetup)
  | .LNK_POOL_CFG => all (s.portSt r.i == psSetup)
  | .LAN_CFG => all (s.laneSt r.i == lsSetup)
  | .RTE_PORT_MAP => all (s.portSt r.k == psSetup)
  | .PWR_CLK_CFG =>
    BitVec.ofNat 64 ((List.range 8).foldl (fun a p => a + b2n (s.flag HIF_PORT_STATUS.in_setup p 0) * 2 ^ p) 0) &&& f.mask
  | _ => all (s.inSetup r.block)

/-- A field's bits after a write of `v` under the mask `m`, from their value in `o`. -/
def State.mergeField (s : State) (r : RegRef) (m v o : Word) (f : Field) : Word :=
  let x := f.mask &&& m
  let set (x : Word) : Word := (v &&& x) ||| (o &&& f.mask &&& ~~~x)
  match f.acc with
  | .rw => set x
  | .sl => set (x &&& s.slOpen r f)
  | .w1c => o &&& f.mask &&& ~~~(v &&& x)
  | .w1s => (o ||| (v &&& x)) &&& f.mask
  | _ => o &&& f.mask

/-- A register's value after a write: each field by its access type. -/
def State.merge (s : State) (r : RegRef) (m v o : Word) : Word :=
  r.reg.fields.foldl (fun a f => (a &&& ~~~f.mask) ||| s.mergeField r m v o f) o

/-- The write would change a locked SL field (R15). -/
def State.slLocked (s : State) (r : RegRef) (m v o : Word) : Bool :=
  r.reg.fields.any fun f => f.acc == .sl && (v ^^^ o) &&& m &&& f.mask &&& ~~~(s.slOpen r f) != 0

/-- The value that a write attempts. -/
def attempted (m v o : Word) : Word := (o &&& ~~~m) ||| (v &&& m)

/-- Count a setup violation of a register's block (R15). -/
def State.setupViolation (s : State) (r : RegRef) (m : Nat) : State :=
  match setupSource r.block r.i with
  | some n => s.faultBy r.block n m (offDetail r.off)
  | none => s

/-! ## Writes that a field rule refuses -/

/-- A peer that RTE_PORT_MAP refuses (R234). -/
def State.peerBad (s : State) (p peer : Nat) : Bool :=
  if 141 ≤ p then 110592 ≤ peer
  else
    let d := portDim p
    48 ≤ peer || peer == s.coord d ||
      ((List.range 47).map fun j => 47 * d + j).any fun q => q != p && s.fld RTE_PORT_MAP.peer 0 q == peer

/-- An auxiliary entry that RTE_BANK_DATA refuses (R244). -/
def auxBad (w : Word) : Bool :=
  let node := bitsOf w.toNat 16 0
  let via := bitsOf w.toNat 33 17
  bitOf w.toNat 36 && bitsOf w.toNat 35 34 != 3 && (110592 ≤ node || 110592 ≤ via || node == via)

/-- The layout bits of a route-bank entry (R244). -/
def bankMask (table : Nat) : Word := BitVec.ofNat 64 (if table = 0 then 2 ^ 56 - 1 else 2 ^ 37 - 1)

/-- A refusal of a write to the selected route-bank entry (R247). -/
def State.bankRefusal (s : State) (w : Word) (count : Nat → State → State) : Option State :=
  match s.bankSel with
  | none => some s
  | some (b, t, _) =>
    if t = 1 ∧ auxBad w then some (count 1 s)
    else if !s.inSetup 8 && (b == s.fld RTE_EPOCH.active 0 0 || s.drainCount b != 0) then
      some (count 4 (s.setFlag RTE_STATUS.bank_refused 0 0 true))
    else none

/-- The pool sizes of LNK_POOL_CFG, 7 bits each (R293). -/
def poolsOk (w : Word) : Bool :=
  let us := (List.range 9).map fun k => bitsOf w.toNat (7 * k + 6) (7 * k)
  us.all (fun u => u != 0) && us.sum ≤ 128

/-- An owner code of SPD_BANK_OWNER (R343). -/
def ownerCode (n : Nat) : Bool := n < 8 || (0x10 ≤ n && n < 0x50) || n == 0x80 || n == 0x81

/-- A configuration of the selected trigger that HDL refuses (R327): its source. -/
def State.trigRefusal (s : State) (t : Word) : Option Nat :=
  match s.trigWrite s.trigSel t.toNat with
  | .error n => some n
  | .ok _ => none

/-- A write whose whole effect a field rule refuses: the state with what that counts. `o` is what the register shows, `t` the
value attempted and `full` whether the access is of 64 bits. -/
def State.refuse (s : State) (m : Nat) (full : Bool) (r : RegRef) (o t : Word) : Option State :=
  let src (n : Nat) (s : State) : State := s.faultBy r.block n m (offDetail r.off)
  let on (f : Field) : Bool := f.of t != 0
  let changed (f : Field) : Bool := f.of t != f.of o
  let when_ (c : Bool) (x : State) : Option State := if c then some x else none
  match r.reg with
  | .TOP_NODE_COORD =>
    when_ (s.inSetup 0 && [TOP_NODE_COORD.x, TOP_NODE_COORD.y, TOP_NODE_COORD.z].any fun f => 47 < f.of t) (src 0 s)
  | .TOP_RESET => when_ (on TOP_RESET.reset && TOP_RESET.key.of t != 0xD5) s
  | .HIF_PORT_CFG =>
    let b := HIF_PORT_CFG.bifurcation.of t
    when_ (s.flag HIF_PORT_STATUS.in_setup r.i 0 && (b == 3 || (b != 0 && HIF_PORT_CFG.mode.of t == 0))) (src (8 * r.i + 6) s)
  | .HIF_DS_SLOT_CTL =>
    let rises (f : Field) : Bool := on f && f.of o == 0
    if s.targetOn r.i r.k && (rises HIF_DS_SLOT_CTL.pwr_ctl || rises HIF_DS_SLOT_CTL.link_disable) then
      some (src (8 * r.i + 5) s)
    else when_ (changed HIF_DS_SLOT_CTL.pwr_ctl && !on HIF_DS_SLOT_CTL.pwr_ctl &&
      !s.flag HIF_DS_SLOT_STATUS.pres_state r.i r.k) (src (8 * r.i + 4) s)
  | .HIF_DS_HDM_CFG => when_ (s.targetOn r.i r.k) (src (8 * r.i + 5) s)
  | .HIF_VF_TBL_DATA => when_ (s.vfTblSel r.i).isNone s
  | .CTX_CMD =>
    let op := CTX_CMD.op.of t
    if s.inSetup 3 then some (s.ctxCmd m op) else when_ (op == 0 || 3 < op) s
  | .XLT_LOAD_CTL => when_ (on XLT_LOAD_CTL.start && s.xlt.loader.running) s
  | .XLT_FMEM_CFG =>
    when_ (s.inSetup 4 && changed XLT_FMEM_CFG.reserved_gib &&
      !([16, 24, 32, 40, 48].contains (XLT_FMEM_CFG.reserved_gib.of t))) (src 0 s)
  | .MAT_HASH_SEED => when_ (s.inSetup 5 && changed MAT_HASH_SEED.seed && !s.mat.store.isEmpty) (src 0 s)
  | .MAT_ORDER_RESET =>
    let c := MAT_ORDER_RESET.context.of t
    let remote := MAT_ORDER_RESET.remote.of t
    when_ (s.orderBusy c remote) (s.orderReset m c remote)
  | .CSC_GROUP_CFG => match s.groupSel with
    | none => some s
    | some (d, g) => when_ (s.groupBusy d g) (src 2 s)
  | .CSC_GROUP_MASK => match s.groupSel with
    | none => some s
    | some (d, g) => when_ (s.groupBusy d g) (src 2 s)
  | .RTE_BANK_DATA => s.bankRefusal t src
  | .RTE_EPOCH =>
    when_ (changed RTE_EPOCH.active && !s.inSetup 8 && s.drainCount (RTE_EPOCH.active.of t) != 0)
      (src 5 (s.setFlag RTE_STATUS.flip_refused 0 0 true))
  | .RTE_PORT_MAP =>
    when_ (changed RTE_PORT_MAP.peer && s.portSt r.k == psSetup && s.peerBad r.k (RTE_PORT_MAP.peer.of t)) (src 1 s)
  | .LAN_TX_EQ => when_ (!tapsOk t.toNat) s
  | .LAN_TEST_CFG => when_ (!s.testOk r.i o.toNat t.toNat) (src 1153 s)
  | .LAN_RX_EQ => when_ (!s.flag LAN_CFG.adapt_freeze r.i 0) s
  | .LAN_CFG => when_ (on LAN_CFG.malsol && r.i < 282 && s.laneSt r.i == lsSetup) (src 1152 s)
  | .LAN_CTL => when_ (on LAN_CTL.setup_exit && s.laneSt r.i == lsSetup && s.malsolDiffers r.i) (src 1152 s)
  | .LNK_POOL_CFG => when_ (s.portSt r.i == psSetup && !poolsOk t) (src 1152 s)
  | .HDL_TRIG_CFG => (s.trigRefusal t).map fun n => src n s
  | .HDL_MEM_DATA => when_ (s.hmemSize ≤ s.hmemAt) s
  | .SPD_BANK_OWNER => when_ (!ownerCode (SPD_BANK_OWNER.owner.of t)) (src 257 s)
  | .SEM_ACQ =>
    if !full then some s else when_ ((s.semOf r.i).holder != some m) (src 0 s)
  | .FLT_INJECT =>
    when_ (on FLT_INJECT.start && (s.flag FLT_INJECT.busy r.i 0 || (sourceSpec r.i (FLT_INJECT.source.of t)).isNone)) s
  | .SEC_FLASH_DATA =>
    if s.flashBusy then some s else when_ (s.flashProtected s.flashAt) (src 1 s)
  | .SEC_FLASH_CTL =>
    if !on SEC_FLASH_CTL.erase then none
    else if s.flashBusy then some s else when_ (s.flashProtected s.flashAt) (src 1 s)
  | .SEC_UPDATE_CTL =>
    when_ (on SEC_UPDATE_CTL.activate && !s.activateOk) (src 1 (s.setFld SEC_UPDATE_STATUS.state 0 0 5))
  | .SEC_QUOTE_CTL => when_ (on SEC_QUOTE_CTL.start && s.flag SEC_QUOTE_CTL.busy 0 0) s
  | .LOG_HEAD => when_ (t.toNat < s.logHead || s.logTail < t.toNat) s
  | .PMC_SAMPLE_HEAD =>
    when_ (t.toNat < s.fld PMC_SAMPLE_HEAD.count 0 0 || s.fld PMC_SAMPLE_TAIL.count 0 0 < t.toNat) s
  | _ => none

/-! ## Where the value goes -/

/-- Write a word of a virtual function's MSI-X table, bits [63:33] of a control word being reserved; its PBA is read-only
(R50). -/
def State.setVfWord (s : State) (p v w : Nat) (x : Word) : State :=
  if w = 128 then s
  else
    let x := if w % 2 = 1 then x &&& BitVec.ofNat 64 (2 ^ 33 - 1) else x
    let f := s.fn p v
    s.setFn p v { f with tbl := SMap.put (fun j => if j % 2 = 1 then 0x100000000#64 else 0#64) f.tbl w x }

/-- Write the line group that CSC_GROUP_SEL selects. -/
def State.putGroup (s : State) (f : CscGroup → CscGroup) : State :=
  match s.groupSel with
  | some (d, g) => s.setGroup d g (f (s.group d g))
  | none => s

/-- Write the counter `n`, and report it (R189, R395). -/
def State.putCtr (s : State) (n : Nat) (f : Counter → Counter) : State :=
  let s := s.setCtr n (f (s.ctr n))
  s.ctrChanged n

/-- Write the route-bank entry that RTE_BANK_SEL selects; the change log keeps it as a table update (R433). -/
def State.putBank (s : State) (m : Nat) (w : Word) : State :=
  match s.bankSel with
  | some (b, t, i) =>
    let old := s.bankEntry b t i
    let w := w &&& bankMask t
    let s : State := { s with rte := { s.rte with banks := SMap.put (fun _ => (0 : Word)) s.rte.banks (b * 1024 + t * 512 + i) w } }
    s.logTable m 2 (s.fld RTE_BANK_SEL.bank 0 0 * 2048 + t * 512 + i) old w
  | none => s

/-- A counter register written through its selector: a table update (R433). -/
def State.putCtrReg (s : State) (m : Nat) (o w : Word) (f : Counter → Counter) : State :=
  (s.logTable m 5 s.ctrSel o w).putCtr s.ctrSel f

/-- One pin's field of TOP_PIN_OWNER (R461): the register's value after it, and whether it is refused. -/
def pinField (w t : Word) (k : Nat) : Word × Bool :=
  let old := bitsOf w.toNat (8 * k + 7) (8 * k)
  let new := bitsOf t.toNat (8 * k + 7) (8 * k)
  let put : Word := BitVec.ofNat 64 (putBits w.toNat (8 * k + 7) (8 * k) new)
  let taken := (List.range 4).any fun j => j != k && bitsOf w.toNat (8 * j + 7) (8 * j) == new
  if new = old then (w, false)
  else if new = 0 then (put, false)
  else if old ≠ 0 ∨ 6 < new ∨ taken then (w, true)
  else (put, false)

/-- TOP_PIN_OWNER's value after a write, and the pins whose fields are refused. -/
def pinWrite (o t : Word) : Word × List Nat :=
  (List.range 4).foldl (fun x k =>
    let y := pinField x.1 t k
    (y.1, if y.2 then x.2 ++ [k] else x.2)) (o, [])

/-- Put the value `w` into a register of which `t` was attempted. -/
def State.store (s : State) (m : Nat) (r : RegRef) (o w t mask : Word) : State :=
  let keep (f : Field) : Word := if f.of w = 0 then (w &&& ~~~f.mask) ||| (o &&& f.mask) else w
  match r.reg with
  | .TOP_PIN_OWNER => s.setReg r (pinWrite o t).1
  | .TOP_SETUP_DONE =>
    -- XLT stays in setup until HBM is zero (R133; log entry 129)
    if s.log.ring || bitOf o.toNat 4 || !bitOf w.toNat 4 then s.setReg r w
    else ({ s with pwr := { s.pwr with xltWaits := true } }).setReg r (w &&& ~~~0x10#64)
  | .HIF_VF_TBL_DATA => match s.vfTblSel r.i with
    | some (v, k) => s.setVfWord r.i v k w
    | none => s
  | .HIF_MSIX_TABLE => s.setReg r (if r.k % 2 = 1 then w &&& BitVec.ofNat 64 (2 ^ 33 - 1) else w)
  | .HIF_DS_SLOT_CTL =>
    let x := keep HIF_DS_SLOT_CTL.pwr_ind
    s.setReg r (if HIF_DS_SLOT_CTL.attn_ind.of w = 0 then
      (x &&& ~~~HIF_DS_SLOT_CTL.attn_ind.mask) ||| (o &&& HIF_DS_SLOT_CTL.attn_ind.mask) else x)
  | .HIF_DS_CFG_DATA => s
  | .HIF_DS_MEM_DATA => s
  | .CTX_STAGE => (s.setReg r w).setFld CTX_STATUS.stager 0 0 m
  | .XLT_WIN_STAGE => (s.setReg r w).setFld XLT_WIN_RESULT.stager 0 0 m
  | .XLT_ENTRY_DATA => s.writeXlt m (s.fld XLT_ENTRY_SEL.index 0 0) w
  | .RMA_CTR_CFG => s.putCtrReg m o w fun v => { v with
      enable := bitOf w.toNat 31, bytes := bitOf w.toNat 30, mirror := bitOf w.toNat 29, owner := bitsOf w.toNat 19 0 }
  | .RMA_CTR_VALUE => s.putCtrReg m o w fun v => { v with value := w }
  | .RMA_CTR_FAIL => s.putCtrReg m o w fun v => { v with fail := w.toNat % 2 ^ 32 }
  | .RMA_CTR_MIRROR => s.putCtrReg m o w fun v => { v with addr := w.toNat / 8 * 8 }
  | .RMA_CTR_WORD => s.putCtr r.k fun v => { v with value := w }
  | .CSC_GROUP_CFG => s.putGroup fun v =>
      let on := CSC_GROUP_CFG.valid.of w != 0
      { v with owner := CSC_GROUP_CFG.owner.of w, valid := on, seq := if on && !v.valid then 0 else v.seq }
  | .CSC_GROUP_MASK => s.putGroup fun v => { v with mask := CSC_GROUP_MASK.members.of w }
  | .RTE_BANK_DATA => s.putBank m w
  | .RTE_URGENT_CFG => s.urgentCfg w
  | .RTE_LINE_STATE => if r.k % 48 = s.coord (r.k / 48) then s else s.setReg r w
  | .LAN_EYE => s.setReg r (if mask &&& LAN_EYE.ef_min.mask = 0 then w else withFields w [(LAN_EYE.ef_min, 0x7FFF)])
  | .PWR_TEMP => s.setReg r (if mask &&& PWR_TEMP.tj_peak.mask = 0 then w
      else withFields w [(PWR_TEMP.tj_peak, s.fld PWR_TEMP.tj_max 0 0)])
  | .HDL_IPI_SET => s.setReg ⟨.HDL_IPI_PEND, 0, 0⟩ w
  | .HDL_TRIG_CFG => match s.trigWrite s.trigSel w.toNat with
    | .ok s' => s'
    | .error _ => s
  | .HDL_TRIG_CORES => s.setTrig s.trigSel { s.trig s.trigSel with cores := w }
  | .HDL_TRIG_PC => s.setTrig s.trigSel { s.trig s.trigSel with pc := w.toNat / 2 * 2 }
  | .HDL_TRIG_ARG => s.setTrig s.trigSel { s.trig s.trigSel with arg := w.toNat }
  | .HDL_MEM_DATA => { s with hmem := s.hmem.write s.hmemAt (leBytes 8 w.toNat) }
  | .SEC_FLASH_DATA => s
  | .PMC_EVSEL =>
    let s := s.setReg r w
    { s with pmc := { s.pmc with sums := SMap.erase s.pmc.sums r.k } }
  | .PMC_SAMPLE_CFG =>
    let s := s.setReg r w
    if mask &&& PMC_SAMPLE_CFG.seed.mask = 0 then s
    else { s with pmc := { s.pmc with lfsr := max 1 (PMC_SAMPLE_CFG.seed.of w) } }
  | _ => s.setReg r w

/-- The register's fields are merged from what the register shows, where it is a window into a table. -/
def Reg.windowed : Reg → Bool
  | .HIF_VF_TBL_DATA => true
  | .XLT_ENTRY_DATA => true
  | .RMA_CTR_CFG => true
  | .RMA_CTR_VALUE => true
  | .RMA_CTR_FAIL => true
  | .RMA_CTR_MIRROR => true
  | .RMA_CTR_WORD => true
  | .CSC_GROUP_CFG => true
  | .CSC_GROUP_MASK => true
  | .RTE_BANK_DATA => true
  | .HDL_IPI_SET => true
  | .HDL_TRIG_CFG => true
  | .HDL_TRIG_CORES => true
  | .HDL_TRIG_PC => true
  | .HDL_TRIG_ARG => true
  | .HDL_MEM_DATA => true
  | _ => false

/-- The write is kept in the change log as a table update, by what stores it, and not as a register write (R433). -/
def Reg.tableLogged : Reg → Bool
  | .XLT_ENTRY_DATA => true
  | .RTE_BANK_DATA => true
  | .RMA_CTR_CFG => true
  | .RMA_CTR_VALUE => true
  | .RMA_CTR_FAIL => true
  | .RMA_CTR_MIRROR => true
  | _ => false

/-! ## What the write does -/

/-- The action of a write, after its record; `o` and `t` as for `refuse`, `mask` the bits that the access reaches. The
actions of one write follow in ascending order of their bits. -/
def State.act (s : State) (m : Nat) (r : RegRef) (o t mask : Word) : State :=
  let on (f : Field) : Bool := mask &&& f.mask != 0 && f.of t != 0
  let changed (f : Field) : Bool := f.of t != f.of o
  let whole (f : Field) : Bool := mask &&& f.mask != 0
  let do_ (c : Bool) (f : State → State) (s : State) : State := if c then f s else s
  match r.reg with
  | .TOP_SETUP_DONE => (List.range 20).foldl (fun s b =>
      if bitOf t.toNat b && !bitOf o.toNat b && !s.inSetup b then s.leaveEffect b else s) s
  | .TOP_RESET => do_ (on TOP_RESET.reset) State.topReset s
  | .HIF_PORT_CTL =>
    do_ (on HIF_PORT_CTL.setup_exit) (·.portExit r.i) (do_ (on HIF_PORT_CTL.port_reset) (·.portReset r.i) s)
  | .HIF_MSIX_TABLE => if (s.fn r.i 0).msixEn then s.flushPending r.i 0 else s
  | .HIF_VF_TBL_DATA => match s.vfTblSel r.i with
    | some (v, _) => if (s.fn r.i v).msixEn then s.flushPending r.i v else s
    | none => s
  | .HIF_INTX_ACK =>
    if whole HIF_INTX_ACK.vector then (s.setPba r.i 0 (HIF_INTX_ACK.vector.of t) false).updateWire r.i else s
  | .HIF_DS_SLOT_CTL =>
    let s := (s.slotInd r.i r.k false o).slotInd r.i r.k true o
    if !changed HIF_DS_SLOT_CTL.pwr_ctl then s
    else if HIF_DS_SLOT_CTL.pwr_ctl.of t = 1 then s.powerOff r.i r.k else s.powerOn r.i r.k
  | .CMD_HANDLE_QUERY => s.handleQuery t.toNat
  | .CTX_CMD => s.ctxCmd m (CTX_CMD.op.of t)
  | .XLT_WIN_COMMIT => if whole XLT_WIN_COMMIT.index then s.commit m (XLT_WIN_COMMIT.index.of t) else s
  | .XLT_LOAD_CTL => do_ (on XLT_LOAD_CTL.start) State.loaderStart s
  | .XLT_SYNC => do_ (on XLT_SYNC.start) State.syncStart s
  | .MAT_ORDER_RESET => s.orderReset m (MAT_ORDER_RESET.context.of t) (MAT_ORDER_RESET.remote.of t)
  | .RTE_PORT_MAP =>
    if changed RTE_PORT_MAP.route_dis && s.fld RTE_PORT_MAP.state 0 r.k == 1 then s.usabilityChanged r.k else s
  | .LAN_CTL =>
    do_ (on LAN_CTL.retire) (·.laneRetire r.i)
      (do_ (on LAN_CTL.setup_exit) (·.laneExit m t r.i) (do_ (on LAN_CTL.lane_reset) (·.laneReset r.i) s))
  | .LAN_TEST_CFG => if t = o then s else s.testChanged r.i (changed LAN_TEST_CFG.gen_pat)
  | .LAN_INJECT =>
    if on LAN_INJECT.start then s.injectBegin r.i
    else if LAN_INJECT.mode.of t = 0 then s.setLane r.i { s.lane r.i with injAt := none } else s
  | .LAN_M2_CTL => do_ (on LAN_M2_CTL.slip) (·.m2Slip r.i) s
  | .LNK_PORT_CTL =>
    do_ (on LNK_PORT_CTL.link_reset) (·.requestReset r.i 1 none)
      (do_ (on LNK_PORT_CTL.setup_exit) (·.lnkExit r.i) (do_ (on LNK_PORT_CTL.enter_setup) (·.lnkSetup r.i) s))
  | .HDL_CORE_CTL =>
    do_ (on HDL_CORE_CTL.retire) (·.retireCore r.i) (do_ (on HDL_CORE_CTL.reset) (·.resetCore r.i) s)
  | .HDL_CORE_TIMECMP => s.timerLevel r.i
  | .SPD_MARCH_CTL => do_ (on SPD_MARCH_CTL.start) State.marchStart s
  | .SPD_BANK_CTL => s.bankWoken r.k
  | .SEM_ACQ => s.semFree r.i false
  | .SEM_FORCE =>
    let n := SEM_FORCE.semaphore.of t
    if whole SEM_FORCE.semaphore && (s.semOf n).holder.isSome then s.semFree n true else s
  | .FLT_STATUS => do_ (on FLT_STATUS.first_valid) (·.firstClear r.i) s
  | .FLT_ESC_ACTION =>
    let every := FLT_ESC_ACTION.all.of t != 0
    let n := FLT_ESC_ACTION.source.of t
    if !whole FLT_ESC_ACTION.cmd then s
    else match FLT_ESC_ACTION.cmd.of t with
      | 1 => s.actNow r.i every n
      | 2 => s.escWithdraw r.i every n
      | _ => s
  | .FLT_INJECT =>
    if on FLT_INJECT.start then
      s.injectStart r.i m (FLT_INJECT.count.of t) (FLT_INJECT.interval_us.of t) (FLT_INJECT.source.of t)
    else s
  | .RSV_CTL =>
    let s := if on RSV_CTL.seal && s.fld RSV_STATUS.state 0 0 == 2 then s.sealStart 3 else s
    do_ (on RSV_CTL.detach) State.detach s
  | .RSV_RESUME => s.resume (RSV_RESUME.ports.of t)
  | .SEC_FLASH_DATA => s.flashProgram t
  | .SEC_FLASH_CTL => do_ (on SEC_FLASH_CTL.erase) State.flashErase s
  | .SEC_UPDATE_CTL =>
    let s := if on SEC_UPDATE_CTL.verify && s.updState != 1 && s.updState != 3 then
        s.verifyStart (s.fld SEC_UPDATE_CTL.slot 0 0) else s
    do_ (on SEC_UPDATE_CTL.commit_svn) State.commitSvn (do_ (on SEC_UPDATE_CTL.activate) State.updateStart s)
  | .SEC_QUOTE_CTL => do_ (on SEC_QUOTE_CTL.start) (·.quoteStart m) s
  | .PMC_FREEZE =>
    do_ (on PMC_FREEZE.freeze_at) State.freezeAtTime
      (do_ (on PMC_FREEZE.freeze_now) State.freezeSoon (do_ (on PMC_FREEZE.unfreeze) State.unfreeze s))
  | _ => s

end Sys2Proof.Machine
end

