-- ==== Sys2Proof/Machine/Access.lean ====
section
/-!
DEFINITION. Accesses to the register space (R11, R12, R30, R31): a write with its record and its counts, a read with its side
effect, the accesses that wait (R67, R435), and the page of a virtual function (R48 to R50).
-/
set_option Elab.async false
namespace Sys2Proof.Machine

/-! ## Writes -/

/-- The block whose register port an access reaches; TOP where no block lies (R12, R32). -/
def WaitAcc.block (a : WaitAcc) : Nat := if a.off < 0x1400000 then a.off / 2 ^ 20 else 0

/-- A write reaches no register (R12). -/
def State.unmappedWrite (s : State) (a : WaitAcc) (v : Word) : State :=
  (s.logIgnored a.m a.off 1 0 v).faultBy a.block 2047 a.m (offDetail a.off)

/-- A write that the device's condition shuts out: any but TOP_RESET in a device stop (R386), any but those of the flash
and TOP_RESET once boot has failed (R421). -/
def State.shutOut (s : State) (r : Reg) : Bool :=
  match r with
  | .TOP_RESET => false
  | .SEC_FLASH_ADDR => s.stopped
  | .SEC_FLASH_DATA => s.stopped
  | .SEC_FLASH_CTL => s.stopped
  | _ => s.stopped || s.fld SEC_BOOT_STATUS.state 0 0 == 3

/-- The value that the record of a performed write shows as the new one: what the register then reads as, or the data that a
window to flash or to a device below carries on. -/
def State.newValue (s : State) (r : RegRef) (t : Word) : Word :=
  match r.reg with
  | .SEC_FLASH_DATA => t
  | .HIF_DS_CFG_DATA => t
  | .HIF_DS_MEM_DATA => t
  | _ => s.regView r

/-- The record of a performed write (R433, R434). -/
def State.logPerformed (s : State) (m : Nat) (r : RegRef) (o t : Word) : State :=
  if r.reg.tableLogged then s else s.logWrite m r.off o (s.newValue r t)

/-- The fields of TOP_PIN_OWNER that a write had refused (R461). -/
def State.pinsRefused (s : State) (m : Nat) (r : RegRef) (o t : Word) : State :=
  (pinWrite (s.reg r) t).2.foldl (fun s _ => (s.logIgnored m r.off 3 o t).faultBy 0 1 m (offDetail r.off)) s

/-- The fields that take a write, with its record: nothing is recorded as performed where only a locked field would have
changed. Answers whether the write was ignored in no part. -/
def State.regStore (s : State) (m : Nat) (r : RegRef) (o t v mask : Word) : State × Bool :=
  let base := if r.reg.windowed then o else s.reg r
  let w := s.merge r mask v base
  let locked := s.slLocked r mask v base
  let pins := r.reg == .TOP_PIN_OWNER && !(pinWrite base t).2.isEmpty
  let part := (locked || pins) && (if pins then (pinWrite base t).1 == base else w == base)
  let s1 := if pins then s.pinsRefused m r o t else s
  let s1 := if locked then (s1.setupViolation r m).logIgnored m r.off 2 o t else s1
  let s2 := if part then s1 else (s1.store m r base w t mask).logPerformed m r o t
  (s2, !(locked || pins))

/-- A write of a downstream data register: issued to the device below (R66, R67). -/
def State.dsWrite (s : State) (a : WaitAcc) (r : RegRef) (t mask : Word) : State :=
  let cfg := r.reg == .HIF_DS_CFG_DATA
  let s := s.logWrite a.m r.off 0 t
  if cfg && mask &&& HIF_DS_CFG_DATA.data.mask == 0 then s.deliver a 0 false
  else s.dsIssue a r.i r.k (if cfg then .cfgWrite else .memWrite) t

/-- A write that reaches a register: refused, or performed. -/
def State.writeReg (s : State) (a : WaitAcc) (p : AccSize) (r : RegRef) (v : Word) : State × Bool :=
  let s := if r.reg = .PMC_COUNT ∨ r.reg = .PMC_EVSEL then s.endCycle else s
  let mask : Word := BitVec.ofNat 64 (accMask p)
  let v := accPlace p v
  let o := s.regView r
  let t := attempted mask v o
  if s.shutOut r.reg then ((s.logIgnored a.m r.off 3 o t).deliver a 0 s.stopped, false)
  else match s.refuse a.m (p == .full) r o t with
    | some s' =>
      let reason := if r.reg = .CTX_CMD ∧ s.inSetup 3 then 2 else 3
      ((s'.logIgnored a.m r.off reason o t).deliver a 0 false, false)
    | none =>
      if r.reg = .HIF_DS_CFG_DATA ∨ r.reg = .HIF_DS_MEM_DATA then (s.dsWrite a r t mask, true)
      else
        let x := s.regStore a.m r o t v mask
        ((x.1.act a.m r o t mask).deliver a 0 false, x.2)

/-- A write access is performed. Answers whether no part of it was ignored. -/
def State.performWrite (s : State) (a : WaitAcc) (v : Word) : State × Bool :=
  match a.part, a.reg with
  | some p, some r => s.writeReg a p r v
  | _, _ => ((s.unmappedWrite a v).deliver a 0 s.stopped, false)

/-! ## Reads -/

/-- A read access is performed: the registers with a side effect, and every other (R14). -/
def State.performRead (s : State) (a : WaitAcc) : State :=
  match a.part, a.reg with
  | some p, some r =>
    match r.reg with
    | .SEM_ACQ =>
      if p = .full then
        let x := s.semAcquire r.i a.m r.k
        x.2.deliver a (semWord (x.2.semOf r.i) x.1) false
      else s.deliver a 0 false
    | .SEC_FLASH_DATA =>
      let x := s.flashRead
      x.2.deliver a x.1 false
    | .HIF_DS_CFG_DATA => if p = .hi then s.deliver a 0 false else s.dsIssue a r.i r.k .cfgRead 0
    | .HIF_DS_MEM_DATA => s.dsIssue a r.i r.k .memRead 0
    | _ => s.deliver a (s.regView r) false
  | _, _ => s.deliver a 0 false

/-- An access is performed. -/
def State.perform (s : State) (a : WaitAcc) : State :=
  match a.write with
  | some v => (s.performWrite a v).1
  | none => s.performRead a

/-! ## Accesses that wait (R31, R67, R435) -/

/-- The change log has no room for the record of a write (R435): LOG's own registers have the last 64 places, and LOG_HEAD
never waits. -/
def State.logStall (s : State) (a : WaitAcc) : Bool :=
  a.write.isSome &&
    match a.reg.map fun r => r.reg with
    | some Reg.LOG_HEAD => false
    | _ => if a.block = 16 then decide (s.logCap ≤ s.logTail - s.logHead) else s.logFull

/-- The write of a register makes a change that its block reports to RSV (R390): opening or closing a context, a window commit,
a translation entry, a counter, and the order reset of a pair. -/
def Reg.reported (r : Reg) (v : Word) : Bool :=
  match r with
  | .CTX_CMD => v.toNat % 8 != 1
  | .XLT_WIN_COMMIT => true
  | .XLT_ENTRY_DATA => true
  | .MAT_ORDER_RESET => true
  | .RMA_CTR_CFG => true
  | .RMA_CTR_VALUE => true
  | .RMA_CTR_FAIL => true
  | .RMA_CTR_MIRROR => true
  | .RMA_CTR_WORD => true
  | _ => false

/-- A block holds the change that a write makes while RSV takes no report (R399, R401). -/
def State.reportStall (s : State) (a : WaitAcc) : Bool :=
  s.rsvHeld && match a.write, a.reg with
    | some v, some r => r.reg.reported v
    | _, _ => false

/-- An access cannot be performed now: the log, RSV, or a downstream access that holds HIF. -/
def State.blocked (s : State) (a : WaitAcc) : Bool :=
  s.logStall a || s.reportStall a || (a.block == 1 && s.hif.ds.isSome)

/-- The place of an access among those that wait: behind the ones that came before it, and among those that reached its block
in the same core cycle by ascending master ID (R31). -/
def queueWait (a : WaitAcc) : List WaitAcc → List WaitAcc
  | [] => [a]
  | b :: bs =>
    if b.block = a.block ∧ b.since / 500 = a.since / 500 ∧ a.m < b.m then a :: b :: bs else b :: queueWait a bs

/-- An access reaches the register port of its block, behind those that wait there. -/
def State.regAccess (s : State) (a : WaitAcc) : State :=
  if s.blocked a || s.waits.any fun b => b.block == a.block then { s with waits := queueWait a s.waits }
  else s.perform a

/-- The first access that waits and can be performed: the oldest of its block. -/
def State.readyWait (s : State) : Option WaitAcc :=
  s.waits.find? fun a => !s.blocked a && (s.waits.find? fun b => b.block == a.block) == some a

/-- The accesses that wait are performed, as far as they can be. -/
def State.runWaits (s : State) : Nat → State
  | 0 => s
  | fuel + 1 =>
    match s.readyWait with
    | some a =>
      let t : State := { s with waits := s.waits.erase a }
      (t.perform a).runWaits fuel
    | none => s

/-- Every access that waits and can be performed. -/
def State.wakeWaits (s : State) : State := s.runWaits s.waits.length

/-- stall_limit_us in ps (R439). -/
def State.stallLimit (s : State) : Nat := us (max 100 (min 10000 (s.fld LOG_CTL.stall_limit_us 0 0)))

/-- The oldest write that the log keeps waiting at the head of its block's port. -/
def State.stalledWrite (s : State) : Option WaitAcc :=
  s.waits.find? fun a => s.logStall a && (s.waits.find? fun b => b.block == a.block) == some a

/-- A write still waits at the limit: it is neither performed nor recorded, and counts (R435). -/
def State.stallExpire (s : State) : State :=
  match s.stalledWrite with
  | none => s
  | some a =>
    let s := s.advance (a.since + s.stallLimit)
    let t : State := { s with waits := s.waits.erase a }
    let t := (t.bump LOG_STATUS.refused 0 0).setFlag LOG_STATUS.overrun 0 0 true
    ((t.faultBy 16 1 a.m (offDetail a.off)).deliver a 0 false).wakeWaits

/-! ## The accesses of masters -/

/-- Make a register access of a master now. -/
def State.masterAccess (s : State) (m off : Nat) (size : ReqSize) (write : Option Word) : State :=
  s.regAccess ⟨m, off, size, write, none, s.now⟩

/-- The masters that reach the register space directly (R30): a physical function through BAR0, a handler core, the hardware of
the device. The others have paths of their own, with commands of their own: a virtual function its page, a fabric peer RMA's
register window, I3C the mailbox, JTAG its data register. -/
def directMaster (m : Nat) : Bool :=
  match m / 2 ^ 21 with
  | 0 => m % 2 ^ 18 == 0
  | 1 => m % 2 ^ 21 < 64
  | 5 => true
  | _ => false

/-- A master that reaches the register space directly makes an access now. -/
def State.directAccess (s : State) (m off : Nat) (size : ReqSize) (write : Option Word) : State :=
  if directMaster m then s.masterAccess m off size write else s

/-- The access size and the offset at which the part of a 64-bit register lies. -/
def wvalSize (w : WVal) : ReqSize := match w.acc with
  | .full => .w64
  | .lo => .w32
  | .hi => .w32

/-- The data of a part, as an access of the part's size carries it. -/
def wvalData (w : WVal) : Word := match w.acc with
  | .full => w.val
  | .lo => BitVec.ofNat 64 (w.val.toNat % 2 ^ 32)
  | .hi => BitVec.ofNat 64 (w.val.toNat / 2 ^ 32)

/-- A master writes a register or an aligned half of it; the host's data counts as received payload (R445). -/
def State.regWrite (s : State) (m : Nat) (r : RegRef) (w : WVal) : State :=
  let n := match w.acc with
    | .full => 8
    | .lo => 4
    | .hi => 4
  if directMaster m then
    (s.rxBytes m n).masterAccess m (r.off + if w.acc = .hi then 4 else 0) (wvalSize w) (some (wvalData w))
  else s

/-- A master reads a register, or an aligned half of it. -/
def State.regRead (s : State) (m : Nat) (r : RegRef) (acc : AccSize) : State :=
  s.directAccess m (r.off + if acc = .hi then 4 else 0) (wvalSize ⟨acc, 0⟩) none

/-! ## The page of a virtual function (R48, R49) -/

/-- The virtual function answers at its pages. -/
def State.vfThere (s : State) (p v : Nat) : Bool := s.fnExists p v && !(s.fn p v).flr

/-- A write of `size` at an offset of the page, outside HIF_VF_REG_DATA: bits of the table or of HIF_VF_REG_ADDR. -/
def State.vfPageStore (s : State) (p v off : Nat) (size : ReqSize) (val : Word) : State :=
  let a : WaitAcc := ⟨mHost p v, off, size, none, none, 0⟩
  match a.part with
  | none => s
  | some q =>
    let mask : Word := BitVec.ofNat 64 (accMask q)
    let x := accPlace q val
    let o := off - off % 8
    if o < 0x400 then
      let s := s.setVfWord p v (o / 8) (attempted mask x (s.vfWord p v (o / 8)))
      if (s.fn p v).msixEn then s.flushPending p v else s
    else if o = 0x1008 then
      let f := s.fn p v
      s.setFn p v { f with vfRegAddr := (attempted mask x (BitVec.ofNat 64 f.vfRegAddr)).toNat % 2 ^ 26 / 8 * 8 }
    else s

/-- A write at an offset of the page. -/
def State.vfPageWrite (s : State) (p v off : Nat) (size : ReqSize) (val : Word) : State :=
  if !s.vfThere p v then s
  else if off = 0x1010 ∧ size = .w64 then s.masterAccess (mHost p v) (s.fn p v).vfRegAddr .w64 (some val)
  else if s.stopped then s
  else s.vfPageStore p v off size val

/-- The word of the page at an aligned offset (R48), HIF_VF_REG_DATA apart: the table, the pending bits, HIF_VF_INFO,
HIF_VF_REG_ADDR; zero elsewhere. -/
def State.vfPageWord (s : State) (p v off : Nat) : Word :=
  if off < 0x400 then s.vfWord p v (off / 8)
  else if off = 0x800 then s.vfWord p v 128
  else if off = 0x1000 then
    BitVec.ofNat 64 (s.fld HIF_VF_CTX_BLOCK.block p (v - 1) * 2 ^ 32 + p * 2 ^ 24 + v)
  else if off = 0x1008 then BitVec.ofNat 64 (s.fn p v).vfRegAddr
  else 0

/-- A read of the page: a 64-bit read of HIF_VF_REG_DATA reads its target, one of any other size reads zero (R49); any other
offset has no side effect. -/
def State.vfPageRead (s : State) (p v off : Nat) (size : ReqSize) : State :=
  let a : WaitAcc := ⟨mHost p v, off, size, none, none, 0⟩
  if !s.vfThere p v then s
  else if off - off % 8 = 0x1010 then
    if size = .w64 ∧ off % 8 = 0 then s.masterAccess (mHost p v) (s.fn p v).vfRegAddr .w64 none
    else s.emit (.regData (mHost p v) off 0)
  else s.emit (.regData (mHost p v) off (match a.part with
    | some q => accTake q (s.vfPageWord p v (off - off % 8))
    | none => 0))

/-! ## The end of a command -/

/-- What follows a command by itself: changes and accesses that RSV or a downstream access held, a reset that waited for its
seal, then the blocks' own work. -/
def State.done (s s0 : State) : State :=
  let s := s.releaseHeld
  ((if (s0.hif.ds.isSome && s.hif.ds.isNone) || (s0.rsvHeld && !s.rsvHeld) then s.wakeWaits else s).resetWhenSealed).settle.journalFlush

end Sys2Proof.Machine
end

