-- ==== Sys2Proof/Machine/Boot.lean ====
section
/-!
DEFINITION. The register window of RMA (R168, R169), and the steps of power-up that write registers and release blocks
(R403 to R405, R416, R421, R422).
-/
set_option Elab.async false
namespace Sys2Proof.Machine

/-! ## The register window (R169, R197) -/

/-- The checks of a request to window 0xFFFF, in order. -/
def State.regWinRefusal (s : State) (p : Packet) : Option (Nat × Nat) :=
  if (s.ctx (pDstCtx p)).phase ≠ .opened then some (0x12, 0x01)
  else if !s.flag RMA_REG_CTL.enable 0 0 then some (0x12, 0x03)
  else if pKey p ≠ s.fld RMA_REG_CTL.key 0 0 then some (0x12, 0x04)
  else if pType p = 3 then some (0x12, 0x0A)
  else if reqLen p ≠ 8 ∨ reqOff p % 8 ≠ 0 then some (0x13, 0x08)
  else if 2 ^ 26 ≤ reqOff p then some (0x13, 0x01)
  else s.rcntRefusal p

/-- A request to the register window opens an operation: one register access of the fabric peer, whose end answers it. -/
def State.regWinAdmit (s : State) (p : Packet) : State :=
  if !s.opRoom p then s.tgtBusy p
  else match s.regWinRefusal p with
    | some (st, dt) => (s.pmcEv 4 3 0 0 (b2n (st != 0x12 || dt != 9))).recordRefusal p st dt
    | none =>
      let v := { s.newOp p .active 0 0 0 false with present := [0] }
      let s := (s.putOp v).pmcEv 6 1 0 0 1
      s.regAccess
        { m := mPeer (pSrcNode p), off := reqOff p, size := .w64
          write := if pType p = 0 then some (BitVec.ofNat 64 (ofLE (pData p))) else none
          op := some (⟨v.ctx, v.remote, v.osn⟩, reqCounter p), since := s.now }

/-- A PUT, GET or ATOMIC request at the target: to the register window, or to a window of its context (R168). -/
def State.rmaArrive (s : State) (p : Packet) : State :=
  s.rmaRequest p fun s => if pWindow p = 0xFFFF then s.regWinAdmit p else s.admitOp p

/-! ## Steps 5 and 6 of power-up (R416, R421, R422) -/

/-- An entry of the lists that check 0x08 admits before it is applied. -/
def listEntryOk (off : Nat) : Bool :=
  off < 2 ^ 26 && off % 8 == 0 && off / 2 ^ 20 != 15 &&
    match (regAt off).map fun r => r.reg with
    | some Reg.TOP_RESET => false
    | some Reg.TOP_SETUP_DONE => false
    | _ => true

/-- SEC applies one entry with the master ID of the device hardware, without waiting for the log (R435). -/
def State.applyEntry (s : State) (e : Nat × Word) : State × Bool :=
  if listEntryOk e.1 then s.performWrite ⟨mDev 15, e.1, .w64, some e.2, none, s.now⟩ e.2 else (s, false)

/-- The default list is applied (R422). -/
def State.applyDefaults (s : State) (es : List (Nat × Word)) : State := es.foldl (fun s e => (s.applyEntry e).1) s

/-- The write list is applied in order, up to the first entry that check 0x08 refuses (R421, R422). -/
def State.applyList (s : State) : List (Nat × Bool × Word) → State × Bool
  | [] => (s, true)
  | (off, zero, w) :: es =>
    let x := s.applyEntry (off, w)
    if zero && x.2 then x.1.applyList es else (if zero then x.1 else s, false)

/-- A list gives the peer of a line port: the boot image supplies a map of its own (R234). -/
def suppliesMap (offs : List Nat) : Bool :=
  offs.any fun o => (RegRef.mk .RTE_PORT_MAP 0 0).off ≤ o && o < (RegRef.mk .RTE_PORT_MAP 0 141).off

/-- The boot firmware writes the natural map of the line ports (R234). -/
def State.naturalMap (s : State) : State :=
  (List.range 141).foldl (fun s p =>
    s.setFld RTE_PORT_MAP.peer 0 p (if p % 47 < s.coord (p / 47) then p % 47 else p % 47 + 1)) s

/-- Steps 5 and 6: the firmware of the candidate is checked, and the lists are applied: the default list of its firmware
section, and the write list of its configuration section (R421, R422). -/
def State.firmwareVerified (s : State) (defaults : List (Nat × Word)) (timeRef : Bool) : State :=
  let c := s.sec.cand
  let code := s.firmwareCode c
  if s.sec.step ≠ 4 ∨ s.fld SEC_BOOT_STATUS.state 0 0 ≠ 1 then s
  else if code ≠ 0 then s.candidateBad code
  else
    let writes := s.writeList c
    let x := (s.applyDefaults defaults).applyList writes
    if !x.2 then x.1.candidateBad 8
    else
      let s := if suppliesMap (defaults.map (·.1) ++ writes.map (·.1)) then x.1 else x.1.naturalMap
      let s := s.loadSlot
      let s : State := { s with lnk := { s.lnk with timeRef := timeRef } }
      s.atStep 6

/-! ## Step 9 (R416, R345) -/

/-- Resident firmware writes a register. -/
def State.fwWrite (s : State) (r : RegRef) (v : Word) : State :=
  (s.performWrite ⟨mCore 63, r.off, .w64, some v, none, s.now⟩ v).1

/-- Step 9: the firmware section is in handler memory, and the firmware cores run; they march every bank of the scratchpad in
mode 0 with repair. -/
def State.firmwareLoaded (s : State) : State :=
  if s.sec.step ≠ 6 ∨ !s.log.ring then s
  else
    let s : State := { s with hmem := s.hmem.write 0 (s.fwSection s.sec.cand) }
    let s := (((s.atStep 9).setFld SEC_BOOT_STATUS.state 0 0 2).startFwCores).bootWait
    let s := s.fwWrite ⟨.SPD_MARCH_MASK, 0, 0⟩ (BitVec.allOnes 64)
    s.fwWrite ⟨.SPD_MARCH_CTL, 0, 0⟩ (SPD_MARCH_CTL.start.mask ||| SPD_MARCH_CTL.repair.mask)

/-! ## Step 10 (R403 to R405, R416, R478) -/

/-- Firmware releases blocks through TOP_SETUP_DONE: a register write of a firmware core. -/
def State.releaseBlocks (s : State) (blocks : Nat) : State := s.fwWrite ⟨.TOP_SETUP_DONE, 0, 0⟩ (BitVec.ofNat 64 blocks)

/-- The blocks that stay in setup during replay: CMD, CTX, XLT, MAT, RMA, HDL and RSV (R405). -/
def replayBlocks : Nat := 2 ^ 2 + 2 ^ 3 + 2 ^ 4 + 2 ^ 5 + 2 ^ 6 + 2 ^ 11 + 2 ^ 14

/-- The CRC-32C in bytes 4 to 7 is that of the bytes with the field zero (R394, R395). -/
def crcHolds (bs : List Byte) : Bool := bytesAt bs 4 4 == (crc32c (bs.take 4 ++ [0, 0, 0, 0] ++ bs.drop 8)).toNat

/-- The superblock copy that counts: valid, and of the higher gen (R394). -/
def validCopy (copies : List (List Byte)) : Option (List Byte) :=
  (copies.filter fun c => c.length == 512 && crcHolds c).foldl (fun a c =>
    match a with
    | none => some c
    | some b => if bytesAt b 8 8 < bytesAt c 8 8 then some c else some b) none

/-- Every record from the first byte on is valid, the LSNs run from `lsn` on, and the last is a SEAL record with `last`. -/
def chainHolds (last : Nat) : Nat → Nat → List Byte → Bool
  | 0, _, _ => false
  | fuel + 1, lsn, bs =>
    let n := 64 * bytesAt bs 1 1
    let r := bs.take n
    (n == 64 || n == 128) && r.length == n && crcHolds r && bytesAt r 8 8 == lsn &&
      if (bs.drop n).isEmpty then bytesAt r 0 1 == 0x7F && lsn == last else chainHolds last fuel (lsn + 1) (bs.drop n)

/-- The ring bytes read are those from the superblock's tail_off to the end of its seal record. -/
def ringCovers (sb : List Byte) (n : Nat) : Bool :=
  let size := bytesAt sb 32 8
  n % 64 == 0 && 0 < n && n ≤ size && (bytesAt sb 48 8 + n) % size == (bytesAt sb 64 8 + 64) % size

/-- The checks of R403 in order: the code of the first that fails, 0 where all pass. -/
def State.journalCheck (s : State) (x : JournalRead) : Nat :=
  if !s.flag RSV_CFG.enable 0 0 then 1
  else if !x.readable || !s.targetReady then 6
  else match validCopy x.copies with
    | none => 2
    | some sb =>
      if bytesAt sb 80 1 ≠ 1 then 2
      else if !(ringCovers sb x.ring.length && chainHolds (bytesAt sb 56 8) x.ring.length (bytesAt sb 40 8) x.ring) then 3
      else if bytesAt sb 16 8 ≠ s.fld SEC_IDENTITY.identity 0 0 then 4
      else if bytesAt sb 72 8 < s.dirtyCount then 5
      else 0

/-- The journal is not trusted (R404): the failed check is recorded, the quarantine begins, blocks are released. -/
def State.distrust (s : State) (code blocks : Nat) : State :=
  let q := s.fld RSV_CFG.quarantine_ms 0 0
  let s := s.setFld RSV_STATUS.untrusted 0 0 code
  let s : State := if q = 0 then s else { s with rsv := { s.rsv with quarantineEnd := some (s.sec.bootAt + ms q) } }
  s.releaseBlocks blocks

/-- RSV goes on from a superblock: its generation counts, and where the journal is trusted, its place and its records, which
replay applies (R394, R405). -/
def State.takeJournal (s : State) (x : JournalRead) (trusted : Bool) : State :=
  match validCopy x.copies with
  | none => s
  | some sb =>
    let s : State := { s with rsv := { s.rsv with sbGen := bytesAt sb 8 8 } }
    if !trusted then s
    else { s with rsv := { s.rsv with
      journalId := bytesAt sb 24 8, tailLsn := bytesAt sb 40 8, tailOff := bytesAt sb 48 8
      nextLsn := bytesAt sb 56 8 + 1, ringOff := (bytesAt sb 64 8 + 64) % bytesAt sb 32 8, ring := x.ring } }

/-- Step 10: replay starts when the journal is trusted. It follows the march of step 9, and waits until PWRFAIL_N has been high
for 10 ms (R478). -/
def State.release (s : State) (x : JournalRead) : State :=
  if s.sec.step ≠ 9 ∨ s.pwr.pfLow ∨ s.spd.march.isSome ∨ s.fld SEC_BOOT_STATUS.state 0 0 = 3 then s
  else
    let code := s.journalCheck x
    let s := ((s.advance (s.pwr.pfAt + ms 10)).atStep 10).takeJournal x (code == 0)
    if code = 0 then ((s.setFld RSV_STATUS.state 0 0 1).startReplayCores).releaseBlocks (2 ^ 20 - 1 - replayBlocks)
    else s.distrust code (2 ^ 20 - 1)

/-- Replay ends, and the remaining blocks leave setup (R405); data that cannot be read is a target error, and the journal is
not trusted (R412). -/
def State.replayEnd (s : State) (readable : Bool) (t : Nat) : State :=
  if s.fld RSV_STATUS.state 0 0 ≠ 1 then s
  else
    let s := s.advance (s.sec.bootAt + ms t)
    if readable then s.replay.endReplayCores.releaseBlocks replayBlocks
    else
      let s : State := { s with rsv := { s.rsv with ring := [] } }
      ((s.fault 14 1 0).setFld RSV_STATUS.state 0 0 0).endReplayCores.distrust 6 replayBlocks

/-- The quarantine ends (R404). -/
def State.quarantineOver (s : State) : State :=
  match s.rsv.quarantineEnd with
  | none => s
  | some t =>
    let s := s.advance t
    { s with rsv := { s.rsv with quarantineEnd := none } }

end Sys2Proof.Machine
end

