-- ==== Sys2Proof/Machine/ExecHif.lean ====
section
/-!
DEFINITION. The commands of the register space and of HIF: REGISTER_WRITE to HDM_CFG_WRITE of the table.
-/
set_option Elab.async false
namespace Sys2Proof.Machine

/-- What a command answers: always a next state. -/
abbrev Res := Host.Outcome State Fault Refusal

/-- REGISTER_WRITE (R11 to R15, R30, R48): a master that reaches the register space directly writes an offset of it, or the host
writes an offset of a virtual function's page. -/
def execRegisterWrite (m : Master) (place : RegPlace) (size : ReqSize) (val : Word) (s : State) : Res :=
  let s1 := s.rxBytes m.toNat (if size = .w64 then 8 else 4)
  match place with
  | .space off => .next ((if directMaster m.toNat then s1.masterAccess m.toNat off.toNat size (some val) else s).done s)
  | .vfPage p v off => .next ((s1.vfPageWrite p.val (v.val + 1) off.toNat size val).done s)
  | .dbPage pg off => .next ((s1.dbPageWrite m.toNat (s.pageCtx pg) off.toNat val.toNat).done s)

/-- NODE_COORD_WRITE (R33, R34). -/
def execNodeCoordWrite (m : Master) (w : WVal) (s : State) : Res :=
  .next ((s.regWrite m.toNat ⟨.TOP_NODE_COORD, 0, 0⟩ w).done s)

/-- SETUP_DONE_WRITE (R35). -/
def execSetupDoneWrite (m : Master) (w : WVal) (s : State) : Res :=
  .next ((s.regWrite m.toNat ⟨.TOP_SETUP_DONE, 0, 0⟩ w).done s)

/-- HOST_LINK_TRAINED (R40, R41). -/
def execHostLinkTrained (p : HPort) (k : SubLink) (width : Nat) (link : LinkEnd) (s : State) : Res :=
  .next ((s.linkTrained p.val k.val width link.speed link.dev).done s)

/-- PORT_CFG_WRITE (R44). -/
def execPortCfgWrite (m : Master) (p : HPort) (w : WVal) (s : State) : Res :=
  .next ((s.regWrite m.toNat ⟨.HIF_PORT_CFG, p.val, 0⟩ w).done s)

/-- PORT_SETUP_EXIT (R42). -/
def execPortSetupExit (m : Master) (p : HPort) (s : State) : Res :=
  .next ((s.regWrite m.toNat ⟨.HIF_PORT_CTL, p.val, 0⟩ ⟨.full, 2⟩).done s)

/-- PORT_RESET_CMD (R62). -/
def execPortResetCmd (m : Master) (p : HPort) (s : State) : Res :=
  .next ((s.regWrite m.toNat ⟨.HIF_PORT_CTL, p.val, 0⟩ ⟨.full, 1⟩).done s)

/-- HOT_RESET: a hot reset or link disable from upstream, on a link that is up (R62). -/
def execHotReset (p : HPort) (s : State) : Res :=
  .next ((if s.endpoint p.val && s.fld HIF_PORT_STATUS.sublink_up p.val 0 != 0 then s.portReset p.val else s).done s)

/-- PERST_ASSERT (R62). -/
def execPerstAssert (p : HPort) (s : State) : Res := .next ((s.perstLow p.val).done s)

/-- PERST_DEASSERT (R417). -/
def execPerstDeassert (p : HPort) (s : State) : Res := .next ((s.perstHigh p.val).done s)

/-- HOST_DL_DOWN: the link of an endpoint port that is up goes to DL_Down (R62). -/
def execHostDlDown (p : HPort) (s : State) : Res :=
  .next ((if s.endpoint p.val && s.fld HIF_PORT_STATUS.sublink_up p.val 0 != 0 then s.portReset p.val else s).done s)

/-- CONFIG_REQUEST (R60). -/
def execConfigRequest (p : HPort) (f : Fn) (req : CfgReq) (s : State) : Res :=
  .next ((s.cfgRequest p.val f.val req).done s)

/-- FLR_INITIATE: a configuration write to a function that answers (R59). -/
def execFlrInitiate (p : HPort) (f : Fn) (s : State) : Res :=
  .next ((if s.fnAnswers p.val f.val then s.fnReset p.val f.val else s).done s)

/-- FLR_COMPLETE (R59, step 6). -/
def execFlrComplete (p : HPort) (f : Fn) (s : State) : Res := .next ((s.fnDone p.val f.val).done s)

/-- VF_REG_DATA_READ (R48, R49): a read of the page, at HIF_VF_REG_DATA or any other offset. -/
def execVfRegDataRead (p : HPort) (v : Vf) (acc : PageAccess) (s : State) : Res :=
  .next ((s.vfPageRead p.val (v.val + 1) acc.off.toNat acc.size).done s)

/-- VF_REG_DATA_WRITE (R49). -/
def execVfRegDataWrite (p : HPort) (v : Vf) (size : ReqSize) (val : Word) (s : State) : Res :=
  .next (((s.rxBytes (mHost p.val (v.val + 1)) (if size = .w64 then 8 else 4)).vfPageWrite p.val (v.val + 1) 0x1010 size
    val).done s)

/-- VF_TBL_DATA_READ (R50). -/
def execVfTblDataRead (m : Master) (p : HPort) (size : ReqSize) (s : State) : Res :=
  .next ((s.directAccess m.toNat (RegRef.mk .HIF_VF_TBL_DATA p.val 0).off size none).done s)

/-- VF_TBL_DATA_WRITE (R50). -/
def execVfTblDataWrite (m : Master) (p : HPort) (w : WVal) (s : State) : Res :=
  .next ((s.regWrite m.toNat ⟨.HIF_VF_TBL_DATA, p.val, 0⟩ w).done s)

/-- INTX_ACK (R53). -/
def execIntxAck (m : Master) (p : HPort) (w : WVal) (s : State) : Res :=
  .next ((s.regWrite m.toNat ⟨.HIF_INTX_ACK, p.val, 0⟩ w).done s)

/-- MSIX_ENABLE_CHANGE (R54). -/
def execMsixEnableChange (p : HPort) (f : Fn) (en : Bool) (s : State) : Res :=
  .next ((s.msixEnable p.val f.val en).done s)

/-- INTX_DISABLE_CHANGE (R54). -/
def execIntxDisableChange (p : HPort) (dis : Bool) (s : State) : Res := .next ((s.intxDisable p.val dis).done s)

/-- SLOT_POWER_OFF (R64). -/
def execSlotPowerOff (m : Master) (p : HPort) (k : SubLink) (w : WVal) (s : State) : Res :=
  .next ((s.regWrite m.toNat ⟨.HIF_DS_SLOT_CTL, p.val, k.val⟩ w).done s)

/-- SLOT_POWER_ON (R64). -/
def execSlotPowerOn (m : Master) (p : HPort) (k : SubLink) (w : WVal) (s : State) : Res :=
  .next ((s.regWrite m.toNat ⟨.HIF_DS_SLOT_CTL, p.val, k.val⟩ w).done s)

/-- SLOT_POWER_REMOVE: once dll_active reads 0, or 1 ms after the write (R64). -/
def execSlotPowerRemove (p : HPort) (k : SubLink) (s : State) : Res :=
  match (s.sub p.val k.val).offBy with
  | none => .next s
  | some t =>
    let s1 := if s.flag HIF_DS_SLOT_STATUS.dll_active p.val k.val then s.advance t else s
    .next ((s1.slotOff p.val k.val).done s)

/-- SLOT_PERST_RELEASE: 100 ms after slot power was applied (R483). -/
def execSlotPerstRelease (p : HPort) (k : SubLink) (s : State) : Res :=
  let v := s.sub p.val k.val
  if !v.powered || !v.perst || v.offBy.isSome || s.flag HIF_DS_SLOT_CTL.pwr_ctl p.val k.val then .next s
  else
    let s1 := s.advance (v.onAt + ms 100)
    .next (((s1.setSub p.val k.val { v with perst := false }).emit (.slotPerst p.val k.val false)).done s)

/-- PRESENCE_CHANGE (R63, R65). -/
def execPresenceChange (p : HPort) (k : SubLink) (present : Bool) (s : State) : Res :=
  .next ((s.presence p.val k.val present).done s)

/-- DLL_ACTIVE_CHANGE (R40, R63, R65). -/
def execDllActiveChange (p : HPort) (k : SubLink) (active : Bool) (width : Nat) (link : LinkEnd) (s : State) : Res :=
  if !active then .next ((s.dllChange p.val k.val false 0 0).done s)
  else if !(s.dllMay p.val k.val && s.linkFits p.val width link.speed) then .next s
  else .next ((s.subUp p.val k.val width link.speed link.dev).done s)

/-- POWER_FAULT (R65). -/
def execPowerFault (p : HPort) (k : SubLink) (s : State) : Res := .next ((s.slotFault p.val k.val).done s)

/-- ATTENTION_BUTTON (R483). -/
def execAttentionButton (p : HPort) (k : SubLink) (s : State) : Res := .next ((s.attention p.val k.val).done s)

/-- DS_CFG_READ (R67). -/
def execDsCfgRead (m : Master) (p : HPort) (k : SubLink) (s : State) : Res :=
  .next ((s.regRead m.toNat ⟨.HIF_DS_CFG_DATA, p.val, k.val⟩ .full).done s)

/-- DS_CFG_WRITE (R67). -/
def execDsCfgWrite (m : Master) (p : HPort) (k : SubLink) (w : WVal) (s : State) : Res :=
  .next ((s.regWrite m.toNat ⟨.HIF_DS_CFG_DATA, p.val, k.val⟩ w).done s)

/-- DS_CFG_COMPLETE (R67). -/
def execDsCfgComplete (p : HPort) (k : SubLink) (r : DsResult) (s : State) : Res :=
  .next ((s.dsComplete p.val k.val true r).done s)

/-- DS_MEM_READ (R66). -/
def execDsMemRead (m : Master) (p : HPort) (k : SubLink) (s : State) : Res :=
  .next ((s.regRead m.toNat ⟨.HIF_DS_MEM_DATA, p.val, k.val⟩ .full).done s)

/-- DS_MEM_WRITE (R66, R67). -/
def execDsMemWrite (m : Master) (p : HPort) (k : SubLink) (w : WVal) (s : State) : Res :=
  .next ((s.regWrite m.toNat ⟨.HIF_DS_MEM_DATA, p.val, k.val⟩ w).done s)

/-- DS_MEM_COMPLETE (R67). -/
def execDsMemComplete (p : HPort) (k : SubLink) (r : DsResult) (s : State) : Res :=
  .next ((s.dsComplete p.val k.val false r).done s)

/-- DS_ACCESS_TIMEOUT: 1 ms after the access was issued (R67). -/
def execDsAccessTimeout (p : HPort) (k : SubLink) (s : State) : Res :=
  match s.hif.ds with
  | some d => if d.p = p.val ∧ d.s = k.val then .next (((s.advance (d.at_ + ms 1)).dsFail d).done s) else .next s
  | none => .next s

/-- DS_INBOUND_REQUEST (R68). -/
def execDsInboundRequest (p : HPort) (k : SubLink) (kind : DsInbound) (s : State) : Res :=
  .next ((s.dsInbound p.val k.val kind).done s)

/-- HDM_CFG_WRITE (R69). -/
def execHdmCfgWrite (m : Master) (p : HPort) (k : SubLink) (w : WVal) (s : State) : Res :=
  .next ((s.regWrite m.toNat ⟨.HIF_DS_HDM_CFG, p.val, k.val⟩ w).done s)

/-! ## The ends of host requests and what the base specification reports (R45, R417) -/

/-- HOST_READ_COMPLETION: the data of a read of the gathers; descriptors, loader entries, AtomicOps and seals have commands
of their own. -/
def execHostReadCompletion (p : HPort) (tag : Nat) (data : List Byte) (s : State) : Res :=
  .next ((s.readDone p.val tag data).done s)

/-- HOST_COMPLETION_TIMEOUT (R384). -/
def execHostCompletionTimeout (p : HPort) (tag : Nat) (s : State) : Res := .next ((s.readLost p.val tag).done s)

/-- FUNCTION_READY (R417). -/
def execFunctionReady (p : HPort) (f : Fn) (s : State) : Res := .next ((s.fnReady p.val f.val).done s)

/-- AER_ERROR (R45, R384). -/
def execAerError (p : HPort) (uncorrectable : Bool) (s : State) : Res := .next ((s.aer p.val uncorrectable).done s)

end Sys2Proof.Machine
end

