-- ==== Sys2Proof/Machine/ExecCmd.lean ====
section
/-!
DEFINITION. The commands of CMD and the dispatch of each opcode: DOORBELL_TAIL to HANDLE_QUERY of the table.
-/
set_option Elab.async false
namespace Sys2Proof.Machine

/-- DOORBELL_TAIL (R77, R80, R117). -/
def execDoorbellTail (m : Master) (pg : DbPage) (v : Word) (s : State) : Res :=
  .next (((s.rxBytes m.toNat 8).dbPageWrite m.toNat (s.pageCtx pg) 0x000 v.toNat).done s)

/-- CQ_HEAD_WRITE (R78). -/
def execCqHeadWrite (m : Master) (pg : DbPage) (v : Word) (s : State) : Res :=
  .next (((s.rxBytes m.toNat 8).dbPageWrite m.toNat (s.pageCtx pg) 0x008 v.toNat).done s)

/-- CQ_ARM (R79). -/
def execCqArm (m : Master) (pg : DbPage) (v : Word) (s : State) : Res :=
  .next (((s.rxBytes m.toNat 8).dbPageWrite m.toNat (s.pageCtx pg) 0x010 v.toNat).done s)

/-- INLINE_DOORBELL (R82). -/
def execInlineDoorbell (m : Master) (pg : DbPage) (d : Option Descriptor) (s : State) : Res :=
  let c := s.pageCtx pg
  .next (((s.rxBytes m.toNat 64).doorbell m.toNat c fun s => s.dbInline m.toNat c d).done s)

/-- DESCRIPTOR_FETCH (R84, R85). -/
def execDescriptorFetch (c : Nat) (s : State) : Res := .next ((s.fetchDescriptors c).done s)

/-- DESCRIPTOR_RETURN (R84, R87). -/
def execDescriptorReturn (c : Nat) (ds : List Descriptor) (s : State) : Res :=
  .next (((match (s.ctx c).fetching with
    | some _ => s.pmcEv 1 2 (s.ctx c).port 0 (64 * ds.length)
    | none => s).returnDescriptors c ds).done s)

/-- A handle that is the next of its context and whose descriptor passes a test is dispatched. -/
def State.dispatchIf (s : State) (r : HandleRef) (test : Descriptor → Bool) : State :=
  match s.handle? r with
  | some h => if test h.desc && s.dispatchable h then s.dispatch h else s
  | none => s

/-- NOP (R22). -/
def execNop (h : HandleRef) (s : State) : Res := .next ((s.dispatchIf h fun d => dOpcode d == 0).done s)

/-- PUT (R92, R170). -/
def execPut (h : HandleRef) (s : State) : Res := .next ((s.dispatchIf h fun d => dOpcode d == 1).done s)

/-- GET (R93, R170). -/
def execGet (h : HandleRef) (s : State) : Res := .next ((s.dispatchIf h fun d => dOpcode d == 2).done s)

/-- ATOMIC (R94). -/
def execAtomic (h : HandleRef) (s : State) : Res := .next ((s.dispatchIf h fun d => dOpcode d == 3).done s)

/-- SEND (R95, R137). -/
def execSend (h : HandleRef) (s : State) : Res := .next ((s.dispatchIf h fun d => dOpcode d == 4).done s)

/-- RECV_POST (R96, R146). -/
def execRecvPost (h : HandleRef) (s : State) : Res := .next ((s.dispatchIf h fun d => dOpcode d == 5).done s)

/-- RECV_CANCEL (R161). -/
def execRecvCancel (h : HandleRef) (s : State) : Res := .next ((s.dispatchIf h fun d => dOpcode d == 6).done s)

/-- COLL with sub 0x01 (R207). -/
def execCollBroadcast (h : HandleRef) (s : State) : Res :=
  .next ((s.dispatchIf h fun d => dOpcode d == 7 && dSub d == 1).done s)

/-- COLL with sub 0x02. -/
def execCollReduce (h : HandleRef) (s : State) : Res :=
  .next ((s.dispatchIf h fun d => dOpcode d == 7 && dSub d == 2).done s)

/-- COLL with sub 0x03. -/
def execCollAllreduce (h : HandleRef) (s : State) : Res :=
  .next ((s.dispatchIf h fun d => dOpcode d == 7 && dSub d == 3).done s)

/-- COLL with sub 0x04. -/
def execCollReduceScatter (h : HandleRef) (s : State) : Res :=
  .next ((s.dispatchIf h fun d => dOpcode d == 7 && dSub d == 4).done s)

/-- COLL with sub 0x05. -/
def execCollAllgather (h : HandleRef) (s : State) : Res :=
  .next ((s.dispatchIf h fun d => dOpcode d == 7 && dSub d == 5).done s)

/-- COLL with sub 0x06. -/
def execCollBarrier (h : HandleRef) (s : State) : Res :=
  .next ((s.dispatchIf h fun d => dOpcode d == 7 && dSub d == 6).done s)

/-- FENCE with sub 0x01 (R194). -/
def execFenceContext (h : HandleRef) (s : State) : Res :=
  .next ((s.dispatchIf h fun d => dOpcode d == 8 && dSub d == 1).done s)

/-- FENCE with sub 0x02 (R194). -/
def execFenceTarget (h : HandleRef) (s : State) : Res :=
  .next ((s.dispatchIf h fun d => dOpcode d == 8 && dSub d == 2).done s)

/-- COUNTER_ARM (R192). -/
def execCounterArm (h : HandleRef) (s : State) : Res := .next ((s.dispatchIf h fun d => dOpcode d == 9).done s)

/-- TRIGGERED (R99, R193). -/
def execTriggered (h : HandleRef) (s : State) : Res := .next ((s.dispatchIf h fun d => dOpcode d == 0xA).done s)

/-- SEM with sub 0x01 (R351). -/
def execSemAcquireWait (h : HandleRef) (s : State) : Res :=
  .next ((s.dispatchIf h fun d => dOpcode d == 0xB && dSub d == 1).done s)

/-- SEM with sub 0x02 (R351). -/
def execSemTry (h : HandleRef) (s : State) : Res :=
  .next ((s.dispatchIf h fun d => dOpcode d == 0xB && dSub d == 2).done s)

/-- SEM with sub 0x03 (R351). -/
def execSemRelease (h : HandleRef) (s : State) : Res :=
  .next ((s.dispatchIf h fun d => dOpcode d == 0xB && dSub d == 3).done s)

/-- HANDLE_QUERY (R107). -/
def execHandleQuery (m : Master) (w : WVal) (s : State) : Res :=
  .next ((s.regWrite m.toNat ⟨.CMD_HANDLE_QUERY, 0, 0⟩ w).done s)

end Sys2Proof.Machine
end

