-- ==== Sys2Proof/Machine/ExecXlt.lean ====
section
/-!
DEFINITION. The commands of CTX and XLT: CTX_READ to FMEM_HOST_ACCESS of the table.
-/
set_option Elab.async false
namespace Sys2Proof.Machine

/-- An event of the data path happens only while the data path runs (R386, R401). -/
def State.ifRuns (s : State) (f : State → State) : State := if s.frozen then s else f s

/-- An event that falls due at a time happens then, or later (log entry 5). -/
def State.due (s : State) (t : Nat) (f : State → State) : State := f (s.advance t)

/-- CTX_READ (R110). -/
def execCtxRead (m : Master) (s : State) : Res :=
  .next ((s.regWrite m.toNat ⟨.CTX_CMD, 0, 0⟩ ⟨.full, 1⟩).done s)

/-- CTX_OPEN (R111). -/
def execCtxOpen (m : Master) (s : State) : Res :=
  .next ((s.regWrite m.toNat ⟨.CTX_CMD, 0, 0⟩ ⟨.full, 2⟩).done s)

/-- CTX_CLOSE (R112). -/
def execCtxClose (m : Master) (s : State) : Res :=
  .next ((s.regWrite m.toNat ⟨.CTX_CMD, 0, 0⟩ ⟨.full, 3⟩).done s)

/-- CONTEXT_CLOSED (R112). -/
def execContextClosed (c : Nat) (s : State) : Res := .next ((s.contextClosed c).done s)

/-- CONTEXT_FILL (R116). -/
def execContextFill (c : Nat) (s : State) : Res := .next ((s.contextFill c).done s)

/-- WINDOW_COMMIT (R121). -/
def execWindowCommit (m : Master) (w : WVal) (s : State) : Res :=
  .next ((s.regWrite m.toNat ⟨.XLT_WIN_COMMIT, 0, 0⟩ w).done s)

/-- A pending commit whose inactive image has no pins is applied (R122), once RSV takes reports (R399). -/
def State.applyPending (s : State) (e : Nat) : State :=
  let v := s.win e
  match v.queued with
  | none => s
  | some img => if v.pins (!v.active) = 0 ∧ !s.rsvHeld then s.applyCommit (mDev 4) e img else s

/-- PENDING_COMMIT_APPLY (R122). -/
def execPendingCommitApply (idx : Nat) (s : State) : Res := .next ((s.applyPending idx).done s)

/-- The pin of an operation whose last packet is older than the limit is released (R120). -/
def State.pinLimitEnd (s : State) (r : OpRef) : State :=
  match s.op? r.ctx r.remote r.osn with
  | none => s
  | some v => if v.pinned then s.due (v.lastTime + s.pinLimit + 1) fun s => s.pinExpire v else s

/-- PIN_LIMIT_EXPIRE (R120). -/
def execPinLimitExpire (op : OpRef) (s : State) : Res := .next ((s.ifRuns fun s => s.pinLimitEnd op).done s)

/-- XLT_ENTRY_WRITE (R127). -/
def execXltEntryWrite (m : Master) (w : WVal) (s : State) : Res :=
  .next ((s.regWrite m.toNat ⟨.XLT_ENTRY_DATA, 0, 0⟩ w).done s)

/-- LOADER_START (R127). -/
def execLoaderStart (m : Master) (w : WVal) (s : State) : Res :=
  .next ((s.regWrite m.toNat ⟨.XLT_LOAD_CTL, 0, 0⟩ w).done s)

/-- LOADER_ENTRY (R127). -/
def execLoaderEntry (e : Option Word) (s : State) : Res := .next ((s.ifRuns fun s => s.loaderEntry e).done s)

/-- SYNC_START (R128). -/
def execSyncStart (m : Master) (s : State) : Res :=
  .next ((s.regWrite m.toNat ⟨.XLT_SYNC, 0, 0⟩ ⟨.full, 1⟩).done s)

/-- SYNC_DONE (R128). -/
def execSyncDone (s : State) : Res := .next (s.syncDone.done s)

/-- A BAR6 access of host port `p` (R36, R132, R385, R386). -/
def State.fmemAccess (s : State) (p addr : Nat) (op : MemOp) : State :=
  match op with
  | .read n =>
    if s.stopped then s.emit (.memDone p (List.replicate n 0) false)
    else if s.fmemSize < addr + n then
      (s.faultBy 4 5 (mHost p 0) p).emit (.memDone p (List.replicate n 0) false)
    else
      let bad := s.hbmBad (s.hbmAddr addr) n
      let bs := if bad then List.replicate n 0xFF else s.fmem.read addr n
      (s.pmcEv 19 1 (hbmChannel (s.hbmAddr addr)) 0 n).emit (.memDone p bs bad)
  | .write bs =>
    let s := s.rxBytes (mHost p 0) bs.length
    if s.stopped then s
    else if s.fmemSize < addr + bs.length then s.faultBy 4 5 (mHost p 0) p
    else s.fmemStore addr bs

/-- FMEM_HOST_ACCESS (R132), at a port in endpoint mode. -/
def execFmemHostAccess (p : HPort) (addr : Nat) (op : MemOp) (s : State) : Res :=
  .next ((if s.endpoint p.val then s.fmemAccess p.val addr op else s).done s)

end Sys2Proof.Machine
end

