-- ==== Sys2Proof/Machine/ExecMat.lean ====
section
/-!
DEFINITION. The commands of MAT: SEND_HOLD_RELEASE to ORDER_RESET of the table, and PULL_ROUTE_TIMEOUT.
-/
set_option Elab.async false
namespace Sys2Proof.Machine

/-- The block that must answer a request: RMA, MAT, and CSC for a re-request. -/
def requestTo (p : Packet) : Option Nat :=
  if [0, 1, 3].contains (pType p) then some 6
  else if pType p = 7 ∧ [0, 1, 4].contains (pMop p) then some 5
  else if pType p = 8 ∧ xCtype p = 1 then some 7
  else none

/-- The block whose answer a packet is. -/
def answerOf (p : Packet) : Option Nat :=
  if [2, 4, 5, 6].contains (pType p) then some 6
  else if pType p = 7 ∧ [2, 3, 5, 6, 7].contains (pMop p) then some 5
  else if pType p = 8 ∧ (xCtype p = 0 ∨ xCtype p = 2) then some 7
  else none

/-- The answers of a block that RTE has not sent on yet. -/
def State.answersWaiting (s : State) (b : Nat) : Nat :=
  (s.rte.pkts.filter fun x => x.src.isNone && answerOf x.pkt == some b).length

/-- A block has room to queue an answer: none waits, or fewer than the node holds (log entry 25). -/
def State.answerRoom (s : State) (b : Nat) : Bool := s.answersWaiting b == 0 || s.answersWaiting b < Config.answerSlots b

/-- A request that must be answered finds no room for the answer (R243). -/
def State.answerFull (s : State) (p : Packet) : Option Nat := (requestTo p).filter fun b => !s.answerRoom b

/-- A packet that RTE delivers at this node reaches its block (R24, R25): it is no longer among those that RTE has handed
over. A packet that is not of the command's kind, or for another node, changes nothing; one that finds the data path stopped
is discarded (R386, R401), and so is a request whose answer finds no room, which is counted (R243). -/
def State.arrive (s : State) (p : Packet) (test : Bool) (f : State → State) : State :=
  if !test || pDstNode p != s.node then s
  else
    let s := s.takeDelivered p
    if s.frozen then s
    else match s.answerFull p with
    | some b => (s.fault b 3 0).endDelivered p false
    | none =>
      let t := f s
      t.endDelivered p (t.rte.nextId != s.rte.nextId || t.delivered.length != s.delivered.length)

/-- A packet of MAT (R239) with one of the given kinds. -/
def isMat (p : Packet) (mops : List Nat) : Bool := pType p == 7 && mops.contains (pMop p)

/-- A SEND that waits for a peer record is dispatched (R137). -/
def State.sendRelease (s : State) (r : HandleRef) : State :=
  match s.handle? r with
  | none => s
  | some h =>
    if dOpcode h.desc = 4 ∧ h.phase = .held ∧ !s.heldBehind h ∧ !s.inSetup 5 then s.dispatch h else s

/-- SEND_HOLD_RELEASE (R137). -/
def execSendHoldRelease (h : HandleRef) (s : State) : Res := .next ((s.ifRuns fun s => s.sendRelease h).done s)

/-- SEND_PACKET_ARRIVAL (R140). -/
def execSendPacketArrival (pkt : Packet) (s : State) : Res :=
  .next ((s.arrive pkt (isMat pkt [0]) fun s => s.matArrive pkt).done s)

/-- PULL_REQUEST_ARRIVAL (R153). -/
def execPullRequestArrival (pkt : Packet) (s : State) : Res :=
  .next ((s.arrive pkt (isMat pkt [4]) fun s => s.pullRequest pkt).done s)

/-- PULL_RESPONSE_ARRIVAL (R153). -/
def execPullResponseArrival (pkt : Packet) (s : State) : Res :=
  .next ((s.arrive pkt (isMat pkt [5]) fun s => s.pullResponse pkt).done s)

/-- FINISH_NOTICE_ARRIVAL (R152). -/
def execFinishNoticeArrival (pkt : Packet) (s : State) : Res :=
  .next ((s.arrive pkt (isMat pkt [6]) fun s => s.finishRecv pkt).done s)

/-- PLACEMENT_REPORT_ARRIVAL (R152). -/
def execPlacementReportArrival (pkt : Packet) (s : State) : Res :=
  .next ((s.arrive pkt (isMat pkt [2]) fun s => s.placementReport pkt).done s)

/-- WITHDRAWAL_ARRIVAL (R155). -/
def execWithdrawalArrival (pkt : Packet) (s : State) : Res :=
  .next ((s.arrive pkt (isMat pkt [1]) fun s => s.matArrive pkt).done s)

/-- WITHDRAWAL_ANSWER_ARRIVAL (R154). -/
def execWithdrawalAnswerArrival (pkt : Packet) (s : State) : Res :=
  .next ((s.arrive pkt (isMat pkt [3]) fun s => s.withdrawalAnswer pkt).done s)

/-- MAT_REFUSAL_ARRIVAL (R152). -/
def execMatRefusalArrival (pkt : Packet) (s : State) : Res :=
  .next ((s.arrive pkt (isMat pkt [7]) fun s => s.matRefused pkt).done s)

/-- The firmware acts on none of its work while an activation replaces its code (R431). -/
def State.ifFirmware (s : State) (f : State → State) : State :=
  if s.fld SEC_UPDATE_STATUS.state 0 0 = 3 then s else s.ifRuns f

/-- FIRMWARE_PROBE_RESULT (R157). -/
def execFirmwareProbeResult (c : Nat) (s : State) : Res := .next ((s.ifFirmware fun s => s.firmwareProbe c).done s)

/-- A busy retry of an operation falls due (R159, R177). -/
def State.busyEnd (s : State) (r : HandleRef) : State :=
  match s.handle? r with
  | none => s
  | some h =>
    match h.busyRetryAt (s.openParts h) with
    | none => s
    | some t => s.due t fun s => s.resendOp h

/-- BUSY_RETRY_EXPIRE (R159, R177). -/
def execBusyRetryExpire (h : HandleRef) (s : State) : Res := .next ((s.ifRuns fun s => s.busyEnd h).done s)

/-- RECV_HOLD_RELEASE (R159). -/
def execRecvHoldRelease (c : Nat) (s : State) : Res :=
  .next ((s.ifRuns fun s => s.recvRelease c s.mat.held.length).done s)

/-- ORDER_RESET (R167). -/
def execOrderReset (m : Master) (w : WVal) (s : State) : Res :=
  .next ((s.regWrite m.toNat ⟨.MAT_ORDER_RESET, 0, 0⟩ w).done s)

/-- A pull whose source has had no route for timeout_us of the receiving context is given up (R153). -/
def State.pullLimit (s : State) (r : HandleRef) : State :=
  match s.boundFor r with
  | none => s
  | some b =>
    match b.lostAt with
    | some t =>
      if b.pull && !s.hasRoute (epNode b.src) then s.due (t + us (s.ctx b.ctx).timeoutUs) fun s => s.pullLost b else s
    | none => s

/-- PULL_ROUTE_TIMEOUT (R153). -/
def execPullRouteTimeout (h : HandleRef) (s : State) : Res := .next ((s.ifRuns fun s => s.pullLimit h).done s)

end Sys2Proof.Machine
end

