-- ==== Sys2Proof/Machine/ExecRma.lean ====
section
/-!
DEFINITION. The commands of RMA: PUT_DATA_ARRIVAL to CTR_WORD_WRITE of the table.
-/
set_option Elab.async false
namespace Sys2Proof.Machine

/-- PUT_DATA_ARRIVAL (R176). -/
def execPutDataArrival (pkt : Packet) (s : State) : Res :=
  .next ((s.arrive pkt (pType pkt == 0) fun s => s.rmaArrive pkt).done s)

/-- GET_REQUEST_ARRIVAL (R180). -/
def execGetRequestArrival (pkt : Packet) (s : State) : Res :=
  .next ((s.arrive pkt (pType pkt == 1) fun s => s.rmaArrive pkt).done s)

/-- GET_RESPONSE_ARRIVAL (R172). -/
def execGetResponseArrival (pkt : Packet) (s : State) : Res :=
  .next ((s.arrive pkt (pType pkt == 2) fun s => s.getResponse pkt).done s)

/-- An ATOMIC request with an operation code (R185). -/
def isAtomic (p : Packet) (code : Nat) : Bool := pType p == 3 && pAtomOp p == code

/-- FETCH_ADD (R185). -/
def execFetchAdd (pkt : Packet) (s : State) : Res :=
  .next ((s.arrive pkt (isAtomic pkt 0x01) fun s => s.rmaArrive pkt).done s)

/-- FETCH_AND (R185). -/
def execFetchAnd (pkt : Packet) (s : State) : Res :=
  .next ((s.arrive pkt (isAtomic pkt 0x02) fun s => s.rmaArrive pkt).done s)

/-- FETCH_OR (R185). -/
def execFetchOr (pkt : Packet) (s : State) : Res :=
  .next ((s.arrive pkt (isAtomic pkt 0x03) fun s => s.rmaArrive pkt).done s)

/-- FETCH_XOR (R185). -/
def execFetchXor (pkt : Packet) (s : State) : Res :=
  .next ((s.arrive pkt (isAtomic pkt 0x04) fun s => s.rmaArrive pkt).done s)

/-- SWAP (R185). -/
def execSwap (pkt : Packet) (s : State) : Res :=
  .next ((s.arrive pkt (isAtomic pkt 0x05) fun s => s.rmaArrive pkt).done s)

/-- CSWAP (R185). -/
def execCswap (pkt : Packet) (s : State) : Res :=
  .next ((s.arrive pkt (isAtomic pkt 0x06) fun s => s.rmaArrive pkt).done s)

/-- FETCH_MIN_S (R185). -/
def execFetchMinS (pkt : Packet) (s : State) : Res :=
  .next ((s.arrive pkt (isAtomic pkt 0x07) fun s => s.rmaArrive pkt).done s)

/-- FETCH_MAX_S (R185). -/
def execFetchMaxS (pkt : Packet) (s : State) : Res :=
  .next ((s.arrive pkt (isAtomic pkt 0x08) fun s => s.rmaArrive pkt).done s)

/-- FETCH_MIN_U (R185). -/
def execFetchMinU (pkt : Packet) (s : State) : Res :=
  .next ((s.arrive pkt (isAtomic pkt 0x09) fun s => s.rmaArrive pkt).done s)

/-- FETCH_MAX_U (R185). -/
def execFetchMaxU (pkt : Packet) (s : State) : Res :=
  .next ((s.arrive pkt (isAtomic pkt 0x0A) fun s => s.rmaArrive pkt).done s)

/-- FETCH_ADD_F64 (R186). -/
def execFetchAddF64 (pkt : Packet) (s : State) : Res :=
  .next ((s.arrive pkt (isAtomic pkt 0x0B) fun s => s.rmaArrive pkt).done s)

/-- CSWAP128 (R185). -/
def execCswap128 (pkt : Packet) (s : State) : Res :=
  .next ((s.arrive pkt (isAtomic pkt 0x0C) fun s => s.rmaArrive pkt).done s)

/-- ATOMICOP_COMPLETION (R187). -/
def execAtomicopCompletion (op : OpRef) (r : HostResult) (s : State) : Res :=
  .next ((s.ifRuns fun s => s.atomicOpDone op r).done s)

/-- ATOMIC_RESPONSE_ARRIVAL (R172). -/
def execAtomicResponseArrival (pkt : Packet) (s : State) : Res :=
  .next ((s.arrive pkt (pType pkt == 4) fun s => s.atomicResponse pkt).done s)

/-- PUT_RESPONSE_ARRIVAL (R172). -/
def execPutResponseArrival (pkt : Packet) (s : State) : Res :=
  .next ((s.arrive pkt (pType pkt == 5) fun s => s.putResponse pkt).done s)

/-- REFUSAL_ARRIVAL (R172). -/
def execRefusalArrival (pkt : Packet) (s : State) : Res :=
  .next ((s.arrive pkt (pType pkt == 6) fun s => s.refusalRecv pkt).done s)

/-- The re-send timer of a handle, of a withdrawal whose handle has completed, or of a pull expires (R153, R154, R159,
R181). -/
def State.resendEnd (s : State) : ResendRef → State
  | .handle r =>
    match s.handle? r with
    | some h =>
      if h.phase ≠ .active then s
      else match h.resendAt s.retryPs (s.openParts h) with
        | some t => s.due t fun s => s.resendOp h
        | none => s
    | none =>
      match s.mat.lost.find? fun l => l.ctx == r.ctx && l.index == r.index with
      | some l => s.due (l.lastTx + s.retryPs) fun s => s.resendLost l
      | none => s
  | .pull r =>
    match s.boundFor r with
    | some b =>
      if b.pull && !b.unpulled.isEmpty then
        s.due (b.lastTx + s.retryPs) fun s => s.resendPull b
      else s
    | none => s

/-- RESEND_TIMER_EXPIRE (R181). -/
def execResendTimerExpire (r : ResendRef) (s : State) : Res := .next ((s.ifRuns fun s => s.resendEnd r).done s)

/-- timeout_us has passed since the dispatch of a handle of PUT, GET, ATOMIC, SEND or COLL, or since the withdrawal of a
SEND has found no route (R4, R103, R154, R182, R226). -/
def State.timeoutEnd (s : State) (r : HandleRef) : State :=
  match s.handle? r with
  | none => s
  | some h =>
    let t := h.dispAt + us (s.ctx h.ctx).timeoutUs
    if h.phase ≠ .active then s
    else match dOpcode h.desc with
      | 1 => s.due t fun s => s.timeoutRma h
      | 2 => s.due t fun s => s.timeoutRma h
      | 3 => s.due t fun s => s.timeoutRma h
      | 4 =>
        match h.wd, h.lostAt with
        | .none, _ => s.due t fun s => s.timeoutSend h
        | .sent, some u =>
          if s.hasRoute (epNode (dTarget h.desc)) then s
          else s.due (u + us (s.ctx h.ctx).timeoutUs) fun s => s.sendLost h
        | _, _ => s
      | 7 => s.due t fun s => s.timeoutColl h
      | _ => s

/-- OPERATION_TIMEOUT (R182). -/
def execOperationTimeout (h : HandleRef) (s : State) : Res := .next ((s.ifRuns fun s => s.timeoutEnd h).done s)

/-- CTR_VALUE_WRITE (R199). -/
def execCtrValueWrite (m : Master) (w : WVal) (s : State) : Res :=
  .next ((s.regWrite m.toNat ⟨.RMA_CTR_VALUE, 0, 0⟩ w).done s)

/-- CTR_WORD_WRITE (R199). -/
def execCtrWordWrite (m : Master) (n : Fin 4096) (w : WVal) (s : State) : Res :=
  .next ((s.regWrite m.toNat ⟨.RMA_CTR_WORD, 0, n.val⟩ w).done s)

end Sys2Proof.Machine
end

