-- ==== Sys2Proof/Machine/ExecCsc.lean ====
section
/-!
DEFINITION. The commands of CSC and RTE: CSC_DATA_ARRIVAL to PORT_MAP_WRITE, and ESCAPE_WAIT_EXPIRE to
URGENT_TOKEN_GRANT of the table.
-/
set_option Elab.async false
namespace Sys2Proof.Machine

/-- A Cascade packet (R239) of a type. -/
def isCascade (p : Packet) (ctype : Nat) : Bool := pType p == 8 && xCtype p == ctype

/-- CSC_DATA_ARRIVAL (R221); a packet of a reserved type breaks the format (R220). -/
def execCscDataArrival (pkt : Packet) (s : State) : Res :=
  .next ((s.arrive pkt (pType pkt == 8 && (xCtype pkt == 0 || 4 ≤ xCtype pkt)) fun s => s.cscArrive pkt).done s)

/-- STEP_END_ARRIVAL (R221). -/
def execStepEndArrival (pkt : Packet) (s : State) : Res :=
  .next ((s.arrive pkt (isCascade pkt 2) fun s => s.cscArrive pkt).done s)

/-- REREQUEST_ARRIVAL (R225). -/
def execRerequestArrival (pkt : Packet) (s : State) : Res :=
  .next ((s.arrive pkt (isCascade pkt 1) fun s => s.cscArrive pkt).done s)

/-- ABORT_ARRIVAL (R226). -/
def execAbortArrival (pkt : Packet) (s : State) : Res :=
  .next ((s.arrive pkt (isCascade pkt 3) fun s => s.cscArrive pkt).done s)

/-- The re-request timer of a segment-step that lacks contributions expires (R225). -/
def State.rereqEnd (s : State) (r : HandleRef) (t g : Nat) : State :=
  match s.inst? r with
  | none => s
  | some i =>
    match i.steps[t]? with
    | none => s
    | some st =>
      let x := i.segAt t g
      if x.started && !x.done then s.due (x.startAt + s.rereqPs) fun s => s.rerequest i t g st else s

/-- REREQUEST_TIMER_EXPIRE (R225). -/
def execRerequestTimerExpire (h : HandleRef) (step seg : Nat) (s : State) : Res :=
  .next ((s.ifRuns fun s => s.rereqEnd h step seg).done s)

/-- STAGING_AVAILABLE (R223): COLLs that wait start in order while there is room; segments that wait go on as the block
settles. -/
def execStagingAvailable (s : State) : Res := .next ((s.ifRuns fun s => s.stagingFreed s.csc.wait.length).done s)

/-- GROUP_CFG_WRITE (R231). -/
def execGroupCfgWrite (m : Master) (w : WVal) (s : State) : Res :=
  .next ((s.regWrite m.toNat ⟨.CSC_GROUP_CFG, 0, 0⟩ w).done s)

/-- GROUP_MASK_WRITE (R231). -/
def execGroupMaskWrite (m : Master) (w : WVal) (s : State) : Res :=
  .next ((s.regWrite m.toNat ⟨.CSC_GROUP_MASK, 0, 0⟩ w).done s)

/-- PORT_MAP_WRITE (R234). -/
def execPortMapWrite (m : Master) (p : FPort) (w : WVal) (s : State) : Res :=
  .next ((s.regWrite m.toNat ⟨.RTE_PORT_MAP, 0, p.val⟩ w).done s)

/-- ESCAPE_WAIT_EXPIRE (R251). -/
def execEscapeWaitExpire (id : Nat) (s : State) : Res := .next ((s.ifRuns fun s => s.escapeWait id).done s)

/-- HOLD_EXPIRE (R256). -/
def execHoldExpire (id : Nat) (s : State) : Res := .next ((s.ifRuns fun s => s.holdEnd id).done s)

/-- HELD_PACKET_ROUTE (R256). -/
def execHeldPacketRoute (id : Nat) (s : State) : Res := .next ((s.ifRuns fun s => s.heldRoute id).done s)

/-- RETENTION_EXPIRE (R307). -/
def execRetentionExpire (p : FPort) (s : State) : Res := .next ((s.ifRuns fun s => s.retentionEnd p.val).done s)

/-- BANK_DATA_WRITE (R247). -/
def execBankDataWrite (m : Master) (w : WVal) (s : State) : Res :=
  .next ((s.regWrite m.toNat ⟨.RTE_BANK_DATA, 0, 0⟩ w).done s)

/-- EPOCH_FLIP (R247). -/
def execEpochFlip (m : Master) (w : WVal) (s : State) : Res :=
  .next ((s.regWrite m.toNat ⟨.RTE_EPOCH, 0, 0⟩ w).done s)

/-- LINE_STATE_NOTICE (R253). -/
def execLineStateNotice (pkt : Packet) (s : State) : Res :=
  .next ((s.arrive pkt (pType pkt == 9) fun s => s.noticeIn pkt).done s)

/-- LINE_STATE_TIMER (R253). -/
def execLineStateTimer (s : State) : Res := .next ((s.ifRuns State.rowTimer).done s)

/-- HINT_REFRESH (R250). -/
def execHintRefresh (s : State) : Res := .next ((s.ifRuns State.hintRefresh).done s)

/-- URGENT_TOKEN_GRANT (R261). -/
def execUrgentTokenGrant (s : State) : Res := .next ((s.ifRuns State.tokenGrant).done s)

end Sys2Proof.Machine
end

