-- ==== Sys2Proof/Machine/ExecLan.lean ====
section
/-!
DEFINITION. The commands of LAN: LANE_RESET to TX_EQ_WRITE of the table, and PATTERN_CHECKER_RECEIVE.
-/
set_option Elab.async false
namespace Sys2Proof.Machine

/-- LANE_RESET (R267). -/
def execLaneReset (m : Master) (l : Lane) (s : State) : Res :=
  .next ((s.regWrite m.toNat ⟨.LAN_CTL, l.val, 0⟩ ⟨.full, 1⟩).done s)

/-- LANE_SETUP_EXIT (R267). -/
def execLaneSetupExit (m : Master) (l : Lane) (s : State) : Res :=
  .next ((s.regWrite m.toNat ⟨.LAN_CTL, l.val, 0⟩ ⟨.full, 2⟩).done s)

/-- LANE_RETIRE (R288). -/
def execLaneRetire (m : Master) (l : Lane) (s : State) : Res :=
  .next ((s.regWrite m.toNat ⟨.LAN_CTL, l.val, 0⟩ ⟨.full, 4⟩).done s)

/-- TRAINING_FRAME (R273). -/
def execTrainingFrame (l : Lane) (f : TrainFrame) (s : State) : Res :=
  .next ((s.ifRuns fun s => s.trainFrame l.val f).done s)

/-- SIGNAL_DETECT (R274). -/
def execSignalDetect (l : Lane) (s : State) : Res := .next ((s.signalUp l.val).done s)

/-- A lane in train has not left it 20 ms after detecting its signal (R274). -/
def State.trainEnd (s : State) (l : Nat) : State :=
  if s.laneSt l = lsTrain ∧ s.flag LAN_STATUS.signal l 0 then
    s.due ((s.lane l).since + ms 20) fun s => s.trainLimit l
  else s

/-- TRAINING_TIMEOUT (R274). -/
def execTrainingTimeout (l : Lane) (s : State) : Res := .next ((s.ifRuns fun s => s.trainEnd l.val).done s)

/-- EYE_WINDOW_END (R271). -/
def execEyeWindowEnd (l : Lane) (means : List Int) (sigmas : List Nat) (s : State) : Res :=
  .next ((s.ifRuns fun s => s.eyeWindow l.val means sigmas).done s)

/-- CODEWORD_RECEIVE (R280). -/
def execCodewordReceive (p : FPort) (symbols : List (BitVec 10)) (s : State) : Res :=
  .next ((s.ifRuns fun s => s.codeword p.val (symbols.map fun x => x.toNat)).done s)

/-- ALIGNMENT_MARKER (R279). -/
def execAlignmentMarker (l : Lane) (mk : Option Marker) (s : State) : Res :=
  .next ((s.ifRuns fun s => s.markerIn l.val mk).done s)

/-- A port with a lane in align has not reached ready 100 µs after it entered align (R279). -/
def State.alignEnd (s : State) (p : Nat) : State :=
  let ls := [2 * p, 2 * p + 1].filter fun l => s.laneSt l == lsAlign
  s.due (ls.foldl (fun t l => max t ((s.lane l).since + us 100)) 0) fun s => s.alignLimit p

/-- ALIGN_TIMEOUT (R279). -/
def execAlignTimeout (p : FPort) (s : State) : Res := .next ((s.ifRuns fun s => s.alignEnd p.val).done s)

/-- SIGNAL_LOSS (R287). -/
def execSignalLoss (l : Lane) (s : State) : Res := .next ((s.signalDown l.val).done s)

/-- M2_CHARACTER_RECEIVE (R282). -/
def execM2CharacterReceive (l : Lane) (ch : BitVec 10) (s : State) : Res :=
  .next ((s.ifRuns fun s => s.m2Receive l.val ch.toNat).done s)

/-- M2_SLIP (R283). -/
def execM2Slip (m : Master) (l : Lane) (s : State) : Res :=
  .next ((s.regWrite m.toNat ⟨.LAN_M2_CTL, l.val, 0⟩ ⟨.full, 1⟩).done s)

/-- TEST_CFG_WRITE (R285). -/
def execTestCfgWrite (m : Master) (l : Lane) (w : WVal) (s : State) : Res :=
  .next ((s.regWrite m.toNat ⟨.LAN_TEST_CFG, l.val, 0⟩ w).done s)

/-- INJECT_START (R286). -/
def execInjectStart (m : Master) (l : Lane) (w : WVal) (s : State) : Res :=
  .next ((s.regWrite m.toNat ⟨.LAN_INJECT, l.val, 0⟩ w).done s)

/-- TX_EQ_WRITE (R269). -/
def execTxEqWrite (m : Master) (l : Lane) (w : WVal) (s : State) : Res :=
  .next ((s.regWrite m.toNat ⟨.LAN_TX_EQ, l.val, 0⟩ w).done s)

/-- PATTERN_CHECKER_RECEIVE (R284). -/
def execPatternCheckerReceive (l : Lane) (bits : List Bool) (s : State) : Res :=
  .next ((s.chkReceive l.val bits).done s)

end Sys2Proof.Machine
end

