-- ==== Sys2Proof/Machine/ExecLnk.lean ====
section
/-!
DEFINITION. The commands of LNK: LINK_BLOCK_ARRIVAL, LINK_BLOCK_SEND, and NAK_REPEAT_TIMER to TIME_SEND_TIMER of the
table.
-/
set_option Elab.async false
namespace Sys2Proof.Machine

/-- LINK_BLOCK_ARRIVAL (R297): a block that LAN has marked is bad (R280). -/
def execLinkBlockArrival (p : FPort) (b : LinkBlock) (bad : Bool) (s : State) : Res :=
  .next ((s.ifRuns fun s => (s.streamCut p.val b).blockRecv p.val b (bad || s.streamBad p.val b)).done s)

/-- LINK_BLOCK_SEND (R295). -/
def execLinkBlockSend (p : FPort) (s : State) : Res := .next ((s.ifRuns fun s => s.sendCoded p.val).done s)

/-- NAK_REPEAT_TIMER (R298). -/
def execNakRepeatTimer (p : FPort) (s : State) : Res := .next ((s.ifRuns fun s => s.nakAgain p.val).done s)

/-- REPLAY_TIMEOUT (R299). -/
def execReplayTimeout (p : FPort) (s : State) : Res := .next ((s.ifRuns fun s => s.replayLimit p.val).done s)

/-- CREDIT_TIMEOUT (R304). -/
def execCreditTimeout (p : FPort) (pool : Fin 9) (s : State) : Res :=
  .next ((s.ifRuns fun s => s.creditLimit p.val pool.val).done s)

/-- A control flit of a type (R305) is accepted on a port that frames blocks. -/
def State.ctlFlit (s : State) (p t : Nat) (f : Flit) (act : State → State) : State :=
  if flitBytes f 0 1 = t ∧ (s.lport p).framed then s.ifRuns act else s

/-- A control flit that is a step of admission (R425). -/
def State.admitFlit (s : State) (p step : Nat) (f : Flit) (act : State → State) : State :=
  if flitBytes f 1 1 = step then s.ctlFlit p 2 f act else s

/-- HELLO (R313). -/
def execHello (p : FPort) (f : Flit) (s : State) : Res :=
  .next ((s.ctlFlit p.val 1 f fun s => s.helloRecv p.val f).done s)

/-- ADMIT_NONCE (R425). -/
def execAdmitNonce (p : FPort) (f : Flit) (s : State) : Res :=
  .next ((s.admitFlit p.val 1 f fun s => s.nonceRecv p.val f).done s)

/-- ADMIT_PROOF (R427). -/
def execAdmitProof (p : FPort) (f : Flit) (s : State) : Res :=
  .next ((s.admitFlit p.val 2 f fun s => s.proofRecv p.val f).done s)

/-- ADMIT_VERDICT (R427). -/
def execAdmitVerdict (p : FPort) (f : Flit) (s : State) : Res :=
  .next ((s.admitFlit p.val 3 f fun s => s.verdictRecv p.val f).done s)

/-- POISON (R306). -/
def execPoison (p : FPort) (f : Flit) (s : State) : Res :=
  .next ((s.ctlFlit p.val 3 f fun s => s.poisonRecv p.val f).done s)

/-- TIME (R315). -/
def execTime (p : FPort) (f : Flit) (recvStamp : Nat) (s : State) : Res :=
  .next ((s.ctlFlit p.val 4 f fun s => s.timeRecv p.val f recvStamp).done s)

/-- RESET_REQ (R311). -/
def execResetReq (p : FPort) (f : Flit) (s : State) : Res :=
  .next ((s.ctlFlit p.val 5 f fun s => s.resetReqRecv p.val f).done s)

/-- RESET_ACK (R310). -/
def execResetAck (p : FPort) (f : Flit) (s : State) : Res :=
  .next ((s.ctlFlit p.val 6 f fun s => s.resetAckRecv p.val f).done s)

/-- RESET_ACK_TIMEOUT (R310). -/
def execResetAckTimeout (p : FPort) (s : State) : Res := .next ((s.ifRuns fun s => s.ackLimit p.val).done s)

/-- CANARY_TICK (R308). -/
def execCanaryTick (p : FPort) (s : State) : Res := .next ((s.ifRuns fun s => s.canary p.val).done s)

/-- LINK_RESET_CMD (R310). -/
def execLinkResetCmd (m : Master) (p : FPort) (s : State) : Res :=
  .next ((s.regWrite m.toNat ⟨.LNK_PORT_CTL, p.val, 0⟩ ⟨.full, 4⟩).done s)

/-- LNK_SETUP_EXIT (R320). -/
def execLnkSetupExit (m : Master) (p : FPort) (s : State) : Res :=
  .next ((s.regWrite m.toNat ⟨.LNK_PORT_CTL, p.val, 0⟩ ⟨.full, 2⟩).done s)

/-- LNK_ENTER_SETUP (R309). -/
def execLnkEnterSetup (m : Master) (p : FPort) (s : State) : Res :=
  .next ((s.regWrite m.toNat ⟨.LNK_PORT_CTL, p.val, 0⟩ ⟨.full, 1⟩).done s)

/-- BRINGUP_STEP_TIMEOUT (R312). -/
def execBringupStepTimeout (p : FPort) (s : State) : Res := .next ((s.ifRuns fun s => s.stepLimit p.val).done s)

/-- BRINGUP_RETRY (R314). -/
def execBringupRetry (p : FPort) (s : State) : Res := .next ((s.ifRuns fun s => s.bringRetry p.val).done s)

/-- TIME_SEND_TIMER (R315). -/
def execTimeSendTimer (p : FPort) (s : State) : Res := .next ((s.ifRuns fun s => s.timeTimer p.val).done s)

end Sys2Proof.Machine
end

