-- ==== Sys2Proof/Machine/ExecHdl.lean ====
section
/-!
DEFINITION. The commands of HDL: HANDLER_DISPATCH to HANDLER_MEM_WRITE of the table.
-/
set_option Elab.async false
namespace Sys2Proof.Machine

/-- A core that executes: idle, running a handler or firmware (R352); one in reset or retired does nothing. -/
def State.coreRuns (s : State) (c : Nat) : Bool := s.coreSt c != 0 && s.coreSt c != 4

/-- What a core does happens on a core that executes, while the data path runs. -/
def State.ifCore (s : State) (c : Nat) (f : State → State) : State := if s.coreRuns c then s.ifRuns f else s

/-- A command to the translation CSR hxcmd happens on a core that executes; in user mode it is an illegal instruction (R333). -/
def State.hxcmd (s : State) (c : Nat) (f : State → State) : State :=
  s.ifCore c fun s => if (s.core c).umode then s.coreFault c 2 0 else f s

/-- HANDLER_DISPATCH (R329). -/
def execHandlerDispatch (s : State) : Res := .next (s.dispatchEvent.done s)

/-- TRIGGER_QUEUE_RELEASE (R329). -/
def execTriggerQueueRelease (s : State) : Res :=
  .next ((s.ifRuns fun s => (s.releasePosts s.hdl.heldPosts.length).fireWaiting).done s)

/-- HANDLER_ECALL (R330). -/
def execHandlerEcall (c : CoreId) (s : State) : Res := .next ((s.ifCore c.val fun s => s.ecall c.val).done s)

/-- HANDLER_BUDGET_EXPIRE (R331). -/
def execHandlerBudgetExpire (c : CoreId) (s : State) : Res := .next ((s.ifCore c.val fun s => s.budgetEnd c.val).done s)

/-- HANDLER_EXCEPTION (R331). -/
def execHandlerException (c : CoreId) (mtval : Word) (s : State) : Res :=
  .next ((s.ifCore c.val fun s => s.handlerTrap c.val mtval).done s)

/-- TLB_MISS (R334). -/
def execTlbMiss (c : CoreId) (va : Word) (acc : Nat) (s : State) : Res :=
  .next ((s.ifCore c.val fun s => s.tlbMiss c.val va acc).done s)

/-- TLB_FILL: hxcmd op 1, whose page size is that of hxslice (R335). -/
def execTlbFill (c : CoreId) (entry : Word) (idx : Nat) (s : State) : Res :=
  .next ((s.hxcmd c.val fun s => s.tlbFill c.val entry idx (s.core c.val).pgCode false).done s)

/-- TLB_LOCK_FILL: hxcmd op 2, which gives the page size (R332, R333). -/
def execTlbLockFill (c : CoreId) (entry : Word) (idx : Nat) (pg : Word) (s : State) : Res :=
  .next ((s.hxcmd c.val fun s => s.tlbFill c.val entry idx (pg.toNat % 4) true).done s)

/-- TLB_REFUSE: hxcmd op 3 (R333). -/
def execTlbRefuse (c : CoreId) (detail : Nat) (s : State) : Res :=
  .next ((s.hxcmd c.val fun s => s.fillRefused c.val detail).done s)

/-- TLB_INVALIDATE_PAGE: hxcmd op 4 (R333). -/
def execTlbInvalidatePage (c : CoreId) (va : Word) (s : State) : Res :=
  .next ((s.hxcmd c.val fun s => s.tlbDropPage c.val va).done s)

/-- TLB_INVALIDATE_CONTEXT: hxcmd op 5 (R333). -/
def execTlbInvalidateContext (c : CoreId) (s : State) : Res :=
  .next ((s.hxcmd c.val fun s => s.tlbDropCtx c.val).done s)

/-- TLB_INVALIDATE_ALL: hxcmd op 6 (R333). -/
def execTlbInvalidateAll (c : CoreId) (s : State) : Res := .next ((s.hxcmd c.val fun s => s.tlbDropAll c.val).done s)

/-- TLB_UNLOCK_ALL: hxcmd op 7 (R333). -/
def execTlbUnlockAll (c : CoreId) (s : State) : Res := .next ((s.hxcmd c.val fun s => s.tlbUnlock c.val).done s)

/-- TLB_AGER_TICK (R337). -/
def execTlbAgerTick (s : State) : Res := .next ((s.ifRuns State.agerTick).done s)

/-- IPI_SET (R323). -/
def execIpiSet (m : Master) (w : WVal) (s : State) : Res :=
  .next ((s.regWrite m.toNat ⟨.HDL_IPI_SET, 0, 0⟩ w).done s)

/-- TIMECMP_MATCH (R323). -/
def execTimecmpMatch (c : CoreId) (s : State) : Res := .next ((s.timerMatch c.val).done s)

/-- CORE_RESET (R352). -/
def execCoreReset (m : Master) (c : CoreId) (s : State) : Res :=
  .next ((s.regWrite m.toNat ⟨.HDL_CORE_CTL, c.val, 0⟩ ⟨.full, 1⟩).done s)

/-- CORE_RETIRE (R381). -/
def execCoreRetire (m : Master) (c : CoreId) (s : State) : Res :=
  .next ((s.regWrite m.toNat ⟨.HDL_CORE_CTL, c.val, 0⟩ ⟨.full, 2⟩).done s)

/-- TRIG_CFG_WRITE (R327). -/
def execTrigCfgWrite (m : Master) (w : WVal) (s : State) : Res :=
  .next ((s.regWrite m.toNat ⟨.HDL_TRIG_CFG, 0, 0⟩ w).done s)

/-- HANDLER_MEM_READ (R325). -/
def execHandlerMemRead (m : Master) (s : State) : Res :=
  .next ((s.regRead m.toNat ⟨.HDL_MEM_DATA, 0, 0⟩ .full).done s)

/-- HANDLER_MEM_WRITE (R325). -/
def execHandlerMemWrite (m : Master) (w : WVal) (s : State) : Res :=
  .next ((s.regWrite m.toNat ⟨.HDL_MEM_DATA, 0, 0⟩ w).done s)

end Sys2Proof.Machine
end

