-- ==== Sys2Proof/Machine/ExecSpd.lean ====
section
/-!
DEFINITION. The commands of SPD and SEM: SCRATCHPAD_HOST_ACCESS to GRANT_WINDOW_EXPIRE of the table.
-/
set_option Elab.async false
namespace Sys2Proof.Machine

/-- The words that two byte ranges both reach. -/
def sharedWords (a n b m : Nat) : List Nat :=
  if n = 0 ∨ m = 0 then []
  else (List.range ((a + n - 1) / 8 + 1 - a / 8)).filterMap fun k =>
    let w := a / 8 + k
    if b / 8 ≤ w && w ≤ (b + m - 1) / 8 then some w else none

/-- The length of an access. -/
def memOpLen : MemOp → Nat
  | .read n => n
  | .write bs => bs.length

/-- The port-A accesses that collide with a range, each with the words shared; two reads never collide (R341). -/
def collisions (addr n : Nat) (read : Bool) (as : List PortAUse) : List (PortAUse × List Nat) :=
  as.filterMap fun a =>
    let ws := sharedWords addr n a.off (memOpLen a.op)
    match a.op with
    | .read _ => if read || ws.isEmpty then none else some (a, ws)
    | .write _ => if ws.isEmpty then none else some (a, ws)

/-- What a port-A access does in its slot: a write commits its bytes, and a read counts (R341). -/
def State.portA (s : State) (a : PortAUse) : State :=
  let s := s.pmcEv 12 1 (a.off / 2 ^ 20) 0 1
  match a.op with
  | .read _ => s
  | .write bs => s.spdStore a.off bs

/-- Collisions on some words. -/
def State.collide (s : State) (ws : List Nat) (kind : Nat) : State := ws.foldl (fun s w => s.spdCollision (8 * w) kind) s

/-- The bytes of a range of which some words are undefined: free values (R341). -/
def State.clashBytes (s : State) (addr n : Nat) (ws : List Nat) : List Byte × State :=
  let xs := ws.eraseDups.foldl (fun (x : List (Nat × BitVec 64) × State) w =>
    let y := x.2.fresh 64
    (x.1 ++ [(w, y.1)], y.2)) ([], s)
  ((List.range n).map fun i =>
    match SMap.find? xs.1 ((addr + i) / 8) with
    | some v => (leBytes 8 v.toNat).getD ((addr + i) % 8) 0
    | none => s.spdByte (addr + i), xs.2)

/-- A BAR4 read of `n` bytes. Where port-A writes commit to some of its words in the same slots, what it returns of them is
undefined, and it receives BUSY (R341, R342). -/
def State.spdRead (s : State) (p addr n : Nat) (as : List PortAUse) : State :=
  let s := s.pmcEv 12 2 (addr / 2 ^ 20) 0 1
  match s.spdCheck addr n with
  | .retired => (s.spdBusyHost p).emit (.memDone p (List.replicate n 0xFF) false)
  | .busy => (s.spdBusyHost p).emit (.memDone p (List.replicate n 0) false)
  | .ok =>
    let s := s.spdTouch addr n
    let cs := collisions addr n true as
    let bad := s.spd.bad.any fun k => addr < 8 * k + 8 && 8 * k < addr + n
    let (bs, s) := s.clashBytes addr n (cs.flatMap (·.2))
    let s := cs.foldl (fun s c => (s.portA c.1).collide c.2 1) s
    let s := if bad || !cs.isEmpty then s.spdBusyHost p else s
    s.emit (.memDone p bs false)

/-- A BAR4 write. Port-A writes of its words in the same slots commit before it, and it receives BUSY; a port-A read is
repeated in the next slot (R341, R342). -/
def State.spdWrite (s : State) (p addr : Nat) (bs : List Byte) (as : List PortAUse) : State :=
  let s := s.pmcEv 12 2 (addr / 2 ^ 20) 0 1
  match s.spdCheck addr bs.length with
  | .retired => s.spdBusyHost p
  | .busy => s.spdBusyHost p
  | .ok =>
    let s := s.spdTouch addr bs.length
    let cs := collisions addr bs.length false as
    let writes := cs.filter fun c => match c.1.op with | .write _ => true | .read _ => false
    let s := cs.foldl (fun s c => s.portA c.1) s
    let s := s.spdStore addr bs
    let s := cs.foldl (fun s c => s.collide c.2 (match c.1.op with | .write _ => 0 | .read _ => 1)) s
    if writes.isEmpty then s else s.spdBusyHost p

/-- A BAR4 access of host port `p` (R36, R339, R341, R342, R344, R345, R380, R386). -/
def State.spdAccess (s : State) (p addr : Nat) (op : MemOp) (a : List PortAUse) : State :=
  let shut := s.stopped || s.inSetup 12
  match op with
  | .read n =>
    if shut then s.emit (.memDone p (List.replicate n 0) false)
    else if n = 0 ∨ spdSize < addr + n then s
    else s.spdRead p addr n a
  | .write bs =>
    let s := s.rxBytes (mHost p 0) bs.length
    if shut ∨ bs = [] ∨ spdSize < addr + bs.length then s else s.spdWrite p addr bs a

/-- SCRATCHPAD_HOST_ACCESS (R342), at a port in endpoint mode. -/
def execScratchpadHostAccess (p : HPort) (addr : Nat) (op : MemOp) (a : List PortAUse) (s : State) : Res :=
  .next ((if s.endpoint p.val then s.spdAccess p.val addr op a else s).done s)

/-- A port-A read is repeated in the next slot of 4 ns (R339, R342). -/
def State.spdAgain (s : State) (off : Nat) : State :=
  if spdSize ≤ off then s else (s.advance (s.now + 4000)).pmcEv 12 1 (off / 2 ^ 20) 0 1

/-- SPD_BUSY_RETRY (R342). -/
def execSpdBusyRetry (off : Nat) (s : State) : Res := .next ((s.ifRuns fun s => s.spdAgain off).done s)

/-- BANK_OWNER_WRITE (R340). -/
def execBankOwnerWrite (m : Master) (b : BankId) (w : WVal) (s : State) : Res :=
  .next ((s.regWrite m.toNat ⟨.SPD_BANK_OWNER, 0, b.val⟩ w).done s)

/-- SPD_BANK_CTL of a bank with retain at a value and auto_wake as it stands. -/
def State.retainWord (s : State) (b : Nat) (retain : Bool) : WVal :=
  ⟨.full, BitVec.ofNat 64 (b2n retain + 2 * b2n (s.flag SPD_BANK_CTL.auto_wake 0 b))⟩

/-- BANK_RETAIN (R344). -/
def execBankRetain (m : Master) (b : BankId) (s : State) : Res :=
  .next ((s.regWrite m.toNat ⟨.SPD_BANK_CTL, 0, b.val⟩ (s.retainWord b.val true)).done s)

/-- RETENTION_ENTRY (R344). -/
def execRetentionEntry (b : BankId) (s : State) : Res := .next ((s.bankRetained b.val).done s)

/-- BANK_WAKE (R344). -/
def execBankWake (m : Master) (b : BankId) (s : State) : Res :=
  .next ((s.regWrite m.toNat ⟨.SPD_BANK_CTL, 0, b.val⟩ (s.retainWord b.val false)).done s)

/-- BANK_WAKE_DONE (R344). -/
def execBankWakeDone (b : BankId) (s : State) : Res := .next ((s.bankActive b.val).done s)

/-- MARCH_START (R345). -/
def execMarchStart (m : Master) (w : WVal) (s : State) : Res :=
  .next ((s.regWrite m.toNat ⟨.SPD_MARCH_CTL, 0, 0⟩ w).done s)

/-- MARCH_DONE (R345). -/
def execMarchDone (fails : Word) (repairs : List (Nat × Nat)) (s : State) : Res :=
  .next ((s.marchDone fails repairs).done s)

/-- SEM_ACQUIRE_READ (R346). -/
def execSemAcquireRead (m : Master) (n : SemId) (k : Fin 8) (size : ReqSize) (s : State) : Res :=
  .next ((s.directAccess m.toNat (RegRef.mk .SEM_ACQ n.val k.val).off size none).done s)

/-- SEM_RELEASE_WRITE (R347). -/
def execSemReleaseWrite (m : Master) (n : SemId) (k : Fin 8) (w : WVal) (s : State) : Res :=
  .next ((s.regWrite m.toNat ⟨.SEM_ACQ, n.val, k.val⟩ w).done s)

/-- SEM_FORCE (R347). -/
def execSemForce (m : Master) (w : WVal) (s : State) : Res :=
  .next ((s.regWrite m.toNat ⟨.SEM_FORCE, 0, 0⟩ w).done s)

/-- GRANT_WINDOW_EXPIRE (R348). -/
def execGrantWindowExpire (n : SemId) (s : State) : Res := .next ((s.grantEnd n.val).done s)

end Sys2Proof.Machine
end

