-- ==== Sys2Proof/Machine/ExecFlt.lean ====
section
/-!
DEFINITION. The commands of the fault windows: FAULT_WINDOW_END to CSC_UNIT_ERROR of the table, and
HBM_ROW_REPAIR_DONE.
-/
set_option Elab.async false
namespace Sys2Proof.Machine

/-- The window of a source ends at its time (R363). -/
def State.windowLimit (s : State) (blk n : Nat) : State :=
  match SMap.find? s.flt.wins (srcKey blk n) with
  | some w => s.due (w.ends + 1) fun s => s.windowEnd blk n
  | none => s

/-- FAULT_WINDOW_END (R363). -/
def execFaultWindowEnd (b : BlkId) (src : Nat) (s : State) : Res := .next ((s.windowLimit b.val src).done s)

/-- The escalation timer of a block expires at its time (R373). -/
def State.escLimit (s : State) (blk : Nat) : State :=
  match SMap.find? s.flt.esc blk with
  | some t => s.due t fun s => s.escExpire blk
  | none => s

/-- ESCALATION_EXPIRE (R373). -/
def execEscalationExpire (b : BlkId) (s : State) : Res := .next ((s.escLimit b.val).done s)

/-- PSEUDO_CHANNEL_COPY_DONE (R379). -/
def execPseudoChannelCopyDone (c : Nat) (s : State) : Res := .next ((s.copyDone c).done s)

/-- MARCH_SLICE_DONE (R378). -/
def execMarchSliceDone (b : BankId) (test : SliceTest) (s : State) : Res :=
  .next ((s.sliceDone b.val test.pass test.repaired).done s)

/-- ESC_ACT_NOW (R374). -/
def execEscActNow (m : Master) (b : BlkId) (w : WVal) (s : State) : Res :=
  .next ((s.regWrite m.toNat ⟨.FLT_ESC_ACTION, b.val, 0⟩ w).done s)

/-- ESC_WITHDRAW (R374). -/
def execEscWithdraw (m : Master) (b : BlkId) (w : WVal) (s : State) : Res :=
  .next ((s.regWrite m.toNat ⟨.FLT_ESC_ACTION, b.val, 0⟩ w).done s)

/-- FIRST_RECORD_CLEAR (R358). -/
def execFirstRecordClear (m : Master) (b : BlkId) (s : State) : Res :=
  .next ((s.regWrite m.toNat ⟨.FLT_STATUS, b.val, 0⟩ ⟨.full, FLT_STATUS.first_valid.mask⟩).done s)

/-- FAULT_INJECT_START (R387). -/
def execFaultInjectStart (m : Master) (b : BlkId) (w : WVal) (s : State) : Res :=
  .next ((s.regWrite m.toNat ⟨.FLT_INJECT, b.val, 0⟩ w).done s)

/-- The next injected event of a block falls due (R387). -/
def State.injectLimit (s : State) (blk : Nat) : State :=
  match SMap.find? s.flt.inj blk with
  | some x => s.due x.next fun s => s.injectTick blk
  | none => s

/-- FAULT_INJECT_TICK (R387). -/
def execFaultInjectTick (b : BlkId) (s : State) : Res := .next ((s.injectLimit b.val).done s)

/-- SRAM_ERROR (R383). -/
def execSramError (b : BlkId) (uncorrectable : Bool) (s : State) : Res :=
  .next ((s.sramError b.val uncorrectable).done s)

/-- HBM_READ_ERROR (R385), of a word of the 144 GiB of HBM. -/
def execHbmReadError (addr : Nat) (uncorrectable : Bool) (s : State) : Res :=
  .next ((if addr < 144 * 2 ^ 30 then s.hbmError addr uncorrectable else s).done s)

/-- SCRATCHPAD_ECC_ERROR (R339). -/
def execScratchpadEccError (addr : Nat) (uncorrectable : Bool) (s : State) : Res :=
  .next ((s.spdEcc addr uncorrectable).done s)

/-- CACHE_PARITY_ERROR (R366). -/
def execCacheParityError (c : CoreId) (tlb : Bool) (s : State) : Res := .next ((s.coreParity c.val tlb).done s)

/-- CROSSBAR_ERROR (R366). -/
def execCrossbarError (p : FPort) (id : Nat) (s : State) : Res := .next ((s.xbarError p.val id).done s)

/-- CSC_UNIT_ERROR (R366). -/
def execCscUnitError (u : Fin 8) (s : State) : Res := .next ((s.cscError u.val).done s)

/-- HBM_ROW_REPAIR_DONE (R379). -/
def execHbmRowRepairDone (c : Nat) (s : State) : Res := .next ((s.rowRepaired c).done s)

end Sys2Proof.Machine
end

