-- ==== Sys2Proof/Machine/ExecRsv.lean ====
section
/-!
DEFINITION. The commands of RSV and SEC: JOURNAL_WRITE_COMPLETION to FLASH_OP_DONE of the table.
-/
set_option Elab.async false
namespace Sys2Proof.Machine

/-- JOURNAL_WRITE_COMPLETION (R412). -/
def execJournalWriteCompletion (ok : Bool) (s : State) : Res := .next ((s.journalAck ok).done s)

/-- RESTATEMENT_CYCLE_END (R398). -/
def execRestatementCycleEnd (s : State) : Res := .next (s.cycleEnd.done s)

/-- The write rate of the target over the last 1 ms is known, in bytes per second (R399). -/
def State.rateTick (s : State) (rate : Nat) : State :=
  if !s.rsvOn then s
  else
    let s := s.advance (s.nextTick (ms 1))
    { s with rsv := { s.rsv with rate := rate } }

/-- LAG_RATE_TICK (R399). -/
def execLagRateTick (rate : Nat) (s : State) : Res := .next ((s.rateTick rate).done s)

/-- REPORT_HOLD_RELEASE (R399): with room under the limit, what was held goes on as the blocks settle. -/
def execReportHoldRelease (s : State) : Res := .next ((if s.rsvHeld then s else s.noteHolds).done s)

/-- PWRFAIL_TAKEN (R401). -/
def execPwrfailTaken (s : State) : Res := .next (s.pwrfailTake.done s)

/-- SEAL_CMD (R400). -/
def execSealCmd (m : Master) (s : State) : Res :=
  .next ((s.regWrite m.toNat ⟨.RSV_CTL, 0, 0⟩ ⟨.full, RSV_CTL.seal.mask⟩).done s)

/-- DETACH_CMD (R413). -/
def execDetachCmd (m : Master) (s : State) : Res :=
  .next ((s.regWrite m.toNat ⟨.RSV_CTL, 0, 0⟩ ⟨.full, RSV_CTL.detach.mask⟩).done s)

/-- SEAL_FLUSH_COMPLETE (R401). -/
def execSealFlushComplete (s : State) : Res := .next (s.sealFlushed.done s)

/-- REPLAY_COMPLETE (R405, R412), so many ms after power-good; with data of the journal that cannot be read, or all of it
read. -/
def execReplayComplete (readable : Bool) (ms : Nat) (s : State) : Res := .next ((s.replayEnd readable ms).done s)

/-- QUARANTINE_EXPIRE (R404). -/
def execQuarantineExpire (s : State) : Res := .next (s.quarantineOver.done s)

/-- RESUME_PORT (R407). -/
def execResumePort (m : Master) (w : WVal) (s : State) : Res :=
  .next ((s.regWrite m.toNat ⟨.RSV_RESUME, 0, 0⟩ w).done s)

/-- PWRGOOD_RISE (R416). -/
def execPwrgoodRise (up : PowerUp) (s : State) : Res :=
  .next ((s.powerRise up.addrSel up.rails.toNat).done s)

/-- BOOT_FUSES_SENSED (R416). -/
def execBootFusesSensed (stepping : Nat) (keys : FuseKeys) (spdRepairs : List (Nat × Nat)) (s : State) : Res :=
  .next ((s.fusesSensed ⟨stepping, keys.seed, keys.svnMin, keys.vendorKeys, keys.ownerKeys, spdRepairs⟩).done s)

/-- BOOT_PLL_LOCKED (R416). -/
def execBootPllLocked (s : State) : Res := .next (s.pllLocked.done s)

/-- BOOT_HEADERS_CHECKED (R421). The codes that count are those of the flash, whatever the sender says they are (log entry 143). -/
def execBootHeadersChecked (_codeA _codeB : Nat) (s : State) : Res := .next (s.headersChecked.done s)

/-- BOOT_FIRMWARE_VERIFIED (R421, R422). The code and the svn that count are those of the flash (log entry 143). -/
def execBootFirmwareVerified (_code _svn : Nat) (defaults : List (Nat × Word)) (timeRef : Bool) (s : State) : Res :=
  .next ((s.firmwareVerified defaults timeRef).done s)

/-- HBM_TRAINED (R416). -/
def execHbmTrained (s : State) : Res := .next (s.hbmTrained.done s)

/-- HBM_ZEROED (R133, R416). -/
def execHbmZeroed (s : State) : Res := .next (s.hbmZeroed.xltRelease.done s)

/-- FIRMWARE_LOADED (R416). -/
def execFirmwareLoaded (s : State) : Res := .next (s.firmwareLoaded.done s)

/-- BOOT_RELEASE (R403, R416). -/
def execBootRelease (journal : JournalRead) (s : State) : Res := .next ((s.release journal).done s)

/-- BOOT_WATCHDOG_EXPIRE (R416). -/
def execBootWatchdogExpire (s : State) : Res := .next (s.bootWatchdog.done s)

/-- PWRGOOD_FALL (R418). -/
def execPwrgoodFall (s : State) : Res := .next (s.powerFall.done s)

/-- TOP_RESET_WRITE (R418). -/
def execTopResetWrite (m : Master) (w : WVal) (s : State) : Res :=
  .next ((s.regWrite m.toNat ⟨.TOP_RESET, 0, 0⟩ w).done s)

/-- QUOTE_START (R430). -/
def execQuoteStart (m : Master) (s : State) : Res :=
  .next ((s.regWrite m.toNat ⟨.SEC_QUOTE_CTL, 0, 0⟩ ⟨.full, SEC_QUOTE_CTL.start.mask⟩).done s)

/-- QUOTE_DONE (R430). -/
def execQuoteDone (s : State) : Res := .next (s.quoteDone.done s)

/-- UPDATE_VERIFY (R431). -/
def execUpdateVerify (m : Master) (w : WVal) (s : State) : Res :=
  .next ((s.regWrite m.toNat ⟨.SEC_UPDATE_CTL, 0, 0⟩ w).done s)

/-- UPDATE_VERIFIED (R431). -/
def execUpdateVerified (place : Nat) (s : State) : Res := .next ((s.verifyDone place).done s)

/-- SEC_UPDATE_CTL with one command bit, and the slot as it stands. -/
def State.updateWord (s : State) (f : Field) : WVal :=
  ⟨.full, f.mask ||| BitVec.ofNat 64 (s.fld SEC_UPDATE_CTL.slot 0 0)⟩

/-- UPDATE_ACTIVATE (R432). -/
def execUpdateActivate (m : Master) (s : State) : Res :=
  .next ((s.regWrite m.toNat ⟨.SEC_UPDATE_CTL, 0, 0⟩ (s.updateWord SEC_UPDATE_CTL.activate)).done s)

/-- FIRMWARE_READY (R432). -/
def execFirmwareReady (s : State) : Res := .next (s.fwReady.done s)

/-- ACTIVATION_TIMEOUT (R432). -/
def execActivationTimeout (s : State) : Res := .next (s.activationLimit.done s)

/-- COMMIT_SVN (R432). -/
def execCommitSvn (m : Master) (s : State) : Res :=
  .next ((s.regWrite m.toNat ⟨.SEC_UPDATE_CTL, 0, 0⟩ (s.updateWord SEC_UPDATE_CTL.commit_svn)).done s)

/-- FLASH_READ (R438). -/
def execFlashRead (m : Master) (s : State) : Res :=
  .next ((s.regRead m.toNat ⟨.SEC_FLASH_DATA, 0, 0⟩ .full).done s)

/-- FLASH_PROGRAM (R440). -/
def execFlashProgram (m : Master) (w : WVal) (s : State) : Res :=
  .next ((s.regWrite m.toNat ⟨.SEC_FLASH_DATA, 0, 0⟩ w).done s)

/-- FLASH_ERASE (R440). -/
def execFlashErase (m : Master) (s : State) : Res :=
  .next ((s.regWrite m.toNat ⟨.SEC_FLASH_CTL, 0, 0⟩ ⟨.full, SEC_FLASH_CTL.erase.mask⟩).done s)

/-- FLASH_OP_DONE (R438). -/
def execFlashOpDone (s : State) : Res := .next (s.flashDone.done s)

end Sys2Proof.Machine
end

