-- ==== Sys2Proof/Machine/ExecPmc.lean ====
section
/-!
DEFINITION. The commands of LOG and PMC: LOG_STALL_EXPIRE to SAMPLE_HEAD_WRITE of the table.
-/
set_option Elab.async false
namespace Sys2Proof.Machine

/-- LOG_STALL_EXPIRE (R435). -/
def execLogStallExpire (s : State) : Res := .next (s.stallExpire.done s)

/-- LOG_STALL_RELEASE (R435). -/
def execLogStallRelease (s : State) : Res := .next (s.wakeWaits.done s)

/-- LOG_HEAD_WRITE (R437). -/
def execLogHeadWrite (m : Master) (w : WVal) (s : State) : Res :=
  .next ((s.regWrite m.toNat ⟨.LOG_HEAD, 0, 0⟩ w).done s)

/-- LOG_MIRROR_TICK (R436). -/
def execLogMirrorTick (s : State) : Res := .next (s.logMirror.done s)

/-- PMC_COUNTER_OVERFLOW (R444). -/
def execPmcCounterOverflow (n : Fin 512) (s : State) : Res := .next ((s.overflow n.val).done s)

/-- EVSEL_WRITE (R443). -/
def execEvselWrite (m : Master) (n : Fin 512) (w : WVal) (s : State) : Res :=
  .next ((s.regWrite m.toNat ⟨.PMC_EVSEL, 0, n.val⟩ w).done s)

/-- FREEZE_NOW (R446). -/
def execFreezeNow (m : Master) (s : State) : Res :=
  .next ((s.regWrite m.toNat ⟨.PMC_FREEZE, 0, 0⟩ ⟨.full, PMC_FREEZE.freeze_now.mask⟩).done s)

/-- FREEZE_AT (R446). -/
def execFreezeAt (m : Master) (s : State) : Res :=
  .next ((s.regWrite m.toNat ⟨.PMC_FREEZE, 0, 0⟩ ⟨.full, PMC_FREEZE.freeze_at.mask⟩).done s)

/-- UNFREEZE (R447). -/
def execUnfreeze (m : Master) (s : State) : Res :=
  .next ((s.regWrite m.toNat ⟨.PMC_FREEZE, 0, 0⟩ ⟨.full, PMC_FREEZE.unfreeze.mask⟩).done s)

/-- FREEZE_TICK (R446). -/
def execFreezeTick (s : State) : Res := .next (s.freezeTick.done s)

/-- SAMPLE_CFG_WRITE (R449). -/
def execSampleCfgWrite (m : Master) (w : WVal) (s : State) : Res :=
  .next ((s.regWrite m.toNat ⟨.PMC_SAMPLE_CFG, 0, 0⟩ w).done s)

/-- SAMPLE_RECORD_WRITE (R453). -/
def execSampleRecordWrite (slot : Nat) (s : State) : Res := .next ((s.sampleRecord slot).done s)

/-- SAMPLE_LIMIT_EXPIRE (R450). -/
def execSampleLimitExpire (slot : Nat) (s : State) : Res := .next ((s.sampleLimit slot).done s)

/-- SAMPLE_HEAD_WRITE (R453). -/
def execSampleHeadWrite (m : Master) (w : WVal) (s : State) : Res :=
  .next ((s.regWrite m.toNat ⟨.PMC_SAMPLE_HEAD, 0, 0⟩ w).done s)

end Sys2Proof.Machine
end

