-- ==== Sys2Proof/Machine/ExecPwr.lean ====
section
/-!
DEFINITION. The commands of PWR and the event pins: PIN_OWNER_WRITE to LIFE_TICK of the table, PWRFAIL_FALL and
PWRFAIL_RISE.
-/
set_option Elab.async false
namespace Sys2Proof.Machine

/-- PIN_OWNER_WRITE (R461). -/
def execPinOwnerWrite (m : Master) (w : WVal) (s : State) : Res :=
  .next ((s.regWrite m.toNat ⟨.TOP_PIN_OWNER, 0, 0⟩ w).done s)

/-- EVENT_PIN_EDGE (R461). -/
def execEventPinEdge (pin : Fin 4) (s : State) : Res := .next ((s.pinEdge pin.val).done s)

/-- FABRIC_TIME_TICK (R461). -/
def execFabricTimeTick (s : State) : Res := .next (s.timeTick.done s)

/-- RAIL_FAULT (R474). -/
def execRailFault (rail : Fin 13) (s : State) : Res :=
  .next ((if s.pwr.pwrgood then s.railFault rail.val else s).done s)

/-- PLL_UNLOCK (R474). -/
def execPllUnlock (pll : Fin 6) (s : State) : Res := .next ((s.pllUnlock pll.val).done s)

/-- THERMAL_READING (R480): every 100 µs. -/
def execThermalReading (tjMax hottest tjMean : Nat) (s : State) : Res :=
  .next ((if s.pwr.pwrgood then (s.advance (s.nextTick (us 100))).thermal tjMax hottest tjMean else s).done s)

/-- REFCLK_LOSS (R482). -/
def execRefclkLoss (clk : Nat) (s : State) : Res := .next ((s.refLost clk).done s)

/-- REFCLK_RETURN (R482). -/
def execRefclkReturn (clk : Nat) (s : State) : Res :=
  .next ((if s.pwr.pwrgood then s.refBack clk else s).done s)

/-- Write the mailbox. -/
def State.setMb (s : State) (v : Mailbox) : State := { s with pwr := { s.pwr with mb := v } }

/-- The router core runs: its PLL is locked (R416, R486). -/
def State.coreClock (s : State) : Bool := bitOf (s.fld PWR_STATUS.pll_lock 0 0) 0

/-- PWR_MB_ADDR, PWR_MB_DATA and PWR_MB_CTL are written, with go set in the last (R485, R486). -/
def State.mbStart (s : State) (addr data ctl : Word) : State :=
  let v := { s.pwr.mb with doneIbi := ctl.getLsbD 2, write := ctl.getLsbD 1 }
  if v.busy.isSome then s.setMb v
  else
    let v := { v with addr := bitsOf addr.toNat 25 3, data := data }
    if !ctl.getLsbD 0 then s.setMb v
    else
      let v := { v with busy := some s.now, result := 0, got := if s.coreClock then none else some (0, 1) }
      let s := s.setMb v
      if s.coreClock then
        s.regAccess ⟨mI3c, 8 * v.addr, .w64, if v.write then some data else none, none, s.now⟩
      else s

/-- busy clears with a result. -/
def State.mbEnd (s : State) (data : Word) (result : Nat) : State :=
  let s := s.setMb { s.pwr.mb with busy := none, got := none, data := data, result := result }
  if s.pwr.mb.doneIbi then s.ibi 1 else s

/-- The access has completed (R486): the data of a read stands in PWR_MB_DATA. -/
def State.mbDone (s : State) : State :=
  let v := s.pwr.mb
  match v.busy, v.got with
  | some _, some (x, r) => s.mbEnd (if v.write || r != 0 then v.data else x) r
  | _, _ => s

/-- 2 ms have passed without completion (R486): the access itself goes on, and its end is forgotten. -/
def State.mbLimit (s : State) : State :=
  match s.pwr.mb.busy, s.pwr.mb.got with
  | some t, none => s.due (t + ms 2) fun s => s.mbEnd s.pwr.mb.data 3
  | _, _ => s

/-- MB_GO (R486). -/
def execMbGo (addr data ctl : Word) (s : State) : Res :=
  .next ((if s.pwr.pwrgood then s.mbStart addr data ctl else s).done s)

/-- MB_ACCESS_DONE (R486). -/
def execMbAccessDone (s : State) : Res := .next (s.mbDone.done s)

/-- MB_TIMEOUT (R486). -/
def execMbTimeout (s : State) : Res := .next (s.mbLimit.done s)

/-- SETDASA (R484). -/
def execSetdasa (addr : Nat) (s : State) : Res := .next ((s.setDasa addr).done s)

/-- ENTDAA (R484). -/
def execEntdaa (addr : Nat) (s : State) : Res := .next ((s.entDaa addr).done s)

/-- RSTDAA (R484). -/
def execRstdaa (s : State) : Res := .next (s.rstDaa.done s)

/-- ENEC (R487). -/
def execEnec (s : State) : Res := .next (s.enec.done s)

/-- EXTEST (R488). -/
def execExtest (s : State) : Res := .next ((s.jtagLoad .extest).done s)

/-- IDCODE (R488). -/
def execIdcode (s : State) : Res := .next ((s.jtagLoad .idcode).done s)

/-- SAMPLE_PRELOAD (R488). -/
def execSamplePreload (s : State) : Res := .next ((s.jtagLoad .sample).done s)

/-- CLAMP (R488). -/
def execClamp (s : State) : Res := .next ((s.jtagLoad .clamp).done s)

/-- HIGHZ (R488). -/
def execHighz (s : State) : Res := .next ((s.jtagLoad .highz).done s)

/-- EXTEST_PULSE (R488). -/
def execExtestPulse (s : State) : Res := .next ((s.jtagLoad .extestPulse).done s)

/-- EXTEST_TRAIN (R488). -/
def execExtestTrain (s : State) : Res := .next ((s.jtagLoad .extestTrain).done s)

/-- BYPASS (R488). -/
def execBypass (s : State) : Res := .next ((s.jtagLoad .bypass).done s)

/-- Write the TAP. -/
def State.setJtag (s : State) (v : Jtag) : State := { s with pwr := { s.pwr with jtag := v } }

/-- A scan of the REGACC register (R489): Capture-DR gives the result of the last access, and Update-DR starts the next
one when that has ended. -/
def State.regacc (s : State) (dr : BitVec 96) : State :=
  let v := { s.pwr.jtag with ir := 0x20 }
  let s := s.emit (.jtag .regacc (putBits v.dr.toNat 89 88 v.status))
  if v.status = 1 then s.setJtag v
  else if !s.coreClock then s.setJtag { v with status := 2 }
  else
    let n := dr.toNat
    let s := s.setJtag { v with dr := BitVec.ofNat 96 (bitsOf n 87 0), status := 1 }
    s.regAccess ⟨mJtag, 8 * bitsOf n 86 64, .w64, if bitOf n 87 then some (BitVec.ofNat 64 (bitsOf n 63 0)) else none, none,
      s.now⟩

/-- REGACC (R489). -/
def execRegacc (dr : BitVec 96) (s : State) : Res := .next ((s.regacc dr).done s)

/-- LIFE_TICK (R494). -/
def execLifeTick (s : State) : Res := .next (s.life.done s)

/-- PWRFAIL_FALL (R477). -/
def execPwrfailFall (s : State) : Res := .next ((s.pwrfailPin true).done s)

/-- PWRFAIL_RISE (R478). -/
def execPwrfailRise (s : State) : Res := .next ((s.pwrfailPin false).done s)

end Sys2Proof.Machine
end

