-- ==== Sys2Proof/Machine/Dispatch.lean ====
section
/-!
DEFINITION. The dispatch of every command to its meaning, one arm for each constructor of `Instr`.
-/
namespace Sys2Proof.Machine

/-- The effect of a command on everything but the queue. -/
def exec (i : Instr) (s : State) : Host.Outcome State Fault Refusal :=
  match i with
  | .registerWrite m place size val => Sys2Proof.Machine.execRegisterWrite m place size val s
  | .nodeCoordWrite m w => Sys2Proof.Machine.execNodeCoordWrite m w s
  | .setupDoneWrite m w => Sys2Proof.Machine.execSetupDoneWrite m w s
  | .hostLinkTrained p k width link => Sys2Proof.Machine.execHostLinkTrained p k width link s
  | .portCfgWrite m p w => Sys2Proof.Machine.execPortCfgWrite m p w s
  | .portSetupExit m p => Sys2Proof.Machine.execPortSetupExit m p s
  | .portResetCmd m p => Sys2Proof.Machine.execPortResetCmd m p s
  | .hotReset p => Sys2Proof.Machine.execHotReset p s
  | .perstAssert p => Sys2Proof.Machine.execPerstAssert p s
  | .perstDeassert p => Sys2Proof.Machine.execPerstDeassert p s
  | .hostDlDown p => Sys2Proof.Machine.execHostDlDown p s
  | .configRequest p f req => Sys2Proof.Machine.execConfigRequest p f req s
  | .flrInitiate p f => Sys2Proof.Machine.execFlrInitiate p f s
  | .flrComplete p f => Sys2Proof.Machine.execFlrComplete p f s
  | .vfRegDataRead p v acc => Sys2Proof.Machine.execVfRegDataRead p v acc s
  | .vfRegDataWrite p v size val => Sys2Proof.Machine.execVfRegDataWrite p v size val s
  | .vfTblDataRead m p size => Sys2Proof.Machine.execVfTblDataRead m p size s
  | .vfTblDataWrite m p w => Sys2Proof.Machine.execVfTblDataWrite m p w s
  | .intxAck m p w => Sys2Proof.Machine.execIntxAck m p w s
  | .msixEnableChange p f en => Sys2Proof.Machine.execMsixEnableChange p f en s
  | .intxDisableChange p dis => Sys2Proof.Machine.execIntxDisableChange p dis s
  | .slotPowerOff m p k w => Sys2Proof.Machine.execSlotPowerOff m p k w s
  | .slotPowerOn m p k w => Sys2Proof.Machine.execSlotPowerOn m p k w s
  | .slotPowerRemove p k => Sys2Proof.Machine.execSlotPowerRemove p k s
  | .slotPerstRelease p k => Sys2Proof.Machine.execSlotPerstRelease p k s
  | .presenceChange p k present => Sys2Proof.Machine.execPresenceChange p k present s
  | .dllActiveChange p k active width link => Sys2Proof.Machine.execDllActiveChange p k active width link s
  | .powerFault p k => Sys2Proof.Machine.execPowerFault p k s
  | .attentionButton p k => Sys2Proof.Machine.execAttentionButton p k s
  | .dsCfgRead m p k => Sys2Proof.Machine.execDsCfgRead m p k s
  | .dsCfgWrite m p k w => Sys2Proof.Machine.execDsCfgWrite m p k w s
  | .dsCfgComplete p k r => Sys2Proof.Machine.execDsCfgComplete p k r s
  | .dsMemRead m p k => Sys2Proof.Machine.execDsMemRead m p k s
  | .dsMemWrite m p k w => Sys2Proof.Machine.execDsMemWrite m p k w s
  | .dsMemComplete p k r => Sys2Proof.Machine.execDsMemComplete p k r s
  | .dsAccessTimeout p k => Sys2Proof.Machine.execDsAccessTimeout p k s
  | .dsInboundRequest p sl k => Sys2Proof.Machine.execDsInboundRequest p sl k s
  | .hdmCfgWrite m p k w => Sys2Proof.Machine.execHdmCfgWrite m p k w s
  | .doorbellTail m pg v => Sys2Proof.Machine.execDoorbellTail m pg v s
  | .cqHeadWrite m pg v => Sys2Proof.Machine.execCqHeadWrite m pg v s
  | .cqArm m pg v => Sys2Proof.Machine.execCqArm m pg v s
  | .inlineDoorbell m pg d => Sys2Proof.Machine.execInlineDoorbell m pg d s
  | .descriptorFetch c => Sys2Proof.Machine.execDescriptorFetch c s
  | .descriptorReturn c ds => Sys2Proof.Machine.execDescriptorReturn c ds s
  | .nop h => Sys2Proof.Machine.execNop h s
  | .put h => Sys2Proof.Machine.execPut h s
  | .get h => Sys2Proof.Machine.execGet h s
  | .atomic h => Sys2Proof.Machine.execAtomic h s
  | .send h => Sys2Proof.Machine.execSend h s
  | .recvPost h => Sys2Proof.Machine.execRecvPost h s
  | .recvCancel h => Sys2Proof.Machine.execRecvCancel h s
  | .collBroadcast h => Sys2Proof.Machine.execCollBroadcast h s
  | .collReduce h => Sys2Proof.Machine.execCollReduce h s
  | .collAllreduce h => Sys2Proof.Machine.execCollAllreduce h s
  | .collReduceScatter h => Sys2Proof.Machine.execCollReduceScatter h s
  | .collAllgather h => Sys2Proof.Machine.execCollAllgather h s
  | .collBarrier h => Sys2Proof.Machine.execCollBarrier h s
  | .fenceContext h => Sys2Proof.Machine.execFenceContext h s
  | .fenceTarget h => Sys2Proof.Machine.execFenceTarget h s
  | .counterArm h => Sys2Proof.Machine.execCounterArm h s
  | .triggered h => Sys2Proof.Machine.execTriggered h s
  | .semAcquireWait h => Sys2Proof.Machine.execSemAcquireWait h s
  | .semTry h => Sys2Proof.Machine.execSemTry h s
  | .semRelease h => Sys2Proof.Machine.execSemRelease h s
  | .handleQuery m w => Sys2Proof.Machine.execHandleQuery m w s
  | .ctxRead m => Sys2Proof.Machine.execCtxRead m s
  | .ctxOpen m => Sys2Proof.Machine.execCtxOpen m s
  | .ctxClose m => Sys2Proof.Machine.execCtxClose m s
  | .contextClosed c => Sys2Proof.Machine.execContextClosed c s
  | .contextFill c => Sys2Proof.Machine.execContextFill c s
  | .windowCommit m w => Sys2Proof.Machine.execWindowCommit m w s
  | .pendingCommitApply idx => Sys2Proof.Machine.execPendingCommitApply idx s
  | .pinLimitExpire op => Sys2Proof.Machine.execPinLimitExpire op s
  | .xltEntryWrite m w => Sys2Proof.Machine.execXltEntryWrite m w s
  | .loaderStart m w => Sys2Proof.Machine.execLoaderStart m w s
  | .loaderEntry e => Sys2Proof.Machine.execLoaderEntry e s
  | .syncStart m => Sys2Proof.Machine.execSyncStart m s
  | .syncDone => Sys2Proof.Machine.execSyncDone s
  | .fmemHostAccess p addr op => Sys2Proof.Machine.execFmemHostAccess p addr op s
  | .sendHoldRelease h => Sys2Proof.Machine.execSendHoldRelease h s
  | .sendPacketArrival pkt => Sys2Proof.Machine.execSendPacketArrival pkt s
  | .pullRequestArrival pkt => Sys2Proof.Machine.execPullRequestArrival pkt s
  | .pullResponseArrival pkt => Sys2Proof.Machine.execPullResponseArrival pkt s
  | .finishNoticeArrival pkt => Sys2Proof.Machine.execFinishNoticeArrival pkt s
  | .placementReportArrival pkt => Sys2Proof.Machine.execPlacementReportArrival pkt s
  | .withdrawalArrival pkt => Sys2Proof.Machine.execWithdrawalArrival pkt s
  | .withdrawalAnswerArrival pkt => Sys2Proof.Machine.execWithdrawalAnswerArrival pkt s
  | .matRefusalArrival pkt => Sys2Proof.Machine.execMatRefusalArrival pkt s
  | .firmwareProbeResult c => Sys2Proof.Machine.execFirmwareProbeResult c s
  | .busyRetryExpire h => Sys2Proof.Machine.execBusyRetryExpire h s
  | .recvHoldRelease c => Sys2Proof.Machine.execRecvHoldRelease c s
  | .orderReset m w => Sys2Proof.Machine.execOrderReset m w s
  | .putDataArrival pkt => Sys2Proof.Machine.execPutDataArrival pkt s
  | .getRequestArrival pkt => Sys2Proof.Machine.execGetRequestArrival pkt s
  | .getResponseArrival pkt => Sys2Proof.Machine.execGetResponseArrival pkt s
  | .fetchAdd pkt => Sys2Proof.Machine.execFetchAdd pkt s
  | .fetchAnd pkt => Sys2Proof.Machine.execFetchAnd pkt s
  | .fetchOr pkt => Sys2Proof.Machine.execFetchOr pkt s
  | .fetchXor pkt => Sys2Proof.Machine.execFetchXor pkt s
  | .swap pkt => Sys2Proof.Machine.execSwap pkt s
  | .cswap pkt => Sys2Proof.Machine.execCswap pkt s
  | .fetchMinS pkt => Sys2Proof.Machine.execFetchMinS pkt s
  | .fetchMaxS pkt => Sys2Proof.Machine.execFetchMaxS pkt s
  | .fetchMinU pkt => Sys2Proof.Machine.execFetchMinU pkt s
  | .fetchMaxU pkt => Sys2Proof.Machine.execFetchMaxU pkt s
  | .fetchAddF64 pkt => Sys2Proof.Machine.execFetchAddF64 pkt s
  | .cswap128 pkt => Sys2Proof.Machine.execCswap128 pkt s
  | .atomicopCompletion op r => Sys2Proof.Machine.execAtomicopCompletion op r s
  | .atomicResponseArrival pkt => Sys2Proof.Machine.execAtomicResponseArrival pkt s
  | .putResponseArrival pkt => Sys2Proof.Machine.execPutResponseArrival pkt s
  | .refusalArrival pkt => Sys2Proof.Machine.execRefusalArrival pkt s
  | .resendTimerExpire r => Sys2Proof.Machine.execResendTimerExpire r s
  | .operationTimeout h => Sys2Proof.Machine.execOperationTimeout h s
  | .ctrValueWrite m w => Sys2Proof.Machine.execCtrValueWrite m w s
  | .ctrWordWrite m n w => Sys2Proof.Machine.execCtrWordWrite m n w s
  | .cscDataArrival pkt => Sys2Proof.Machine.execCscDataArrival pkt s
  | .stepEndArrival pkt => Sys2Proof.Machine.execStepEndArrival pkt s
  | .rerequestArrival pkt => Sys2Proof.Machine.execRerequestArrival pkt s
  | .abortArrival pkt => Sys2Proof.Machine.execAbortArrival pkt s
  | .rerequestTimerExpire h step seg => Sys2Proof.Machine.execRerequestTimerExpire h step seg s
  | .stagingAvailable => Sys2Proof.Machine.execStagingAvailable s
  | .groupCfgWrite m w => Sys2Proof.Machine.execGroupCfgWrite m w s
  | .groupMaskWrite m w => Sys2Proof.Machine.execGroupMaskWrite m w s
  | .portMapWrite m p w => Sys2Proof.Machine.execPortMapWrite m p w s
  | .linkBlockArrival p b bad => Sys2Proof.Machine.execLinkBlockArrival p b bad s
  | .linkBlockSend p => Sys2Proof.Machine.execLinkBlockSend p s
  | .escapeWaitExpire id => Sys2Proof.Machine.execEscapeWaitExpire id s
  | .holdExpire id => Sys2Proof.Machine.execHoldExpire id s
  | .heldPacketRoute id => Sys2Proof.Machine.execHeldPacketRoute id s
  | .retentionExpire p => Sys2Proof.Machine.execRetentionExpire p s
  | .bankDataWrite m w => Sys2Proof.Machine.execBankDataWrite m w s
  | .epochFlip m w => Sys2Proof.Machine.execEpochFlip m w s
  | .lineStateNotice pkt => Sys2Proof.Machine.execLineStateNotice pkt s
  | .lineStateTimer => Sys2Proof.Machine.execLineStateTimer s
  | .hintRefresh => Sys2Proof.Machine.execHintRefresh s
  | .urgentTokenGrant => Sys2Proof.Machine.execUrgentTokenGrant s
  | .laneReset m l => Sys2Proof.Machine.execLaneReset m l s
  | .laneSetupExit m l => Sys2Proof.Machine.execLaneSetupExit m l s
  | .laneRetire m l => Sys2Proof.Machine.execLaneRetire m l s
  | .trainingFrame l f => Sys2Proof.Machine.execTrainingFrame l f s
  | .signalDetect l => Sys2Proof.Machine.execSignalDetect l s
  | .trainingTimeout l => Sys2Proof.Machine.execTrainingTimeout l s
  | .eyeWindowEnd l means sigmas => Sys2Proof.Machine.execEyeWindowEnd l means sigmas s
  | .codewordReceive p symbols => Sys2Proof.Machine.execCodewordReceive p symbols s
  | .alignmentMarker l mk => Sys2Proof.Machine.execAlignmentMarker l mk s
  | .alignTimeout p => Sys2Proof.Machine.execAlignTimeout p s
  | .signalLoss l => Sys2Proof.Machine.execSignalLoss l s
  | .m2CharacterReceive l ch => Sys2Proof.Machine.execM2CharacterReceive l ch s
  | .m2Slip m l => Sys2Proof.Machine.execM2Slip m l s
  | .testCfgWrite m l w => Sys2Proof.Machine.execTestCfgWrite m l w s
  | .injectStart m l w => Sys2Proof.Machine.execInjectStart m l w s
  | .txEqWrite m l w => Sys2Proof.Machine.execTxEqWrite m l w s
  | .nakRepeatTimer p => Sys2Proof.Machine.execNakRepeatTimer p s
  | .replayTimeout p => Sys2Proof.Machine.execReplayTimeout p s
  | .creditTimeout p pool => Sys2Proof.Machine.execCreditTimeout p pool s
  | .hello p f => Sys2Proof.Machine.execHello p f s
  | .admitNonce p f => Sys2Proof.Machine.execAdmitNonce p f s
  | .admitProof p f => Sys2Proof.Machine.execAdmitProof p f s
  | .admitVerdict p f => Sys2Proof.Machine.execAdmitVerdict p f s
  | .poison p f => Sys2Proof.Machine.execPoison p f s
  | .time p f recvStamp => Sys2Proof.Machine.execTime p f recvStamp s
  | .resetReq p f => Sys2Proof.Machine.execResetReq p f s
  | .resetAck p f => Sys2Proof.Machine.execResetAck p f s
  | .resetAckTimeout p => Sys2Proof.Machine.execResetAckTimeout p s
  | .canaryTick p => Sys2Proof.Machine.execCanaryTick p s
  | .linkResetCmd m p => Sys2Proof.Machine.execLinkResetCmd m p s
  | .lnkSetupExit m p => Sys2Proof.Machine.execLnkSetupExit m p s
  | .lnkEnterSetup m p => Sys2Proof.Machine.execLnkEnterSetup m p s
  | .bringupStepTimeout p => Sys2Proof.Machine.execBringupStepTimeout p s
  | .bringupRetry p => Sys2Proof.Machine.execBringupRetry p s
  | .timeSendTimer p => Sys2Proof.Machine.execTimeSendTimer p s
  | .handlerDispatch => Sys2Proof.Machine.execHandlerDispatch s
  | .triggerQueueRelease => Sys2Proof.Machine.execTriggerQueueRelease s
  | .handlerEcall c => Sys2Proof.Machine.execHandlerEcall c s
  | .handlerBudgetExpire c => Sys2Proof.Machine.execHandlerBudgetExpire c s
  | .handlerException c mtval => Sys2Proof.Machine.execHandlerException c mtval s
  | .tlbMiss c va acc => Sys2Proof.Machine.execTlbMiss c va acc s
  | .tlbFill c entry idx => Sys2Proof.Machine.execTlbFill c entry idx s
  | .tlbLockFill c entry idx pg => Sys2Proof.Machine.execTlbLockFill c entry idx pg s
  | .tlbRefuse c detail => Sys2Proof.Machine.execTlbRefuse c detail s
  | .tlbInvalidatePage c va => Sys2Proof.Machine.execTlbInvalidatePage c va s
  | .tlbInvalidateContext c => Sys2Proof.Machine.execTlbInvalidateContext c s
  | .tlbInvalidateAll c => Sys2Proof.Machine.execTlbInvalidateAll c s
  | .tlbUnlockAll c => Sys2Proof.Machine.execTlbUnlockAll c s
  | .tlbAgerTick => Sys2Proof.Machine.execTlbAgerTick s
  | .ipiSet m w => Sys2Proof.Machine.execIpiSet m w s
  | .timecmpMatch c => Sys2Proof.Machine.execTimecmpMatch c s
  | .coreReset m c => Sys2Proof.Machine.execCoreReset m c s
  | .coreRetire m c => Sys2Proof.Machine.execCoreRetire m c s
  | .trigCfgWrite m w => Sys2Proof.Machine.execTrigCfgWrite m w s
  | .handlerMemRead m => Sys2Proof.Machine.execHandlerMemRead m s
  | .handlerMemWrite m w => Sys2Proof.Machine.execHandlerMemWrite m w s
  | .scratchpadHostAccess p addr op a => Sys2Proof.Machine.execScratchpadHostAccess p addr op a s
  | .spdBusyRetry off => Sys2Proof.Machine.execSpdBusyRetry off s
  | .bankOwnerWrite m b w => Sys2Proof.Machine.execBankOwnerWrite m b w s
  | .bankRetain m b => Sys2Proof.Machine.execBankRetain m b s
  | .retentionEntry b => Sys2Proof.Machine.execRetentionEntry b s
  | .bankWake m b => Sys2Proof.Machine.execBankWake m b s
  | .bankWakeDone b => Sys2Proof.Machine.execBankWakeDone b s
  | .marchStart m w => Sys2Proof.Machine.execMarchStart m w s
  | .marchDone fails repairs => Sys2Proof.Machine.execMarchDone fails repairs s
  | .semAcquireRead m n k size => Sys2Proof.Machine.execSemAcquireRead m n k size s
  | .semReleaseWrite m n k w => Sys2Proof.Machine.execSemReleaseWrite m n k w s
  | .semForce m w => Sys2Proof.Machine.execSemForce m w s
  | .grantWindowExpire n => Sys2Proof.Machine.execGrantWindowExpire n s
  | .faultWindowEnd b src => Sys2Proof.Machine.execFaultWindowEnd b src s
  | .escalationExpire b => Sys2Proof.Machine.execEscalationExpire b s
  | .pseudoChannelCopyDone c => Sys2Proof.Machine.execPseudoChannelCopyDone c s
  | .marchSliceDone b test => Sys2Proof.Machine.execMarchSliceDone b test s
  | .escActNow m b w => Sys2Proof.Machine.execEscActNow m b w s
  | .escWithdraw m b w => Sys2Proof.Machine.execEscWithdraw m b w s
  | .firstRecordClear m b => Sys2Proof.Machine.execFirstRecordClear m b s
  | .faultInjectStart m b w => Sys2Proof.Machine.execFaultInjectStart m b w s
  | .faultInjectTick b => Sys2Proof.Machine.execFaultInjectTick b s
  | .sramError b uncorrectable => Sys2Proof.Machine.execSramError b uncorrectable s
  | .hbmReadError addr uncorrectable => Sys2Proof.Machine.execHbmReadError addr uncorrectable s
  | .scratchpadEccError addr uncorrectable => Sys2Proof.Machine.execScratchpadEccError addr uncorrectable s
  | .cacheParityError c tlb => Sys2Proof.Machine.execCacheParityError c tlb s
  | .crossbarError p id => Sys2Proof.Machine.execCrossbarError p id s
  | .cscUnitError u => Sys2Proof.Machine.execCscUnitError u s
  | .journalWriteCompletion ok => Sys2Proof.Machine.execJournalWriteCompletion ok s
  | .restatementCycleEnd => Sys2Proof.Machine.execRestatementCycleEnd s
  | .lagRateTick rate => Sys2Proof.Machine.execLagRateTick rate s
  | .reportHoldRelease => Sys2Proof.Machine.execReportHoldRelease s
  | .pwrfailTaken => Sys2Proof.Machine.execPwrfailTaken s
  | .sealCmd m => Sys2Proof.Machine.execSealCmd m s
  | .detachCmd m => Sys2Proof.Machine.execDetachCmd m s
  | .sealFlushComplete => Sys2Proof.Machine.execSealFlushComplete s
  | .replayComplete readable ms => Sys2Proof.Machine.execReplayComplete readable ms s
  | .quarantineExpire => Sys2Proof.Machine.execQuarantineExpire s
  | .resumePort m w => Sys2Proof.Machine.execResumePort m w s
  | .pwrgoodRise up => Sys2Proof.Machine.execPwrgoodRise up s
  | .bootFusesSensed stepping keys spdRepairs => Sys2Proof.Machine.execBootFusesSensed stepping keys spdRepairs s
  | .bootPllLocked => Sys2Proof.Machine.execBootPllLocked s
  | .bootHeadersChecked codeA codeB => Sys2Proof.Machine.execBootHeadersChecked codeA codeB s
  | .bootFirmwareVerified code svn defaults timeRef => Sys2Proof.Machine.execBootFirmwareVerified code svn defaults timeRef s
  | .hbmTrained => Sys2Proof.Machine.execHbmTrained s
  | .hbmZeroed => Sys2Proof.Machine.execHbmZeroed s
  | .firmwareLoaded => Sys2Proof.Machine.execFirmwareLoaded s
  | .bootRelease journal => Sys2Proof.Machine.execBootRelease journal s
  | .bootWatchdogExpire => Sys2Proof.Machine.execBootWatchdogExpire s
  | .pwrgoodFall => Sys2Proof.Machine.execPwrgoodFall s
  | .topResetWrite m w => Sys2Proof.Machine.execTopResetWrite m w s
  | .quoteStart m => Sys2Proof.Machine.execQuoteStart m s
  | .quoteDone => Sys2Proof.Machine.execQuoteDone s
  | .updateVerify m w => Sys2Proof.Machine.execUpdateVerify m w s
  | .updateVerified place => Sys2Proof.Machine.execUpdateVerified place s
  | .updateActivate m => Sys2Proof.Machine.execUpdateActivate m s
  | .firmwareReady => Sys2Proof.Machine.execFirmwareReady s
  | .activationTimeout => Sys2Proof.Machine.execActivationTimeout s
  | .commitSvn m => Sys2Proof.Machine.execCommitSvn m s
  | .flashRead m => Sys2Proof.Machine.execFlashRead m s
  | .flashProgram m w => Sys2Proof.Machine.execFlashProgram m w s
  | .flashErase m => Sys2Proof.Machine.execFlashErase m s
  | .flashOpDone => Sys2Proof.Machine.execFlashOpDone s
  | .logStallExpire => Sys2Proof.Machine.execLogStallExpire s
  | .logStallRelease => Sys2Proof.Machine.execLogStallRelease s
  | .logHeadWrite m w => Sys2Proof.Machine.execLogHeadWrite m w s
  | .logMirrorTick => Sys2Proof.Machine.execLogMirrorTick s
  | .pmcCounterOverflow n => Sys2Proof.Machine.execPmcCounterOverflow n s
  | .evselWrite m n w => Sys2Proof.Machine.execEvselWrite m n w s
  | .freezeNow m => Sys2Proof.Machine.execFreezeNow m s
  | .freezeAt m => Sys2Proof.Machine.execFreezeAt m s
  | .unfreeze m => Sys2Proof.Machine.execUnfreeze m s
  | .freezeTick => Sys2Proof.Machine.execFreezeTick s
  | .sampleCfgWrite m w => Sys2Proof.Machine.execSampleCfgWrite m w s
  | .sampleRecordWrite slot => Sys2Proof.Machine.execSampleRecordWrite slot s
  | .sampleLimitExpire slot => Sys2Proof.Machine.execSampleLimitExpire slot s
  | .sampleHeadWrite m w => Sys2Proof.Machine.execSampleHeadWrite m w s
  | .pinOwnerWrite m w => Sys2Proof.Machine.execPinOwnerWrite m w s
  | .eventPinEdge pin => Sys2Proof.Machine.execEventPinEdge pin s
  | .fabricTimeTick => Sys2Proof.Machine.execFabricTimeTick s
  | .railFault rail => Sys2Proof.Machine.execRailFault rail s
  | .pllUnlock pll => Sys2Proof.Machine.execPllUnlock pll s
  | .thermalReading tjMax hottest tjMean => Sys2Proof.Machine.execThermalReading tjMax hottest tjMean s
  | .refclkLoss clk => Sys2Proof.Machine.execRefclkLoss clk s
  | .refclkReturn clk => Sys2Proof.Machine.execRefclkReturn clk s
  | .mbGo addr data ctl => Sys2Proof.Machine.execMbGo addr data ctl s
  | .mbAccessDone => Sys2Proof.Machine.execMbAccessDone s
  | .mbTimeout => Sys2Proof.Machine.execMbTimeout s
  | .setdasa addr => Sys2Proof.Machine.execSetdasa addr s
  | .entdaa addr => Sys2Proof.Machine.execEntdaa addr s
  | .rstdaa => Sys2Proof.Machine.execRstdaa s
  | .enec => Sys2Proof.Machine.execEnec s
  | .extest => Sys2Proof.Machine.execExtest s
  | .idcode => Sys2Proof.Machine.execIdcode s
  | .samplePreload => Sys2Proof.Machine.execSamplePreload s
  | .clamp => Sys2Proof.Machine.execClamp s
  | .highz => Sys2Proof.Machine.execHighz s
  | .extestPulse => Sys2Proof.Machine.execExtestPulse s
  | .extestTrain => Sys2Proof.Machine.execExtestTrain s
  | .bypass => Sys2Proof.Machine.execBypass s
  | .regacc dr => Sys2Proof.Machine.execRegacc dr s
  | .lifeTick => Sys2Proof.Machine.execLifeTick s
  | .hostReadCompletion p tag data => Sys2Proof.Machine.execHostReadCompletion p tag data s
  | .hostCompletionTimeout p tag => Sys2Proof.Machine.execHostCompletionTimeout p tag s
  | .pullRouteTimeout h => Sys2Proof.Machine.execPullRouteTimeout h s
  | .patternCheckerReceive l bits => Sys2Proof.Machine.execPatternCheckerReceive l bits s
  | .pwrfailFall => Sys2Proof.Machine.execPwrfailFall s
  | .pwrfailRise => Sys2Proof.Machine.execPwrfailRise s
  | .functionReady p f => Sys2Proof.Machine.execFunctionReady p f s
  | .hbmRowRepairDone c => Sys2Proof.Machine.execHbmRowRepairDone c s
  | .aerError p uncorrectable => Sys2Proof.Machine.execAerError p uncorrectable s

end Sys2Proof.Machine
end

