-- ==== Sys2Proof/Machine/HbmView.lean ====
section
/-!
DEFINITION. The bytes of HBM as a handler core sees them: the areas of the reserved region (R130) and fabric memory, by lines of
64 bytes.
-/
set_option Elab.async false
namespace Sys2Proof.Machine

/-- The 64 bytes of a window table entry (R118). -/
def WinEntry.toBytes (v : WinEntry) : List Byte :=
  fieldBytes 64 [(0, 24, v.img0.bits.toNat), (24, 24, v.img1.bits.toNat), (48, 2, v.gen),
    (50, 1, b2n v.active + 2 * b2n v.queued.isSome), (52, 4, v.pins0), (56, 4, v.pins1)]

/-- The 64 bytes of an operation record (R178); where its bitmap lies in the pool is open (log entry 135). -/
def State.opBytes (s : State) (v : OpRec) : List Byte :=
  let n := v.total
  let kind := match v.phase with
    | .abandoned => 0
    | .active => 1
    | .ended => 2
    | .refused => 3
  let map := if 128 < n then (Config.poolPlace v.slot).toNat else (v.present.map (2 ^ ·)).sum
  fieldBytes 64 [(0, 4, (s.peerOf v.ctx v.remote).slot), (4, 4, v.osn),
    (8, 1, kind + v.pkind % 8 * 4 + b2n v.regwin * 32 + b2n (decide (128 < n)) * 64 + b2n v.image * 128), (9, 1, v.detail),
    (10, 1, v.status), (12, 2, v.window), (14, 2, v.gen), (16, 4, n - 1), (20, 4, v.present.eraseDups.length),
    (24, 8, s.fabric - (s.now - v.lastTime) / 1000), (32, 16, map), (48, 16, v.result.toNat)]

/-- A line of the match store or of its overflow area: the entry of an index, zero where there is none (R143). -/
def State.matLine (s : State) (slot : Nat) : List Byte :=
  match List.find? (fun e => e.2.slot == slot) s.mat.store with
  | some e => s.matEntryBytes e.1 e.2
  | none => leBytes 64 0

/-- A peer record by its index, zero where there is none. -/
def State.peerLine (s : State) (slot : Nat) : List Byte :=
  match s.rma.peers.find? fun v => v.slot == slot with
  | some v => s.peerBytes v
  | none => leBytes 32 0

/-- An operation record by its index, zero where there is none. -/
def State.opLine (s : State) (slot : Nat) : List Byte :=
  match s.rma.ops.find? fun v => v.slot == slot with
  | some v => s.opBytes v
  | none => leBytes 64 0

/-- The change-log record at a slot of the ring, zero where none has come (R435). -/
def State.logLine (s : State) (slot : Nat) : List Byte :=
  match List.find? (fun e => s.log.ring && e.1 % 524288 == slot) s.log.recs with
  | some e => e.2.bytes
  | none => leBytes 32 0

/-- The payload of messages in the Sump: the bytes of a line of 64, where a message fills it (R149). -/
def State.sumpLine (s : State) (a : Nat) : Option (List Byte) :=
  let msgs := (List.filter (fun e => e.2.kind == 1 && !e.2.pull && e.2.size != 0) s.mat.store).map fun e => (e.2.gran, e.2.data)
  let runs := msgs ++ s.mat.bound.map fun b => (b.gran, b.wait)
  runs.findSome? fun (g, parts) => parts.findSome? fun (off, bs) =>
    let lo := 256 * g + off
    if lo ≤ a ∧ a + 64 ≤ lo + bs.length then some ((bs.drop (a - lo)).take 64) else none

/-- The bytes of a line of the reserved region below handler memory, by its address; none where the spec gives no content, or
nothing holds it. -/
def State.reservedLine (s : State) (a : Nat) : Option (List Byte) :=
  if a < 0x8000000 then some (((s.ctxBytes (a / 128)).drop (a % 128)).take 64)
  else if a < 0x10000000 then some (s.win ((a - 0x8000000) / 64)).toBytes
  else if a < 0x18000000 then
    some ((List.range 8).flatMap fun k => leBytes 8 (s.xltEntry ((a - 0x10000000) / 8 + k)).toNat)
  else if a < 0x118000000 then some (s.matLine ((a - 0x18000000) / 64))
  else if a < 0x218000000 then s.sumpLine (a - 0x118000000)
  else if a < 0x238000000 then some (s.matLine (2 ^ 26 + (a - 0x218000000) / 64))
  else if a < 0x258000000 then
    let k := (a - 0x238000000) / 32
    some (s.peerLine k ++ s.peerLine (k + 1))
  else if a < 0x298000000 then some (s.opLine ((a - 0x258000000) / 64))
  else if a < 0x2A8000000 then
    let k := 2 ^ 24 + (a - 0x298000000) / 32
    some (s.peerLine k ++ s.peerLine (k + 1))
  else if a < 0x398000000 then none
  else if a < 0x399000000 then
    let k := (a - 0x398000000) / 32
    some (s.logLine k ++ s.logLine (k + 1))
  else if a < 0x3A9000000 then
    let w := (SMap.getD (fun _ => (0 : BitVec 1024)) s.pmc.buf ((a - 0x399000000) / 128)).toNat
    some (((leBytes 128 w).drop (a % 128)).take 64)
  else some (s.hdl.work.read (a - 0x3A9000000) 64)

/-- Where handler memory begins in HBM (R130). -/
def hmemBase : Nat := 0x3C0000000

/-- The size of HBM. -/
def hbmSize : Nat := 144 * 2 ^ 30

/-- The 64 bytes at an HBM address, where the model holds them. -/
def State.lineAt (s : State) (a : Nat) : Option (List Byte) :=
  if s.hbmAddr 0 ≤ a then some (s.fmem.read (a - s.hbmAddr 0) 64)
  else if hmemBase ≤ a then some (s.hmem.read (a - hmemBase) 64)
  else s.reservedLine a

/-- The 64 bytes of a line of HBM; what nothing holds is a free value. -/
def State.hbmLine (s : State) (line : Nat) : List Byte × State :=
  if (s.lineAt (64 * line)).isSome then ((s.lineAt (64 * line)).getD [], s)
  else
    let x := s.fresh 512
    (leBytes 64 x.1.toNat, x.2)

/-- A store of a core to the translation table: every entry it touches is a table update of the core (R336). -/
def State.tableStore (s : State) (m a : Nat) (bs : List Byte) : State :=
  let first := (a - 0x10000000) / 8
  let last := (a + bs.length - 1 - 0x10000000) / 8
  (List.range (last + 1 - first)).foldl (fun s k =>
    let i := first + k
    let old := leBytes 8 (s.xltEntry i).toNat
    let new := (List.range 8).map fun j =>
      let b := 0x10000000 + 8 * i + j
      if a ≤ b ∧ b < a + bs.length then bs.getD (b - a) 0 else old.getD j 0
    s.writeXlt m i (BitVec.ofNat 64 (ofLE new))) s

/-- A store of a core to HBM (R324, R325); none while a table update must wait. A store into a structure that a block keeps in HBM
for itself, the translation table apart, changes nothing (log entry 135). -/
def State.hbmStore (s : State) (m a : Nat) (bs : List Byte) : Option State :=
  let counted (s : State) : State := (s.hbmMend a bs.length).pmcEv 19 2 (hbmChannel a) 0 bs.length
  if s.hbmAddr 0 ≤ a then some (s.fmemStore (a - s.hbmAddr 0) bs)
  else if hmemBase ≤ a then some (counted { s with hmem := s.hmem.write (a - hmemBase) bs })
  else if 0x3A9000000 ≤ a then
    some (counted { s with hdl := { s.hdl with work := s.hdl.work.write (a - 0x3A9000000) bs } })
  else if 0x10000000 ≤ a ∧ a < 0x18000000 then
    if s.logFull || s.rsvHeld then none else some (counted (s.tableStore m a bs))
  else some (counted s)

end Sys2Proof.Machine
end

