-- ==== Sys2Proof/Machine/Line.lean ====
section
/-!
DEFINITION. What the lanes send in one core cycle without a command: training frames, codewords of lanes in align, idle
characters in Malsol mode, and test patterns (R266, R273, R275, R282, R284, R286; log entry 85).
-/
set_option Elab.async false
namespace Sys2Proof.Machine

/-- How many of the slots that follow one another from `base`, `num` in `den` ps, begin after `t0` and up to `t1`. -/
def slotsIn (num den base t0 t1 : Nat) : Nat := (t1 - base) * num / den - (t0 - base) * num / den

/-! ## Training frames (R273) -/

/-- A control or status field of 32 bits in symbol pairs, from bit 0: a 1 as (+3, −3), a 0 as (−3, +3). -/
def pairLevels (v : Nat) : List Int := (List.range 32).flatMap fun i => if bitOf v i then [3, -3] else [-3, 3]

/-- The control and the status field of a frame. -/
def frameControl (f : TrainFrame) : Nat := f.tap % 8 + f.request % 4 * 8
def frameStatus (f : TrainFrame) : Nat :=
  f.response % 4 + b2n f.ready * 4 + b2n f.width1 * 8 + f.survivor % 2 * 16 + f.lane % 2 * 32

/-- The 4,096 levels of a frame with its pattern's bits. -/
def frameLevels (f : TrainFrame) (bits : List Bool) : List Int :=
  List.replicate 8 3 ++ List.replicate 8 (-3) ++ pairLevels (frameControl f) ++ pairLevels (frameStatus f) ++ pamLevels bits

/-- Send a training frame; its pattern, PRBS13, continues from frame to frame. -/
def State.sendFrame (s : State) (l : Nat) : State :=
  let v := s.lane l
  let f := s.ownFrame l
  let x := prbsRun 2 7904 v.gen []
  ((s.setLane l { v with gen := x.2 }).emit (.frame l f)).sendLevels l (frameLevels f x.1)

/-! ## Codewords of a port in align (R266, R275) -/

/-- Stream bytes that no block holds: free values. -/
def State.freeBytes (s : State) : Nat → List Byte × State
  | 0 => ([], s)
  | k + 1 =>
    let x := s.fresh 512
    let y := x.2.freeBytes k
    (leBytes 64 x.1.toNat ++ y.1, y.2)

/-- Send the next codeword of a port whose link sends no blocks yet: a marker, or one in which no block starts. -/
def State.sendFiller (s : State) (p : Nat) : State :=
  if (s.lanTx p).index = 0 then s.sendMarker p
  else
    let x := s.freeBytes 5
    let t := x.2.lanTx p
    (x.2.setLanTx p { t with bytes := x.1 ++ t.bytes, starts := t.starts.map (· + 320) }).sendData p

/-! ## Test patterns (R284, R286) -/

/-- The next `n` bits of a lane's generator. -/
def State.genBits (s : State) (l n : Nat) : List Bool × State :=
  let v := s.lane l
  let pat := s.fld LAN_TEST_CFG.gen_pat l 0
  if pat = 4 then
    let u := (s.reg ⟨.LAN_TEST_PATTERN, l, 0⟩).toNat
    ((List.range n).map fun i => bitOf u ((v.genBit + i) % 64), s.setLane l { v with genBit := (v.genBit + n) % 64 })
  else
    let x := prbsRun pat n v.gen []
    (x.1, s.setLane l { v with gen := x.2 })

/-- Invert the bits that an injection in pattern mode damages, the first of `bs` being bit `k` since it began: one in each of
the next count blocks of 1,024. -/
def injectBits (count k : Nat) (bs : List Bool) : List Bool :=
  bs.zipIdx.map fun e =>
    let b := (k + e.2) / 1024
    e.1 != (b < count && (k + e.2) % 1024 == Config.injectBit b % 1024)

/-- Send the pattern bits of the time from `t0` to `t1`: in pairs as PAM4 levels, or one by one in Malsol mode. -/
def State.sendPattern (s : State) (l t0 t1 : Nat) : State :=
  let v := s.lane l
  let nrz := s.malsol (l / 2)
  let n := if nrz then slotsIn 33 3200 v.txAt t0 t1 else 2 * slotsIn 14 125 v.txAt t0 t1
  let x := s.genBits l n
  let bs := match v.injAt with
    | some t => if s.fld LAN_INJECT.mode l 0 = 1 then
        injectBits (s.fld LAN_INJECT.count l 0) (if nrz then slotsIn 33 3200 t t t0 else 2 * slotsIn 14 125 t t t0) x.1
      else x.1
    | none => x.1
  if bs.isEmpty then s
  else if nrz then x.2.emit (.bits l (if s.flag LAN_CFG.tx_invert l 0 then bs.map (! ·) else bs))
  else x.2.sendLevels l (pamLevels bs)

/-! ## One core cycle -/

/-- What one lane sends by itself between two times. -/
def State.laneSends (s : State) (l t0 t1 : Nat) : State :=
  let v := s.lane l
  let st := s.laneSt l
  if !v.tx then s
  else if st = lsTrain then (List.range (slotsIn 112 4096000 v.txAt t0 t1)).foldl (fun s _ => s.sendFrame l) s
  else if st = lsTest ∨ st = lsRetired then s.sendPattern l t0 t1
  else s

/-- What a port sends by itself: codewords while a lane is in align, idle characters in Malsol mode. -/
def State.portSends (s : State) (p t0 t1 : Nat) : State :=
  let on (st : Nat) : List Nat := [2 * p, 2 * p + 1].filter fun l => (s.lane l).tx && s.laneSt l == st
  if s.malsol p then
    match on lsAlign ++ on lsReady with
    | [] => s
    | l :: _ => (List.range (slotsIn 33 32000 (s.lane l).txAt t0 t1)).foldl (fun s _ =>
        let c : Char8 := if (s.lanTx p).slots = 0 then .k 0x7C else .k 0xBC
        let s := (s.setLanTx p { s.lanTx p with slots := ((s.lanTx p).slots + 1) % 2048 })
        [2 * p, 2 * p + 1].foldl (fun s l => if (s.lane l).tx then s.sendChars l [c] else s) s) s
  else match on lsAlign with
    | [] => s
    | l :: _ =>
      let n := if (s.txSole p).isSome then slotsIn 112 1360000 (s.lane l).txAt t0 t1
        else slotsIn 112 680000 (s.lane l).txAt t0 t1
      (List.range n).foldl (fun s _ => s.sendFiller p) s

/-- What all lanes that have their clock (R482) send by themselves between two times. -/
def State.lineSends (s : State) (t0 t1 : Nat) : State :=
  let ls := (s.lan.lanes.filter fun e => e.2.tx && bitOf (s.fld PWR_STATUS.fab_ref_ok 0 0) (e.1 / 72)).map Prod.fst
  let ps := (ls.map (· / 2)).eraseDups
  ps.foldl (fun s p => s.portSends p t0 t1) (ls.foldl (fun s l => s.laneSends l t0 t1) s)

/-- The lines in a core cycle without a command: time passes, and the lanes send; nothing is sent while the data path is stopped
(R386, R401). -/
def State.lineCycle (s : State) : State :=
  let t0 := s.now
  let s := s.endCycle
  if s.frozen then s else s.lineSends t0 s.now

end Sys2Proof.Machine
end

