-- ==== Sys2Proof/Machine/Hart.lean ====
section
/-!
DEFINITION. A handler core at work: interrupts, fetches, loads, stores and atomics by address space, CSRs, the resident firmware's
refill, and one instruction of every core in a core cycle (R321 to R325, R333 to R336, R339, R342). The instructions are those of
the RISC-V specifications (PRESUMED, log entry 59).
-/
set_option Elab.async false
namespace Sys2Proof.Machine

/-! ## Interrupts (R323) -/

/-- The interrupts that are raised at a core, as mip shows them: software, timer, external. -/
def State.coreMip (s : State) (c : Nat) : Nat :=
  let v := s.core c
  b2n (bitOf (s.reg ⟨.HDL_IPI_PEND, 0, 0⟩).toNat c) * 2 ^ 3 + b2n (v.mtip || s.timerDue c) * 2 ^ 7 +
    b2n (v.hxstat.getLsbD 5) * 2 ^ 11

/-- The interrupt that a core takes now: enabled, and in user mode, in the resident firmware's loop or with MIE set. -/
def State.coreIrq (s : State) (c : Nat) : Option Nat :=
  let v := s.core c
  let on := s.coreMip c &&& v.mie.toNat
  if v.umode || v.pc == residentMain || v.mst 3 3 == 1 then [11, 3, 7].find? (bitOf on) else none

/-- The core takes an interrupt: it enters firmware, and goes on where it was after mret. -/
def State.takeIrq (s : State) (c k : Nat) : State :=
  let v := s.core c
  s.setCore c { v.trapped (2 ^ 63 + k) 0 with
    pc := v.trapBase + (if bitOf v.mtvec.toNat 0 then BitVec.ofNat 64 (4 * k) else 0) }

/-! ## The resident firmware -/

/-- The resident trap handler: what it does besides its commands is not the spec's; whether it returns in this cycle is a free
value. It clears semwake of an external interrupt (log entry 133). -/
def State.residentHandler (s : State) (c : Nat) : State :=
  let (x, s) := s.fresh 1
  if x = 0 then s
  else
    let v := s.core c
    let v := if v.mcause = 2 ^ 63 + 11 then { v with hxstat := v.hxstat &&& 0x1F } else v
    s.setCore c v.returned

/-- The resident refill routine (R335). -/
def State.refillRoutine (s : State) (c : Nat) : State :=
  let v := s.core c
  let va := v.hxbad.toNat
  let page := (va - v.hxvabase.toNat) / 2 ^ pgShift v.pgCode
  if !v.refill then s.setCore c v.returned
  else if va < v.hxvabase.toNat || bitsOf v.hxslice.toNat 24 0 ≤ page then s.fillRefused c 2
  else
    let idx := bitsOf v.hxslice.toNat 48 25 + page
    let e := s.xltEntry idx
    if !bitOf e.toNat 0 then s.fillRefused c 3
    else if v.hxstat.getLsbD 1 && !bitOf e.toNat 1 then s.fillRefused c 4
    else s.tlbFill c e idx v.pgCode false

/-! ## What an access reaches (R324) -/

/-- What a translated access reaches. -/
inductive CoreTarget where
  | host (p f a : Nat)
  | hbm (a : Nat)
  | spd (off : Nat)
  | dev (off : Nat)
  | nothing
  deriving DecidableEq, Repr

/-- The target of an access of `n` bytes through an entry; beyond the space's size there is nothing. -/
def State.coreTarget (s : State) (c : Nat) (e : TlbEntry) (va : Word) (n : Nat) : CoreTarget :=
  let w := e.entry.toNat
  let a := bitsOf w 63 12 * 4096 + va.toNat % 2 ^ pgShift e.pg
  match bitsOf w 11 10 with
  | 0 => let r := s.ctx (s.core c).hxctx
         .host r.port r.func a
  | 1 =>
    let h : Int := (s.hbmAddr 0 : Int) + (BitVec.ofNat 64 a).toInt
    if 0 ≤ h ∧ h + n ≤ hbmSize then .hbm h.toNat else .nothing
  | 2 => if a + n ≤ spdSize then .spd a else .nothing
  | _ => if bitOf w 9 then .dev a else .nothing

/-! ## Caches (R321, R325) -/

/-- Put a line into a cache of `size` lines; a full one loses a line that is a free choice. -/
def cachePut (m : SMap (List Byte)) (line : Nat) (bs : List Byte) (size pick : Nat) : SMap (List Byte) :=
  SMap.insert (if size ≤ m.length && (SMap.find? m line).isNone then m.eraseIdx (pick % max 1 m.length) else m) line bs

/-- A line comes into the instruction or the data cache. -/
def HCore.cacheLine (v : HCore) (code : Bool) (line : Nat) (bs : List Byte) (pick : Nat) : HCore :=
  if code then { v with icache := cachePut v.icache line bs 256 pick } else { v with dcache := cachePut v.dcache line bs 512 pick }

/-- Bytes that a core reads from HBM through its instruction or data cache, all of one line. A line that the cache holds is as it was
when it came; whether the cache still holds it is a free value (log entry 136). -/
def State.cacheRead (s : State) (c : Nat) (code : Bool) (a n : Nat) : List Byte × State :=
  let v := s.core c
  let line := a / 64
  let cut (bs : List Byte) : List Byte := (bs.drop (a % 64)).take n
  let (x, s) := s.fresh 16
  match (SMap.find? (if code then v.icache else v.dcache) line).filter fun _ => x.getLsbD 15 with
  | some bs => (cut bs, s)
  | none =>
    let y := s.hbmLine line
    (cut y.1, (y.2.setCore c ((y.2.core c).cacheLine code line y.1 x.toNat)).pmcEv 19 1 (hbmChannel a) 0 64)

/-- A store passes through the data cache: a line that it holds takes the bytes. -/
def HCore.cacheWrite (v : HCore) (a : Nat) (bs : List Byte) : HCore :=
  match SMap.find? v.dcache (a / 64) with
  | some old =>
    let new := old.take (a % 64) ++ bs ++ old.drop (a % 64 + bs.length)
    { v with dcache := SMap.insert v.dcache (a / 64) new }
  | none => v

/-! ## The scratchpad from port B (R339, R342, R344) -/

/-- The core received BUSY. -/
def State.coreBusy (s : State) (c : Nat) : State :=
  s.setCore c { s.core c with hxstat := (s.core c).hxstat ||| 0x10 }

/-- A read of a core; in setup it reads zero. -/
def State.spdCoreRead (s : State) (c off n : Nat) : List Byte × State :=
  let s := s.pmcEv 12 2 (off / 2 ^ 20) 0 1
  if s.inSetup 12 then (List.replicate n 0, s)
  else match s.spdCheck off n with
    | .retired => (List.replicate n 0xFF, s.coreBusy c)
    | .busy => (List.replicate n 0, s.coreBusy c)
    | .ok =>
      let s := s.spdTouch off n
      let bad := s.spd.bad.any fun k => off < 8 * k + 8 && 8 * k < off + n
      (s.spdBytes off n, if bad then s.coreBusy c else s)

/-- A write of a core; in setup it is ignored. -/
def State.spdCoreWrite (s : State) (c off : Nat) (bs : List Byte) : State :=
  let s := s.pmcEv 12 2 (off / 2 ^ 20) 0 1
  if s.inSetup 12 then s
  else if s.spdCheck off bs.length = .ok then (s.spdTouch off bs.length).spdStore off bs
  else s.coreBusy c

/-! ## The device region (R32, R76, R324) -/

/-- The size of a register access. -/
def coreReqSize (n : Nat) : ReqSize := if n = 8 then .w64 else if n = 4 then .w32 else .odd

/-- The doorbell page and the offset in it that an offset of the device region reaches. -/
def doorbellAt (off : Nat) : Option (Nat × Nat) :=
  if 2 ^ 32 ≤ off ∧ off < 2 ^ 32 + 2 ^ 32 then some ((off - 2 ^ 32) / 4096, off % 4096) else none

/-- A load from the device region: the core waits for a register's data. -/
def State.devLoad (s : State) (c off : Nat) (w : CoreWait) : State :=
  if off < 2 ^ 26 then
    (s.setCore c { s.core c with wait := some { w with off := some off } }).directAccess (mCore c) off (coreReqSize w.size) none
  else
    let v := match doorbellAt off with
      | some (k, o) => (s.dbPageWord k (o / 8 * 8)).toNat / 2 ^ (8 * (o % 8))
      | none => 0
    s.setCore c ((s.core c).take w v)

/-- A store to the device region. -/
def State.devStore (s : State) (c off n : Nat) (val : Word) : State :=
  if off < 2 ^ 26 then s.directAccess (mCore c) off (coreReqSize n) (some val)
  else match doorbellAt off with
    | some (k, o) => if n = 4 ∨ n = 8 then s.dbPageWrite (mCore c) k o val.toNat else s
    | none => s

/-! ## Loads, stores and atomics -/

/-- An uncorrectable word that a core reads: the event and its effect, and an access fault (R385). -/
def State.coreUncorrected (s : State) (c a cause : Nat) (va : Word) : State := (s.hbmUncorrected a).coreFault c cause va

/-- A load from what its entry reaches. -/
def State.coreLoadAt (s : State) (c : Nat) (w : CoreWait) (t : CoreTarget) : State :=
  match t with
  | .nothing => s.coreFault c 5 w.va
  | .host p f a =>
    if (s.fn p f).flr then s.coreFault c 5 w.va
    else ((s.setCore c { s.core c with wait := some w }).gather [(.host p f a, w.size)] (.core c)).2
  | .hbm a =>
    if s.hbmBad a w.size then s.coreUncorrected c a 5 w.va
    else
      let (bs, s) := s.cacheRead c false a w.size
      s.setCore c ((s.core c).take w (ofLE bs))
  | .spd o =>
    let (bs, s) := s.spdCoreRead c o w.size
    s.setCore c ((s.core c).take w (ofLE bs))
  | .dev o => s.devLoad c o w

/-- A load (R324). -/
def State.coreLoad (s : State) (c n : Nat) (signed : Bool) (rd : Nat) (va next : Word) : State :=
  let w : CoreWait := ⟨rd, n, signed, va, none, next⟩
  if va.toNat % n ≠ 0 then s.coreFault c 4 va
  else match s.coreEntry c va 1 with
    | (none, s) => s
    | (some e, s) => s.coreLoadAt c w (s.coreTarget c e va n)

/-- The instruction of a core is performed. -/
def State.coreRetire (s : State) (c : Nat) (next : Word) : State := s.setCore c ((s.core c).retire next)

/-- A store to HBM, through the data cache; one that does not happen leaves the core where it is. -/
def State.coreHbmStore (s : State) (c a : Nat) (bs : List Byte) : Option State :=
  (s.hbmStore (mCore c) a bs).map fun t => t.setCore c ((t.core c).cacheWrite a bs)

/-- A store to what its entry reaches. -/
def State.coreStoreAt (s : State) (c n : Nat) (val va next : Word) (t : CoreTarget) : State :=
  let bs := leBytes n val.toNat
  match t with
  | .nothing => s.coreFault c 7 va
  | .host p f a => if (s.fn p f).flr then s.coreFault c 7 va else (s.coreRetire c next).hostWrite p f a bs
  | .hbm a => ((s.coreHbmStore c a bs).map (·.coreRetire c next)).getD s
  | .spd o => (s.spdCoreWrite c o bs).coreRetire c next
  | .dev o => (s.coreRetire c next).devStore c o n val

/-- A store (R324, R325). -/
def State.coreStore (s : State) (c n : Nat) (val va next : Word) : State :=
  if va.toNat % n ≠ 0 then s.coreFault c 6 va
  else match s.coreEntry c va 2 with
    | (none, s) => s
    | (some e, s) => s.coreStoreAt c n val va next (s.coreTarget c e va n)

/-- An atomic instruction, with the register that it stores from. -/
inductive AtomicKind where
  | lr
  | sc (val : Word)
  | amo (k : RvAmo) (val : Word)
  deriving DecidableEq, Repr

/-- The access that an atomic instruction is checked for: load-reserved reads, the others write. -/
def AtomicKind.access : AtomicKind → Nat
  | .lr => 1
  | _ => 2

/-- The cause of its access fault. -/
def AtomicKind.cause (k : AtomicKind) : Nat := if k.access = 1 then 5 else 7

/-- What an atomic instruction does with the bytes in place: what is written, if anything, and what the register gets. A
store-conditional fails without its reservation or where the bytes have changed; else it may still fail (log entry 136). -/
def State.atomicOf (s : State) (c : Nat) (k : AtomicKind) (space n : Nat) (va : Word) (old : List Byte) :
    (Option (List Byte) × Nat) × State :=
  match k with
  | .lr => ((none, ofLE old), s.setCore c { s.core c with resv := some ⟨space, va.toNat, old⟩ })
  | .sc val =>
    let held := (s.core c).resv == some ⟨space, va.toNat, old⟩
    let (x, s) := s.fresh 1
    (if held && x != 0 then (some (leBytes n val.toNat), 0) else (none, 1), s.setCore c { s.core c with resv := none })
  | .amo op val => ((some (leBytes n (amoApply op n (ofLE old) val.toNat)), ofLE old), s)

/-- An atomic instruction has its result. -/
def State.atomicEnd (s : State) (c n rd r : Nat) (next : Word) : State :=
  (s.setCore c ((s.core c).setX rd (loadExt n true r))).coreRetire c next

/-- An atomic instruction on what its entry reaches: HBM or the scratchpad (R324, R343). -/
def State.coreAtomicAt (s : State) (c : Nat) (k : AtomicKind) (n rd : Nat) (va next : Word) (t : CoreTarget) : State :=
  match t with
  | .hbm a =>
    if s.hbmBad a n then s.coreUncorrected c a k.cause va
    else
      let y := s.hbmLine (a / 64)
      let (out, s) := y.2.atomicOf c k 1 n va ((y.1.drop (a % 64)).take n)
      match out.1 with
      | none => s.atomicEnd c n rd out.2 next
      | some bs => ((s.coreHbmStore c a bs).map (·.atomicEnd c n rd out.2 next)).getD s
  | .spd o =>
    let writable := s.spdCheck o n = .ok && !s.inSetup 12
    let (old, s) := s.spdCoreRead c o n
    let (out, s) := s.atomicOf c k 2 n va old
    let s := match out.1 with
      | some bs => if writable then s.spdStore o bs else s
      | none => s
    s.atomicEnd c n rd out.2 next
  | _ => s.coreFault c k.cause va

/-- load-reserved, store-conditional and the atomic memory operations. -/
def State.coreAtomic (s : State) (c : Nat) (k : AtomicKind) (n rd : Nat) (va next : Word) : State :=
  if va.toNat % n ≠ 0 then s.coreFault c (k.cause - 1) va
  else match s.coreEntry c va k.access with
    | (none, s) => s
    | (some e, s) => s.coreAtomicAt c k n rd va next (s.coreTarget c e va n)

/-- A cache-block operation on what its entry reaches (R325): inval and flush drop the line, clean has nothing to write. -/
def State.coreCboAt (s : State) (c : Nat) (k : RvCbo) (va next : Word) (t : CoreTarget) : State :=
  match t with
  | .nothing => s.coreFault c 7 va
  | .hbm a =>
    if k = .clean then s.coreRetire c next
    else (s.setCore c { s.core c with dcache := SMap.erase (s.core c).dcache (a / 64) }).coreRetire c next
  | _ => s.coreRetire c next

/-- A cache-block operation. -/
def State.coreCbo (s : State) (c : Nat) (k : RvCbo) (va next : Word) : State :=
  let v := s.core c
  let open_ := !v.umode || (match k with
    | .inval => bitsOf v.menvcfg.toNat 5 4 != 0
    | _ => bitOf v.menvcfg.toNat 6)
  if !open_ then s.coreFault c 2 0
  else match s.coreEntry c va 1 with
    | (none, s) => s
    | (some e, s) => s.coreCboAt c k va next (s.coreTarget c e va 1)

/-! ## CSRs (R321, R333) -/

/-- The cycles of the handler-core domain, 625 ps each. -/
def State.coreTicks (s : State) : Word := BitVec.ofNat 64 (s.now / 625)

/-- The value of a CSR, where the core has it. -/
def State.csrRead (s : State) (c num : Nat) : Option Word :=
  let v := s.core c
  let n (k : Nat) : Option Word := some (BitVec.ofNat 64 k)
  match num with
  | 0xC00 => some (s.coreTicks + v.cycleOff)
  | 0xC01 => n s.fabric
  | 0xC02 => some v.minstret
  | 0x300 => some (v.mstatus ||| 0x200000000)
  | 0x301 => some 0x8000000000101105
  | 0x304 => some v.mie
  | 0x305 => some v.mtvec
  | 0x306 => some v.mcounteren
  | 0x30A => some v.menvcfg
  | 0x320 => some 0
  | 0x340 => some v.mscratch
  | 0x341 => some v.mepc
  | 0x342 => n v.mcause
  | 0x343 => some v.mtval
  | 0x344 => n (s.coreMip c)
  | 0xB00 => some (s.coreTicks + v.cycleOff)
  | 0xB02 => some v.minstret
  | 0xF11 => some 0
  | 0xF12 => some 0
  | 0xF13 => some 0
  | 0xF14 => n c
  | 0xF15 => some 0
  | 0x7C0 => n v.hxctx
  | 0x7C1 => some v.hxvabase
  | 0x7C2 => some v.hxslice
  | 0x7C3 => some v.hxbad
  | 0x7C4 => some v.hxentry
  | 0x7C5 => n v.hxidx
  | 0x7C6 => some 0
  | 0x7C7 => n v.hxstat.toNat
  | 0x7C8 => some v.hxrvec
  | _ =>
    if (0xB03 ≤ num && num ≤ 0xB1F) || (0x323 ≤ num && num ≤ 0x33F) then some 0 else none

/-- The mode may reach a CSR: its number gives the least mode, and mcounteren opens the counters to user mode. -/
def HCore.csrOpen (v : HCore) (num : Nat) : Bool :=
  !v.umode || (bitsOf num 9 8 == 0 && (!(0xC00 ≤ num && num ≤ 0xC02) || bitOf v.mcounteren.toNat (num - 0xC00)))

/-- mstatus takes the fields that it has: MIE, MPIE, MPP (machine or user), MPRV, TW. -/
def mstatusWrite (w : Word) : Word :=
  let m := w &&& 0x220088
  if bitsOf w.toNat 12 11 = 3 then m ||| 0x1800 else m

/-- hxcmd (R333): the operations on the TLBs. -/
def State.coreCmd (s : State) (c : Nat) (w : Word) : State :=
  match bitsOf w.toNat 3 0 with
  | 1 => s.fillEntry c (s.core c).pgCode false
  | 2 => s.fillEntry c (bitsOf w.toNat 17 16) true
  | 3 => s.fillRefused c (bitsOf w.toNat 15 8)
  | 4 => s.tlbDropPage c (s.core c).hxentry
  | 5 => s.tlbDropCtx c
  | 6 => s.tlbDropAll c
  | 7 => s.tlbUnlock c
  | _ => s

/-- Write a CSR; one without a writable field keeps its value. -/
def State.csrWrite (s : State) (c num : Nat) (w : Word) : State :=
  let v := s.core c
  match num with
  | 0x300 => s.setCore c { v with mstatus := mstatusWrite w }
  | 0x304 => s.setCore c { v with mie := w &&& 0x888 }
  | 0x305 => s.setCore c { v with mtvec := w &&& ~~~(2 : Word) }
  | 0x306 => s.setCore c { v with mcounteren := w &&& 7 }
  | 0x30A => s.setCore c { v with menvcfg := w &&& 0x70 }
  | 0x340 => s.setCore c { v with mscratch := w }
  | 0x341 => s.setCore c { v with mepc := w &&& ~~~(1 : Word) }
  | 0x342 => s.setCore c { v with mcause := w.toNat }
  | 0x343 => s.setCore c { v with mtval := w }
  | 0xB00 => s.setCore c { v with cycleOff := w - s.coreTicks }
  | 0xB02 => s.setCore c { v with minstret := w }
  | 0x7C0 => s.setCore c { v with hxctx := w.toNat % 2 ^ 20 }
  | 0x7C1 => s.setCore c { v with hxvabase := w }
  | 0x7C2 => s.setCore c { v with hxslice := w &&& 0x7FFFFFFFFFFFF }
  | 0x7C4 => s.setCore c { v with hxentry := w }
  | 0x7C5 => s.setCore c { v with hxidx := w.toNat % 2 ^ 24 }
  | 0x7C6 => s.coreCmd c w
  | 0x7C7 => s.setCore c { v with hxstat := v.hxstat &&& (w.setWidth 6 ||| 7) }
  | 0x7C8 => s.setCore c { v with hxrvec := w }
  | _ => s

/-- A CSR access: read, then written, where it writes; set and clear of x0 or of zero only read. -/
def State.coreCsr (s : State) (c : Nat) (k : RvCsr) (rd num : Nat) (x : RvSrc) (next : Word) : State :=
  let v := s.core c
  let (src, writes) : Word × Bool := match x with
    | .reg r => (v.xr r, k == .rw || r != 0)
    | .imm w => (w, k == .rw || w != 0)
  match s.csrRead c num with
  | none => s.coreFault c 2 0
  | some old =>
    if !v.csrOpen num || (writes && bitsOf num 11 10 == 3) then s.coreFault c 2 0
    else
      let w := csrNew k old src
      let fill := bitsOf w.toNat 3 0 == 1 || bitsOf w.toNat 3 0 == 2
      if writes && num == 0x7C6 && fill && s.fillStall c then s
      else
        let s := s.setCore c ((v.setX rd old).retire next)
        if writes then s.csrWrite c num w else s

/-! ## One instruction -/

/-- A fetch from what its entry reaches. -/
def State.coreFetchAt (s : State) (c : Nat) (va : Word) (t : CoreTarget) : Option Nat × State :=
  match t with
  | .hbm a =>
    if s.hbmBad a 2 then (none, s.coreUncorrected c a 1 va)
    else
      let (bs, s) := s.cacheRead c true a 2
      (some (ofLE bs), s)
  | _ => (none, s.coreFault c 1 va)

/-- The two bytes of code at an address: fetches reach fabric memory and the reserved region only (R324). -/
def State.coreFetch (s : State) (c : Nat) (va : Word) : Option Nat × State :=
  match s.coreEntry c va 0 with
  | (none, s) => (none, s)
  | (some e, s) =>
    s.coreFetchAt c va (s.coreTarget c e va 2)

/-- ecall: with a7 = 0 it ends an invocation (R330); otherwise it is an exception. -/
def State.coreEcall (s : State) (c : Nat) : State :=
  let v := s.core c
  if v.inv.isSome && v.umode && v.xr 17 == 0 then s.endInv c else s.coreFault c (if v.umode then 8 else 11) 0

/-- Perform an instruction; `next` is the address after it. -/
def State.coreDo (s : State) (c : Nat) (op : RvOp) (next : Word) : State :=
  let v := s.core c
  let put (rd : Nat) (w to_ : Word) : State := s.setCore c ((v.setX rd w).retire to_)
  match op with
  | .lui rd w => put rd w next
  | .auipc rd w => put rd (v.pc + w) next
  | .jal rd off => put rd next (v.pc + off)
  | .jalr rd rs1 off => put rd next ((v.xr rs1 + off) &&& ~~~(1 : Word))
  | .branch k rs1 rs2 off => put 0 0 (if condMet k (v.xr rs1) (v.xr rs2) then v.pc + off else next)
  | .load n signed rd rs1 off => s.coreLoad c n signed rd (v.xr rs1 + off) next
  | .store n rs1 rs2 off => s.coreStore c n (v.xr rs2) (v.xr rs1 + off) next
  | .alu w k rd rs1 x =>
    let y := match x with
      | .reg r => v.xr r
      | .imm i => i
    put rd (if w then alu32 k (v.xr rs1) y else alu64 k (v.xr rs1) y) next
  | .mul w k rd rs1 rs2 => put rd (mulRv w k (v.xr rs1) (v.xr rs2)) next
  | .lr n rd rs1 => s.coreAtomic c .lr n rd (v.xr rs1) next
  | .sc n rd rs1 rs2 => s.coreAtomic c (.sc (v.xr rs2)) n rd (v.xr rs1) next
  | .amo k n rd rs1 rs2 => s.coreAtomic c (.amo k (v.xr rs2)) n rd (v.xr rs1) next
  | .csr k rd num x => s.coreCsr c k rd num x next
  | .cbo k rs1 => s.coreCbo c k (v.xr rs1) next
  | .fence => put 0 0 next
  | .fenceI => s.setCore c ({ v with icache := [] }.retire next)
  | .wfi => if v.umode && v.mst 21 21 == 1 then s.coreFault c 2 0 else put 0 0 next
  | .ecall => s.coreEcall c
  | .ebreak => s.coreFault c 3 0
  | .mret => if v.umode then s.coreFault c 2 0 else s.setCore c { v.returned with minstret := v.minstret + 1 }
  | .illegal => s.coreFault c 2 0

/-- Fetch and perform one instruction. -/
def State.coreExec (s : State) (c : Nat) : State :=
  let pc := (s.core c).pc
  match s.coreFetch c pc with
  | (none, s) => s
  | (some lo, s) =>
    if lo % 4 ≠ 3 then s.coreDo c (rvDecode16 lo) (pc + 2)
    else match s.coreFetch c (pc + 2) with
      | (none, s) => s
      | (some hi, s) => s.coreDo c (rvDecode32 (lo + hi * 2 ^ 16)) (pc + 4)

/-- What a core does in a core cycle: nothing while it waits for data; an interrupt; the resident firmware; an instruction. -/
def State.coreStep (s : State) (c : Nat) : State :=
  let v := s.core c
  if v.wait.isSome then s
  else match s.coreIrq c with
    | some k => s.takeIrq c k
    | none =>
      if v.umode then s.coreExec c
      else if v.pc = residentMain then s
      else if v.pc = residentTrap then s.residentHandler c
      else if v.pc = residentRefill then s.refillRoutine c
      else s.coreExec c

/-! ## A core cycle without a command -/

/-- The cores that execute: idle ones, which take interrupts, those that run a handler, and those that run firmware. -/
def State.liveCores (s : State) : List Nat := (List.range 64).filter fun c => 1 ≤ s.coreSt c && s.coreSt c ≤ 3

/-- Every core that executes takes its step, in ascending order (log entry 59); nothing happens while the data path is stopped. -/
def State.coreCycle (s : State) : State :=
  if s.frozen || s.liveCores.isEmpty then s else (s.liveCores.foldl State.coreStep s).done s

/-- A core cycle without a command: time passes, the lanes send, and the handler cores execute. -/
def State.idleCycle (s : State) : State := s.lineCycle.coreCycle

end Sys2Proof.Machine
end

