-- ==== Sys2Proof/Machine/Step.lean ====
section
/-!
DEFINITION. One step of the block: the command at the front of the queue, or one core cycle without a command.
-/
set_option Elab.async false
namespace Sys2Proof.Machine

/-- The command at the front of the queue takes effect on the state with the queue's rest. With nothing waiting, the current
core cycle ends: the lanes send what they send by themselves in it, and the handler cores execute (log entries 5, 59 and 85). -/
def step (s : State) : Host.Outcome State Fault Refusal :=
  match s.pending with
  | [] => .next s.idleCycle
  | c :: rest => exec c { s with pending := rest }

/-- The state with the command that a word spells in front of its queue, where it spells one. -/
def State.withFetchWord (s : State) (nbits w : Nat) : State :=
  match decodeTableWord nbits w with
  | some c => { s with pending := c :: s.pending }
  | none => s

end Sys2Proof.Machine
end

