-- ==== Sys2Proof/Safety.lean ====
section
/-!
DEFINITION. What the statements are said in: the data invariant of the block, and the conditions under which a command
finds its part of the block at rest.
-/
set_option Elab.async false
namespace Sys2Proof.Machine

/-! ## The invariant -/

/-- A semaphore as R346 to R349 leave it: only a free one is reserved, neither its holder nor the master it is reserved for
waits for it, no master waits twice, and at most 64 wait. -/
def Semaphore.Ok (v : Semaphore) : Prop :=
  (v.reserved.isSome = true → v.holder = none) ∧
  (∀ w ∈ v.waiters, v.holder ≠ some w.master ∧ v.reserved ≠ some w.master) ∧
  (v.waiters.map fun w => w.master).Nodup ∧ v.waiters.length ≤ 64

/-- The data of a state keep their form: the four memories, the register file, the context table and the semaphore table are
canonical, so that equal contents are equal data, and every semaphore is as the rules leave it. -/
structure State.Ok (s : State) : Prop where
  fmem : s.fmem.wf = true
  hmem : s.hmem.wf = true
  spdMem : s.spdMem.wf = true
  flash : s.flash.wf = true
  regs : SMap.wf resetWord s.regs = true
  ctxs : SMap.wf (fun _ => CtxRec.init) s.ctxs = true
  semTable : SMap.wf (fun _ => Semaphore.init) s.sem.sems = true
  sems : ∀ n, (s.semOf n).Ok

/-- The invariant of the block: its data keep their form, and every command that waits is one of the table's. -/
structure State.Inv (s : State) : Prop where
  ok : s.Ok
  pending : s.pending.all Instr.ok = true

/-! ## The parts of the state -/

/-- The parts of the state beside the queue of commands, one for each field. -/
inductive Part where
  | now | timAdj | regs | out | delivered | free | waits | hif | ctxs | handles
  | xlt | mat | rma | rsv | log | flt | pmc | hdl | spd | sem
  | pwr | rte | lan | lnk | sec | csc | fmem | spdMem | hmem | flash
  deriving DecidableEq, Repr

/-- A part of the state is in `t` what it is in `s`. -/
def State.Same (p : Part) (s t : State) : Prop :=
  match p with
  | .now => t.now = s.now
  | .timAdj => t.timAdj = s.timAdj
  | .regs => t.regs = s.regs
  | .out => t.out = s.out
  | .delivered => t.delivered = s.delivered
  | .free => t.free = s.free
  | .waits => t.waits = s.waits
  | .hif => t.hif = s.hif
  | .ctxs => t.ctxs = s.ctxs
  | .handles => t.handles = s.handles
  | .xlt => t.xlt = s.xlt
  | .mat => t.mat = s.mat
  | .rma => t.rma = s.rma
  | .rsv => t.rsv = s.rsv
  | .log => t.log = s.log
  | .flt => t.flt = s.flt
  | .pmc => t.pmc = s.pmc
  | .hdl => t.hdl = s.hdl
  | .spd => t.spd = s.spd
  | .sem => t.sem = s.sem
  | .pwr => t.pwr = s.pwr
  | .rte => t.rte = s.rte
  | .lan => t.lan = s.lan
  | .lnk => t.lnk = s.lnk
  | .sec => t.sec = s.sec
  | .csc => t.csc = s.csc
  | .fmem => t.fmem = s.fmem
  | .spdMem => t.spdMem = s.spdMem
  | .hmem => t.hmem = s.hmem
  | .flash => t.flash = s.flash

/-- Every part. -/
def Part.all : List Part :=
  [.now, .timAdj, .regs, .out, .delivered, .free, .waits, .hif, .ctxs, .handles, .xlt, .mat, .rma, .rsv, .log, .flt,
   .pmc, .hdl, .spd, .sem, .pwr, .rte, .lan, .lnk, .sec, .csc, .fmem, .spdMem, .hmem, .flash]

/-! ## At rest -/

/-- The data path runs: no stop and no seal holds it (R386, R401). -/
def State.Runs (s : State) : Prop := s.frozen = false

/-- Nothing is left that goes on even while the data path is stopped: no reset waits for a seal, no block holds a change, no inline
doorbell waits for its context's record, and every staged record is written. -/
structure State.Quiet (s : State) : Prop where
  reset : s.sec.resetWaits = false
  changes : s.rsv.held = []
  inline : ∀ e ∈ s.ctxs, (s.ctx e.1).inlineWait = []
  staged : s.rsv.staged.all (·.written) = true

/-- Nothing of the data path is left to go on by itself: no gather, trigger, waiting handle, held event, armed counter trigger,
collective, multicast, stored message that waits to be copied, or packet that waits at RTE is there, and every context's hold is
recorded as it is. -/
structure State.AtRest (s : State) : Prop where
  gathers : s.hif.gathers = []
  trigs : s.rma.trigs = []
  handles : ∀ h ∈ s.handles.map Prod.snd, h.phase ≠ .waiting
  posts : s.hdl.heldPosts = []
  counters : s.trigsWhere (fun t => t.kind == 1) = []
  insts : s.csc.insts = []
  multicasts : s.csc.out = []
  copies : s.readyCopy = none
  packets : ∀ x ∈ s.rte.pkts, ∀ t, x.place ≠ .waiting t ∧ x.place ≠ .held t
  holds : ∀ e ∈ s.ctxs, (s.holdCause e.1 != 0) = (s.ctx e.1).inHold

/-- Every byte of the four memories reads in `t` as in `s`. -/
structure State.SameMemories (s t : State) : Prop where
  fmem : ∀ a, t.fmem.byte a = s.fmem.byte a
  hmem : ∀ a, t.hmem.byte a = s.hmem.byte a
  spdMem : ∀ a, t.spdMem.byte a = s.spdMem.byte a
  flash : ∀ a, t.flash.byte a = s.flash.byte a

/-- Every register of the register file but those at the named offsets holds in `t` what it holds in `s`. -/
def State.SameRegsBut (s t : State) (offs : List Nat) : Prop := ∀ r : RegRef, r.off ∉ offs → t.reg r = s.reg r

/-! ## Register writes as commands -/

/-- The indices name an element of the register. -/
def RegRef.inShape (r : RegRef) : Bool :=
  r.i < r.reg.shape.n1 && r.reg.shape.k0 ≤ r.k && r.k < r.reg.shape.k0 + r.reg.shape.n2

end Sys2Proof.Machine

namespace Sys2Proof
open Machine

/-- The parts of the state that a command's own effect may change (what follows by itself from it is State.done's). An access to
the register space may have any effect a register has. -/
def Instr.mayChange : Instr → List Machine.Part
  | .registerWrite _ _ _ _ | .nodeCoordWrite _ _ | .setupDoneWrite _ _ | .portCfgWrite _ _ _ | .portSetupExit _ _
  | .portResetCmd _ _ | .vfRegDataRead _ _ _ | .vfRegDataWrite _ _ _ _ | .vfTblDataRead _ _ _ | .vfTblDataWrite _ _ _
  | .intxAck _ _ _ | .slotPowerOff _ _ _ _ | .slotPowerOn _ _ _ _ | .dsCfgRead _ _ _ | .dsCfgWrite _ _ _ _
  | .dsMemRead _ _ _ | .dsMemWrite _ _ _ _ | .hdmCfgWrite _ _ _ _ | .handleQuery _ _ | .ctxRead _ | .ctxOpen _
  | .ctxClose _ | .windowCommit _ _ | .xltEntryWrite _ _ | .loaderStart _ _ | .syncStart _ | .orderReset _ _
  | .putDataArrival _ | .getRequestArrival _ | .fetchAdd _ | .fetchAnd _ | .fetchOr _ | .fetchXor _ | .swap _
  | .cswap _ | .fetchMinS _ | .fetchMaxS _ | .fetchMinU _ | .fetchMaxU _ | .fetchAddF64 _ | .cswap128 _
  | .ctrValueWrite _ _ | .ctrWordWrite _ _ _ | .groupCfgWrite _ _ | .groupMaskWrite _ _ | .portMapWrite _ _ _
  | .bankDataWrite _ _ | .epochFlip _ _ | .laneReset _ _ | .laneSetupExit _ _ | .laneRetire _ _ | .m2Slip _ _
  | .testCfgWrite _ _ _ | .injectStart _ _ _ | .txEqWrite _ _ _ | .linkResetCmd _ _ | .lnkSetupExit _ _
  | .lnkEnterSetup _ _ | .ipiSet _ _ | .coreReset _ _ | .coreRetire _ _ | .trigCfgWrite _ _ | .handlerMemRead _
  | .handlerMemWrite _ _ | .bankOwnerWrite _ _ _ | .bankRetain _ _ | .bankWake _ _ | .marchStart _ _
  | .semAcquireRead _ _ _ _ | .semReleaseWrite _ _ _ _ | .semForce _ _ | .escActNow _ _ _ | .escWithdraw _ _ _
  | .firstRecordClear _ _ | .faultInjectStart _ _ _ | .sealCmd _ | .detachCmd _ | .replayComplete _ _ | .resumePort _ _
  | .bootFirmwareVerified _ _ _ _ | .firmwareLoaded | .bootRelease _ | .topResetWrite _ _ | .quoteStart _
  | .updateVerify _ _ | .updateActivate _ | .commitSvn _ | .flashRead _ | .flashProgram _ _ | .flashErase _
  | .logStallExpire | .logStallRelease | .logHeadWrite _ _ | .evselWrite _ _ _ | .freezeNow _ | .freezeAt _
  | .unfreeze _ | .sampleCfgWrite _ _ | .sampleHeadWrite _ _ | .pinOwnerWrite _ _ | .mbGo _ _ _ | .regacc _ =>
    [.now, .regs, .out, .delivered, .free, .waits, .hif, .ctxs, .handles, .xlt, .mat, .rma, .rsv, .log, .flt, .pmc, .hdl,
     .spd, .sem, .pwr, .rte, .lan, .lnk, .sec, .csc, .fmem, .spdMem, .hmem, .flash]
  | .hostLinkTrained _ _ _ _ | .presenceChange _ _ _ | .dllActiveChange _ _ _ _ _ | .powerFault _ _
  | .dsCfgComplete _ _ _ | .dsMemComplete _ _ _ =>
    [.regs, .out, .delivered, .free, .hif, .xlt, .rma, .rsv, .flt, .pmc, .hdl, .pwr, .rte, .lnk]
  | .hotReset _ | .perstAssert _ | .hostDlDown _ | .configRequest _ _ _ | .flrInitiate _ _ =>
    [.regs, .out, .delivered, .free, .hif, .ctxs, .handles, .xlt, .mat, .rma, .rsv, .log, .flt, .pmc, .hdl, .spd, .sem,
     .pwr, .rte, .lnk, .csc, .fmem, .spdMem]
  | .perstDeassert _ | .intxDisableChange _ _ =>
    [.out, .hif, .pmc]
  | .flrComplete _ _ | .msixEnableChange _ _ _ =>
    [.regs, .out, .hif, .pmc]
  | .slotPowerRemove _ _ | .slotPerstRelease _ _ | .spdBusyRetry _ | .activationTimeout | .pmcCounterOverflow _
  | .freezeTick | .fabricTimeTick =>
    [.now, .regs, .out, .hif, .pmc]
  | .attentionButton _ _ | .dsInboundRequest _ _ _ =>
    [.regs, .out, .hif, .pmc, .hdl]
  | .dsAccessTimeout _ _ =>
    [.now, .regs, .out, .delivered, .free, .hif, .xlt, .rma, .rsv, .pmc, .hdl, .pwr, .rte, .lnk]
  | .doorbellTail _ _ _ | .cqHeadWrite _ _ _ | .cqArm _ _ _ | .inlineDoorbell _ _ _ | .contextFill _ =>
    [.regs, .out, .hif, .ctxs, .handles, .rma, .rsv, .flt, .pmc, .hdl, .pwr]
  | .descriptorFetch _ =>
    [.out, .hif, .ctxs, .pmc]
  | .descriptorReturn _ _ =>
    [.regs, .out, .hif, .ctxs, .handles, .rma, .rsv, .pmc, .hdl]
  | .nop _ | .put _ | .get _ | .atomic _ | .send _ | .recvPost _ | .recvCancel _ | .collBroadcast _ | .collReduce _
  | .collAllreduce _ | .collReduceScatter _ | .collAllgather _ | .collBarrier _ | .fenceContext _ | .fenceTarget _
  | .counterArm _ | .triggered _ | .semAcquireWait _ | .semTry _ | .semRelease _ | .sendHoldRelease _ =>
    [.regs, .out, .delivered, .free, .hif, .ctxs, .handles, .xlt, .mat, .rma, .rsv, .flt, .pmc, .hdl, .spd, .sem, .pwr,
     .rte, .lnk, .csc, .fmem, .spdMem]
  | .contextClosed _ =>
    [.regs, .ctxs, .mat, .rma, .rsv, .log, .pmc]
  | .pendingCommitApply _ =>
    [.regs, .xlt, .rsv, .log, .pmc]
  | .pinLimitExpire _ =>
    [.now, .regs, .out, .free, .hif, .xlt, .rma, .rsv, .flt, .pmc, .pwr]
  | .loaderEntry _ =>
    [.regs, .out, .hif, .xlt, .rsv, .log, .pmc]
  | .syncDone =>
    [.xlt]
  | .fmemHostAccess _ _ _ =>
    [.regs, .out, .hif, .rsv, .flt, .pmc, .pwr, .fmem]
  | .sendPacketArrival _ | .withdrawalArrival _ | .firmwareProbeResult _ | .recvHoldRelease _ =>
    [.regs, .out, .delivered, .free, .hif, .ctxs, .handles, .xlt, .mat, .rma, .rsv, .flt, .pmc, .hdl, .spd, .pwr, .rte,
     .lnk, .fmem, .spdMem]
  | .pullRequestArrival _ =>
    [.regs, .out, .delivered, .hif, .ctxs, .handles, .xlt, .rsv, .flt, .pmc, .pwr, .rte, .lnk]
  | .pullResponseArrival _ =>
    [.regs, .out, .delivered, .hif, .ctxs, .handles, .xlt, .mat, .rma, .rsv, .flt, .pmc, .hdl, .spd, .pwr, .rte, .lnk,
     .fmem, .spdMem]
  | .finishNoticeArrival _ | .placementReportArrival _ | .putResponseArrival _ | .refusalArrival _ =>
    [.regs, .out, .delivered, .hif, .ctxs, .handles, .rma, .rsv, .flt, .pmc, .hdl, .pwr]
  | .withdrawalAnswerArrival _ =>
    [.regs, .out, .delivered, .free, .hif, .ctxs, .handles, .mat, .rma, .rsv, .flt, .pmc, .hdl, .pwr]
  | .matRefusalArrival _ =>
    [.regs, .out, .delivered, .free, .hif, .ctxs, .handles, .mat, .rma, .rsv, .flt, .pmc, .hdl, .pwr, .rte, .lnk]
  | .busyRetryExpire _ =>
    [.now, .regs, .out, .delivered, .hif, .ctxs, .handles, .xlt, .rma, .rsv, .pmc, .hdl, .rte, .lnk]
  | .getResponseArrival _ | .atomicResponseArrival _ =>
    [.regs, .out, .delivered, .hif, .ctxs, .handles, .xlt, .rma, .rsv, .flt, .pmc, .hdl, .spd, .pwr, .fmem, .spdMem]
  | .atomicopCompletion _ _ =>
    [.regs, .out, .delivered, .free, .hif, .xlt, .rma, .rsv, .pmc, .hdl, .rte, .lnk]
  | .resendTimerExpire _ =>
    [.now, .regs, .out, .delivered, .hif, .ctxs, .handles, .xlt, .mat, .rma, .rsv, .pmc, .hdl, .rte, .lnk]
  | .operationTimeout _ =>
    [.now, .regs, .out, .delivered, .free, .hif, .ctxs, .handles, .mat, .rma, .rsv, .pmc, .hdl, .rte, .lnk, .csc]
  | .cscDataArrival _ | .stepEndArrival _ | .rerequestArrival _ | .abortArrival _ | .stagingAvailable =>
    [.regs, .out, .delivered, .free, .hif, .ctxs, .handles, .xlt, .rma, .rsv, .flt, .pmc, .hdl, .spd, .pwr, .rte, .lnk,
     .csc, .fmem, .spdMem]
  | .rerequestTimerExpire _ _ _ =>
    [.now, .regs, .out, .delivered, .hif, .pmc, .rte, .lnk, .csc]
  | .linkBlockArrival _ _ _ =>
    [.timAdj, .regs, .out, .delivered, .free, .hif, .rsv, .flt, .pmc, .pwr, .rte, .lan, .lnk, .sec]
  | .linkBlockSend _ | .trainingFrame _ _ | .alignmentMarker _ _ | .signalLoss _ | .m2CharacterReceive _ _
  | .resetAck _ _ =>
    [.regs, .out, .delivered, .free, .hif, .rsv, .flt, .pmc, .pwr, .rte, .lan, .lnk]
  | .escapeWaitExpire _ | .retentionExpire _ | .lineStateTimer | .urgentTokenGrant =>
    [.now, .regs, .out, .delivered, .hif, .pmc, .rte, .lnk]
  | .holdExpire _ =>
    [.now, .regs, .out, .hif, .rsv, .flt, .pmc, .pwr, .rte, .lnk]
  | .heldPacketRoute _ =>
    [.regs, .delivered, .pmc, .rte, .lnk]
  | .lineStateNotice _ =>
    [.regs, .out, .delivered, .hif, .rsv, .flt, .pmc, .pwr]
  | .hintRefresh =>
    [.now, .regs, .out, .hif, .pmc, .rte]
  | .signalDetect _ | .patternCheckerReceive _ _ =>
    [.regs, .lan]
  | .trainingTimeout _ | .alignTimeout _ =>
    [.now, .regs, .out, .free, .hif, .rsv, .flt, .pmc, .pwr, .lan]
  | .eyeWindowEnd _ _ _ =>
    [.regs, .out, .free, .hif, .rsv, .flt, .pmc, .pwr, .lan]
  | .codewordReceive _ _ =>
    [.regs, .out, .hif, .rsv, .flt, .pmc, .pwr, .lan]
  | .nakRepeatTimer _ | .timeSendTimer _ =>
    [.now, .regs, .out, .hif, .pmc, .lnk]
  | .replayTimeout _ | .creditTimeout _ _ | .resetAckTimeout _ | .canaryTick _ =>
    [.now, .regs, .out, .delivered, .free, .hif, .rsv, .flt, .pmc, .pwr, .rte, .lan, .lnk]
  | .hello _ _ =>
    [.regs, .out, .delivered, .free, .hif, .rsv, .flt, .pmc, .pwr, .rte, .lnk]
  | .admitNonce _ _ =>
    [.lnk]
  | .admitProof _ _ =>
    [.regs, .out, .delivered, .free, .hif, .rsv, .flt, .pmc, .pwr, .rte, .lnk, .sec]
  | .admitVerdict _ _ =>
    [.regs, .out, .delivered, .hif, .rsv, .flt, .pmc, .pwr, .rte, .lnk]
  | .poison _ _ | .crossbarError _ _ =>
    [.regs, .out, .hif, .rsv, .flt, .pmc, .pwr, .rte, .lnk]
  | .time _ _ _ =>
    [.timAdj, .regs, .out, .hif, .rsv, .flt, .pmc, .pwr, .lnk]
  | .resetReq _ _ =>
    [.regs, .lnk]
  | .bringupStepTimeout _ =>
    [.now, .regs, .out, .delivered, .hif, .rsv, .flt, .pmc, .pwr, .rte, .lnk]
  | .bringupRetry _ =>
    [.now, .regs, .out, .free, .hif, .pmc, .lan, .lnk]
  | .handlerDispatch =>
    [.regs, .pmc, .hdl]
  | .triggerQueueRelease =>
    [.regs, .out, .delivered, .hif, .ctxs, .handles, .rma, .rsv, .pmc, .hdl, .rte, .lnk]
  | .handlerEcall _ =>
    [.regs, .hif, .hdl]
  | .handlerBudgetExpire _ =>
    [.now, .regs, .out, .hif, .ctxs, .rsv, .flt, .pmc, .hdl, .sem, .pwr]
  | .handlerException _ _ | .tlbRefuse _ _ | .tlbInvalidatePage _ _ | .tlbInvalidateContext _ | .tlbInvalidateAll _
  | .tlbUnlockAll _ =>
    [.regs, .out, .hif, .ctxs, .rsv, .flt, .pmc, .hdl, .sem, .pwr]
  | .tlbMiss _ _ _ =>
    [.regs, .out, .free, .hif, .ctxs, .rsv, .flt, .pmc, .hdl, .sem, .pwr]
  | .tlbFill _ _ _ | .tlbLockFill _ _ _ _ =>
    [.regs, .out, .free, .hif, .ctxs, .xlt, .rsv, .log, .flt, .pmc, .hdl, .sem, .pwr]
  | .tlbAgerTick | .timecmpMatch _ =>
    [.now, .regs, .out, .hif, .pmc, .hdl]
  | .scratchpadHostAccess _ _ _ _ =>
    [.regs, .out, .free, .hif, .rsv, .flt, .pmc, .spd, .pwr, .spdMem]
  | .retentionEntry _ | .bankWakeDone _ | .quoteDone | .flashOpDone | .refclkReturn _ =>
    [.regs]
  | .marchDone _ _ =>
    [.regs, .out, .hif, .rsv, .flt, .pmc, .spd, .pwr, .spdMem]
  | .grantWindowExpire _ =>
    [.now, .regs, .out, .hif, .pmc, .hdl, .sem]
  | .faultWindowEnd _ _ =>
    [.now, .regs, .out, .hif, .flt, .pmc]
  | .escalationExpire _ =>
    [.now, .regs, .out, .delivered, .free, .hif, .ctxs, .rsv, .flt, .pmc, .hdl, .spd, .sem, .pwr, .rte, .lan, .lnk, .csc]
  | .pseudoChannelCopyDone _ =>
    [.pwr, .fmem]
  | .marchSliceDone _ _ =>
    [.regs, .spd]
  | .faultInjectTick _ | .sampleLimitExpire _ | .thermalReading _ _ _ =>
    [.now, .regs, .out, .hif, .rsv, .flt, .pmc, .pwr]
  | .sramError _ _ | .journalWriteCompletion _ | .sealFlushComplete | .sampleRecordWrite _ | .railFault _
  | .pllUnlock _ | .hbmRowRepairDone _ =>
    [.regs, .out, .hif, .rsv, .flt, .pmc, .pwr]
  | .hbmReadError _ _ =>
    [.regs, .out, .delivered, .free, .hif, .rsv, .flt, .pmc, .pwr, .rte, .lan, .lnk, .csc]
  | .scratchpadEccError _ _ =>
    [.regs, .out, .hif, .rsv, .flt, .pmc, .spd, .pwr]
  | .cacheParityError _ _ =>
    [.regs, .out, .free, .hif, .rsv, .flt, .pmc, .hdl, .pwr]
  | .cscUnitError _ =>
    [.regs, .out, .delivered, .free, .hif, .rsv, .flt, .pmc, .pwr, .rte, .lnk, .csc]
  | .restatementCycleEnd =>
    [.regs, .out, .rsv, .pmc]
  | .lagRateTick _ | .pwrfailTaken | .quarantineExpire =>
    [.now, .regs, .out, .hif, .rsv, .pmc]
  | .reportHoldRelease =>
    [.regs, .ctxs]
  | .pwrgoodRise _ =>
    [.regs, .log, .pmc, .pwr, .sec]
  | .bootFusesSensed _ _ _ =>
    [.now, .regs, .out, .hif, .pmc, .sec]
  | .bootPllLocked =>
    [.regs, .sec]
  | .bootHeadersChecked _ _ =>
    [.regs, .out, .hif, .pmc, .sec]
  | .hbmTrained =>
    [.sec]
  | .hbmZeroed =>
    [.regs, .xlt, .log, .pmc, .pwr, .fmem, .hmem]
  | .bootWatchdogExpire =>
    [.now, .regs, .out, .delivered, .waits, .hif, .ctxs, .handles, .xlt, .mat, .rma, .rsv, .log, .flt, .pmc, .hdl, .spd,
     .sem, .pwr, .rte, .lan, .lnk, .sec, .csc, .fmem, .spdMem, .hmem]
  | .pwrgoodFall =>
    [.regs, .out, .delivered, .waits, .hif, .ctxs, .handles, .xlt, .mat, .rma, .rsv, .log, .flt, .pmc, .hdl, .spd, .sem,
     .pwr, .rte, .lan, .lnk, .sec, .csc, .fmem, .spdMem, .hmem]
  | .updateVerified _ =>
    [.regs, .hdl, .sec]
  | .firmwareReady =>
    [.regs, .log, .pmc, .sec]
  | .logMirrorTick =>
    [.regs, .out, .hif, .rsv, .log, .flt, .pmc, .pwr]
  | .eventPinEdge _ =>
    [.regs, .pmc]
  | .refclkLoss _ =>
    [.regs, .out, .delivered, .free, .hif, .ctxs, .handles, .xlt, .mat, .rma, .rsv, .log, .flt, .pmc, .hdl, .spd, .sem,
     .pwr, .rte, .lan, .lnk, .csc, .fmem, .spdMem]
  | .mbAccessDone | .setdasa _ | .enec | .extest | .idcode | .samplePreload | .clamp | .highz | .extestPulse
  | .extestTrain | .bypass =>
    [.out, .pmc, .pwr]
  | .mbTimeout =>
    [.now, .regs, .out, .hif, .pmc, .pwr]
  | .entdaa _ =>
    [.out, .free, .pmc, .pwr]
  | .rstdaa =>
    [.pwr]
  | .lifeTick =>
    [.now, .regs, .out, .free, .hif, .pmc]
  | .hostReadCompletion _ _ _ =>
    [.hif, .pmc]
  | .hostCompletionTimeout _ _ =>
    [.regs, .out, .hif, .ctxs, .xlt, .rsv, .flt, .pmc, .hdl, .sem, .pwr, .csc]
  | .pullRouteTimeout _ =>
    [.now, .regs, .out, .hif, .ctxs, .handles, .mat, .rma, .rsv, .pmc, .hdl]
  | .pwrfailFall | .pwrfailRise =>
    [.regs, .pwr, .sec]
  | .functionReady _ _ =>
    [.hif]
  | .aerError _ _ =>
    [.regs, .out, .free, .hif, .rsv, .flt, .pmc, .pwr]

/-- The bits that a register write reaches. -/
def WVal.mask (w : WVal) : Word := BitVec.ofNat 64 (accMask w.acc)

/-- Its data, in the bits reached. -/
def WVal.data (w : WVal) : Word := accPlace w.acc (wvalData w)

/-- The offset that a write of a part of a register accesses. -/
def wvalOff (r : RegRef) (w : WVal) : Nat := r.off + if w.acc = .hi then 4 else 0

/-- The access that a register write makes. -/
def WVal.access (w : WVal) (m : Nat) (r : RegRef) (t : Nat) : WaitAcc :=
  ⟨m, wvalOff r w, wvalSize w, some (wvalData w), none, t⟩

/-- The bytes that a register write carries. -/
def WVal.bytes (w : WVal) : Nat := if w.acc = .full then 8 else 4

end Sys2Proof

namespace Sys2Proof.Machine

/-- The state in which a write finds its register: its payload counted (R445), and, for the counters, the core cycle ended. -/
def State.writeFinds (s : State) (m : Nat) (r : RegRef) (w : WVal) : State :=
  let s := s.rxBytes m w.bytes
  if r.reg = .PMC_COUNT ∨ r.reg = .PMC_EVSEL then s.endCycle else s

/-- A write of `w` to register `r` by master `m` takes effect whole: it does not wait (R67, R435), no stop or failed boot shuts
it out (R386, R421), no field rule refuses it, and it changes no locked field (R15). -/
structure State.Takes (s : State) (m : Nat) (r : RegRef) (w : WVal) : Prop where
  shape : r.inShape = true
  live : r.live = true
  notDown : r.reg ≠ .HIF_DS_CFG_DATA ∧ r.reg ≠ .HIF_DS_MEM_DATA
  port : ∀ b ∈ s.waits, b.block ≠ (w.access m r s.now).block
  room : (s.rxBytes m w.bytes).blocked (w.access m r s.now) = false
  open_ : (s.writeFinds m r w).shutOut r.reg = false
  rule : let u := s.writeFinds m r w
    u.refuse m (w.acc == .full) r (u.regView r) (attempted w.mask w.data (u.regView r)) = none
  unlocked : let u := s.writeFinds m r w
    u.slLocked r w.mask w.data (if r.reg.windowed then u.regView r else u.reg r) = false
  pins : r.reg = .TOP_PIN_OWNER → let u := s.writeFinds m r w
    (pinWrite (u.reg r) (attempted w.mask w.data (u.regView r))).2 = []

/-- What such a write makes of the state: the fields merged by their access types and stored, the record, and the register's
action. -/
def State.written (s : State) (m : Nat) (r : RegRef) (w : WVal) : State :=
  let u := s.writeFinds m r w
  let o := u.regView r
  let base := if r.reg.windowed then o else u.reg r
  let t := attempted w.mask w.data o
  let v := u.store m r base (u.merge r w.mask w.data base) t w.mask
  ((v.logPerformed m r o t).act m r o t w.mask).deliver (w.access m r s.now) 0 false

/-- The register write that a command is, where it is one: the master, the register and the value (the rows of the table that
a register's own write names). -/
def State.regWriteOf (s : State) : Instr → Option (Master × RegRef × WVal)
  | .nodeCoordWrite m w => some (m, ⟨.TOP_NODE_COORD, 0, 0⟩, w)
  | .setupDoneWrite m w => some (m, ⟨.TOP_SETUP_DONE, 0, 0⟩, w)
  | .portCfgWrite m p w => some (m, ⟨.HIF_PORT_CFG, p.val, 0⟩, w)
  | .portSetupExit m p => some (m, ⟨.HIF_PORT_CTL, p.val, 0⟩, ⟨.full, 2⟩)
  | .portResetCmd m p => some (m, ⟨.HIF_PORT_CTL, p.val, 0⟩, ⟨.full, 1⟩)
  | .vfTblDataWrite m p w => some (m, ⟨.HIF_VF_TBL_DATA, p.val, 0⟩, w)
  | .intxAck m p w => some (m, ⟨.HIF_INTX_ACK, p.val, 0⟩, w)
  | .slotPowerOff m p k w => some (m, ⟨.HIF_DS_SLOT_CTL, p.val, k.val⟩, w)
  | .slotPowerOn m p k w => some (m, ⟨.HIF_DS_SLOT_CTL, p.val, k.val⟩, w)
  | .hdmCfgWrite m p k w => some (m, ⟨.HIF_DS_HDM_CFG, p.val, k.val⟩, w)
  | .handleQuery m w => some (m, ⟨.CMD_HANDLE_QUERY, 0, 0⟩, w)
  | .ctxRead m => some (m, ⟨.CTX_CMD, 0, 0⟩, ⟨.full, 1⟩)
  | .ctxOpen m => some (m, ⟨.CTX_CMD, 0, 0⟩, ⟨.full, 2⟩)
  | .ctxClose m => some (m, ⟨.CTX_CMD, 0, 0⟩, ⟨.full, 3⟩)
  | .windowCommit m w => some (m, ⟨.XLT_WIN_COMMIT, 0, 0⟩, w)
  | .xltEntryWrite m w => some (m, ⟨.XLT_ENTRY_DATA, 0, 0⟩, w)
  | .loaderStart m w => some (m, ⟨.XLT_LOAD_CTL, 0, 0⟩, w)
  | .syncStart m => some (m, ⟨.XLT_SYNC, 0, 0⟩, ⟨.full, 1⟩)
  | .orderReset m w => some (m, ⟨.MAT_ORDER_RESET, 0, 0⟩, w)
  | .ctrValueWrite m w => some (m, ⟨.RMA_CTR_VALUE, 0, 0⟩, w)
  | .ctrWordWrite m n w => some (m, ⟨.RMA_CTR_WORD, 0, n.val⟩, w)
  | .groupCfgWrite m w => some (m, ⟨.CSC_GROUP_CFG, 0, 0⟩, w)
  | .groupMaskWrite m w => some (m, ⟨.CSC_GROUP_MASK, 0, 0⟩, w)
  | .portMapWrite m p w => some (m, ⟨.RTE_PORT_MAP, 0, p.val⟩, w)
  | .bankDataWrite m w => some (m, ⟨.RTE_BANK_DATA, 0, 0⟩, w)
  | .epochFlip m w => some (m, ⟨.RTE_EPOCH, 0, 0⟩, w)
  | .laneReset m l => some (m, ⟨.LAN_CTL, l.val, 0⟩, ⟨.full, 1⟩)
  | .laneSetupExit m l => some (m, ⟨.LAN_CTL, l.val, 0⟩, ⟨.full, 2⟩)
  | .laneRetire m l => some (m, ⟨.LAN_CTL, l.val, 0⟩, ⟨.full, 4⟩)
  | .m2Slip m l => some (m, ⟨.LAN_M2_CTL, l.val, 0⟩, ⟨.full, 1⟩)
  | .testCfgWrite m l w => some (m, ⟨.LAN_TEST_CFG, l.val, 0⟩, w)
  | .injectStart m l w => some (m, ⟨.LAN_INJECT, l.val, 0⟩, w)
  | .txEqWrite m l w => some (m, ⟨.LAN_TX_EQ, l.val, 0⟩, w)
  | .linkResetCmd m p => some (m, ⟨.LNK_PORT_CTL, p.val, 0⟩, ⟨.full, 4⟩)
  | .lnkSetupExit m p => some (m, ⟨.LNK_PORT_CTL, p.val, 0⟩, ⟨.full, 2⟩)
  | .lnkEnterSetup m p => some (m, ⟨.LNK_PORT_CTL, p.val, 0⟩, ⟨.full, 1⟩)
  | .ipiSet m w => some (m, ⟨.HDL_IPI_SET, 0, 0⟩, w)
  | .coreReset m c => some (m, ⟨.HDL_CORE_CTL, c.val, 0⟩, ⟨.full, 1⟩)
  | .coreRetire m c => some (m, ⟨.HDL_CORE_CTL, c.val, 0⟩, ⟨.full, 2⟩)
  | .trigCfgWrite m w => some (m, ⟨.HDL_TRIG_CFG, 0, 0⟩, w)
  | .handlerMemWrite m w => some (m, ⟨.HDL_MEM_DATA, 0, 0⟩, w)
  | .bankOwnerWrite m b w => some (m, ⟨.SPD_BANK_OWNER, 0, b.val⟩, w)
  | .bankRetain m b => some (m, ⟨.SPD_BANK_CTL, 0, b.val⟩, s.retainWord b.val true)
  | .bankWake m b => some (m, ⟨.SPD_BANK_CTL, 0, b.val⟩, s.retainWord b.val false)
  | .marchStart m w => some (m, ⟨.SPD_MARCH_CTL, 0, 0⟩, w)
  | .semReleaseWrite m n k w => some (m, ⟨.SEM_ACQ, n.val, k.val⟩, w)
  | .semForce m w => some (m, ⟨.SEM_FORCE, 0, 0⟩, w)
  | .escActNow m b w => some (m, ⟨.FLT_ESC_ACTION, b.val, 0⟩, w)
  | .escWithdraw m b w => some (m, ⟨.FLT_ESC_ACTION, b.val, 0⟩, w)
  | .firstRecordClear m b => some (m, ⟨.FLT_STATUS, b.val, 0⟩, ⟨.full, FLT_STATUS.first_valid.mask⟩)
  | .faultInjectStart m b w => some (m, ⟨.FLT_INJECT, b.val, 0⟩, w)
  | .sealCmd m => some (m, ⟨.RSV_CTL, 0, 0⟩, ⟨.full, RSV_CTL.seal.mask⟩)
  | .detachCmd m => some (m, ⟨.RSV_CTL, 0, 0⟩, ⟨.full, RSV_CTL.detach.mask⟩)
  | .resumePort m w => some (m, ⟨.RSV_RESUME, 0, 0⟩, w)
  | .topResetWrite m w => some (m, ⟨.TOP_RESET, 0, 0⟩, w)
  | .quoteStart m => some (m, ⟨.SEC_QUOTE_CTL, 0, 0⟩, ⟨.full, SEC_QUOTE_CTL.start.mask⟩)
  | .updateVerify m w => some (m, ⟨.SEC_UPDATE_CTL, 0, 0⟩, w)
  | .updateActivate m => some (m, ⟨.SEC_UPDATE_CTL, 0, 0⟩, s.updateWord SEC_UPDATE_CTL.activate)
  | .commitSvn m => some (m, ⟨.SEC_UPDATE_CTL, 0, 0⟩, s.updateWord SEC_UPDATE_CTL.commit_svn)
  | .flashProgram m w => some (m, ⟨.SEC_FLASH_DATA, 0, 0⟩, w)
  | .flashErase m => some (m, ⟨.SEC_FLASH_CTL, 0, 0⟩, ⟨.full, SEC_FLASH_CTL.erase.mask⟩)
  | .logHeadWrite m w => some (m, ⟨.LOG_HEAD, 0, 0⟩, w)
  | .evselWrite m n w => some (m, ⟨.PMC_EVSEL, 0, n.val⟩, w)
  | .freezeNow m => some (m, ⟨.PMC_FREEZE, 0, 0⟩, ⟨.full, PMC_FREEZE.freeze_now.mask⟩)
  | .freezeAt m => some (m, ⟨.PMC_FREEZE, 0, 0⟩, ⟨.full, PMC_FREEZE.freeze_at.mask⟩)
  | .unfreeze m => some (m, ⟨.PMC_FREEZE, 0, 0⟩, ⟨.full, PMC_FREEZE.unfreeze.mask⟩)
  | .sampleCfgWrite m w => some (m, ⟨.PMC_SAMPLE_CFG, 0, 0⟩, w)
  | .sampleHeadWrite m w => some (m, ⟨.PMC_SAMPLE_HEAD, 0, 0⟩, w)
  | .pinOwnerWrite m w => some (m, ⟨.TOP_PIN_OWNER, 0, 0⟩, w)
  | _ => none

end Sys2Proof.Machine
end

