-- ==== Sys2Proof/Certificates/Slice0/Obligations.lean ====
section
/-!
DEFINITION. The statements about the model: each follows numbered rules of the spec, or says what the model makes of a point
that the spec leaves to it.
-/
set_option Elab.async false
open Sys2Proof Sys2Proof.Machine

/-- A step runs the command at the front of the queue. With a command at the front of the queue, a step is the execution of
that command on the state with the queue's rest. (00_scope.md; log entry 5) -/
def Obligations.StepRunsTheCommandInFront : Prop :=
  ∀ (c : Instr) (rest : List Instr) (s : State), s.pending = c :: rest → step s = exec c { s with pending := rest }

/-- With nothing waiting, a step lets the current core cycle end (the model's choice, log entries 5 and 59). On an empty queue
a step answers a next state with the queue still empty, in which the clock stands at the end of the core cycle of 500 ps that
it stood in, or later where a handler core's own register access took time. Where the data path is stopped or no handler core
executes, the clock stands at that end, and the step is only what the lanes send and what time brings; else each live core
takes its step in ascending order. A core that waits for data does nothing; one with an enabled interrupt takes it; the
resident firmware's loop does nothing; any other core performs the instruction at its pc, of 2 bytes or of 4, once they are
fetched. An integer operation writes rd, x0 keeps zero, and the pc moves to the next instruction; a misaligned load or store
traps. (15_performance_counters.md R443; 11_handlers_scratchpad_semaphores.md R321; 11_handlers_scratchpad_semaphores.md R323;
11_handlers_scratchpad_semaphores.md R324; log entries 5, 59, 85 and 133) -/
def Obligations.IdleStepEndsTheCycle : Prop :=
  (∀ s : State, s.pending = [] → let u := s.lineCycle
    (∃ t, step s = .next t ∧ t.pending = [] ∧ (s.now / 500 + 1) * 500 ≤ t.now) ∧
    (u.frozen = true ∨ u.liveCores = [] → step s = .next u ∧ u.now = (s.now / 500 + 1) * 500) ∧
    (u.frozen = false → u.liveCores ≠ [] → step s = .next ((u.liveCores.foldl State.coreStep u).done u))) ∧
  (∀ (s : State) (c : Nat), let v := s.core c
    (v.wait ≠ none → s.coreStep c = s) ∧
    (v.wait = none → ∀ k, s.coreIrq c = some k → s.coreStep c = s.setCore c { v.trapped (2 ^ 63 + k) 0 with
      pc := (v.mtvec &&& ~~~(3 : Word)) + (if bitOf v.mtvec.toNat 0 then BitVec.ofNat 64 (4 * k) else 0) }) ∧
    (v.wait = none → s.coreIrq c = none → v.umode = false → v.pc = residentMain → s.coreStep c = s) ∧
    (v.wait = none → s.coreIrq c = none → v.umode = true ∨ v.pc ∉ [residentMain, residentTrap, residentRefill] →
      (∀ lo u, s.coreFetch c v.pc = (some lo, u) →
        (lo % 4 ≠ 3 → s.coreStep c = u.coreDo c (rvDecode16 lo) (v.pc + 2)) ∧
        (lo % 4 = 3 → ∀ hi w, u.coreFetch c (v.pc + 2) = (some hi, w) →
          s.coreStep c = w.coreDo c (rvDecode32 (lo + hi * 2 ^ 16)) (v.pc + 4))) ∧
      (∀ u, s.coreFetch c v.pc = (none, u) → s.coreStep c = u))) ∧
  (∀ (s : State) (c : Nat) (w : Bool) (k : RvAlu) (rd rs1 rs2 : Nat) (next : Word), let v := s.core c
    s.coreDo c (.alu w k rd rs1 (.reg rs2)) next = s.setCore c { v.setX rd
      (if w then alu32 k (v.xr rs1) (v.xr rs2) else alu64 k (v.xr rs1) (v.xr rs2)) with
        pc := next, minstret := v.minstret + 1 }) ∧
  (∀ (v : HCore) (rd : Nat) (w : Word), v.setX 0 w = v ∧ v.xr 0 = 0 ∧ (SMap.wf (fun _ => (0 : Word)) v.x = true →
    SMap.wf (fun _ => (0 : Word)) (v.setX rd w).x = true ∧ ∀ r, (v.setX rd w).xr r = if r = rd ∧ r ≠ 0 then w else v.xr r)) ∧
  (∀ (s : State) (c n rd rs1 rs2 : Nat) (sg : Bool) (off next : Word), let va := (s.core c).xr rs1 + off
    va.toNat % n ≠ 0 → s.coreDo c (.load n sg rd rs1 off) next = s.coreFault c 4 va ∧
      s.coreDo c (.store n rs1 rs2 off) next = s.coreFault c 6 va)

/-- Every command answers, and takes nothing back. Every command, on every state, answers a next state. It leaves the queue
alone, never turns the clock back, and what has left the device stays the beginning of what has left it. (00_scope.md;
01_architecture.md) -/
def Obligations.EveryCommandAnswersAndTakesNothingBack : Prop :=
  ∀ (c : Instr) (s : State),
    ∃ t, exec c s = .next t ∧ t.pending = s.pending ∧ s.now ≤ t.now ∧ s.out <+: t.out ∧ s.free ≤ t.free

/-- Every step keeps the invariant of the block. From every state that meets the invariant, a step gives a state that meets
it. The invariant: fabric memory, handler memory, scratchpad, flash, register file, context table and semaphore table keep
their canonical form; every semaphore has no reservation while it is held, no waiter that holds it or for which it is
reserved, no master waiting twice and at most 64 waiters; every waiting command is well formed. (00_scope.md;
01_architecture.md; 11_handlers_scratchpad_semaphores.md R346; 11_handlers_scratchpad_semaphores.md R348;
11_handlers_scratchpad_semaphores.md R349) -/
def Obligations.StepKeepsTheInvariant : Prop :=
  ∀ s t : State, s.Inv → step s = .next t → t.Inv

/-- The state after reset meets the invariant. The state right after reset meets the invariant that every step keeps.
(00_scope.md; 11_handlers_scratchpad_semaphores.md R346) -/
def Obligations.ResetMeetsTheInvariant : Prop :=
  State.reset.Inv

/-- What follows a command by itself adds nothing at rest or while the data path is stopped. After a command's own effect the
block goes on by itself (State.done). Where no change, doorbell, staged record or reset is held back, and nothing is left to
go on or a device stop or a seal has stopped the data path, and neither a downstream access nor a hold of RSV has just ended,
the state after the effect is the next state. (12_faults.md R386; 13_reservoir.md R401; log entry 5) -/
def Obligations.RestAddsNothing : Prop :=
  ∀ s t : State, (s.hif.ds.isSome = true → t.hif.ds.isSome = true) → (s.rsvHeld = true → t.rsvHeld = true) → t.Quiet →
    (t.AtRest ∨ t.frozen = true) → t.done s = t

/-- Every command changes only the parts of the state that it names. For every command of the table there is a list of the
parts of the state that its own effect may change (Instr.mayChange: an access of the register space may have any effect a
register has; a scan of the TAP changes the TAP and what leaves the device, a training frame no memory and no ring, an arrival
of MAT no register of LAN, SEC or the change log). The state that the effect makes agrees with the one before in every part
outside the list; what goes on by itself after it is State.done. (00_scope.md; 01_architecture.md; 95_what_each_step_holds.md)
-/
def Obligations.CommandsChangeOnlyTheirParts : Prop :=
  ∀ (c : Instr) (s : State),
    ∃ t, (exec c s = .next t ∨ exec c s = .next (t.done s)) ∧ ∀ p : Part, p ∉ c.mayChange → State.Same p s t

/-- What follows a command by itself changes no clock, log, lane, boot state, handler memory or flash. Where neither a
downstream access (after the changes that blocks held) nor a hold of RSV has just ended and no reset waits for a seal, what
follows a command by itself leaves the clock, the waiting register accesses, the lanes, the boot and update state, handler
memory and the flash as they were, and the change log's records too where no block holds a change. (12_faults.md R386;
13_reservoir.md R401; 14_boot_security_log.md R433; log entry 5) -/
def Obligations.WhatFollowsLeavesTimeLogLanesAndCode : Prop :=
  ∀ s t : State, (s.hif.ds.isSome = true → t.releaseHeld.hif.ds.isSome = true) → (s.rsvHeld = true → t.rsvHeld = true) →
    t.sec.resetWaits = false →
    (∀ p ∈ [Part.now, .timAdj, .waits, .lan, .sec, .hmem, .flash], State.Same p t (t.done s)) ∧
    (t.rsv.held = [] → State.Same .log t (t.done s))

/-- The offset of every register names that register alone. For every register with indices in range (and, for an element of a
fault window, a source that the block has), the register found at its offset is that register with those indices; so no two
registers share an offset. Every offset is a multiple of 8. (00_scope.md R11; 00_scope.md R12; 00_scope.md R16;
01_architecture.md R32; 12_faults.md R357) -/
def Obligations.TheRegisterMapIsUnambiguous : Prop :=
  ∀ r : RegRef, r.inShape = true → r.live = true → regAt r.off = some r ∧ r.off % 8 = 0

/-- A register write that nothing refuses stores its fields, is recorded and acts. Every command that is a write of a named
register (regWriteOf: NODE_COORD_WRITE to PIN_OWNER_WRITE), and REGISTER_WRITE of any mapped offset, by a master that reaches
the register space directly (a physical function, a handler core, the device), and a 64-bit write of a virtual function's
register-data window at the offset it points to, under the function's own master ID, complete: where the access does not wait
and no stop, field rule or lock refuses it (Takes), the next state is that in which the register's fields hold the write
merged by their access types, the change log has the record, the register's own action has been done and the master has its
answer (State.written), with what follows by itself. A write of that window of any other size does nothing but count its
bytes, and a write named with a master that has another path changes nothing (R30; its own path is other commands).
(00_scope.md R11; 00_scope.md R14; 00_scope.md R15; 01_architecture.md R30; 02_host_ports.md R49; 14_boot_security_log.md
R433; 14_boot_security_log.md R435; 12_faults.md R386; 14_boot_security_log.md R421) -/
def Obligations.RegisterCommandsWriteTheirRegister : Prop :=
  (∀ (c : Instr) (s : State) (m : Master) (r : RegRef) (w : WVal), s.regWriteOf c = some (m, r, w) →
    (directMaster m.toNat = true → s.Takes m.toNat r w → exec c s = .next ((s.written m.toNat r w).done s)) ∧
    (directMaster m.toNat = false → exec c s = .next (s.done s))) ∧
  (∀ (m : Master) (off : BitVec 26) (z : ReqSize) (x : Word) (s : State), directMaster m.toNat = false →
    exec (.registerWrite m (.space off) z x) s = .next (s.done s)) ∧
  (∀ (m : Master) (off : BitVec 26) (r : RegRef) (w : WVal) (s : State), directMaster m.toNat = true →
    off.toNat = wvalOff r w → s.Takes m.toNat r w →
    exec (.registerWrite m (.space off) (wvalSize w) (wvalData w)) s = .next ((s.written m.toNat r w).done s)) ∧
  (∀ (p : HPort) (v : Vf) (x : Word) (r : RegRef) (s : State), s.vfThere p.val (v.val + 1) = true →
    (s.fn p.val (v.val + 1)).vfRegAddr = r.off → s.Takes (mHost p.val (v.val + 1)) r ⟨.full, x⟩ →
    exec (.vfRegDataWrite p v .w64 x) s = .next ((s.written (mHost p.val (v.val + 1)) r ⟨.full, x⟩).done s)) ∧
  (∀ (p : HPort) (v : Vf) (z : ReqSize) (x : Word) (s : State), z ≠ .w64 →
    exec (.vfRegDataWrite p v z x) s = .next ((s.rxBytes (mHost p.val (v.val + 1)) 4).done s))

/-- Each field takes a write by its access type, and reserved bits take none. In the merged value of a write (v under the mask
m of the half or whole it reaches, over the old value o), an RW field holds the written bits where the mask reaches and its
old bits elsewhere; RO, WO and RA fields keep their bits; a W1C field loses the bits written 1, a W1S field gains them; an SL
field is as RW in the bits that its setup state opens and keeps the others; bits that belong to no field keep what they were.
(00_scope.md R13; 00_scope.md R14; 00_scope.md R15; 00_scope.md R11) -/
def Obligations.FieldsTakeAWriteByTheirAccessType : Prop :=
  ∀ (s : State) (r : RegRef) (m v o : Word),
    (∀ f ∈ r.reg.fields,
      (f.acc = .rw → s.merge r m v o &&& f.mask = ((v &&& m) ||| (o &&& ~~~m)) &&& f.mask) ∧
      (f.acc = .ro ∨ f.acc = .wo ∨ f.acc = .ra → s.merge r m v o &&& f.mask = o &&& f.mask) ∧
      (f.acc = .w1c → s.merge r m v o &&& f.mask = o &&& ~~~(v &&& m) &&& f.mask) ∧
      (f.acc = .w1s → s.merge r m v o &&& f.mask = (o ||| (v &&& m)) &&& f.mask) ∧
      (f.acc = .sl → s.merge r m v o &&& f.mask =
        ((v &&& m &&& s.slOpen r f) ||| (o &&& ~~~(m &&& s.slOpen r f))) &&& f.mask)) ∧
    (∀ x : Word, (∀ f ∈ r.reg.fields, x &&& f.mask = 0) → s.merge r m v o &&& x = o &&& x)

/-- A write that reaches no register is logged as ignored and counted, and does nothing else. A write, by a master that
reaches the register space directly, at an offset that no register occupies, or that is not one aligned half or whole, and
that waits for nothing: its payload counts, the change log gains the record of an ignored write with reason 1, and the window
of the block whose 1 MiB holds the offset (TOP's where no block lies) counts source unmapped-access with the offset as detail.
(00_scope.md R11; 00_scope.md R12; 12_faults.md R359; 14_boot_security_log.md R434) -/
def Obligations.UnmappedWritesAreLoggedAndCounted : Prop :=
  ∀ (m : Master) (off : BitVec 26) (size : ReqSize) (v : Word) (s : State),
    let a : WaitAcc := ⟨m.toNat, off.toNat, size, some v, none, s.now⟩
    let u := s.rxBytes m.toNat (if size = .w64 then 8 else 4)
    directMaster m.toNat = true → a.reg = none → u.blocked a = false → (∀ b ∈ s.waits, b.block ≠ a.block) →
    exec (.registerWrite m (.space off) size v) s = .next
      ((((u.logAppend ⟨s.fabric, 0, v, m.toNat, 1, 1, off.toNat⟩).event
        (if off.toNat < 20 * 2 ^ 20 then off.toNat / 2 ^ 20 else 0) 2047 m.toNat (off.toNat / 8 % 2 ^ 23) false false).deliver
          a 0 s.stopped).done s)

/-- VF_REG_DATA_READ, VF_TBL_DATA_READ and HANDLER_MEM_READ return what the register shows. A 64-bit read of a virtual
function's register-data window is a 64-bit read of its target under the function's own master ID: it returns what a register
without side effect shows, and zero where no register lies; a read of any other size returns zero. An aligned read of any
other offset of the page returns the word of the page, which is the table, the pending bits, HIF_VF_INFO or HIF_VF_REG_ADDR,
and zero elsewhere. A read of the MSI-X table window returns the selected word, and a read of HDL_MEM_DATA the 8 bytes of
handler memory at the selected offset, zero past its end. A host function gets the data in a completion, and a handler core
takes it too. (00_scope.md R11; 00_scope.md R12; 00_scope.md R14; 02_host_ports.md R48; 02_host_ports.md R49; 02_host_ports.md
R50; 11_handlers_scratchpad_semaphores.md R325) -/
def Obligations.ReadsReturnWhatTheRegisterShows : Prop :=
  (∀ (p : HPort) (v : Vf) (s : State), s.vfThere p.val (v.val + 1) = true →
    let m := mHost p.val (v.val + 1)
    let off := (s.fn p.val (v.val + 1)).vfRegAddr
    let a : WaitAcc := ⟨m, off, .w64, none, none, s.now⟩
    (s.blocked a = false → (∀ b ∈ s.waits, b.block ≠ a.block) →
      (a.reg = none → exec (.vfRegDataRead p v ⟨0x1010, .w64⟩) s = .next ((s.deliver a 0 false).done s)) ∧
      (∀ r, off % 8 = 0 → regAt off = some r →
        r.reg ≠ .SEM_ACQ → r.reg ≠ .SEC_FLASH_DATA → r.reg ≠ .HIF_DS_CFG_DATA → r.reg ≠ .HIF_DS_MEM_DATA →
        exec (.vfRegDataRead p v ⟨0x1010, .w64⟩) s = .next ((s.emit (.regData m off (s.regView r))).done s))) ∧
    (∀ z, z ≠ .w64 → exec (.vfRegDataRead p v ⟨0x1010, z⟩) s = .next ((s.emit (.regData m 0x1010 0)).done s)) ∧
    (∀ o : BitVec 16, o.toNat % 8 = 0 → o.toNat ≠ 0x1010 → exec (.vfRegDataRead p v ⟨o, .w64⟩) s = .next
      ((s.emit (.regData m o.toNat (s.vfPageWord p.val (v.val + 1) o.toNat))).done s))) ∧
  (∀ (p v off : Nat) (s : State),
    (off < 0x400 → s.vfPageWord p v off = s.msixWord p v (off / 8)) ∧ s.vfPageWord p v 0x800 = (s.fn p v).pba ∧
    s.vfPageWord p v 0x1000 = BitVec.ofNat 64 (s.fld HIF_VF_CTX_BLOCK.block p (v - 1) * 2 ^ 32 + p * 2 ^ 24 + v) ∧
    s.vfPageWord p v 0x1008 = BitVec.ofNat 64 (s.fn p v).vfRegAddr ∧
    (0x400 ≤ off → off ≠ 0x800 → off ≠ 0x1000 → off ≠ 0x1008 → s.vfPageWord p v off = 0)) ∧
  (∀ (m : Master) (p : HPort) (s : State) (v k : Nat), directMaster m.toNat = true → s.vfTblSel p.val = some (v, k) →
    let a : WaitAcc := ⟨m.toNat, (RegRef.mk .HIF_VF_TBL_DATA p.val 0).off, .w64, none, none, s.now⟩
    s.hif.ds = none → (∀ b ∈ s.waits, b.block ≠ 1) →
    exec (.vfTblDataRead m p .w64) s = .next ((s.deliver a (s.vfWord p.val v k) false).done s)) ∧
  (∀ (m : Master) (s : State), directMaster m.toNat = true → (∀ b ∈ s.waits, b.block ≠ 11) →
    let a : WaitAcc := ⟨m.toNat, (RegRef.mk .HDL_MEM_DATA 0 0).off, .w64, none, none, s.now⟩
    exec (.handlerMemRead m) s = .next ((s.deliver a
      (BitVec.ofNat 64 (if s.hmemAt < s.hmemSize then ofLE (s.hmem.read s.hmemAt 8) else 0)) false).done s)) ∧
  (∀ (a : WaitAcc) (x : Word) (s : State), a.write = none → a.part = some .full →
    (a.m < 2 ^ 21 → s.deliver a x false = s.emit (.regData a.m a.off x)) ∧
    (∀ c, c < 64 → a.m = mCore c → s.deliver a x false = (s.emit (.regData a.m a.off x)).coreTake c a.off x.toNat))

/-- HOST_LINK_TRAINED and PERST_DEASSERT: a link settles, or falls back to non-Flit mode and trains once more. A training port
in endpoint mode that settles at a width and rate within its limits shows them, has its sub-link up and low_speed set exactly
at the two lowest rates; below 64.0 GT/s in Flit mode it sets nonflit_fallback instead and trains again without Flit mode. A
sub-link of a downstream port that may come up does the same, with its slot status and the enumeration of what is below it.
PERST_N rising ends the reset, and the link of a port out of setup trains, once the reset of its function is complete.
(02_host_ports.md R40; 02_host_ports.md R41; 02_host_ports.md R42; 02_host_ports.md R70; 14_boot_security_log.md R417) -/
def Obligations.HostLinksTrainAndSettle : Prop :=
  (∀ (p : HPort) (width speed : Nat) (dev : Option SubDevice) (s : State), s.linkFits p.val width speed = true →
    s.endpoint p.val = true → (s.hport p.val).training = true →
    let fallback := (s.hport p.val).flit && decide (speed < 6)
    let u := s.setFlag HIF_PORT_STATUS.nonflit_fallback p.val 0 true
    (fallback = true → exec (.hostLinkTrained p 0 width ⟨speed, dev⟩) s = .next (((u.setHport p.val { u.hport p.val with
      training := true, trainDue := false, flit := false }).emit (.linkTrain p.val)).done s)) ∧
    (fallback = false → exec (.hostLinkTrained p 0 width ⟨speed, dev⟩) s = .next
      (((((((s.setHport p.val { s.hport p.val with training := false }).setUp p.val 0 true).setFld HIF_PORT_STATUS.width p.val 0
        width).setFld HIF_PORT_STATUS.speed p.val 0 speed).setFlag HIF_PORT_STATUS.low_speed p.val 0 (decide (speed ≤ 2))).updateWire
          p.val).done s))) ∧
  (∀ (p : HPort) (k : SubLink) (width speed : Nat) (dev : Option SubDevice) (s : State), s.linkFits p.val width speed = true →
    s.dllMay p.val k.val = true → s.flag HIF_DS_SLOT_STATUS.dll_active p.val k.val = false →
    let fallback := (s.hport p.val).flit && decide (speed < 6)
    let u := s.setFlag HIF_PORT_STATUS.nonflit_fallback p.val 0 true
    (fallback = true → exec (.hostLinkTrained p k width ⟨speed, dev⟩) s = .next (((u.setHport p.val { u.hport p.val with
      training := true, trainDue := false, flit := false }).emit (.linkTrain p.val)).done s)) ∧
    (fallback = false → exec (.hostLinkTrained p k width ⟨speed, dev⟩) s = .next
      ((((s.setHport p.val { s.hport p.val with training := false }).dllChange p.val k.val true width speed).deviceFound p.val k.val
        speed dev).done s))) ∧
  (∀ (p : HPort) (s : State), (s.hport p.val).perst = true →
    let u := s.setHport p.val { s.hport p.val with perst := false, perstAt := s.now }
    (s.endpoint p.val = false ∨ s.flag HIF_PORT_STATUS.in_setup p.val 0 = true →
      exec (.perstDeassert p) s = .next (u.done s)) ∧
    (s.endpoint p.val = true → s.flag HIF_PORT_STATUS.in_setup p.val 0 = false →
      exec (.perstDeassert p) s = .next ((u.trainWhen p.val).done s))) ∧
  (∀ (p : Nat) (s : State), s.endpoint p = true → (s.hport p).perst = false →
    let flit := s.fld HIF_PORT_CFG.max_speed p 0 == 0
    ((s.fn p 0).flr = false → s.trainWhen p = (s.setHport p { s.hport p with
      training := true, trainDue := false, flit := flit }).emit (.linkTrain p)) ∧
    ((s.fn p 0).flr = true → s.trainWhen p = s.setHport p { s.hport p with flit := flit, trainDue := true }))

/-- HOT_RESET, HOST_DL_DOWN and PERST_ASSERT reset every function, take the link down and return the port to setup. A hot
reset or a transition to DL_Down on an endpoint port with its link up, and PERST_N going low, is a port reset. After one, of a
port in either mode, in_setup reads 1, and sublink_up, width, speed, low_speed and nonflit_fallback read 0. PERST_N going low
also takes the readiness of every function away. (02_host_ports.md R42; 02_host_ports.md R59; 02_host_ports.md R62;
14_boot_security_log.md R417) -/
def Obligations.PortResetsReturnThePortToSetup : Prop :=
  (∀ (p : HPort) (s : State), s.endpoint p.val = true → s.fld HIF_PORT_STATUS.sublink_up p.val 0 ≠ 0 →
    exec (.hotReset p) s = .next ((s.portReset p.val).done s) ∧
    exec (.hostDlDown p) s = .next ((s.portReset p.val).done s)) ∧
  (∀ (p : HPort) (s : State), s.endpoint p.val = true → (s.hport p.val).perst = false →
    exec (.perstAssert p) s = .next (((List.range 257).foldl (fun s f => if (s.fn p.val f).ready = true then
      s.setFn p.val f { s.fn p.val f with ready := false } else s) ((s.setHport p.val { s.hport p.val with
        perst := true }).portReset p.val)).done s)) ∧
  (∀ (p : Nat) (s : State), s.Ok → let t := s.portReset p
    t.fld HIF_PORT_STATUS.in_setup p 0 = 1 ∧ t.fld HIF_PORT_STATUS.sublink_up p 0 = 0 ∧ t.fld HIF_PORT_STATUS.width p 0 = 0 ∧
    t.fld HIF_PORT_STATUS.speed p 0 = 0 ∧ t.fld HIF_PORT_STATUS.low_speed p 0 = 0 ∧
    t.fld HIF_PORT_STATUS.nonflit_fallback p 0 = 0)

/-- FLR_INITIATE, FLR_COMPLETE and FUNCTION_READY: the steps of a function-level reset. An accepted function-level reset of a
virtual function marks it in reset, drains the contexts bound to it, drops its reads and releases its semaphores (steps 2 to
5, which the model takes at once); that of the physical function does so for it and for every virtual function and clears VF
Enable. While the reset runs another merges into it. Its completion, once RSV has taken its reports, puts the function's state
at reset values, where only its readiness and the address of its register-data window stay (the physical function's vector
table and pending bits with it); the physical function's completes its virtual functions' too, and a link that waited for it
trains. A function becomes ready once PERST_N is high. After steps 2 to 5 no semaphore is held or awaited by the function.
(02_host_ports.md R59; 02_host_ports.md R60; 02_host_ports.md R62; 11_handlers_scratchpad_semaphores.md R350;
14_boot_security_log.md R417; log entry 44) -/
def Obligations.FunctionResetsRunTheirSteps : Prop :=
  (∀ (p : HPort) (f : Fn) (s : State), s.fnAnswers p.val f.val = true → f ≠ 0 →
    let u := s.setFn p.val f.val { s.fn p.val f.val with flr := true, flrAt := s.now, flrCtxs := s.fnCtxs p.val f.val }
    exec (.flrInitiate p f) s = .next ((((u.fnDrain p.val f.val).dropReads p.val f.val).semReset (mHost p.val f.val)).done s)) ∧
  (∀ (p f : Nat) (s : State), s.rsvHeld = false → s.fnDrain p f = (s.fn p f).flrCtxs.foldl State.ctxFnReset s) ∧
  (∀ (p : HPort) (s : State), s.fnAnswers p.val 0 = true →
    let u := s.oneFnReset p.val 0
    exec (.flrInitiate p 0) s = .next (((List.range 256).foldl (fun s v => s.oneFnReset p.val (v + 1))
      (u.setHport p.val { u.hport p.val with vfEnable := false, numVfs := 0 })).done s)) ∧
  (∀ (p : HPort) (f : Fn) (s : State), (s.fn p.val f.val).flr = true →
    exec (.flrInitiate p f) s = .next (s.done s) ∧
    (f ≠ 0 → s.rsv.held.contains (.drain p.val f.val) = false → exec (.flrComplete p f) s = .next ((s.setFn p.val f.val
      { FnState.init with ready := (s.fn p.val f.val).ready, vfRegAddr := (s.fn p.val f.val).vfRegAddr }).done s)) ∧
    (f = 0 → let t := (List.range 257).foldl (fun s v => s.oneFnDone p.val v) s
      exec (.flrComplete p f) s = .next ((if (t.hport p.val).trainDue then t.trainWhen p.val else t).done s))) ∧
  (∀ (p : Nat) (s : State), (s.fn p 0).flr = true → s.rsv.held.contains (.drain p 0) = false →
    let base := (RegRef.mk .HIF_MSIX_TABLE p 0).off
    let u := (s.setFn p 0 { FnState.init with ready := (s.fn p 0).ready, vfRegAddr := (s.fn p 0).vfRegAddr }).setHport p
      { s.hport p with vfBars := [] }
    s.oneFnDone p 0 = { u with regs := s.regs.filter fun e => e.1 < base || base + 0x8100 ≤ e.1 }) ∧
  (∀ (p : HPort) (f : Fn) (s : State), s.sec.step ≠ 0 → s.fnExists p.val f.val = true → (s.hport p.val).perst = false →
    (s.fn p.val f.val).ready = false →
    exec (.functionReady p f) s = .next ((s.setFn p.val f.val { s.fn p.val f.val with ready := true }).done s)) ∧
  (∀ (s : State) (m n : Nat), s.Ok → n < 64 → ((s.semReset m).semOf n).holder ≠ some m ∧
    ∀ w ∈ ((s.semReset m).semOf n).waiters, w.master ≠ m)

/-- CONFIG_REQUEST and AER_ERROR: answered, retried or not answered; identification and base addresses; error bits. On a link
that is up, a request to a function that exists and does not answer is completed with Request Retry Status, a read of one that
answers returns its dword and a write changes its enable; a request to a function that does not exist changes nothing. The
dwords of the device's identification read as R45 and R46 say (their places are the base specification's, log entry 106); the
base address registers hold what was written in the bits of their size, with their types (R36, R46), and a virtual function's
read zero. An AER error sets bits of its status word (which ones the base specification says: free) and counts in HIF's
window; a write clears the bits written 1. (01_architecture.md R36; 02_host_ports.md R45; 02_host_ports.md R46;
02_host_ports.md R60; 12_faults.md R384; log entries 45, 106 and 107) -/
def Obligations.ConfigurationRequestsReachTheirFunction : Prop :=
  (∀ (p : HPort) (f : Fn) (req : CfgReq) (s : State),
    (s.fnExists p.val f.val = false → exec (.configRequest p f req) s = .next (s.done s)) ∧
    (s.fnExists p.val f.val = true → s.fld HIF_PORT_STATUS.sublink_up p.val 0 ≠ 0 → s.fnAnswers p.val f.val = false →
      exec (.configRequest p f req) s = .next ((s.emit (.cfgRetry p.val f.val)).done s))) ∧
  (∀ (p : HPort) (f : Fn) (s : State), s.fnAnswers p.val f.val = true →
    (∀ d, exec (.configRequest p f (.read d)) s = .next ((s.emit (.cfgDone p.val f.val (s.cfgRead p.val f.val d))).done s)) ∧
    (∀ b, exec (.configRequest p f (.writeBusMaster b)) s =
      .next (((s.setFn p.val f.val { s.fn p.val f.val with busMaster := b }).emit (.cfgDone p.val f.val 0)).done s)) ∧
    (∀ b, exec (.configRequest p f (.writeIdo b)) s =
      .next (((s.setFn p.val f.val { s.fn p.val f.val with ido := b }).emit (.cfgDone p.val f.val 0)).done s)) ∧
    (∀ b, exec (.configRequest p f (.writeAtomicReq b)) s =
      .next (((s.setFn p.val f.val { s.fn p.val f.val with atomicReq := b }).emit (.cfgDone p.val f.val 0)).done s)) ∧
    (∀ n, f = 0 → (s.hport p.val).vfEnable = false → exec (.configRequest p f (.writeVfEnable true n)) s =
      .next (((s.setHport p.val { s.hport p.val with vfEnable := true, numVfs := min 256 n }).emit (.cfgDone p.val 0 0)).done s)) ∧
    (∀ v, f = 0 → exec (.configRequest p f (.writeAer 0x44 v)) s =
      .next (((s.setHport p.val { s.hport p.val with
        aerCor := (BitVec.ofNat 32 (s.hport p.val).aerCor &&& ~~~v).toNat }).emit (.cfgDone p.val 0 0)).done s)) ∧
    (∀ d v, exec (.configRequest p f (.writeOther d v)) s =
      .next (((s.cfgStore p.val f.val d v.toNat).emit (.cfgDone p.val f.val 0)).done s))) ∧
  (∀ (p i : Nat) (b : BarShape) (s : State), (pfBars[i]? = some b →
      s.cfgRead p 0 (4 + i) = SMap.getD (fun _ => 0) (s.fn p 0).bars i &&& b.mask ||| b.type) ∧
    (vfBars[i]? = some b → s.cfgRead p 0 (0x61 + i) = SMap.getD (fun _ => 0) (s.hport p).vfBars i &&& b.mask ||| b.type) ∧
    (∀ f, f ≠ 0 → i < 6 → s.cfgRead p f (4 + i) = 0)) ∧
  (∀ (p f : Nat) (s : State), s.cfgRead p 0 0 = 0x00481E7A ∧ (f ≠ 0 → s.cfgRead p f 0 = 0x00491E7A) ∧ s.cfgRead p f 2 = 0x028000A1 ∧
    bitsOf (s.cfgRead p f 3) 23 16 = 0 ∧ bitsOf (s.cfgRead p 0 0xF) 15 8 = 1 ∧ (f ≠ 0 → bitsOf (s.cfgRead p f 0xF) 15 8 = 0) ∧
    bitsOf (s.cfgRead p 0 0x14) 26 16 = 2047 ∧ s.cfgRead p 0 0x15 = 0x100000 + p * 0x10000 ∧
    s.cfgRead p 0 0x16 = 0x108000 + p * 0x10000 ∧ s.cfgRead p 0 0x5B = 256 * 2 ^ 16 + 256) ∧
  (∀ (p : HPort) (s : State), s.fld HIF_PORT_STATUS.sublink_up p.val 0 ≠ 0 →
    let x := s.fresh 32
    exec (.aerError p false) s = .next (((x.2.setHport p.val { s.hport p.val with
      aerCor := (BitVec.ofNat 32 (s.hport p.val).aerCor ||| x.1).toNat }).fault 1 (8 * p.val) p.val).done s) ∧
    exec (.aerError p true) s = .next (((x.2.setHport p.val { s.hport p.val with
      aerUnc := (BitVec.ofNat 32 (s.hport p.val).aerUnc ||| x.1).toNat }).fault 1 (8 * p.val + 1) p.val).done s))

/-- MSIX_ENABLE_CHANGE and INTX_DISABLE_CHANGE, vector events and their acknowledgement. A change of Interrupt Disable, or of
MSI-X Enable to 0, brings the INTA wire to what its inputs give; MSI-X Enable going to 1 deasserts the wire first and then
sends the pending vectors that are not masked. A vector event sends its message where MSI-X is enabled and the vector not
masked; else it sets the pending bit and no other, and on the physical function with the emulation active and the link up the
wire reads asserted. A function in reset takes none. An acknowledgement clears the one pending bit, and the wire then follows.
(02_host_ports.md R52; 02_host_ports.md R53; 02_host_ports.md R54; 02_host_ports.md R55) -/
def Obligations.InterruptsGoByMessageOrWire : Prop :=
  (∀ (p : HPort) (s : State) (b : Bool), s.fnAnswers p.val 0 = true → (s.fn p.val 0).intxDis ≠ b →
    exec (.intxDisableChange p b) s = .next (((s.setFn p.val 0 { s.fn p.val 0 with intxDis := b }).updateWire p.val).done s)) ∧
  (∀ (p : HPort) (f : Fn) (s : State) (b : Bool), s.fnAnswers p.val f.val = true → (s.fn p.val f.val).msixEn ≠ b →
    let u := s.setFn p.val f.val { s.fn p.val f.val with msixEn := b }
    (b = true → f = 0 → exec (.msixEnableChange p f b) s = .next (((u.updateWire p.val).flushPending p.val 0).done s)) ∧
    (b = true → f ≠ 0 → exec (.msixEnableChange p f b) s = .next ((u.flushPending p.val f.val).done s)) ∧
    (b = false → f = 0 → exec (.msixEnableChange p f b) s = .next ((u.updateWire p.val).done s)) ∧
    (b = false → f ≠ 0 → exec (.msixEnableChange p f b) s = .next (u.done s))) ∧
  (∀ (p f vec : Nat) (s : State),
    ((s.fn p f).flr = true → s.vecEvent p f vec = s) ∧
    ((s.fn p f).flr = false → (s.fn p f).msixEn = true → s.msixMasked p f vec = false → s.vecEvent p f vec = s.sendMsix p f vec) ∧
    ((s.fn p f).flr = false → (s.fn p f).msixEn = true → s.msixMasked p f vec = true → s.vecEvent p f vec = s.setPba p f vec true) ∧
    ((s.fn p f).flr = false → (s.fn p f).msixEn = false → f ≠ 0 → s.vecEvent p f vec = s.setPba p f vec true) ∧
    (s.Ok → vec < 2048 → (s.fn p 0).flr = false → (s.fn p 0).msixEn = false → (s.fn p 0).intxDis = false →
      s.fld HIF_PORT_STATUS.sublink_up p 0 ≠ 0 →
      (s.vecEvent p 0 vec).out = s.out ++ (if (s.hport p).wire then [] else [.assertInta p]) ∧
      (∀ v, v < 2048 → (s.vecEvent p 0 vec).pbaBit p 0 v = (s.pbaBit p 0 v || v == vec)))) ∧
  (∀ (p vec v : Nat) (b : Bool) (s : State), s.Ok → vec < 2048 → v < 2048 →
    (s.setPba p 0 vec b).pbaBit p 0 v = if v = vec then b else s.pbaBit p 0 v) ∧
  (∀ (p : Nat) (s : State),
    let wire := !(s.fn p 0).msixEn && !(s.fn p 0).intxDis && !(s.fn p 0).flr && s.fld HIF_PORT_STATUS.sublink_up p 0 != 0 && s.anyPba p
    (s.updateWire p).out = s.out ++ (if wire && !(s.hport p).wire then [.assertInta p] else
      if !wire && (s.hport p).wire then [.deassertInta p] else []))

/-- The slot commands: power, PERST, presence, DL_Active, power fault and attention button. Slot power goes off once
dll_active reads 0 or 1 ms after the write; PERST of a powered slot is released 100 ms after power came; a change of presence
or of DL_Active shows in the slot status, sets its W1C bit, and is a surprise removal where it goes to 0 with pwr_ctl and
link_disable at 0; a link that comes up is enumerated (a Type 3 device is asked for its identity and health; a Type 1 or Type
2 device, or a link below 32.0 GT/s, is left with cfg_error); a power fault sets pwr_fault, switches the slot off and is a
surprise removal of an active link; the button sets attn_btn. A status bit that becomes 1 with its enable and hp_int_en set is
a slot event: vector 22 and work for the resident firmware. (02_host_ports.md R40; 02_host_ports.md R63; 02_host_ports.md R64;
02_host_ports.md R65; 02_host_ports.md R70; 17_package_electrical.md R483; log entry 46) -/
def Obligations.SlotsFollowTheirDevices : Prop :=
  (∀ (p : HPort) (k : SubLink) (s : State) (t : Nat), (s.sub p.val k.val).offBy = some t →
    let u := if s.flag HIF_DS_SLOT_STATUS.dll_active p.val k.val then s.advance t else s
    exec (.slotPowerRemove p k) s = .next (((u.setSub p.val k.val { u.sub p.val k.val with powered := false, offBy := none }).emit
      (.slotPower p.val k.val false)).done s)) ∧
  (∀ (p : HPort) (k : SubLink) (s : State), (s.sub p.val k.val).powered = true → (s.sub p.val k.val).perst = true →
    (s.sub p.val k.val).offBy = none → s.flag HIF_DS_SLOT_CTL.pwr_ctl p.val k.val = false →
    exec (.slotPerstRelease p k) s = .next ((((s.advance ((s.sub p.val k.val).onAt + ms 100)).setSub p.val k.val
      { s.sub p.val k.val with perst := false }).emit (.slotPerst p.val k.val false)).done s)) ∧
  (∀ (p : HPort) (k : SubLink) (b : Bool) (s : State), s.endpoint p.val = false → s.subExists p.val k.val = true →
    s.flag HIF_DS_SLOT_STATUS.pres_state p.val k.val ≠ b →
    let u := (s.setFlag HIF_DS_SLOT_STATUS.pres_state p.val k.val b).slotBit p.val k.val HIF_DS_SLOT_STATUS.pres_chg
      HIF_DS_SLOT_CTL.pres_chg_en
    exec (.presenceChange p k b) s = .next ((if b = false ∧ u.slotLive p.val k.val = true then u.surpriseRemoval p.val k.val
      else u).done s)) ∧
  (∀ (p : HPort) (k : SubLink) (width speed : Nat) (dev : Option SubDevice) (s : State),
    exec (.dllActiveChange p k false width ⟨speed, dev⟩) s = .next ((s.dllChange p.val k.val false 0 0).done s) ∧
    (s.flag HIF_DS_SLOT_STATUS.dll_active p.val k.val = false → s.dllMay p.val k.val = true →
      s.linkFits p.val width speed = true → ((s.hport p.val).flit = false ∨ 6 ≤ speed) →
      exec (.dllActiveChange p k true width ⟨speed, dev⟩) s = .next ((((s.setHport p.val { s.hport p.val with
        training := false }).dllChange p.val k.val true width speed).deviceFound p.val k.val speed dev).done s))) ∧
  (∀ (p : HPort) (k : SubLink) (s : State), s.endpoint p.val = false → s.subExists p.val k.val = true →
    exec (.attentionButton p k) s = .next
      ((s.slotBit p.val k.val HIF_DS_SLOT_STATUS.attn_btn HIF_DS_SLOT_CTL.attn_btn_en).done s) ∧
    (let u := s.slotBit p.val k.val HIF_DS_SLOT_STATUS.pwr_fault HIF_DS_SLOT_CTL.pwr_fault_en
     let w := if u.flag HIF_DS_SLOT_CTL.pwr_ctl p.val k.val then u
       else ((u.setFlag HIF_DS_SLOT_CTL.pwr_ctl p.val k.val true).slotPerstLow p.val k.val).slotOff p.val k.val
     exec (.powerFault p k) s = .next ((if s.flag HIF_DS_SLOT_STATUS.dll_active p.val k.val then w.surpriseRemoval p.val k.val
       else w).done s))) ∧
  (∀ (p k width speed : Nat) (b : Bool) (s : State), s.flag HIF_DS_SLOT_STATUS.dll_active p k ≠ b →
    let u := ((s.setFlag HIF_DS_SLOT_STATUS.dll_active p k b).setFld HIF_DS_SLOT_STATUS.width p k (if b then width else 0)).setFld
      HIF_DS_SLOT_STATUS.speed p k (if b then speed else 0)
    let v₁ := (u.setUp p k b).lowSpeed p
    let v := if b then v₁ else v₁.setSub p k { v₁.sub p k with device := none }
    let w := (if k = 0 then (v.setFld HIF_PORT_STATUS.width p 0 (if b then width else 0)).setFld HIF_PORT_STATUS.speed p 0
      (if b then speed else 0) else v).slotBit p k HIF_DS_SLOT_STATUS.dll_chg HIF_DS_SLOT_CTL.dll_chg_en
    s.dllChange p k b width speed = if b = false ∧ w.slotLive p k = true then w.surpriseRemoval p k else w) ∧
  (∀ (p k speed : Nat) (dev : Option SubDevice) (s : State),
    let u := s.setSub p k { s.sub p k with device := dev }
    (speed < 5 → s.deviceFound p k speed dev = u.setFlag HIF_DS_SLOT_STATUS.cfg_error p k true) ∧
    (∀ d, dev = some d → d.type = 1 ∨ d.type = 2 → s.deviceFound p k speed dev = u.setFlag HIF_DS_SLOT_STATUS.cfg_error p k true) ∧
    (∀ d, dev = some d → d.type = 3 → 5 ≤ speed →
      s.deviceFound p k speed dev = (u.emit (.dsIdentify p k)).emit (.dsHealth p k))) ∧
  (∀ (p k : Nat) (bit en : Field) (s : State), s.flag bit p k = false →
    let u := s.setFlag bit p k true
    s.slotBit p k bit en = if u.flag en p k = true ∧ u.flag HIF_DS_SLOT_CTL.hp_int_en p k = true then
      (u.blockVec 22).fwPush (.slot p k) else u)

/-- DS_CFG_READ, DS_MEM_READ, DS_CFG_WRITE, DS_MEM_WRITE, their completions and timeout, and DS_INBOUND_REQUEST. A read or
write of the two data registers of a sub-link by a master that reaches the register space, with no other access outstanding:
in DL_Active and without removal it is outstanding and goes to the device below with the function and dword, or the address,
that the address register selects; after a removal a read returns all ones (32 bits of them for configuration); without
DL_Active the access also sets cfg_error. A write carries its data in its place and is recorded; one of the upper half of the
configuration data has no bit to write and ends there. While an access of a sub-link is outstanding, its completion with data
ends it and gives a read's data to its master (the low 32 bits for configuration); a completion with an error, or 1 ms without
one, also sets cfg_error and gives all ones (that any completion of a memory access but data ends so is the model's choice,
log entry 108); poisoned data of the active target first counts as an error of the target. A completion of the other kind
changes nothing. An inbound MSI on a link in DL_Active sets attn_btn, a memory request completes with Unsupported Request, and
an INTx message changes nothing. (02_host_ports.md R65; 02_host_ports.md R66; 02_host_ports.md R67; 02_host_ports.md R68;
02_host_ports.md R69; 02_host_ports.md R70; 14_boot_security_log.md R433; log entry 108) -/
def Obligations.DownstreamAccessesIssueAndEnd : Prop :=
  (∀ (m : Master) (p : HPort) (k : SubLink) (s : State), directMaster m.toNat = true → s.hif.ds = none →
    (∀ b ∈ s.waits, b.block ≠ 1) →
    let c : WaitAcc := ⟨m.toNat, (RegRef.mk .HIF_DS_CFG_DATA p.val k.val).off, .w64, none, none, s.now⟩
    let d : WaitAcc := ⟨m.toNat, (RegRef.mk .HIF_DS_MEM_DATA p.val k.val).off, .w64, none, none, s.now⟩
    let addr := s.fld HIF_DS_MEM_ADDR.addr p.val k.val * 8
    (s.flag HIF_DS_SLOT_STATUS.removed p.val k.val = true →
      exec (.dsCfgRead m p k) s = .next ((s.deliver c 0xFFFFFFFF false).done s) ∧
      exec (.dsMemRead m p k) s = .next ((s.deliver d (BitVec.allOnes 64) false).done s)) ∧
    (s.flag HIF_DS_SLOT_STATUS.removed p.val k.val = false → s.flag HIF_DS_SLOT_STATUS.dll_active p.val k.val = false →
      let u := s.setFlag HIF_DS_SLOT_STATUS.cfg_error p.val k.val true
      exec (.dsCfgRead m p k) s = .next ((u.deliver c 0xFFFFFFFF false).done s) ∧
      exec (.dsMemRead m p k) s = .next ((u.deliver d (BitVec.allOnes 64) false).done s)) ∧
    (s.flag HIF_DS_SLOT_STATUS.removed p.val k.val = false → s.flag HIF_DS_SLOT_STATUS.dll_active p.val k.val = true →
      exec (.dsCfgRead m p k) s = .next ((({ s with hif := { s.hif with ds := some ⟨c, p.val, k.val, .cfgRead, s.now⟩ } }).emit
        (.dsCfgRead p.val k.val (s.fld HIF_DS_CFG_ADDR.function p.val k.val) (s.fld HIF_DS_CFG_ADDR.dword p.val k.val))).done s) ∧
      exec (.dsMemRead m p k) s = .next ((({ s with hif := { s.hif with ds := some ⟨d, p.val, k.val, .memRead, s.now⟩ } }).emit
        (.dsMemRead p.val k.val (s.inHdm p.val k.val addr) addr)).done s))) ∧
  (∀ (m : Master) (p : HPort) (k : SubLink) (w : WVal) (s : State), directMaster m.toNat = true → s.hif.ds = none →
    (∀ b ∈ s.waits, b.block ≠ 1) → s.stopped = false → s.fld SEC_BOOT_STATUS.state 0 0 ≠ 3 →
    let r : RegRef := ⟨.HIF_DS_CFG_DATA, p.val, k.val⟩
    let a := w.access m.toNat r s.now
    let u := s.rxBytes m.toNat w.bytes
    let x := attempted w.mask w.data (u.regView r)
    let t := u.logWrite m.toNat r.off 0 x
    u.logStall a = false →
    (w.acc = .hi → exec (.dsCfgWrite m p k w) s = .next ((t.deliver a 0 false).done s)) ∧
    (w.acc ≠ .hi → t.flag HIF_DS_SLOT_STATUS.removed p.val k.val = false →
      t.flag HIF_DS_SLOT_STATUS.dll_active p.val k.val = true →
      exec (.dsCfgWrite m p k w) s = .next ((({ t with hif := { t.hif with ds := some ⟨a, p.val, k.val, .cfgWrite, t.now⟩ } }).emit
        (.dsCfgWrite p.val k.val (t.fld HIF_DS_CFG_ADDR.function p.val k.val) (t.fld HIF_DS_CFG_ADDR.dword p.val k.val)
          (x.toNat % 2 ^ 32))).done s))) ∧
  (∀ (m : Master) (p : HPort) (k : SubLink) (w : WVal) (s : State), directMaster m.toNat = true → s.hif.ds = none →
    (∀ b ∈ s.waits, b.block ≠ 1) → s.stopped = false → s.fld SEC_BOOT_STATUS.state 0 0 ≠ 3 →
    let r : RegRef := ⟨.HIF_DS_MEM_DATA, p.val, k.val⟩
    let a := w.access m.toNat r s.now
    let u := s.rxBytes m.toNat w.bytes
    let x := attempted w.mask w.data (u.regView r)
    let t := u.logWrite m.toNat r.off 0 x
    let addr := t.fld HIF_DS_MEM_ADDR.addr p.val k.val * 8
    u.logStall a = false → t.flag HIF_DS_SLOT_STATUS.removed p.val k.val = false →
    t.flag HIF_DS_SLOT_STATUS.dll_active p.val k.val = true →
    exec (.dsMemWrite m p k w) s = .next ((({ t with hif := { t.hif with ds := some ⟨a, p.val, k.val, .memWrite, t.now⟩ } }).emit
      (.dsMemWrite p.val k.val (t.inHdm p.val k.val addr) addr x)).done s)) ∧
  (∀ (p : HPort) (k : SubLink) (s : State) (d : DsOut), s.hif.ds = some d → d.p = p.val → d.s = k.val →
    let ended (u : State) (x : Word) := ({ u with hif := { u.hif with ds := none } }).deliver d.acc x false
    let failed (u : State) := ended (u.setFlag HIF_DS_SLOT_STATUS.cfg_error p.val k.val true)
      (if d.kind.isCfg then 0xFFFFFFFF else BitVec.allOnes 64)
    exec (.dsAccessTimeout p k) s = .next ((failed (s.advance (d.at_ + ms 1))).done s) ∧
    (d.kind.isCfg = true →
      (∀ x, exec (.dsCfgComplete p k (.ok x)) s = .next ((ended s (x &&& 0xFFFFFFFF)).done s)) ∧
      (∀ r, (∀ x, r ≠ .ok x) → r ≠ .poisoned → exec (.dsCfgComplete p k r) s = .next ((failed s).done s)) ∧
      exec (.dsCfgComplete p k .poisoned) s =
        .next ((failed (if s.targetOn p.val k.val then s.targetError else s)).done s) ∧
      ∀ r, exec (.dsMemComplete p k r) s = .next (s.done s)) ∧
    (d.kind.isCfg = false →
      (∀ x, exec (.dsMemComplete p k (.ok x)) s = .next ((ended s x).done s)) ∧
      (∀ r, (∀ x, r ≠ .ok x) → r ≠ .poisoned → exec (.dsMemComplete p k r) s = .next ((failed s).done s)) ∧
      exec (.dsMemComplete p k .poisoned) s =
        .next ((failed (if s.targetOn p.val k.val then s.targetError else s)).done s) ∧
      ∀ r, exec (.dsCfgComplete p k r) s = .next (s.done s))) ∧
  (∀ (p : HPort) (k : SubLink) (s : State), s.flag HIF_DS_SLOT_STATUS.dll_active p.val k.val = true →
    exec (.dsInboundRequest p k .msi) s = .next
      ((s.slotBit p.val k.val HIF_DS_SLOT_STATUS.attn_btn HIF_DS_SLOT_CTL.attn_btn_en).done s) ∧
    exec (.dsInboundRequest p k .memory) s = .next ((s.emit (.dsUnsupported p.val k.val)).done s) ∧
    exec (.dsInboundRequest p k .intx) s = .next (s.done s))

/-- HOST_READ_COMPLETION fills its chunk; HOST_COMPLETION_TIMEOUT counts and drops what it was for. The data of an outstanding
read of the right length removes the read and fills its chunk of the gather, counted as received payload. A read that reaches
its completion timeout is counted in HIF's window, its gather is dropped with every read of it, and a Cascade segment so lost
will be read again, and a handler core that waits for it takes an access fault; a descriptor read that is lost lets the
context fetch again, the loader ends with an error, and the read that ends a seal is made again. (12_faults.md R384;
02_host_ports.md R45; 15_performance_counters.md R445; log entries 47 and 59) -/
def Obligations.HostReadsEndWithDataOrByTimeout : Prop :=
  (∀ (p : HPort) (tag : Nat) (data : List Byte) (s : State) (r : HostRead), SMap.find? s.hif.reads tag = some r → r.p = p.val →
    r.len = data.length →
    let u := ({ s with hif := { s.hif with reads := SMap.erase s.hif.reads tag } }).pmcEv 1 2 p.val 0 data.length
    (∀ g, SMap.find? s.hif.gathers r.gather = some g → 
      let g' : Gather := { g with chunks := g.chunks.set r.chunk (some data) }
      exec (.hostReadCompletion p tag data) s = .next
        (({ u with hif := { u.hif with gathers := SMap.insert u.hif.gathers r.gather g' } }).done s)) ∧
    (SMap.find? s.hif.gathers r.gather = none → exec (.hostReadCompletion p tag data) s = .next (u.done s))) ∧
  (∀ (p : HPort) (tag : Nat) (s : State) (r : HostRead), SMap.find? s.hif.reads tag = some r → r.p = p.val →
    let u := s.fault 1 (8 * p.val + 2) p.val
    let v : State := { u with hif := { u.hif with
      reads := u.hif.reads.filter (fun e => e.2.gather != r.gather), gathers := SMap.erase u.hif.gathers r.gather } }
    (∀ g, SMap.find? u.hif.gathers r.gather = some g →
      (∀ h dest seg again, g.use = .csc h dest seg again →
        exec (.hostCompletionTimeout p tag) s = .next ((v.cscUnread h dest seg).done s)) ∧
      (∀ c, g.use = .core c → exec (.hostCompletionTimeout p tag) s = .next ((v.coreUnread c).done s)) ∧
      ((∀ h dest seg again, g.use ≠ .csc h dest seg again) → (∀ c, g.use ≠ .core c) →
        exec (.hostCompletionTimeout p tag) s = .next (v.done s))) ∧
    (SMap.find? u.hif.gathers r.gather = none → exec (.hostCompletionTimeout p tag) s = .next (v.done s))) ∧
  (∀ (p : HPort) (tag : Nat) (s : State) (r : OtherReq), SMap.find? s.hif.reads tag = none →
    SMap.find? s.hif.others tag = some r → r.p = p.val →
    let u := s.fault 1 (8 * p.val + 2) p.val
    let v : State := { u with hif := { u.hif with others := SMap.erase u.hif.others tag } }
    (∀ c, r.use = .descriptors c → ((v.ctx c).fetching.any fun x => x.2.2 == tag) = true →
      exec (.hostCompletionTimeout p tag) s = .next ((v.setCtx c { v.ctx c with fetching := none }).done s)) ∧
    (r.use = .loader → exec (.hostCompletionTimeout p tag) s = .next ((v.loaderEnd 3).done s)) ∧
    (r.use = .seal → exec (.hostCompletionTimeout p tag) s = .next (v.sealFlush.done s)))

/-- Node IDs, endpoints, handles and master IDs give their parts back. The coordinates of a node ID below 110,592 are
recovered as R17 says, each below 48; an endpoint gives node, port and context back, a handle context, slot, lap and tag,
where slot and lap follow from the index; and no two host functions, and no host function and core, have one master ID.
(00_scope.md R17; 00_scope.md R18; 00_scope.md R19; 01_architecture.md R29; 03_rings_and_handles.md R74) -/
def Obligations.IdentifiersRoundTrip : Prop :=
  (∀ x y z, x < 48 → y < 48 → z < 48 → nodeOf x y z < 110592 ∧ nodeOf x y z / 2304 = z ∧ nodeOf x y z % 2304 / 48 = y ∧
    nodeOf x y z % 48 = x) ∧
  (∀ id, id < 110592 → id / 2304 < 48 ∧ nodeOf (id % 48) (id % 2304 / 48) (id / 2304) = id) ∧
  (∀ node port ctx, port < 8 → ctx < 2 ^ 20 → mkEp node port ctx / 2 ^ 23 = node ∧ mkEp node port ctx / 2 ^ 20 % 8 = port ∧
    mkEp node port ctx % 2 ^ 20 = ctx) ∧
  (∀ lg ctx index tag, lg ≤ 16 → ctx < 2 ^ 20 → tag < 2 ^ 16 →
    mkHandle lg ctx index tag / 2 ^ 44 = ctx ∧ mkHandle lg ctx index tag / 2 ^ 28 % 2 ^ 16 = index % 2 ^ lg ∧
    mkHandle lg ctx index tag / 2 ^ 16 % 2 ^ 12 = index / 2 ^ lg % 4096 ∧ mkHandle lg ctx index tag % 2 ^ 16 = tag) ∧
  (∀ p q f g c, p < 8 → q < 8 → f < 2 ^ 18 → g < 2 ^ 18 → (mHost p f = mHost q g → p = q ∧ f = g) ∧ mHost p f ≠ mCore c)

/-- A completion entry has the layout of R100 and is written at the post index. The 32 bytes of an entry hold handle, status,
detail, phase, byte count, time and result where R100 says, all other bits zero. Posting one writes it, with phase 1 on even
passes, at cr_base + 32 × (post mod 2^cr_log2) of the context's function with the present fabric time, advances post by one
modulo 2^32, and sends cq_vector where the descriptor asks or the ring is armed, which disarms it. (03_rings_and_handles.md
R100; 03_rings_and_handles.md R102; 03_rings_and_handles.md R79; 03_rings_and_handles.md R74; log entry 7) -/
def Obligations.CompletionEntriesHaveTheirLayout : Prop :=
  (∀ handle status detail bytes time result (phase : Bool), handle < 2 ^ 64 → status < 256 → detail < 256 → bytes < 2 ^ 32 →
    time < 2 ^ 64 → result < 2 ^ 64 →
    let e := mkEntry handle status detail phase bytes time result
    e.length = 32 ∧ ofLE (e.take 8) = handle ∧ ofLE ((e.drop 8).take 1) = status ∧ ofLE ((e.drop 9).take 1) = detail ∧
    ofLE ((e.drop 10).take 1) = (if phase then 1 else 0) ∧ ofLE ((e.drop 11).take 1) = 0 ∧ ofLE ((e.drop 12).take 4) = bytes ∧
    ofLE ((e.drop 16).take 8) = time ∧ ofLE (e.drop 24) = result) ∧
  (∀ (s : State) (c handle status detail bytes result : Nat) (irq : Bool),
    let r := s.ctx c
    let u := s.hostWrite r.port r.func (r.crBase + 32 * (r.post % 2 ^ r.crLog2))
      (mkEntry handle status detail (r.post / 2 ^ r.crLog2 % 2 == 0) bytes s.fabric result)
    let v := u.setCtx c { r with post := (r.post + 1) % 2 ^ 32 }
    let send := (v.setCtx c { v.ctx c with armed := false }).vecEvent (v.ctx c).port (v.ctx c).func (v.ctx c).cqVector
    s.postEntry c handle status detail bytes result irq =
      (if irq = true ∨ (v.ctx c).armed = true then send else v).pmcEv 2 4 c 0 1)

/-- DOORBELL_TAIL, CQ_ARM and the discards of every doorbell. A doorbell on an open context brings the context's record on
chip and first takes the inline doorbells that wait for it (fillFirst). A tail write within the ring's size of the tail moves
the tail; one above 2^31 is stale and counted in CMD_DB_STALE; any other is counted as doorbell-range. Arming with bit 0 arms
the ring, or sends the vector at once where entries are unconsumed. A doorbell of any kind that reaches a function in reset,
CMD in setup or a context that is not open only counts as its source, and one in a device stop does nothing; its payload is
counted. (03_rings_and_handles.md R76; 03_rings_and_handles.md R77; 03_rings_and_handles.md R79; 03_rings_and_handles.md R80;
04_contexts_and_translation.md R117; 02_host_ports.md R59; 12_faults.md R386) -/
def Obligations.DoorbellsMoveTheirCounts : Prop :=
  (∀ (m : Master) (pg : DbPage) (v : Word) (s : State), let c := s.pageCtx pg
    s.stopped = false → s.inSetup 2 = false → (s.ctx c).phase = .opened →
    (s.fn (s.ctx c).port (s.ctx c).func).flr = false →
    let u := ((s.rxBytes m.toNat 8).pmcEv 2 1 c 0 1).fillFirst c
    let r := u.ctx c
    let x := v.toNat % 2 ^ 32
    let d := (x + 2 ^ 32 - r.tail) % 2 ^ 32
    (d = 0 → exec (.doorbellTail m pg v) s = .next ((u.setCtx c { r with tail := x, used := u.now }).done s)) ∧
    (0 < d → d ≤ 2 ^ r.drLog2 → exec (.doorbellTail m pg v) s = .next
      ((u.setCtx c { r with tail := x, used := u.now, bells := r.bells ++ [(x, u.fabric)] }).done s)) ∧
    (2 ^ r.drLog2 < d → 2 ^ 31 < d → exec (.doorbellTail m pg v) s = .next ((u.bump CMD_DB_STALE.count 0 0).done s)) ∧
    (2 ^ r.drLog2 < d → d ≤ 2 ^ 31 → exec (.doorbellTail m pg v) s = .next ((u.faultBy 2 0 m.toNat 0).done s)) ∧
    (bitOf v.toNat 0 = true → r.post = r.head → exec (.cqArm m pg v) s = .next ((u.setCtx c { r with armed := true }).done s)) ∧
    (bitOf v.toNat 0 = true → r.post ≠ r.head → exec (.cqArm m pg v) s = .next
      (((u.setCtx c { r with armed := false }).vecEvent r.port r.func r.cqVector).done s)) ∧
    (bitOf v.toNat 0 = false → exec (.cqArm m pg v) s = .next (u.done s))) ∧
  (∀ (m : Master) (pg : DbPage) (v : Word) (d : Option Descriptor) (s : State) (i : Instr) (n : Nat),
    (i, n) ∈ [(Instr.doorbellTail m pg v, 8), (.cqHeadWrite m pg v, 8), (.cqArm m pg v, 8), (.inlineDoorbell m pg d, 64)] →
    let r := s.ctx (s.pageCtx pg)
    let u := s.rxBytes m.toNat n
    (s.stopped = true → exec i s = .next (u.done s)) ∧
    let inReset := (s.fn r.port r.func).flr = true ∧ (r.phase ≠ .closed ∨ s.pageCtx pg ∈ (s.fn r.port r.func).flrCtxs)
    (s.stopped = false → inReset → exec i s = .next ((u.faultBy 1 (8 * r.port + 3) m.toNat r.port).done s)) ∧
    (s.stopped = false → ¬ inReset → s.inSetup 2 = true → exec i s = .next ((u.faultBy 2 3 m.toNat 0).done s)) ∧
    (s.stopped = false → ¬ inReset → s.inSetup 2 = false → r.phase ≠ .opened →
      exec i s = .next ((u.faultBy 2 2 m.toNat 0).done s)))

/-- CQ_HEAD_WRITE takes a head up to post and counts any other as cq-head-range. For a DB_CQ_HEAD write that acts, with e =
(new head − current head) mod 2^32: where e is at most post − head the head becomes the new value, and Reservoir has the
context's record; otherwise the write is ignored and counted in CMD's fault window as source 1. While Reservoir takes no
report the change is held (R399). (03_rings_and_handles.md R78) -/
def Obligations.CqHeadMovesWithinThePostedEntries : Prop :=
  ∀ (m : Master) (pg : DbPage) (v : Word) (s : State), let c := s.pageCtx pg
    s.stopped = false → s.inSetup 2 = false → (s.ctx c).phase = .opened →
    (s.fn (s.ctx c).port (s.ctx c).func).flr = false →
    let u := ((s.rxBytes m.toNat 8).pmcEv 2 1 c 0 1).fillFirst c
    let r := u.ctx c
    let e := (v.toNat % 2 ^ 32 + 2 ^ 32 - r.head) % 2 ^ 32
    (u.rsvHeld = false → e ≤ (r.post + 2 ^ 32 - r.head) % 2 ^ 32 →
      let t := u.setCtx c { r with head := v.toNat % 2 ^ 32, used := u.now }
      exec (.cqHeadWrite m pg v) s = .next ((t.reportLatest (t.ctxRecord c)).done s)) ∧
    (u.rsvHeld = false → (r.post + 2 ^ 32 - r.head) % 2 ^ 32 < e →
      exec (.cqHeadWrite m pg v) s = .next ((u.faultBy 2 1 m.toNat 0).done s)) ∧
    (u.rsvHeld = true → exec (.cqHeadWrite m pg v) s = .next ((u.holdChange (.head m.toNat c (v.toNat % 2 ^ 32))).done s))

/-- INLINE_DOORBELL and CONTEXT_FILL: the fast path, the fallback and the wait for the record. An inline doorbell on a record
that is on chip advances the tail by one and assigns its descriptor at once, where inline use is enabled, fetch equals the
tail and the descriptor can be fetched; in every other case it counts as a fallback and acts as a tail write of tail + 1. A
write of fewer than 64 bytes always does. Where the record is not on chip the descriptor waits for its fill, which
CONTEXT_FILL ends: the waiting descriptors then go the same way in order. An access to the record takes those that wait first.
(03_rings_and_handles.md R82; 03_rings_and_handles.md R84; 04_contexts_and_translation.md R116; 04_contexts_and_translation.md
R117) -/
def Obligations.InlineDoorbellsTakeTheFastPath : Prop :=
  (∀ (m : Master) (pg : DbPage) (d : Descriptor) (s : State), let c := s.pageCtx pg
    s.stopped = false → s.inSetup 2 = false → (s.ctx c).phase = .opened →
    (s.fn (s.ctx c).port (s.ctx c).func).flr = false →
    let p := (s.rxBytes m.toNat 64).pmcEv 2 1 c 0 1
    let u := p.fillFirst c
    let r := u.ctx c
    let x := (r.tail + 1) % 2 ^ 32
    let fast := u.flag CMD_CTL.inline_en 0 0 = true ∧ r.fetch = r.tail ∧ u.cmdRuns = true ∧ u.holdCauseAt c r.tail 0 = 0
    ((s.ctx c).cached = true → fast → exec (.inlineDoorbell m pg (some d)) s = .next ((((u.setCtx c { r with
      tail := x, bells := r.bells ++ [(x, u.fabric)] }).pmcEv 2 3 c 0 1).assign c d none).done s)) ∧
    ((s.ctx c).cached = true → ¬fast → exec (.inlineDoorbell m pg (some d)) s = .next
      (((u.bump CMD_INLINE_FALLBACK.count 0 0).dbTail m.toNat c x).done s)) ∧
    ((s.ctx c).cached = false → exec (.inlineDoorbell m pg (some d)) s = .next
      ((p.setCtx c { s.ctx c with inlineWait := (s.ctx c).inlineWait ++ [d] }).done s)) ∧
    exec (.inlineDoorbell m pg none) s = .next (((u.bump CMD_INLINE_FALLBACK.count 0 0).dbTail m.toNat c x).done s)) ∧
  (∀ (c : Nat) (s : State), (s.ctx c).phase ≠ .closed → (s.ctx c).cached = false →
    exec (.contextFill c) s = .next (((s.cacheIn c).inlineGo c).done s)) ∧
  (∀ (c : Nat) (s : State), ((s.ctx c).inlineWait = [] ∨ (s.ctx c).cached = false → s.inlineGo c = s) ∧
    ((s.ctx c).inlineWait ≠ [] → (s.ctx c).cached = true → s.inlineGo c = (s.ctx c).inlineWait.foldl
      (fun s d => s.inlineTry (mDev 3) c d) (s.setCtx c { s.ctx c with inlineWait := [] })) ∧
    s.fillFirst c = (if (s.ctx c).phase = .closed then s else s.cacheIn c).inlineGo c)

/-- DESCRIPTOR_FETCH reads what may be fetched, DESCRIPTOR_RETURN assigns it in order. CMD reads the next descriptors of an
open context, as many as may be fetched within the batch, the tail and the ring, from their slot, one read at a time. Data
that returns is that of the oldest read outstanding (log entry 126); it is discarded where the context has left the open state
since that read was issued; else each descriptor gets the handle of the next index, in order. A descriptor that fails a check
of R90 completes at once with that status and detail; one that passes stands assigned, fetch one further.
(03_rings_and_handles.md R84; 03_rings_and_handles.md R85; 03_rings_and_handles.md R87; 03_rings_and_handles.md R89;
03_rings_and_handles.md R90; 04_contexts_and_translation.md R116; log entry 126) -/
def Obligations.DescriptorsAreFetchedAndAssigned : Prop :=
  (∀ (c : Nat) (s : State), s.cmdRuns = true → (s.ctx c).fetching = none → (s.ctx c).phase = .opened → s.fetchCount c ≠ 0 →
    let u := s.cacheIn c
    let r := u.ctx c
    let x := u.takeOther r.port r.func (.descriptors c)
    let e := x.2.emit (.memRead r.port r.func x.1 (r.drBase + 64 * (r.fetch % 2 ^ r.drLog2)) (64 * s.fetchCount c))
    exec (.descriptorFetch c) s = .next ((e.setCtx c
      { r with fetching := some (r.fetch, s.fetchCount c, x.1), fetchAt := e.fabric }).done s)) ∧
  (∀ (c i n t : Nat) (ds : List Descriptor) (s : State), (s.ctx c).fetching = some (i, n, t) →
    let r := s.ctx c
    let p := s.pmcEv 1 2 r.port 0 (64 * ds.length)
    let q : State := { p with hif := { p.hif with others := p.hif.others.filter fun e => some e.1 != p.descRead c } }
    let u := q.setCtx c { r with fetching := none }
    (p.descRead c = some t → s.frozen = false → r.phase = .opened → exec (.descriptorReturn c ds) s =
      .next (((ds.take n).foldl (fun s d => s.assign c d (some r.fetchAt)) u).done s)) ∧
    (p.descRead c = some t → s.frozen = true ∨ r.phase ≠ .opened → exec (.descriptorReturn c ds) s = .next (u.done s)) ∧
    (p.descRead c ≠ some t → exec (.descriptorReturn c ds) s = .next (q.done s))) ∧
  (∀ (c : Nat) (d : Descriptor) (a : Option Nat) (s : State), let r := s.ctx c
    let i := r.fetch
    let h := mkHandleRec c i d
    let u := s.setCtx c { r with fetch := (i + 1) % 2 ^ 32, used := s.now, bells := r.bells.filter fun b => b.1 != (i + 1) % 2 ^ 32 }
    let v := (((u.setHandle h).pmcEv 2 2 c 0 1).sampleDesc h (s.bellOf c i) a)
    let w := v.report (.handleAssign c i (dTag d) v.fabric d)
    w.waitingTrig c i = none →
    (descCheck d = none → s.assign c d a = w) ∧
    (∀ st dt, descCheck d = some (st, dt) → s.assign c d a = w.finish h.ref st dt)) ∧
  (∀ d : Descriptor,
    (descCheck d = some (0x15, 1) ↔ 0x0B < dOpcode d) ∧
    (descCheck d = some (0x15, 2) ↔ dOpcode d ≤ 0x0B ∧ dReservedOk d = false) ∧
    (descCheck d = some (0x15, 3) ↔ dOpcode d ≤ 0x0B ∧ dReservedOk d = true ∧ dListedOk d = false) ∧
    (descCheck d = some (0x15, 4) ↔ dOpcode d ≤ 0x0B ∧ dReservedOk d = true ∧ dListedOk d = true ∧ dUrgentOk d = false) ∧
    (descCheck d = some (0x13, 0) ↔ dOpcode d ≤ 0x0B ∧ dReservedOk d = true ∧ dListedOk d = true ∧ dUrgentOk d = true ∧
      dLengthOk d = false))

/-- NOP to TRIGGERED: a dispatched descriptor runs at the block of its opcode, is held in its setup, or is refused. A handle
that is the next of its context to be dispatched goes to its block. NOP completes DONE; a FENCE waits; PUT, GET and ATOMIC,
SEND, RECV_POST, RECV_CANCEL and the collectives start, where their own checks pass (a SEND that finds no peer record is held,
a collective without room waits); COUNTER_ARM sets its counter and waits; TRIGGERED registers with its partner, waits for it,
or completes ABORTED 0x08. A block in its setup state holds the descriptor; a local counter outside the context's gives
RESOURCE_LIMIT 0x01 and any other refusal its status and detail. (01_architecture.md R22; 03_rings_and_handles.md R87;
03_rings_and_handles.md R99; 06_remote_access.md R192; 06_remote_access.md R193; 06_remote_access.md R194; 05_matching.md
R160; 06_remote_access.md R200; 07_cascade.md R232) -/
def Obligations.DescriptorsGoToTheirBlock : Prop :=
  ∀ (s : State) (h : Handle), s.handle? h.ref = some h → s.dispatchable h = true →
    let u := (s.ctxUse h.ctx).stampFirst 1 (handleKey h.ref) 4
    let r := h.ref
    let op := dOpcode h.desc
    let coll (i : Instr) : Prop := (i, dSub h.desc) ∈ [(Instr.collBroadcast r, 1), (.collReduce r, 2), (.collAllreduce r, 3),
      (.collReduceScatter r, 4), (.collAllgather r, 5), (.collBarrier r, 6)]
    let own (i : Instr) : Prop := (i, op) ∈ [(Instr.nop r, 0), (.put r, 1), (.get r, 2), (.atomic r, 3), (.send r, 4), (.recvPost r, 5),
      (.recvCancel r, 6), (.counterArm r, 9), (.triggered r, 10)] ∨ (op = 7 ∧ coll i) ∨
      (op = 8 ∧ (i, dSub h.desc) ∈ [(Instr.fenceContext r, 1), (.fenceTarget r, 2)])
    (∀ i, own i → op ∈ [1, 2, 3, 4, 5, 6, 7, 9, 10] → u.inSetup (blockOf op) = true → exec i s = .next ((u.hold h).done s)) ∧
    (∀ i, own i → op ∈ [0, 8] → u.lcntBad h = true → exec i s = .next ((u.finish r 0x18 1).done s)) ∧
    (op = 0 → u.lcntBad h = false → exec (.nop r) s = .next ((u.finish r 0 0).done s)) ∧
    (∀ i, own i → op = 8 → u.lcntBad h = false → exec i s = .next ((u.setHandle { h with phase := .waiting }).done s)) ∧
    (∀ i, own i → op ∈ [1, 2, 3] → u.inSetup 6 = false →
      (∀ st dt, u.localRefusal h = some (st, dt) → exec i s = .next ((u.finish r st dt).done s)) ∧
      (u.localRefusal h = none → exec i s = .next ((((u.activate h).sampleLocal (handleKey r) (u.localAddr h.ctx h.desc)).sendParts r
        h.unanswered).done s))) ∧
    (op = 4 → u.inSetup 5 = false →
      (∀ st dt, u.sendRefusal h = some (st, dt) → exec (.send r) s = .next ((u.finish r st dt).done s)) ∧
      (u.sendRefusal h = none → let room := (u.peer? h.ctx (dTarget h.desc)).isSome || u.peerRoom h.ctx (dTarget h.desc)
        let p := u.peerOf h.ctx (dTarget h.desc)
        let w := if h.msnOk then u else u.putPeer { p with nextMsn := (p.nextMsn + 1) % 2 ^ 32 }
        let a := w.activate { h with msn := if h.msnOk then h.msn else p.nextMsn, msnOk := true, eager := w.sendEager h.desc }
        (room = false → exec (.send r) s = .next ((u.hold h).done s)) ∧
        (room = true → exec (.send r) s =
          .next (((a.sampleLocal (handleKey r) (a.localAddr h.ctx h.desc)).sendAll r).done s)))) ∧
    (op = 5 → u.inSetup 5 = false →
      (∀ st dt, u.recvRefusal h = some (st, dt) → exec (.recvPost r) s = .next ((u.finish r st dt).done s)) ∧
      (u.recvRefusal h = none →
        exec (.recvPost r) s = .next (((u.activate h).matEvent (.post r)).done s))) ∧
    (op = 6 → u.inSetup 5 = false →
      (u.lcntBad h = true → exec (.recvCancel r) s = .next ((u.finish r 0x18 1).done s)) ∧
      (u.lcntBad h = false → exec (.recvCancel r) s = .next (((u.activate h).matEvent (.cancel r)).done s))) ∧
    (∀ i, coll i → op = 7 → u.inSetup 7 = false →
      (∀ st dt, u.collRefusal h = some (st, dt) → exec i s = .next ((u.finish r st dt).done s)) ∧
      (u.collRefusal h = none → u.csc.wait = [] → u.collRoom (u.newInst h) = true → exec i s = .next ((u.startInst h).done s)) ∧
      (u.collRefusal h = none → u.csc.wait ≠ [] ∨ u.collRoom (u.newInst h) = false → u.csc.wait.contains r = false →
        let v := u.hold h
        exec i s = .next (({ v with csc := { v.csc with wait := v.csc.wait ++ [r] } } : State).done s))) ∧
    (op = 9 → u.inSetup 6 = false → u.ctrOk (dCounter h.desc) h.ctx = true → u.lcntBad h = false → dSub h.desc % 2 = 1 →
      h.armedSet = false → exec (.counterArm r) s = .next ((((u.setCtr (dCounter h.desc) { u.ctr (dCounter h.desc) with
        value := BitVec.ofNat 64 (dget h.desc 16 63 0) }).ctrChanged (dCounter h.desc)).setHandle
          { h with phase := .waiting, armedSet := true }).done s)) ∧
    (op = 9 → u.inSetup 6 = false → u.ctrOk (dCounter h.desc) h.ctx = false ∨ u.lcntBad h = true →
      exec (.counterArm r) s = .next ((u.finish r 0x18 1).done s)) ∧
    (op = 9 → u.inSetup 6 = false → u.ctrOk (dCounter h.desc) h.ctx = true → u.lcntBad h = false →
      (dSub h.desc % 2 = 0 ∨ h.armedSet = true) → exec (.counterArm r) s = .next ((u.setHandle { h with phase := .waiting, armedSet := true }).done s)) ∧
    (op = 10 → u.inSetup 6 = false → let i := (h.index + 1) % 2 ^ 32
      (∀ p, u.handle? ⟨h.ctx, i⟩ = some p → dGateable p.desc = true →
        exec (.triggered r) s = .next ((u.registerTrig h p).done s)) ∧
      (∀ p, u.handle? ⟨h.ctx, i⟩ = some p → dGateable p.desc = false →
        exec (.triggered r) s = .next ((u.finish r 0x15 8).done s)) ∧
      (u.handle? ⟨h.ctx, i⟩ = none → (u.ctx h.ctx).fetch = i →
        exec (.triggered r) s = .next ((u.setHandle { h with phase := .waiting }).done s)))

/-- CONTEXT_CLOSED, PENDING_COMMIT_APPLY, PIN_LIMIT_EXPIRE, LOADER_ENTRY and SYNC_DONE. While Reservoir takes reports, a
draining context with no handle outstanding and nothing pinned becomes closed, off chip, and what MAT and RMA kept of it goes.
A pending commit whose inactive image has no pin is applied. An operation whose last packet is older than the pin limit is
abandoned and counted. An entry that returns to the running loader is written at its place, and the loader reads the next one
or ends; a failed read ends it as failed. A sync ends once none of its reads is outstanding. (04_contexts_and_translation.md
R112; 04_contexts_and_translation.md R120; 04_contexts_and_translation.md R122; 04_contexts_and_translation.md R127;
04_contexts_and_translation.md R128; 05_matching.md R138) -/
def Obligations.ContextAndWindowEventsEndWhatWaits : Prop :=
  (∀ (c : Nat) (s : State), s.rsvHeld = false → (s.ctx c).phase = .draining → s.outstanding c = 0 →
    s.anyPinned c = false → let u := s.movePhase (mDev 3) c .closed
    let v := (u.setCtx c { u.ctx c with cached := false, byReset := false, step4 := false, armed := false }).matClosed c
    exec (.contextClosed c) s = .next (({ v with rma := { v.rma with ops := v.rma.ops.filter fun x => x.ctx != c } }).done s)) ∧
  (∀ (e : Nat) (img : WinImage) (s : State), (s.win e).queued = some img → (s.win e).pins (!(s.win e).active) = 0 → s.rsvHeld = false →
    exec (.pendingCommitApply e) s = .next ((s.applyCommit (mDev 4) e img).done s)) ∧
  (∀ (r : OpRef) (v : OpRec) (s : State), s.frozen = false → s.op? r.ctx r.remote r.osn = some v → v.pinned = true →
    exec (.pinLimitExpire r) s =
      .next ((((s.advance (v.lastTime + s.pinLimit + 1)).abandonOp v).fault 4 2 0).done s)) ∧
  (∀ (s : State), s.frozen = false → s.xlt.loader.running = true → s.logFull = false → s.rsvHeld = false →
    let u := s.dropOther .loader
    let n := s.fld XLT_LOAD_STATUS.loaded 0 0
    exec (.loaderEntry none) s = .next ((u.loaderEnd 3).done s) ∧
    (∀ w, let v := (u.writeXlt s.loaderMaster (s.xlt.loader.first + n) w).setFld XLT_LOAD_STATUS.loaded 0 0 (n + 1)
      (n + 1 = s.xlt.loader.count → exec (.loaderEntry (some w)) s = .next ((v.loaderEnd 2).done s)) ∧
      (n + 1 ≠ s.xlt.loader.count → exec (.loaderEntry (some w)) s = .next (v.loaderRead.done s)))) ∧
  (∀ s : State, (∀ e ∈ s.hif.reads, e.2.sync = false) →
    exec .syncDone s = .next (({ s with xlt := { s.xlt with syncBusy := false } } : State).done s))

/-- FMEM_HOST_ACCESS stores exactly its bytes and reads them back; beyond the end it counts. A write of the aperture of fabric
memory at a port in endpoint mode stores its bytes at their addresses and changes no other byte of any memory; a read answers
the bytes there, or poison where a word is uncorrectable. An access past the end of fabric memory counts as fmem-beyond, and
in a device stop a write is ignored and a read gives zeros. (04_contexts_and_translation.md R131;
04_contexts_and_translation.md R132; 12_faults.md R385; 12_faults.md R386; log entry 4) -/
def Obligations.FabricMemoryIsReadAndWrittenThroughItsAperture : Prop :=
  (∀ (p : HPort) (a : Nat) (bs : List Byte) (s : State), s.Ok → s.endpoint p.val = true → s.stopped = false →
    a + bs.length ≤ s.fmemSize →
    ∃ t : State, exec (.fmemHostAccess p a (.write bs)) s = .next (t.done s) ∧
      (∀ x, t.fmem.byte x = if h : a ≤ x ∧ x - a < bs.length then bs[x - a]'h.2 else s.fmem.byte x) ∧
      t.hmem = s.hmem ∧ t.spdMem = s.spdMem ∧ t.flash = s.flash ∧
      (∀ w, w ∈ t.pwr.hbmBad ↔ w ∈ s.pwr.hbmBad ∧ ¬(s.hbmAddr a ≤ 8 * w ∧ 8 * w + 8 ≤ s.hbmAddr a + bs.length))) ∧
  (∀ (p : HPort) (a n : Nat) (s : State), s.endpoint p.val = true → s.stopped = false → a + n ≤ s.fmemSize →
    let u := s.pmcEv 19 1 (hbmChannel (s.hbmAddr a)) 0 n
    (s.hbmBad (s.hbmAddr a) n = false → exec (.fmemHostAccess p a (.read n)) s =
      .next ((u.emit (.memDone p.val (s.fmem.read a n) false)).done s)) ∧
    (s.hbmBad (s.hbmAddr a) n = true → exec (.fmemHostAccess p a (.read n)) s =
      .next ((u.emit (.memDone p.val (List.replicate n 0xFF) true)).done s))) ∧
  (∀ (p : HPort) (a n : Nat) (bs : List Byte) (s : State), s.endpoint p.val = true →
    let u := s.rxBytes (mHost p.val 0) bs.length
    (s.stopped = false → s.fmemSize < a + n → exec (.fmemHostAccess p a (.read n)) s =
      .next (((s.faultBy 4 5 (mHost p.val 0) p.val).emit (.memDone p.val (List.replicate n 0) false)).done s)) ∧
    (s.stopped = false → s.fmemSize < a + bs.length → exec (.fmemHostAccess p a (.write bs)) s =
      .next ((u.faultBy 4 5 (mHost p.val 0) p.val).done s)) ∧
    (s.stopped = true → exec (.fmemHostAccess p a (.read n)) s =
        .next ((s.emit (.memDone p.val (List.replicate n 0) false)).done s) ∧
      exec (.fmemHostAccess p a (.write bs)) s = .next (u.done s)))

/-- A message binds the matching receive posted first; a receive takes the matching message presented first. A presented
message binds the receive that leads the list of one of the classes it probes and has the lowest posting stamp among those
leaders; it binds none exactly when none of them holds a receive. A posted receive takes the first message of its context's
chain that it matches, and none exactly when it matches none. Two key blocks of one class 0 to 3 are equal only for one
context, communicator, and, where the class compares them, one rank and one tag. (05_matching.md R134; 05_matching.md R143;
05_matching.md R145; 05_matching.md R146) -/
def Obligations.MatchingTakesTheOldestThatMatches : Prop :=
  (∀ (s : State) (m : MatEntry), let head (k : Nat) := s.matHead (matKey k m.ctx m.comm m.rank m.tag 0 0)
    (∀ i r, s.bestReceive m = some (i, r) → r.kind = 0 ∧ (∃ k ∈ s.probeClasses m.ctx, head k = some (i, r)) ∧
      ∀ k ∈ s.probeClasses m.ctx, ∀ j q, head k = some (j, q) → q.kind = 0 → r.stamp ≤ q.stamp) ∧
    (s.bestReceive m = none ↔ ∀ k ∈ s.probeClasses m.ctx, ∀ j q, head k = some (j, q) → q.kind ≠ 0)) ∧
  (∀ (s : State) (r : MatEntry),
    (∀ i m, s.firstMessage r = some (i, m) → matches? m r = true ∧ (i, m) ∈ s.uxChain r.ctx) ∧
    (s.firstMessage r = none ↔ ∀ e ∈ s.uxChain r.ctx, matches? e.2 r = false)) ∧
  (∀ cls c c' m m' r r' t t', cls < 4 → c < 2 ^ 24 → c' < 2 ^ 24 → m < 2 ^ 16 → m' < 2 ^ 16 → r < 2 ^ 24 → r' < 2 ^ 24 →
    t < 2 ^ 32 → t' < 2 ^ 32 → matKey cls c m r t 0 0 = matKey cls c' m' r' t' 0 0 →
    c = c' ∧ m = m' ∧ (cls = 0 ∨ cls = 2 → r = r') ∧ (cls = 0 ∨ cls = 1 → t = t'))

/-- SEND_PACKET_ARRIVAL and WITHDRAWAL_ARRIVAL: admitted, refused, or refused busy; and the events the firmware returns. A
SEND packet or withdrawal for another node changes nothing; one that finds the data path stopped is discarded, and one whose
answer finds no room is discarded and counted. In quarantine it is dropped; in MAT's or RMA's setup, while Reservoir takes no
report or while the context awaits resumption it is refused busy; else the peer's record classes it: refused with status and
detail, refused busy, passed over as retired, or admitted, when a withdrawal and a packet less than 65,536 ahead is a match
event and any other continues its message. An event waits in order behind one that waits for the firmware, and where it probes
a flagged bin; else it runs. The firmware's return runs the first waiting event of its context and those behind it.
(05_matching.md R140; 05_matching.md R155; 05_matching.md R157; 05_matching.md R160; 06_remote_access.md R176;
06_remote_access.md R200; 08_routing.md R243; 13_reservoir.md R399; 13_reservoir.md R404; 12_faults.md R386; log entry 25) -/
def Obligations.MessagePacketsAreAdmittedAndMatched : Prop :=
  (∀ (p : Packet) (s : State) (i : Instr), (i = .sendPacketArrival p ∧ isMat p [0] = true) ∨
      (i = .withdrawalArrival p ∧ isMat p [1] = true) →
    let u := s.takeDelivered p
    let c := u.ctxUse (pDstCtx p)
    let ended (t : State) := t.endDelivered p (t.rte.nextId != u.rte.nextId || t.delivered.length != u.delivered.length)
    let shut := c.inSetup 5 || c.inSetup 6 || c.rsvHeld || (c.ctx (pDstCtx p)).awaiting
    (pDstNode p ≠ s.node → exec i s = .next (s.done s)) ∧
    (pDstNode p = s.node → u.frozen = true → exec i s = .next (u.done s)) ∧
    (pDstNode p = s.node → u.frozen = false → ∀ b, u.answerFull p = some b →
      exec i s = .next (((u.fault b 3 0).endDelivered p false).done s)) ∧
    (pDstNode p = s.node → u.frozen = false → u.answerFull p = none →
      (c.rsv.quarantineEnd.isSome = true → exec i s = .next ((ended c.dropQuarantined).done s)) ∧
      (c.rsv.quarantineEnd = none → shut = true → exec i s = .next ((ended (c.matBusy p)).done s)) ∧
      (c.rsv.quarantineEnd = none → shut = false →
        (∀ st dt v, c.classify p = (.refuse st dt, v) → exec i s = .next ((ended (v.matRefuse p st dt false)).done s)) ∧
        (∀ v, c.classify p = (.busy, v) → exec i s = .next ((ended (v.matBusy p)).done s)) ∧
        (∀ v, c.classify p = (.retired, v) → exec i s = .next ((ended v).done s)) ∧
        (∀ v, c.classify p = (.pass, v) → pMop p = 1 ∨ v.msnDist p < 65536 →
          exec i s = .next ((ended (v.matEvent (.packet p))).done s)) ∧
        (∀ v, c.classify p = (.pass, v) → pMop p ≠ 1 → 65536 ≤ v.msnDist p →
          exec i s = .next ((ended (v.matPacket p)).done s))))) ∧
  (∀ (s : State) (e : MatEvent),
    ((∀ x ∈ s.mat.events, x.1 ≠ e.ctx) → s.needsFirmware e = false → s.matEvent e = s.matRun e) ∧
    ((∃ x ∈ s.mat.events, x.1 = e.ctx) →
      s.matEvent e = { s with mat := { s.mat with events := s.mat.events ++ [(e.ctx, e)] } }) ∧
    ((∀ x ∈ s.mat.events, x.1 ≠ e.ctx) → s.needsFirmware e = true → let u := s.pmcEv 5 3 0 0 1
      s.matEvent e = { u with mat := { u.mat with events := u.mat.events ++ [(e.ctx, e)] } })) ∧
  (∀ (s : State) (c : Nat) (e : MatEvent), s.frozen = false → s.fld SEC_UPDATE_STATUS.state 0 0 ≠ 3 →
    s.mat.events.find? (fun x => x.1 == c) = some (c, e) →
    exec (.firmwareProbeResult c) s = .next
      (((({ s with mat := { s.mat with events := s.mat.events.erase (c, e) } } : State).matRun e).runEvents c
        (s.mat.events.erase (c, e)).length).done s))

/-- PLACEMENT_REPORT, FINISH_NOTICE, WITHDRAWAL_ANSWER and MAT_REFUSAL: how a SEND ends at its source. For an answer to this
node whose handle names an open SEND of its context, while the data path runs: a placement report adds its offset, and the
SEND ends DONE with its length when an eager message has every report; a finish notice ends it DONE with the bytes placed, or
BOUNDS after a pull it refused; a withdrawal answer ends it TIMEOUT, or, bound, lets it run on and makes its end TIMEOUT; a
refusal ends it with its status and detail, and a busy one sets the retry. An answer that names none is late, and a withdrawal
of a completed handle is then sent no more unless the refusal was busy. wd_pending follows the withdrawals that are
unanswered. (05_matching.md R138; 05_matching.md R152; 05_matching.md R153; 05_matching.md R154; 05_matching.md R159;
06_remote_access.md R183) -/
def Obligations.SendsEndByTheAnswersOfTheirPeer : Prop :=
  ∀ (p : Packet) (s : State), let u := s.takeDelivered p
    let c := pDstCtx p
    let ended (t : State) := t.endDelivered p (t.rte.nextId != u.rte.nextId || t.delivered.length != u.delivered.length)
    let late := u.lateAnswer c (pOsn p)
    let lateLast := (u.dropLost c (pOsn p)).lateAnswer c (pOsn p)
    pDstNode p = s.node → u.frozen = false →
    (isMat p [2] = true →
      (u.sendOf p = none → exec (.placementReportArrival p) s = .next ((ended late).done s)) ∧
      (∀ h, u.sendOf p = some h → let h' : Handle := { h with got := h.got ++ [pAux p] }
        let v := (u.stampAnswer h).setHandle h'
        (pAux p ∈ h.got → exec (.placementReportArrival p) s = .next ((ended (u.stampAnswer h)).done s)) ∧
        (pAux p ∉ h.got → h.eager = true → v.sendOffsets h' = [] →
          exec (.placementReportArrival p) s = .next ((ended (v.sendEnd h' 0 0 (dLength h.desc))).done s)) ∧
        (pAux p ∉ h.got → ¬(h.eager = true ∧ v.sendOffsets h' = []) →
          exec (.placementReportArrival p) s = .next ((ended v).done s)))) ∧
    (isMat p [6] = true →
      (u.sendOf p = none → exec (.finishNoticeArrival p) s = .next ((ended late).done s)) ∧
      (∀ h, u.sendOf p = some h →
        (∀ dt n, h.fin = some (0x13, dt, n) →
          exec (.finishNoticeArrival p) s = .next ((ended ((u.stampAnswer h).sendEnd h 0x13 dt (pAux p))).done s)) ∧
        ((∀ dt n, h.fin ≠ some (0x13, dt, n)) →
          exec (.finishNoticeArrival p) s = .next ((ended ((u.stampAnswer h).sendEnd h 0 0 (pAux p))).done s)))) ∧
    (isMat p [3] = true →
      (u.sendOf p = none → exec (.withdrawalAnswerArrival p) s = .next ((ended (lateLast.refreshWd c (pSrcEp p))).done s)) ∧
      (∀ h, u.sendOf p = some h → h.wd ≠ .sent →
        exec (.withdrawalAnswerArrival p) s = .next ((ended ((u.stampAnswer h).refreshWd c (pSrcEp p))).done s)) ∧
      (∀ h, u.sendOf p = some h → h.wd = .sent → let v := (u.stampAnswer h).setHandle { h with wd := .bound }
        (pAux p % 2 = 0 → exec (.withdrawalAnswerArrival p) s =
          .next ((ended ((v.complete h.ref 0x10 0 0 0).refreshWd c (pSrcEp p))).done s)) ∧
        (∀ d n, pAux p % 2 = 1 → h.fin = some (0x10, d, n) → exec (.withdrawalAnswerArrival p) s =
          .next ((ended ((v.complete h.ref 0x10 0 n 0).refreshWd c (pSrcEp p))).done s)) ∧
        (pAux p % 2 = 1 → (∀ d n, h.fin ≠ some (0x10, d, n)) → exec (.withdrawalAnswerArrival p) s =
          .next ((ended (v.refreshWd c (pSrcEp p))).done s)))) ∧
    (isMat p [7] = true → u.pullOf p = none →
      (u.sendOf p = none → exec (.matRefusalArrival p) s =
        .next ((ended ((if bitOf (pAux p) 16 then late else lateLast).refreshWd c (pSrcEp p))).done s)) ∧
      (∀ h, u.sendOf p = some h → let v := u.stampAnswer h
        (bitOf (pAux p) 16 = true → exec (.matRefusalArrival p) s = .next ((ended (v.scheduleMat h.ref)).done s)) ∧
        (bitOf (pAux p) 16 = false → exec (.matRefusalArrival p) s = .next ((ended (((v.setHandle { h with wd := .none }).finish
          h.ref (bitsOf (pAux p) 7 0) (bitsOf (pAux p) 15 8)).refreshWd h.ctx (dTarget h.desc))).done s)))) ∧
    (∀ h st dt n,
      (h.wd = .none → s.sendEnd h st dt n = s.complete h.ref st dt n 0) ∧
      (h.wd = .bound → s.sendEnd h st dt n = s.complete h.ref 0x10 0 n 0) ∧
      (h.wd = .sent → s.sendEnd h st dt n = s.setHandle { h with fin := some (0x10, 0, n) }))

/-- PULL_REQUEST, PULL_RESPONSE, a refused pull and PULL_ROUTE_TIMEOUT. A pull request for an open SEND whose range still
translates and can be read starts to gather its bytes, or for an inline SEND is answered from the descriptor; for one that
translates no more it is refused BOUNDS and counted, for a page in a retired bank or an uncorrectable word refused 0x13 with
detail 7 or 8, for a busy bank and in RMA's setup refused busy, and for a handle that is no open SEND refused 0x12 detail
0x07. A pull response with an offset still wanted places its bytes in the bound receive, which ends when all are placed, once;
a refused pull ends the receive PEER_LOST, with a finish notice unless the handle was gone; and so does a source without a
route for timeout_us. (05_matching.md R151; 05_matching.md R153; 06_remote_access.md R200; 12_faults.md R380; 12_faults.md
R384; log entry 20) -/
def Obligations.PullsMoveTheBytesOfALongMessage : Prop :=
  (∀ (p : Packet) (s : State), let u := s.takeDelivered p
    let ended (t : State) := t.endDelivered p (t.rte.nextId != u.rte.nextId || t.delivered.length != u.delivered.length)
    let refuse (v : State) (aux : Nat) := v.matAnswer (pDstCtx p) (pSrcEp p) (pClass p) (pOsn p) 0 7 (pHandle p) aux []
    pDstNode p = s.node → u.frozen = false → u.answerFull p = none →
    (isMat p [4] = true → u.rsv.quarantineEnd.isSome = true →
      exec (.pullRequestArrival p) s = .next ((ended u.dropQuarantined).done s)) ∧
    (isMat p [4] = true → u.rsv.quarantineEnd = none → u.inSetup 6 = true →
      exec (.pullRequestArrival p) s = .next ((ended (refuse u (2 ^ 16))).done s)) ∧
    (isMat p [4] = true → u.rsv.quarantineEnd = none → u.inSetup 6 = false →
      (u.sendOf p = none → exec (.pullRequestArrival p) s = .next ((ended (refuse u 0x0712)).done s)) ∧
      (∀ h, u.sendOf p = some h → let v := u.ctxUse h.ctx
        let places := v.places h.ctx (dKind h.desc) (dAddr h.desc + pAux p) (pFdelta p + 1) false
        (dKind h.desc = 3 → exec (.pullRequestArrival p) s =
          .next ((ended (v.pullServed p (((dInline h.desc).drop (pAux p)).take (pFdelta p + 1)))).done s)) ∧
        (∀ d, dKind h.desc ≠ 3 → places = .error d → exec (.pullRequestArrival p) s = .next
          ((ended (refuse ((v.setHandle { h with fin := some (0x13, d, 0) }).fault 4 6 0) (0x13 + d * 2 ^ 8))).done s)) ∧
        (∀ ps, dKind h.desc ≠ 3 → places = .ok ps →
          (v.placesCheck ps false = some .busy →
            exec (.pullRequestArrival p) s = .next ((ended (refuse v (2 ^ 16))).done s)) ∧
          (v.placesCheck ps false = some .retired → exec (.pullRequestArrival p) s =
            .next ((ended (refuse (v.setHandle { h with fin := some (0x13, 7, 0) }) 0x0713)).done s)) ∧
          (v.placesCheck ps false = some .uncorrectable → exec (.pullRequestArrival p) s =
            .next ((ended (refuse (v.setHandle { h with fin := some (0x13, 8, 0) }) 0x0813)).done s)) ∧
          (v.placesCheck ps false = none → exec (.pullRequestArrival p) s = .next ((ended ((v.xltUse h.ctx (dKind h.desc)
            (dAddr h.desc + pAux p) (pFdelta p + 1)).gather ps (.pullServe p)).2).done s))))) ∧
    (isMat p [5] = true →
      (u.pullOf p = none → exec (.pullResponseArrival p) s = .next ((ended (u.lateAnswer (pDstCtx p) (pOsn p))).done s)) ∧
      (∀ b, u.pullOf p = some b →
        (pAux p ∈ b.unpulled → u.pagesBusy (u.boundPages b (pAux p) p.bytes) = false → exec (.pullResponseArrival p) s =
          .next ((ended ((u.placeAt { b with pulled := b.pulled ++ [pAux p] } (pAux p) p.bytes).boundEnd b.ctx b.src b.msn)).done
            s)) ∧
        (pAux p ∉ b.unpulled ∨ u.pagesBusy (u.boundPages b (pAux p) p.bytes) = true →
          exec (.pullResponseArrival p) s = .next ((ended u).done s)))) ∧
    (isMat p [7] = true → ∀ b, u.pullOf p = some b →
      (bitOf (pAux p) 16 = true → exec (.matRefusalArrival p) s = .next ((ended u).done s)) ∧
      (bitOf (pAux p) 16 = false → bitsOf (pAux p) 7 0 = 0x12 →
        exec (.matRefusalArrival p) s = .next ((ended (u.boundDone b 0x11 0 b.placed)).done s)) ∧
      (bitOf (pAux p) 16 = false → bitsOf (pAux p) 7 0 ≠ 0x12 →
        exec (.matRefusalArrival p) s = .next ((ended ((u.finishNotice b).boundDone b 0x11 0 b.placed)).done s)))) ∧
  (∀ (r : HandleRef) (b : Bound) (t : Nat) (s : State), s.frozen = false → s.boundFor r = some b → b.pull = true →
    b.lostAt = some t → s.hasRoute (epNode b.src) = false → exec (.pullRouteTimeout r) s =
      .next (((s.advance (t + us (s.ctx b.ctx).timeoutUs)).boundDone b 0x11 0 b.placed).done s)) ∧
  (∀ (s : State) (c src msn : Nat) (b : Bound), s.boundOf c src msn = some b → let t := if b.pull then s.finishNotice b else s
    (b.finished = true ∨ b.placed < b.want → s.boundEnd c src msn = s) ∧
    (b.finished = false → b.want ≤ b.placed → b.retired = true → s.boundEnd c src msn = t.boundDone b 0x18 7 0) ∧
    (b.finished = false → b.want ≤ b.placed → b.retired = false →
      s.boundEnd c src msn = t.boundDone b (if b.capacity < b.length then 0x14 else 0) 0 b.want))

/-- SEND_HOLD_RELEASE, RECV_HOLD_RELEASE and BUSY_RETRY_EXPIRE. A SEND held for a peer record is dispatched when nothing older
of MAT is held and MAT is out of setup: with a record it takes its msn and its packets are sent; without one it stays held; a
refusal of its checks completes it. The receives and cancels that wait for an entry go on from the front of their context's
stream: a receive binds the first message that it matches, or is stored, or waits where the store has no room; a cancel acts.
A busy retry sends again, at the time of the first, the unanswered packets of its operation whose time has come. While the
data path is stopped none of these happens. (05_matching.md R137; 05_matching.md R146; 05_matching.md R159; 05_matching.md
R161; 06_remote_access.md R177; 06_remote_access.md R181; 12_faults.md R386) -/
def Obligations.WhatMatHoldsGoesOn : Prop :=
  (∀ (r : HandleRef) (h : Handle) (s : State), s.handle? r = some h → dOpcode h.desc = 4 → h.phase = .held →
    s.heldBehind h = false → s.inSetup 5 = false →
    let u := (s.ctxUse h.ctx).stampFirst 1 (handleKey h.ref) 4
    let room := (u.peer? h.ctx (dTarget h.desc)).isSome || u.peerRoom h.ctx (dTarget h.desc)
    let p := u.peerOf h.ctx (dTarget h.desc)
    let w := if h.msnOk then u else u.putPeer { p with nextMsn := (p.nextMsn + 1) % 2 ^ 32 }
    let a := w.activate { h with msn := if h.msnOk then h.msn else p.nextMsn, msnOk := true, eager := w.sendEager h.desc }
    (s.frozen = true → exec (.sendHoldRelease r) s = .next (s.done s)) ∧
    (s.frozen = false → u.inSetup 5 = false →
      (∀ st dt, u.sendRefusal h = some (st, dt) → exec (.sendHoldRelease r) s = .next ((u.finish h.ref st dt).done s)) ∧
      (u.sendRefusal h = none → room = false → exec (.sendHoldRelease r) s = .next ((u.hold h).done s)) ∧
      (u.sendRefusal h = none → room = true → exec (.sendHoldRelease r) s =
        .next (((a.sampleLocal (handleKey h.ref) (a.localAddr h.ctx h.desc)).sendAll h.ref).done s)))) ∧
  (∀ (c i : Nat) (h : Handle) (s : State), s.frozen = false → s.mat.held.find? (fun e => e.1 == c) = some (c, i) →
    s.handle? ⟨c, i⟩ = some h →
    (dOpcode h.desc ≠ 6 → s.postRecv h = none → exec (.recvHoldRelease c) s = .next (s.done s)) ∧
    (∀ t, dOpcode h.desc ≠ 6 → s.postRecv h = some t → exec (.recvHoldRelease c) s = .next
      (((t.recvUnwait ⟨c, i⟩).recvRelease c (s.mat.held.length - 1)).done s)) ∧
    (dOpcode h.desc = 6 → exec (.recvHoldRelease c) s = .next
      ((((s.recvUnwait ⟨c, i⟩).cancelNow ⟨c, i⟩).recvRelease c (s.mat.held.length - 1)).done s))) ∧
  (∀ (h : Handle) (s : State), let r := recvEntry h
    let u := if r.cls = 0 then s.matProbes h.ctx [r.key] else s
    let stamp := (u.ctx h.ctx).postStamp
    (∀ i m, u.firstMessage r = some (i, m) → s.postRecv h = some ((u.matRemove i m).bindMsg m r)) ∧
    (u.firstMessage r = none → u.matInsert { r with stamp := stamp } = none → s.postRecv h = none) ∧
    (∀ v, u.firstMessage r = none → u.matInsert { r with stamp := stamp } = some v → s.postRecv h = some
      (((v.setCtx h.ctx { v.ctx h.ctx with postStamp := stamp + 1 }).wcAdd h.ctx r.cls true).reportCtx h.ctx))) ∧
  (∀ (r : HandleRef) (h : Handle) (t : Nat) (s : State), s.frozen = false → s.handle? r = some h →
    h.busyRetryAt (s.openParts h) = some t → let u := s.advance t
    let ks := h.dueParts u.now u.retryPs (u.sendUnanswered h)
    let due := h.dueParts u.now u.retryPs h.unanswered
    let timer := due.any fun k => (h.txOf k).any fun t => t.time + u.retryPs ≤ u.now
    let all := if dOpcode h.desc = 1 ∧ timer then h.unanswered else due
    (dOpcode h.desc = 4 → exec (.busyRetryExpire r) s = .next (((u.setHandle (h.restart u.now ks)).sendThese h.ref ks).done s)) ∧
    (dOpcode h.desc ≠ 4 → exec (.busyRetryExpire r) s = .next (((u.setHandle (h.restart u.now all)).sendParts h.ref all).done s)))

/-- The parts of an operation cover it once each. An operation of length l has at least one part and as many as l has pages of
4,096 bytes begun; every part but the last carries 4,096 bytes, no part more, and the lengths of the parts before part k add
to 4,096 × k; all of them add to l. (06_remote_access.md R170; 06_remote_access.md R172) -/
def Obligations.PartsCoverAnOperation : Prop :=
  ∀ l : Nat, 1 ≤ partsOf l ∧ (∀ k, k + 1 < partsOf l → partLen l k = 4096) ∧ (∀ k, partLen l k ≤ 4096) ∧
    (∀ k, k < partsOf l → ((List.range k).map (partLen l)).sum = 4096 * k) ∧
    ((List.range (partsOf l)).map (partLen l)).sum = l ∧ (0 < l → ∀ k, k < partsOf l → 0 < partLen l k)

/-- PUT_DATA_ARRIVAL, GET_REQUEST_ARRIVAL and the twelve atomics: classified, then admitted, applied or answered. A request
for another node changes nothing; one that finds the data path stopped is discarded, and one whose answer finds no room is
discarded and counted. In quarantine it is dropped; in RMA's setup, while Reservoir takes no report or while the context
awaits resumption it is refused busy; a continuing packet to a window that a reset closed counts as closed-continue; else it
is refused or discarded as its class says, admitted as a new operation, or goes on with its operation. Admission without room
for a record is refused busy; it refuses with the first check that fails, recorded, or pins the image and applies the part,
and for the register window makes the access of the peer. A part of an abandoned operation counts as retired, of a refused one
gets its refusal, of an active one is applied once and counts as duplicate after that, of an ended one is answered again.
(06_remote_access.md R168; 06_remote_access.md R176; 06_remote_access.md R177; 06_remote_access.md R185; 06_remote_access.md
R200; 04_contexts_and_translation.md R114; 04_contexts_and_translation.md R119; 13_reservoir.md R399; 13_reservoir.md R404;
12_faults.md R386; 08_routing.md R243) -/
def Obligations.RequestsAreClassifiedAndAdmitted : Prop :=
  (∀ (p : Packet) (s : State) (i : Instr),
    (i = .putDataArrival p ∧ pType p = 0) ∨ (i = .getRequestArrival p ∧ pType p = 1) ∨
    (pType p = 3 ∧ (i, pAtomOp p) ∈ [(Instr.fetchAdd p, 1), (.fetchAnd p, 2), (.fetchOr p, 3), (.fetchXor p, 4), (.swap p, 5), (.cswap p, 6),
      (.fetchMinS p, 7), (.fetchMaxS p, 8), (.fetchMinU p, 9), (.fetchMaxU p, 10), (.fetchAddF64 p, 11), (.cswap128 p, 12)]) →
    let u := s.takeDelivered p
    let ended (t : State) := t.endDelivered p (t.rte.nextId != u.rte.nextId || t.delivered.length != u.delivered.length)
    let c := u.ctxUse (pDstCtx p)
    (pDstNode p ≠ s.node → exec i s = .next (s.done s)) ∧
    (pDstNode p = s.node → u.frozen = true → exec i s = .next (u.done s)) ∧
    (pDstNode p = s.node → u.frozen = false → ∀ b, u.answerFull p = some b →
      exec i s = .next (((u.fault b 3 0).endDelivered p false).done s)) ∧
    (pDstNode p = s.node → u.frozen = false → u.answerFull p = none →
      (c.rsv.quarantineEnd.isSome = true → exec i s = .next ((ended c.dropQuarantined).done s)) ∧
      (c.rsv.quarantineEnd = none → c.rmaBusy p = true → exec i s = .next ((ended (c.tgtBusy p)).done s)) ∧
      (c.rsv.quarantineEnd = none → c.rmaBusy p = false → c.closedContinue p = true →
        exec i s = .next ((ended (c.fault 4 1 0)).done s)) ∧
      (c.rsv.quarantineEnd = none → c.rmaBusy p = false → c.closedContinue p = false →
        (∀ st dt v, c.classify p = (.refuse st dt, v) → exec i s = .next ((ended (v.tgtRefuse p st dt false)).done s)) ∧
        (∀ v, c.classify p = (.busy, v) → exec i s = .next ((ended (v.tgtBusy p)).done s)) ∧
        (∀ v, c.classify p = (.retired, v) → exec i s = .next ((ended v).done s)) ∧
        (∀ v, c.classify p = (.pass, v) →
          (v.opOf p = none → pWindow p = 0xFFFF → exec i s = .next ((ended (v.regWinAdmit p)).done s)) ∧
          (v.opOf p = none → pWindow p ≠ 0xFFFF → exec i s = .next ((ended (v.admitOp p)).done s)) ∧
          (∀ o, v.opOf p = some o → exec i s = .next ((ended (v.continueOp p o)).done s)))))) ∧
  (∀ (p : Packet) (s : State), s.opRoom p = false → s.admitOp p = s.tgtBusy p ∧ s.regWinAdmit p = s.tgtBusy p) ∧
  (∀ (p : Packet) (s : State), s.opRoom p = true →
    (∀ st dt, s.regWinRefusal p = some (st, dt) →
      s.regWinAdmit p = (s.pmcEv 4 3 0 0 (if st ≠ 0x12 ∨ dt ≠ 9 then 1 else 0)).recordRefusal p st dt) ∧
    (s.regWinRefusal p = none → let o : OpRec := { s.newOp p .active 0 0 0 false with present := [0] }
      let u := (s.putOp o).pmcEv 6 1 0 0 1
      s.regWinAdmit p = u.regAccess ⟨mPeer (pSrcNode p), reqOff p, .w64,
        if pType p = 0 then some (BitVec.ofNat 64 (ofLE (pData p))) else none,
        some (⟨o.ctx, o.remote, o.osn⟩, reqCounter p), u.now⟩)) ∧
  (∀ (p : Packet) (s : State), s.opRoom p = true →
    (∀ st dt, s.admitRefusal p = some (st, dt) →
      s.admitOp p = (s.pmcEv 4 3 0 0 (if st ≠ 0x12 ∨ dt ≠ 9 then 1 else 0)).recordRefusal p st dt) ∧
    (s.admitRefusal p = none → let e := (s.ctx (pDstCtx p)).winBase + pWindow p
      let o := s.newOp p .active 0 0 (s.win e).gen (s.win e).active
      s.admitOp p = ((((s.pinImage e (s.win e).active).putOp o).pmcEv 6 1 0 0 1).applyPart p o))) ∧
  (∀ (p : Packet) (s : State) (o : OpRec),
    (o.phase = .abandoned → s.continueOp p o = s.countDup 0) ∧
    (o.phase = .refused → s.continueOp p o = s.tgtRefuse p o.status o.detail false) ∧
    (o.phase = .ended → s.continueOp p o = s.answerAgain p o) ∧
    (o.phase = .active → let o' : OpRec := { o with lastTime := s.now }
      s.continueOp p o = if reqPart p ∈ o.present then (s.setOp o').countDup 1 else (s.setOp o').applyPart p o'))

/-- An atomic on fabric memory stores the new value of its operation and fetches the old. Applied to a range of fabric memory
that can be read, an atomic stores the value R185 gives for the old value and the operands at exactly its 8 or 16 bytes and
changes no other byte of fabric memory. The new values are those of the table, minimum and maximum being one of the two and
bounding both; an addition of binary64 keeps a NaN as its quiet form, gives the one NaN for opposite infinities, and +0 for
zeros of opposite sign. (06_remote_access.md R185; 06_remote_access.md R186; 06_remote_access.md R187; 06_remote_access.md
R188) -/
def Obligations.AtomicsFetchAndStoreOnce : Prop :=
  (∀ (s : State) (p : Packet) (v : OpRec) (o : Nat), s.Ok → let n := atomSize (pAtomOp p)
    s.partPlaces v (reqOff p) n true = .ok [(.fmem o, n)] → s.placesCheck [(.fmem o, n)] false = none →
    let old := BitVec.ofNat 128 (ofLE (s.fmem.read o n))
    let new := atomNew (pAtomOp p) old (atomOperand p 0) (atomOperand p 1)
    ∀ x, (s.applyAtomic p v).fmem.byte x = if o ≤ x ∧ x < o + n then BitVec.ofNat 8 (new.toNat / 256 ^ (x - o)) else s.fmem.byte x) ∧
  (∀ old a b : BitVec 128, let x := old.setWidth 64
    let y := a.setWidth 64
    let new (op : Nat) : BitVec 64 := (atomNew op old a b).setWidth 64
    new 1 = x + y ∧ new 2 = x &&& y ∧ new 3 = x ||| y ∧ new 4 = x ^^^ y ∧ new 5 = y ∧
    new 6 = (if x = y then b.setWidth 64 else x) ∧
    (new 7 = x ∨ new 7 = y) ∧ (new 7).toInt ≤ x.toInt ∧ (new 7).toInt ≤ y.toInt ∧
    (new 8 = x ∨ new 8 = y) ∧ x.toInt ≤ (new 8).toInt ∧ y.toInt ≤ (new 8).toInt ∧
    (new 9 = x ∨ new 9 = y) ∧ (new 9).toNat ≤ x.toNat ∧ (new 9).toNat ≤ y.toNat ∧
    (new 10 = x ∨ new 10 = y) ∧ x.toNat ≤ (new 10).toNat ∧ y.toNat ≤ (new 10).toNat ∧
    new 11 = BitVec.ofNat 64 (fetchAddF64 x.toNat y.toNat) ∧ atomNew 12 old a b = if old = a then b else old) ∧
  (∀ x y, fmt64.isNan x = true → fetchAddF64 x y = x ||| 2 ^ 51) ∧
  (∀ x y, fmt64.isNan x = false → fmt64.isNan y = true → fetchAddF64 x y = y ||| 2 ^ 51) ∧
  fetchAddF64 0x7FF0000000000000 0xFFF0000000000000 = 0x7FF8000000000000 ∧ fetchAddF64 0 0x8000000000000000 = 0 ∧
  (∀ x y, x < 2 ^ 64 → y < 2 ^ 64 → fmt64.isNan x = false → fmt64.isNan y = false → fetchAddF64 x y = fetchAddF64 y x)

/-- GET, PUT and ATOMIC responses, REFUSAL_ARRIVAL and ATOMICOP_COMPLETION end their operation once. A response to this node
and an open handle of its opcode, while the data path runs: a PUT response completes it DONE with its length; a GET response
writes its part, and the last distinct part completes it; an ATOMIC response writes the fetched value at the result address,
where there is one, and completes it with the value; a bank that is busy takes neither yet, and a retired one ends the
operation 0x18 detail 7 (the model's choice, log entry 20); a refusal completes it with status and detail, and a busy one sets
the retry. An answer to no open handle is late: it counts in RMA_LATE_COUNT, shows in RMA_LATE_LAST and changes nothing else.
The host's completion of an AtomicOp ends the operation with the old value, or refuses it NO_WINDOW 0x0B. (06_remote_access.md
R172; 06_remote_access.md R177; 06_remote_access.md R183; 06_remote_access.md R187; 06_remote_access.md R196;
03_rings_and_handles.md R101; log entry 20) -/
def Obligations.AnswersEndTheirOperation : Prop :=
  (∀ (p : Packet) (s : State), let u := s.takeDelivered p
    let ended (t : State) := t.endDelivered p (t.rte.nextId != u.rte.nextId || t.delivered.length != u.delivered.length)
    let late := (((u.bump RMA_LATE_COUNT.count 0 0).setFld RMA_LATE_LAST.context 0 0 (pDstCtx p)).setFld RMA_LATE_LAST.osn 0 0 (pOsn p))
    pDstNode p = s.node → u.frozen = false →
    (pType p = 5 → (u.answered p [1] = none → exec (.putResponseArrival p) s = .next ((ended late).done s)) ∧
      (∀ h, u.answered p [1] = some h →
        exec (.putResponseArrival p) s = .next ((ended ((u.stampAnswer h).complete h.ref 0 0 (dLength h.desc) 0)).done s))) ∧
    (pType p = 4 → (u.answered p [3] = none → exec (.atomicResponseArrival p) s = .next ((ended late).done s)) ∧
      (∀ h, u.answered p [3] = some h → let n := dLength h.desc
        let v := u.stampAnswer h
        let x := v.xltUse h.ctx 0 (dAddr h.desc) n
        let ps := x.pages h.ctx 0 (dAddr h.desc) n true
        let fetched := BitVec.ofNat 64 (ofLE ((p.bytes.take n).take 8))
        (dAddr h.desc = 0 → exec (.atomicResponseArrival p) s = .next ((ended (v.complete h.ref 0 0 n fetched)).done s)) ∧
        (dAddr h.desc ≠ 0 → x.pagesBusy ps = true → exec (.atomicResponseArrival p) s = .next ((ended x).done s)) ∧
        (dAddr h.desc ≠ 0 → x.pagesBusy ps = false → x.pagesRetired ps = true →
          exec (.atomicResponseArrival p) s = .next ((ended (x.finish h.ref 0x18 7)).done s)) ∧
        (dAddr h.desc ≠ 0 → x.pagesBusy ps = false → x.pagesRetired ps = false → exec (.atomicResponseArrival p) s = .next
          ((ended ((x.writeEach (some 4) h.mute ps (p.bytes.take n)).complete h.ref 0 0 n fetched)).done s)))) ∧
    (pType p = 2 → (u.answered p [2] = none → exec (.getResponseArrival p) s = .next ((ended late).done s)) ∧
      (∀ h, u.answered p [2] = some h → let v := u.stampAnswer h
        let k := kget p 51 32
        let n := partsOf (dLength h.desc)
        let len := partLen (dLength h.desc) k
        let x := v.xltUse h.ctx (dKind h.desc) (dAddr h.desc + 4096 * k) len
        let ps := x.pages h.ctx (dKind h.desc) (dAddr h.desc + 4096 * k) len true
        let w := x.writeEach (some 4) h.mute ps p.bytes
        (n ≤ k ∨ k ∈ h.got → exec (.getResponseArrival p) s = .next ((ended v).done s)) ∧
        (k < n → k ∉ h.got → x.pagesBusy ps = true → exec (.getResponseArrival p) s = .next ((ended x).done s)) ∧
        (k < n → k ∉ h.got → x.pagesBusy ps = false → x.pagesRetired ps = true →
          exec (.getResponseArrival p) s = .next ((ended (x.finish h.ref 0x18 7)).done s)) ∧
        (k < n → k ∉ h.got → x.pagesBusy ps = false → x.pagesRetired ps = false →
          exec (.getResponseArrival p) s = .next ((ended (if h.got.length + 1 < n then
            w.setHandle { h with got := h.got ++ [k], gotBytes := h.gotBytes + len }
            else w.complete h.ref 0 0 (dLength h.desc) 0)).done s)))) ∧
    (pType p = 6 → (u.answered p [1, 2, 3] = none → exec (.refusalArrival p) s = .next ((ended late).done s)) ∧
      (∀ h, u.answered p [1, 2, 3] = some h → let v := u.stampAnswer h
        (kget p 48 48 = 1 → exec (.refusalArrival p) s = .next ((ended (v.scheduleBusy h.ref (kget p 71 52))).done s)) ∧
        (kget p 48 48 ≠ 1 →
          exec (.refusalArrival p) s = .next ((ended (v.finish h.ref (kget p 39 32) (kget p 47 40))).done s))))) ∧
  (∀ (r : OpRef) (v : OpRec) (s : State), s.frozen = false → s.op? r.ctx r.remote r.osn = some v → v.phase = .active → v.pkind = 3 →
    s.awaits (.atomic r) = true → let u := s.dropOther (.atomic r)
    (∀ bs, let v' : OpRec := { v with served := [0], applied := true, result := BitVec.ofNat 128 (ofLE bs) }
      exec (.atomicopCompletion r (.ok bs)) s = .next ((u.endOp v' none (u.atomicAnswer v')).done s)) ∧
    (let w := (u.unpinOp v).putOp { v with phase := .refused, status := 0x12, detail := 0x0B }
     exec (.atomicopCompletion r .error) s = .next ((w.present (w.tgtAnswer v.ctx v.remote v.vclass 6
      (kindRefusal v.osn 0x12 0x0B false 3 0) [])).done s)))

/-- RESEND_TIMER_EXPIRE and OPERATION_TIMEOUT. The re-send timer of an active PUT, GET, ATOMIC or SEND runs out the retry
interval after the oldest of its unanswered packets was last presented (or at its busy retry, where that is sooner); it sends
again every unanswered packet whose time has come by then, a PUT all its parts. That of a pull sends its unanswered requests,
and that of a withdrawal whose handle has completed the withdrawal. A packet that RTE takes a second time counts as re-sent,
one that finds no route is held and its time starts anew. When timeout_us has passed since its dispatch, a PUT, GET or ATOMIC
completes PEER_LOST or TIMEOUT with the bytes a GET received, a SEND with its withdrawal unsent starts one or ends; one whose
withdrawal has found no route for timeout_us ends PEER_LOST and its withdrawal is still sent; a collective is abandoned with
0x11. (06_remote_access.md R181; 06_remote_access.md R182; 05_matching.md R153; 05_matching.md R154; 03_rings_and_handles.md
R103; 07_cascade.md R226) -/
def Obligations.TimersResendAndEndOperations : Prop :=
  (∀ (r : HandleRef) (h : Handle) (s : State), s.frozen = false → s.handle? r = some h → h.phase = .active →
    let e := s.advance (h.dispAt + us (s.ctx h.ctx).timeoutUs)
    (h.resendAt s.retryPs (s.openParts h) = none → exec (.resendTimerExpire (.handle r)) s = .next (s.done s)) ∧
    (∀ t, h.resendAt s.retryPs (s.openParts h) = some t → let u := s.advance t
      let due := h.dueParts u.now u.retryPs h.unanswered
      let ks := h.dueParts u.now u.retryPs (u.sendUnanswered h)
      (dOpcode h.desc ∈ [2, 3] ∨ dOpcode h.desc = 1 ∧ (∀ k, k ∈ due → ∀ x, h.txOf k = some x → u.now < x.time + u.retryPs) →
        exec (.resendTimerExpire (.handle r)) s = .next (((u.setHandle (h.restart u.now due)).sendParts h.ref due).done s)) ∧
      (dOpcode h.desc = 1 → (∃ k x, k ∈ due ∧ h.txOf k = some x ∧ x.time + u.retryPs ≤ u.now) →
        exec (.resendTimerExpire (.handle r)) s =
          .next (((u.setHandle (h.restart u.now h.unanswered)).sendParts h.ref h.unanswered).done s)) ∧
      (dOpcode h.desc = 4 →
        exec (.resendTimerExpire (.handle r)) s = .next (((u.setHandle (h.restart u.now ks)).sendThese h.ref ks).done s))) ∧
    (dOpcode h.desc ∈ [1, 2, 3] →
      exec (.operationTimeout r) s = .next (((e.pmcEv 6 4 0 0 1).complete h.ref ((e.pmcEv 6 4 0 0 1).timeoutStatus h) 0
        (if dOpcode h.desc = 2 then h.gotBytes else 0) 0).done s)) ∧
    (dOpcode h.desc = 4 → h.wd = .none → exec (.operationTimeout r) s = .next ((e.timeoutSend h).done s)) ∧
    (dOpcode h.desc = 4 → h.wd = .sent → (∀ u, h.lostAt = some u → s.hasRoute (epNode (dTarget h.desc)) = false →
        let a := s.advance (u + us (s.ctx h.ctx).timeoutUs)
        let v := (a.pmcEv 6 4 0 0 1).complete h.ref 0x11 0 0 0
        exec (.operationTimeout r) s = .next (({ v with mat := { v.mat with
          lost := v.mat.lost ++ [⟨h.ctx, h.index, h.desc, h.msn, a.handleWord h, v.now⟩] } } : State).done s)) ∧
      (h.lostAt = none ∨ s.hasRoute (epNode (dTarget h.desc)) = true → exec (.operationTimeout r) s = .next (s.done s))) ∧
    (dOpcode h.desc = 7 → exec (.operationTimeout r) s = .next ((e.timeoutColl h).done s))) ∧
  (∀ (r : HandleRef) (l : LostWd) (s : State), s.frozen = false → s.handle? r = none →
    s.mat.lost.find? (fun l => l.ctx == r.ctx && l.index == r.index) = some l →
    exec (.resendTimerExpire (.handle r)) s = .next (((s.advance (l.lastTx + s.retryPs)).resendLost l).done s)) ∧
  (∀ (r : HandleRef) (b : Bound) (s : State), s.frozen = false → s.boundFor r = some b → b.pull = true → b.unpulled ≠ [] →
    exec (.resendTimerExpire (.pull r)) s = .next
      (((s.advance (b.lastTx + s.retryPs)).resendPull b).done s)) ∧
  (∀ (r : HandleRef) (k : Nat) (p : Packet) (h : Handle) (s : State), s.handle? r = some h →
    (s.injectable p = .noRoute → s.presentFor r k p =
      (s.setHandle ({ h with lostAt := some (h.lostAt.getD s.now) }.putTx ⟨k, s.now, h.taken k, none⟩)).setFlag RTE_STATUS.no_route 0 0 true) ∧
    (s.injectable p = .ok → let u := s.setHandle ({ h with sent := true, routed := true, lostAt := none }.putTx ⟨k, s.now, true, none⟩)
      let v := if h.taken k = true then (u.countResends 1).stampFirst 1 (handleKey r) 13 else u
      s.presentFor r k p = ((v.inject p).stampFirst 1 (handleKey r) 6).stampLast 1 (handleKey r) 7)) ∧
  (∀ (h : Handle) (s : State), s.timeoutStatus h = if h.routed = false ∧ s.hasRoute (epNode (dTarget h.desc)) = false then 0x11 else 0x10)

/-- An exact sum is the same in every order, and one value leaves as itself. Accumulators combine associatively and
commutatively, so contributions in any order give one accumulator. The accumulator of one value that is no NaN leaves as that
value, in each of the four formats, and that of a NaN as the canonical NaN. A magnitude that does not overflow leaves as the
value nearest to it: off by at most half of the last place kept. The worked example of R217 gives 1.0. (07_cascade.md R214;
07_cascade.md R215; 07_cascade.md R216; 07_cascade.md R217) -/
def Obligations.ExactSumsDependOnTheirTermsAlone : Prop :=
  (∀ a b c : Acc, a.add b = b.add a ∧ (a.add b).add c = a.add (b.add c)) ∧
  (∀ (l l' : List Acc) (a : Acc), l.Perm l' → l.foldl Acc.add a = l'.foldl Acc.add a) ∧
  (∀ f ∈ [fmt64, fmt32, fmt16, fmtB16], ∀ x, x < 2 ^ (f.mag + 1) →
    f.round 0 (f.toAcc x) = if f.isNan x then f.canon else x) ∧
  (∀ f ∈ [fmt64, fmt32, fmt16, fmtB16], ∀ m, 0 < m → let b := f.roundMag 0 m
    let e := b / 2 ^ (f.p - 1)
    let v := if e = 0 then b % 2 ^ (f.p - 1) else (2 ^ (f.p - 1) + b % 2 ^ (f.p - 1)) * 2 ^ (e - 1)
    e < f.emax → 2 * (m - v) ≤ 2 ^ (Nat.log2 m + 1 - f.p) ∧ 2 * (v - m) ≤ 2 ^ (Nat.log2 m + 1 - f.p)) ∧
  (let t (x : Nat) := fmt64.toAcc x
   fmt64.round 0 (((t 0x4340000000000000).add (t 0x3FF0000000000000)).add (t 0xC340000000000000)) = 0x3FF0000000000000)

/-- The partial record of every accumulator within its field reads back as that accumulator. For a format of 1 to 34 limbs and
every accumulator whose sum lies in its two's-complement field, the shortest record R218 allows, followed by any bytes, reads
back as the accumulator and those bytes; the record has 8 bytes and 8 for each limb sent. (07_cascade.md R214; 07_cascade.md
R218) -/
def Obligations.PartialRecordsReadBack : Prop :=
  ∀ (n : Nat) (a : Acc) (rest : List Byte), 1 ≤ n → n ≤ 34 → -(2 ^ (64 * n - 1) : Int) ≤ a.sum → a.sum < (2 ^ (64 * n - 1) : Int) →
    readRecord n (a.record n ++ rest) = some (a, rest) ∧ (a.record n).length = 8 + 8 * bitsOf (ofLE ((a.record n).take 8)) 57 52

/-- CSC_DATA_ARRIVAL, STEP_END_ARRIVAL, REREQUEST_ARRIVAL and ABORT_ARRIVAL. A Cascade packet for another node changes
nothing. In CSC's setup it is dropped early and counted; with the data path stopped it is discarded; a re-request whose answer
finds no room is discarded and counted; a packet of a reserved type breaks the format. A packet of an active instance acts on
it: an abort ends it with the carried status and detail, another signature ends it 0x18 detail 6, data enters its segment-step
once per member and place, a step-end confirms what was sent, a re-request sends it again. Without an instance, data and
aborts up to 15 ahead are kept while there is room and else dropped; data of an instance that completed is answered with its
step-end. (07_cascade.md R220; 07_cascade.md R221; 07_cascade.md R223; 07_cascade.md R224; 07_cascade.md R225; 07_cascade.md
R226; 07_cascade.md R232; log entry 48) -/
def Obligations.CascadePacketsFindTheirInstance : Prop :=
  (∀ (p : Packet) (s : State) (i : Instr),
    (i, xCtype p) ∈ [(Instr.cscDataArrival p, 0), (.rerequestArrival p, 1), (.stepEndArrival p, 2), (.abortArrival p, 3)] → pType p = 8 →
    let u := s.takeDelivered p
    let ended (t : State) := t.endDelivered p (t.rte.nextId != u.rte.nextId || t.delivered.length != u.delivered.length)
    (pDstNode p ≠ s.node → exec i s = .next (s.done s)) ∧
    (pDstNode p = s.node → u.frozen = true → exec i s = .next (u.done s)) ∧
    (pDstNode p = s.node → u.frozen = false → ∀ b, u.answerFull p = some b →
      exec i s = .next (((u.fault b 3 0).endDelivered p false).done s)) ∧
    (pDstNode p = s.node → u.frozen = false → u.answerFull p = none → u.inSetup 7 = true →
      exec i s = .next ((ended u.dropEarly).done s)) ∧
    (pDstNode p = s.node → u.frozen = false → u.answerFull p = none → u.inSetup 7 = false →
      (∀ x, u.instOf p = some x → exec i s = .next ((ended (u.cscAct x p)).done s)) ∧
      (u.instOf p = none → exec i s = .next ((ended (u.cscEarly p)).done s)))) ∧
  (∀ (p : Packet) (s : State), pType p = 8 → xCtype p ≠ 1 → s.answerFull p = none) ∧
  (∀ (p : Packet) (s : State), pType p = 8 → 4 ≤ xCtype p → pDstNode p = s.node → let u := s.takeDelivered p
    u.frozen = false → let t := if u.inSetup 7 then u.dropEarly else u.badFormat
    exec (.cscDataArrival p) s =
      .next ((t.endDelivered p (t.rte.nextId != u.rte.nextId || t.delivered.length != u.delivered.length)).done s)) ∧
  (∀ (s : State) (x : CscInst) (p : Packet),
    (xCtype p = 3 → s.cscAct x p = s.abortInst x (bitsOf (xFirst p) 7 0) (bitsOf (xFirst p) 15 8) (some (xCdim p))) ∧
    (xCtype p ≠ 3 → xSig p ≠ x.signature → s.cscAct x p = s.abortInst x 0x18 6 none) ∧
    (xSig p = x.signature → xCtype p = 1 → s.cscAct x p = s.againFor x p) ∧
    (xSig p = x.signature → xCtype p = 2 → s.cscAct x p = (s.setInst { x with sent := x.sent.filter fun y =>
      !(y.step == xStep p && y.seg == xSeg p && y.member == xMember p) }).cscGo x.ref) ∧
    (xSig p = x.signature → xCtype p = 0 → ∀ st, x.steps[xStep p]? = some st → st.2 = xCdim p → s.takesPart x st = true →
      xMember p ∈ s.recvFrom x st → let g := x.segAt (xStep p) (xSeg p)
      (g.done = true → s.cscAct x p = s.stepEnd x (xStep p) (xSeg p) st [xMember p]) ∧
      (g.done = false → g.attempt % 256 ≤ xAttempt p → ∀ es, readElems x.desc (x.partial? (xStep p)) (xNelem p) p.bytes = some es →
        ((∃ q ∈ g.got, q.member = xMember p ∧ q.first = xFirst p) → s.cscAct x p = s) ∧
        ((∀ q ∈ g.got, ¬(q.member = xMember p ∧ q.first = xFirst p)) → s.cscAct x p =
          (s.setInst (x.setSeg { g with got := g.got ++ [⟨xMember p, xFirst p, es⟩] })).cscGo x.ref)))) ∧
  (∀ (s : State) (p : Packet), xCdim p < 3 → let a := s.seqAhead p
    (2 ^ 31 ≤ a → xCtype p = 0 → s.cscEarly p = s.answerEnd p) ∧ (2 ^ 31 ≤ a → xCtype p ≠ 0 → s.cscEarly p = s) ∧
    (a < 2 ^ 31 → xCtype p = 1 ∨ xCtype p = 2 → s.cscEarly p = s) ∧
    (a < 16 → xCtype p = 0 ∨ xCtype p = 3 → s.earlyRoom p = true →
      s.cscEarly p = { s with csc := { s.csc with early := s.csc.early ++ [p] } }) ∧
    (a < 2 ^ 31 → xCtype p = 0 ∨ xCtype p = 3 → 16 ≤ a ∨ s.earlyRoom p = false → s.cscEarly p = s.bump CSC_EARLY_DROP_COUNT.count 0 0))

/-- REREQUEST_TIMER_EXPIRE and STAGING_AVAILABLE. A segment-step that was begun, is not ended and lacks contributions asks
each member that owes one again, at the interval's end at the earliest, and counts the re-request. When staging frees, the
collective that waits longest starts while there is room, then the next. (07_cascade.md R223; 07_cascade.md R225) -/
def Obligations.CollectivesAskAgainAndStartInOrder : Prop :=
  (∀ (h : HandleRef) (i : CscInst) (st : CscKind × Nat) (t g : Nat) (s : State), s.frozen = false → s.inst? h = some i →
    i.steps[t]? = some st → (i.segAt t g).started = true → (i.segAt t g).done = false →
    let u := s.advance ((i.segAt t g).startAt + s.rereqPs)
    let ms := u.missing i t g st
    (ms = [] → exec (.rerequestTimerExpire h t g) s = .next (u.done s)) ∧
    (ms ≠ [] → let v := ((u.setInst (i.setSeg { i.segAt t g with startAt := u.now })).bump CSC_RESTART_COUNT.count 0 0).pmcEv 7 2 0 0 1
      exec (.rerequestTimerExpire h t g) s = .next ((v.cscOut st.2 (i.coords st.2 ms)
        (v.instPkt i st.2 t 1 ((i.segAt t g).attempt % 256) g 0 0 [])).done s))) ∧
  (∀ (r : HandleRef) (rest : List HandleRef) (h : Handle) (s : State), s.frozen = false → s.csc.wait = r :: rest → s.handle? r = some h →
    (s.collRoom (s.newInst h) = false → exec .stagingAvailable s = .next (s.done s)) ∧
    (s.collRoom (s.newInst h) = true → exec .stagingAvailable s = .next
      (((({ s with csc := { s.csc with wait := rest } } : State).dispatchColl h true).stagingFreed rest.length).done s)))

/-- The choice of a hop is of the lowest cost, and packets that wait, are held, retained or short of tokens go on at their
times. Among candidates the hop chosen is one of them, its cost is the least, and among equal costs it comes first from the
rotor. A packet on VC1 to VC6 that has waited escape_wait cycles, and still finds no candidate with credit, takes the route of
VC7 when that has credit, and is counted; without credit it waits on. A held packet is discarded and counted hold_us after it
was held, or is routed again. The packets a port retained go back to routing once it has been down for hold_us. The first
urgent packet without tokens enters when the bucket holds its flits. With the data path stopped none of this happens.
(08_routing.md R242; 08_routing.md R250; 08_routing.md R251; 08_routing.md R255; 08_routing.md R256; 08_routing.md R259;
08_routing.md R261) -/
def Obligations.PacketsLeaveBestHopFirstOrWaitOut : Prop :=
  (∀ (s : State) (t : Nat) (hs : List Hop), (s.bestHop t hs = none ↔ hs = []) ∧ ∀ h, s.bestHop t hs = some h → h ∈ hs ∧
    ∀ g ∈ hs, s.hopCost t h < s.hopCost t g ∨ s.hopCost t h = s.hopCost t g ∧
      (h.port + 144 - s.rte.rotor % 144) % 144 ≤ (g.port + 144 - s.rte.rotor % 144) % 144) ∧
  (∀ (id t : Nat) (x : RtePkt) (s : State), s.frozen = false → s.rtePkt id = some x → x.place = .waiting t → x.mcast = none →
    1 ≤ pVc x.pkt → pVc x.pkt ≤ 6 → let u := s.advance (t + 500 * s.fld RTE_CTL.escape_wait 0 0)
    let e := u.escape7 x.pkt (u.routeNode (pEpoch x.pkt) (pDstNode x.pkt)).1
    (∀ h, u.decideHop x.pkt = .wait → e = some h → (u.lport h.port).hasCredit h.pool = true →
      exec (.escapeWaitExpire id) s = .next ((u.takeHop x h).done s)) ∧
    (∀ h, u.decideHop x.pkt = .wait → e = some h → (u.lport h.port).hasCredit h.pool = false →
      exec (.escapeWaitExpire id) s = .next (u.done s)) ∧
    (u.decideHop x.pkt ≠ .wait ∨ e = none → exec (.escapeWaitExpire id) s = .next ((u.routePkt x).done s))) ∧
  (∀ (s : State) (x : RtePkt) (h : Hop), 1 ≤ pVc x.pkt → pVc x.pkt ≤ 6 → h.vc = 7 → x.src = none → h.detour = none →
    s.takeHop x h = (let u := (s.bump RTE_ESCAPE_COUNT.count 0 0).pmcEv 8 4 0 0 1
      let v := u.setRtePkt { x with pkt := setHop x.pkt 7 none, place := .queued h.port h.pool }
      { v with rte := { v.rte with rotor := (v.rte.rotor + 1) % 144 } })) ∧
  (∀ (id t : Nat) (x : RtePkt) (s : State), s.frozen = false → s.rtePkt id = some x → x.place = .held t →
    exec (.holdExpire id) s = .next ((((s.advance (t + s.holdPs)).discardPkt id).fault 8 6 0).done s) ∧
    exec (.heldPacketRoute id) s = .next ((s.routePkt x).done s)) ∧
  (∀ (p : FPort) (s : State), s.frozen = false → s.portSt p.val ≠ psLive → (∃ x ∈ s.rte.pkts, ∃ k, x.place = .retained p.val k) →
    exec (.retentionExpire p) s = .next (((s.advance ((s.lport p.val).downAt + s.holdPs)).releaseRetained p.val).done s)) ∧
  (∀ (x : RtePkt) (s : State), s.frozen = false → s.rte.pkts.find? (fun x => x.place == .tokens) = some x →
    let u := s.advance (s.tokensAt x.total)
    let v : State := { u with rte := { u.rte with debt := u.debtNow + x.total * 1000000, debtAt := u.now } }
    exec .urgentTokenGrant s = .next ((v.routePkt { x with pkt := u.stampEpoch x.pkt, place := .waiting u.now }).done s)) ∧
  (∀ (id : Nat) (p : FPort) (s : State), s.frozen = true →
    exec (.escapeWaitExpire id) s = .next (s.done s) ∧ exec (.holdExpire id) s = .next (s.done s) ∧
    exec (.heldPacketRoute id) s = .next (s.done s) ∧ exec (.retentionExpire p) s = .next (s.done s) ∧
    exec .urgentTokenGrant s = .next (s.done s))

/-- Line-state notices, the 1 ms sending of rows, and the hints. A notice for another node changes nothing. A notice of a line
member replaces the stored row at the sender's coordinate; one that names no dimension, or the node's own coordinate, changes
nothing. Each 1 ms the node sends its three rows, each to the live members of its line. Each 64 ns each dimension's hint
becomes the mean queue of its usable ports in units of 16 flits, at most 15, zero without a usable port. (08_routing.md R250;
08_routing.md R253; 08_routing.md R265) -/
def Obligations.LinesShareTheirStateAndHints : Prop :=
  (∀ (p : Packet) (s : State), pType p = 9 → let u := s.takeDelivered p
    let ended (t : State) := t.endDelivered p (t.rte.nextId != u.rte.nextId || t.delivered.length != u.delivered.length)
    let d := kget p 1 0
    let e := nodeCoord (pSrcNode p) d
    (pDstNode p ≠ s.node → exec (.lineStateNotice p) s = .next (s.done s)) ∧
    (pDstNode p = s.node → u.frozen = true → exec (.lineStateNotice p) s = .next (u.done s)) ∧
    (pDstNode p = s.node → u.frozen = false → d < 3 → e ≠ u.coord d →
      exec (.lineStateNotice p) s = .next ((ended (u.setFld RTE_LINE_STATE.row 0 (48 * d + e) (kget p 49 2))).done s)) ∧
    (pDstNode p = s.node → u.frozen = false → d = 3 ∨ e = u.coord d → exec (.lineStateNotice p) s = .next ((ended u).done s))) ∧
  (∀ s : State, s.frozen = false → let u := s.advance ((s.now / ms 1 + 1) * ms 1)
    exec .lineStateTimer s = .next ((((u.sendRow 0).sendRow 1).sendRow 2).done s)) ∧
  (∀ (s : State) (d : Nat), s.sendRow d = (List.range 47).foldl (fun (t : State) j => t.sendNotice (47 * d + j)) s) ∧
  (∀ (s : State) (p : Nat), p < 141 → s.fld RTE_PORT_MAP.state 0 p = 1 → s.inSetup 8 = false → s.frozen = false →
    s.sendNotice p = s.inject (s.notice (portDim p) (s.memberNode (portDim p) (s.fld RTE_PORT_MAP.peer 0 p)))) ∧
  (∀ s : State, s.frozen = false → let u := s.advance ((s.now / 64000 + 1) * 64000)
    exec .hintRefresh s =
      .next (({ u with rte := { u.rte with hints := [u.ownHint 0, u.ownHint 1, u.ownHint 2] } } : State).done s)) ∧
  (∀ (s : State) (d : Nat), d < 3 → let ps := ((List.range 47).map fun j => 47 * d + j).filter s.portUsable
    (ps = [] → s.ownHint d = 0) ∧
    (ps ≠ [] → s.ownHint d =
      min 15 ((ps.map fun p => ((List.range 8).map fun k => s.poolQueue p (k + 1)).sum).sum / (16 * ps.length))))

/-- Training frames, signal detect, the bounds of train and align, markers and eye windows. Taps that keep R269's limits keep
them at every request; one at the limit changes nothing, and one taken moves its tap alone by one. A frame on a ready lane is
a link reset of the peer's; on a lane in train it is answered. Signal lost in ready takes the link down with cause 5, in align
or test it counts. A lane with signal that is still in train after 20 ms counts align-loss and trains from the preset. The
fourth missing marker of a locked lane takes a ready link down with cause 5; the third marker in a row, on both lanes or the
sole lane, ends align, which 100 µs bound. The figure of an eye is 200·log10 of the ratio to the nearest integer; a window
stores it, keeps the minimum, and sets eye_warn or counts eye-low by the thresholds; then the receiver adapts, but not while
frozen and not in test. (09_lanes.md R269; 09_lanes.md R271; 09_lanes.md R272; 09_lanes.md R273; 09_lanes.md R274; 09_lanes.md
R279; 09_lanes.md R280; 09_lanes.md R287; 09_lanes.md R289) -/
def Obligations.LanesTrainAlignAndWatchTheirEye : Prop :=
  (∀ taps t r, taps < 2 ^ 48 → t < 6 → r = 1 ∨ r = 2 ∨ r = 3 → tapsOk taps = true → let x := tapRequest taps t r
    tapsOk x.1 = true ∧ (x.2 = 2 → x.1 = taps) ∧ (r = 3 → x = (0x0000F834FC00, 1)) ∧
    (x.2 = 1 → r ≠ 3 → tapOf x.1 t = tapOf taps t + (if r = 1 then 1 else -1) ∧ ∀ k, k < 6 → k ≠ t → tapOf x.1 k = tapOf taps k)) ∧
  (∀ (l : Lane) (f : TrainFrame) (s : State), s.frozen = false → s.malsol (l.val / 2) = false → let p := l.val / 2
    let u := if s.laneSt l.val = lsReady then s.linkReset p 0x0C (if f.width1 then some (f.survivor % 2) else s.lastLane p) else s
    (u.laneSt l.val ≠ lsTrain → exec (.trainingFrame l f) s = .next (u.done s)) ∧
    (u.laneSt l.val = lsTrain → f.width1 = false → exec (.trainingFrame l f) s = .next ((u.frameIn l.val f).done s)) ∧
    (u.laneSt l.val = lsTrain → f.width1 = true → let k := f.survivor % 2
      ((u.lane l.val).width1 = true → (u.lport p).survivor.getD k ≠ k →
        exec (.trainingFrame l f) s = .next ((u.portRetire p).done s)) ∧
      ((u.lane l.val).width1 = false ∨ (u.lport p).survivor.getD k = k → let x := u.peerX1 l.val k
        exec (.trainingFrame l f) s = .next ((if l.val % 2 = k then x.2.frameIn l.val f else x.2).done s)))) ∧
  (∀ (l : Lane) (s : State),
    (s.flag LAN_STATUS.signal l.val 0 = true → exec (.signalDetect l) s = .next (s.done s)) ∧
    (s.flag LAN_STATUS.signal l.val 0 = false → exec (.signalDetect l) s =
      .next (((s.setFlag LAN_STATUS.signal l.val 0 true).setLane l.val { s.lane l.val with since := s.now }).done s) ∧
      exec (.signalLoss l) s = .next (s.done s)) ∧
    (s.flag LAN_STATUS.signal l.val 0 = true → let u := s.setFlag LAN_STATUS.signal l.val 0 false
      let v := u.fault 10 (4 * l.val + 3) l.val
      (u.frozen = false → u.laneSt l.val = lsReady → exec (.signalLoss l) s =
        .next ((v.linkReset (l.val / 2) 0x05 (u.lport (l.val / 2)).survivor).done s)) ∧
      (u.frozen = false → u.laneSt l.val = lsAlign ∨ u.laneSt l.val = lsTest → exec (.signalLoss l) s = .next (v.done s)) ∧
      (u.frozen = true ∨ u.laneSt l.val ∉ [lsReady, lsAlign, lsTest] → exec (.signalLoss l) s = .next (u.done s))) ∧
    (s.frozen = false → s.laneSt l.val = lsTrain → s.flag LAN_STATUS.signal l.val 0 = true →
      let u := (s.advance ((s.lane l.val).since + ms 20)).fault 10 (4 * l.val + 2) l.val
      exec (.trainingTimeout l) s =
        .next (((u.setFld LAN_TX_EQ.taps l.val 0 0x0000F834FC00).laneTrain l.val (u.lane l.val).width1).done s))) ∧
  (∀ (l : Lane) (s : State), s.frozen = false → s.malsol (l.val / 2) = false → let v := s.lane l.val; let p := l.val / 2
    (s.laneSt l.val = lsReady → v.missed < 3 →
      exec (.alignmentMarker l none) s = .next ((s.setLane l.val { v with missed := v.missed + 1 }).done s)) ∧
    (s.laneSt l.val = lsAlign → v.missed < 3 →
      exec (.alignmentMarker l none) s = .next ((s.setLane l.val { v with missed := v.missed + 1, marks := 0 }).done s)) ∧
    (s.laneSt l.val = lsReady → 3 ≤ v.missed → let u := s.setLane l.val { v with missed := v.missed + 1 }
      u.flag LAN_STATUS.am_lock l.val 0 = true →
      let w := (u.setLane l.val { v with missed := 0, marks := 0 }).setFlag LAN_STATUS.am_lock l.val 0 false
      exec (.alignmentMarker l none) s =
        .next (((w.fault 10 (4 * l.val + 2) l.val).linkReset p 0x05 (w.lport p).survivor).done s)) ∧
    (∀ m : Marker, let marks := if v.marks = 0 ∨ m.amCount = (v.lastMark + 1) % 256 then v.marks + 1 else 1
      let u := s.setLane l.val { v with missed := 0, marks := marks, lastMark := m.amCount, skew := m.skew }
      let sole := v.width1 = true ∨ u.laneSt (otherLane l.val) ∈ [lsRetired, lsDropped, lsIdle]
      let both := 3 ≤ (u.lane (otherLane l.val)).marks ∧ (u.lane l.val).lastMark = (u.lane (otherLane l.val)).lastMark
      (s.laneSt l.val = lsReady ∨ (s.laneSt l.val = lsAlign ∧ (u.lane l.val).marks < 3) ∨
          (s.laneSt l.val = lsAlign ∧ ¬sole ∧ ¬both) → exec (.alignmentMarker l (some m)) s = .next (u.done s)) ∧
      (s.laneSt l.val = lsAlign → 3 ≤ (u.lane l.val).marks → sole →
        exec (.alignmentMarker l (some m)) s = .next ((u.alignDone p [l.val] false m.port).done s)) ∧
      (s.laneSt l.val = lsAlign → 3 ≤ (u.lane l.val).marks → ¬sole → both → u.laneSt (otherLane l.val) ≠ lsAlign →
        exec (.alignmentMarker l (some m)) s = .next ((u.setFlag LAN_STATUS.am_lock l.val 0 true).done s)) ∧
      (s.laneSt l.val = lsAlign → 3 ≤ (u.lane l.val).marks → ¬sole → both → u.laneSt (otherLane l.val) = lsAlign →
        exec (.alignmentMarker l (some m)) s =
          .next ((u.alignDone p [2 * p, 2 * p + 1] (decide (m.lane % 2 ≠ l.val % 2)) m.port).done s)))) ∧
  (∀ (p : FPort) (s : State), s.frozen = false → let ls (t : State) := [2 * p.val, 2 * p.val + 1].filter fun l => t.laneSt l == lsAlign
    let u := s.advance ((ls s).foldl (fun t l => max t ((s.lane l).since + us 100)) 0)
    let open_ := (ls u).filter fun l => if u.malsol p.val then !u.flag LAN_M2_STATUS.aligned l 0 else !u.flag LAN_STATUS.am_lock l 0
    let v := (if open_ = [] then [2 * p.val] else open_).foldl (fun (t : State) l => t.fault 10 (4 * l + 2) l) u
    (ls u = [] → exec (.alignTimeout p) s = .next (u.done s)) ∧
    (ls u ≠ [] → v.malsol p.val = true → exec (.alignTimeout p) s = .next (((ls u).foldl State.laneAlign v).done s)) ∧
    (ls u ≠ [] → v.malsol p.val = false →
      exec (.alignTimeout p) s = .next (((ls u).foldl (fun (t : State) l => t.laneTrain l (t.lane l).width1) v).done s))) ∧
  (∀ (s : State) (p port : Nat) (ls : List Nat) (sw : Bool), (∃ l ∈ ls, 256 < (s.lane l).skew) → s.alignDone p ls sw port =
    ls.foldl (fun (t : State) l => t.laneTrain l (t.lane l).width1) (s.fault 10 (4 * ls.headD (2 * p) + 2) (ls.headD (2 * p)))) ∧
  (∀ (s : State) (l : Nat), s.flag LAN_CFG.adapt_freeze l 0 = true ∨ s.laneSt l = lsTest → s.adapt l = s) ∧
  (∀ a b : Nat, 0 < a → 0 < b → let e := eyeTenths a b
    10 ^ (2 * e - 1).toNat * b ^ 400 ≤ a ^ 400 * 10 ^ (1 - 2 * e).toNat ∧
    a ^ 400 * 10 ^ (-2 * e - 1).toNat < b ^ 400 * 10 ^ (2 * e + 1).toNat) ∧
  (∀ (l : Lane) (means : List Int) (sigmas : List Nat) (s : State), s.frozen = false →
    means.length = (if s.malsol (l.val / 2) then 2 else 4) → sigmas.length = means.length → let ef := eyeFigure means sigmas
    let u := s.setFld LAN_EYE.ef l.val 0 (BitVec.ofInt 16 ef).toNat
    let u := if ef < s16 (u.fld LAN_EYE.ef_min l.val 0) then u.setFld LAN_EYE.ef_min l.val 0 (BitVec.ofInt 16 ef).toNat else u
    let warn := s16 (u.fld LAN_EF_THRESH.warn 0 0) ≤ ef
    (s.laneSt l.val = lsTrain → exec (.eyeWindowEnd l means sigmas) s = .next (((u.setLane l.val { u.lane l.val with
      goodWindows := if warn then (u.lane l.val).goodWindows + 1 else 0 }).adapt l.val).done s)) ∧
    (3 ≤ s.laneSt l.val → s.laneSt l.val ≤ 5 → let w := u.setFlag LAN_STATUS.eye_warn l.val 0 (decide ¬warn)
      exec (.eyeWindowEnd l means sigmas) s = .next (((if ef < s16 (w.fld LAN_EF_THRESH.fail 0 0) then
        (w.bump LAN_EYE.low_windows l.val 0).fault 10 (4 * l.val + 1) l.val else w).adapt l.val).done s)))

/-- Codewords, 8b/10b characters and the pattern checker. The stream bytes of a data codeword come back from it, with the
scrambler at the same place. A correction touches at most 7 symbols and leaves a codeword. A received codeword counts each
corrected symbol on its lane; a marker restarts the scrambler, data enters the stream at its block_ptr; an uncorrectable one
counts on both lanes, and its 320 bytes enter marked bad, but for the one in a marker's place. The 8b/10b code (the standard's
tables, log entry 40) decodes what it encodes at either disparity, and at the other one answers a disparity error. A Malsol
character moves the comma search, aligns at the fourth comma at offset 0, and is decoded at the running disparity; errors
count. The checker locks at 64 good bits, then counts wrong ones, and lets go past 256. (09_lanes.md R276; 09_lanes.md R280;
09_lanes.md R282; 09_lanes.md R283; 09_lanes.md R284) -/
def Obligations.StreamsAreScrambledCorrectedAndDecoded : Prop :=
  (∀ (prbs ptr : Nat) (bs : List Byte), bs.length = 320 → let d := dataCodeword prbs ptr bs
    codewordBytes prbs d.1 = (bs, d.2) ∧ d.1.head? = some (ptr % 512)) ∧
  (∀ (w fixed places : List Nat), rsDecode w = some (fixed, places) → places.length ≤ 7 ∧ fixed.length = w.length ∧
    (∀ j, j ∉ places → fixed[j]? = w[j]?) ∧ ∀ x ∈ rsSyndromes fixed, x = 0) ∧
  (∀ (p : FPort) (symbols : List (BitVec 10)) (s : State), s.frozen = false → s.portSt p.val ≠ psRetired → s.malsol p.val = false →
    s.lanesReady p.val = true → symbols.length = 272 → let w := symbols.map fun x => x.toNat
    let prbs := (SMap.find? s.lan.prbs p.val).getD 0x7FFFFFFF
    let after (t : State) (n k : Nat) : State := { t with lan := { t.lan with
      prbs := SMap.insert t.lan.prbs p.val n, cwIn := SMap.insert t.lan.cwIn p.val (k % 48) } }
    let next (t : State) : Nat := (SMap.find? t.lan.cwIn p.val).getD 1 + 1
    (∀ fixed places, rsDecode w = some (fixed, places) →
      let u := places.foldl (fun (t : State) j =>
        (t.bump LAN_FEC_CORR.count (t.symLane p.val j) 0).pmcEv 10 1 (t.symLane p.val j) 0 1) s
      (bitOf (fixed.headD 0) 9 = true → exec (.codewordReceive p symbols) s = .next ((after u 0x7FFFFFFF 1).done s)) ∧
      (bitOf (fixed.headD 0) 9 = false → let x := codewordBytes prbs fixed
        exec (.codewordReceive p symbols) s = .next (((after u x.2 (next u)).streamIn p.val (fixed.headD 0 % 512) x.1 false).done s))) ∧
    (rsDecode w = none → let x := codewordBytes prbs w
      let a := 2 * p.val
      let u := (s.bump LAN_FEC_UNCORR.count a 0).bump LAN_FEC_UNCORR.count (a + 1) 0
      let u := (u.pmcEv 10 2 a 0 1).pmcEv 10 2 (a + 1) 0 1
      let u := u.fault 10 (4 * u.uncorrLane p.val) (u.uncorrLane p.val)
      (u.markerDue p.val = true → exec (.codewordReceive p symbols) s = .next ((after u 0x7FFFFFFF 1).done s)) ∧
      (u.markerDue p.val = false → exec (.codewordReceive p symbols) s =
        .next (((after u x.2 (next u)).streamIn p.val 0 x.1 true).done s)))) ∧
  (∀ (b : Nat) (rd : Bool), b < 256 → decodeChar (encD b rd).1 rd = (.data (BitVec.ofNat 8 b), (encD b rd).2) ∧
    ((encD b rd).1 ≠ (encD b !rd).1 → (decodeChar (encD b rd).1 !rd).1 = .wrongDisparity)) ∧
  (∀ (l : Lane) (ch : BitVec 10) (s : State), s.frozen = false → s.malsol (l.val / 2) = true →
    s.laneSt l.val = lsAlign ∨ s.laneSt l.val = lsReady → let v := s.lane l.val
    let c := if v.boundary = 0 then ch.toNat else (v.raw.getD 0 * 1024 + ch.toNat) / 2 ^ (10 - v.boundary) % 1024
    let u := match commaAt v.prev c with
      | some n => (s.setFlag LAN_M2_STATUS.comma_seen l.val 0 true).setFld LAN_M2_STATUS.comma_pos l.val 0 n
      | none => s
    let commas := match commaAt v.prev c with | none => v.commas | some n => if n = 0 then v.commas + 1 else 0
    let u := u.setLane l.val { v with
      raw := some ch.toNat, prev := some c, commas := commas, count := v.count + 1, rdKnown := v.rdKnown || isComma c, k283 := v.k283.map (· + 1) }
    let u := if 4 ≤ commas then u.setFlag LAN_M2_STATUS.aligned l.val 0 true else u
    (v.rdKnown = true → let x := decodeChar c (u.flag LAN_M2_STATUS.rd l.val 0)
      exec (.m2CharacterReceive l ch) s = .next (((u.setFlag LAN_M2_STATUS.rd l.val 0 x.2).m2Char l.val x.1).done s)) ∧
    (v.rdKnown = false → isComma c = false → exec (.m2CharacterReceive l ch) s =
      .next ((u.setFlag LAN_M2_STATUS.rd l.val 0 (decodeChar c (u.flag LAN_M2_STATUS.rd l.val 0)).2).done s)) ∧
    (v.rdKnown = false → isComma c = true → let x := decodeChar c (c == 0b1100000101)
      exec (.m2CharacterReceive l ch) s = .next (((u.setFlag LAN_M2_STATUS.rd l.val 0 x.2).m2Char l.val x.1).done s))) ∧
  (∀ (l : Lane) (bits : List Bool) (s : State), let pat := s.fld LAN_TEST_CFG.chk_pat l.val 0
    (1 ≤ pat → pat ≤ 4 → s.laneSt l.val ∈ [lsTest, lsRetired] →
      exec (.patternCheckerReceive l bits) s = .next ((bits.foldl (fun (t : State) b => t.chkBit l.val pat b) s).done s)) ∧
    (pat = 0 ∨ 5 ≤ pat ∨ s.laneSt l.val ∉ [lsTest, lsRetired] →
      exec (.patternCheckerReceive l bits) s = .next (s.done s))) ∧
  (∀ (s : State) (l pat : Nat) (b : Bool), let v := s.lane l
    let e := chkExpect pat (s.reg ⟨.LAN_TEST_PATTERN, l, 0⟩).toNat v.chkBits
    (s.flag LAN_TEST_ERR.lock l 0 = false → e = some b → v.chkGood = 63 → s.chkBit l pat b =
      (s.setLane l { v with chkBits := (b :: v.chkBits).take 64, chkGood := 64, chkSeen := 0, chkErrs := 0 }).setFlag
        LAN_TEST_ERR.lock l 0 true) ∧
    (s.flag LAN_TEST_ERR.lock l 0 = true → e = some (!b) → v.chkErrs = 256 → s.chkBit l pat b =
      ((s.bump LAN_TEST_ERR.errors l 0).setLane l { v with chkBits := [], chkGood := 0, chkSeen := 0, chkErrs := 0 }).setFlag
        LAN_TEST_ERR.lock l 0 false) ∧
    (s.flag LAN_TEST_ERR.lock l 0 = true → e = some b → v.chkErrs ≤ 256 → let n := (v.chkSeen + 1) % 1024
      s.chkBit l pat b = s.setLane l { v with
        chkBits := (b :: v.chkBits).take 64, chkSeen := n, chkErrs := if n = 0 then 0 else v.chkErrs }))

/-- Blocks: what makes one good, the receiver's order, replay, and the timers that take a link down. A block built from flits
with defined tags is good and gives its flits, tags and slot back. A framing port moves one position on at each arrival; a bad
block counts and starts discarding; a good one has its slot used, then is taken when its sequence is the expected one, ignored
when it is older, and starts discarding when it is newer; discarding ends at a block that carries the expected sequence in its
slot. A new block keeps its flits until they are acknowledged; where the Spillway lags, or the bound is reached, an idle block
goes out. A replay that is due starts at a position divisible by 4. While discarding lasts nak_count rises again; the oldest
unacknowledged block is replayed after 2d + 1 µs, until replay_max in a row take the link down with cause 4. A flit without
credit for credit_timeout_us takes it down with cause 3, 16 missed heartbeats with cause 2. (10_link_layer.md R291;
10_link_layer.md R294; 10_link_layer.md R295; 10_link_layer.md R296; 10_link_layer.md R297; 10_link_layer.md R298;
10_link_layer.md R299; 10_link_layer.md R304; 10_link_layer.md R308) -/
def Obligations.BlocksAreAcceptedInOrderAndSentAgain : Prop :=
  (∀ (fs : List (Nat × Flit)) (slot : Nat), fs.length ≤ 4 → (∀ f ∈ fs, f.1 < 16 ∧ ¬(3 ≤ f.1 ∧ f.1 < 8)) → slot < 2 ^ 16 →
    let b := mkBlock fs slot
    blkBad b false = false ∧ blkBad b true = true ∧ b.slot.toNat = slot ∧
    ∀ i, i < 4 → blkTag b i = (fs.getD i (0, 0)).1 ∧ (blkFlits b).getD i 0 = (fs.getD i (0, 0)).2) ∧
  (∀ (b : LinkBlock) (c : BitVec 32), c ≠ b.crc → blkBad b false = false → blkBad { b with crc := c } false = true) ∧
  (∀ (p : FPort) (b : LinkBlock) (bad : Bool) (s : State), s.frozen = false → let u := s.streamCut p.val b
    let marked := bad || s.streamBad p.val b
    (s.streamCut p.val b).stopped = false ∧
    ((u.lport p.val).framed = false → exec (.linkBlockArrival p b bad) s = .next (u.done s)) ∧
    ((u.lport p.val).framed = true → let q := (u.lport p.val).rpos
      let w := u.setLport p.val { u.lport p.val with rpos := (q + 1) % 144 }
      (blkBad b marked = true → let x := ((w.bump LNK_CRC_COUNT.count p.val 0).pmcEv 9 2 p.val 0 1).fault 9 (8 * p.val) 0
        exec (.linkBlockArrival p b bad) s =
          .next ((if (x.lport p.val).discarding = true ∨ (x.lport p.val).framed = false then x else x.enterDiscard p.val).done s)) ∧
      (blkBad b marked = false → exec (.linkBlockArrival p b bad) s =
        .next (((w.slotRecv p.val q b.slot.toNat).sequenceRecv p.val q b).done s)))) ∧
  (∀ (s : State) (p q : Nat) (b : LinkBlock), b.tags ≠ 0 → let v := s.lport p
    let arr := if q % 4 = 0 then b.slot.toNat else match v.lastArr with | some a => (a + 1) % 2 ^ 16 | none => v.expected
    let u := s.setLport p { v with lastArr := some arr }
    (v.discarding = false → arr = v.expected → s.sequenceRecv p q b =
      ((u.setLport p { u.lport p with expected := ((u.lport p).expected + 1) % 2 ^ 16 }).acceptFlits p b)) ∧
    (v.discarding = false → arr ≠ v.expected → (v.expected + 2 ^ 16 - arr) % 2 ^ 16 < 2 ^ 15 → s.sequenceRecv p q b = u) ∧
    (v.discarding = false → arr ≠ v.expected → 2 ^ 15 ≤ (v.expected + 2 ^ 16 - arr) % 2 ^ 16 →
      s.sequenceRecv p q b = u.enterDiscard p) ∧
    (v.discarding = true → q % 4 ≠ 0 ∨ b.slot.toNat ≠ v.expected → s.sequenceRecv p q b = u)) ∧
  (∀ (p : FPort) (s : State), s.frozen = false → let u := s.sendBlock p.val
    ((s.lport p.val).framed = false → exec (.linkBlockSend p) s = .next (s.done s)) ∧
    exec (.linkBlockSend p) s = .next ((match (u.out.drop s.out.length).findSome? (fun (o : Output) => match o with
      | .block q b => if q = p.val then some b else none
      | _ => none) with
      | some b => u.txBlock p.val b
      | none => u).done s)) ∧
  (∀ (s : State) (p : Nat), (s.lport p).framed = true → s.stopped = false → let v := (s.lport p).beginReplay
    let u := s.setLport p v
    (v.replay = none → s.sendBlock p = u.sendFresh p) ∧
    (∀ sq b, v.replay = some sq → v.unacked.find? (fun b => b.seq == sq) = some b → s.sendBlock p = u.resendBlock p b) ∧
    ((s.lport p).replayDue = true → (s.lport p).pos % 4 = 0 →
      v.replay = some (((s.lport p).unacked.map (·.seq)).headD (s.lport p).nextSeq) ∧ v.replayDue = false) ∧
    ((s.lport p).replayDue = false ∨ (s.lport p).pos % 4 ≠ 0 → v = s.lport p)) ∧
  (∀ (s : State) (p : Nat), let n := (s.lport p).unacked.length
    let b := s.fresh 1
    (s.txBound p ≤ n → s.sendFresh p = (s.noteCreditWaits p).sendIdle p) ∧
    (n < s.txBound p → 372 ≤ n → b.1 = 1 → s.sendFresh p = (b.2.fault 9 (8 * p + 7) p).sendIdle p) ∧
    (n < s.txBound p → ∀ u, (n < 372 ∧ u = s) ∨ (372 ≤ n ∧ b.1 = 0 ∧ u = b.2) → let x := State.takeSlots p 4 u
      let w := x.2.noteCreditWaits p
      (x.1 = [] → s.sendFresh p = w.sendIdle p) ∧
      (x.1 ≠ [] → let flits := x.1.map fun f => (f.tag, f.flit)
        let b := mkBlock flits (w.slotFor p (w.lport p).pos (w.lport p).nextSeq)
        let v := w.lport p
        let y := w.setLport p { v with nextSeq := (v.nextSeq + 1) % 2 ^ 16
                                       unacked := v.unacked ++
                                         [⟨v.nextSeq, flits, x.1.filterMap (·.head), x.1.filterMap (·.tail), w.now⟩] }
        s.sendFresh p = (((y.emit (.block p b)).pmcEv 9 1 p 0 1).nextPos p).afterAck p x.1))) ∧
  (∀ (p : FPort) (s : State), s.frozen = false → let v := s.lport p.val
    (v.discarding = false → exec (.nakRepeatTimer p) s = .next (s.done s)) ∧
    (v.discarding = true → let u := s.advance (v.discSince + 2 * s.oneWay p.val + 500000)
      exec (.nakRepeatTimer p) s = .next ((u.setLport p.val { u.lport p.val with
        discarding := true, discSince := u.now, nakCount := ((u.lport p.val).nakCount + 1) % 2 ^ 16 }).done s)) ∧
    (v.unacked = [] → exec (.replayTimeout p) s = .next (s.done s)) ∧
    (∀ b rest, v.unacked = b :: rest → let u := (s.advance (b.at_ + 2 * s.oneWay p.val + us 1)).fault 9 (8 * p.val + 1) p.val
      let m := max 1 (u.fld LNK_PORT_CFG.replay_max p.val 0)
      (m ≤ (u.lport p.val).replays → exec (.replayTimeout p) s =
        .next ((u.linkReset p.val 0x04 (u.lport p.val).survivor).done s)) ∧
      ((u.lport p.val).replays < m → exec (.replayTimeout p) s = .next ((((u.setLport p.val { u.lport p.val with
        replays := (u.lport p.val).replays + 1, replayDue := true }).bump
          LNK_REPLAY_COUNT.count p.val 0).pmcEv 9 3 p.val 0 1).done s))) ∧
    (∀ k : Fin 9, ((v.pool k.val).waitFrom = none → exec (.creditTimeout p k) s = .next (s.done s)) ∧
      ∀ t, (v.pool k.val).waitFrom = some t →
        let u := s.advance (t + us (max 10 (s.fld LNK_PORT_CFG.credit_timeout_us p.val 0)))
        exec (.creditTimeout p k) s = .next (((u.fault 9 (8 * p.val + 2) p.val).linkReset p.val 0x03 (u.lport p.val).survivor).done s)) ∧
    (v.framed = false → exec (.canaryTick p) s = .next (s.done s)) ∧
    (v.framed = true → let u := s.advance (v.beatAt + us 1)
      let x := u.lport p.val
      let n := if x.peerBeat ≠ none ∧ x.peerBeat ≠ x.tickBeat then 0 else x.missed + 1
      let w := u.setLport p.val { x with
        beat := (x.beat + 1) % 2 ^ 16, tickBeat := x.peerBeat, missed := n, beatAt := x.beatAt + us 1 }
      (n < 16 → exec (.canaryTick p) s = .next (w.done s)) ∧
      (16 ≤ n → exec (.canaryTick p) s = .next (((w.fault 9 (8 * p.val + 3) p.val).linkReset p.val 0x02 x.survivor).done s))))

/-- The control messages of a port, the steps of admission, link resets and the exchange of time. The fields of a control flit
read back as they were written. A control message acts only on a framing port and its own type. HELLO in hello stores the peer
and starts admission when R313's check passes, else fails it with cause 9. NONCE is stored and answered with the PROOF; a
malformed PROOF fragment is refused with code 7, the fifth gives the verdict; a peer's verdict is judged with the own one. A
step that exceeds its bound, 10 µs or 300 µs, fails, and 100 ms later bring-up starts again. POISON ends the packet in
progress on its pool. A crossing RESET_REQ is dropped by the higher identity; otherwise RESET_ACK is owed, and the reset
follows once it has been sent. RESET_ACK, or 10 µs, lets the requester reset. TIME gives delay and offset by R315, but not in
discarding; an offset steps TIM beyond 1 µs at first lock, else it slews by at most 1 ns per µs; a live port sends its own.
(10_link_layer.md R305; 10_link_layer.md R306; 10_link_layer.md R310; 10_link_layer.md R311; 10_link_layer.md R312;
10_link_layer.md R313; 10_link_layer.md R314; 10_link_layer.md R315; 14_boot_security_log.md R425; 14_boot_security_log.md
R427) -/
def Obligations.LinksAreAdmittedResetAndTimed : Prop :=
  (∀ (a b t v : Nat), t < 256 → v < 256 ^ b → 1 ≤ a → a + b ≤ 64 → let f := ctlFlit [(0, 1, t), (a, b, v)]
    flitBytes f 0 1 = t ∧ flitBytes f a b = v) ∧
  (∀ (p : FPort) (f : Flit) (n : Nat) (i : Instr) (k : Nat) (s : State), (i, k) ∈ [(Instr.hello p f, 1), (.admitNonce p f, 2),
      (.admitProof p f, 2), (.admitVerdict p f, 2), (.poison p f, 3), (.time p f n, 4), (.resetReq p f, 5), (.resetAck p f, 6)] →
    s.frozen = true ∨ flitBytes f 0 1 ≠ k ∨ (s.lport p.val).framed = false → exec i s = .next (s.done s)) ∧
  (∀ (p : FPort) (f : Flit) (s : State), s.frozen = false → (s.lport p.val).framed = true → let v := s.lport p.val
    (flitBytes f 0 1 = 1 →
      (s.portSt p.val ≠ psHello → exec (.hello p f) s = .next (s.done s)) ∧
      (s.portSt p.val = psHello → s.helloOk p.val f = false → exec (.hello p f) s = .next ((s.admitFail p.val 0x09).done s)) ∧
      (s.portSt p.val = psHello → s.helloOk p.val f = true → let u := s.setLport p.val { v with adm := { v.adm with
          peer := some (flitBytes f 8 8, flitBytes f 16 4 % 2 ^ 17, flitBytes f 20 1)
          version := flitBytes f 23 1
          sizes := (List.range 9).map fun k => flitBytes f (24 + 2 * k) 2 } }
        exec (.hello p f) s =
          .next (((u.setFld LNK_PORT_STATUS.peer_port p.val 0 (flitBytes f 20 1)).startAdmission p.val).done s))) ∧
    (flitBytes f 0 1 = 2 → flitBytes f 1 1 = 1 → s.portSt p.val = psHello ∨ s.portSt p.val = psAdmit →
      exec (.admitNonce p f) s = .next (((s.setLport p.val { v with adm := { v.adm with
        peerNonce := some (BitVec.ofNat 256 (flitBytes f 8 32)) } }).sendProof p.val).done s)) ∧
    (flitBytes f 0 1 = 2 → flitBytes f 1 1 = 2 → s.portSt p.val = psAdmit → v.adm.verdictOut = none →
      (flitBytes f 3 1 ≠ 5 ∨ 5 ≤ flitBytes f 2 1 ∨ flitBytes f 4 4 ≠ 0 →
        exec (.admitProof p f) s = .next ((s.sendVerdict p.val 7).done s)) ∧
      (flitBytes f 3 1 = 5 → flitBytes f 2 1 < 5 → flitBytes f 4 4 = 0 →
        let frags := SMap.insert v.adm.frags (flitBytes f 2 1) (BitVec.ofNat 448 (flitBytes f 8 56))
        let u := s.setLport p.val { v with adm := { v.adm with frags := frags } }
        (frags.length < 5 → exec (.admitProof p f) s = .next (u.done s)) ∧
        (5 ≤ frags.length → let body := (frags.flatMap fun e => leBytes 56 e.2.toNat).take 256
          exec (.admitProof p f) s = .next (((u.certSeen (body.take 112)).sendVerdict p.val (u.proofCode p.val body)).done s)))) ∧
    (flitBytes f 0 1 = 2 → flitBytes f 1 1 = 3 → s.portSt p.val = psAdmit →
      let u := s.setLport p.val { v with adm := { v.adm with verdictIn := some (flitBytes f 8 1) } }
      exec (.admitVerdict p f) s = .next (((if flitBytes f 8 1 ≠ 0 ∧ (v.adm.verdictOut = none ∨ v.adm.verdictOut = some 0) then
        u.admitRefused p.val (flitBytes f 8 1) else u).judge p.val).done s)) ∧
    (flitBytes f 0 1 = 3 → let k := flitBytes f 1 1
      let u := s.setLport p.val (v.setPool k { v.pool k with rx := none })
      ((v.pool k).rx = none → exec (.poison p f) s = .next (s.done s)) ∧
      (∀ r, (v.pool k).rx = some r → exec (.poison p f) s =
        .next ((match r.id with | some id => u.poisonPkt id | none => u).done s)))) ∧
  (∀ (p : FPort) (s : State), s.frozen = false → let v := s.lport p.val
    (s.portSt p.val = psHello → exec (.bringupStepTimeout p) s = .next (((s.advance (v.stepAt + us 10)).admitFail p.val 0x09).done s)) ∧
    (s.portSt p.val = psAdmit → v.adm.agreed = true → exec (.bringupStepTimeout p) s = .next (s.done s)) ∧
    (s.portSt p.val = psAdmit → v.adm.agreed = false → exec (.bringupStepTimeout p) s = .next (((s.advance (v.stepAt + us 300)).admitFail p.val 0x0A).done s)) ∧
    (∀ t, v.retryAt = some t → s.portSt p.val = psReset →
      exec (.bringupRetry p) s = .next (((s.advance t).bringUp p.val).done s)) ∧
    (v.retryAt = none ∨ s.portSt p.val ≠ psReset → exec (.bringupRetry p) s = .next (s.done s))) ∧
  (∀ (s : State) (p c : Nat), let u := (s.fault 9 (8 * p + 5) c).linkDown p c
    s.admitFail p c = u.setLport p { u.lport p with retryAt := some (u.now + ms 100) }) ∧
  (∀ (p : FPort) (f : Flit) (s : State), s.frozen = false → (s.lport p.val).framed = true → let v := s.lport p.val
    let own := s.fld SEC_IDENTITY.identity 0 0
    (flitBytes f 0 1 = 5 → v.ackOwed ≠ none ∨ (v.reqUntil ≠ none ∧ flitBytes f 8 8 ≤ own) →
      exec (.resetReq p f) s = .next (s.done s)) ∧
    (flitBytes f 0 1 = 5 → v.ackOwed = none → v.reqUntil = none ∨ own < flitBytes f 8 8 →
      let u := if v.reqUntil = none then s else s.setFlag LNK_PORT_STATUS.req_dropped p.val 0 true
      exec (.resetReq p f) s = .next ((u.setLport p.val { u.lport p.val with
        ctl := (u.lport p.val).ctl ++ [ctlFlit [(0, 1, 6), (8, 8, flitBytes f 8 8)]], reqUntil := none
        ackOwed := some (if flitBytes f 1 1 = 1 then some (flitBytes f 2 1 % 2) else u.lastLane p.val) }).done s)) ∧
    (flitBytes f 0 1 = 6 → flitBytes f 8 8 = own → v.reqUntil ≠ none →
      exec (.resetAck p f) s = .next ((s.linkReset p.val v.reqCause v.survivor).done s)) ∧
    (flitBytes f 0 1 = 6 → flitBytes f 8 8 ≠ own ∨ v.reqUntil = none → exec (.resetAck p f) s = .next (s.done s))) ∧
  (∀ (s : State) (p : Nat) (fs : List SlotFlit) (surv : Option Nat), (s.lport p).ackOwed = some surv →
    s.afterAck p fs = if fs.any (fun f => f.tag == 1 && flitBytes f.flit 0 1 == 6) then s.linkReset p 0x06 surv else s) ∧
  (∀ (p : FPort) (s : State), s.frozen = false →
    ((s.lport p.val).reqUntil = none → exec (.resetAckTimeout p) s = .next (s.done s)) ∧
    (∀ t, (s.lport p.val).reqUntil = some t →
      exec (.resetAckTimeout p) s = .next (((s.advance t).proceedReset p.val).done s))) ∧
  (∀ (p : FPort) (f : Flit) (t4 : Nat) (s : State), s.frozen = false → flitBytes f 0 1 = 4 → (s.lport p.val).framed = true →
    let v := s.lport p.val
    let d : Int := (((t4 : Int) - flitBytes f 24 8) - ((flitBytes f 8 8 : Int) - flitBytes f 16 8)) / 2
    let off : Int := (((flitBytes f 16 8 : Int) - flitBytes f 24 8) - ((t4 : Int) - flitBytes f 8 8)) / 2 -
      (BitVec.ofNat 16 (s.fld LNK_TIME_ADJ.asym p.val 0)).toInt
    let u := s.setFld LNK_TIME_STATUS.peer_distance p.val 0 (flitBytes f 32 1)
    (v.adm.version = 1 ∨ v.discarding = true → exec (.time p f t4) s = .next (s.done s)) ∧
    (v.adm.version ≠ 1 → v.discarding = false → flitBytes f 24 8 = 0 → exec (.time p f t4) s = .next (((u.setLport p.val { v with
      peerSend := flitBytes f 8 8, peerRecv := t4 }).chooseUpstream).done s)) ∧
    (v.adm.version ≠ 1 → v.discarding = false → flitBytes f 24 8 ≠ 0 →
      let w := ((u.setFld LNK_TIME_STATUS.delay p.val 0 d.toNat).setLport p.val { v with
        peerSend := flitBytes f 8 8, peerRecv := t4, offset := off }).chooseUpstream
      exec (.time p f t4) s = .next ((if w.lnk.upstream = some p.val then w.follow off else w).done s))) ∧
  (∀ (s : State) (off : Int), let l := { s.lnk with locked := true, slewAt := some s.now }
    (s.lnk.locked = false → 1000000 < (off * 250).natAbs →
      s.follow off = ({ s with timAdj := s.timAdj + off * 250, lnk := l } : State).fault 18 2 0) ∧
    (s.lnk.locked = true ∨ (off * 250).natAbs ≤ 1000000 → s.lnk.slewAt.getD s.now ≤ s.now → let cap : Int := ((s.now - s.lnk.slewAt.getD s.now) / 1000 : Nat)
      s.follow off = { s with timAdj := s.timAdj + max (-cap) (min cap (off * 250)), lnk := l })) ∧
  (∀ (p : FPort) (s : State), s.frozen = false →
    (s.portSt p.val ≠ psLive → exec (.timeSendTimer p) s = .next (s.done s)) ∧
    (s.portSt p.val = psLive → let last := ((250 * (s.lport p.val).lastSend : Nat) - s.timAdj).toNat
      let u := if (s.lport p.val).lastSend = 0 then s
        else s.advance (last + (if s.lnk.upstream = some p.val then us 1 else us 64))
      ((∀ f ∈ (u.lport p.val).ctl, flitBytes f 0 1 ≠ 4) →
        exec (.timeSendTimer p) s = .next ((u.pushCtl p.val (u.timeFlit p.val)).done s)) ∧
      ((∃ f ∈ (u.lport p.val).ctl, flitBytes f 0 1 = 4) → exec (.timeSendTimer p) s = .next (u.done s))))

/-- Which event is dispatched and where, how an invocation starts, and how it ends or stops. The event dispatched has a core
and none with a core has a higher priority, or the same priority and more age; its core is an idle eligible user core, the
lowest. The invocation starts in U mode at the trigger's pc with the registers of R330 and the owner's slice, and the event
leaves the queue. In setup or with the data path stopped, or with no event that has a core, nothing is dispatched. ecall in a
running user handler ends the invocation and leaves the core idle. The budget, and an exception in user mode or in a refill,
stop it: the entry of R331 is posted unless the owner is closed, the trigger disarmed, the core's semaphores given back and
the stop counted. The timer interrupt is the comparison of TIMECMP with fabric time. (11_handlers_scratchpad_semaphores.md
R322; 11_handlers_scratchpad_semaphores.md R323; 11_handlers_scratchpad_semaphores.md R328;
11_handlers_scratchpad_semaphores.md R329; 11_handlers_scratchpad_semaphores.md R330; 11_handlers_scratchpad_semaphores.md
R331) -/
def Obligations.InvocationsStartByPriorityAndEnd : Prop :=
  (∀ (s : State) (mask : Word) (c : Nat), c ∈ s.eligible mask ↔ c < 64 ∧ s.userCore c = true ∧
    (bitOf mask.toNat c = true ∨ ∀ d, d < 64 → s.userCore d = true → bitOf mask.toNat d = false)) ∧
  (∀ (s : State) (e : TrigEv) (c : Nat), s.coreFor e = some c → c ∈ s.eligible e.cfg.cores ∧ s.coreSt c = 1 ∧ (s.core c).pc = residentMain ∧
    (e.cfg.serial = true → s.trigRuns e.trig = false) ∧
    ∀ d ∈ s.eligible e.cfg.cores, d < c → s.coreSt d ≠ 1 ∨ (s.core d).pc ≠ residentMain) ∧
  (∀ (s : State), (s.nextEvent = none ↔ ∀ e ∈ s.hdl.queue, s.coreFor e = none) ∧
    ∀ k e c, s.nextEvent = some (k, e, c) → s.hdl.queue[k]? = some e ∧ s.coreFor e = some c ∧
      ∀ j g, s.hdl.queue[j]? = some g → s.coreFor g ≠ none → g.cfg.prio ≤ e.cfg.prio ∧ (g.cfg.prio = e.cfg.prio → k ≤ j)) ∧
  (∀ s : State,
    (s.inSetup 11 = true ∨ s.frozen = true ∨ s.nextEvent = none → exec .handlerDispatch s = .next (s.done s)) ∧
    (s.inSetup 11 = false → s.frozen = false → ∀ k e c, s.nextEvent = some (k, e, c) →
      let u : State := { s with hdl := { s.hdl with queue := s.hdl.queue.eraseIdx k } }
      let r := u.ctx e.owner
      let v := { u.core c with
        hxctx := e.owner, hxvabase := BitVec.ofNat 64 r.vaBase
        hxslice := BitVec.ofNat 64 (r.pgCode * 2 ^ 49 + r.xltBase * 2 ^ 25 + r.xltCount)
        inv := some (e.trig, e.owner, u.now), umode := true, pc := BitVec.ofNat 64 e.cfg.pc, resv := none
        x := [(2, u.reg ⟨.HDL_CORE_SP, c, 0⟩), (10, BitVec.ofNat 64 (e.trig + e.kind * 2 ^ 12)), (11, BitVec.ofNat 64 e.a1),
          (12, BitVec.ofNat 64 e.a2), (13, BitVec.ofNat 64 e.a3), (14, BitVec.ofNat 64 e.cfg.arg),
          (15, BitVec.ofNat 64 e.time)].filter fun x => x.2 != 0 }
      exec .handlerDispatch s = .next (((((u.setCore c v).setFld HDL_CORE_STATUS.state c 0 2).setFld
        HDL_CORE_STATUS.trigger c 0 e.trig).pmcEv 11 1 c 0 1).done s))) ∧
  (∀ s : State, s.frozen = false →
    exec .triggerQueueRelease s = .next (((s.releasePosts s.hdl.heldPosts.length).fireWaiting).done s)) ∧
  (∀ (c : CoreId) (s : State), s.frozen = false → let v := s.core c.val
    (s.coreSt c.val = 2 → v.umode = true → v.inv ≠ none → exec (.handlerEcall c) s =
      .next ((((s.setCore c.val { v with inv := none, umode := false, pc := residentMain, hxstat := v.hxstat &&& 0x38
                                         resv := none, wait := none }).dropCoreReads c.val).setFld
        HDL_CORE_STATUS.state c.val 0 1).done s)) ∧
    (s.coreSt c.val ≠ 2 ∨ v.umode = false ∨ v.inv = none → exec (.handlerEcall c) s = .next (s.done s)) ∧
    (1 ≤ s.coreSt c.val → s.coreSt c.val ≤ 3 →
      (∀ t o t0, v.inv = some (t, o, t0) → let u := s.advance (t0 + us (max 1 (s.fld HDL_CFG.budget_us 0 0)))
        exec (.handlerBudgetExpire c) s = .next ((u.stopInv c.val 0x15 0x90 0).done s)) ∧
      (∀ m : Word, (v.umode = true ∨ v.hxstat.getLsbD 0 = true →
          exec (.handlerException c m) s = .next ((s.stopInv c.val 0x15 0x93 m).done s)) ∧
        (v.umode = false → v.hxstat.getLsbD 0 = false → exec (.handlerException c m) s = .next (s.done s))) ∧
      (v.inv = none → exec (.handlerBudgetExpire c) s = .next (s.done s)))) ∧
  (∀ (s : State) (c st dt : Nat) (m : Word), (s.core c).inv = none → s.stopInv c st dt m = s) ∧
  (∀ (s : State) (c st dt t o t0 : Nat) (m : Word), (s.core c).inv = some (t, o, t0) →
    let u := (((s.endInv c).disarmTrig t).setFld HDL_CORE_STATUS.stop_status c 0 st).setFld HDL_CORE_STATUS.stop_detail c 0 dt
    let w := if (u.ctx o).phase = .closed ∨ (u.ctx o).byReset = true then u
      else u.postEntry o (o * 2 ^ 44 + t) st dt c m.toNat false
    s.stopInv c st dt m = (w.semReset (mCore c)).fault 11 (4 * c + 2) c) ∧
  (∀ (c : CoreId) (s : State), let u := s.advance (s.clockOf (s.fld HDL_CORE_TIMECMP.cmp c.val 0))
    exec (.timecmpMatch c) s = .next ((u.setCore c.val { u.core c.val with
      mtip := decide (u.fld HDL_CORE_TIMECMP.cmp c.val 0 ≤ u.fabric) }).done s))

/-- A TLB miss traps to the refill vector, a fill is refused or installed, and invalidations drop what they name. An access
that finds no entry, or a store that finds a clean one, traps to the refill vector with the bits of hxstat; in refill mode it
is a double miss that stops the invocation. A command to hxcmd in user mode is an illegal instruction; a fill that would
change the table waits for RSV and the log. A fill for the device region without dev, or a fetch of it, is refused with 0x17,
an invalid or misaligned entry with 0x13; another sets a and d as R336 says and is installed. A refill handler's refusal stops
with 0x13. Ops 4, 5, 6 and 7 drop the unlocked entries of the page, of the context, all of them, or the locks; after op 4 only
a locked entry serves its page. The ager drops unlocked entries of 3 ms or more at each 1 ms tick. (The victim of a full set
is free, log entry 7.) (11_handlers_scratchpad_semaphores.md R332; 11_handlers_scratchpad_semaphores.md R333;
11_handlers_scratchpad_semaphores.md R334; 11_handlers_scratchpad_semaphores.md R335; 11_handlers_scratchpad_semaphores.md
R336; 11_handlers_scratchpad_semaphores.md R337) -/
def Obligations.TlbsMissFillAndForget : Prop :=
  (∀ (c : CoreId) (va : Word) (acc : Nat) (s : State), s.frozen = false → s.coreActs c.val = true → acc < 3 →
    let v := s.core c.val
    let trap (dirty : Bool) := (s.setCore c.val { v.trapped (24 + acc) va with
      pc := v.hxrvec, hxbad := va
      hxstat := (v.hxstat &&& 0x38) ||| BitVec.ofNat 6 (1 + 2 * b2n (acc == 2) + 4 * b2n (acc == 0) + 8 * b2n dirty) }).pmcEv
        11 2 c.val 0 1
    (v.lookup va (acc == 0) = none → v.hxstat.getLsbD 0 = false →
      exec (.tlbMiss c va acc) s = .next ((trap false).done s)) ∧
    (v.lookup va (acc == 0) = none → v.hxstat.getLsbD 0 = true →
      exec (.tlbMiss c va acc) s = .next ((s.stopInv c.val 0x16 0x80 va).done s)) ∧
    (∀ e, v.lookup va (acc == 0) = some e → acc = 2 → bitOf e.entry.toNat 3 = false → v.hxstat.getLsbD 0 = false →
      exec (.tlbMiss c va acc) s = .next ((trap true).done s)) ∧
    (∀ e, v.lookup va (acc == 0) = some e → acc = 2 → bitOf e.entry.toNat 3 = false → v.hxstat.getLsbD 0 = true →
      exec (.tlbMiss c va acc) s = .next ((s.stopInv c.val 0x16 0x80 va).done s)) ∧
    (∀ e, v.lookup va (acc == 0) = some e → acc ≠ 2 ∨ bitOf e.entry.toNat 3 = true →
      ((∃ x ∈ (if acc = 0 then v.itlb else v.dtlb), v.serves x va = true) →
        exec (.tlbMiss c va acc) s = .next (s.done s)) ∧
      ((∀ x ∈ (if acc = 0 then v.itlb else v.dtlb), v.serves x va = false) →
        exec (.tlbMiss c va acc) s = .next ((s.tlbInstall c.val e (acc == 0)).done s)))) ∧
  (∀ (v : HCore) (cause : Nat) (va : Word), let t := v.trapped cause va
    t.mepc = v.pc ∧ t.mcause = cause ∧ t.mtval = va ∧ t.umode = false ∧ t.mst 7 7 = v.mst 3 3 ∧ t.mst 3 3 = 0 ∧
      t.mst 12 11 = (if v.umode then 0 else 3) ∧ t.x = v.x ∧ t.pc = v.pc) ∧
  (∀ (c : CoreId) (entry : Word) (idx : Nat) (s : State), s.frozen = false → s.coreActs c.val = true →
    let u := s.setCore c.val { s.core c.val with hxentry := entry, hxidx := idx % 2 ^ 24 }
    let v := u.core c.val
    let fetch := v.hxstat.getLsbD 2
    ∀ (lock : Bool) (pgw : Word) (i : Instr), i = (if lock then .tlbLockFill c entry idx pgw else .tlbFill c entry idx) →
      let pg := if lock then pgw.toNat % 4 else (s.core c.val).pgCode
      ((s.core c.val).umode = true → exec i s = .next ((s.coreFault c.val 2 0).done s)) ∧
      ((s.core c.val).umode = false →
        (u.fillStall c.val = true → exec i s = .next (s.done s)) ∧
        (u.fillStall c.val = false →
          (∀ st dt, fillRefusal v.hxentry pg fetch = some (st, dt) →
            exec i s = .next (((u.stopInv c.val st dt v.hxbad).refillReturn c.val).done s)) ∧
          (fillRefusal v.hxentry pg fetch = none → let x := u.setAD c.val
            let held := if fetch then (v.itlb.filter (·.locked)).length else (v.dtlb.filter (·.locked)).length
            (lock = true ∧ (if fetch then 2 else 4) ≤ held → exec i s = .next ((x.2.refillReturn c.val).done s)) ∧
            (lock = false ∨ held < (if fetch then 2 else 4) → exec i s = .next (((x.2.tlbInstall c.val
              ⟨v.hxctx, v.hxbad.toNat / 2 ^ pgShift pg, pg, x.1, lock, x.2.now⟩ fetch).refillReturn c.val).done s)))))) ∧
  (∀ (entry : Word) (pg : Nat) (fetch : Bool), let e := entry.toNat
    (fillRefusal entry pg fetch = some (0x17, 0x80) ↔ bitsOf e 11 10 = 3 ∧ (bitOf e 9 = false ∨ fetch = true)) ∧
    (fillRefusal entry pg fetch = none ↔ bitOf e 0 = true ∧ bitsOf e 63 12 % 2 ^ (pgShift pg - 12) = 0 ∧
      ¬(bitsOf e 11 10 = 3 ∧ (bitOf e 9 = false ∨ fetch = true))) ∧
    (∀ st dt, fillRefusal entry pg fetch = some (st, dt) → (st, dt) = (0x17, 0x80) ∨ (st, dt) = (0x13, 0x83))) ∧
  (∀ (c : CoreId) (s : State), s.frozen = false → 1 ≤ s.coreSt c.val → s.coreSt c.val ≤ 3 → let v := s.core c.val
    (v.umode = true → ∀ (d : Nat) (va : Word), ∀ i ∈ [Instr.tlbRefuse c d, .tlbInvalidatePage c va, .tlbInvalidateContext c,
      .tlbInvalidateAll c, .tlbUnlockAll c], exec i s = .next ((s.coreFault c.val 2 0).done s)) ∧
    (v.umode = false →
      (∀ d, exec (.tlbRefuse c d) s = .next ((s.stopInv c.val 0x13 (0x80 + d % 0x80) v.hxbad).done s)) ∧
      (∀ va : Word, exec (.tlbInvalidatePage c va) s = .next ((s.setCore c.val (({ v with hxentry := va } : HCore).tlbDrop
        fun e => !e.locked && e.hits v.hxctx va)).done s)) ∧
      exec (.tlbInvalidateContext c) s =
        .next ((s.setCore c.val (v.tlbDrop fun e => !e.locked && e.ctx == v.hxctx)).done s) ∧
      exec (.tlbInvalidateAll c) s = .next ((s.setCore c.val (v.tlbDrop fun e => !e.locked)).done s) ∧
      (let open_ (l : List TlbEntry) := l.map fun e => { e with locked := false }
       exec (.tlbUnlockAll c) s =
        .next ((s.setCore c.val { v with itlb := open_ v.itlb, dtlb := open_ v.dtlb, l2 := open_ v.l2 }).done s)))) ∧
  (∀ (s : State) (c cause : Nat) (va : Word), let v := s.core c
    let t := v.trapped cause va
    (v.inv ≠ none → v.umode = true ∨ v.hxstat.getLsbD 0 = true →
      s.coreFault c cause va = (s.setCore c t).stopInv c 0x15 0x93 va) ∧
    (v.inv = none ∨ (v.umode = false ∧ v.hxstat.getLsbD 0 = false) →
      s.coreFault c cause va = s.setCore c { t with pc := v.mtvec &&& ~~~(3 : Word) })) ∧
  (∀ (v : HCore) (f : TlbEntry → Bool) (va : Word) (fetch : Bool), let w := v.tlbDrop f
    (∀ e, (e ∈ w.itlb ↔ e ∈ v.itlb ∧ f e = false) ∧ (e ∈ w.dtlb ↔ e ∈ v.dtlb ∧ f e = false) ∧
      (e ∈ w.l2 ↔ e ∈ v.l2 ∧ f e = false)) ∧
    ((∀ e, f e = (!e.locked && e.hits v.hxctx va)) → ∀ x, w.lookup va fetch = some x → x.locked = true)) ∧
  (∀ s : State, s.frozen = false → let u := s.advance ((s.now / ms 1 + 1) * ms 1)
    exec .tlbAgerTick s = .next (((List.range 64).foldl (fun (t : State) c => t.setCore c ((t.core c).tlbDrop fun e =>
      !e.locked && decide (e.loadAt + ms 3 ≤ t.now))) u).done s))

/-- Scratchpad accesses, retention and march tests; acquiring reads, grants and the SEM descriptors. A BAR4 write stores its
bytes and a read returns them; a refused bank gives BUSY, zero or, retired, all ones, and stores nothing; in setup or stopped
a read gives zero. Port-A accesses collide by the words they share with it, two reads never; a colliding write of port A
commits before a host write, what a host read returns of its words is free, and each collision counts and gives BUSY as R341
says. A repeated port-A read takes the next slot. Banks enter retention and become active; a march ends by clearing what it
tested and reporting what failed. An acquiring read takes a free semaphore, or one reserved for the reader, and clears its
orphan flag; else it registers, or finds 64 waiters; a 32-bit read does nothing. An unread grant passes to the next waiter:
the highest priority, then the earliest; a holder's effective priority is the highest of its own and the waiters'. SEM
descriptors acquire, wait, try and release for their function. (11_handlers_scratchpad_semaphores.md R339;
11_handlers_scratchpad_semaphores.md R341; 11_handlers_scratchpad_semaphores.md R342; 11_handlers_scratchpad_semaphores.md
R344; 11_handlers_scratchpad_semaphores.md R345; 11_handlers_scratchpad_semaphores.md R346;
11_handlers_scratchpad_semaphores.md R348; 11_handlers_scratchpad_semaphores.md R350; 11_handlers_scratchpad_semaphores.md
R351) -/
def Obligations.BanksAndSemaphoresServeTheirMasters : Prop :=
  (∀ (s : State) (off : Nat) (bs : List Byte) (a : Nat), s.Ok → s.spd.bad = [] → (s.spdStore off bs).spdByte a =
    if off ≤ a ∧ a < off + bs.length then bs.getD (a - off) 0 else s.spdByte a) ∧
  (∀ (a n b m w : Nat), w ∈ sharedWords a n b m ↔ 0 < n ∧ 0 < m ∧ a / 8 ≤ w ∧ w ≤ (a + n - 1) / 8 ∧ b / 8 ≤ w ∧ w ≤ (b + m - 1) / 8) ∧
  (∀ (addr n : Nat) (rd : Bool) (as : List PortAUse) (x : PortAUse) (ws : List Nat), (x, ws) ∈ collisions addr n rd as ↔
    x ∈ as ∧ ws = sharedWords addr n x.off (memOpLen x.op) ∧ ws ≠ [] ∧ (rd = true → ∃ bs, x.op = .write bs)) ∧
  (∀ (p : HPort) (addr n : Nat) (bs : List Byte) (as : List PortAUse) (s : State), s.endpoint p.val = true →
    (s.stopped = true ∨ s.inSetup 12 = true →
      exec (.scratchpadHostAccess p addr (.read n) as) s = .next ((s.emit (.memDone p.val (List.replicate n 0) false)).done s)) ∧
    (s.stopped = false → s.inSetup 12 = false → 0 < n → addr + n ≤ spdSize → let u := s.pmcEv 12 2 (addr / 2 ^ 20) 0 1
      (u.spdCheck addr n ≠ .ok → exec (.scratchpadHostAccess p addr (.read n) as) s = .next (((u.spdBusyHost p.val).emit
        (.memDone p.val (List.replicate n (if u.spdCheck addr n = .retired then 0xFF else 0)) false)).done s)) ∧
      (u.spdCheck addr n = .ok → let cs := collisions addr n true as
        let x := (u.spdTouch addr n).clashBytes addr n (cs.flatMap (·.2))
        let v := cs.foldl (fun (t : State) c => (t.portA c.1).collide c.2 1) x.2
        let w := if cs ≠ [] ∨ ∃ k ∈ (u.spdTouch addr n).spd.bad, addr < 8 * k + 8 ∧ 8 * k < addr + n then v.spdBusyHost p.val else v
        exec (.scratchpadHostAccess p addr (.read n) as) s = .next ((w.emit (.memDone p.val x.1 false)).done s))) ∧
    (
      let r := s.rxBytes (mHost p.val 0) bs.length
      s.stopped = true ∨ s.inSetup 12 = true →
        exec (.scratchpadHostAccess p addr (.write bs) as) s = .next (r.done s)) ∧
    (s.stopped = false → s.inSetup 12 = false → bs ≠ [] → addr + bs.length ≤ spdSize →
      let u := (s.rxBytes (mHost p.val 0) bs.length).pmcEv 12 2 (addr / 2 ^ 20) 0 1
      (u.spdCheck addr bs.length ≠ .ok →
        exec (.scratchpadHostAccess p addr (.write bs) as) s = .next ((u.spdBusyHost p.val).done s)) ∧
      (u.spdCheck addr bs.length = .ok → let cs := collisions addr bs.length false as
        let w := (cs.foldl (fun (t : State) c => t.portA c.1) (u.spdTouch addr bs.length)).spdStore addr bs
        let v := cs.foldl (fun (t : State) c => t.collide c.2 (match (c.1.op : MemOp) with | .write _ => 0 | .read _ => 1)) w
        ((∃ c ∈ cs, ∃ b, c.1.op = MemOp.write b) →
          exec (.scratchpadHostAccess p addr (.write bs) as) s = .next ((v.spdBusyHost p.val).done s)) ∧
        ((∀ c ∈ cs, ∀ b, c.1.op ≠ MemOp.write b) → exec (.scratchpadHostAccess p addr (.write bs) as) s = .next (v.done s))))) ∧
  (∀ (s : State) (addr n : Nat) (ws : List Nat), let x := s.clashBytes addr n ws
    x.1.length = n ∧ (∀ i, i < n → (addr + i) / 8 ∉ ws → x.1.getD i 0 = s.spdByte (addr + i)) ∧
      (ws = [] → x.2 = s) ∧ ∀ a, x.2.spdByte a = s.spdByte a) ∧
  (∀ (s : State) (x : PortAUse), let u := s.pmcEv 12 1 (x.off / 2 ^ 20) 0 1
    (∀ bs, x.op = .write bs → s.portA x = u.spdStore x.off bs) ∧ (∀ k, x.op = .read k → s.portA x = u)) ∧
  (∀ (off : Nat) (s : State), s.frozen = false → off < spdSize →
    exec (.spdBusyRetry off) s = .next (((s.advance (s.now + 4000)).pmcEv 12 1 (off / 2 ^ 20) 0 1).done s)) ∧
  (∀ (b : BankId) (s : State), let st := s.fld SPD_BANK_CTL.state 0 b.val
    (s.flag SPD_BANK_CTL.retain 0 b.val = true → st = 0 →
      exec (.retentionEntry b) s = .next ((s.setFld SPD_BANK_CTL.state 0 b.val 1).done s)) ∧
    (s.flag SPD_BANK_CTL.retain 0 b.val = false ∨ st ≠ 0 → exec (.retentionEntry b) s = .next (s.done s)) ∧
    (st = 2 → exec (.bankWakeDone b) s = .next ((s.setFld SPD_BANK_CTL.state 0 b.val 0).done s)) ∧
    (st ≠ 2 → exec (.bankWakeDone b) s = .next (s.done s))) ∧
  (∀ (fails : Word) (repairs : List (Nat × Nat)) (s : State),
    (s.spd.march = none → exec (.marchDone fails repairs) s = .next (s.done s)) ∧
    (∀ mask mode, s.spd.march = some (mask, mode) →
      let u := ((({ s with spd := { s.spd with march := none } } : State).setFlag SPD_MARCH_STATUS.running 0 0 false).setFlag
        SPD_MARCH_STATUS.done 0 0 true)
      let w := if u.flag SPD_MARCH_CTL.repair 0 0 then (repairs.filter fun x => bitOf mask.toNat x.1 && x.1 < 64).foldl
        (fun (t : State) x => t.bankRepaired x.1 x.2) u else u
      exec (.marchDone fails repairs) s = .next ((((List.range 64).filter fun b => bitOf mask.toNat b &&
        w.fld SPD_BANK_CTL.state 0 b != 4).foldl (fun (t : State) b => t.bankTested mode b (bitOf fails.toNat b)) w).done s))) ∧
  (∀ (m : Master) (n : SemId) (k : Fin 8) (s : State), directMaster m.toNat = true → (∀ b ∈ s.waits, b.block ≠ 13) →
    let a (z : ReqSize) : WaitAcc := ⟨m.toNat, (RegRef.mk .SEM_ACQ n.val k.val).off, z, none, none, s.now⟩
    let x := s.semAcquire n.val m.toNat k.val
    exec (.semAcquireRead m n k .w32) s = .next ((s.deliver (a .w32) 0 false).done s) ∧
    exec (.semAcquireRead m n k .w64) s = .next ((x.2.deliver (a .w64) (semWord (x.2.semOf n.val) x.1) false).done s)) ∧
  (∀ (s : State) (n m k : Nat), let v := s.semOf n
    let mine := v.waiters.any fun w => w.master == m
    (s.inSetup 13 = true → s.semAcquire n m k = (6, s)) ∧
    (s.inSetup 13 = false → v.holder = some m → s.semAcquire n m k = (7, s)) ∧
    (s.inSetup 13 = false → v.holder = none → v.reserved = none ∨ v.reserved = some m → s.semAcquire n m k =
      (if v.orphan then 3 else 1, (s.setSem n { v with
        holder := some m, orphan := false, reserved := none, prio := k
        waiters := v.waiters.filter fun w => w.master != m }).pmcEv 13 1 n 0 1)) ∧
    (s.inSetup 13 = false → v.holder ≠ some m → v.holder ≠ none ∨ (v.reserved ≠ none ∧ v.reserved ≠ some m) →
      (64 ≤ v.waiters.length → mine = false → s.semAcquire n m k = (6, s.pmcEv 13 2 n 0 1)) ∧
      (v.waiters.length < 64 ∨ mine = true → s.semAcquire n m k =
        (2, ((s.setSem n (semRegister v m k)).semInherit n v.eff).pmcEv 13 2 n 0 1)))) ∧
  (∀ (v : Semaphore), v.prio ≤ v.eff ∧ (∀ w ∈ v.waiters, w.prio ≤ v.eff) ∧ (v.eff = v.prio ∨ ∃ w ∈ v.waiters, w.prio = v.eff)) ∧
  (∀ (ws : List SemWaiter), (bestWaiter ws = none ↔ ws = []) ∧ ∀ w, bestWaiter ws = some w → w ∈ ws ∧
    ∀ v ∈ ws, v.prio < w.prio ∨ v.prio = w.prio ∧ w.seq ≤ v.seq) ∧
  (∀ (n : SemId) (s : State), ((s.semOf n.val).reserved = none → exec (.grantWindowExpire n) s = .next (s.done s)) ∧
    ((s.semOf n.val).reserved ≠ none → let u := s.advance ((s.semOf n.val).reservedAt + us (max 1 (s.fld SEM_CTL.grant_window_us 0 0)))
      let v := u.semOf n.val
      (v.waiters = [] → exec (.grantWindowExpire n) s =
        .next ((u.setSem n.val { v with holder := none, reserved := none, prio := 0 }).done s)) ∧
      (∀ w, bestWaiter v.waiters = some w → exec (.grantWindowExpire n) s = .next (((u.setSem n.val { v with
        holder := none, prio := 0, reserved := some w.master, reservedAt := u.now
        waiters := v.waiters.filter fun x => x.master != w.master }).semWake w.master).done s)))) ∧
  (∀ (s : State) (h : Handle), s.handle? h.ref = some h → s.dispatchable h = true → dOpcode h.desc = 11 →
    let u := (s.ctxUse h.ctx).stampFirst 1 (handleKey h.ref) 4
    let m := mHost (u.ctx h.ctx).port (u.ctx h.ctx).func
    let n := dget h.desc 16 5 0
    let k := if dUrgent h.desc then 7 else 1 + dClass h.desc
    let own (i : Instr) : Prop := (i, dSub h.desc) ∈ [(Instr.semAcquireWait h.ref, 1), (.semTry h.ref, 2), (.semRelease h.ref, 3)]
    (∀ i, own i → u.inSetup 13 = true → exec i s = .next ((u.hold h).done s)) ∧
    (∀ i, own i → u.inSetup 13 = false → u.lcntBad h = true → exec i s = .next ((u.finish h.ref 0x18 1).done s)) ∧
    (u.inSetup 13 = false → u.lcntBad h = false →
      (dSub h.desc = 2 → let x := u.semAcquire n m k
        exec (.semTry h.ref) s = .next ((x.2.complete h.ref 0 0 0 (BitVec.ofNat 64 x.1)).done s)) ∧
      (dSub h.desc = 3 → (u.semOf n).holder = some m →
        exec (.semRelease h.ref) s = .next (((u.semFree n false).complete h.ref 0 0 0 4).done s)) ∧
      (dSub h.desc = 3 → (u.semOf n).holder ≠ some m →
        exec (.semRelease h.ref) s = .next (((u.faultBy 13 0 m n).complete h.ref 0 0 0 5).done s)) ∧
      (dSub h.desc = 1 → let w := u.setHandle { h with phase := .waiting }
        let x := w.semAcquire n m k
        (w.semFor n m = true → exec (.semAcquireWait h.ref) s =
          .next ((x.2.complete h.ref 0 0 0 (BitVec.ofNat 64 x.1)).done s)) ∧
        ((w.semOf n).holder = some m → exec (.semAcquireWait h.ref) s = .next (w.done s)) ∧
        (w.semFor n m = false → (w.semOf n).holder ≠ some m → exec (.semAcquireWait h.ref) s = .next (x.2.done s)))))

/-- An event that finds first_valid at 0 makes the first record. Whatever the block, its source, the severity and whether the
event is injected, fatal or stops the device: with first_valid 0 the event leaves, before any device stop, FLT_FIRST with its
severity (3 where it is fatal, 2 where it makes its source severe, 0 where the source is counted only, else 1), injected bit,
source, master and detail, FLT_FIRST_TIME with the fabric time, first_valid 1 and also_count 0. (12_faults.md R367) -/
def Obligations.TheFirstEventMakesTheRecord : Prop :=
  ∀ (s : State) (blk src m detail : Nat) (inj fatal : Bool) (sp : SrcSpec), s.Ok → blk < 20 → sourceSpec blk src = some sp →
    s.flag FLT_STATUS.first_valid blk 0 = false →
    let stop := fatal = true ∨ sp.react = .deviceStop
    let e := s.event blk src m detail inj fatal
    ∃ t : State, (e = t ∨ stop ∧ e = t.deviceStop blk src) ∧
      t.flag FLT_STATUS.first_valid blk 0 = true ∧ t.fld FLT_STATUS.also_count blk 0 = 0 ∧
      t.fld FLT_FIRST.severity blk 0 = (if stop then 3
        else if s.flag FLT_COUNT.severe blk src = false ∧ t.flag FLT_COUNT.severe blk src = true then 2
        else if s.fld FLT_THRESH.n_events blk src = 0 then 0 else 1) ∧
      t.flag FLT_FIRST.injected blk 0 = inj ∧ t.fld FLT_FIRST.source blk 0 = src ∧
      t.fld FLT_FIRST.master blk 0 = m % 2 ^ 24 ∧ t.fld FLT_FIRST.detail blk 0 = detail % 2 ^ 24 ∧
      t.fld FLT_FIRST_TIME.time blk 0 = s.fabric

/-- Fault windows, the escalation timer, injection, and the errors of arrays, memories, cores, crossbar and units. An event of
a source adds 1 to its total; while first_valid is 1 it makes no new record. A window that ends leaves win_count 0. At the
timer's expiry with hw_enable 1 the reaction of every pending source is carried out by rising index, with hw_enable 0 none. An
injected event comes at its time. A tested slice has its columns repaired and goes on to the next; after the eighth the test
ends, or the bank is retired if a slice failed. A copy's end takes the channel away, a row repair uses a spare row or counts
again. Errors of arrays count, and stop the device when uncorrectable; an HBM, scratchpad, cache or TLB, crossbar or
reduction-unit error counts at its source and acts on its word, entry, packet or segments. A stopped device's data-path events
change nothing. (12_faults.md R363; 12_faults.md R366; 12_faults.md R369; 12_faults.md R372; 12_faults.md R373; 12_faults.md
R378; 12_faults.md R379; 12_faults.md R383; 12_faults.md R385; 12_faults.md R386; 12_faults.md R387;
11_handlers_scratchpad_semaphores.md R339) -/
def Obligations.FaultsAreCountedEscalatedAndRepaired : Prop :=
  (∀ (s : State) (blk src m detail : Nat) (inj : Bool) (sp : SrcSpec), s.Ok → blk < 20 → sourceSpec blk src = some sp →
    sp.react ≠ .deviceStop → let t := s.event blk src m detail inj false
    t.fld FLT_COUNT.total blk src = (s.fld FLT_COUNT.total blk src + 1) % 2 ^ 48 ∧
    (s.flag FLT_COUNT.severe blk src = true → t.flag FLT_COUNT.severe blk src = true ∧
      t.fld FLT_COUNT.win_count blk src = s.fld FLT_COUNT.win_count blk src ∧ t.flt.esc = s.flt.esc) ∧
    (s.flag FLT_STATUS.first_valid blk 0 = true → SMap.find? s.flt.firstAt blk ≠ some s.cycle →
      t.reg ⟨.FLT_FIRST, blk, 0⟩ = s.reg ⟨.FLT_FIRST, blk, 0⟩ ∧
      t.fld FLT_STATUS.also_count blk 0 = min (s.fld FLT_STATUS.also_count blk 0 + 1) (2 ^ 32 - 1) ∧
      bitOf (t.reg ⟨.FLT_ALSO, blk, src / 64⟩).toNat (src % 64) = true)) ∧
  (∀ (b : BlkId) (n : Nat) (s : State),
    (SMap.find? s.flt.wins (srcKey b.val n) = none → exec (.faultWindowEnd b n) s = .next (s.done s)) ∧
    (∀ w, SMap.find? s.flt.wins (srcKey b.val n) = some w → let u := s.advance (w.ends + 1)
      exec (.faultWindowEnd b n) s = .next ((({ u with flt := { u.flt with
        wins := SMap.erase u.flt.wins (srcKey b.val n) } } : State).setFld FLT_COUNT.win_count b.val n 0).done s))) ∧
  (∀ (b : BlkId) (s : State),
    (SMap.find? s.flt.esc b.val = none → exec (.escalationExpire b) s = .next (s.done s)) ∧
    (∀ t, SMap.find? s.flt.esc b.val = some t → let u := s.advance t
      let w : State := { u with flt := { u.flt with esc := SMap.erase u.flt.esc b.val } }
      (w.flag FLT_ESC_ACTION.hw_enable b.val 0 = false → exec (.escalationExpire b) s = .next (w.done s)) ∧
      (w.flag FLT_ESC_ACTION.hw_enable b.val 0 = true → exec (.escalationExpire b) s =
        .next ((((List.range 2048).filter fun n => (sourceSpec b.val n).isSome && w.flag FLT_COUNT.pending b.val n).foldl
          (fun (t : State) n => t.carryOut b.val n) w).done s)))) ∧
  (∀ (b : BlkId) (s : State), (SMap.find? s.flt.inj b.val = none → exec (.faultInjectTick b) s = .next (s.done s)) ∧
    (∀ x, SMap.find? s.flt.inj b.val = some x → SMap.find? (s.advance x.next).flt.inj b.val = some x →
      exec (.faultInjectTick b) s = .next (((s.advance x.next).injectOne b.val x).done s))) ∧
  (∀ (b : BankId) (pass : Bool) (n : Nat) (s : State),
    (SMap.find? s.spd.slices b.val = none → exec (.marchSliceDone b ⟨pass, n⟩) s = .next (s.done s)) ∧
    (∀ k, SMap.find? s.spd.slices b.val = some k → let u := s.bankRepaired b.val n
      let f (m : SMap Nat) : State := { u with spd := { u.spd with slices := m } }
      let failed := !pass || decide (8 ≤ k)
      (k % 8 = 7 → failed = true → exec (.marchSliceDone b ⟨pass, n⟩) s = .next ((u.bankRetire b.val).done s)) ∧
      (k % 8 = 7 → failed = false → exec (.marchSliceDone b ⟨pass, n⟩) s = .next ((f (SMap.erase u.spd.slices b.val)).done s)) ∧
      (k % 8 ≠ 7 → exec (.marchSliceDone b ⟨pass, n⟩) s =
        .next ((f (SMap.insert u.spd.slices b.val (k % 8 + 1 + 8 * b2n failed))).done s)))) ∧
  (∀ (c : Nat) (s : State),
    (c ∉ s.pwr.copying → exec (.pseudoChannelCopyDone c) s = .next (s.done s)) ∧
    (c ∈ s.pwr.copying → let u : State := { s with pwr := { s.pwr with copying := s.pwr.copying.erase c, gone := s.pwr.gone ++ [c] } }
      exec (.pseudoChannelCopyDone c) s = .next (({ u with fmem := u.fmem.filter fun x => x.1 < u.fmemSize } : State).done s)) ∧
    (c ∉ s.pwr.repairing → exec (.hbmRowRepairDone c) s = .next (s.done s)) ∧
    (c ∈ s.pwr.repairing → let n := s.repairsOf (c / 32)
      let u : State := { s with pwr := { s.pwr with repairing := s.pwr.repairing.erase c } }
      (Config.spareRow (c / 32) n = true → exec (.hbmRowRepairDone c) s =
        .next (({ u with pwr := { u.pwr with repairs := SMap.insert s.pwr.repairs (c / 32) (n + 1) } } : State).done s)) ∧
      (Config.spareRow (c / 32) n = false → exec (.hbmRowRepairDone c) s = .next ((u.fault 19 (4 * c) c).done s)))) ∧
  (∀ (b : BlkId) (unc : Bool) (s : State),
    exec (.sramError b unc) s = .next ((s.fault b.val (if unc then 2046 else 2045) 0).done s)) ∧
  (∀ (a : Nat) (s : State), a < 144 * 2 ^ 30 →
    exec (.hbmReadError a false) s = .next ((s.fault 19 (4 * hbmChannel a) (hbmChannel a)).done s) ∧
    exec (.hbmReadError a true) s = .next ((s.hbmUncorrected a).done s)) ∧
  (∀ (a : Nat) (s : State), a < 64 * 2 ^ 20 → let b := a / 2 ^ 20
    exec (.scratchpadEccError a false) s = .next ((s.fault 12 (4 * b) b).done s) ∧
    (a / 8 ∉ s.spd.bad → exec (.scratchpadEccError a true) s =
      .next ((({ s with spd := { s.spd with bad := s.spd.bad ++ [a / 8] } } : State).fault 12 (4 * b + 1) b).done s)) ∧
    (a / 8 ∈ s.spd.bad → exec (.scratchpadEccError a true) s = .next ((s.fault 12 (4 * b + 1) b).done s))) ∧
  (∀ (c : CoreId) (s : State), let x := (s.fault 11 (4 * c.val) c.val).fresh 16
    let v := x.2.core c.val
    let k := x.1.toNat % max 1 (v.icache.length + v.dcache.length)
    (k < v.icache.length → exec (.cacheParityError c false) s =
      .next ((x.2.setCore c.val { v with icache := v.icache.eraseIdx k }).done s)) ∧
    (v.icache.length ≤ k → exec (.cacheParityError c false) s =
      .next ((x.2.setCore c.val { v with dcache := v.dcache.eraseIdx (k - v.icache.length) }).done s))) ∧
  (∀ (c : CoreId) (s : State), let x := (s.fault 11 (4 * c.val + 1) c.val).fresh 16
    let v := x.2.core c.val
    let all := (v.itlb ++ v.dtlb ++ v.l2).filter (!·.locked)
    (all = [] → exec (.cacheParityError c true) s = .next (x.2.done s)) ∧
    (all ≠ [] → ∃ e ∈ all, exec (.cacheParityError c true) s = .next ((x.2.setCore c.val (v.tlbDrop fun y => y == e)).done s))) ∧
  (∀ (p : FPort) (id : Nat) (u : Fin 8) (s : State),
    exec (.crossbarError p id) s = .next (((s.fault 8 (8 + p.val) p.val).poisonPkt id).done s) ∧
    exec (.cscUnitError u) s = .next (((s.fault 7 (8 + u.val) u.val).unitLost u.val).done s)) ∧
  (∀ (i : Instr) (p : FPort) (id : Nat) (l : Lane) (s : State), s.stopped = true →
    i ∈ [Instr.linkBlockSend p, .nakRepeatTimer p, .replayTimeout p, .canaryTick p, .timeSendTimer p, .bringupRetry p, .hintRefresh,
      .lineStateTimer, .holdExpire id, .heldPacketRoute id, .trainingTimeout l, .alignTimeout p, .handlerDispatch,
      .triggerQueueRelease, .tlbAgerTick] → exec i s = .next (s.done s))

/-- Journal acknowledgements, restatement cycles, the lag's rate, seals, power failure, replay and quarantine. A record fills
whole 64-byte units and is staged under the next lsn at the next place, after a pad where it does not fit; the lag is the
staged bytes; staged records are written in order, each once. An acknowledgement ends the oldest staged record, and a draining
seal goes on; a refused write counts and is made again while the target is not lost. A cycle's end restates every live object,
moves the tail to its beginning and starts the next. PWRFAIL_N, low for 1.02 µs with power good, is marked; after boot, unless
the data path is stopped already, it seals with cause 1 from the falling edge. A GPF seal has two phases; a flush's end ends
the seal. Replay applies the ring's records in order to empty tables and releases the blocks; data that cannot be read is not
trusted, code 6; quarantine ends at its time. (13_reservoir.md R390; 13_reservoir.md R394; 13_reservoir.md R395;
13_reservoir.md R397; 13_reservoir.md R398; 13_reservoir.md R399; 13_reservoir.md R401; 13_reservoir.md R404; 13_reservoir.md
R405; 13_reservoir.md R412; 17_package_electrical.md R477; 17_package_electrical.md R478) -/
def Obligations.TheJournalIsAcknowledgedRestatedSealedAndReplayed : Prop :=
  (∀ (s : State) (r : JRec) (lsn : Nat), (JRec.toBytes s r lsn).length = 64 * (JRec.layout s r).2.1) ∧
  (∀ (s : State) (r : JRec), let n := 64 * (JRec.layout s r).2.1
    let at_ (u : State) (x : JRec) (m : Nat) : State := { u with rsv := { u.rsv with
      nextLsn := u.rsv.nextLsn + 1, ringOff := if u.ringBytes ≤ u.rsv.ringOff + m then 0 else u.rsv.ringOff + m
      staged := u.rsv.staged ++ [⟨u.rsv.nextLsn, x, u.rsv.ringOff, JRec.toBytes u x u.rsv.nextLsn, false, false⟩] } }
    (s.rsv.ringOff + n ≤ s.ringBytes → s.stage r = at_ s r n ∧ (s.stage r).lag = s.lag + n) ∧
    (s.ringBytes < s.rsv.ringOff + n → s.stage r = at_ (at_ s .pad 64) r n ∧ (s.stage r).lag = s.lag + 64 + n)) ∧
  (∀ s : State, let t := s.journalFlush
    t.rsv.staged = s.rsv.staged.map (fun x => { x with written := true }) ∧ t.lag = s.lag ∧
    ((∀ x ∈ s.rsv.staged, x.written = true) → t = s) ∧
    ((∃ x ∈ s.rsv.staged, x.written = false) →
      let u : State := (s.rsv.staged.filter fun x => !x.written).foldl
        (fun (u : State) (x : Staged) => u.targetWrite (0x2000 + x.off) x.data) s
      t = { u with rsv := { u.rsv with staged := u.rsv.staged.map fun x => { x with written := true } } })) ∧
  (∀ (ok : Bool) (s : State), (s.rsv.staged = [] → exec (.journalWriteCompletion ok) s = .next (s.done s)) ∧
    (∀ x rest, s.rsv.staged = x :: rest →
      exec (.journalWriteCompletion true) s = .next (({ s with rsv := { s.rsv with staged := rest } } : State).sealDrain.done s) ∧
      (s.targetError.rsv.staged = [] → exec (.journalWriteCompletion false) s = .next (s.targetError.done s)) ∧
      (s.targetError.rsv.staged ≠ [] → exec (.journalWriteCompletion false) s =
        .next ((s.targetError.targetWrite (0x2000 + x.off) x.data).done s)))) ∧
  (∀ s : State, let u := s.fault 14 1 0
    let recent := (u.rsv.errors.filter fun t => u.now < t + ms 1) ++ [u.now]
    let w : State := { u with rsv := { u.rsv with errors := recent } }
    s.targetError = if 3 ≤ recent.length then w.targetLost else w) ∧
  (∀ s : State, (s.rsvOn = false → exec .restatementCycleEnd s = .next (s.done s)) ∧
    (s.rsvOn = true → let recs := s.liveRecords
      let u := recs.foldl (fun (t : State) r => t.stage r) s
      let u := u.stage (.cycle u.rsv.cycle false)
      let u : State := { u with rsv := { u.rsv with tailLsn := u.rsv.cycleLsn, tailOff := u.rsv.cycleOff, cycle := u.rsv.cycle + 1 } }
      let u := u.setFld RSV_USAGE.live_mib 0 0 ((recs.map fun r => 64 * (JRec.layout u r).2.1).sum / 2 ^ 20)
      let u := if u.flag RSV_STATUS.target_lost 0 0 then u else u.setFlag RSV_STATUS.protected 0 0 true
      exec .restatementCycleEnd s = .next ((u.superblock 0 0 0 0).cycleBegin.done s))) ∧
  (∀ (rate : Nat) (s : State), (s.rsvOn = false → exec (.lagRateTick rate) s = .next (s.done s)) ∧
    (s.rsvOn = true → let u := s.advance ((s.now / ms 1 + 1) * ms 1)
      exec (.lagRateTick rate) s = .next (({ u with rsv := { u.rsv with rate := rate } } : State).done s))) ∧
  (∀ s : State, (s.rsvHeld = true → exec .reportHoldRelease s = .next (s.done s)) ∧
    (s.rsvHeld = false → exec .reportHoldRelease s = .next (s.noteHolds.done s))) ∧
  (∀ s : State, (s.pwr.pfLow = false ∨ s.pwr.pwrgood = false → exec .pwrfailTaken s = .next (s.done s)) ∧
    (s.pwr.pfLow = true → s.pwr.pwrgood = true →
      let u := (s.advance (s.pwr.pfAt + 1020000)).setFlag PWR_STATUS.pwrfail_seen 0 0 true
      (u.sec.step < 10 ∨ u.rsv.halt = true → exec .pwrfailTaken s = .next (u.done s)) ∧
      (10 ≤ u.sec.step → u.rsv.halt = false → exec .pwrfailTaken s =
        .next ((((if u.rsvOn then u else u.squelchAll).sealStart 1).sealFromEdge).done s)))) ∧
  (∀ s : State, (s.pwr.pfLow = true → exec .pwrfailFall s = .next (s.done s)) ∧
    (s.pwr.pfLow = false → exec .pwrfailRise s = .next (s.done s)) ∧
    (s.pwr.pfLow = false → let u := s.bootWaitEdge true
      exec .pwrfailFall s = .next ((({ u with pwr := { u.pwr with pfLow := true, pfAt := u.now } } : State).setFlag
        PWR_STATUS.pwrfail 0 0 true).done s)) ∧
    (s.pwr.pfLow = true → let u := s.bootWaitEdge false
      exec .pwrfailRise s = .next ((({ u with pwr := { u.pwr with pfLow := false, pfAt := u.now } } : State).setFlag
        PWR_STATUS.pwrfail 0 0 false).done s))) ∧
  (∀ (s : State) (low : Bool), s.sec.step ≠ 9 → s.bootWaitEdge low = s) ∧
  (∀ s : State, (s.rsv.sealing = none → exec .sealFlushComplete s = .next (s.done s)) ∧
    (∀ x, s.rsv.sealing = some x → let u := s.dropOther .seal
      (x.stage = 0 → exec .sealFlushComplete s = .next (u.done s)) ∧
      (x.stage = 1 → u.fld RSV_TARGET.kind 0 0 = 1 → let w : State := { u with rsv := { u.rsv with sealing := some { x with stage := 2 } } }
        exec .sealFlushComplete s =
          .next ((w.emit (.dsGpf (w.fld RSV_TARGET.port 0 0) (w.fld RSV_TARGET.sublink 0 0) 2)).done s)) ∧
      (1 ≤ x.stage → x.stage ≠ 1 ∨ u.fld RSV_TARGET.kind 0 0 ≠ 1 → exec .sealFlushComplete s = .next ((u.sealEnd x).done s)))) ∧
  (∀ (readable : Bool) (t : Nat) (s : State),
    (s.fld RSV_STATUS.state 0 0 ≠ 1 → exec (.replayComplete readable t) s = .next (s.done s)) ∧
    (s.fld RSV_STATUS.state 0 0 = 1 → let u := s.advance (s.sec.bootAt + ms t)
      exec (.replayComplete true t) s = .next ((u.replay.endReplayCores.releaseBlocks replayBlocks).done s) ∧
      (let w : State := { u with rsv := { u.rsv with ring := [] } }
       let v := ((w.fault 14 1 0).setFld RSV_STATUS.state 0 0 0).endReplayCores
       exec (.replayComplete false t) s = .next ((v.distrust 6 replayBlocks).done s)))) ∧
  (∀ s : State, let u := ((splitRecords s.rsv.ring.length s.rsv.ring).foldl State.replayOne s.replayClear).replayFinish
    let u := (u.setFld RSV_REPLAY.contexts 0 0 u.ctxs.length).setFld RSV_REPLAY.replay_ms 0 0 ((u.now - u.sec.bootAt) / ms 1)
    let u := (u.setFld RSV_STATUS.state 0 0 2).setFlag RSV_STATUS.replayed 0 0 true
    let u : State := { u with rsv := { u.rsv with replayed := true, ring := [], cycle := max 1 u.rsv.cycle } }
    s.replay = ((u.liveRecords.foldl (fun (t : State) r => t.stage r) u).superblock 0 0 0 0).cycleBegin) ∧
  (∀ s : State, (s.rsv.quarantineEnd = none → exec .quarantineExpire s = .next (s.done s)) ∧
    (∀ t, s.rsv.quarantineEnd = some t → let u := s.advance t
      exec .quarantineExpire s = .next (({ u with rsv := { u.rsv with quarantineEnd := none } } : State).done s)))

/-- The steps of power-up from PWRGOOD to the release of the blocks, and the boot watchdog. PWRGOOD starts step 1 with the
clocks good, the rails of its mask and a marker; fuses, PLLs and the slot headers follow, each only after the step before it.
A device's fuses are those first sensed, and its identity follows from their seed. The candidate is the slot whose checks
pass, of the higher sequence, A where they are equal; without one boot fails. A refused firmware section or write list tries
the other slot once; otherwise the lists have been applied, the natural port map stands where they give none, and step 6 is
reached. HBM trains and is zeroed, which releases XLT; the firmware is loaded only then, its cores run and march the
scratchpad. Once the march has ended, the release goes to replay when the journal passes its checks, else records the code and
opens the quarantine, releasing every block. The watchdog, which does not count the wait for PWRFAIL_N, resets once, then
fails. A command out of its step changes nothing. A fall of PWRGOOD resets the device. (14_boot_security_log.md R416;
14_boot_security_log.md R418; 14_boot_security_log.md R421; 14_boot_security_log.md R422; 08_routing.md R234; 13_reservoir.md
R403; 13_reservoir.md R404; 13_reservoir.md R405; 04_contexts_and_translation.md R133; 17_package_electrical.md R476;
17_package_electrical.md R478; log entry 141) -/
def Obligations.PowerUpGoesStepByStep : Prop :=
  (∀ (a : Nat) (rails : BitVec 13) (s : State), (s.pwr.pwrgood = true → exec (.pwrgoodRise ⟨a, rails⟩) s = .next (s.done s)) ∧
    (s.pwr.pwrgood = false → let u : State := { s with
        pwr := { s.pwr with pwrgood := true }
        sec := { SecState.init with
          svnFused := s.sec.svnFused, fuses := s.sec.fuses, step := 1, bootAt := s.now, cause := 1, addrSel := a % 4 } }
      exec (.pwrgoodRise ⟨a, rails⟩) s = .next ((((((u.setFld PWR_STATUS.rail_ok 0 0 rails.toNat).setFld
        PWR_STATUS.host_ref_ok 0 0 0xFF).setFld PWR_STATUS.fab_ref_ok 0 0 0xF).setFlag
          PWR_STATUS.core_ref_ok 0 0 true).logMarker 1 0 1).done s))) ∧
  (∀ (k : Nat) (x : FuseKeys) (rs : List (Nat × Nat)) (s : State), (s.sec.step ≠ 1 → exec (.bootFusesSensed k x rs) s = .next (s.done s)) ∧
    (s.sec.step = 1 → ∀ g, g = s.sec.fuses.getD ⟨k, x.seed, x.svnMin, x.vendorKeys, x.ownerKeys, rs⟩ →
      let w := if s.fld PWR_STATUS.rail_ok 0 0 = 0x1FFF then s
        else (s.advance (s.now + ms 1)).setFld PWR_STATUS.rail_ok 0 0 0x1FFF
      let v := w.atStep 2
      let v : State := { v with sec := { v.sec with fuses := some g } }
      let u := (v.setFld TOP_PART_INFO.stepping 0 0 g.stepping).setFld SEC_IDENTITY.identity 0 0 (identityOf g.seed)
      exec (.bootFusesSensed k x rs) s =
        .next (((u.setFld SEC_SVN.svn_min 0 0 (max (g.svnMin % 2 ^ 32) u.sec.svnFused)).spdFuses g.spdRepairs).done s))) ∧
  (∀ s : State, (s.sec.step ≠ 2 → exec .bootPllLocked s = .next (s.done s)) ∧
    (s.sec.step = 2 → exec .bootPllLocked s = .next (((s.atStep 3).setFld PWR_STATUS.pll_lock 0 0 0x3F).done s))) ∧
  (∀ (a b : Nat) (s : State), (s.sec.step ≠ 3 → exec (.bootHeadersChecked a b) s = .next (s.done s)) ∧
    (s.sec.step = 3 →
      let u := (((s.atStep 4).setSlotCode 0 (s.headerCode 0)).setSlotCode 1 (s.headerCode 1)).setFld SEC_BOOT_STATUS.state 0 0 1
      let pick (c : Nat) : State := { u with sec := { u.sec with cand := c } }
      (u.slotCode 0 ≠ 0 → u.slotCode 1 ≠ 0 → exec (.bootHeadersChecked a b) s = .next (u.bootFailed.done s)) ∧
      (u.slotCode 0 = 0 → u.slotCode 1 ≠ 0 ∨ u.slotSeq 1 ≤ u.slotSeq 0 → exec (.bootHeadersChecked a b) s = .next ((pick 0).done s)) ∧
      (u.slotCode 1 = 0 → u.slotCode 0 ≠ 0 ∨ u.slotSeq 0 < u.slotSeq 1 → exec (.bootHeadersChecked a b) s = .next ((pick 1).done s)))) ∧
  (∀ (a b : Nat) (ds : List (Nat × Word)) (ref : Bool) (s : State),
    (s.sec.step ≠ 4 ∨ s.fld SEC_BOOT_STATUS.state 0 0 ≠ 1 → exec (.bootFirmwareVerified a b ds ref) s = .next (s.done s)) ∧
    (s.sec.step = 4 → s.fld SEC_BOOT_STATUS.state 0 0 = 1 → let code := s.firmwareCode s.sec.cand
      let ws := s.writeList s.sec.cand
      let x := (s.applyDefaults ds).applyList ws
      (code ≠ 0 → exec (.bootFirmwareVerified a b ds ref) s = .next ((s.candidateBad code).done s)) ∧
      (code = 0 → x.2 = false → exec (.bootFirmwareVerified a b ds ref) s = .next ((x.1.candidateBad 8).done s)) ∧
      (code = 0 → x.2 = true →
        let u := (if suppliesMap (ds.map (·.1) ++ ws.map (·.1)) = true then x.1 else x.1.naturalMap).loadSlot
        exec (.bootFirmwareVerified a b ds ref) s =
          .next ((({ u with lnk := { u.lnk with timeRef := ref } } : State).atStep 6).done s)))) ∧
  (∀ (s : State) (p : Nat), s.Ok → p < 141 → s.naturalMap.fld RTE_PORT_MAP.peer 0 p =
    if p % 47 < s.coord (p / 47) then p % 47 else p % 47 + 1) ∧
  (∀ (s : State) (ws : List (Nat × Bool × Word)), (s.applyList ws).2 = true → ∀ w ∈ ws, listEntryOk w.1 = true ∧ w.2.1 = true) ∧
  (∀ (s : State) (code : Nat), let u := s.setSlotCode s.sec.cand code
    (s.sec.tried = true → s.candidateBad code = u.bootFailed) ∧
    (s.sec.tried = false → u.slotCode (1 - s.sec.cand) = 0 →
      s.candidateBad code = { u with sec := { u.sec with cand := 1 - s.sec.cand, tried := true } }) ∧
    (u.slotCode (1 - s.sec.cand) ≠ 0 → s.candidateBad code = u.bootFailed)) ∧
  (∀ s : State,
    (3 ≤ s.sec.step → s.sec.hbmTrained = false →
      exec .hbmTrained s = .next (({ s with sec := { s.sec with hbmTrained := true } } : State).done s)) ∧
    (s.sec.step < 3 ∨ s.sec.hbmTrained = true → exec .hbmTrained s = .next (s.done s)) ∧
    (s.sec.hbmTrained = true → s.log.ring = false → let u : State := { s with
        fmem := [], hmem := [], xlt := { s.xlt with wins := [], table := [], cache := [] }, pmc := { s.pmc with buf := [] }
        pwr := { s.pwr with hbmBad := [] }, log := { s.log with ring := true } }
      exec .hbmZeroed s = .next ((if s.pwr.xltWaits then
        ({ u with pwr := { u.pwr with xltWaits := false } } : State).setDone 4 true else u).done s)) ∧
    (s.sec.hbmTrained = false → exec .hbmZeroed s = .next (s.xltRelease.done s)) ∧
    (s.sec.step = 6 → s.log.ring = true →
      let u : State := { s with hmem := s.hmem.write 0 (s.fwSection s.sec.cand) }
      let u := (((u.atStep 9).setFld SEC_BOOT_STATUS.state 0 0 2).startFwCores).bootWait
      let u := u.fwWrite ⟨.SPD_MARCH_MASK, 0, 0⟩ (BitVec.allOnes 64)
      exec .firmwareLoaded s = .next ((u.fwWrite ⟨.SPD_MARCH_CTL, 0, 0⟩
        (SPD_MARCH_CTL.start.mask ||| SPD_MARCH_CTL.repair.mask)).done s)) ∧
    (s.sec.step ≠ 6 ∨ s.log.ring = false → exec .firmwareLoaded s = .next (s.done s))) ∧
  (∀ (j : JournalRead) (s : State),
    (s.sec.step ≠ 9 ∨ s.pwr.pfLow = true ∨ s.spd.march ≠ none ∨ s.fld SEC_BOOT_STATUS.state 0 0 = 3 →
      exec (.bootRelease j) s = .next (s.done s)) ∧
    (s.sec.step = 9 → s.pwr.pfLow = false → s.spd.march = none → s.fld SEC_BOOT_STATUS.state 0 0 ≠ 3 →
      let c := s.journalCheck j
      let u := ((s.advance (s.pwr.pfAt + ms 10)).atStep 10).takeJournal j (c == 0)
      (c = 0 → exec (.bootRelease j) s =
        .next (((u.setFld RSV_STATUS.state 0 0 1).startReplayCores.releaseBlocks (2 ^ 20 - 1 - replayBlocks)).done s)) ∧
      (c ≠ 0 → let q := u.fld RSV_CFG.quarantine_ms 0 0
        let w := u.setFld RSV_STATUS.untrusted 0 0 c
        exec (.bootRelease j) s = .next (((if q = 0 then w else
          { w with rsv := { w.rsv with quarantineEnd := some (w.sec.bootAt + ms q) } }).releaseBlocks (2 ^ 20 - 1)).done s)))) ∧
  (∀ (j : JournalRead) (s : State), (s.flag RSV_CFG.enable 0 0 = false ↔ s.journalCheck j = 1) ∧
    (s.journalCheck j = 0 → j.readable = true ∧ s.targetReady = true ∧ ∃ sb, validCopy j.copies = some sb ∧ bytesAt sb 80 1 = 1 ∧
      bytesAt sb 16 8 = s.fld SEC_IDENTITY.identity 0 0 ∧ s.dirtyCount ≤ bytesAt sb 72 8)) ∧
  (∀ s : State, let late := 10 ≤ s.sec.step ∨ s.fld SEC_BOOT_STATUS.state 0 0 = 3 ∨ s.sec.waitFrom ≠ none
    (s.pwr.pwrgood = false ∨ late → exec .bootWatchdogExpire s = .next (s.done s)) ∧
    (s.pwr.pwrgood = true → ¬late → let u := s.advance (s.sec.bootAt + ms 1000 + s.sec.waited)
      (u.sec.dogUsed = true → exec .bootWatchdogExpire s = .next (u.bootFailed.done s)) ∧
      (u.sec.dogUsed = false → exec .bootWatchdogExpire s =
        .next ((({ u with sec := { u.sec with dogUsed := true } } : State).deviceReset 3).done s)))) ∧
  (∀ s : State, (s.pwr.pwrgood = false → exec .pwrgoodFall s = .next (s.done s)) ∧
    (s.pwr.pwrgood = true → let u := s.resetOutputs.cleared
      let w : State := { u with pwr := { u.pwr with pwrgood := false }, sec := { u.sec with dogUsed := false } }
      exec .pwrgoodFall s = .next (((((w.setFld PWR_STATUS.rail_ok 0 0 0).setFld PWR_STATUS.host_ref_ok 0 0 0).setFld
        PWR_STATUS.fab_ref_ok 0 0 0).setFld PWR_STATUS.core_ref_ok 0 0 0).done s)))

/-- The end of a verify and of an activation, the flash, and the quote. A verify that runs ends verified with the slot's
measurement and svn, its firmware copied into the workspace, or refused with the code of the first check that fails. New code
that reports ready in an activation is the running code, with its svn and a marker; 500 µs without it bring the old code back.
A read of the flash data register gives 8 bytes at the flash address and moves on by 8, or zero while the flash is busy; the
end of a program or erase clears busy. A quote has 416 bytes, whose first 352 are the body that the signature after them
covers, and its end clears busy. (The signature is an opaque function, log entry 8.) (14_boot_security_log.md R430;
14_boot_security_log.md R431; 14_boot_security_log.md R432; 14_boot_security_log.md R438; 14_boot_security_log.md R440) -/
def Obligations.FirmwareIsUpdatedFlashedAndAttested : Prop :=
  (∀ (place : Nat) (s : State), (s.updState ≠ 1 → exec (.updateVerified place) s = .next (s.done s)) ∧
    (s.updState = 1 → s.updateCode ≠ 0 → exec (.updateVerified place) s =
      .next (((s.setFld SEC_UPDATE_STATUS.state 0 0 5).setFld SEC_UPDATE_STATUS.code 0 0 s.updateCode).done s)) ∧
    (s.updState = 1 → s.updateCode = 0 → let k := s.sec.verSlot
      exec (.updateVerified place) s = .next ((({ s with
        sec := { s.sec with verHash := BitVec.ofNat 512 (s.slotNum k 48 64), verSvn := s.slotNum k 4 4 }
        hdl := { s.hdl with work := s.hdl.work.write (place % (360 * 2 ^ 20)) (s.fwSection k) } } : State).setFld
          SEC_UPDATE_STATUS.state 0 0 2).done s))) ∧
  (∀ s : State, let k := s.sec.verSlot
    s.updateCode = if s.formatOk k = false then 1 else if s.keyFused (slotBase k + 16) (·.vendorKeys) = false then 2
      else s.firmwareCode k) ∧
  (∀ s : State,
    (s.updState ≠ 3 → exec .firmwareReady s = .next (s.done s) ∧ exec .activationTimeout s = .next (s.done s)) ∧
    (s.updState = 3 → let u : State := { s with sec := { s.sec with fwRunning := s.sec.verHash, updated := true } }
      let w := (u.setFld SEC_SVN.svn 0 0 u.sec.verSvn).setFld SEC_UPDATE_STATUS.state 0 0 4
      exec .firmwareReady s = .next ((w.logMarker 2 (BitVec.ofNat 64 (s.fld SEC_SVN.svn 0 0)) (BitVec.ofNat 64 w.sec.verSvn)).done s) ∧
      exec .activationTimeout s =
        .next (((s.advance (s.sec.updAt + us 500)).setFld SEC_UPDATE_STATUS.state 0 0 6).done s))) ∧
  (∀ (m : Master) (s : State), directMaster m.toNat = true → (∀ b ∈ s.waits, b.block ≠ 15) →
    let a : WaitAcc := ⟨m.toNat, (RegRef.mk .SEC_FLASH_DATA 0 0).off, .w64, none, none, s.now⟩
    (s.flashBusy = true → exec (.flashRead m) s = .next ((s.deliver a 0 false).done s)) ∧
    (s.flashBusy = false → exec (.flashRead m) s = .next (((s.bump SEC_FLASH_ADDR.addr 0 0).deliver a
      (BitVec.ofNat 64 (ofLE (s.flash.read (s.fld SEC_FLASH_ADDR.addr 0 0 * 8) 8))) false).done s))) ∧
  (∀ s : State, exec .flashOpDone s = .next ((s.setFlag SEC_FLASH_CTL.busy 0 0 false).done s)) ∧
  (∀ s : State, s.quoteBody.length = 352) ∧
  (∀ s : State, (s.flag SEC_QUOTE_CTL.busy 0 0 = false → exec .quoteDone s = .next (s.done s)) ∧
    (s.flag SEC_QUOTE_CTL.busy 0 0 = true → let all := s.quoteBody ++ leBytes 64 (Config.sign s.seed s.quoteBody).toNat
      let word (k : Nat) : Word := BitVec.ofNat 64 (ofLE ((all.drop (8 * k)).take 8))
      let u := (List.range 52).foldl (fun (t : State) k => t.setReg ⟨.SEC_QUOTE_DATA, 0, k⟩ (word k)) s
      exec .quoteDone s = .next ((u.setFlag SEC_QUOTE_CTL.busy 0 0 false).done s) ∧
      (s.Ok → ∀ k, k < 52 → u.reg ⟨.SEC_QUOTE_DATA, 0, k⟩ = word k)))

/-- Change-log records and their chain, stalled writes, the mirror, counters, freezes and the sample buffer. A record is 32
bytes in R434's layout, takes the index LOG_TAIL, and its SHA-512 with the chain before is the new chain. A write that waited
stall_limit_us is dropped, counted and recorded as overrun; room lets waiting accesses go. The mirror writes the pending
records and then the tail, or marks mirror_error. In level mode a counter adds the weights of the cycle with its occurrences
and of those after it; past 2^48 − 1 it wraps and sets its overflow bit. A freeze copies every counter to its snapshot with
the tick; requests merge to the earliest and are ignored in setup or frozen. A sample's record goes to the buffer, or is
dropped and counted when it is full; an item past sample_max_ms is written incomplete. (14_boot_security_log.md R434;
14_boot_security_log.md R435; 14_boot_security_log.md R436; 15_performance_counters.md R442; 15_performance_counters.md R444;
15_performance_counters.md R446; 15_performance_counters.md R447; 15_performance_counters.md R450; 15_performance_counters.md
R453; 15_performance_counters.md R454) -/
def Obligations.RecordsCountersAndSamplesAreKept : Prop :=
  (∀ (r : LogRec), r.bytes.length = 32) ∧
  (∀ (s : State) (r : LogRec), s.Ok → s.logTail + 1 < 2 ^ 64 → let t := s.logAppend r
    t.logTail = s.logTail + 1 ∧ t.log.chain = Config.sha512 (leBytes 64 s.log.chain.toNat ++ r.bytes) ∧
    (s.logTail < 524288 → t.log.recs = SMap.insert s.log.recs s.logTail r) ∧
    (524288 ≤ s.logTail → t.log.recs = SMap.erase (SMap.insert s.log.recs s.logTail r) (s.logTail - 524288))) ∧
  (∀ s : State, exec .logStallRelease s = .next (s.wakeWaits.done s) ∧
    (s.stalledWrite = none → exec .logStallExpire s = .next (s.done s)) ∧
    (∀ a, s.stalledWrite = some a → let u := s.advance (a.since + s.stallLimit)
      let w := (({ u with waits := u.waits.erase a } : State).bump LOG_STATUS.refused 0 0).setFlag LOG_STATUS.overrun 0 0 true
      exec .logStallExpire s = .next ((((w.faultBy 16 1 a.m (a.off / 8 % 2 ^ 23)).deliver a 0 false).wakeWaits).done s))) ∧
  (∀ s : State, let p := s.fld LOG_CTL.mirror_port 0 0
    (s.inSetup 16 = true ∨ s.flag LOG_CTL.mirror_en 0 0 = false ∨ s.log.tailTold = s.logTail →
      exec .logMirrorTick s = .next (s.done s)) ∧
    (s.inSetup 16 = false → s.flag LOG_CTL.mirror_en 0 0 = true → s.log.tailTold ≠ s.logTail →
      (s.portCarries p = false → exec .logMirrorTick s =
        .next (((s.setFlag LOG_STATUS.mirror_error 0 0 true).fault 16 2 0).done s)) ∧
      (s.portCarries p = true →
        let u := ((List.range (s.logTail - s.log.mirrored)).map (s.log.mirrored + ·)).foldl State.mirrorRec s
        let w := u.hostWrite (u.fld LOG_CTL.mirror_port 0 0) 0 (u.fld LOG_MIRROR_TAIL_ADDR.addr 0 0 * 8) (leBytes 8 s.logTail)
        exec .logMirrorTick s = .next (({ w with log := { w.log with
          mirrored := s.logTail, tailTold := s.logTail } } : State).done s)))) ∧
  (∀ (s : State) (k e n : Nat), bitOf e 62 = false → 0 < n → let w := s.pmcSums e
    (s.ownAdd k e n).1 = w.1 + (n - 1) * w.2) ∧
  (∀ (s : State) (n e add last : Nat), s.Ok → n < 512 → bitOf e 59 = false → let t := s.countUp (n, e, add, last, (s.count n + add) / 2 ^ 48)
    t.count n = (s.count n + add) % 2 ^ 48 ∧
    (2 ^ 48 ≤ s.count n + add → bitOf (t.fld PMC_OVF.ovf 0 (n / 64)) (n % 64) = true)) ∧
  (∀ (n : Fin 512) (s : State), (s.pmcRuns = false → exec (.pmcCounterOverflow n) s = .next (s.done s)) ∧
    (s.pmcRuns = true → (s.cyclesTo 16 n.val 1 = none → exec (.pmcCounterOverflow n) s = .next (s.done s)) ∧
      ∀ k, s.cyclesTo 16 n.val 1 = some k → exec (.pmcCounterOverflow n) s = .next ((s.advance ((s.now / 500 + k) * 500)).done s))) ∧
  (∀ (s : State) (t : Nat), (s.pmcRuns = false → s.freezeReq t = s) ∧ (s.pmcRuns = true →
    s.freezeReq t = { s with pmc := { s.pmc with freezeAt := some (match s.pmc.freezeAt with | some u => min u t | none => t) } })) ∧
  (∀ s : State, (s.pmc.freezeAt = none → exec .freezeTick s = .next (s.done s)) ∧
    (∀ k, s.pmc.freezeAt = some k → let u := s.advance (s.clockOf k)
      exec .freezeTick s = .next ((if u.pmc.freezeAt = some k then u.freeze k else u).done s))) ∧
  (∀ (s : State) (t : Nat), s.Ok → t < 2 ^ 64 → let u := s.freeze t
    (∀ n, n < 512 → u.reg ⟨.PMC_SNAP, 0, n⟩ = s.reg ⟨.PMC_COUNT, 0, n⟩) ∧ u.fld PMC_SNAP_TIME.time 0 0 = t ∧
    u.flag PMC_STATUS.snap_valid 0 0 = true ∧ u.pmc.freezeAt = none ∧
    u.flag PMC_STATUS.frozen 0 0 = (s.flag PMC_STATUS.frozen 0 0 || !s.flag PMC_CTL.snap_only 0 0)) ∧
  (∀ (slot : Nat) (s : State),
    (SMap.find? s.pmc.live slot = none → exec (.sampleRecordWrite slot) s = .next (s.done s) ∧
      exec (.sampleLimitExpire slot) s = .next (s.done s)) ∧
    (∀ v, SMap.find? s.pmc.live slot = some v →
      (v.ended = true → exec (.sampleRecordWrite slot) s = .next ((s.sampleWrite slot v).done s) ∧
        exec (.sampleLimitExpire slot) s = .next (s.done s)) ∧
      (v.ended = false → exec (.sampleRecordWrite slot) s = .next (s.done s) ∧ exec (.sampleLimitExpire slot) s =
        .next (((s.advance (v.startAt + ms (max 1 (s.fld PMC_CTL.sample_max_ms 0 0)))).sampleWrite slot
          { v with incomplete := true }).done s)))) ∧
  (∀ (s : State) (slot : Nat) (v : Sample), let u : State := { s with pmc := { s.pmc with live := SMap.erase s.pmc.live slot } }
    let tail := s.fld PMC_SAMPLE_TAIL.count 0 0
    (s.sampleBuf ≤ tail - s.fld PMC_SAMPLE_HEAD.count 0 0 →
      s.sampleWrite slot v = (u.bump PMC_SAMPLE_STATUS.dropped 0 0).fault 17 1 0) ∧
    (tail - s.fld PMC_SAMPLE_HEAD.count 0 0 < s.sampleBuf → let w : State := { u with pmc := { u.pmc with
        buf := SMap.insert s.pmc.buf (tail % s.sampleBuf) v.record } }
      s.sampleWrite slot v = (w.setFld PMC_SAMPLE_TAIL.count 0 0 (tail + 1)).pmcEv 17 1 0 0 1))

/-- Event pins, rails, clocks, temperature and life, the I3C target and mailbox, and the TAP. A falling edge at a pin requests
a freeze or captures the time, as its function says; the tick pins pulse at each millisecond of fabric time. Rail and PLL
faults clear their bit and count; a lost reference clears its bit with its effect, a returning one sets it. A reading is
stored and judged against warn and trip: the third in a row at trip counts. PWR_LIFE gains the equivalent second, exact when
2^((Tj − 95)/10) is whole. SETDASA and ENTDAA make the device an I3C target with its identifiers, RSTDAA ends that, ENEC lets
pending IBIs go, lowest first. A mailbox access is one 64-bit access whose end gives data and result, after 2 ms result 3. A
guarded TAP instruction loads as BYPASS outside the two cases; REGACC captures the last result and starts the next access when
that is done. (16_mode_interactions.md R461; 17_package_electrical.md R474; 17_package_electrical.md R480;
17_package_electrical.md R482; 17_package_electrical.md R484; 17_package_electrical.md R486; 17_package_electrical.md R487;
17_package_electrical.md R488; 17_package_electrical.md R489; 17_package_electrical.md R494) -/
def Obligations.PinsPowerAndManagementAct : Prop :=
  (∀ (k : Fin 4) (s : State), (s.pinFunc k.val = 1 → exec (.eventPinEdge k) s = .next ((s.freezeReq (s.tickAfter s.now)).done s)) ∧
    (s.pinFunc k.val = 4 → exec (.eventPinEdge k) s = .next ((s.setFld TOP_PIN_CAPTURE.time 0 k.val s.fabric).done s)) ∧
    (s.pinFunc k.val ≠ 1 → s.pinFunc k.val ≠ 4 → exec (.eventPinEdge k) s = .next (s.done s))) ∧
  (∀ s : State, let u := s.advance (s.clockOf ((s.fabric / 1000000 + 1) * 1000000))
    let w := u.tickPins true
    ((∀ k, k < 4 → u.pinFunc k ≠ 3) → exec .fabricTimeTick s = .next (u.done s)) ∧
    ((∃ k, k < 4 ∧ w.pinFunc k = 3) → exec .fabricTimeTick s = .next (((w.advance (w.now + us 1)).tickPins false).done s))) ∧
  (∀ (r : Fin 13) (s : State), (s.pwr.pwrgood = false → exec (.railFault r) s = .next (s.done s)) ∧
    (s.pwr.pwrgood = true → exec (.railFault r) s = .next (((s.setFld PWR_STATUS.rail_ok 0 0
      (putBits (s.fld PWR_STATUS.rail_ok 0 0) r.val r.val 0)).fault 19 514 0).done s))) ∧
  (∀ (k : Fin 6) (s : State), let l := s.fld PWR_STATUS.pll_lock 0 0
    (bitOf l k.val = false → exec (.pllUnlock k) s = .next (s.done s)) ∧
    (bitOf l k.val = true → exec (.pllUnlock k) s =
      .next (((s.setFld PWR_STATUS.pll_lock 0 0 (putBits l k.val k.val 0)).fault 19 514 0).done s))) ∧
  (∀ (c : Nat) (s : State),
    (s.flag PWR_STATUS.core_ref_ok 0 0 = true → exec (.refclkLoss 0) s =
      .next ((((s.setFlag PWR_STATUS.core_ref_ok 0 0 false).setFld PWR_STATUS.pll_lock 0 0 0).fault 19 514 0).done s)) ∧
    (1 ≤ c → c ≤ 4 → bitOf (s.fld PWR_STATUS.fab_ref_ok 0 0) (c - 1) = true → exec (.refclkLoss c) s =
      .next (((s.setRef PWR_STATUS.fab_ref_ok (c - 1) false).fabClockLost (c - 1)).done s)) ∧
    (5 ≤ c → c ≤ 12 → bitOf (s.fld PWR_STATUS.host_ref_ok 0 0) (c - 5) = true → exec (.refclkLoss c) s =
      .next (((s.setRef PWR_STATUS.host_ref_ok (c - 5) false).portReset (c - 5)).done s)) ∧
    (s.pwr.pwrgood = true → exec (.refclkReturn 0) s = .next ((s.setFlag PWR_STATUS.core_ref_ok 0 0 true).done s) ∧
      (1 ≤ c → c ≤ 4 → exec (.refclkReturn c) s = .next ((s.setRef PWR_STATUS.fab_ref_ok (c - 1) true).done s)) ∧
      (5 ≤ c → c ≤ 12 → exec (.refclkReturn c) s = .next ((s.setRef PWR_STATUS.host_ref_ok (c - 5) true).done s)))) ∧
  (∀ (tj hot mean : Nat) (s : State), (s.pwr.pwrgood = false → exec (.thermalReading tj hot mean) s = .next (s.done s)) ∧
    (s.pwr.pwrgood = true → let u := s.advance ((s.now / us 100 + 1) * us 100)
      let t := s16 (tj % 2 ^ 16)
      exec (.thermalReading tj hot mean) s = .next ((((u.tempStore (tj % 2 ^ 16) hot mean).thermalWarn t).thermalTrip t).done s))) ∧
  (∀ (s : State) (t : Int), let warn := s16 (s.fld PWR_THERMAL_CFG.warn 0 0)
    let trip := min (s16 (s.fld PWR_THERMAL_CFG.trip 0 0)) 0x398
    (warn ≤ t → s.pwr.warned = false → s.thermalWarn t =
      ((({ s with pwr := { s.pwr with warned := true } } : State).ibi 3).fault 19 512 0)) ∧
    (warn ≤ t → s.pwr.warned = true → s.thermalWarn t = s) ∧ (warn - 16 < t → t < warn → s.thermalWarn t = s) ∧
    (t ≤ warn - 16 → s.thermalWarn t = { s with pwr := { s.pwr with warned := false } }) ∧
    (t < trip → s.thermalTrip t = { s with pwr := { s.pwr with hot := 0 } }) ∧
    (trip ≤ t → s.pwr.hot < 2 → s.thermalTrip t = { s with pwr := { s.pwr with hot := s.pwr.hot + 1 } }) ∧
    (trip ≤ t → s.pwr.hot = 2 → s.thermalTrip t =
      (({ s with pwr := { s.pwr with hot := 3 } } : State).ibi 5).fault 19 513 0)) ∧
  (∀ (e n : Nat), e ≤ 2000 → root80 e (e / 80) 0 = n → n ^ 80 ≤ 2 ^ e ∧ 2 ^ e < (n + 1) ^ 80) ∧
  (∀ s : State, (s.pwr.pwrgood = false → exec .lifeTick s = .next (s.done s)) ∧
    (s.pwr.pwrgood = true → let u := s.advance (s.sec.bootAt + ms 1000 * ((s.now - s.sec.bootAt) / ms 1000 + 1))
      let x := lifeSeconds (s16 (u.fld PWR_TEMP.tj_max 0 0))
      (x.2 = true → exec .lifeTick s = .next ((u.bump PWR_LIFE.seconds 0 0 x.1).done s)) ∧
      (x.2 = false → exec .lifeTick s =
        .next (((u.fresh 1).2.bump PWR_LIFE.seconds 0 0 (x.1 + (u.fresh 1).1.toNat)).done s)))) ∧
  (∀ (a : Nat) (s : State),
    (s.pwr.pwrgood = false ∨ s.pwr.dyn ≠ none → exec (.setdasa a) s = .next (s.done s) ∧ exec (.entdaa a) s = .next (s.done s)) ∧
    (s.pwr.pwrgood = true → s.pwr.dyn = none →
      exec (.setdasa a) s = .next (((s.emit (.i3cAck (0x58 + s.sec.addrSel))).takeAddr a).done s) ∧
      exec (.entdaa a) s = .next ((((s.fresh 8).2.emit (.i3cId (0x2C5 * 2 ^ 33 + 0x48 * 2 ^ 16 +
        s.fld SEC_IDENTITY.identity 0 0 % 2 ^ 16) 6 (s.fresh 8).1.toNat)).takeAddr a).done s)) ∧
    exec .rstdaa s = .next (({ s with pwr := { s.pwr with dyn := none } } : State).done s) ∧
    (s.pwr.dyn = none → exec .enec s = .next (s.done s)) ∧
    (s.pwr.dyn ≠ none → exec .enec s = .next ((s.pwr.ibis.foldl (fun (t : State) n => t.emit (.ibi n))
      ({ s with pwr := { s.pwr with ibiEn := true, ibis := [] } } : State)).done s))) ∧
  (∀ (a d c : Word) (s : State), let v := { s.pwr.mb with doneIbi := c.getLsbD 2, write := c.getLsbD 1 }
    (s.pwr.pwrgood = false → exec (.mbGo a d c) s = .next (s.done s)) ∧
    (s.pwr.pwrgood = true → s.pwr.mb.busy ≠ none → exec (.mbGo a d c) s = .next ((s.setMb v).done s)) ∧
    (s.pwr.pwrgood = true → s.pwr.mb.busy = none → let w := { v with addr := bitsOf a.toNat 25 3, data := d }
      (c.getLsbD 0 = false → exec (.mbGo a d c) s = .next ((s.setMb w).done s)) ∧
      (c.getLsbD 0 = true → s.coreClock = true → let u := s.setMb { w with busy := some s.now, result := 0, got := none }
        exec (.mbGo a d c) s = .next ((u.regAccess
          ⟨mI3c, 8 * bitsOf a.toNat 25 3, .w64, if c.getLsbD 1 then some d else none, none, s.now⟩).done s)) ∧
      (c.getLsbD 0 = true → s.coreClock = false →
        exec (.mbGo a d c) s = .next ((s.setMb { w with busy := some s.now, result := 0, got := some (0, 1) }).done s)))) ∧
  (∀ s : State, let v := s.pwr.mb
    let ended (t : State) (x : Word) (r : Nat) : State :=
      let w := t.setMb { t.pwr.mb with busy := none, got := none, data := x, result := r }
      if w.pwr.mb.doneIbi then w.ibi 1 else w
    (∀ t x r, v.busy = some t → v.got = some (x, r) → exec .mbAccessDone s =
      .next ((ended s (if v.write = true ∨ r ≠ 0 then v.data else x) r).done s) ∧ exec .mbTimeout s = .next (s.done s)) ∧
    (v.busy = none ∨ v.got = none → exec .mbAccessDone s = .next (s.done s)) ∧
    (∀ t, v.busy = some t → v.got = none → let u := s.advance (t + ms 2)
      exec .mbTimeout s = .next ((ended u u.pwr.mb.data 3).done s)) ∧
    (v.busy = none → exec .mbTimeout s = .next (s.done s))) ∧
  (∀ (i : Instr) (op : JtagOp) (code : Nat) (guarded : Bool) (s : State), (i, op, code, guarded) ∈ [(Instr.extest, JtagOp.extest, 0x00, true),
      (.idcode, .idcode, 0x01, false), (.samplePreload, .sample, 0x02, false), (.clamp, .clamp, 0x04, true),
      (.highz, .highz, 0x05, true), (.extestPulse, .extestPulse, 0x0A, true), (.extestTrain, .extestTrain, 0x0B, true),
      (.bypass, .bypass, 0xFF, false)] →
    let open_ := s.sec.step < 6 ∨ s.fld SEC_BOOT_STATUS.state 0 0 = 3 ∨ s.stopped = true
    let t (n : Nat) : State := { s with pwr := { s.pwr with jtag := { s.pwr.jtag with ir := n } } }
    (guarded = true → ¬open_ → exec i s = .next (((t 0xFF).emit (.jtag .bypass 0)).done s)) ∧
    (guarded = false ∨ open_ → exec i s = .next (((t code).emit (.jtag op (if code = 1 then 0x100489CB else 0))).done s))) ∧
  (∀ (dr : BitVec 96) (s : State), let v := { s.pwr.jtag with ir := 0x20 }
    let u := s.emit (.jtag .regacc (putBits v.dr.toNat 89 88 v.status))
    (v.status = 1 → exec (.regacc dr) s = .next ((u.setJtag v).done s)) ∧
    (v.status ≠ 1 → u.coreClock = false → exec (.regacc dr) s = .next ((u.setJtag { v with status := 2 }).done s)) ∧
    (v.status ≠ 1 → u.coreClock = true → let n := dr.toNat
      let w := u.setJtag { v with dr := BitVec.ofNat 96 (bitsOf n 87 0), status := 1 }
      exec (.regacc dr) s = .next ((w.regAccess ⟨mJtag, 8 * bitsOf n 86 64, .w64,
        if bitOf n 87 then some (BitVec.ofNat 64 (bitsOf n 63 0)) else none, none, w.now⟩).done s)))
end

