-- ==== Sys2Proof/Laws/SMap.lean ====
section
/-!
SUPPORT. Laws of sparse tables: what a read gives after a write, and that every operation keeps the canonical form.
-/
set_option Elab.async false
namespace Sys2Proof.Machine

variable {α : Type}

/-! ## Keys rising -/

/-- A lower bound may be lowered. -/
theorem SMap.risingFrom_mono {lo lo' : Nat} {m : List (Nat × α)} (h : lo' ≤ lo) (hm : SMap.risingFrom lo m = true) :
    SMap.risingFrom lo' m = true := by
  cases m with
  | nil => rfl
  | cons e m =>
    simp only [SMap.risingFrom, Bool.and_eq_true, decide_eq_true_eq] at *
    exact ⟨by omega, hm.2⟩

/-- The keys of a rising table are at least its bound. -/
theorem SMap.le_of_risingFrom {lo : Nat} {m : List (Nat × α)} (hm : SMap.risingFrom lo m = true) {e : Nat × α}
    (he : e ∈ m) : lo ≤ e.1 := by
  induction m generalizing lo with
  | nil => cases he
  | cons x m ih =>
    simp only [SMap.risingFrom, Bool.and_eq_true, decide_eq_true_eq] at hm
    rcases List.mem_cons.1 he with rfl | he
    · exact hm.1
    · have := ih hm.2 he; omega

/-- A key below the bound is not listed. -/
theorem SMap.find?_none_of_lt {lo k : Nat} {m : List (Nat × α)} (hm : SMap.risingFrom lo m = true) (h : k < lo) :
    SMap.find? m k = none := by
  induction m generalizing lo with
  | nil => rfl
  | cons x m ih =>
    simp only [SMap.risingFrom, Bool.and_eq_true, decide_eq_true_eq] at hm
    have : k ≠ x.1 := by omega
    simp only [SMap.find?, this, if_false]
    exact ih hm.2 (by omega)

theorem SMap.risingFrom_erase {lo k : Nat} {m : List (Nat × α)} (hm : SMap.risingFrom lo m = true) :
    SMap.risingFrom lo (SMap.erase m k) = true := by
  induction m generalizing lo with
  | nil => rfl
  | cons x m ih =>
    obtain ⟨a, v⟩ := x
    simp only [SMap.risingFrom, Bool.and_eq_true, decide_eq_true_eq] at hm
    simp only [SMap.erase]
    split
    · exact SMap.risingFrom_mono (by omega) hm.2
    · split
      · simp [SMap.risingFrom, hm]
      · simp [SMap.risingFrom, hm.1, ih hm.2]

theorem SMap.risingFrom_insert {lo k : Nat} {x : α} {m : List (Nat × α)} (hm : SMap.risingFrom lo m = true) (hk : lo ≤ k) :
    SMap.risingFrom lo (SMap.insert m k x) = true := by
  induction m generalizing lo with
  | nil => simp [SMap.insert, SMap.risingFrom, hk]
  | cons e m ih =>
    obtain ⟨a, v⟩ := e
    simp only [SMap.risingFrom, Bool.and_eq_true, decide_eq_true_eq] at hm
    simp only [SMap.insert]
    split
    · next h => subst h; simp [SMap.risingFrom, hm]
    · split
      · simp only [SMap.risingFrom, Bool.and_eq_true, decide_eq_true_eq]
        exact ⟨hk, by omega, hm.2⟩
      · simp only [SMap.risingFrom, Bool.and_eq_true, decide_eq_true_eq]
        exact ⟨hm.1, ih hm.2 (by omega)⟩

theorem SMap.risingFrom_filter {lo : Nat} {p : Nat × α → Bool} {m : List (Nat × α)} (hm : SMap.risingFrom lo m = true) :
    SMap.risingFrom lo (m.filter p) = true := by
  induction m generalizing lo with
  | nil => rfl
  | cons e m ih =>
    simp only [SMap.risingFrom, Bool.and_eq_true, decide_eq_true_eq] at hm
    rw [List.filter_cons]
    split
    · simp [SMap.risingFrom, hm.1, ih hm.2]
    · exact ih (SMap.risingFrom_mono (by omega) hm.2)

/-- Two rising tables, every key of the first below the bound of the second, make one. -/
theorem SMap.risingFrom_append {lo mid : Nat} {m n : List (Nat × α)} (hm : SMap.risingFrom lo m = true)
    (hn : SMap.risingFrom mid n = true) (hlo : lo ≤ mid) (h : ∀ e ∈ m, e.1 < mid) : SMap.risingFrom lo (m ++ n) = true := by
  induction m generalizing lo with
  | nil => exact SMap.risingFrom_mono hlo hn
  | cons e m ih =>
    simp only [SMap.risingFrom, Bool.and_eq_true, decide_eq_true_eq, List.cons_append] at *
    have := h e (List.mem_cons_self ..)
    exact ⟨hm.1, ih hm.2 (by omega) fun x hx => h x (List.mem_cons_of_mem _ hx)⟩

/-! ## Members -/

theorem SMap.mem_erase {k : Nat} {m : List (Nat × α)} {e : Nat × α} (h : e ∈ SMap.erase m k) : e ∈ m := by
  induction m with
  | nil => cases h
  | cons x m ih =>
    obtain ⟨a, v⟩ := x
    simp only [SMap.erase] at h
    split at h
    · exact List.mem_cons_of_mem _ h
    · split at h
      · exact h
      · rcases List.mem_cons.1 h with rfl | h
        · exact List.mem_cons_self ..
        · exact List.mem_cons_of_mem _ (ih h)

theorem SMap.mem_insert {k : Nat} {x : α} {m : List (Nat × α)} {e : Nat × α} (h : e ∈ SMap.insert m k x) :
    e = (k, x) ∨ e ∈ m := by
  induction m with
  | nil => simpa [SMap.insert] using h
  | cons y m ih =>
    obtain ⟨a, v⟩ := y
    simp only [SMap.insert] at h
    split at h
    · rcases List.mem_cons.1 h with rfl | h
      · exact .inl rfl
      · exact .inr (List.mem_cons_of_mem _ h)
    · split at h
      · exact List.mem_cons.1 h
      · rcases List.mem_cons.1 h with rfl | h
        · exact .inr (List.mem_cons_self ..)
        · rcases ih h with h | h
          · exact .inl h
          · exact .inr (List.mem_cons_of_mem _ h)

/-! ## Reads after writes -/

theorem SMap.find?_insert (m : List (Nat × α)) (k j : Nat) (x : α) :
    SMap.find? (SMap.insert m k x) j = if j = k then some x else SMap.find? m j := by
  induction m with
  | nil => rfl
  | cons e m ih =>
    obtain ⟨a, v⟩ := e
    simp only [SMap.insert]
    split
    · next h => subst h; simp only [SMap.find?]; split <;> rfl
    · split
      · simp only [SMap.find?]
      · simp only [SMap.find?, ih]
        split <;> split <;> simp_all

theorem SMap.find?_erase {lo : Nat} (m : List (Nat × α)) (k j : Nat) (hm : SMap.risingFrom lo m = true) :
    SMap.find? (SMap.erase m k) j = if j = k then none else SMap.find? m j := by
  induction m generalizing lo with
  | nil => simp [SMap.erase, SMap.find?]
  | cons e m ih =>
    obtain ⟨a, v⟩ := e
    simp only [SMap.risingFrom, Bool.and_eq_true, decide_eq_true_eq] at hm
    simp only [SMap.erase]
    split
    · next h =>
      subst h
      simp only [SMap.find?]
      split
      · next h => subst h; exact SMap.find?_none_of_lt hm.2 (by omega)
      · rfl
    · split
      · next h1 h2 =>
        split
        · next h =>
          subst h
          simp only [SMap.find?, h1, if_false]
          exact SMap.find?_none_of_lt hm.2 (by omega)
        · rfl
      · simp only [SMap.find?, ih hm.2]
        split <;> split <;> simp_all

/-! ## The canonical form -/

variable [DecidableEq α] {d : Nat → α} {m : List (Nat × α)}

theorem SMap.wf_iff : SMap.wf d m = true ↔ SMap.risingFrom 0 m = true ∧ ∀ e ∈ m, e.2 ≠ d e.1 := by
  simp [SMap.wf]

/-- An empty table is canonical. -/
@[simp] theorem SMap.wf_nil : SMap.wf d [] = true := rfl

/-- A write keeps the canonical form. -/
theorem SMap.wf_put (h : SMap.wf d m = true) (k : Nat) (x : α) : SMap.wf d (SMap.put d m k x) = true := by
  rw [SMap.wf_iff] at h ⊢
  unfold SMap.put
  split
  · exact ⟨SMap.risingFrom_erase h.1, fun e he => h.2 e (SMap.mem_erase he)⟩
  · next hx =>
    refine ⟨SMap.risingFrom_insert h.1 (by omega), fun e he => ?_⟩
    rcases SMap.mem_insert he with rfl | he
    · exact hx
    · exact h.2 e he

theorem SMap.wf_erase (h : SMap.wf d m = true) (k : Nat) : SMap.wf d (SMap.erase m k) = true := by
  rw [SMap.wf_iff] at h ⊢
  exact ⟨SMap.risingFrom_erase h.1, fun e he => h.2 e (SMap.mem_erase he)⟩

theorem SMap.wf_filter (h : SMap.wf d m = true) (p : Nat × α → Bool) : SMap.wf d (m.filter p) = true := by
  rw [SMap.wf_iff] at h ⊢
  exact ⟨SMap.risingFrom_filter h.1, fun e he => h.2 e ((List.mem_filter.1 he).1)⟩

/-- A read of the key just written gives the value; any other key reads as before. -/
theorem SMap.getD_put (h : SMap.wf d m = true) (k j : Nat) (x : α) :
    SMap.getD d (SMap.put d m k x) j = if j = k then x else SMap.getD d m j := by
  rw [SMap.wf_iff] at h
  unfold SMap.put SMap.getD
  split
  · next hx =>
    rw [SMap.find?_erase m k j h.1]
    split
    · next hj => subst hj; simp [hx]
    · rfl
  · rw [SMap.find?_insert]
    split <;> rfl

/-- Writing what a key already holds changes nothing that is read. -/
theorem SMap.getD_put_self (h : SMap.wf d m = true) (k : Nat) (x : α) : SMap.getD d (SMap.put d m k x) k = x := by
  rw [SMap.getD_put h, if_pos rfl]

theorem SMap.getD_put_ne (h : SMap.wf d m = true) {k j : Nat} (x : α) (hj : j ≠ k) :
    SMap.getD d (SMap.put d m k x) j = SMap.getD d m j := by
  rw [SMap.getD_put h, if_neg hj]

end Sys2Proof.Machine
end

