-- ==== Sys2Proof/Laws/Fields.lean ====
section
/-!
SUPPORT. Laws of bit ranges, registers and their fields: what a field reads as after a write of it, of another field of the
register, or of another register.
-/
set_option Elab.async false
namespace Sys2Proof

/-- A number is what lies above a bit range, the range, and what lies below it. -/
theorem bits_split (n hi lo : Nat) (h : lo ≤ hi) :
    n = n / 2 ^ (hi + 1) * 2 ^ (hi + 1) + bitsOf n hi lo * 2 ^ lo + n % 2 ^ lo := by
  unfold bitsOf
  have e : 2 ^ (hi + 1) = 2 ^ lo * 2 ^ (hi + 1 - lo) := by rw [← Nat.pow_add]; congr 1; omega
  have h1 : n / 2 ^ (hi + 1) = n / 2 ^ lo / 2 ^ (hi + 1 - lo) := by rw [e, Nat.div_div_eq_div_mul]
  have h2 := Nat.div_add_mod n (2 ^ lo)
  have h3 := Nat.div_add_mod (n / 2 ^ lo) (2 ^ (hi + 1 - lo))
  rw [h1, e]
  generalize n / 2 ^ lo / 2 ^ (hi + 1 - lo) = a at *
  generalize n / 2 ^ lo % 2 ^ (hi + 1 - lo) = b at *
  generalize n / 2 ^ lo = c at *
  generalize n % 2 ^ lo = d at *
  calc n = 2 ^ lo * c + d := h2.symm
    _ = 2 ^ lo * (2 ^ (hi + 1 - lo) * a + b) + d := by rw [h3]
    _ = a * (2 ^ lo * 2 ^ (hi + 1 - lo)) + b * 2 ^ lo + d := by
      rw [Nat.mul_add]; ac_rfl

/-- A number with a bit range put is what lay above, the new bits, and what lay below. -/
theorem putBits_eq (n hi lo v : Nat) (h : lo ≤ hi) :
    putBits n hi lo v = n / 2 ^ (hi + 1) * 2 ^ (hi + 1) + v % 2 ^ (hi + 1 - lo) * 2 ^ lo + n % 2 ^ lo := by
  have := bits_split n hi lo h
  unfold putBits
  generalize bitsOf n hi lo * 2 ^ lo = b at *
  generalize v % 2 ^ (hi + 1 - lo) * 2 ^ lo = c at *
  generalize n / 2 ^ (hi + 1) * 2 ^ (hi + 1) = a at *
  generalize n % 2 ^ lo = d at *
  omega

/-- The bit `i` of a number with a bit range put. -/
theorem testBit_putBits (n hi lo v i : Nat) (h : lo ≤ hi) :
    (putBits n hi lo v).testBit i = if lo ≤ i ∧ i ≤ hi then v.testBit (i - lo) else n.testBit i := by
  have e : 2 ^ (hi + 1) = 2 ^ lo * 2 ^ (hi + 1 - lo) := by rw [← Nat.pow_add]; congr 1; omega
  have hd : n % 2 ^ lo < 2 ^ lo := Nat.mod_lt _ (Nat.two_pow_pos _)
  have hv : v % 2 ^ (hi + 1 - lo) < 2 ^ (hi + 1 - lo) := Nat.mod_lt _ (Nat.two_pow_pos _)
  have form : putBits n hi lo v =
      2 ^ lo * (2 ^ (hi + 1 - lo) * (n / 2 ^ (hi + 1)) + v % 2 ^ (hi + 1 - lo)) + n % 2 ^ lo := by
    rw [putBits_eq n hi lo v h, Nat.mul_add, e]; ac_rfl
  rw [form, Nat.testBit_two_pow_mul_add _ hd]
  by_cases h1 : i < lo
  · have : ¬(lo ≤ i ∧ i ≤ hi) := by omega
    rw [if_pos h1, if_neg this, Nat.testBit_mod_two_pow]
    simp [h1]
  · rw [if_neg h1, Nat.testBit_two_pow_mul_add _ hv]
    by_cases h2 : i ≤ hi
    · have h3 : i - lo < hi + 1 - lo := by omega
      rw [if_pos h3, if_pos ⟨by omega, h2⟩, Nat.testBit_mod_two_pow]
      simp [h3]
    · have h3 : ¬ i - lo < hi + 1 - lo := by omega
      have h4 : ¬(lo ≤ i ∧ i ≤ hi) := by omega
      rw [if_neg h3, if_neg h4, Nat.testBit_div_two_pow]
      congr 1
      omega

/-- The bit `j` of a bit range. -/
theorem testBit_bitsOf (n hi lo j : Nat) : (bitsOf n hi lo).testBit j = (decide (j < hi + 1 - lo) && n.testBit (j + lo)) := by
  unfold bitsOf
  rw [Nat.testBit_mod_two_pow, Nat.testBit_div_two_pow]

/-- A bit range reads as what was put there. -/
theorem bitsOf_putBits (n hi lo v : Nat) (h : lo ≤ hi) : bitsOf (putBits n hi lo v) hi lo = v % 2 ^ (hi + 1 - lo) := by
  apply Nat.eq_of_testBit_eq
  intro j
  rw [testBit_bitsOf, testBit_putBits _ _ _ _ _ h, Nat.testBit_mod_two_pow]
  by_cases hj : j < hi + 1 - lo
  · rw [if_pos ⟨by omega, by omega⟩]
    simp
  · simp [hj]

/-- A bit range that shares no bit with the one put reads as before. -/
theorem bitsOf_putBits_apart (n hi lo v a b : Nat) (h : lo ≤ hi) (hd : a < lo ∨ hi < b) :
    bitsOf (putBits n hi lo v) a b = bitsOf n a b := by
  apply Nat.eq_of_testBit_eq
  intro j
  rw [testBit_bitsOf, testBit_bitsOf, testBit_putBits _ _ _ _ _ h]
  by_cases hj : j < a + 1 - b
  · have : ¬(lo ≤ j + b ∧ j + b ≤ hi) := by omega
    rw [if_neg this]
  · simp [hj]

/-- Putting bits into a number of 64 bits leaves one. -/
theorem putBits_lt (n hi lo v : Nat) (hn : n < 2 ^ 64) (h : lo ≤ hi) (hh : hi < 64) : putBits n hi lo v < 2 ^ 64 := by
  apply Nat.lt_pow_two_of_testBit
  intro i hi'
  rw [testBit_putBits _ _ _ _ _ h, if_neg (by omega)]
  exact Nat.testBit_lt_two_pow (Nat.lt_of_lt_of_le hn (Nat.pow_le_pow_right (by omega) hi'))

end Sys2Proof

namespace Sys2Proof.Machine

/-- A register reads as what was written to it; every other as before. -/
theorem State.reg_setReg {s : State} (h : SMap.wf resetWord s.regs = true) (r q : RegRef) (w : Word) :
    (s.setReg r w).reg q = if q.off = r.off then w else s.reg q := by
  unfold State.reg State.setReg
  exact SMap.getD_put h r.off q.off w

theorem State.reg_setReg_self {s : State} (h : SMap.wf resetWord s.regs = true) (r : RegRef) (w : Word) :
    (s.setReg r w).reg r = w := by rw [State.reg_setReg h, if_pos rfl]

theorem State.reg_setReg_ne {s : State} (h : SMap.wf resetWord s.regs = true) {r q : RegRef} (w : Word) (hq : q.off ≠ r.off) :
    (s.setReg r w).reg q = s.reg q := by rw [State.reg_setReg h, if_neg hq]

/-- A write of a register keeps the register file canonical. -/
theorem State.wf_setReg {s : State} (h : SMap.wf resetWord s.regs = true) (r : RegRef) (w : Word) :
    SMap.wf resetWord (s.setReg r w).regs = true := SMap.wf_put h r.off w

theorem State.wf_setFld {s : State} (h : SMap.wf resetWord s.regs = true) (f : Field) (i k v : Nat) :
    SMap.wf resetWord (s.setFld f i k v).regs = true := State.wf_setReg h _ _

theorem State.wf_setFlag {s : State} (h : SMap.wf resetWord s.regs = true) (f : Field) (i k : Nat) (b : Bool) :
    SMap.wf resetWord (s.setFlag f i k b).regs = true := State.wf_setReg h _ _

/-- A field reads as what was written to it. -/
theorem State.fld_setFld {s : State} (h : SMap.wf resetWord s.regs = true) (f : Field) (i k v : Nat) (hl : f.lo ≤ f.hi)
    (hh : f.hi < 64) : (s.setFld f i k v).fld f i k = v % 2 ^ (f.hi + 1 - f.lo) := by
  unfold State.fld State.setFld
  dsimp only
  rw [State.reg_setReg_self h, BitVec.toNat_ofNat, Nat.mod_eq_of_lt (putBits_lt _ _ _ _ (BitVec.isLt _) hl hh),
    bitsOf_putBits _ _ _ _ hl]

/-- Another field of the register reads as before. -/
theorem State.fld_setFld_apart {s : State} (h : SMap.wf resetWord s.regs = true) (f g : Field) (i k v : Nat)
    (hr : g.reg = f.reg) (hl : f.lo ≤ f.hi) (hh : f.hi < 64) (hd : g.hi < f.lo ∨ f.hi < g.lo) :
    (s.setFld f i k v).fld g i k = s.fld g i k := by
  unfold State.fld State.setFld
  dsimp only
  rw [hr, State.reg_setReg_self h, BitVec.toNat_ofNat, Nat.mod_eq_of_lt (putBits_lt _ _ _ _ (BitVec.isLt _) hl hh),
    bitsOf_putBits_apart _ _ _ _ _ _ hl hd]

/-- A field of a register elsewhere reads as before. -/
theorem State.fld_setFld_ne {s : State} (h : SMap.wf resetWord s.regs = true) (f g : Field) (i k j l v : Nat)
    (hq : (RegRef.mk g.reg j l).off ≠ (RegRef.mk f.reg i k).off) : (s.setFld f i k v).fld g j l = s.fld g j l := by
  unfold State.fld State.setFld
  dsimp only
  rw [State.reg_setReg_ne h _ hq]

/-- A flag reads as what was written to it. -/
theorem State.flag_setFlag {s : State} (h : SMap.wf resetWord s.regs = true) (f : Field) (i k : Nat) (b : Bool)
    (hl : f.lo ≤ f.hi) (hh : f.hi < 64) : (s.setFlag f i k b).flag f i k = b := by
  unfold State.flag State.setFlag
  rw [State.fld_setFld h _ _ _ _ hl hh]
  have : 1 < 2 ^ (f.hi + 1 - f.lo) := Nat.one_lt_two_pow (by omega)
  cases b
  · simp [b2n]
  · simp [b2n, Nat.mod_eq_of_lt this]

end Sys2Proof.Machine
end

