-- ==== Sys2Proof/Laws/Memory.lean ====
section
/-!
SUPPORT. Laws of the memories: what a byte reads as after a write, and that writes keep the canonical form.
-/
set_option Elab.async false
namespace Sys2Proof.Machine

/-- A write keeps the canonical form. -/
theorem Memory.wf_write {m : Memory} (h : m.wf = true) (a : Nat) (bs : List Byte) : (m.write a bs).wf = true := by
  induction bs generalizing m a with
  | nil => exact h
  | cons b bs ih => exact ih (SMap.wf_put h a b) (a + 1)

/-- Removing bytes keeps the canonical form. -/
theorem Memory.wf_filter {m : Memory} (h : m.wf = true) (p : Host.Cell → Bool) : Memory.wf (m.filter p) = true :=
  SMap.wf_filter h p

/-- What a byte reads as after a write: the byte written there, or what it read as before. -/
theorem Memory.byte_write {m : Memory} (h : m.wf = true) (a : Nat) (bs : List Byte) (x : Nat) :
    (m.write a bs).byte x = if hx : a ≤ x ∧ x - a < bs.length then bs[x - a]'hx.2 else m.byte x := by
  induction bs generalizing m a with
  | nil => simp [Memory.write]
  | cons b bs ih =>
    rw [Memory.write, ih (SMap.wf_put h a b) (a + 1)]
    unfold Memory.byte
    rw [SMap.getD_put h]
    by_cases hx : x = a
    · subst hx
      rw [dif_neg (by omega), dif_pos ⟨by omega, by simp⟩]
      simp
    · by_cases hlt : a + 1 ≤ x
      · have e : x - a = (x - (a + 1)) + 1 := by omega
        by_cases hl : x - (a + 1) < bs.length
        · have h1 : a + 1 ≤ x ∧ x - (a + 1) < bs.length := ⟨hlt, hl⟩
          have h2 : a ≤ x ∧ x - a < (b :: bs).length := ⟨by omega, by simp; omega⟩
          rw [dif_pos h1, dif_pos h2]
          simp [e]
        · have h1 : ¬(a + 1 ≤ x ∧ x - (a + 1) < bs.length) := by omega
          have h2 : ¬(a ≤ x ∧ x - a < (b :: bs).length) := by simp; omega
          rw [dif_neg h1, dif_neg h2, if_neg hx]
      · have h1 : ¬(a + 1 ≤ x ∧ x - (a + 1) < bs.length) := by omega
        have h2 : ¬(a ≤ x ∧ x - a < (b :: bs).length) := by simp; omega
        rw [dif_neg h1, dif_neg h2, if_neg hx]

/-- A byte outside what is written reads as before. -/
theorem Memory.byte_write_outside {m : Memory} (h : m.wf = true) (a : Nat) (bs : List Byte) {x : Nat}
    (hx : x < a ∨ a + bs.length ≤ x) : (m.write a bs).byte x = m.byte x := by
  rw [Memory.byte_write h, dif_neg (by omega)]

/-- A read of exactly what was written gives it back. -/
theorem Memory.read_write {m : Memory} (h : m.wf = true) (a : Nat) (bs : List Byte) :
    (m.write a bs).read a bs.length = bs := by
  apply List.ext_getElem
  · simp [Memory.read]
  · intro i h1 h2
    simp only [Memory.read, List.getElem_map, List.getElem_range]
    rw [Memory.byte_write h, dif_pos ⟨by omega, by omega⟩]
    simp

/-- A read has as many bytes as asked for. -/
@[simp] theorem Memory.read_length (m : Memory) (a n : Nat) : (m.read a n).length = n := by simp [Memory.read]

/-- An empty memory is canonical. -/
@[simp] theorem Memory.wf_nil : Memory.wf [] = true := rfl

end Sys2Proof.Machine
end

