-- ==== Sys2Proof/Laws/Keeps.lean ====
section
/-!
SUPPORT. What every operation of the block keeps: the queue of commands, the order of time and of what leaves the device, the
form of the data, and every part of the state that the operation does not name. `Keeps m s t` says it of a state t that an
operation makes of s, where the bits of m are the parts that may change; the other files of Laws named Keep… have one lemma
for each operation.
-/
set_option Elab.async false
set_option linter.unusedTactic false
set_option linter.unreachableTactic false
set_option linter.unusedVariables false
namespace Sys2Proof.Machine

/-! ## Sets of parts -/

/-- The bit of a part in a set of parts. -/
def Part.bit : Part → Nat
  | .now => 0
  | .timAdj => 1
  | .regs => 2
  | .out => 3
  | .delivered => 4
  | .free => 5
  | .waits => 6
  | .hif => 7
  | .ctxs => 8
  | .handles => 9
  | .xlt => 10
  | .mat => 11
  | .rma => 12
  | .rsv => 13
  | .log => 14
  | .flt => 15
  | .pmc => 16
  | .hdl => 17
  | .spd => 18
  | .sem => 19
  | .pwr => 20
  | .rte => 21
  | .lan => 22
  | .lnk => 23
  | .sec => 24
  | .csc => 25
  | .fmem => 26
  | .spdMem => 27
  | .hmem => 28
  | .flash => 29

/-- A set within a set that lies in `m` lies in `m`. -/
theorem Mask.le {w v m : Nat} (h : v &&& m = v) (k : w &&& v = w) : w &&& m = w := by
  rw [← k, Nat.and_assoc, h]

/-- A part of a set that lies in `m` is in `m`. -/
theorem Mask.off {w m i : Nat} (h : w &&& m = w) (k : m.testBit i = false) (x : w.testBit i = true) : False := by
  rw [← h, Nat.testBit_and, k, Bool.and_false] at x
  exact Bool.noConfusion x

/-- A part outside a set that `m` lies in is outside `m`. -/
theorem Mask.sub {w m i : Nat} (h : w &&& m = w) (k : m.testBit i = false) : w.testBit i = false := by
  rw [← h, Nat.testBit_and, k, Bool.and_false]

/-! ## The relation -/

/-- What every operation keeps. -/
structure Keeps (m : Nat) (s t : State) : Prop where
  pending : t.pending = s.pending
  now : s.now ≤ t.now
  out : s.out <+: t.out
  free : s.free ≤ t.free
  ok : s.Ok → t.Ok
  same : ∀ p : Part, m.testBit p.bit = false → State.Same p s t

theorem State.Same.refl (p : Part) (s : State) : State.Same p s s := by cases p <;> rfl

theorem State.Same.trans {p : Part} {a b c : State} (h : State.Same p a b) (g : State.Same p b c) : State.Same p a c := by
  cases p <;> exact Eq.trans g h

theorem Keeps.refl {m : Nat} (s : State) : Keeps m s s :=
  ⟨rfl, Nat.le_refl _, List.prefix_rfl, Nat.le_refl _, id, fun p _ => State.Same.refl p s⟩

theorem Keeps.trans {m : Nat} {a b c : State} (h : Keeps m a b) (g : Keeps m b c) : Keeps m a c :=
  ⟨g.pending.trans h.pending, Nat.le_trans h.now g.now, h.out.trans g.out, Nat.le_trans h.free g.free, fun x => g.ok (h.ok x),
    fun p hp => (h.same p hp).trans (g.same p hp)⟩

/-- More may change. -/
theorem Keeps.mono {w m : Nat} {s t : State} (h : Keeps w s t) (hm : w &&& m = w) : Keeps m s t :=
  ⟨h.pending, h.now, h.out, h.free, h.ok, fun p hp => h.same p (Mask.sub hm hp)⟩

/-- A state built from one that keeps, with nothing new in the queue, the clock, the memories and the tables of the invariant. -/
theorem Keeps.upd {m : Nat} {s0 s : State} {timAdj : Int} {delivered : List Packet} {waits : List WaitAcc} {hif : HifState}
    {handles : SMap Handle} {xlt : XltState} {mat : MatState} {rma : RmaState} {rsv : RsvState} {log : LogState} {flt
    : FltState} {pmc : PmcState} {hdl : HdlState} {spd : SpdState} {pwr : PwrState} {rte : RteState} {lan : LanState}
    {lnk : LnkState} {sec : SecState} {csc : CscState} (h : Keeps m s0 s)
    (h_timAdj : m.testBit 1 = false → timAdj = s.timAdj)
    (h_delivered : m.testBit 4 = false → delivered = s.delivered)
    (h_waits : m.testBit 6 = false → waits = s.waits)
    (h_hif : m.testBit 7 = false → hif = s.hif)
    (h_handles : m.testBit 9 = false → handles = s.handles)
    (h_xlt : m.testBit 10 = false → xlt = s.xlt)
    (h_mat : m.testBit 11 = false → mat = s.mat)
    (h_rma : m.testBit 12 = false → rma = s.rma)
    (h_rsv : m.testBit 13 = false → rsv = s.rsv)
    (h_log : m.testBit 14 = false → log = s.log)
    (h_flt : m.testBit 15 = false → flt = s.flt)
    (h_pmc : m.testBit 16 = false → pmc = s.pmc)
    (h_hdl : m.testBit 17 = false → hdl = s.hdl)
    (h_spd : m.testBit 18 = false → spd = s.spd)
    (h_pwr : m.testBit 20 = false → pwr = s.pwr)
    (h_rte : m.testBit 21 = false → rte = s.rte)
    (h_lan : m.testBit 22 = false → lan = s.lan)
    (h_lnk : m.testBit 23 = false → lnk = s.lnk)
    (h_sec : m.testBit 24 = false → sec = s.sec)
    (h_csc : m.testBit 25 = false → csc = s.csc)
    : Keeps m s0 (State.mk s.pending s.now timAdj s.regs s.out delivered s.free waits hif s.ctxs handles xlt mat rma rsv log
    flt pmc hdl spd s.sem pwr rte lan lnk sec csc s.fmem s.spdMem s.hmem s.flash) := by
  refine h.trans ⟨rfl, Nat.le_refl _, List.prefix_rfl, Nat.le_refl _, fun k => ?_, fun p hp => ?_⟩
  · exact ⟨k.fmem, k.hmem, k.spdMem, k.flash, k.regs, k.ctxs, k.semTable, k.sems⟩
  · cases p with
    | now => exact rfl
    | timAdj => exact h_timAdj hp
    | regs => exact rfl
    | out => exact rfl
    | delivered => exact h_delivered hp
    | free => exact rfl
    | waits => exact h_waits hp
    | hif => exact h_hif hp
    | ctxs => exact rfl
    | handles => exact h_handles hp
    | xlt => exact h_xlt hp
    | mat => exact h_mat hp
    | rma => exact h_rma hp
    | rsv => exact h_rsv hp
    | log => exact h_log hp
    | flt => exact h_flt hp
    | pmc => exact h_pmc hp
    | hdl => exact h_hdl hp
    | spd => exact h_spd hp
    | sem => exact rfl
    | pwr => exact h_pwr hp
    | rte => exact h_rte hp
    | lan => exact h_lan hp
    | lnk => exact h_lnk hp
    | sec => exact h_sec hp
    | csc => exact h_csc hp
    | fmem => exact rfl
    | spdMem => exact rfl
    | hmem => exact rfl
    | flash => exact rfl

/-- A state that differs from one that keeps what it keeps in named parts only. -/
theorem Keeps.data {m : Nat} {s0 s t : State} (p : t.pending = s.pending) (n : t.now = s.now) (o : t.out = s.out)
    (f : t.free = s.free) (k : s.Ok → t.Ok) (h : Keeps m s0 s)
    (e : ∀ p : Part, m.testBit p.bit = false → State.Same p s t) : Keeps m s0 t :=
  h.trans ⟨p, n ▸ Nat.le_refl _, o ▸ List.prefix_rfl, f ▸ Nat.le_refl _, k, e⟩

/-- One half of a pair. -/
theorem Keeps.snd {m : Nat} {s0 t : State} {α : Type} {x : α} {e : α × State} (q : e = (x, t)) (h : Keeps m s0 e.2) :
    Keeps m s0 t := by
  rw [q] at h; exact h

theorem Keeps.fst {m : Nat} {s0 t : State} {α : Type} {x : α} {e : State × α} (q : e = (t, x)) (h : Keeps m s0 e.1) :
    Keeps m s0 t := by
  rw [q] at h; exact h

/-- An operation that may answer none keeps what it keeps in every state it answers. -/
structure OptKeeps (m : Nat) (s0 : State) (o : Option State) : Prop where
  all : ∀ t, o = some t → Keeps m s0 t

theorem OptKeeps.get {m : Nat} {s0 t : State} {o : Option State} (q : o = some t) (h : OptKeeps m s0 o) : Keeps m s0 t :=
  h.all t q
theorem OptKeeps.none {m : Nat} {s0 : State} : OptKeeps m s0 none := ⟨fun t h => by cases h⟩
theorem OptKeeps.some {m : Nat} {s0 t : State} (h : Keeps m s0 t) : OptKeeps m s0 (some t) := ⟨fun u q => by cases q; exact h⟩
theorem Keeps.getD {m : Nat} {s0 t : State} {o : Option State} (h : OptKeeps m s0 o) (g : Keeps m s0 t) :
    Keeps m s0 (o.getD t) := by
  cases o with
  | none => exact g
  | some u => exact h.all u rfl

theorem OptKeeps.map {m : Nat} {s0 : State} {α : Type} {o : Option α} {f : α → State} (h : ∀ x, Keeps m s0 (f x)) :
    OptKeeps m s0 (o.map f) := by
  cases o with
  | none => exact OptKeeps.none
  | some x => exact OptKeeps.some (h x)

theorem OptKeeps.mapState {m : Nat} {s0 : State} {o : Option State} {f : State → State} (h : OptKeeps m s0 o)
    (g : ∀ x, Keeps m s0 x → Keeps m s0 (f x)) : OptKeeps m s0 (o.map f) := by
  cases o with
  | none => exact OptKeeps.none
  | some x => exact OptKeeps.some (g x (h.get rfl))

theorem Keeps.foldl {m : Nat} {α : Type} {s0 s : State} {l : List α} {f : State → α → State}
    (hf : ∀ s x, Keeps m s0 s → Keeps m s0 (f s x)) (h : Keeps m s0 s) : Keeps m s0 (l.foldl f s) := by
  induction l generalizing s with
  | nil => exact h
  | cons x l ih => exact ih (hf s x h)

theorem Keeps.foldlSnd {m : Nat} {α β : Type} {s0 : State} {p : β × State} {l : List α} {f : β × State → α → β × State}
    (hf : ∀ p x, Keeps m s0 p.2 → Keeps m s0 (f p x).2) (h : Keeps m s0 p.2) : Keeps m s0 (l.foldl f p).2 := by
  induction l generalizing p with
  | nil => exact h
  | cons x l ih => exact ih (hf p x h)

theorem Keeps.foldlFst {m : Nat} {α β : Type} {s0 : State} {p : State × β} {l : List α} {f : State × β → α → State × β}
    (hf : ∀ p x, Keeps m s0 p.1 → Keeps m s0 (f p x).1) (h : Keeps m s0 p.1) : Keeps m s0 (l.foldl f p).1 := by
  induction l generalizing p with
  | nil => exact h
  | cons x l ih => exact ih (hf p x h)

/-! ## The operations that write what the invariant speaks of -/

theorem State.setReg_keeps {m : Nat} {s0 s : State} (r : RegRef) (w : Word) (h : Keeps m s0 s)
    (hm : 4 &&& m = 4 := by exact Mask.le (by assumption) rfl) : Keeps m s0 (s.setReg r w) :=
  Keeps.data (s := s) rfl rfl rfl rfl (fun k => ⟨k.fmem, k.hmem, k.spdMem, k.flash, SMap.wf_put k.regs r.off w, k.ctxs, k.semTable,
    k.sems⟩) h
    (fun p hp => by cases p <;> first | exact (Mask.off hm hp rfl).elim | rfl)

theorem State.setCtx_keeps {m : Nat} {s0 s : State} (c : Nat) (v : CtxRec) (h : Keeps m s0 s)
    (hm : 256 &&& m = 256 := by exact Mask.le (by assumption) rfl) : Keeps m s0 (s.setCtx c v) :=
  Keeps.data (s := s) rfl rfl rfl rfl (fun k => ⟨k.fmem, k.hmem, k.spdMem, k.flash, k.regs, SMap.wf_put k.ctxs c v, k.semTable,
    k.sems⟩) h
    (fun p hp => by cases p <;> first | exact (Mask.off hm hp rfl).elim | rfl)

theorem State.fresh_keeps {m : Nat} {s0 s : State} (w : Nat) (h : Keeps m s0 s)
    (hm : 32 &&& m = 32 := by exact Mask.le (by assumption) rfl) : Keeps m s0 (s.fresh w).2 :=
  h.trans ⟨rfl, Nat.le_refl _, List.prefix_rfl, Nat.le_succ _,
    fun k => ⟨k.fmem, k.hmem, k.spdMem, k.flash, k.regs, k.ctxs, k.semTable, k.sems⟩,
    fun p hp => by cases p <;> first | exact (Mask.off hm hp rfl).elim | rfl⟩

theorem State.fmemStoreRaw_keeps {m : Nat} {s0 s : State} (d : Memory) (x : s.Ok → d.wf = true) (h : Keeps m s0 s)
    (hm : 67108864 &&& m = 67108864 := by exact Mask.le (by assumption) rfl) : Keeps m s0 ({ s with fmem := d }) :=
  Keeps.data (s := s) rfl rfl rfl rfl (fun k => ⟨x k, k.hmem, k.spdMem, k.flash, k.regs, k.ctxs, k.semTable, k.sems⟩) h
    (fun p hp => by cases p <;> first | exact (Mask.off hm hp rfl).elim | rfl)

theorem State.hmemRaw_keeps {m : Nat} {s0 s : State} (d : Memory) (x : s.Ok → d.wf = true) (h : Keeps m s0 s)
    (hm : 268435456 &&& m = 268435456 := by exact Mask.le (by assumption) rfl) : Keeps m s0 ({ s with hmem := d }) :=
  Keeps.data (s := s) rfl rfl rfl rfl (fun k => ⟨k.fmem, x k, k.spdMem, k.flash, k.regs, k.ctxs, k.semTable, k.sems⟩) h
    (fun p hp => by cases p <;> first | exact (Mask.off hm hp rfl).elim | rfl)

theorem State.spdRaw_keeps {m : Nat} {s0 s : State} (d : Memory) (x : s.Ok → d.wf = true) (h : Keeps m s0 s)
    (hm : 134217728 &&& m = 134217728 := by exact Mask.le (by assumption) rfl) : Keeps m s0 ({ s with spdMem := d }) :=
  Keeps.data (s := s) rfl rfl rfl rfl (fun k => ⟨k.fmem, k.hmem, x k, k.flash, k.regs, k.ctxs, k.semTable, k.sems⟩) h
    (fun p hp => by cases p <;> first | exact (Mask.off hm hp rfl).elim | rfl)

theorem State.flashRaw_keeps {m : Nat} {s0 s : State} (d : Memory) (x : s.Ok → d.wf = true) (h : Keeps m s0 s)
    (hm : 536870912 &&& m = 536870912 := by exact Mask.le (by assumption) rfl) : Keeps m s0 ({ s with flash := d }) :=
  Keeps.data (s := s) rfl rfl rfl rfl (fun k => ⟨k.fmem, k.hmem, k.spdMem, x k, k.regs, k.ctxs, k.semTable, k.sems⟩) h
    (fun p hp => by cases p <;> first | exact (Mask.off hm hp rfl).elim | rfl)

theorem State.regsRaw_keeps {m : Nat} {s0 s : State} (d : SMap Word) (x : s.Ok → SMap.wf resetWord d = true) (h : Keeps m s0 s)
    (hm : 4 &&& m = 4 := by exact Mask.le (by assumption) rfl) : Keeps m s0 ({ s with regs := d }) :=
  Keeps.data (s := s) rfl rfl rfl rfl (fun k => ⟨k.fmem, k.hmem, k.spdMem, k.flash, x k, k.ctxs, k.semTable, k.sems⟩) h
    (fun p hp => by cases p <;> first | exact (Mask.off hm hp rfl).elim | rfl)

theorem State.ctxsRaw_keeps {m : Nat} {s0 s : State} (d : SMap CtxRec) (x : s.Ok → SMap.wf (fun _ => CtxRec.init) d = true) (h : Keeps m s0 s)
    (hm : 256 &&& m = 256 := by exact Mask.le (by assumption) rfl) : Keeps m s0 ({ s with ctxs := d }) :=
  Keeps.data (s := s) rfl rfl rfl rfl (fun k => ⟨k.fmem, k.hmem, k.spdMem, k.flash, k.regs, x k, k.semTable, k.sems⟩) h
    (fun p hp => by cases p <;> first | exact (Mask.off hm hp rfl).elim | rfl)

end Sys2Proof.Machine
end

