-- ==== Sys2Proof/Laws/KeepBase.lean ====
section
/-!
SUPPORT. What the operations that every block uses keep.
-/
set_option Elab.async false
set_option linter.unusedTactic false
set_option linter.unreachableTactic false
set_option linter.unusedVariables false
namespace Sys2Proof.Machine

theorem State.setFld_keeps {m : Nat} {s0 s : State} (f : Field) (i : Nat) (k : Nat) (v : Nat) (h : Keeps m s0 s)
    (hm : 4 &&& m = 4 := by exact Mask.le (by assumption) rfl) :
    Keeps m s0 (State.setFld s f i k v) := by
  unfold State.setFld
  try dsimp only
  repeat' (first
    | with_reducible assumption
    | with_reducible apply State.setReg_keeps (hm := Mask.le hm rfl)
    | (intro x; intros; try dsimp only)
    | dsimp only
    | split)

theorem State.setFlag_keeps {m : Nat} {s0 s : State} (f : Field) (i : Nat) (k : Nat) (b : Bool) (h : Keeps m s0 s)
    (hm : 4 &&& m = 4 := by exact Mask.le (by assumption) rfl) :
    Keeps m s0 (State.setFlag s f i k b) := by
  unfold State.setFlag
  try dsimp only
  repeat' (first
    | with_reducible assumption
    | with_reducible apply State.setFld_keeps (hm := Mask.le hm rfl)
    | (intro x; intros; try dsimp only)
    | dsimp only
    | split)

theorem State.bump_keeps {m : Nat} {s0 s : State} (f : Field) (i : Nat) (k : Nat) (n : Nat) (h : Keeps m s0 s)
    (hm : 4 &&& m = 4 := by exact Mask.le (by assumption) rfl) :
    Keeps m s0 (State.bump s f i k n) := by
  unfold State.bump
  try dsimp only
  repeat' (first
    | with_reducible assumption
    | with_reducible apply State.setFld_keeps (hm := Mask.le hm rfl)
    | (intro x; intros; try dsimp only)
    | dsimp only
    | split)

theorem State.pmcEv_keeps {m : Nat} {s0 s : State} (blk : Nat) (code : Nat) (inst : Nat) (vc : Nat) (w : Nat) (h : Keeps m s0 s)
    (hm : 65536 &&& m = 65536 := by exact Mask.le (by assumption) rfl) :
    Keeps m s0 (State.pmcEv s blk code inst vc w) := by
  unfold State.pmcEv
  try dsimp only
  repeat' (first
    | with_reducible assumption
    | exact fun (hb : Nat.testBit _ _ = _) => (Mask.off hm hb rfl).elim
    | with_reducible exact fun _ => rfl
    | (intro x; intros; try dsimp only)
    | dsimp only
    | split
    | with_reducible apply Keeps.upd)

theorem State.emit_keeps {m : Nat} {s0 s : State} (o : Output) (h : Keeps m s0 s)
    (hm : 65544 &&& m = 65544 := by exact Mask.le (by assumption) rfl) :
    Keeps m s0 (State.emit s o) := by
  unfold State.emit
  exact State.pmcEv_keeps _ _ _ _ _ (h.trans ⟨rfl, Nat.le_refl _, List.prefix_append _ _, Nat.le_refl _, fun k =>
    ⟨k.fmem, k.hmem, k.spdMem, k.flash, k.regs, k.ctxs, k.semTable, k.sems⟩,
    fun p hp => by cases p <;> first | exact (Mask.off hm hp rfl).elim | rfl⟩)

theorem State.ibi_keeps {m : Nat} {s0 s : State} (n : Nat) (h : Keeps m s0 s)
    (hm : 1114120 &&& m = 1114120 := by exact Mask.le (by assumption) rfl) :
    Keeps m s0 (State.ibi s n) := by
  unfold State.ibi
  try dsimp only
  repeat' (first
    | with_reducible assumption
    | with_reducible apply State.emit_keeps (hm := Mask.le hm rfl)
    | exact fun (hb : Nat.testBit _ _ = _) => (Mask.off hm hb rfl).elim
    | with_reducible exact fun _ => rfl
    | (intro x; intros; try dsimp only)
    | dsimp only
    | split
    | with_reducible apply Keeps.upd)

theorem State.rxBytes_keeps {m : Nat} {s0 s : State} (z1 : Nat) (n : Nat) (h : Keeps m s0 s)
    (hm : 65536 &&& m = 65536 := by exact Mask.le (by assumption) rfl) :
    Keeps m s0 (State.rxBytes s z1 n) := by
  unfold State.rxBytes
  try dsimp only
  repeat' (first
    | with_reducible assumption
    | with_reducible apply State.pmcEv_keeps (hm := Mask.le hm rfl)
    | (intro x; intros; try dsimp only)
    | dsimp only
    | split)

theorem State.takePlace_keeps {m : Nat} {s0 s : State} (used : List Nat) (n : Nat) (h : Keeps m s0 s)
    (hm : 32 &&& m = 32 := by exact Mask.le (by assumption) rfl) :
    Keeps m s0 (State.takePlace s used n).2 := by
  unfold State.takePlace
  try dsimp only
  repeat' (first
    | with_reducible assumption
    | with_reducible apply State.fresh_keeps (hm := Mask.le hm rfl)
    | (intro x; intros; try dsimp only)
    | dsimp only
    | split
    | refine Keeps.snd (by assumption) ?_)

theorem State.setFn_keeps {m : Nat} {s0 s : State} (p : Nat) (f : Nat) (v : FnState) (h : Keeps m s0 s)
    (hm : 128 &&& m = 128 := by exact Mask.le (by assumption) rfl) :
    Keeps m s0 (State.setFn s p f v) := by
  unfold State.setFn
  try dsimp only
  repeat' (first
    | with_reducible assumption
    | exact fun (hb : Nat.testBit _ _ = _) => (Mask.off hm hb rfl).elim
    | with_reducible exact fun _ => rfl
    | (intro x; intros; try dsimp only)
    | dsimp only
    | split
    | with_reducible apply Keeps.upd)

theorem State.setHport_keeps {m : Nat} {s0 s : State} (p : Nat) (v : HPortState) (h : Keeps m s0 s)
    (hm : 128 &&& m = 128 := by exact Mask.le (by assumption) rfl) :
    Keeps m s0 (State.setHport s p v) := by
  unfold State.setHport
  try dsimp only
  repeat' (first
    | with_reducible assumption
    | exact fun (hb : Nat.testBit _ _ = _) => (Mask.off hm hb rfl).elim
    | with_reducible exact fun _ => rfl
    | (intro x; intros; try dsimp only)
    | dsimp only
    | split
    | with_reducible apply Keeps.upd)

theorem State.setSub_keeps {m : Nat} {s0 s : State} (p : Nat) (k : Nat) (v : SubState) (h : Keeps m s0 s)
    (hm : 128 &&& m = 128 := by exact Mask.le (by assumption) rfl) :
    Keeps m s0 (State.setSub s p k v) := by
  unfold State.setSub
  try dsimp only
  repeat' (first
    | with_reducible assumption
    | exact fun (hb : Nat.testBit _ _ = _) => (Mask.off hm hb rfl).elim
    | with_reducible exact fun _ => rfl
    | (intro x; intros; try dsimp only)
    | dsimp only
    | split
    | with_reducible apply Keeps.upd)

theorem State.hostWrite_keeps {m : Nat} {s0 s : State} (p : Nat) (f : Nat) (a : Nat) (bs : List Byte) (h : Keeps m s0 s)
    (hm : 65544 &&& m = 65544 := by exact Mask.le (by assumption) rfl) :
    Keeps m s0 (State.hostWrite s p f a bs) := by
  unfold State.hostWrite
  try dsimp only
  repeat' (first
    | with_reducible assumption
    | with_reducible apply State.emit_keeps (hm := Mask.le hm rfl)
    | (intro x; intros; try dsimp only)
    | dsimp only
    | split)

theorem State.setHandle_keeps {m : Nat} {s0 s : State} (z1 : Handle) (h : Keeps m s0 s)
    (hm : 512 &&& m = 512 := by exact Mask.le (by assumption) rfl) :
    Keeps m s0 (State.setHandle s z1) := by
  unfold State.setHandle
  try dsimp only
  repeat' (first
    | with_reducible assumption
    | exact fun (hb : Nat.testBit _ _ = _) => (Mask.off hm hb rfl).elim
    | with_reducible exact fun _ => rfl
    | (intro x; intros; try dsimp only)
    | dsimp only
    | split
    | with_reducible apply Keeps.upd)

theorem State.setPba_keeps {m : Nat} {s0 s : State} (p : Nat) (f : Nat) (vec : Nat) (b : Bool) (h : Keeps m s0 s)
    (hm : 132 &&& m = 132 := by exact Mask.le (by assumption) rfl) :
    Keeps m s0 (State.setPba s p f vec b) := by
  unfold State.setPba
  try dsimp only
  repeat' (first
    | with_reducible assumption
    | with_reducible apply State.setReg_keeps (hm := Mask.le hm rfl)
    | with_reducible apply State.setFn_keeps (hm := Mask.le hm rfl)
    | (intro x; intros; try dsimp only)
    | dsimp only
    | split)

theorem State.updateWire_keeps {m : Nat} {s0 s : State} (p : Nat) (h : Keeps m s0 s)
    (hm : 65672 &&& m = 65672 := by exact Mask.le (by assumption) rfl) :
    Keeps m s0 (State.updateWire s p) := by
  unfold State.updateWire
  try dsimp only
  repeat' (first
    | with_reducible assumption
    | with_reducible apply State.emit_keeps (hm := Mask.le hm rfl)
    | with_reducible apply State.setHport_keeps (hm := Mask.le hm rfl)
    | (intro x; intros; try dsimp only)
    | dsimp only
    | split)

theorem State.sendMsix_keeps {m : Nat} {s0 s : State} (p : Nat) (f : Nat) (vec : Nat) (h : Keeps m s0 s)
    (hm : 65544 &&& m = 65544 := by exact Mask.le (by assumption) rfl) :
    Keeps m s0 (State.sendMsix s p f vec) := by
  unfold State.sendMsix
  try dsimp only
  repeat' (first
    | with_reducible assumption
    | with_reducible apply State.emit_keeps (hm := Mask.le hm rfl)
    | (intro x; intros; try dsimp only)
    | dsimp only
    | split)

theorem State.vecEvent_keeps {m : Nat} {s0 s : State} (p : Nat) (f : Nat) (vec : Nat) (h : Keeps m s0 s)
    (hm : 65676 &&& m = 65676 := by exact Mask.le (by assumption) rfl) :
    Keeps m s0 (State.vecEvent s p f vec) := by
  unfold State.vecEvent
  try dsimp only
  repeat' (first
    | with_reducible assumption
    | with_reducible apply State.setPba_keeps (hm := Mask.le hm rfl)
    | with_reducible apply State.sendMsix_keeps (hm := Mask.le hm rfl)
    | with_reducible apply State.updateWire_keeps (hm := Mask.le hm rfl)
    | (intro x; intros; try dsimp only)
    | dsimp only
    | split)

theorem State.flushPending_keeps {m : Nat} {s0 s : State} (p : Nat) (f : Nat) (h : Keeps m s0 s)
    (hm : 65676 &&& m = 65676 := by exact Mask.le (by assumption) rfl) :
    Keeps m s0 (State.flushPending s p f) := by
  unfold State.flushPending
  try dsimp only
  repeat' (first
    | with_reducible assumption
    | with_reducible apply State.setPba_keeps (hm := Mask.le hm rfl)
    | with_reducible apply State.sendMsix_keeps (hm := Mask.le hm rfl)
    | with_reducible apply Keeps.foldl
    | with_reducible apply Keeps.foldlSnd
    | with_reducible apply Keeps.foldlFst
    | (intro x; intros; try dsimp only)
    | dsimp only
    | split)

theorem State.blockVec_keeps {m : Nat} {s0 s : State} (vec : Nat) (h : Keeps m s0 s)
    (hm : 65676 &&& m = 65676 := by exact Mask.le (by assumption) rfl) :
    Keeps m s0 (State.blockVec s vec) := by
  unfold State.blockVec
  try dsimp only
  repeat' (first
    | with_reducible assumption
    | with_reducible apply State.vecEvent_keeps (hm := Mask.le hm rfl)
    | with_reducible apply Keeps.foldl
    | with_reducible apply Keeps.foldlSnd
    | with_reducible apply Keeps.foldlFst
    | (intro x; intros; try dsimp only)
    | dsimp only
    | split)

theorem State.logAppend_keeps {m : Nat} {s0 s : State} (r : LogRec) (h : Keeps m s0 s)
    (hm : 81924 &&& m = 81924 := by exact Mask.le (by assumption) rfl) :
    Keeps m s0 (State.logAppend s r) := by
  unfold State.logAppend
  try dsimp only
  repeat' (first
    | with_reducible assumption
    | with_reducible apply State.pmcEv_keeps (hm := Mask.le hm rfl)
    | with_reducible apply State.setFld_keeps (hm := Mask.le hm rfl)
    | exact fun (hb : Nat.testBit _ _ = _) => (Mask.off hm hb rfl).elim
    | with_reducible exact fun _ => rfl
    | (intro x; intros; try dsimp only)
    | dsimp only
    | split
    | with_reducible apply Keeps.upd)

theorem State.logWrite_keeps {m : Nat} {s0 s : State} (z1 : Nat) (off : Nat) (old : Word) (new : Word) (h : Keeps m s0 s)
    (hm : 81924 &&& m = 81924 := by exact Mask.le (by assumption) rfl) :
    Keeps m s0 (State.logWrite s z1 off old new) := by
  unfold State.logWrite
  try dsimp only
  repeat' (first
    | with_reducible assumption
    | with_reducible apply State.logAppend_keeps (hm := Mask.le hm rfl)
    | (intro x; intros; try dsimp only)
    | dsimp only
    | split)

theorem State.logIgnored_keeps {m : Nat} {s0 s : State} (z1 : Nat) (off : Nat) (reason : Nat) (old : Word) (tried : Word) (h : Keeps m s0 s)
    (hm : 81924 &&& m = 81924 := by exact Mask.le (by assumption) rfl) :
    Keeps m s0 (State.logIgnored s z1 off reason old tried) := by
  unfold State.logIgnored
  try dsimp only
  repeat' (first
    | with_reducible assumption
    | with_reducible apply State.logAppend_keeps (hm := Mask.le hm rfl)
    | (intro x; intros; try dsimp only)
    | dsimp only
    | split)

theorem State.logTable_keeps {m : Nat} {s0 s : State} (z1 : Nat) (table : Nat) (index : Nat) (old : Word) (new : Word) (h : Keeps m s0 s)
    (hm : 81924 &&& m = 81924 := by exact Mask.le (by assumption) rfl) :
    Keeps m s0 (State.logTable s z1 table index old new) := by
  unfold State.logTable
  try dsimp only
  repeat' (first
    | with_reducible assumption
    | with_reducible apply State.logAppend_keeps (hm := Mask.le hm rfl)
    | (intro x; intros; try dsimp only)
    | dsimp only
    | split)

theorem State.logMarker_keeps {m : Nat} {s0 s : State} (addr : Nat) (old : Word) (new : Word) (h : Keeps m s0 s)
    (hm : 81924 &&& m = 81924 := by exact Mask.le (by assumption) rfl) :
    Keeps m s0 (State.logMarker s addr old new) := by
  unfold State.logMarker
  try dsimp only
  repeat' (first
    | with_reducible assumption
    | with_reducible apply State.logAppend_keeps (hm := Mask.le hm rfl)
    | (intro x; intros; try dsimp only)
    | dsimp only
    | split)

theorem State.targetWrite_keeps {m : Nat} {s0 s : State} (off : Nat) (bs : List Byte) (h : Keeps m s0 s)
    (hm : 65544 &&& m = 65544 := by exact Mask.le (by assumption) rfl) :
    Keeps m s0 (State.targetWrite s off bs) := by
  unfold State.targetWrite
  try dsimp only
  repeat' (first
    | with_reducible assumption
    | with_reducible apply State.pmcEv_keeps (hm := Mask.le hm rfl)
    | with_reducible apply State.emit_keeps (hm := Mask.le hm rfl)
    | (intro x; intros; try dsimp only)
    | dsimp only
    | split)

theorem State.holdChange_keeps {m : Nat} {s0 s : State} (x : HeldChange) (h : Keeps m s0 s)
    (hm : 8192 &&& m = 8192 := by exact Mask.le (by assumption) rfl) :
    Keeps m s0 (State.holdChange s x) := by
  unfold State.holdChange
  try dsimp only
  repeat' (first
    | with_reducible assumption
    | exact fun (hb : Nat.testBit _ _ = _) => (Mask.off hm hb rfl).elim
    | with_reducible exact fun _ => rfl
    | (intro x; intros; try dsimp only)
    | dsimp only
    | split
    | with_reducible apply Keeps.upd)

theorem State.stageAt_keeps {m : Nat} {s0 s : State} (r : JRec) (latest : Bool) (h : Keeps m s0 s)
    (hm : 8192 &&& m = 8192 := by exact Mask.le (by assumption) rfl) :
    Keeps m s0 (State.stageAt s r latest) := by
  unfold State.stageAt
  try dsimp only
  repeat' (first
    | with_reducible assumption
    | exact fun (hb : Nat.testBit _ _ = _) => (Mask.off hm hb rfl).elim
    | with_reducible exact fun _ => rfl
    | (intro x; intros; try dsimp only)
    | dsimp only
    | split
    | with_reducible apply Keeps.upd)

theorem State.stage_keeps {m : Nat} {s0 s : State} (r : JRec) (latest : Bool) (h : Keeps m s0 s)
    (hm : 8192 &&& m = 8192 := by exact Mask.le (by assumption) rfl) :
    Keeps m s0 (State.stage s r latest) := by
  unfold State.stage
  try dsimp only
  repeat' (first
    | with_reducible assumption
    | with_reducible apply State.stageAt_keeps (hm := Mask.le hm rfl)
    | (intro x; intros; try dsimp only)
    | dsimp only
    | split)

theorem State.journalFlush_keeps {m : Nat} {s0 s : State}  (h : Keeps m s0 s)
    (hm : 73736 &&& m = 73736 := by exact Mask.le (by assumption) rfl) :
    Keeps m s0 (State.journalFlush s) := by
  unfold State.journalFlush
  try dsimp only
  repeat' (first
    | with_reducible assumption
    | with_reducible apply State.targetWrite_keeps (hm := Mask.le hm rfl)
    | with_reducible apply Keeps.foldl
    | with_reducible apply Keeps.foldlSnd
    | with_reducible apply Keeps.foldlFst
    | exact fun (hb : Nat.testBit _ _ = _) => (Mask.off hm hb rfl).elim
    | with_reducible exact fun _ => rfl
    | (intro x; intros; try dsimp only)
    | dsimp only
    | split
    | with_reducible apply Keeps.upd)

theorem State.report_keeps {m : Nat} {s0 s : State} (r : JRec) (h : Keeps m s0 s)
    (hm : 8192 &&& m = 8192 := by exact Mask.le (by assumption) rfl) :
    Keeps m s0 (State.report s r) := by
  unfold State.report
  try dsimp only
  repeat' (first
    | with_reducible assumption
    | with_reducible apply State.stage_keeps (hm := Mask.le hm rfl)
    | (intro x; intros; try dsimp only)
    | dsimp only
    | split)

theorem State.reportLatest_keeps {m : Nat} {s0 s : State} (r : JRec) (h : Keeps m s0 s)
    (hm : 8192 &&& m = 8192 := by exact Mask.le (by assumption) rfl) :
    Keeps m s0 (State.reportLatest s r) := by
  unfold State.reportLatest
  try dsimp only
  repeat' (first
    | with_reducible assumption
    | with_reducible apply State.stage_keeps (hm := Mask.le hm rfl)
    | exact fun (hb : Nat.testBit _ _ = _) => (Mask.off hm hb rfl).elim
    | with_reducible exact fun _ => rfl
    | (intro x; intros; try dsimp only)
    | dsimp only
    | split
    | with_reducible apply Keeps.upd)

theorem State.superblock_keeps {m : Nat} {s0 s : State} (st : Nat) (sealLsn : Nat) (sealOff : Nat) (dsc : Nat) (h : Keeps m s0 s)
    (hm : 73736 &&& m = 73736 := by exact Mask.le (by assumption) rfl) :
    Keeps m s0 (State.superblock s st sealLsn sealOff dsc) := by
  unfold State.superblock
  try dsimp only
  repeat' (first
    | with_reducible assumption
    | with_reducible apply State.journalFlush_keeps (hm := Mask.le hm rfl)
    | with_reducible apply State.targetWrite_keeps (hm := Mask.le hm rfl)
    | exact fun (hb : Nat.testBit _ _ = _) => (Mask.off hm hb rfl).elim
    | with_reducible exact fun _ => rfl
    | (intro x; intros; try dsimp only)
    | dsimp only
    | split
    | with_reducible apply Keeps.upd)

theorem State.squelchAll_keeps {m : Nat} {s0 s : State}  (h : Keeps m s0 s)
    (hm : 65544 &&& m = 65544 := by exact Mask.le (by assumption) rfl) :
    Keeps m s0 (State.squelchAll s) := by
  unfold State.squelchAll
  try dsimp only
  repeat' (first
    | with_reducible assumption
    | with_reducible apply State.emit_keeps (hm := Mask.le hm rfl)
    | with_reducible apply Keeps.foldl
    | with_reducible apply Keeps.foldlSnd
    | with_reducible apply Keeps.foldlFst
    | (intro x; intros; try dsimp only)
    | dsimp only
    | split)

theorem State.takeTag_keeps {m : Nat} {s0 s : State}  (h : Keeps m s0 s)
    (hm : 128 &&& m = 128 := by exact Mask.le (by assumption) rfl) :
    Keeps m s0 (State.takeTag s).2 := by
  unfold State.takeTag
  try dsimp only
  repeat' (first
    | with_reducible assumption
    | exact fun (hb : Nat.testBit _ _ = _) => (Mask.off hm hb rfl).elim
    | with_reducible exact fun _ => rfl
    | (intro x; intros; try dsimp only)
    | dsimp only
    | split
    | with_reducible apply Keeps.upd)

theorem State.takeOther_keeps {m : Nat} {s0 s : State} (p : Nat) (fn : Nat) (u : OtherUse) (h : Keeps m s0 s)
    (hm : 128 &&& m = 128 := by exact Mask.le (by assumption) rfl) :
    Keeps m s0 (State.takeOther s p fn u).2 := by
  unfold State.takeOther
  try dsimp only
  repeat' (first
    | with_reducible assumption
    | with_reducible apply State.takeTag_keeps (hm := Mask.le hm rfl)
    | exact fun (hb : Nat.testBit _ _ = _) => (Mask.off hm hb rfl).elim
    | with_reducible exact fun _ => rfl
    | (intro x; intros; try dsimp only)
    | dsimp only
    | split
    | refine Keeps.snd (by assumption) ?_
    | with_reducible apply Keeps.upd)

theorem State.dropOther_keeps {m : Nat} {s0 s : State} (u : OtherUse) (h : Keeps m s0 s)
    (hm : 128 &&& m = 128 := by exact Mask.le (by assumption) rfl) :
    Keeps m s0 (State.dropOther s u) := by
  unfold State.dropOther
  try dsimp only
  repeat' (first
    | with_reducible assumption
    | exact fun (hb : Nat.testBit _ _ = _) => (Mask.off hm hb rfl).elim
    | with_reducible exact fun _ => rfl
    | (intro x; intros; try dsimp only)
    | dsimp only
    | split
    | with_reducible apply Keeps.upd)

theorem State.sealFlush_keeps {m : Nat} {s0 s : State}  (h : Keeps m s0 s)
    (hm : 65672 &&& m = 65672 := by exact Mask.le (by assumption) rfl) :
    Keeps m s0 (State.sealFlush s) := by
  unfold State.sealFlush
  try dsimp only
  repeat' (first
    | with_reducible assumption
    | with_reducible apply State.emit_keeps (hm := Mask.le hm rfl)
    | with_reducible apply State.takeOther_keeps (hm := Mask.le hm rfl)
    | (intro x; intros; try dsimp only)
    | dsimp only
    | split
    | refine Keeps.snd (by assumption) ?_)

theorem State.sealWrite_keeps {m : Nat} {s0 s : State} (cause : Nat) (h : Keeps m s0 s)
    (hm : 73736 &&& m = 73736 := by exact Mask.le (by assumption) rfl) :
    Keeps m s0 (State.sealWrite s cause) := by
  unfold State.sealWrite
  try dsimp only
  repeat' (first
    | with_reducible assumption
    | with_reducible apply State.stage_keeps (hm := Mask.le hm rfl)
    | with_reducible apply State.superblock_keeps (hm := Mask.le hm rfl)
    | with_reducible apply Keeps.getD
    | with_reducible apply OptKeeps.mapState
    | with_reducible apply OptKeeps.map
    | (intro x; intros; try dsimp only)
    | dsimp only
    | split)

theorem State.sealDrain_keeps {m : Nat} {s0 s : State}  (h : Keeps m s0 s)
    (hm : 73864 &&& m = 73864 := by exact Mask.le (by assumption) rfl) :
    Keeps m s0 (State.sealDrain s) := by
  unfold State.sealDrain
  try dsimp only
  repeat' (first
    | with_reducible assumption
    | with_reducible apply State.sealWrite_keeps (hm := Mask.le hm rfl)
    | with_reducible apply State.sealFlush_keeps (hm := Mask.le hm rfl)
    | exact fun (hb : Nat.testBit _ _ = _) => (Mask.off hm hb rfl).elim
    | with_reducible exact fun _ => rfl
    | (intro x; intros; try dsimp only)
    | dsimp only
    | split
    | with_reducible apply Keeps.upd)

theorem State.sealStart_keeps {m : Nat} {s0 s : State} (cause : Nat) (h : Keeps m s0 s)
    (hm : 73868 &&& m = 73868 := by exact Mask.le (by assumption) rfl) :
    Keeps m s0 (State.sealStart s cause) := by
  unfold State.sealStart
  extract_lets q1 s1 s2 s3 s4 q2 s5
  have h1 : Keeps m s0 s1 := by
    show Keeps m s0 (if _ then _ else _)
    split
    · refine Keeps.upd h ?_ ?_ ?_ ?_ ?_ ?_ ?_ ?_ ?_ ?_ ?_ ?_ ?_ ?_ ?_ ?_ ?_ ?_ ?_ ?_ <;>
        first | exact fun hb => (Mask.off hm hb rfl).elim | exact fun _ => rfl
    · exact h
  clear_value s1
  have h4 : Keeps m s0 s4 := State.setFld_keeps _ _ _ _ (State.setFld_keeps _ _ _ _ (State.squelchAll_keeps h1))
  clear_value s4
  have h5 : Keeps m s0 s5 := by
    refine Keeps.upd h4 ?_ ?_ ?_ ?_ ?_ ?_ ?_ ?_ ?_ ?_ ?_ ?_ ?_ ?_ ?_ ?_ ?_ ?_ ?_ ?_ <;>
      first | exact fun hb => (Mask.off hm hb rfl).elim | exact fun _ => rfl
  clear_value s5
  split
  · exact State.sealDrain_keeps h5
  · exact h1

theorem State.cfgStore_keeps {m : Nat} {s0 s : State} (p : Nat) (f : Nat) (dword : Nat) (val : Nat) (h : Keeps m s0 s)
    (hm : 128 &&& m = 128 := by exact Mask.le (by assumption) rfl) :
    Keeps m s0 (State.cfgStore s p f dword val) := by
  unfold State.cfgStore
  try dsimp only
  repeat' (first
    | with_reducible assumption
    | with_reducible apply State.setFn_keeps (hm := Mask.le hm rfl)
    | with_reducible apply State.setHport_keeps (hm := Mask.le hm rfl)
    | (intro x; intros; try dsimp only)
    | dsimp only
    | split)

theorem State.stopLinks_keeps {m : Nat} {s0 s : State}  (h : Keeps m s0 s)
    (hm : 4 &&& m = 4 := by exact Mask.le (by assumption) rfl) :
    Keeps m s0 (State.stopLinks s) := by
  unfold State.stopLinks
  try dsimp only
  repeat' (first
    | with_reducible assumption
    | with_reducible apply State.setFld_keeps (hm := Mask.le hm rfl)
    | with_reducible apply State.bump_keeps (hm := Mask.le hm rfl)
    | with_reducible apply Keeps.foldl
    | with_reducible apply Keeps.foldlSnd
    | with_reducible apply Keeps.foldlFst
    | (intro x; intros; try dsimp only)
    | dsimp only
    | split)

theorem State.deviceStop_keeps {m : Nat} {s0 s : State} (blk : Nat) (src : Nat) (h : Keeps m s0 s)
    (hm : 1122444 &&& m = 1122444 := by exact Mask.le (by assumption) rfl) :
    Keeps m s0 (State.deviceStop s blk src) := by
  unfold State.deviceStop
  try dsimp only
  repeat' (first
    | with_reducible assumption
    | with_reducible apply State.setFlag_keeps (hm := Mask.le hm rfl)
    | with_reducible apply State.setFld_keeps (hm := Mask.le hm rfl)
    | with_reducible apply State.stopLinks_keeps (hm := Mask.le hm rfl)
    | with_reducible apply State.squelchAll_keeps (hm := Mask.le hm rfl)
    | with_reducible apply State.ibi_keeps (hm := Mask.le hm rfl)
    | with_reducible apply State.sealStart_keeps (hm := Mask.le hm rfl)
    | with_reducible apply State.blockVec_keeps (hm := Mask.le hm rfl)
    | (intro x; intros; try dsimp only)
    | dsimp only
    | split)

theorem State.alsoRecord_keeps {m : Nat} {s0 s : State} (blk : Nat) (src : Nat) (h : Keeps m s0 s)
    (hm : 4 &&& m = 4 := by exact Mask.le (by assumption) rfl) :
    Keeps m s0 (State.alsoRecord s blk src) := by
  unfold State.alsoRecord
  try dsimp only
  repeat' (first
    | with_reducible assumption
    | with_reducible apply State.setFlag_keeps (hm := Mask.le hm rfl)
    | with_reducible apply State.setFld_keeps (hm := Mask.le hm rfl)
    | (intro x; intros; try dsimp only)
    | dsimp only
    | split)

theorem State.firstRecord_keeps {m : Nat} {s0 s : State} (blk : Nat) (sev : Nat) (src : Nat) (z4 : Nat) (detail : Nat) (inj : Bool) (h : Keeps m s0 s)
    (hm : 32772 &&& m = 32772 := by exact Mask.le (by assumption) rfl) :
    Keeps m s0 (State.firstRecord s blk sev src z4 detail inj) := by
  unfold State.firstRecord
  try dsimp only
  repeat' (first
    | with_reducible assumption
    | with_reducible apply State.setReg_keeps (hm := Mask.le hm rfl)
    | with_reducible apply State.setFld_keeps (hm := Mask.le hm rfl)
    | with_reducible apply State.setFlag_keeps (hm := Mask.le hm rfl)
    | exact fun (hb : Nat.testBit _ _ = _) => (Mask.off hm hb rfl).elim
    | with_reducible exact fun _ => rfl
    | (intro x; intros; try dsimp only)
    | dsimp only
    | split
    | with_reducible apply Keeps.upd)

theorem State.record_keeps {m : Nat} {s0 s : State} (blk : Nat) (sev : Nat) (src : Nat) (z4 : Nat) (detail : Nat) (inj : Bool) (h : Keeps m s0 s)
    (hm : 32772 &&& m = 32772 := by exact Mask.le (by assumption) rfl) :
    Keeps m s0 (State.record s blk sev src z4 detail inj).1 := by
  unfold State.record
  try dsimp only
  repeat' (first
    | with_reducible assumption
    | with_reducible apply State.setFld_keeps (hm := Mask.le hm rfl)
    | with_reducible apply State.firstRecord_keeps (hm := Mask.le hm rfl)
    | with_reducible apply State.alsoRecord_keeps (hm := Mask.le hm rfl)
    | (intro x; intros; try dsimp only)
    | dsimp only
    | split)

theorem State.escalate_keeps {m : Nat} {s0 s : State} (blk : Nat) (src : Nat) (h : Keeps m s0 s)
    (hm : 32772 &&& m = 32772 := by exact Mask.le (by assumption) rfl) :
    Keeps m s0 (State.escalate s blk src) := by
  unfold State.escalate
  try dsimp only
  repeat' (first
    | with_reducible assumption
    | with_reducible apply State.setFlag_keeps (hm := Mask.le hm rfl)
    | exact fun (hb : Nat.testBit _ _ = _) => (Mask.off hm hb rfl).elim
    | with_reducible exact fun _ => rfl
    | (intro x; intros; try dsimp only)
    | dsimp only
    | split
    | with_reducible apply Keeps.upd)

theorem State.openWindow_keeps {m : Nat} {s0 s : State} (blk : Nat) (src : Nat) (h : Keeps m s0 s)
    (hm : 32772 &&& m = 32772 := by exact Mask.le (by assumption) rfl) :
    Keeps m s0 (State.openWindow s blk src) := by
  unfold State.openWindow
  try dsimp only
  repeat' (first
    | with_reducible assumption
    | with_reducible apply State.setFld_keeps (hm := Mask.le hm rfl)
    | exact fun (hb : Nat.testBit _ _ = _) => (Mask.off hm hb rfl).elim
    | with_reducible exact fun _ => rfl
    | (intro x; intros; try dsimp only)
    | dsimp only
    | split
    | with_reducible apply Keeps.upd)

theorem State.windowCount_keeps {m : Nat} {s0 s : State} (blk : Nat) (src : Nat) (h : Keeps m s0 s)
    (hm : 32772 &&& m = 32772 := by exact Mask.le (by assumption) rfl) :
    Keeps m s0 (State.windowCount s blk src) := by
  unfold State.windowCount
  try dsimp only
  repeat' (first
    | with_reducible assumption
    | with_reducible apply State.setFld_keeps (hm := Mask.le hm rfl)
    | with_reducible apply State.openWindow_keeps (hm := Mask.le hm rfl)
    | (intro x; intros; try dsimp only)
    | dsimp only
    | split)

theorem State.event_keeps {m : Nat} {s0 s : State} (blk : Nat) (src : Nat) (z3 : Nat) (detail : Nat) (inj : Bool) (fatal : Bool) (h : Keeps m s0 s)
    (hm : 1155212 &&& m = 1155212 := by exact Mask.le (by assumption) rfl) :
    Keeps m s0 (State.event s blk src z3 detail inj fatal) := by
  unfold State.event
  generalize sourceSpec blk src = o
  cases o with
  | none => exact h
  | some sp =>
    dsimp -zeta only
    extract_lets s1 was s2 turns s3 stop sev r s5 s6
    have h1 : Keeps m s0 s1 := State.bump_keeps _ _ _ _ h
    clear_value s1
    have h2 : Keeps m s0 s2 := by
      show Keeps m s0 (if was = true then s1 else s1.windowCount blk src)
      split
      · exact h1
      · exact State.windowCount_keeps _ _ h1
    clear_value s2
    have h3 : Keeps m s0 s3 := by
      show Keeps m s0 (if turns = true then s2.setFlag FLT_COUNT.severe blk src true else s2)
      split
      · exact State.setFlag_keeps _ _ _ _ h2
      · exact h2
    have h4 : Keeps m s0 r.1 := State.record_keeps _ _ _ _ _ _ h3
    clear_value r
    have h5 : Keeps m s0 s5 := by
      show Keeps m s0 (if _ then _ else _)
      split
      · exact State.escalate_keeps _ _ h4
      · exact h4
    clear_value s5
    have h6 : Keeps m s0 s6 := by
      show Keeps m s0 (if _ then _ else _)
      split
      · exact State.blockVec_keeps _ h5
      · exact h5
    clear_value s6
    split
    · exact State.deviceStop_keeps _ _ h6
    · exact h6

theorem State.fault_keeps {m : Nat} {s0 s : State} (blk : Nat) (src : Nat) (detail : Nat) (h : Keeps m s0 s)
    (hm : 1155212 &&& m = 1155212 := by exact Mask.le (by assumption) rfl) :
    Keeps m s0 (State.fault s blk src detail) := by
  unfold State.fault
  try dsimp only
  repeat' (first
    | with_reducible assumption
    | with_reducible apply State.event_keeps (hm := Mask.le hm rfl)
    | (intro x; intros; try dsimp only)
    | dsimp only
    | split)

theorem State.faultBy_keeps {m : Nat} {s0 s : State} (blk : Nat) (src : Nat) (z3 : Nat) (detail : Nat) (h : Keeps m s0 s)
    (hm : 1155212 &&& m = 1155212 := by exact Mask.le (by assumption) rfl) :
    Keeps m s0 (State.faultBy s blk src z3 detail) := by
  unfold State.faultBy
  try dsimp only
  repeat' (first
    | with_reducible assumption
    | with_reducible apply State.event_keeps (hm := Mask.le hm rfl)
    | (intro x; intros; try dsimp only)
    | dsimp only
    | split)

theorem State.sampleConsider_keeps {m : Nat} {s0 s : State} (kind : Nat) (key : Nat) (op : Nat) (size : Nat) (item : BitVec 384) (ctxs : List Nat) (ports : List Nat) (base : Nat) (h : Keeps m s0 s)
    (hm : 65540 &&& m = 65540 := by exact Mask.le (by assumption) rfl) :
    Keeps m s0 (State.sampleConsider s kind key op size item ctxs ports base) := by
  unfold State.sampleConsider
  try dsimp only
  repeat' (first
    | with_reducible assumption
    | with_reducible apply State.pmcEv_keeps (hm := Mask.le hm rfl)
    | with_reducible apply State.bump_keeps (hm := Mask.le hm rfl)
    | exact fun (hb : Nat.testBit _ _ = _) => (Mask.off hm hb rfl).elim
    | with_reducible exact fun _ => rfl
    | (intro x; intros; try dsimp only)
    | dsimp only
    | split
    | with_reducible apply Keeps.upd)

theorem State.sampleUpdate_keeps {m : Nat} {s0 s : State} (kind : Nat) (key : Nat) (f : Sample → Sample) (h : Keeps m s0 s)
    (hm : 65536 &&& m = 65536 := by exact Mask.le (by assumption) rfl) :
    Keeps m s0 (State.sampleUpdate s kind key f) := by
  unfold State.sampleUpdate
  try dsimp only
  repeat' (first
    | with_reducible assumption
    | exact fun (hb : Nat.testBit _ _ = _) => (Mask.off hm hb rfl).elim
    | with_reducible exact fun _ => rfl
    | (intro x; intros; try dsimp only)
    | dsimp only
    | split
    | with_reducible apply Keeps.upd)

theorem State.stampFirst_keeps {m : Nat} {s0 s : State} (kind : Nat) (key : Nat) (stage : Nat) (h : Keeps m s0 s)
    (hm : 65536 &&& m = 65536 := by exact Mask.le (by assumption) rfl) :
    Keeps m s0 (State.stampFirst s kind key stage) := by
  unfold State.stampFirst
  try dsimp only
  repeat' (first
    | with_reducible assumption
    | with_reducible apply State.sampleUpdate_keeps (hm := Mask.le hm rfl)
    | (intro x; intros; try dsimp only)
    | dsimp only
    | split)

theorem State.stampLast_keeps {m : Nat} {s0 s : State} (kind : Nat) (key : Nat) (stage : Nat) (h : Keeps m s0 s)
    (hm : 65536 &&& m = 65536 := by exact Mask.le (by assumption) rfl) :
    Keeps m s0 (State.stampLast s kind key stage) := by
  unfold State.stampLast
  try dsimp only
  repeat' (first
    | with_reducible assumption
    | with_reducible apply State.sampleUpdate_keeps (hm := Mask.le hm rfl)
    | (intro x; intros; try dsimp only)
    | dsimp only
    | split)

theorem State.stampAt_keeps {m : Nat} {s0 s : State} (kind : Nat) (key : Nat) (stage : Nat) (t : Nat) (h : Keeps m s0 s)
    (hm : 65536 &&& m = 65536 := by exact Mask.le (by assumption) rfl) :
    Keeps m s0 (State.stampAt s kind key stage t) := by
  unfold State.stampAt
  try dsimp only
  repeat' (first
    | with_reducible assumption
    | with_reducible apply State.sampleUpdate_keeps (hm := Mask.le hm rfl)
    | (intro x; intros; try dsimp only)
    | dsimp only
    | split)

theorem State.samplePacket_keeps {m : Nat} {s0 s : State} (hdr : BitVec 256) (f : Sample → Sample) (h : Keeps m s0 s)
    (hm : 65536 &&& m = 65536 := by exact Mask.le (by assumption) rfl) :
    Keeps m s0 (State.samplePacket s hdr f) := by
  unfold State.samplePacket
  try dsimp only
  repeat' (first
    | with_reducible assumption
    | exact fun (hb : Nat.testBit _ _ = _) => (Mask.off hm hb rfl).elim
    | with_reducible exact fun _ => rfl
    | (intro x; intros; try dsimp only)
    | dsimp only
    | split
    | with_reducible apply Keeps.upd)

theorem State.stampPkt_keeps {m : Nat} {s0 s : State} (hdr : BitVec 256) (stage : Nat) (h : Keeps m s0 s)
    (hm : 65536 &&& m = 65536 := by exact Mask.le (by assumption) rfl) :
    Keeps m s0 (State.stampPkt s hdr stage) := by
  unfold State.stampPkt
  try dsimp only
  repeat' (first
    | with_reducible assumption
    | with_reducible apply State.samplePacket_keeps (hm := Mask.le hm rfl)
    | (intro x; intros; try dsimp only)
    | dsimp only
    | split)

theorem State.stampAccess_keeps {m : Nat} {s0 s : State} (hdr : BitVec 256) (addr : Nat) (h : Keeps m s0 s)
    (hm : 65536 &&& m = 65536 := by exact Mask.le (by assumption) rfl) :
    Keeps m s0 (State.stampAccess s hdr addr) := by
  unfold State.stampAccess
  try dsimp only
  repeat' (first
    | with_reducible assumption
    | with_reducible apply State.samplePacket_keeps (hm := Mask.le hm rfl)
    | (intro x; intros; try dsimp only)
    | dsimp only
    | split)

theorem State.endPkt_keeps {m : Nat} {s0 s : State} (hdr : BitVec 256) (answered : Bool) (h : Keeps m s0 s)
    (hm : 65536 &&& m = 65536 := by exact Mask.le (by assumption) rfl) :
    Keeps m s0 (State.endPkt s hdr answered) := by
  unfold State.endPkt
  try dsimp only
  repeat' (first
    | with_reducible assumption
    | with_reducible apply State.samplePacket_keeps (hm := Mask.le hm rfl)
    | with_reducible apply State.stampPkt_keeps (hm := Mask.le hm rfl)
    | (intro x; intros; try dsimp only)
    | dsimp only
    | split)

theorem State.sampleLocal_keeps {m : Nat} {s0 s : State} (key : Nat) (addr : Nat) (h : Keeps m s0 s)
    (hm : 65536 &&& m = 65536 := by exact Mask.le (by assumption) rfl) :
    Keeps m s0 (State.sampleLocal s key addr) := by
  unfold State.sampleLocal
  try dsimp only
  repeat' (first
    | with_reducible assumption
    | with_reducible apply State.sampleUpdate_keeps (hm := Mask.le hm rfl)
    | with_reducible apply State.stampFirst_keeps (hm := Mask.le hm rfl)
    | (intro x; intros; try dsimp only)
    | dsimp only
    | split)

theorem State.sampleEnd_keeps {m : Nat} {s0 s : State} (kind : Nat) (key : Nat) (status : Nat) (size : Option Nat) (h : Keeps m s0 s)
    (hm : 65536 &&& m = 65536 := by exact Mask.le (by assumption) rfl) :
    Keeps m s0 (State.sampleEnd s kind key status size) := by
  unfold State.sampleEnd
  try dsimp only
  repeat' (first
    | with_reducible assumption
    | with_reducible apply State.sampleUpdate_keeps (hm := Mask.le hm rfl)
    | with_reducible apply Keeps.getD
    | (intro x; intros; try dsimp only)
    | dsimp only
    | split)

theorem State.setSem_keeps {m : Nat} {s0 s : State} (n : Nat) (v : Semaphore) (hv : s.Ok → v.Ok) (h : Keeps m s0 s)
    (hm : 524288 &&& m = 524288 := by exact Mask.le (by assumption) rfl) :
    Keeps m s0 (State.setSem s n v) :=
  Keeps.data (s := s) rfl rfl rfl rfl (fun k => ⟨k.fmem, k.hmem, k.spdMem, k.flash, k.regs, k.ctxs,
    SMap.wf_put k.semTable n v, fun j => by
      unfold State.semOf State.setSem
      dsimp only
      rw [SMap.getD_put k.semTable]
      split
      · exact hv k
      · exact k.sems j⟩) h
    (fun p hp => by cases p <;> first | exact (Mask.off hm hp rfl).elim | rfl)

/-- A semaphore without holder or reservation, its waiters as they were. -/
theorem Semaphore.Ok.free {v : Semaphore} (h : v.Ok) (o : Bool) (p : Nat) (a : Nat) :
    Semaphore.Ok { v with holder := none, orphan := o, prio := p, reserved := none, reservedAt := a } :=
  ⟨fun x => by simp at x, fun w hw => by simp, h.2.2.1, h.2.2.2⟩

/-- The masters of a part of the waiters are still all different. -/
theorem Semaphore.Ok.filter {v : Semaphore} (h : v.Ok) (p : SemWaiter → Bool) :
    ((v.waiters.filter p).map fun w => w.master).Nodup ∧ (v.waiters.filter p).length ≤ 64 :=
  ⟨h.2.2.1.sublist (List.filter_sublist.map _), Nat.le_trans (List.length_filter_le _ _) h.2.2.2⟩

theorem State.wakeCore_keeps {m : Nat} {s0 s : State} (c : Nat) (h : Keeps m s0 s)
    (hm : 131072 &&& m = 131072 := by exact Mask.le (by assumption) rfl) :
    Keeps m s0 (State.wakeCore s c) := by
  unfold State.wakeCore
  try dsimp only
  repeat' (first
    | with_reducible assumption
    | exact fun (hb : Nat.testBit _ _ = _) => (Mask.off hm hb rfl).elim
    | with_reducible exact fun _ => rfl
    | (intro x; intros; try dsimp only)
    | dsimp only
    | split
    | with_reducible apply Keeps.upd)

theorem State.semWake_keeps {m : Nat} {s0 s : State} (z1 : Nat) (h : Keeps m s0 s)
    (hm : 196748 &&& m = 196748 := by exact Mask.le (by assumption) rfl) :
    Keeps m s0 (State.semWake s z1) := by
  unfold State.semWake
  try dsimp only
  repeat' (first
    | with_reducible assumption
    | with_reducible apply State.vecEvent_keeps (hm := Mask.le hm rfl)
    | with_reducible apply State.wakeCore_keeps (hm := Mask.le hm rfl)
    | (intro x; intros; try dsimp only)
    | dsimp only
    | split)

theorem State.semGrant_keeps {m : Nat} {s0 s : State} (n : Nat) (h : Keeps m s0 s)
    (hm : 721036 &&& m = 721036 := by exact Mask.le (by assumption) rfl) :
    Keeps m s0 (State.semGrant s n) := by
  unfold State.semGrant
  dsimp only
  split
  · exact State.setSem_keeps _ _ (fun k => ⟨fun x => by simp at x, fun w hw => by simp, (k.sems n).2.2.1, (k.sems n).2.2.2⟩) h
  · next w hw =>
    refine State.semWake_keeps _ (State.setSem_keeps _ _ (fun k => ⟨fun _ => rfl, fun x hx => ?_, (k.sems n).filter _⟩) h)
    have := (List.mem_filter.1 hx).2
    simp only [bne_iff_ne, ne_eq] at this
    simp
    exact fun e => this e.symm

theorem State.semInherit_keeps {m : Nat} {s0 s : State} (n : Nat) (was : Nat) (h : Keeps m s0 s)
    (hm : 65676 &&& m = 65676 := by exact Mask.le (by assumption) rfl) :
    Keeps m s0 (State.semInherit s n was) := by
  unfold State.semInherit
  try dsimp only
  repeat' (first
    | with_reducible assumption
    | with_reducible apply State.setReg_keeps (hm := Mask.le hm rfl)
    | with_reducible apply State.blockVec_keeps (hm := Mask.le hm rfl)
    | (intro x; intros; try dsimp only)
    | dsimp only
    | split)

/-- A refused reader that is neither the holder nor the master it is reserved for becomes a waiter. -/
theorem semRegister_ok {v : Semaphore} (h : v.Ok) (m k : Nat) (h1 : v.holder ≠ some m) (h2 : v.reserved ≠ some m)
    (h3 : v.waiters.length < 64 ∨ v.waiters.any (fun w => w.master == m) = true) : (semRegister v m k).Ok := by
  unfold semRegister
  split
  · refine ⟨h.1, fun w hw => ?_, ?_, ?_⟩
    · obtain ⟨x, hx, rfl⟩ := List.mem_map.1 hw
      have := h.2.1 x hx
      split <;> simpa using this
    · have e : (v.waiters.map fun w => if w.master = m then { w with prio := k } else w).map (fun w => w.master)
          = v.waiters.map fun w => w.master := by
        rw [List.map_map]
        apply List.map_congr_left
        intro x _
        simp only [Function.comp]
        split <;> rfl
      rw [e]; exact h.2.2.1
    · simpa using h.2.2.2
  · next hn =>
    have hm : ∀ w ∈ v.waiters, w.master ≠ m := by
      intro w hw e
      have := List.find?_eq_none.1 hn w hw
      simp [e] at this
    refine ⟨h.1, fun w hw => ?_, ?_, ?_⟩
    · rcases List.mem_append.1 hw with hw | hw
      · exact h.2.1 w hw
      · simp only [List.mem_singleton] at hw
        subst hw
        exact ⟨h1, h2⟩
    · rw [List.map_append, List.nodup_append]
      refine ⟨h.2.2.1, by simp, ?_⟩
      intro a ha b hb e
      obtain ⟨w, hw, rfl⟩ := List.mem_map.1 ha
      simp only [List.map_cons, List.map_nil, List.mem_singleton] at hb
      exact hm w hw (e.trans hb)
    · have : v.waiters.length < 64 := by
        rcases h3 with h3 | h3
        · exact h3
        · obtain ⟨w, hw, e⟩ := List.any_eq_true.1 h3
          exact absurd (by simpa using e) (hm w hw)
      simp; omega

/-- A semaphore taken: its holder has left the waiters. -/
theorem Semaphore.Ok.taken {v : Semaphore} (h : v.Ok) (m p : Nat) : Semaphore.Ok { v with
    holder := some m, orphan := false, reserved := none, prio := p, waiters := v.waiters.filter fun w => w.master != m } := by
  refine ⟨fun x => by simp at x, fun w hw => ?_, h.filter _⟩
  have := (List.mem_filter.1 hw).2
  simp only [bne_iff_ne, ne_eq] at this
  exact ⟨fun e => this (Option.some.inj e).symm, by simp⟩

theorem State.semAcquire_keeps {m : Nat} {s0 s : State} (n z k : Nat) (h : Keeps m s0 s)
    (hm : 589964 &&& m = 589964 := by exact Mask.le (by assumption) rfl) :
    Keeps m s0 (State.semAcquire s n z k).2 := by
  unfold State.semAcquire
  extract_lets v
  split
  · exact h
  · next h0 =>
  split
  · exact h
  · next h1 =>
  split
  · dsimp only
    exact State.pmcEv_keeps _ _ _ _ _ (State.setSem_keeps _ _ (fun q => (q.sems n).taken _ _) h)
  · next h2 =>
  split
  · dsimp only
    exact State.pmcEv_keeps _ _ _ _ _ h
  · next h3 =>
    dsimp only
    refine State.pmcEv_keeps _ _ _ _ _ (State.semInherit_keeps _ _ (State.setSem_keeps _ _ (fun q => ?_) h))
    refine semRegister_ok (q.sems n) _ _ h1 ?_ ?_
    · intro e
      exact h2 ⟨(q.sems n).1 (by simp [e]), .inr e⟩
    · simp only [Bool.and_eq_true, decide_eq_true_eq, Bool.not_eq_true', not_and, Bool.not_eq_false] at h3
      by_cases hl : 64 ≤ v.waiters.length
      · exact .inr (h3 hl)
      · exact .inl (Nat.lt_of_not_le hl)

theorem State.semFree_keeps {m : Nat} {s0 s : State} (n : Nat) (orphan : Bool) (h : Keeps m s0 s)
    (hm : 721036 &&& m = 721036 := by exact Mask.le (by assumption) rfl) :
    Keeps m s0 (State.semFree s n orphan) := by
  unfold State.semFree
  dsimp only
  refine State.semGrant_keeps _ (State.setSem_keeps _ _ (fun k => ⟨fun _ => rfl, fun w hw => ?_, (k.sems n).2.2⟩) h)
  exact ⟨by simp, ((k.sems n).2.1 w hw).2⟩

theorem State.semForget_keeps {m : Nat} {s0 s : State} (n : Nat) (z2 : Nat) (h : Keeps m s0 s)
    (hm : 721036 &&& m = 721036 := by exact Mask.le (by assumption) rfl) :
    Keeps m s0 (State.semForget s n z2) := by
  unfold State.semForget
  dsimp only
  have g : Keeps m s0 (s.setSem n { s.semOf n with waiters := (s.semOf n).waiters.filter fun w => w.master != z2 }) :=
    State.setSem_keeps _ _ (fun k => ⟨(k.sems n).1, fun w hw => (k.sems n).2.1 w (List.mem_filter.1 hw).1, (k.sems n).filter _⟩) h
  split
  · exact State.semGrant_keeps _ g
  · exact g

theorem State.semReset_keeps {m : Nat} {s0 s : State} (z1 : Nat) (h : Keeps m s0 s)
    (hm : 721036 &&& m = 721036 := by exact Mask.le (by assumption) rfl) :
    Keeps m s0 (State.semReset s z1) := by
  unfold State.semReset
  try dsimp only
  repeat' (first
    | with_reducible assumption
    | with_reducible apply State.semForget_keeps (hm := Mask.le hm rfl)
    | with_reducible apply State.semFree_keeps (hm := Mask.le hm rfl)
    | with_reducible apply Keeps.foldl
    | with_reducible apply Keeps.foldlSnd
    | with_reducible apply Keeps.foldlFst
    | (intro x; intros; try dsimp only)
    | dsimp only
    | split)

theorem State.setTrig_keeps {m : Nat} {s0 s : State} (t : Nat) (v : TrigCfg) (h : Keeps m s0 s)
    (hm : 131072 &&& m = 131072 := by exact Mask.le (by assumption) rfl) :
    Keeps m s0 (State.setTrig s t v) := by
  unfold State.setTrig
  try dsimp only
  repeat' (first
    | with_reducible assumption
    | exact fun (hb : Nat.testBit _ _ = _) => (Mask.off hm hb rfl).elim
    | with_reducible exact fun _ => rfl
    | (intro x; intros; try dsimp only)
    | dsimp only
    | split
    | with_reducible apply Keeps.upd)

theorem State.disarmTrig_keeps {m : Nat} {s0 s : State} (t : Nat) (h : Keeps m s0 s)
    (hm : 131072 &&& m = 131072 := by exact Mask.le (by assumption) rfl) :
    Keeps m s0 (State.disarmTrig s t) := by
  unfold State.disarmTrig
  try dsimp only
  repeat' (first
    | with_reducible assumption
    | with_reducible apply State.setTrig_keeps (hm := Mask.le hm rfl)
    | (intro x; intros; try dsimp only)
    | dsimp only
    | split)

theorem State.queueEv_keeps {m : Nat} {s0 s : State} (e : TrigEv) (h : Keeps m s0 s)
    (hm : 131072 &&& m = 131072 := by exact Mask.le (by assumption) rfl) :
    Keeps m s0 (State.queueEv s e) := by
  unfold State.queueEv
  try dsimp only
  repeat' (first
    | with_reducible assumption
    | exact fun (hb : Nat.testBit _ _ = _) => (Mask.off hm hb rfl).elim
    | with_reducible exact fun _ => rfl
    | (intro x; intros; try dsimp only)
    | dsimp only
    | split
    | with_reducible apply Keeps.upd)

theorem State.markFull_keeps {m : Nat} {s0 s : State}  (h : Keeps m s0 s)
    (hm : 4 &&& m = 4 := by exact Mask.le (by assumption) rfl) :
    Keeps m s0 (State.markFull s) := by
  unfold State.markFull
  try dsimp only
  repeat' (first
    | with_reducible assumption
    | with_reducible apply State.setFlag_keeps (hm := Mask.le hm rfl)
    | (intro x; intros; try dsimp only)
    | dsimp only
    | split)

theorem State.fireCounter_keeps {m : Nat} {s0 s : State} (n : Nat) (value : Word) (h : Keeps m s0 s)
    (hm : 131076 &&& m = 131076 := by exact Mask.le (by assumption) rfl) :
    Keeps m s0 (State.fireCounter s n value) := by
  unfold State.fireCounter
  try dsimp only
  repeat' (first
    | with_reducible assumption
    | with_reducible apply State.disarmTrig_keeps (hm := Mask.le hm rfl)
    | with_reducible apply State.queueEv_keeps (hm := Mask.le hm rfl)
    | with_reducible apply State.markFull_keeps (hm := Mask.le hm rfl)
    | with_reducible apply Keeps.foldl
    | with_reducible apply Keeps.foldlSnd
    | with_reducible apply Keeps.foldlFst
    | (intro x; intros; try dsimp only)
    | dsimp only
    | split)

theorem State.fwPush_keeps {m : Nat} {s0 s : State} (w : FwWork) (h : Keeps m s0 s)
    (hm : 131072 &&& m = 131072 := by exact Mask.le (by assumption) rfl) :
    Keeps m s0 (State.fwPush s w) := by
  unfold State.fwPush
  try dsimp only
  repeat' (first
    | with_reducible assumption
    | exact fun (hb : Nat.testBit _ _ = _) => (Mask.off hm hb rfl).elim
    | with_reducible exact fun _ => rfl
    | (intro x; intros; try dsimp only)
    | dsimp only
    | split
    | with_reducible apply Keeps.upd)

theorem State.cacheIn_keeps {m : Nat} {s0 s : State} (c : Nat) (h : Keeps m s0 s)
    (hm : 65792 &&& m = 65792 := by exact Mask.le (by assumption) rfl) :
    Keeps m s0 (State.cacheIn s c) := by
  unfold State.cacheIn
  try dsimp only
  repeat' (first
    | with_reducible assumption
    | with_reducible apply State.setCtx_keeps (hm := Mask.le hm rfl)
    | with_reducible apply State.pmcEv_keeps (hm := Mask.le hm rfl)
    | (intro x; intros; try dsimp only)
    | dsimp only
    | split)

theorem State.ctxUse_keeps {m : Nat} {s0 s : State} (c : Nat) (h : Keeps m s0 s)
    (hm : 65792 &&& m = 65792 := by exact Mask.le (by assumption) rfl) :
    Keeps m s0 (State.ctxUse s c) := by
  unfold State.ctxUse
  try dsimp only
  repeat' (first
    | with_reducible assumption
    | with_reducible apply State.cacheIn_keeps (hm := Mask.le hm rfl)
    | (intro x; intros; try dsimp only)
    | dsimp only
    | split)

theorem State.setCtr_keeps {m : Nat} {s0 s : State} (n : Nat) (v : Counter) (h : Keeps m s0 s)
    (hm : 4096 &&& m = 4096 := by exact Mask.le (by assumption) rfl) :
    Keeps m s0 (State.setCtr s n v) := by
  unfold State.setCtr
  try dsimp only
  repeat' (first
    | with_reducible assumption
    | exact fun (hb : Nat.testBit _ _ = _) => (Mask.off hm hb rfl).elim
    | with_reducible exact fun _ => rfl
    | (intro x; intros; try dsimp only)
    | dsimp only
    | split
    | with_reducible apply Keeps.upd)

theorem State.mirrorWrite_keeps {m : Nat} {s0 s : State} (n : Nat) (h : Keeps m s0 s)
    (hm : 65544 &&& m = 65544 := by exact Mask.le (by assumption) rfl) :
    Keeps m s0 (State.mirrorWrite s n) := by
  unfold State.mirrorWrite
  try dsimp only
  repeat' (first
    | with_reducible assumption
    | with_reducible apply State.hostWrite_keeps (hm := Mask.le hm rfl)
    | (intro x; intros; try dsimp only)
    | dsimp only
    | split)

theorem State.ctrChanged_keeps {m : Nat} {s0 s : State} (n : Nat) (h : Keeps m s0 s)
    (hm : 139268 &&& m = 139268 := by exact Mask.le (by assumption) rfl) :
    Keeps m s0 (State.ctrChanged s n) := by
  unfold State.ctrChanged
  try dsimp only
  repeat' (first
    | with_reducible assumption
    | with_reducible apply State.report_keeps (hm := Mask.le hm rfl)
    | with_reducible apply State.fireCounter_keeps (hm := Mask.le hm rfl)
    | (intro x; intros; try dsimp only)
    | dsimp only
    | split)

theorem State.ctrUpdate_keeps {m : Nat} {s0 s : State} (n : Nat) (bytes : Nat) (bad : Bool) (h : Keeps m s0 s)
    (hm : 208908 &&& m = 208908 := by exact Mask.le (by assumption) rfl) :
    Keeps m s0 (State.ctrUpdate s n bytes bad) := by
  unfold State.ctrUpdate
  try dsimp only
  repeat' (first
    | with_reducible assumption
    | with_reducible apply State.setCtr_keeps (hm := Mask.le hm rfl)
    | with_reducible apply State.mirrorWrite_keeps (hm := Mask.le hm rfl)
    | with_reducible apply State.ctrChanged_keeps (hm := Mask.le hm rfl)
    | (intro x; intros; try dsimp only)
    | dsimp only
    | split)

theorem State.cqVectorSend_keeps {m : Nat} {s0 s : State} (c : Nat) (irq : Bool) (h : Keeps m s0 s)
    (hm : 65932 &&& m = 65932 := by exact Mask.le (by assumption) rfl) :
    Keeps m s0 (State.cqVectorSend s c irq) := by
  unfold State.cqVectorSend
  try dsimp only
  repeat' (first
    | with_reducible assumption
    | with_reducible apply State.vecEvent_keeps (hm := Mask.le hm rfl)
    | with_reducible apply State.setCtx_keeps (hm := Mask.le hm rfl)
    | (intro x; intros; try dsimp only)
    | dsimp only
    | split)

theorem State.postEntry_keeps {m : Nat} {s0 s : State} (c : Nat) (handle : Nat) (status : Nat) (detail : Nat) (bytes : Nat) (result : Nat) (irq : Bool) (h : Keeps m s0 s)
    (hm : 65932 &&& m = 65932 := by exact Mask.le (by assumption) rfl) :
    Keeps m s0 (State.postEntry s c handle status detail bytes result irq) := by
  unfold State.postEntry
  try dsimp only
  repeat' (first
    | with_reducible assumption
    | with_reducible apply State.ctxUse_keeps (hm := Mask.le hm rfl)
    | with_reducible apply State.hostWrite_keeps (hm := Mask.le hm rfl)
    | with_reducible apply State.setCtx_keeps (hm := Mask.le hm rfl)
    | with_reducible apply State.pmcEv_keeps (hm := Mask.le hm rfl)
    | with_reducible apply State.cqVectorSend_keeps (hm := Mask.le hm rfl)
    | (intro x; intros; try dsimp only)
    | dsimp only
    | split)

theorem State.dropHandle_keeps {m : Nat} {s0 s : State} (z1 : HandleRef) (h : Keeps m s0 s)
    (hm : 512 &&& m = 512 := by exact Mask.le (by assumption) rfl) :
    Keeps m s0 (State.dropHandle s z1) := by
  unfold State.dropHandle
  try dsimp only
  repeat' (first
    | with_reducible assumption
    | exact fun (hb : Nat.testBit _ _ = _) => (Mask.off hm hb rfl).elim
    | with_reducible exact fun _ => rfl
    | (intro x; intros; try dsimp only)
    | dsimp only
    | split
    | with_reducible apply Keeps.upd)

theorem State.sampleDone_keeps {m : Nat} {s0 s : State} (hr : HandleRef) (mute : Bool) (status : Nat) (bytes : Nat) (h : Keeps m s0 s)
    (hm : 65536 &&& m = 65536 := by exact Mask.le (by assumption) rfl) :
    Keeps m s0 (State.sampleDone s hr mute status bytes) := by
  unfold State.sampleDone
  try dsimp only
  repeat' (first
    | with_reducible assumption
    | with_reducible apply State.stampFirst_keeps (hm := Mask.le hm rfl)
    | with_reducible apply State.sampleEnd_keeps (hm := Mask.le hm rfl)
    | (intro x; intros; try dsimp only)
    | dsimp only
    | split)

theorem State.complete_keeps {m : Nat} {s0 s : State} (hr : HandleRef) (status : Nat) (detail : Nat) (bytes : Nat) (result : Word) (h : Keeps m s0 s)
    (hm : 209804 &&& m = 209804 := by exact Mask.le (by assumption) rfl) :
    Keeps m s0 (State.complete s hr status detail bytes result) := by
  unfold State.complete
  try dsimp only
  repeat' (first
    | with_reducible assumption
    | with_reducible apply State.setHandle_keeps (hm := Mask.le hm rfl)
    | with_reducible apply State.markFull_keeps (hm := Mask.le hm rfl)
    | with_reducible apply State.ctrUpdate_keeps (hm := Mask.le hm rfl)
    | with_reducible apply State.report_keeps (hm := Mask.le hm rfl)
    | with_reducible apply State.dropHandle_keeps (hm := Mask.le hm rfl)
    | with_reducible apply State.postEntry_keeps (hm := Mask.le hm rfl)
    | with_reducible apply State.sampleDone_keeps (hm := Mask.le hm rfl)
    | with_reducible apply State.queueEv_keeps (hm := Mask.le hm rfl)
    | with_reducible apply Keeps.foldl
    | with_reducible apply Keeps.foldlSnd
    | with_reducible apply Keeps.foldlFst
    | exact fun (hb : Nat.testBit _ _ = _) => (Mask.off hm hb rfl).elim
    | with_reducible exact fun _ => rfl
    | (intro x; intros; try dsimp only)
    | dsimp only
    | split
    | with_reducible apply Keeps.upd)

theorem State.finish_keeps {m : Nat} {s0 s : State} (hr : HandleRef) (status : Nat) (detail : Nat) (h : Keeps m s0 s)
    (hm : 209804 &&& m = 209804 := by exact Mask.le (by assumption) rfl) :
    Keeps m s0 (State.finish s hr status detail) := by
  unfold State.finish
  try dsimp only
  repeat' (first
    | with_reducible assumption
    | with_reducible apply State.complete_keeps (hm := Mask.le hm rfl)
    | (intro x; intros; try dsimp only)
    | dsimp only
    | split)

theorem State.noteHold_keeps {m : Nat} {s0 s : State} (c : Nat) (h : Keeps m s0 s)
    (hm : 260 &&& m = 260 := by exact Mask.le (by assumption) rfl) :
    Keeps m s0 (State.noteHold s c) := by
  unfold State.noteHold
  try dsimp only
  repeat' (first
    | with_reducible assumption
    | with_reducible apply State.setCtx_keeps (hm := Mask.le hm rfl)
    | with_reducible apply State.setFld_keeps (hm := Mask.le hm rfl)
    | with_reducible apply State.setFlag_keeps (hm := Mask.le hm rfl)
    | (intro x; intros; try dsimp only)
    | dsimp only
    | split)

theorem State.noteHolds_keeps {m : Nat} {s0 s : State}  (h : Keeps m s0 s)
    (hm : 260 &&& m = 260 := by exact Mask.le (by assumption) rfl) :
    Keeps m s0 (State.noteHolds s) := by
  unfold State.noteHolds
  try dsimp only
  repeat' (first
    | with_reducible assumption
    | with_reducible apply State.noteHold_keeps (hm := Mask.le hm rfl)
    | with_reducible apply Keeps.foldl
    | with_reducible apply Keeps.foldlSnd
    | with_reducible apply Keeps.foldlFst
    | (intro x; intros; try dsimp only)
    | dsimp only
    | split)

theorem State.registerTrig_keeps {m : Nat} {s0 s : State} (t : Handle) (p : Handle) (h : Keeps m s0 s)
    (hm : 209804 &&& m = 209804 := by exact Mask.le (by assumption) rfl) :
    Keeps m s0 (State.registerTrig s t p) := by
  unfold State.registerTrig
  try dsimp only
  repeat' (first
    | with_reducible assumption
    | with_reducible apply State.finish_keeps (hm := Mask.le hm rfl)
    | with_reducible apply State.setHandle_keeps (hm := Mask.le hm rfl)
    | exact fun (hb : Nat.testBit _ _ = _) => (Mask.off hm hb rfl).elim
    | with_reducible exact fun _ => rfl
    | (intro x; intros; try dsimp only)
    | dsimp only
    | split
    | with_reducible apply Keeps.upd)

theorem State.sampleDesc_keeps {m : Nat} {s0 s : State} (z1 : Handle) (bell : Nat) (readAt : Option Nat) (h : Keeps m s0 s)
    (hm : 65540 &&& m = 65540 := by exact Mask.le (by assumption) rfl) :
    Keeps m s0 (State.sampleDesc s z1 bell readAt) := by
  unfold State.sampleDesc
  try dsimp only
  repeat' (first
    | with_reducible assumption
    | with_reducible apply State.sampleConsider_keeps (hm := Mask.le hm rfl)
    | with_reducible apply State.stampFirst_keeps (hm := Mask.le hm rfl)
    | with_reducible apply State.stampAt_keeps (hm := Mask.le hm rfl)
    | (intro x; intros; try dsimp only)
    | dsimp only
    | split)

theorem State.assign_keeps {m : Nat} {s0 s : State} (c : Nat) (d : Descriptor) (readAt : Option Nat) (h : Keeps m s0 s)
    (hm : 209804 &&& m = 209804 := by exact Mask.le (by assumption) rfl) :
    Keeps m s0 (State.assign s c d readAt) := by
  unfold State.assign
  try dsimp only
  repeat' (first
    | with_reducible assumption
    | with_reducible apply State.setCtx_keeps (hm := Mask.le hm rfl)
    | with_reducible apply State.sampleDesc_keeps (hm := Mask.le hm rfl)
    | with_reducible apply State.pmcEv_keeps (hm := Mask.le hm rfl)
    | with_reducible apply State.setHandle_keeps (hm := Mask.le hm rfl)
    | with_reducible apply State.report_keeps (hm := Mask.le hm rfl)
    | with_reducible apply State.finish_keeps (hm := Mask.le hm rfl)
    | with_reducible apply State.registerTrig_keeps (hm := Mask.le hm rfl)
    | (intro x; intros; try dsimp only)
    | dsimp only
    | split)

theorem State.activate_keeps {m : Nat} {s0 s : State} (z1 : Handle) (h : Keeps m s0 s)
    (hm : 512 &&& m = 512 := by exact Mask.le (by assumption) rfl) :
    Keeps m s0 (State.activate s z1) := by
  unfold State.activate
  try dsimp only
  repeat' (first
    | with_reducible assumption
    | with_reducible apply State.setHandle_keeps (hm := Mask.le hm rfl)
    | (intro x; intros; try dsimp only)
    | dsimp only
    | split)

theorem State.spdWake_keeps {m : Nat} {s0 s : State} (b : Nat) (h : Keeps m s0 s)
    (hm : 4 &&& m = 4 := by exact Mask.le (by assumption) rfl) :
    Keeps m s0 (State.spdWake s b) := by
  unfold State.spdWake
  try dsimp only
  repeat' (first
    | with_reducible assumption
    | with_reducible apply State.setFld_keeps (hm := Mask.le hm rfl)
    | with_reducible apply State.setFlag_keeps (hm := Mask.le hm rfl)
    | (intro x; intros; try dsimp only)
    | dsimp only
    | split)

theorem State.spdTouch_keeps {m : Nat} {s0 s : State} (off : Nat) (len : Nat) (h : Keeps m s0 s)
    (hm : 4 &&& m = 4 := by exact Mask.le (by assumption) rfl) :
    Keeps m s0 (State.spdTouch s off len) := by
  unfold State.spdTouch
  try dsimp only
  repeat' (first
    | with_reducible assumption
    | with_reducible apply State.spdWake_keeps (hm := Mask.le hm rfl)
    | with_reducible apply Keeps.foldl
    | with_reducible apply Keeps.foldlSnd
    | with_reducible apply Keeps.foldlFst
    | (intro x; intros; try dsimp only)
    | dsimp only
    | split)

theorem State.spdStore_keeps {m : Nat} {s0 s : State} (off : Nat) (bs : List Byte) (h : Keeps m s0 s)
    (hm : 134479872 &&& m = 134479872 := by exact Mask.le (by assumption) rfl) :
    Keeps m s0 (State.spdStore s off bs) := by
  refine Keeps.upd (State.spdRaw_keeps (s.spdMem.write off bs) (fun k => Memory.wf_write k.spdMem off bs) h) ?_ ?_ ?_ ?_ ?_ ?_ ?_ ?_ ?_ ?_ ?_ ?_ ?_ ?_ ?_ ?_ ?_ ?_ ?_ ?_ <;> first | exact fun hb => (Mask.off hm hb rfl).elim | exact fun _ => rfl

theorem State.spdBusyHost_keeps {m : Nat} {s0 s : State} (p : Nat) (h : Keeps m s0 s)
    (hm : 4 &&& m = 4 := by exact Mask.le (by assumption) rfl) :
    Keeps m s0 (State.spdBusyHost s p) := by
  unfold State.spdBusyHost
  try dsimp only
  repeat' (first
    | with_reducible assumption
    | with_reducible apply State.setFld_keeps (hm := Mask.le hm rfl)
    | (intro x; intros; try dsimp only)
    | dsimp only
    | split)

theorem State.spdCollision_keeps {m : Nat} {s0 s : State} (a : Nat) (kind : Nat) (h : Keeps m s0 s)
    (hm : 1155212 &&& m = 1155212 := by exact Mask.le (by assumption) rfl) :
    Keeps m s0 (State.spdCollision s a kind) := by
  unfold State.spdCollision
  try dsimp only
  repeat' (first
    | with_reducible assumption
    | with_reducible apply State.bump_keeps (hm := Mask.le hm rfl)
    | with_reducible apply State.setReg_keeps (hm := Mask.le hm rfl)
    | with_reducible apply State.pmcEv_keeps (hm := Mask.le hm rfl)
    | with_reducible apply State.fault_keeps (hm := Mask.le hm rfl)
    | (intro x; intros; try dsimp only)
    | dsimp only
    | split)

end Sys2Proof.Machine
end

