-- ==== Sys2Proof/Laws/KeepFabric.lean ====
section
/-!
SUPPORT. What RTE, the lanes and LNK keep.
-/
set_option Elab.async false
set_option linter.unusedTactic false
set_option linter.unreachableTactic false
set_option linter.unusedVariables false
namespace Sys2Proof.Machine

theorem State.setLport_keeps {m : Nat} {s0 s : State} (p : Nat) (v : LPort) (h : Keeps m s0 s)
    (hm : 8388608 &&& m = 8388608 := by exact Mask.le (by assumption) rfl) :
    Keeps m s0 (State.setLport s p v) := by
  unfold State.setLport
  try dsimp only
  repeat' (first
    | with_reducible assumption
    | exact fun (hb : Nat.testBit _ _ = _) => (Mask.off hm hb rfl).elim
    | with_reducible exact fun _ => rfl
    | (intro x; intros; try dsimp only)
    | dsimp only
    | split
    | with_reducible apply Keeps.upd)

theorem State.freeFlits_keeps {m : Nat} {s0 s : State} (src : Option (Nat × Nat)) (n : Nat) (h : Keeps m s0 s)
    (hm : 8388608 &&& m = 8388608 := by exact Mask.le (by assumption) rfl) :
    Keeps m s0 (State.freeFlits s src n) := by
  unfold State.freeFlits
  try dsimp only
  repeat' (first
    | with_reducible assumption
    | with_reducible apply State.setLport_keeps (hm := Mask.le hm rfl)
    | (intro x; intros; try dsimp only)
    | dsimp only
    | split)

theorem State.setRtePkt_keeps {m : Nat} {s0 s : State} (x : RtePkt) (h : Keeps m s0 s)
    (hm : 2097152 &&& m = 2097152 := by exact Mask.le (by assumption) rfl) :
    Keeps m s0 (State.setRtePkt s x) := by
  unfold State.setRtePkt
  try dsimp only
  repeat' (first
    | with_reducible assumption
    | exact fun (hb : Nat.testBit _ _ = _) => (Mask.off hm hb rfl).elim
    | with_reducible exact fun _ => rfl
    | (intro x; intros; try dsimp only)
    | dsimp only
    | split
    | with_reducible apply Keeps.upd)

theorem State.dropPkt_keeps {m : Nat} {s0 s : State} (id : Nat) (h : Keeps m s0 s)
    (hm : 2097152 &&& m = 2097152 := by exact Mask.le (by assumption) rfl) :
    Keeps m s0 (State.dropPkt s id) := by
  unfold State.dropPkt
  try dsimp only
  repeat' (first
    | with_reducible assumption
    | exact fun (hb : Nat.testBit _ _ = _) => (Mask.off hm hb rfl).elim
    | with_reducible exact fun _ => rfl
    | (intro x; intros; try dsimp only)
    | dsimp only
    | split
    | with_reducible apply Keeps.upd)

theorem State.discardPkt_keeps {m : Nat} {s0 s : State} (id : Nat) (h : Keeps m s0 s)
    (hm : 10551300 &&& m = 10551300 := by exact Mask.le (by assumption) rfl) :
    Keeps m s0 (State.discardPkt s id) := by
  unfold State.discardPkt
  try dsimp only
  repeat' (first
    | with_reducible assumption
    | with_reducible apply State.sampleEnd_keeps (hm := Mask.le hm rfl)
    | with_reducible apply State.bump_keeps (hm := Mask.le hm rfl)
    | with_reducible apply State.freeFlits_keeps (hm := Mask.le hm rfl)
    | with_reducible apply State.dropPkt_keeps (hm := Mask.le hm rfl)
    | (intro x; intros; try dsimp only)
    | dsimp only
    | split)

theorem State.samplePkt_keeps {m : Nat} {s0 s : State} (x : RtePkt) (kind : Nat) (outPort : Nat) (vc : Nat) (h : Keeps m s0 s)
    (hm : 65540 &&& m = 65540 := by exact Mask.le (by assumption) rfl) :
    Keeps m s0 (State.samplePkt s x kind outPort vc) := by
  unfold State.samplePkt
  try dsimp only
  repeat' (first
    | with_reducible assumption
    | with_reducible apply State.sampleConsider_keeps (hm := Mask.le hm rfl)
    | with_reducible apply State.stampFirst_keeps (hm := Mask.le hm rfl)
    | (intro x; intros; try dsimp only)
    | dsimp only
    | split)

theorem State.takeHop_keeps {m : Nat} {s0 s : State} (x : RtePkt) (z2 : Hop) (h : Keeps m s0 s)
    (hm : 2162692 &&& m = 2162692 := by exact Mask.le (by assumption) rfl) :
    Keeps m s0 (State.takeHop s x z2) := by
  unfold State.takeHop
  try dsimp only
  repeat' (first
    | with_reducible assumption
    | with_reducible apply State.samplePkt_keeps (hm := Mask.le hm rfl)
    | with_reducible apply State.pmcEv_keeps (hm := Mask.le hm rfl)
    | with_reducible apply State.bump_keeps (hm := Mask.le hm rfl)
    | with_reducible apply State.setRtePkt_keeps (hm := Mask.le hm rfl)
    | exact fun (hb : Nat.testBit _ _ = _) => (Mask.off hm hb rfl).elim
    | with_reducible exact fun _ => rfl
    | (intro x; intros; try dsimp only)
    | dsimp only
    | split
    | with_reducible apply Keeps.upd)

theorem State.carry_keeps {m : Nat} {s0 s : State} (p : Packet) (src : Option (Nat × Nat)) (got : Nat) (total : Nat) (place : PktPlace) (mcast : Option Nat) (h : Keeps m s0 s)
    (hm : 2097152 &&& m = 2097152 := by exact Mask.le (by assumption) rfl) :
    Keeps m s0 (State.carry s p src got total place mcast).2 := by
  unfold State.carry
  try dsimp only
  repeat' (first
    | with_reducible assumption
    | exact fun (hb : Nat.testBit _ _ = _) => (Mask.off hm hb rfl).elim
    | with_reducible exact fun _ => rfl
    | (intro x; intros; try dsimp only)
    | dsimp only
    | split
    | with_reducible apply Keeps.upd)

theorem State.takeTokens_keeps {m : Nat} {s0 s : State} (n : Nat) (h : Keeps m s0 s)
    (hm : 2097152 &&& m = 2097152 := by exact Mask.le (by assumption) rfl) :
    Keeps m s0 (State.takeTokens s n) := by
  unfold State.takeTokens
  try dsimp only
  repeat' (first
    | with_reducible assumption
    | exact fun (hb : Nat.testBit _ _ = _) => (Mask.off hm hb rfl).elim
    | with_reducible exact fun _ => rfl
    | (intro x; intros; try dsimp only)
    | dsimp only
    | split
    | with_reducible apply Keeps.upd)

theorem State.urgentCfg_keeps {m : Nat} {s0 s : State} (w : Word) (h : Keeps m s0 s)
    (hm : 2097156 &&& m = 2097156 := by exact Mask.le (by assumption) rfl) :
    Keeps m s0 (State.urgentCfg s w) := by
  unfold State.urgentCfg
  try dsimp only
  repeat' (first
    | with_reducible assumption
    | with_reducible apply State.setReg_keeps (hm := Mask.le hm rfl)
    | exact fun (hb : Nat.testBit _ _ = _) => (Mask.off hm hb rfl).elim
    | with_reducible exact fun _ => rfl
    | (intro x; intros; try dsimp only)
    | dsimp only
    | split
    | with_reducible apply Keeps.upd)

theorem State.enter_keeps {m : Nat} {s0 s : State} (p : Packet) (h : Keeps m s0 s)
    (hm : 2097152 &&& m = 2097152 := by exact Mask.le (by assumption) rfl) :
    Keeps m s0 (State.enter s p).2 := by
  unfold State.enter
  extract_lets n q s1
  split
  · exact State.carry_keeps _ _ _ _ _ _ h
  · refine State.carry_keeps _ _ _ _ _ _ ?_
    by_cases hu : urgentPkt q = true
    · simp only [s1, hu, if_true]; exact State.takeTokens_keeps _ h
    · simp only [s1, hu]; exact h

theorem State.refuseInjection_keeps {m : Nat} {s0 s : State} (i : Injection) (h : Keeps m s0 s)
    (hm : 4 &&& m = 4 := by exact Mask.le (by assumption) rfl) :
    Keeps m s0 (State.refuseInjection s i) := by
  unfold State.refuseInjection
  try dsimp only
  repeat' (first
    | with_reducible assumption
    | with_reducible apply State.setFlag_keeps (hm := Mask.le hm rfl)
    | (intro x; intros; try dsimp only)
    | dsimp only
    | split)

theorem State.relayOn_keeps {m : Nat} {s0 s : State} (p : Packet) (h : Keeps m s0 s)
    (hm : 2097156 &&& m = 2097156 := by exact Mask.le (by assumption) rfl) :
    Keeps m s0 (State.relayOn s p) := by
  unfold State.relayOn
  try dsimp only
  repeat' (first
    | with_reducible assumption
    | with_reducible apply State.enter_keeps (hm := Mask.le hm rfl)
    | with_reducible apply State.refuseInjection_keeps (hm := Mask.le hm rfl)
    | (intro x; intros; try dsimp only)
    | dsimp only
    | split
    | refine Keeps.snd (by assumption) ?_)

theorem State.handOver_keeps {m : Nat} {s0 s : State} (x : RtePkt) (h : Keeps m s0 s)
    (hm : 2162708 &&& m = 2162708 := by exact Mask.le (by assumption) rfl) :
    Keeps m s0 (State.handOver s x) := by
  unfold State.handOver
  try dsimp only
  repeat' (first
    | with_reducible assumption
    | with_reducible apply State.samplePkt_keeps (hm := Mask.le hm rfl)
    | with_reducible apply State.stampFirst_keeps (hm := Mask.le hm rfl)
    | with_reducible apply State.dropPkt_keeps (hm := Mask.le hm rfl)
    | with_reducible apply State.relayOn_keeps (hm := Mask.le hm rfl)
    | exact fun (hb : Nat.testBit _ _ = _) => (Mask.off hm hb rfl).elim
    | with_reducible exact fun _ => rfl
    | (intro x; intros; try dsimp only)
    | dsimp only
    | split
    | with_reducible apply Keeps.upd)

theorem State.divertHeld_keeps {m : Nat} {s0 s : State} (x : RtePkt) (h : Keeps m s0 s)
    (hm : 4 &&& m = 4 := by exact Mask.le (by assumption) rfl) :
    Keeps m s0 (State.divertHeld s x).2 := by
  unfold State.divertHeld
  try dsimp only
  repeat' (first
    | with_reducible assumption
    | with_reducible apply State.bump_keeps (hm := Mask.le hm rfl)
    | (intro x; intros; try dsimp only)
    | dsimp only
    | split)

theorem State.holdPkt_keeps {m : Nat} {s0 s : State} (x : RtePkt) (h : Keeps m s0 s)
    (hm : 2097156 &&& m = 2097156 := by exact Mask.le (by assumption) rfl) :
    Keeps m s0 (State.holdPkt s x) := by
  unfold State.holdPkt
  try dsimp only
  repeat' (first
    | with_reducible assumption
    | with_reducible apply State.divertHeld_keeps (hm := Mask.le hm rfl)
    | with_reducible apply State.setFlag_keeps (hm := Mask.le hm rfl)
    | with_reducible apply State.setRtePkt_keeps (hm := Mask.le hm rfl)
    | (intro x; intros; try dsimp only)
    | dsimp only
    | split
    | refine Keeps.snd (by assumption) ?_)

theorem State.routePkt_keeps {m : Nat} {s0 s : State} (x : RtePkt) (h : Keeps m s0 s)
    (hm : 10551316 &&& m = 10551316 := by exact Mask.le (by assumption) rfl) :
    Keeps m s0 (State.routePkt s x) := by
  unfold State.routePkt
  try dsimp only
  repeat' (first
    | with_reducible assumption
    | with_reducible apply State.freeFlits_keeps (hm := Mask.le hm rfl)
    | with_reducible apply State.handOver_keeps (hm := Mask.le hm rfl)
    | with_reducible apply State.setRtePkt_keeps (hm := Mask.le hm rfl)
    | with_reducible apply State.takeHop_keeps (hm := Mask.le hm rfl)
    | with_reducible apply State.holdPkt_keeps (hm := Mask.le hm rfl)
    | (intro x; intros; try dsimp only)
    | dsimp only
    | split)

theorem State.rescore_keeps {m : Nat} {s0 s : State}  (h : Keeps m s0 s)
    (hm : 10551316 &&& m = 10551316 := by exact Mask.le (by assumption) rfl) :
    Keeps m s0 (State.rescore s) := by
  unfold State.rescore
  try dsimp only
  repeat' (first
    | with_reducible assumption
    | with_reducible apply State.routePkt_keeps (hm := Mask.le hm rfl)
    | with_reducible apply Keeps.foldl
    | with_reducible apply Keeps.foldlSnd
    | with_reducible apply Keeps.foldlFst
    | (intro x; intros; try dsimp only)
    | dsimp only
    | split)

theorem State.inject_keeps {m : Nat} {s0 s : State} (p : Packet) (h : Keeps m s0 s)
    (hm : 10551316 &&& m = 10551316 := by exact Mask.le (by assumption) rfl) :
    Keeps m s0 (State.inject s p) := by
  unfold State.inject
  try dsimp only
  repeat' (first
    | with_reducible assumption
    | with_reducible apply State.enter_keeps (hm := Mask.le hm rfl)
    | with_reducible apply State.routePkt_keeps (hm := Mask.le hm rfl)
    | (intro x; intros; try dsimp only)
    | dsimp only
    | split
    | refine Keeps.snd (by assumption) ?_)

theorem State.present_keeps {m : Nat} {s0 s : State} (p : Packet) (h : Keeps m s0 s)
    (hm : 10551316 &&& m = 10551316 := by exact Mask.le (by assumption) rfl) :
    Keeps m s0 (State.present s p) := by
  unfold State.present
  try dsimp only
  repeat' (first
    | with_reducible assumption
    | with_reducible apply State.inject_keeps (hm := Mask.le hm rfl)
    | with_reducible apply State.refuseInjection_keeps (hm := Mask.le hm rfl)
    | (intro x; intros; try dsimp only)
    | dsimp only
    | split)

theorem State.sendCopy_keeps {m : Nat} {s0 s : State} (id : Nat) (p : Packet) (h : Keeps m s0 s)
    (hm : 10551316 &&& m = 10551316 := by exact Mask.le (by assumption) rfl) :
    Keeps m s0 (State.sendCopy s id p) := by
  unfold State.sendCopy
  try dsimp only
  repeat' (first
    | with_reducible assumption
    | with_reducible apply State.carry_keeps (hm := Mask.le hm rfl)
    | with_reducible apply State.routePkt_keeps (hm := Mask.le hm rfl)
    | with_reducible apply State.refuseInjection_keeps (hm := Mask.le hm rfl)
    | (intro x; intros; try dsimp only)
    | dsimp only
    | split
    | refine Keeps.snd (by assumption) ?_)

theorem State.multicast_keeps {m : Nat} {s0 s : State} (d : Nat) (dsts : List Nat) (p : Packet) (h : Keeps m s0 s)
    (hm : 10551316 &&& m = 10551316 := by exact Mask.le (by assumption) rfl) :
    Keeps m s0 (State.multicast s d dsts p) := by
  unfold State.multicast
  try dsimp only
  repeat' (first
    | with_reducible assumption
    | with_reducible apply State.present_keeps (hm := Mask.le hm rfl)
    | with_reducible apply State.sendCopy_keeps (hm := Mask.le hm rfl)
    | with_reducible apply Keeps.foldl
    | with_reducible apply Keeps.foldlSnd
    | with_reducible apply Keeps.foldlFst
    | (intro x; intros; try dsimp only)
    | dsimp only
    | split)

theorem State.sendNotice_keeps {m : Nat} {s0 s : State} (p : Nat) (h : Keeps m s0 s)
    (hm : 10551316 &&& m = 10551316 := by exact Mask.le (by assumption) rfl) :
    Keeps m s0 (State.sendNotice s p) := by
  unfold State.sendNotice
  try dsimp only
  repeat' (first
    | with_reducible assumption
    | with_reducible apply State.inject_keeps (hm := Mask.le hm rfl)
    | (intro x; intros; try dsimp only)
    | dsimp only
    | split)

theorem State.sendRow_keeps {m : Nat} {s0 s : State} (d : Nat) (h : Keeps m s0 s)
    (hm : 10551316 &&& m = 10551316 := by exact Mask.le (by assumption) rfl) :
    Keeps m s0 (State.sendRow s d) := by
  unfold State.sendRow
  try dsimp only
  repeat' (first
    | with_reducible assumption
    | with_reducible apply State.sendNotice_keeps (hm := Mask.le hm rfl)
    | with_reducible apply Keeps.foldl
    | with_reducible apply Keeps.foldlSnd
    | with_reducible apply Keeps.foldlFst
    | (intro x; intros; try dsimp only)
    | dsimp only
    | split)

theorem State.requeue_keeps {m : Nat} {s0 s : State} (p : Nat) (h : Keeps m s0 s)
    (hm : 10551316 &&& m = 10551316 := by exact Mask.le (by assumption) rfl) :
    Keeps m s0 (State.requeue s p) := by
  unfold State.requeue
  try dsimp only
  repeat' (first
    | with_reducible assumption
    | with_reducible apply State.routePkt_keeps (hm := Mask.le hm rfl)
    | with_reducible apply Keeps.foldl
    | with_reducible apply Keeps.foldlSnd
    | with_reducible apply Keeps.foldlFst
    | (intro x; intros; try dsimp only)
    | dsimp only
    | split)

theorem State.usabilityChanged_keeps {m : Nat} {s0 s : State} (p : Nat) (h : Keeps m s0 s)
    (hm : 10551316 &&& m = 10551316 := by exact Mask.le (by assumption) rfl) :
    Keeps m s0 (State.usabilityChanged s p) := by
  unfold State.usabilityChanged
  try dsimp only
  repeat' (first
    | with_reducible assumption
    | with_reducible apply State.requeue_keeps (hm := Mask.le hm rfl)
    | with_reducible apply State.sendRow_keeps (hm := Mask.le hm rfl)
    | (intro x; intros; try dsimp only)
    | dsimp only
    | split)

theorem State.setLane_keeps {m : Nat} {s0 s : State} (l : Nat) (v : LaneState) (h : Keeps m s0 s)
    (hm : 4194304 &&& m = 4194304 := by exact Mask.le (by assumption) rfl) :
    Keeps m s0 (State.setLane s l v) := by
  unfold State.setLane
  try dsimp only
  repeat' (first
    | with_reducible assumption
    | exact fun (hb : Nat.testBit _ _ = _) => (Mask.off hm hb rfl).elim
    | with_reducible exact fun _ => rfl
    | (intro x; intros; try dsimp only)
    | dsimp only
    | split
    | with_reducible apply Keeps.upd)

theorem State.laneTx_keeps {m : Nat} {s0 s : State} (l : Nat) (st : Nat) (h : Keeps m s0 s)
    (hm : 4259848 &&& m = 4259848 := by exact Mask.le (by assumption) rfl) :
    Keeps m s0 (State.laneTx s l st) := by
  unfold State.laneTx
  try dsimp only
  repeat' (first
    | with_reducible assumption
    | with_reducible apply State.setLane_keeps (hm := Mask.le hm rfl)
    | with_reducible apply State.emit_keeps (hm := Mask.le hm rfl)
    | (intro x; intros; try dsimp only)
    | dsimp only
    | split)

theorem State.laneTo_keeps {m : Nat} {s0 s : State} (l : Nat) (st : Nat) (h : Keeps m s0 s)
    (hm : 4259852 &&& m = 4259852 := by exact Mask.le (by assumption) rfl) :
    Keeps m s0 (State.laneTo s l st) := by
  unfold State.laneTo
  try dsimp only
  repeat' (first
    | with_reducible assumption
    | with_reducible apply State.setFld_keeps (hm := Mask.le hm rfl)
    | with_reducible apply State.setFlag_keeps (hm := Mask.le hm rfl)
    | with_reducible apply State.laneTx_keeps (hm := Mask.le hm rfl)
    | (intro x; intros; try dsimp only)
    | dsimp only
    | split)

theorem State.laneTrain_keeps {m : Nat} {s0 s : State} (l : Nat) (width1 : Bool) (h : Keeps m s0 s)
    (hm : 4259884 &&& m = 4259884 := by exact Mask.le (by assumption) rfl) :
    Keeps m s0 (State.laneTrain s l width1) := by
  unfold State.laneTrain
  try dsimp only
  repeat' (first
    | with_reducible assumption
    | with_reducible apply State.setLane_keeps (hm := Mask.le hm rfl)
    | with_reducible apply State.fresh_keeps (hm := Mask.le hm rfl)
    | with_reducible apply State.laneTo_keeps (hm := Mask.le hm rfl)
    | with_reducible apply State.setFld_keeps (hm := Mask.le hm rfl)
    | (intro x; intros; try dsimp only)
    | dsimp only
    | split
    | refine Keeps.snd (by assumption) ?_)

theorem State.laneAlign_keeps {m : Nat} {s0 s : State} (l : Nat) (h : Keeps m s0 s)
    (hm : 4259852 &&& m = 4259852 := by exact Mask.le (by assumption) rfl) :
    Keeps m s0 (State.laneAlign s l) := by
  unfold State.laneAlign
  try dsimp only
  repeat' (first
    | with_reducible assumption
    | with_reducible apply State.setLane_keeps (hm := Mask.le hm rfl)
    | with_reducible apply State.laneTo_keeps (hm := Mask.le hm rfl)
    | with_reducible apply State.setFlag_keeps (hm := Mask.le hm rfl)
    | (intro x; intros; try dsimp only)
    | dsimp only
    | split)

theorem State.dropTx_keeps {m : Nat} {s0 s : State} (p : Nat) (h : Keeps m s0 s)
    (hm : 4194304 &&& m = 4194304 := by exact Mask.le (by assumption) rfl) :
    Keeps m s0 (State.dropTx s p) := by
  unfold State.dropTx
  try dsimp only
  repeat' (first
    | with_reducible assumption
    | exact fun (hb : Nat.testBit _ _ = _) => (Mask.off hm hb rfl).elim
    | with_reducible exact fun _ => rfl
    | (intro x; intros; try dsimp only)
    | dsimp only
    | split
    | with_reducible apply Keeps.upd)

theorem State.trainPort_keeps {m : Nat} {s0 s : State} (p : Nat) (survivor : Option Nat) (h : Keeps m s0 s)
    (hm : 4259884 &&& m = 4259884 := by exact Mask.le (by assumption) rfl) :
    Keeps m s0 (State.trainPort s p survivor) := by
  unfold State.trainPort
  try dsimp only
  repeat' (first
    | with_reducible assumption
    | with_reducible apply State.laneAlign_keeps (hm := Mask.le hm rfl)
    | with_reducible apply State.laneTrain_keeps (hm := Mask.le hm rfl)
    | with_reducible apply State.laneTo_keeps (hm := Mask.le hm rfl)
    | with_reducible apply State.dropTx_keeps (hm := Mask.le hm rfl)
    | with_reducible apply Keeps.foldl
    | with_reducible apply Keeps.foldlSnd
    | with_reducible apply Keeps.foldlFst
    | (intro x; intros; try dsimp only)
    | dsimp only
    | split)

theorem State.squelch_keeps {m : Nat} {s0 s : State} (l : Nat) (h : Keeps m s0 s)
    (hm : 4259848 &&& m = 4259848 := by exact Mask.le (by assumption) rfl) :
    Keeps m s0 (State.squelch s l) := by
  unfold State.squelch
  try dsimp only
  repeat' (first
    | with_reducible assumption
    | with_reducible apply State.emit_keeps (hm := Mask.le hm rfl)
    | with_reducible apply State.setLane_keeps (hm := Mask.le hm rfl)
    | (intro x; intros; try dsimp only)
    | dsimp only
    | split)

theorem State.laneRetired_keeps {m : Nat} {s0 s : State} (l : Nat) (h : Keeps m s0 s)
    (hm : 4259852 &&& m = 4259852 := by exact Mask.le (by assumption) rfl) :
    Keeps m s0 (State.laneRetired s l) := by
  unfold State.laneRetired
  try dsimp only
  repeat' (first
    | with_reducible assumption
    | with_reducible apply State.laneTo_keeps (hm := Mask.le hm rfl)
    | (intro x; intros; try dsimp only)
    | dsimp only
    | split)

theorem State.portTo2_keeps {m : Nat} {s0 s : State} (p : Nat) (st : Nat) (h : Keeps m s0 s)
    (hm : 4 &&& m = 4 := by exact Mask.le (by assumption) rfl) :
    Keeps m s0 (State.portTo2 s p st) := by
  unfold State.portTo2
  try dsimp only
  repeat' (first
    | with_reducible assumption
    | with_reducible apply State.setFld_keeps (hm := Mask.le hm rfl)
    | (intro x; intros; try dsimp only)
    | dsimp only
    | split)

theorem State.lnkEvent_keeps {m : Nat} {s0 s : State} (p : Nat) (k : Nat) (detail : Nat) (h : Keeps m s0 s)
    (hm : 1155212 &&& m = 1155212 := by exact Mask.le (by assumption) rfl) :
    Keeps m s0 (State.lnkEvent s p k detail) := by
  unfold State.lnkEvent
  try dsimp only
  repeat' (first
    | with_reducible assumption
    | with_reducible apply State.fault_keeps (hm := Mask.le hm rfl)
    | (intro x; intros; try dsimp only)
    | dsimp only
    | split)

theorem State.pushCtl_keeps {m : Nat} {s0 s : State} (p : Nat) (f : Flit) (h : Keeps m s0 s)
    (hm : 8388608 &&& m = 8388608 := by exact Mask.le (by assumption) rfl) :
    Keeps m s0 (State.pushCtl s p f) := by
  unfold State.pushCtl
  try dsimp only
  repeat' (first
    | with_reducible assumption
    | with_reducible apply State.setLport_keeps (hm := Mask.le hm rfl)
    | (intro x; intros; try dsimp only)
    | dsimp only
    | split)

theorem State.poisonPkt_keeps {m : Nat} {s0 s : State} (id : Nat) (h : Keeps m s0 s)
    (hm : 11640972 &&& m = 11640972 := by exact Mask.le (by assumption) rfl) :
    Keeps m s0 (State.poisonPkt s id) := by
  unfold State.poisonPkt
  try dsimp only
  repeat' (first
    | with_reducible assumption
    | with_reducible apply State.setLport_keeps (hm := Mask.le hm rfl)
    | with_reducible apply State.lnkEvent_keeps (hm := Mask.le hm rfl)
    | with_reducible apply State.pushCtl_keeps (hm := Mask.le hm rfl)
    | with_reducible apply State.sampleEnd_keeps (hm := Mask.le hm rfl)
    | with_reducible apply State.freeFlits_keeps (hm := Mask.le hm rfl)
    | with_reducible apply State.dropPkt_keeps (hm := Mask.le hm rfl)
    | (intro x; intros; try dsimp only)
    | dsimp only
    | split)

theorem State.poisonRx_keeps {m : Nat} {s0 s : State} (p : Nat) (h : Keeps m s0 s)
    (hm : 11640972 &&& m = 11640972 := by exact Mask.le (by assumption) rfl) :
    Keeps m s0 (State.poisonRx s p) := by
  unfold State.poisonRx
  try dsimp only
  repeat' (first
    | with_reducible assumption
    | with_reducible apply State.poisonPkt_keeps (hm := Mask.le hm rfl)
    | with_reducible apply Keeps.foldl
    | with_reducible apply Keeps.foldlSnd
    | with_reducible apply Keeps.foldlFst
    | (intro x; intros; try dsimp only)
    | dsimp only
    | split)

theorem State.retainTx_keeps {m : Nat} {s0 s : State} (p : Nat) (h : Keeps m s0 s)
    (hm : 10485760 &&& m = 10485760 := by exact Mask.le (by assumption) rfl) :
    Keeps m s0 (State.retainTx s p) := by
  unfold State.retainTx
  try dsimp only
  repeat' (first
    | with_reducible assumption
    | with_reducible apply State.setRtePkt_keeps (hm := Mask.le hm rfl)
    | with_reducible apply State.freeFlits_keeps (hm := Mask.le hm rfl)
    | with_reducible apply State.dropPkt_keeps (hm := Mask.le hm rfl)
    | with_reducible apply Keeps.foldl
    | with_reducible apply Keeps.foldlSnd
    | with_reducible apply Keeps.foldlFst
    | (intro x; intros; try dsimp only)
    | dsimp only
    | split)

theorem State.releaseRetained_keeps {m : Nat} {s0 s : State} (p : Nat) (h : Keeps m s0 s)
    (hm : 10551316 &&& m = 10551316 := by exact Mask.le (by assumption) rfl) :
    Keeps m s0 (State.releaseRetained s p) := by
  unfold State.releaseRetained
  try dsimp only
  repeat' (first
    | with_reducible assumption
    | with_reducible apply State.routePkt_keeps (hm := Mask.le hm rfl)
    | with_reducible apply Keeps.foldl
    | with_reducible apply Keeps.foldlSnd
    | with_reducible apply Keeps.foldlFst
    | (intro x; intros; try dsimp only)
    | dsimp only
    | split)

theorem State.chooseUpstream_keeps {m : Nat} {s0 s : State}  (h : Keeps m s0 s)
    (hm : 9543820 &&& m = 9543820 := by exact Mask.le (by assumption) rfl) :
    Keeps m s0 (State.chooseUpstream s) := by
  unfold State.chooseUpstream
  try dsimp only
  repeat' (first
    | with_reducible assumption
    | with_reducible apply State.fault_keeps (hm := Mask.le hm rfl)
    | with_reducible apply Keeps.getD
    | exact fun (hb : Nat.testBit _ _ = _) => (Mask.off hm hb rfl).elim
    | with_reducible exact fun _ => rfl
    | (intro x; intros; try dsimp only)
    | dsimp only
    | split
    | with_reducible apply Keeps.upd)

theorem State.leaveLive_keeps {m : Nat} {s0 s : State} (p : Nat) (h : Keeps m s0 s)
    (hm : 11640988 &&& m = 11640988 := by exact Mask.le (by assumption) rfl) :
    Keeps m s0 (State.leaveLive s p) := by
  unfold State.leaveLive
  try dsimp only
  repeat' (first
    | with_reducible assumption
    | with_reducible apply State.portTo2_keeps (hm := Mask.le hm rfl)
    | with_reducible apply State.setFld_keeps (hm := Mask.le hm rfl)
    | with_reducible apply State.chooseUpstream_keeps (hm := Mask.le hm rfl)
    | with_reducible apply State.usabilityChanged_keeps (hm := Mask.le hm rfl)
    | with_reducible apply State.retainTx_keeps (hm := Mask.le hm rfl)
    | with_reducible apply State.poisonRx_keeps (hm := Mask.le hm rfl)
    | (intro x; intros; try dsimp only)
    | dsimp only
    | split)

theorem State.linkDown_keeps {m : Nat} {s0 s : State} (p : Nat) (cause : Nat) (h : Keeps m s0 s)
    (hm : 11640988 &&& m = 11640988 := by exact Mask.le (by assumption) rfl) :
    Keeps m s0 (State.linkDown s p cause) := by
  unfold State.linkDown
  try dsimp only
  repeat' (first
    | with_reducible assumption
    | with_reducible apply State.leaveLive_keeps (hm := Mask.le hm rfl)
    | with_reducible apply State.setFld_keeps (hm := Mask.le hm rfl)
    | with_reducible apply State.portTo2_keeps (hm := Mask.le hm rfl)
    | with_reducible apply State.bump_keeps (hm := Mask.le hm rfl)
    | with_reducible apply State.setLport_keeps (hm := Mask.le hm rfl)
    | with_reducible apply State.lnkEvent_keeps (hm := Mask.le hm rfl)
    | (intro x; intros; try dsimp only)
    | dsimp only
    | split)

theorem State.bringUp_keeps {m : Nat} {s0 s : State} (p : Nat) (h : Keeps m s0 s)
    (hm : 12648492 &&& m = 12648492 := by exact Mask.le (by assumption) rfl) :
    Keeps m s0 (State.bringUp s p) := by
  unfold State.bringUp
  try dsimp only
  repeat' (first
    | with_reducible assumption
    | with_reducible apply State.setLport_keeps (hm := Mask.le hm rfl)
    | with_reducible apply State.trainPort_keeps (hm := Mask.le hm rfl)
    | (intro x; intros; try dsimp only)
    | dsimp only
    | split)

theorem State.portRetire_keeps {m : Nat} {s0 s : State} (p : Nat) (h : Keeps m s0 s)
    (hm : 15835292 &&& m = 15835292 := by exact Mask.le (by assumption) rfl) :
    Keeps m s0 (State.portRetire s p) := by
  unfold State.portRetire
  try dsimp only
  repeat' (first
    | with_reducible assumption
    | with_reducible apply State.linkDown_keeps (hm := Mask.le hm rfl)
    | with_reducible apply State.portTo2_keeps (hm := Mask.le hm rfl)
    | with_reducible apply State.setFld_keeps (hm := Mask.le hm rfl)
    | with_reducible apply State.squelch_keeps (hm := Mask.le hm rfl)
    | with_reducible apply State.sendRow_keeps (hm := Mask.le hm rfl)
    | with_reducible apply State.releaseRetained_keeps (hm := Mask.le hm rfl)
    | (intro x; intros; try dsimp only)
    | dsimp only
    | split)

theorem State.linkReset_keeps {m : Nat} {s0 s : State} (p : Nat) (cause : Nat) (survivor : Option Nat) (h : Keeps m s0 s)
    (hm : 15835324 &&& m = 15835324 := by exact Mask.le (by assumption) rfl) :
    Keeps m s0 (State.linkReset s p cause survivor) := by
  unfold State.linkReset
  try dsimp only
  repeat' (first
    | with_reducible assumption
    | with_reducible apply State.linkDown_keeps (hm := Mask.le hm rfl)
    | with_reducible apply State.setLport_keeps (hm := Mask.le hm rfl)
    | with_reducible apply State.portRetire_keeps (hm := Mask.le hm rfl)
    | with_reducible apply State.bringUp_keeps (hm := Mask.le hm rfl)
    | (intro x; intros; try dsimp only)
    | dsimp only
    | split)

theorem State.admitFail_keeps {m : Nat} {s0 s : State} (p : Nat) (cause : Nat) (h : Keeps m s0 s)
    (hm : 11640988 &&& m = 11640988 := by exact Mask.le (by assumption) rfl) :
    Keeps m s0 (State.admitFail s p cause) := by
  unfold State.admitFail
  try dsimp only
  repeat' (first
    | with_reducible assumption
    | with_reducible apply State.linkDown_keeps (hm := Mask.le hm rfl)
    | with_reducible apply State.lnkEvent_keeps (hm := Mask.le hm rfl)
    | with_reducible apply State.setLport_keeps (hm := Mask.le hm rfl)
    | (intro x; intros; try dsimp only)
    | dsimp only
    | split)

theorem State.frameUp_keeps {m : Nat} {s0 s : State} (p : Nat) (h : Keeps m s0 s)
    (hm : 8388612 &&& m = 8388612 := by exact Mask.le (by assumption) rfl) :
    Keeps m s0 (State.frameUp s p) := by
  unfold State.frameUp
  try dsimp only
  repeat' (first
    | with_reducible assumption
    | with_reducible apply State.setFlag_keeps (hm := Mask.le hm rfl)
    | with_reducible apply State.setLport_keeps (hm := Mask.le hm rfl)
    | with_reducible apply State.pushCtl_keeps (hm := Mask.le hm rfl)
    | with_reducible apply State.portTo2_keeps (hm := Mask.le hm rfl)
    | (intro x; intros; try dsimp only)
    | dsimp only
    | split)

theorem State.tryLive_keeps {m : Nat} {s0 s : State} (p : Nat) (h : Keeps m s0 s)
    (hm : 11640988 &&& m = 11640988 := by exact Mask.le (by assumption) rfl) :
    Keeps m s0 (State.tryLive s p) := by
  unfold State.tryLive
  try dsimp only
  repeat' (first
    | with_reducible assumption
    | with_reducible apply State.setFld_keeps (hm := Mask.le hm rfl)
    | with_reducible apply State.portTo2_keeps (hm := Mask.le hm rfl)
    | with_reducible apply State.chooseUpstream_keeps (hm := Mask.le hm rfl)
    | with_reducible apply State.rescore_keeps (hm := Mask.le hm rfl)
    | with_reducible apply State.usabilityChanged_keeps (hm := Mask.le hm rfl)
    | exact fun (hb : Nat.testBit _ _ = _) => (Mask.off hm hb rfl).elim
    | with_reducible exact fun _ => rfl
    | (intro x; intros; try dsimp only)
    | dsimp only
    | split
    | with_reducible apply Keeps.upd)

theorem State.sendProof_keeps {m : Nat} {s0 s : State} (p : Nat) (h : Keeps m s0 s)
    (hm : 8388608 &&& m = 8388608 := by exact Mask.le (by assumption) rfl) :
    Keeps m s0 (State.sendProof s p) := by
  unfold State.sendProof
  try dsimp only
  repeat' (first
    | with_reducible assumption
    | with_reducible apply State.setLport_keeps (hm := Mask.le hm rfl)
    | with_reducible apply State.pushCtl_keeps (hm := Mask.le hm rfl)
    | with_reducible apply Keeps.foldl
    | with_reducible apply Keeps.foldlSnd
    | with_reducible apply Keeps.foldlFst
    | (intro x; intros; try dsimp only)
    | dsimp only
    | split)

theorem State.startAdmission_keeps {m : Nat} {s0 s : State} (p : Nat) (h : Keeps m s0 s)
    (hm : 8388644 &&& m = 8388644 := by exact Mask.le (by assumption) rfl) :
    Keeps m s0 (State.startAdmission s p) := by
  unfold State.startAdmission
  try dsimp only
  repeat' (first
    | with_reducible assumption
    | with_reducible apply State.fresh_keeps (hm := Mask.le hm rfl)
    | with_reducible apply State.setLport_keeps (hm := Mask.le hm rfl)
    | with_reducible apply State.pushCtl_keeps (hm := Mask.le hm rfl)
    | with_reducible apply State.portTo2_keeps (hm := Mask.le hm rfl)
    | with_reducible apply State.sendProof_keeps (hm := Mask.le hm rfl)
    | (intro x; intros; try dsimp only)
    | dsimp only
    | split
    | refine Keeps.snd (by assumption) ?_)

theorem State.helloRecv_keeps {m : Nat} {s0 s : State} (p : Nat) (f : Flit) (h : Keeps m s0 s)
    (hm : 11641020 &&& m = 11641020 := by exact Mask.le (by assumption) rfl) :
    Keeps m s0 (State.helloRecv s p f) := by
  unfold State.helloRecv
  try dsimp only
  repeat' (first
    | with_reducible assumption
    | with_reducible apply State.setLport_keeps (hm := Mask.le hm rfl)
    | with_reducible apply State.startAdmission_keeps (hm := Mask.le hm rfl)
    | with_reducible apply State.setFld_keeps (hm := Mask.le hm rfl)
    | with_reducible apply State.admitFail_keeps (hm := Mask.le hm rfl)
    | (intro x; intros; try dsimp only)
    | dsimp only
    | split)

theorem State.nonceRecv_keeps {m : Nat} {s0 s : State} (p : Nat) (f : Flit) (h : Keeps m s0 s)
    (hm : 8388608 &&& m = 8388608 := by exact Mask.le (by assumption) rfl) :
    Keeps m s0 (State.nonceRecv s p f) := by
  unfold State.nonceRecv
  try dsimp only
  repeat' (first
    | with_reducible assumption
    | with_reducible apply State.sendProof_keeps (hm := Mask.le hm rfl)
    | with_reducible apply State.setLport_keeps (hm := Mask.le hm rfl)
    | (intro x; intros; try dsimp only)
    | dsimp only
    | split)

theorem State.certSeen_keeps {m : Nat} {s0 s : State} (cert : List Byte) (h : Keeps m s0 s)
    (hm : 16777248 &&& m = 16777248 := by exact Mask.le (by assumption) rfl) :
    Keeps m s0 (State.certSeen s cert) := by
  unfold State.certSeen
  try dsimp only
  repeat' (first
    | with_reducible assumption
    | with_reducible apply State.fresh_keeps (hm := Mask.le hm rfl)
    | exact fun (hb : Nat.testBit _ _ = _) => (Mask.off hm hb rfl).elim
    | with_reducible exact fun _ => rfl
    | (intro x; intros; try dsimp only)
    | dsimp only
    | split
    | refine Keeps.snd (by assumption) ?_
    | with_reducible apply Keeps.upd)

theorem State.admitRefused_keeps {m : Nat} {s0 s : State} (p : Nat) (code : Nat) (h : Keeps m s0 s)
    (hm : 1155212 &&& m = 1155212 := by exact Mask.le (by assumption) rfl) :
    Keeps m s0 (State.admitRefused s p code) := by
  unfold State.admitRefused
  try dsimp only
  repeat' (first
    | with_reducible assumption
    | with_reducible apply State.setFld_keeps (hm := Mask.le hm rfl)
    | with_reducible apply State.fault_keeps (hm := Mask.le hm rfl)
    | (intro x; intros; try dsimp only)
    | dsimp only
    | split)

theorem State.judge_keeps {m : Nat} {s0 s : State} (p : Nat) (h : Keeps m s0 s)
    (hm : 11640988 &&& m = 11640988 := by exact Mask.le (by assumption) rfl) :
    Keeps m s0 (State.judge s p) := by
  unfold State.judge
  try dsimp only
  repeat' (first
    | with_reducible assumption
    | with_reducible apply State.tryLive_keeps (hm := Mask.le hm rfl)
    | with_reducible apply State.setFld_keeps (hm := Mask.le hm rfl)
    | with_reducible apply State.admitFail_keeps (hm := Mask.le hm rfl)
    | with_reducible apply Keeps.getD
    | with_reducible apply OptKeeps.mapState
    | with_reducible apply OptKeeps.map
    | (intro x; intros; try dsimp only)
    | dsimp only
    | split)

theorem State.sendVerdict_keeps {m : Nat} {s0 s : State} (p : Nat) (code : Nat) (h : Keeps m s0 s)
    (hm : 11640988 &&& m = 11640988 := by exact Mask.le (by assumption) rfl) :
    Keeps m s0 (State.sendVerdict s p code) := by
  unfold State.sendVerdict
  try dsimp only
  repeat' (first
    | with_reducible assumption
    | with_reducible apply State.setLport_keeps (hm := Mask.le hm rfl)
    | with_reducible apply State.pushCtl_keeps (hm := Mask.le hm rfl)
    | with_reducible apply State.admitRefused_keeps (hm := Mask.le hm rfl)
    | with_reducible apply State.judge_keeps (hm := Mask.le hm rfl)
    | (intro x; intros; try dsimp only)
    | dsimp only
    | split)

theorem State.proofRecv_keeps {m : Nat} {s0 s : State} (p : Nat) (f : Flit) (h : Keeps m s0 s)
    (hm : 28418236 &&& m = 28418236 := by exact Mask.le (by assumption) rfl) :
    Keeps m s0 (State.proofRecv s p f) := by
  unfold State.proofRecv
  try dsimp only
  repeat' (first
    | with_reducible assumption
    | with_reducible apply State.sendVerdict_keeps (hm := Mask.le hm rfl)
    | with_reducible apply State.setLport_keeps (hm := Mask.le hm rfl)
    | with_reducible apply State.certSeen_keeps (hm := Mask.le hm rfl)
    | (intro x; intros; try dsimp only)
    | dsimp only
    | split)

theorem State.verdictRecv_keeps {m : Nat} {s0 s : State} (p : Nat) (f : Flit) (h : Keeps m s0 s)
    (hm : 11640988 &&& m = 11640988 := by exact Mask.le (by assumption) rfl) :
    Keeps m s0 (State.verdictRecv s p f) := by
  unfold State.verdictRecv
  try dsimp only
  repeat' (first
    | with_reducible assumption
    | with_reducible apply State.setLport_keeps (hm := Mask.le hm rfl)
    | with_reducible apply State.admitRefused_keeps (hm := Mask.le hm rfl)
    | with_reducible apply State.judge_keeps (hm := Mask.le hm rfl)
    | (intro x; intros; try dsimp only)
    | dsimp only
    | split)

theorem State.requestReset_keeps {m : Nat} {s0 s : State} (p : Nat) (cause : Nat) (survivor : Option Nat) (h : Keeps m s0 s)
    (hm : 8388608 &&& m = 8388608 := by exact Mask.le (by assumption) rfl) :
    Keeps m s0 (State.requestReset s p cause survivor) := by
  unfold State.requestReset
  try dsimp only
  repeat' (first
    | with_reducible assumption
    | with_reducible apply State.pushCtl_keeps (hm := Mask.le hm rfl)
    | with_reducible apply State.setLport_keeps (hm := Mask.le hm rfl)
    | with_reducible apply Keeps.getD
    | (intro x; intros; try dsimp only)
    | dsimp only
    | split)

theorem State.proceedReset_keeps {m : Nat} {s0 s : State} (p : Nat) (h : Keeps m s0 s)
    (hm : 15835324 &&& m = 15835324 := by exact Mask.le (by assumption) rfl) :
    Keeps m s0 (State.proceedReset s p) := by
  unfold State.proceedReset
  try dsimp only
  repeat' (first
    | with_reducible assumption
    | with_reducible apply State.linkReset_keeps (hm := Mask.le hm rfl)
    | (intro x; intros; try dsimp only)
    | dsimp only
    | split)

theorem State.follow_keeps {m : Nat} {s0 s : State} (off : Int) (h : Keeps m s0 s)
    (hm : 9543822 &&& m = 9543822 := by exact Mask.le (by assumption) rfl) :
    Keeps m s0 (State.follow s off) := by
  unfold State.follow
  try dsimp only
  repeat' (first
    | with_reducible assumption
    | with_reducible apply State.fault_keeps (hm := Mask.le hm rfl)
    | with_reducible apply Keeps.getD
    | exact fun (hb : Nat.testBit _ _ = _) => (Mask.off hm hb rfl).elim
    | with_reducible exact fun _ => rfl
    | (intro x; intros; try dsimp only)
    | dsimp only
    | split
    | with_reducible apply Keeps.upd)

theorem State.timeRecv_keeps {m : Nat} {s0 s : State} (p : Nat) (f : Flit) (t4 : Nat) (h : Keeps m s0 s)
    (hm : 9543822 &&& m = 9543822 := by exact Mask.le (by assumption) rfl) :
    Keeps m s0 (State.timeRecv s p f t4) := by
  unfold State.timeRecv
  try dsimp only
  repeat' (first
    | with_reducible assumption
    | with_reducible apply State.setFld_keeps (hm := Mask.le hm rfl)
    | with_reducible apply State.setLport_keeps (hm := Mask.le hm rfl)
    | with_reducible apply State.chooseUpstream_keeps (hm := Mask.le hm rfl)
    | with_reducible apply State.follow_keeps (hm := Mask.le hm rfl)
    | (intro x; intros; try dsimp only)
    | dsimp only
    | split)

theorem State.headOut_keeps {m : Nat} {s0 s : State} (x : RtePkt) (h : Keeps m s0 s)
    (hm : 65536 &&& m = 65536 := by exact Mask.le (by assumption) rfl) :
    Keeps m s0 (State.headOut s x) := by
  unfold State.headOut
  try dsimp only
  repeat' (first
    | with_reducible assumption
    | with_reducible apply State.stampFirst_keeps (hm := Mask.le hm rfl)
    | (intro x; intros; try dsimp only)
    | dsimp only
    | split)

theorem State.takeFlit_keeps {m : Nat} {s0 s : State} (p : Nat) (k : Nat) (x : RtePkt) (h : Keeps m s0 s)
    (hm : 10551296 &&& m = 10551296 := by exact Mask.le (by assumption) rfl) :
    Keeps m s0 (State.takeFlit s p k x).2 := by
  unfold State.takeFlit
  try dsimp only
  repeat' (first
    | with_reducible assumption
    | with_reducible apply State.setLport_keeps (hm := Mask.le hm rfl)
    | with_reducible apply State.freeFlits_keeps (hm := Mask.le hm rfl)
    | with_reducible apply State.setRtePkt_keeps (hm := Mask.le hm rfl)
    | with_reducible apply State.pmcEv_keeps (hm := Mask.le hm rfl)
    | with_reducible apply State.headOut_keeps (hm := Mask.le hm rfl)
    | with_reducible apply State.stampFirst_keeps (hm := Mask.le hm rfl)
    | (intro x; intros; try dsimp only)
    | dsimp only
    | split)

theorem State.takeSlot_keeps {m : Nat} {s0 s : State} (p : Nat) (h : Keeps m s0 s)
    (hm : 10551296 &&& m = 10551296 := by exact Mask.le (by assumption) rfl) :
    Keeps m s0 (State.takeSlot s p).2 := by
  unfold State.takeSlot
  try dsimp only
  repeat' (first
    | with_reducible assumption
    | with_reducible apply State.setLport_keeps (hm := Mask.le hm rfl)
    | with_reducible apply State.takeFlit_keeps (hm := Mask.le hm rfl)
    | (intro x; intros; try dsimp only)
    | dsimp only
    | split
    | refine Keeps.snd (by assumption) ?_)

theorem State.takeSlots_keeps {m : Nat} {s0 s : State} (p : Nat) (a : Nat) (h : Keeps m s0 s)
    (hm : 10551296 &&& m = 10551296 := by exact Mask.le (by assumption) rfl) :
    Keeps m s0 (State.takeSlots p a s).2 := by
  induction a generalizing s with
  | zero => exact h
  | succ n ih =>
    have ht := State.takeSlot_keeps p h
    unfold State.takeSlots
    cases hq : s.takeSlot p with
    | mk o t =>
      rw [hq] at ht
      cases o with
      | none => exact ht
      | some f => exact ih ht

theorem State.noteCreditWaits_keeps {m : Nat} {s0 s : State} (p : Nat) (h : Keeps m s0 s)
    (hm : 8388608 &&& m = 8388608 := by exact Mask.le (by assumption) rfl) :
    Keeps m s0 (State.noteCreditWaits s p) := by
  unfold State.noteCreditWaits
  try dsimp only
  repeat' (first
    | with_reducible assumption
    | with_reducible apply State.setLport_keeps (hm := Mask.le hm rfl)
    | with_reducible apply Keeps.foldl
    | with_reducible apply Keeps.foldlSnd
    | with_reducible apply Keeps.foldlFst
    | with_reducible apply Keeps.getD
    | (intro x; intros; try dsimp only)
    | dsimp only
    | split)

theorem State.nextPos_keeps {m : Nat} {s0 s : State} (p : Nat) (h : Keeps m s0 s)
    (hm : 8388608 &&& m = 8388608 := by exact Mask.le (by assumption) rfl) :
    Keeps m s0 (State.nextPos s p) := by
  unfold State.nextPos
  try dsimp only
  repeat' (first
    | with_reducible assumption
    | with_reducible apply State.setLport_keeps (hm := Mask.le hm rfl)
    | (intro x; intros; try dsimp only)
    | dsimp only
    | split)

theorem State.sendIdle_keeps {m : Nat} {s0 s : State} (p : Nat) (h : Keeps m s0 s)
    (hm : 8454152 &&& m = 8454152 := by exact Mask.le (by assumption) rfl) :
    Keeps m s0 (State.sendIdle s p) := by
  unfold State.sendIdle
  try dsimp only
  repeat' (first
    | with_reducible assumption
    | with_reducible apply State.nextPos_keeps (hm := Mask.le hm rfl)
    | with_reducible apply State.emit_keeps (hm := Mask.le hm rfl)
    | (intro x; intros; try dsimp only)
    | dsimp only
    | split)

theorem State.resendBlock_keeps {m : Nat} {s0 s : State} (p : Nat) (b : TxBlock) (h : Keeps m s0 s)
    (hm : 8454152 &&& m = 8454152 := by exact Mask.le (by assumption) rfl) :
    Keeps m s0 (State.resendBlock s p b) := by
  unfold State.resendBlock
  try dsimp only
  repeat' (first
    | with_reducible assumption
    | with_reducible apply State.setLport_keeps (hm := Mask.le hm rfl)
    | with_reducible apply State.nextPos_keeps (hm := Mask.le hm rfl)
    | with_reducible apply State.emit_keeps (hm := Mask.le hm rfl)
    | (intro x; intros; try dsimp only)
    | dsimp only
    | split)

theorem State.sendNew_keeps {m : Nat} {s0 s : State} (p : Nat) (fs : List SlotFlit) (h : Keeps m s0 s)
    (hm : 8454152 &&& m = 8454152 := by exact Mask.le (by assumption) rfl) :
    Keeps m s0 (State.sendNew s p fs) := by
  unfold State.sendNew
  try dsimp only
  repeat' (first
    | with_reducible assumption
    | with_reducible apply State.setLport_keeps (hm := Mask.le hm rfl)
    | with_reducible apply State.nextPos_keeps (hm := Mask.le hm rfl)
    | with_reducible apply State.pmcEv_keeps (hm := Mask.le hm rfl)
    | with_reducible apply State.emit_keeps (hm := Mask.le hm rfl)
    | (intro x; intros; try dsimp only)
    | dsimp only
    | split)

theorem State.afterAck_keeps {m : Nat} {s0 s : State} (p : Nat) (fs : List SlotFlit) (h : Keeps m s0 s)
    (hm : 15835324 &&& m = 15835324 := by exact Mask.le (by assumption) rfl) :
    Keeps m s0 (State.afterAck s p fs) := by
  unfold State.afterAck
  try dsimp only
  repeat' (first
    | with_reducible assumption
    | with_reducible apply State.linkReset_keeps (hm := Mask.le hm rfl)
    | (intro x; intros; try dsimp only)
    | dsimp only
    | split)

theorem State.sendFresh_keeps {m : Nat} {s0 s : State} (p : Nat) (h : Keeps m s0 s)
    (hm : 15835324 &&& m = 15835324 := by exact Mask.le (by assumption) rfl) :
    Keeps m s0 (State.sendFresh s p) := by
  unfold State.sendFresh
  try dsimp only
  repeat' (first
    | with_reducible assumption
    | with_reducible apply State.sendIdle_keeps (hm := Mask.le hm rfl)
    | with_reducible apply State.noteCreditWaits_keeps (hm := Mask.le hm rfl)
    | with_reducible apply State.fresh_keeps (hm := Mask.le hm rfl)
    | with_reducible apply State.lnkEvent_keeps (hm := Mask.le hm rfl)
    | with_reducible apply State.takeSlots_keeps (hm := Mask.le hm rfl)
    | with_reducible apply State.afterAck_keeps (hm := Mask.le hm rfl)
    | with_reducible apply State.sendNew_keeps (hm := Mask.le hm rfl)
    | (intro x; intros; try dsimp only)
    | dsimp only
    | split
    | refine Keeps.snd (by assumption) ?_)

theorem State.sendBlock_keeps {m : Nat} {s0 s : State} (p : Nat) (h : Keeps m s0 s)
    (hm : 15835324 &&& m = 15835324 := by exact Mask.le (by assumption) rfl) :
    Keeps m s0 (State.sendBlock s p) := by
  unfold State.sendBlock
  try dsimp only
  repeat' (first
    | with_reducible assumption
    | with_reducible apply State.setLport_keeps (hm := Mask.le hm rfl)
    | with_reducible apply State.sendFresh_keeps (hm := Mask.le hm rfl)
    | with_reducible apply State.resendBlock_keeps (hm := Mask.le hm rfl)
    | with_reducible apply State.sendIdle_keeps (hm := Mask.le hm rfl)
    | (intro x; intros; try dsimp only)
    | dsimp only
    | split)

theorem State.startReplay_keeps {m : Nat} {s0 s : State} (p : Nat) (h : Keeps m s0 s)
    (hm : 15835324 &&& m = 15835324 := by exact Mask.le (by assumption) rfl) :
    Keeps m s0 (State.startReplay s p) := by
  unfold State.startReplay
  try dsimp only
  repeat' (first
    | with_reducible assumption
    | with_reducible apply State.linkReset_keeps (hm := Mask.le hm rfl)
    | with_reducible apply State.setLport_keeps (hm := Mask.le hm rfl)
    | with_reducible apply State.pmcEv_keeps (hm := Mask.le hm rfl)
    | with_reducible apply State.bump_keeps (hm := Mask.le hm rfl)
    | (intro x; intros; try dsimp only)
    | dsimp only
    | split)

theorem State.ackRecv_keeps {m : Nat} {s0 s : State} (p : Nat) (a : Nat) (h : Keeps m s0 s)
    (hm : 10551296 &&& m = 10551296 := by exact Mask.le (by assumption) rfl) :
    Keeps m s0 (State.ackRecv s p a) := by
  unfold State.ackRecv
  try dsimp only
  repeat' (first
    | with_reducible assumption
    | with_reducible apply State.setLport_keeps (hm := Mask.le hm rfl)
    | with_reducible apply State.dropPkt_keeps (hm := Mask.le hm rfl)
    | with_reducible apply State.sampleEnd_keeps (hm := Mask.le hm rfl)
    | with_reducible apply State.stampFirst_keeps (hm := Mask.le hm rfl)
    | with_reducible apply Keeps.foldl
    | with_reducible apply Keeps.foldlSnd
    | with_reducible apply Keeps.foldlFst
    | with_reducible apply Keeps.getD
    | with_reducible apply OptKeeps.mapState
    | with_reducible apply OptKeeps.map
    | (intro x; intros; try dsimp only)
    | dsimp only
    | split)

theorem State.enterDiscard_keeps {m : Nat} {s0 s : State} (p : Nat) (h : Keeps m s0 s)
    (hm : 8388608 &&& m = 8388608 := by exact Mask.le (by assumption) rfl) :
    Keeps m s0 (State.enterDiscard s p) := by
  unfold State.enterDiscard
  try dsimp only
  repeat' (first
    | with_reducible assumption
    | with_reducible apply State.setLport_keeps (hm := Mask.le hm rfl)
    | (intro x; intros; try dsimp only)
    | dsimp only
    | split)

theorem State.headFlit_keeps {m : Nat} {s0 s : State} (p : Nat) (k : Nat) (f : Flit) (h : Keeps m s0 s)
    (hm : 11640988 &&& m = 11640988 := by exact Mask.le (by assumption) rfl) :
    Keeps m s0 (State.headFlit s p k f) := by
  unfold State.headFlit
  try dsimp only
  repeat' (first
    | with_reducible assumption
    | with_reducible apply State.setLport_keeps (hm := Mask.le hm rfl)
    | with_reducible apply State.bump_keeps (hm := Mask.le hm rfl)
    | with_reducible apply State.freeFlits_keeps (hm := Mask.le hm rfl)
    | with_reducible apply State.fault_keeps (hm := Mask.le hm rfl)
    | with_reducible apply State.carry_keeps (hm := Mask.le hm rfl)
    | with_reducible apply State.routePkt_keeps (hm := Mask.le hm rfl)
    | (intro x; intros; try dsimp only)
    | dsimp only
    | split
    | refine Keeps.snd (by assumption) ?_)

theorem State.bodyFlit_keeps {m : Nat} {s0 s : State} (p : Nat) (k : Nat) (r : RxPkt) (f : Flit) (h : Keeps m s0 s)
    (hm : 10551316 &&& m = 10551316 := by exact Mask.le (by assumption) rfl) :
    Keeps m s0 (State.bodyFlit s p k r f) := by
  unfold State.bodyFlit
  try dsimp only
  repeat' (first
    | with_reducible assumption
    | with_reducible apply State.setLport_keeps (hm := Mask.le hm rfl)
    | with_reducible apply State.freeFlits_keeps (hm := Mask.le hm rfl)
    | with_reducible apply State.setRtePkt_keeps (hm := Mask.le hm rfl)
    | with_reducible apply State.handOver_keeps (hm := Mask.le hm rfl)
    | (intro x; intros; try dsimp only)
    | dsimp only
    | split)

theorem State.poisonRecv_keeps {m : Nat} {s0 s : State} (p : Nat) (f : Flit) (h : Keeps m s0 s)
    (hm : 11640972 &&& m = 11640972 := by exact Mask.le (by assumption) rfl) :
    Keeps m s0 (State.poisonRecv s p f) := by
  unfold State.poisonRecv
  try dsimp only
  repeat' (first
    | with_reducible assumption
    | with_reducible apply State.setLport_keeps (hm := Mask.le hm rfl)
    | with_reducible apply State.poisonPkt_keeps (hm := Mask.le hm rfl)
    | (intro x; intros; try dsimp only)
    | dsimp only
    | split)

theorem State.resetAckRecv_keeps {m : Nat} {s0 s : State} (p : Nat) (f : Flit) (h : Keeps m s0 s)
    (hm : 15835324 &&& m = 15835324 := by exact Mask.le (by assumption) rfl) :
    Keeps m s0 (State.resetAckRecv s p f) := by
  unfold State.resetAckRecv
  try dsimp only
  repeat' (first
    | with_reducible assumption
    | with_reducible apply State.proceedReset_keeps (hm := Mask.le hm rfl)
    | (intro x; intros; try dsimp only)
    | dsimp only
    | split)

theorem State.resetReqRecv_keeps {m : Nat} {s0 s : State} (p : Nat) (f : Flit) (h : Keeps m s0 s)
    (hm : 8388612 &&& m = 8388612 := by exact Mask.le (by assumption) rfl) :
    Keeps m s0 (State.resetReqRecv s p f) := by
  unfold State.resetReqRecv
  try dsimp only
  repeat' (first
    | with_reducible assumption
    | with_reducible apply State.setFlag_keeps (hm := Mask.le hm rfl)
    | with_reducible apply State.setLport_keeps (hm := Mask.le hm rfl)
    | (intro x; intros; try dsimp only)
    | dsimp only
    | split)

theorem State.ctlRecv_keeps {m : Nat} {s0 s : State} (p : Nat) (f : Flit) (h : Keeps m s0 s)
    (hm : 32612542 &&& m = 32612542 := by exact Mask.le (by assumption) rfl) :
    Keeps m s0 (State.ctlRecv s p f) := by
  unfold State.ctlRecv
  try dsimp only
  repeat' (first
    | with_reducible assumption
    | with_reducible apply State.helloRecv_keeps (hm := Mask.le hm rfl)
    | with_reducible apply State.nonceRecv_keeps (hm := Mask.le hm rfl)
    | with_reducible apply State.proofRecv_keeps (hm := Mask.le hm rfl)
    | with_reducible apply State.verdictRecv_keeps (hm := Mask.le hm rfl)
    | with_reducible apply State.poisonRecv_keeps (hm := Mask.le hm rfl)
    | with_reducible apply State.timeRecv_keeps (hm := Mask.le hm rfl)
    | with_reducible apply State.resetReqRecv_keeps (hm := Mask.le hm rfl)
    | with_reducible apply State.resetAckRecv_keeps (hm := Mask.le hm rfl)
    | with_reducible apply State.lnkEvent_keeps (hm := Mask.le hm rfl)
    | (intro x; intros; try dsimp only)
    | dsimp only
    | split)

theorem State.flitRecv_keeps {m : Nat} {s0 s : State} (p : Nat) (t : Nat) (f : Flit) (h : Keeps m s0 s)
    (hm : 32612542 &&& m = 32612542 := by exact Mask.le (by assumption) rfl) :
    Keeps m s0 (State.flitRecv s p t f) := by
  unfold State.flitRecv
  try dsimp only
  repeat' (first
    | with_reducible assumption
    | with_reducible apply State.ctlRecv_keeps (hm := Mask.le hm rfl)
    | with_reducible apply State.freeFlits_keeps (hm := Mask.le hm rfl)
    | with_reducible apply State.headFlit_keeps (hm := Mask.le hm rfl)
    | with_reducible apply State.bodyFlit_keeps (hm := Mask.le hm rfl)
    | (intro x; intros; try dsimp only)
    | dsimp only
    | split)

theorem State.acceptFlits_keeps {m : Nat} {s0 s : State} (p : Nat) (b : LinkBlock) (h : Keeps m s0 s)
    (hm : 32612542 &&& m = 32612542 := by exact Mask.le (by assumption) rfl) :
    Keeps m s0 (State.acceptFlits s p b) := by
  unfold State.acceptFlits
  try dsimp only
  repeat' (first
    | with_reducible assumption
    | with_reducible apply State.flitRecv_keeps (hm := Mask.le hm rfl)
    | with_reducible apply Keeps.foldl
    | with_reducible apply Keeps.foldlSnd
    | with_reducible apply Keeps.foldlFst
    | (intro x; intros; try dsimp only)
    | dsimp only
    | split)

theorem State.creditRecv_keeps {m : Nat} {s0 s : State} (p : Nat) (k : Nat) (v : Nat) (h : Keeps m s0 s)
    (hm : 11640988 &&& m = 11640988 := by exact Mask.le (by assumption) rfl) :
    Keeps m s0 (State.creditRecv s p k v) := by
  unfold State.creditRecv
  try dsimp only
  repeat' (first
    | with_reducible assumption
    | with_reducible apply State.setLport_keeps (hm := Mask.le hm rfl)
    | with_reducible apply State.rescore_keeps (hm := Mask.le hm rfl)
    | with_reducible apply State.tryLive_keeps (hm := Mask.le hm rfl)
    | (intro x; intros; try dsimp only)
    | dsimp only
    | split)

theorem State.slotRecv_keeps {m : Nat} {s0 s : State} (p : Nat) (q : Nat) (v : Nat) (h : Keeps m s0 s)
    (hm : 15835324 &&& m = 15835324 := by exact Mask.le (by assumption) rfl) :
    Keeps m s0 (State.slotRecv s p q v) := by
  unfold State.slotRecv
  try dsimp only
  repeat' (first
    | with_reducible assumption
    | with_reducible apply State.ackRecv_keeps (hm := Mask.le hm rfl)
    | with_reducible apply State.creditRecv_keeps (hm := Mask.le hm rfl)
    | with_reducible apply State.setLport_keeps (hm := Mask.le hm rfl)
    | with_reducible apply State.startReplay_keeps (hm := Mask.le hm rfl)
    | (intro x; intros; try dsimp only)
    | dsimp only
    | split)

theorem State.sequenceRecv_keeps {m : Nat} {s0 s : State} (p : Nat) (q : Nat) (b : LinkBlock) (h : Keeps m s0 s)
    (hm : 32612542 &&& m = 32612542 := by exact Mask.le (by assumption) rfl) :
    Keeps m s0 (State.sequenceRecv s p q b) := by
  unfold State.sequenceRecv
  try dsimp only
  repeat' (first
    | with_reducible assumption
    | with_reducible apply State.setLport_keeps (hm := Mask.le hm rfl)
    | with_reducible apply State.acceptFlits_keeps (hm := Mask.le hm rfl)
    | with_reducible apply State.enterDiscard_keeps (hm := Mask.le hm rfl)
    | (intro x; intros; try dsimp only)
    | dsimp only
    | split)

theorem State.blockRecv_keeps {m : Nat} {s0 s : State} (p : Nat) (b : LinkBlock) (marked : Bool) (h : Keeps m s0 s)
    (hm : 32612542 &&& m = 32612542 := by exact Mask.le (by assumption) rfl) :
    Keeps m s0 (State.blockRecv s p b marked) := by
  unfold State.blockRecv
  try dsimp only
  repeat' (first
    | with_reducible assumption
    | with_reducible apply State.setLport_keeps (hm := Mask.le hm rfl)
    | with_reducible apply State.lnkEvent_keeps (hm := Mask.le hm rfl)
    | with_reducible apply State.pmcEv_keeps (hm := Mask.le hm rfl)
    | with_reducible apply State.bump_keeps (hm := Mask.le hm rfl)
    | with_reducible apply State.enterDiscard_keeps (hm := Mask.le hm rfl)
    | with_reducible apply State.sequenceRecv_keeps (hm := Mask.le hm rfl)
    | with_reducible apply State.slotRecv_keeps (hm := Mask.le hm rfl)
    | (intro x; intros; try dsimp only)
    | dsimp only
    | split)

end Sys2Proof.Machine
end

