-- ==== Sys2Proof/Laws/KeepXlt.lean ====
section
/-!
SUPPORT. What XLT and RMA keep.
-/
set_option Elab.async false
set_option linter.unusedTactic false
set_option linter.unreachableTactic false
set_option linter.unusedVariables false
namespace Sys2Proof.Machine

theorem State.setWin_keeps {m : Nat} {s0 s : State} (e : Nat) (v : WinEntry) (h : Keeps m s0 s)
    (hm : 1024 &&& m = 1024 := by exact Mask.le (by assumption) rfl) :
    Keeps m s0 (State.setWin s e v) := by
  unfold State.setWin
  try dsimp only
  repeat' (first
    | with_reducible assumption
    | exact fun (hb : Nat.testBit _ _ = _) => (Mask.off hm hb rfl).elim
    | with_reducible exact fun _ => rfl
    | (intro x; intros; try dsimp only)
    | dsimp only
    | split
    | with_reducible apply Keeps.upd)

theorem State.applyCommit_keeps {m : Nat} {s0 s : State} (z1 : Nat) (e : Nat) (img : WinImage) (h : Keeps m s0 s)
    (hm : 91140 &&& m = 91140 := by exact Mask.le (by assumption) rfl) :
    Keeps m s0 (State.applyCommit s z1 e img) := by
  unfold State.applyCommit
  try dsimp only
  repeat' (first
    | with_reducible assumption
    | with_reducible apply State.logTable_keeps (hm := Mask.le hm rfl)
    | with_reducible apply State.setWin_keeps (hm := Mask.le hm rfl)
    | with_reducible apply State.report_keeps (hm := Mask.le hm rfl)
    | (intro x; intros; try dsimp only)
    | dsimp only
    | split)

theorem State.commit_keeps {m : Nat} {s0 s : State} (z1 : Nat) (e : Nat) (h : Keeps m s0 s)
    (hm : 91140 &&& m = 91140 := by exact Mask.le (by assumption) rfl) :
    Keeps m s0 (State.commit s z1 e) := by
  unfold State.commit
  try dsimp only
  repeat' (first
    | with_reducible assumption
    | with_reducible apply State.setFld_keeps (hm := Mask.le hm rfl)
    | with_reducible apply State.applyCommit_keeps (hm := Mask.le hm rfl)
    | with_reducible apply State.setWin_keeps (hm := Mask.le hm rfl)
    | with_reducible apply State.report_keeps (hm := Mask.le hm rfl)
    | (intro x; intros; try dsimp only)
    | dsimp only
    | split)

theorem State.pinImage_keeps {m : Nat} {s0 s : State} (e : Nat) (one : Bool) (h : Keeps m s0 s)
    (hm : 1024 &&& m = 1024 := by exact Mask.le (by assumption) rfl) :
    Keeps m s0 (State.pinImage s e one) := by
  unfold State.pinImage
  try dsimp only
  repeat' (first
    | with_reducible assumption
    | with_reducible apply State.setWin_keeps (hm := Mask.le hm rfl)
    | (intro x; intros; try dsimp only)
    | dsimp only
    | split)

theorem State.unpin_keeps {m : Nat} {s0 s : State} (e : Nat) (one : Bool) (h : Keeps m s0 s)
    (hm : 1024 &&& m = 1024 := by exact Mask.le (by assumption) rfl) :
    Keeps m s0 (State.unpin s e one) := by
  unfold State.unpin
  try dsimp only
  repeat' (first
    | with_reducible assumption
    | with_reducible apply State.setWin_keeps (hm := Mask.le hm rfl)
    | (intro x; intros; try dsimp only)
    | dsimp only
    | split)

theorem State.setXltEntry_keeps {m : Nat} {s0 s : State} (i : Nat) (w : Word) (h : Keeps m s0 s)
    (hm : 1024 &&& m = 1024 := by exact Mask.le (by assumption) rfl) :
    Keeps m s0 (State.setXltEntry s i w) := by
  unfold State.setXltEntry
  try dsimp only
  repeat' (first
    | with_reducible assumption
    | exact fun (hb : Nat.testBit _ _ = _) => (Mask.off hm hb rfl).elim
    | with_reducible exact fun _ => rfl
    | (intro x; intros; try dsimp only)
    | dsimp only
    | split
    | with_reducible apply Keeps.upd)

theorem State.xltTouch_keeps {m : Nat} {s0 s : State} (i : Nat) (h : Keeps m s0 s)
    (hm : 66560 &&& m = 66560 := by exact Mask.le (by assumption) rfl) :
    Keeps m s0 (State.xltTouch s i) := by
  unfold State.xltTouch
  try dsimp only
  repeat' (first
    | with_reducible assumption
    | with_reducible apply State.pmcEv_keeps (hm := Mask.le hm rfl)
    | exact fun (hb : Nat.testBit _ _ = _) => (Mask.off hm hb rfl).elim
    | with_reducible exact fun _ => rfl
    | (intro x; intros; try dsimp only)
    | dsimp only
    | split
    | with_reducible apply Keeps.upd)

theorem State.xltUse_keeps {m : Nat} {s0 s : State} (c : Nat) (kind : Nat) (addr : Nat) (len : Nat) (h : Keeps m s0 s)
    (hm : 66560 &&& m = 66560 := by exact Mask.le (by assumption) rfl) :
    Keeps m s0 (State.xltUse s c kind addr len) := by
  unfold State.xltUse
  try dsimp only
  repeat' (first
    | with_reducible assumption
    | with_reducible apply State.xltTouch_keeps (hm := Mask.le hm rfl)
    | with_reducible apply Keeps.foldl
    | with_reducible apply Keeps.foldlSnd
    | with_reducible apply Keeps.foldlFst
    | (intro x; intros; try dsimp only)
    | dsimp only
    | split)

theorem State.hbmMend_keeps {m : Nat} {s0 s : State} (a : Nat) (len : Nat) (h : Keeps m s0 s)
    (hm : 1048576 &&& m = 1048576 := by exact Mask.le (by assumption) rfl) :
    Keeps m s0 (State.hbmMend s a len) := by
  unfold State.hbmMend
  try dsimp only
  repeat' (first
    | with_reducible assumption
    | exact fun (hb : Nat.testBit _ _ = _) => (Mask.off hm hb rfl).elim
    | with_reducible exact fun _ => rfl
    | (intro x; intros; try dsimp only)
    | dsimp only
    | split
    | with_reducible apply Keeps.upd)

theorem State.fmemStore_keeps {m : Nat} {s0 s : State} (off : Nat) (bs : List Byte) (h : Keeps m s0 s)
    (hm : 68222976 &&& m = 68222976 := by exact Mask.le (by assumption) rfl) :
    Keeps m s0 (State.fmemStore s off bs) := by
  unfold State.fmemStore
  exact State.pmcEv_keeps _ _ _ _ _ (State.hbmMend_keeps _ _ (State.fmemStoreRaw_keeps _ (fun k => Memory.wf_write k.fmem off bs) h))

theorem State.placeWrite_keeps {m : Nat} {s0 s : State} (p : Place) (bs : List Byte) (h : Keeps m s0 s)
    (hm : 202702860 &&& m = 202702860 := by exact Mask.le (by assumption) rfl) :
    Keeps m s0 (State.placeWrite s p bs) := by
  unfold State.placeWrite
  try dsimp only
  repeat' (first
    | with_reducible assumption
    | with_reducible apply State.hostWrite_keeps (hm := Mask.le hm rfl)
    | with_reducible apply State.pmcEv_keeps (hm := Mask.le hm rfl)
    | with_reducible apply State.spdStore_keeps (hm := Mask.le hm rfl)
    | with_reducible apply State.spdTouch_keeps (hm := Mask.le hm rfl)
    | with_reducible apply State.fmemStore_keeps (hm := Mask.le hm rfl)
    | (intro x; intros; try dsimp only)
    | dsimp only
    | split)

theorem State.placesWrite_keeps {m : Nat} {s0 s : State} (a : List (Place × Nat)) (a2 : List Byte) (h : Keeps m s0 s)
    (hm : 202702860 &&& m = 202702860 := by exact Mask.le (by assumption) rfl) :
    Keeps m s0 (State.placesWrite s a a2) := by
  induction a generalizing s a2 with
  | nil =>
    try unfold State.placesWrite
    try dsimp only
    repeat' (first
      | with_reducible assumption
      | with_reducible apply State.placeWrite_keeps (hm := Mask.le hm rfl)
      | (intro x; intros; try dsimp only)
      | dsimp only
      | split)
  | cons x l ih =>
    try unfold State.placesWrite
    try dsimp only
    repeat' (first
      | with_reducible apply ih
      | with_reducible assumption
      | with_reducible apply State.placeWrite_keeps (hm := Mask.le hm rfl)
      | (intro x; intros; try dsimp only)
      | dsimp only
      | split)

theorem State.placeTouch_keeps {m : Nat} {s0 s : State} (p : Place) (n : Nat) (h : Keeps m s0 s)
    (hm : 65540 &&& m = 65540 := by exact Mask.le (by assumption) rfl) :
    Keeps m s0 (State.placeTouch s p n) := by
  unfold State.placeTouch
  try dsimp only
  repeat' (first
    | with_reducible assumption
    | with_reducible apply State.pmcEv_keeps (hm := Mask.le hm rfl)
    | with_reducible apply State.spdTouch_keeps (hm := Mask.le hm rfl)
    | (intro x; intros; try dsimp only)
    | dsimp only
    | split)

theorem State.writeEach_keeps {m : Nat} {s0 s : State} (src : Option Nat) (mute : Bool) (a : List (Option Place × Nat)) (a4 : List Byte) (h : Keeps m s0 s)
    (hm : 202743948 &&& m = 202743948 := by exact Mask.le (by assumption) rfl) :
    Keeps m s0 (State.writeEach s src mute a a4) := by
  induction a generalizing s src a4 with
  | nil => exact h
  | cons x l ih =>
    obtain ⟨o, n⟩ := x
    cases o with
    | none =>
      cases src with
      | none => exact ih _ _ h
      | some k => exact ih _ _ (State.fault_keeps _ _ _ h)
    | some p =>
      unfold State.writeEach
      extract_lets host s1
      refine ih _ _ ?_
      show Keeps m s0 (if _ then _ else _)
      split
      · exact h
      · exact State.placeWrite_keeps _ _ h

theorem State.issueRead_keeps {m : Nat} {s0 s : State} (p : Nat) (fn : Nat) (addr : Nat) (len : Nat) (gather : Nat) (chunk : Nat) (h : Keeps m s0 s)
    (hm : 65672 &&& m = 65672 := by exact Mask.le (by assumption) rfl) :
    Keeps m s0 (State.issueRead s p fn addr len gather chunk) := by
  unfold State.issueRead
  try dsimp only
  repeat' (first
    | with_reducible assumption
    | with_reducible apply State.takeTag_keeps (hm := Mask.le hm rfl)
    | with_reducible apply State.emit_keeps (hm := Mask.le hm rfl)
    | exact fun (hb : Nat.testBit _ _ = _) => (Mask.off hm hb rfl).elim
    | with_reducible exact fun _ => rfl
    | (intro x; intros; try dsimp only)
    | dsimp only
    | split
    | refine Keeps.snd (by assumption) ?_
    | with_reducible apply Keeps.upd)

theorem State.gather_keeps {m : Nat} {s0 s : State} (ps : List (Place × Nat)) (u : GatherUse) (h : Keeps m s0 s)
    (hm : 65676 &&& m = 65676 := by exact Mask.le (by assumption) rfl) :
    Keeps m s0 (State.gather s ps u).2 := by
  unfold State.gather
  try dsimp only
  repeat' (first
    | with_reducible assumption
    | with_reducible apply State.takeTag_keeps (hm := Mask.le hm rfl)
    | with_reducible apply State.placeTouch_keeps (hm := Mask.le hm rfl)
    | with_reducible apply State.issueRead_keeps (hm := Mask.le hm rfl)
    | with_reducible apply Keeps.foldl
    | with_reducible apply Keeps.foldlSnd
    | with_reducible apply Keeps.foldlFst
    | exact fun (hb : Nat.testBit _ _ = _) => (Mask.off hm hb rfl).elim
    | with_reducible exact fun _ => rfl
    | (intro x; intros; try dsimp only)
    | dsimp only
    | split
    | refine Keeps.snd (by assumption) ?_
    | with_reducible apply Keeps.upd)

theorem State.dropGather_keeps {m : Nat} {s0 s : State} (g : Nat) (h : Keeps m s0 s)
    (hm : 128 &&& m = 128 := by exact Mask.le (by assumption) rfl) :
    Keeps m s0 (State.dropGather s g) := by
  unfold State.dropGather
  try dsimp only
  repeat' (first
    | with_reducible assumption
    | exact fun (hb : Nat.testBit _ _ = _) => (Mask.off hm hb rfl).elim
    | with_reducible exact fun _ => rfl
    | (intro x; intros; try dsimp only)
    | dsimp only
    | split
    | with_reducible apply Keeps.upd)

theorem State.writeXlt_keeps {m : Nat} {s0 s : State} (z1 : Nat) (i : Nat) (w : Word) (h : Keeps m s0 s)
    (hm : 91140 &&& m = 91140 := by exact Mask.le (by assumption) rfl) :
    Keeps m s0 (State.writeXlt s z1 i w) := by
  unfold State.writeXlt
  try dsimp only
  repeat' (first
    | with_reducible assumption
    | with_reducible apply State.logTable_keeps (hm := Mask.le hm rfl)
    | with_reducible apply State.setXltEntry_keeps (hm := Mask.le hm rfl)
    | with_reducible apply State.report_keeps (hm := Mask.le hm rfl)
    | exact fun (hb : Nat.testBit _ _ = _) => (Mask.off hm hb rfl).elim
    | with_reducible exact fun _ => rfl
    | (intro x; intros; try dsimp only)
    | dsimp only
    | split
    | with_reducible apply Keeps.upd)

theorem State.loaderRead_keeps {m : Nat} {s0 s : State}  (h : Keeps m s0 s)
    (hm : 65672 &&& m = 65672 := by exact Mask.le (by assumption) rfl) :
    Keeps m s0 (State.loaderRead s) := by
  unfold State.loaderRead
  try dsimp only
  repeat' (first
    | with_reducible assumption
    | with_reducible apply State.takeOther_keeps (hm := Mask.le hm rfl)
    | with_reducible apply State.emit_keeps (hm := Mask.le hm rfl)
    | (intro x; intros; try dsimp only)
    | dsimp only
    | split
    | refine Keeps.snd (by assumption) ?_)

theorem State.loaderEnd_keeps {m : Nat} {s0 s : State} (st : Nat) (h : Keeps m s0 s)
    (hm : 1156 &&& m = 1156 := by exact Mask.le (by assumption) rfl) :
    Keeps m s0 (State.loaderEnd s st) := by
  unfold State.loaderEnd
  try dsimp only
  repeat' (first
    | with_reducible assumption
    | with_reducible apply State.dropOther_keeps (hm := Mask.le hm rfl)
    | with_reducible apply State.setFld_keeps (hm := Mask.le hm rfl)
    | exact fun (hb : Nat.testBit _ _ = _) => (Mask.off hm hb rfl).elim
    | with_reducible exact fun _ => rfl
    | (intro x; intros; try dsimp only)
    | dsimp only
    | split
    | with_reducible apply Keeps.upd)

theorem State.loaderStart_keeps {m : Nat} {s0 s : State}  (h : Keeps m s0 s)
    (hm : 66700 &&& m = 66700 := by exact Mask.le (by assumption) rfl) :
    Keeps m s0 (State.loaderStart s) := by
  unfold State.loaderStart
  try dsimp only
  repeat' (first
    | with_reducible assumption
    | with_reducible apply State.setFld_keeps (hm := Mask.le hm rfl)
    | with_reducible apply State.loaderEnd_keeps (hm := Mask.le hm rfl)
    | with_reducible apply State.loaderRead_keeps (hm := Mask.le hm rfl)
    | exact fun (hb : Nat.testBit _ _ = _) => (Mask.off hm hb rfl).elim
    | with_reducible exact fun _ => rfl
    | (intro x; intros; try dsimp only)
    | dsimp only
    | split
    | with_reducible apply Keeps.upd)

theorem State.loaderEntry_keeps {m : Nat} {s0 s : State} (e : Option Word) (h : Keeps m s0 s)
    (hm : 91276 &&& m = 91276 := by exact Mask.le (by assumption) rfl) :
    Keeps m s0 (State.loaderEntry s e) := by
  unfold State.loaderEntry
  try dsimp only
  repeat' (first
    | with_reducible assumption
    | with_reducible apply State.dropOther_keeps (hm := Mask.le hm rfl)
    | with_reducible apply State.loaderEnd_keeps (hm := Mask.le hm rfl)
    | with_reducible apply State.setFld_keeps (hm := Mask.le hm rfl)
    | with_reducible apply State.writeXlt_keeps (hm := Mask.le hm rfl)
    | with_reducible apply State.loaderRead_keeps (hm := Mask.le hm rfl)
    | (intro x; intros; try dsimp only)
    | dsimp only
    | split)

theorem State.countResends_keeps {m : Nat} {s0 s : State} (n : Nat) (h : Keeps m s0 s)
    (hm : 65540 &&& m = 65540 := by exact Mask.le (by assumption) rfl) :
    Keeps m s0 (State.countResends s n) := by
  unfold State.countResends
  try dsimp only
  repeat' (first
    | with_reducible assumption
    | with_reducible apply State.pmcEv_keeps (hm := Mask.le hm rfl)
    | with_reducible apply State.bump_keeps (hm := Mask.le hm rfl)
    | (intro x; intros; try dsimp only)
    | dsimp only
    | split)

theorem State.presentFor_keeps {m : Nat} {s0 s : State} (hr : HandleRef) (k : Nat) (p : Packet) (h : Keeps m s0 s)
    (hm : 10695580 &&& m = 10695580 := by exact Mask.le (by assumption) rfl) :
    Keeps m s0 (State.presentFor s hr k p) := by
  unfold State.presentFor
  try dsimp only
  repeat' (first
    | with_reducible assumption
    | with_reducible apply State.setHandle_keeps (hm := Mask.le hm rfl)
    | with_reducible apply State.stampFirst_keeps (hm := Mask.le hm rfl)
    | with_reducible apply State.countResends_keeps (hm := Mask.le hm rfl)
    | with_reducible apply State.stampLast_keeps (hm := Mask.le hm rfl)
    | with_reducible apply State.inject_keeps (hm := Mask.le hm rfl)
    | with_reducible apply State.setFlag_keeps (hm := Mask.le hm rfl)
    | with_reducible apply State.finish_keeps (hm := Mask.le hm rfl)
    | with_reducible apply Keeps.getD
    | (intro x; intros; try dsimp only)
    | dsimp only
    | split)

theorem State.scheduleBusy_keeps {m : Nat} {s0 s : State} (hr : HandleRef) (k : Nat) (h : Keeps m s0 s)
    (hm : 512 &&& m = 512 := by exact Mask.le (by assumption) rfl) :
    Keeps m s0 (State.scheduleBusy s hr k) := by
  unfold State.scheduleBusy
  try dsimp only
  repeat' (first
    | with_reducible assumption
    | with_reducible apply State.setHandle_keeps (hm := Mask.le hm rfl)
    | (intro x; intros; try dsimp only)
    | dsimp only
    | split)

theorem State.localFail_keeps {m : Nat} {s0 s : State} (hr : HandleRef) (k : Nat) (f : PlaceFail) (h : Keeps m s0 s)
    (hm : 209804 &&& m = 209804 := by exact Mask.le (by assumption) rfl) :
    Keeps m s0 (State.localFail s hr k f) := by
  unfold State.localFail
  try dsimp only
  repeat' (first
    | with_reducible assumption
    | with_reducible apply State.scheduleBusy_keeps (hm := Mask.le hm rfl)
    | with_reducible apply State.finish_keeps (hm := Mask.le hm rfl)
    | (intro x; intros; try dsimp only)
    | dsimp only
    | split)

theorem State.sendPart_keeps {m : Nat} {s0 s : State} (hr : HandleRef) (k : Nat) (h : Keeps m s0 s)
    (hm : 10696604 &&& m = 10696604 := by exact Mask.le (by assumption) rfl) :
    Keeps m s0 (State.sendPart s hr k) := by
  unfold State.sendPart
  try dsimp only
  repeat' (first
    | with_reducible assumption
    | with_reducible apply State.presentFor_keeps (hm := Mask.le hm rfl)
    | with_reducible apply State.finish_keeps (hm := Mask.le hm rfl)
    | with_reducible apply State.localFail_keeps (hm := Mask.le hm rfl)
    | with_reducible apply State.xltUse_keeps (hm := Mask.le hm rfl)
    | with_reducible apply State.gather_keeps (hm := Mask.le hm rfl)
    | (intro x; intros; try dsimp only)
    | dsimp only
    | split
    | refine Keeps.snd (by assumption) ?_)

theorem State.sendParts_keeps {m : Nat} {s0 s : State} (hr : HandleRef) (ks : List Nat) (h : Keeps m s0 s)
    (hm : 10696604 &&& m = 10696604 := by exact Mask.le (by assumption) rfl) :
    Keeps m s0 (State.sendParts s hr ks) := by
  unfold State.sendParts
  try dsimp only
  repeat' (first
    | with_reducible assumption
    | with_reducible apply State.sendPart_keeps (hm := Mask.le hm rfl)
    | with_reducible apply Keeps.foldl
    | with_reducible apply Keeps.foldlSnd
    | with_reducible apply Keeps.foldlFst
    | (intro x; intros; try dsimp only)
    | dsimp only
    | split)

theorem State.hold_keeps {m : Nat} {s0 s : State} (z1 : Handle) (h : Keeps m s0 s)
    (hm : 512 &&& m = 512 := by exact Mask.le (by assumption) rfl) :
    Keeps m s0 (State.hold s z1) := by
  unfold State.hold
  try dsimp only
  repeat' (first
    | with_reducible assumption
    | with_reducible apply State.setHandle_keeps (hm := Mask.le hm rfl)
    | (intro x; intros; try dsimp only)
    | dsimp only
    | split)

theorem State.dispatchRma_keeps {m : Nat} {s0 s : State} (z1 : Handle) (h : Keeps m s0 s)
    (hm : 10696604 &&& m = 10696604 := by exact Mask.le (by assumption) rfl) :
    Keeps m s0 (State.dispatchRma s z1) := by
  unfold State.dispatchRma
  try dsimp only
  repeat' (first
    | with_reducible assumption
    | with_reducible apply State.hold_keeps (hm := Mask.le hm rfl)
    | with_reducible apply State.finish_keeps (hm := Mask.le hm rfl)
    | with_reducible apply State.sendParts_keeps (hm := Mask.le hm rfl)
    | with_reducible apply State.sampleLocal_keeps (hm := Mask.le hm rfl)
    | with_reducible apply State.activate_keeps (hm := Mask.le hm rfl)
    | (intro x; intros; try dsimp only)
    | dsimp only
    | split)

theorem State.dispatchArm_keeps {m : Nat} {s0 s : State} (z1 : Handle) (h : Keeps m s0 s)
    (hm : 209804 &&& m = 209804 := by exact Mask.le (by assumption) rfl) :
    Keeps m s0 (State.dispatchArm s z1) := by
  unfold State.dispatchArm
  try dsimp only
  repeat' (first
    | with_reducible assumption
    | with_reducible apply State.hold_keeps (hm := Mask.le hm rfl)
    | with_reducible apply State.finish_keeps (hm := Mask.le hm rfl)
    | with_reducible apply State.ctrChanged_keeps (hm := Mask.le hm rfl)
    | with_reducible apply State.setCtr_keeps (hm := Mask.le hm rfl)
    | with_reducible apply State.setHandle_keeps (hm := Mask.le hm rfl)
    | (intro x; intros; try dsimp only)
    | dsimp only
    | split)

theorem State.lateAnswer_keeps {m : Nat} {s0 s : State} (c : Nat) (osn : Nat) (h : Keeps m s0 s)
    (hm : 4 &&& m = 4 := by exact Mask.le (by assumption) rfl) :
    Keeps m s0 (State.lateAnswer s c osn) := by
  unfold State.lateAnswer
  try dsimp only
  repeat' (first
    | with_reducible assumption
    | with_reducible apply State.bump_keeps (hm := Mask.le hm rfl)
    | with_reducible apply State.setFld_keeps (hm := Mask.le hm rfl)
    | (intro x; intros; try dsimp only)
    | dsimp only
    | split)

theorem State.stampAnswer_keeps {m : Nat} {s0 s : State} (z1 : Handle) (h : Keeps m s0 s)
    (hm : 65792 &&& m = 65792 := by exact Mask.le (by assumption) rfl) :
    Keeps m s0 (State.stampAnswer s z1) := by
  unfold State.stampAnswer
  try dsimp only
  repeat' (first
    | with_reducible assumption
    | with_reducible apply State.stampLast_keeps (hm := Mask.le hm rfl)
    | with_reducible apply State.stampFirst_keeps (hm := Mask.le hm rfl)
    | with_reducible apply State.ctxUse_keeps (hm := Mask.le hm rfl)
    | (intro x; intros; try dsimp only)
    | dsimp only
    | split)

theorem State.getResponse_keeps {m : Nat} {s0 s : State} (p : Packet) (h : Keeps m s0 s)
    (hm : 202880908 &&& m = 202880908 := by exact Mask.le (by assumption) rfl) :
    Keeps m s0 (State.getResponse s p) := by
  unfold State.getResponse
  try dsimp only
  repeat' (first
    | with_reducible assumption
    | with_reducible apply State.lateAnswer_keeps (hm := Mask.le hm rfl)
    | with_reducible apply State.stampAnswer_keeps (hm := Mask.le hm rfl)
    | with_reducible apply State.setHandle_keeps (hm := Mask.le hm rfl)
    | with_reducible apply State.complete_keeps (hm := Mask.le hm rfl)
    | with_reducible apply State.xltUse_keeps (hm := Mask.le hm rfl)
    | with_reducible apply State.finish_keeps (hm := Mask.le hm rfl)
    | with_reducible apply State.writeEach_keeps (hm := Mask.le hm rfl)
    | (intro x; intros; try dsimp only)
    | dsimp only
    | split)

theorem State.putResponse_keeps {m : Nat} {s0 s : State} (p : Packet) (h : Keeps m s0 s)
    (hm : 209804 &&& m = 209804 := by exact Mask.le (by assumption) rfl) :
    Keeps m s0 (State.putResponse s p) := by
  unfold State.putResponse
  try dsimp only
  repeat' (first
    | with_reducible assumption
    | with_reducible apply State.lateAnswer_keeps (hm := Mask.le hm rfl)
    | with_reducible apply State.complete_keeps (hm := Mask.le hm rfl)
    | with_reducible apply State.stampAnswer_keeps (hm := Mask.le hm rfl)
    | (intro x; intros; try dsimp only)
    | dsimp only
    | split)

theorem State.atomicResponse_keeps {m : Nat} {s0 s : State} (p : Packet) (h : Keeps m s0 s)
    (hm : 202880908 &&& m = 202880908 := by exact Mask.le (by assumption) rfl) :
    Keeps m s0 (State.atomicResponse s p) := by
  unfold State.atomicResponse
  try dsimp only
  repeat' (first
    | with_reducible assumption
    | with_reducible apply State.lateAnswer_keeps (hm := Mask.le hm rfl)
    | with_reducible apply State.stampAnswer_keeps (hm := Mask.le hm rfl)
    | with_reducible apply State.complete_keeps (hm := Mask.le hm rfl)
    | with_reducible apply State.xltUse_keeps (hm := Mask.le hm rfl)
    | with_reducible apply State.finish_keeps (hm := Mask.le hm rfl)
    | with_reducible apply State.writeEach_keeps (hm := Mask.le hm rfl)
    | (intro x; intros; try dsimp only)
    | dsimp only
    | split)

theorem State.refusalRecv_keeps {m : Nat} {s0 s : State} (p : Packet) (h : Keeps m s0 s)
    (hm : 209804 &&& m = 209804 := by exact Mask.le (by assumption) rfl) :
    Keeps m s0 (State.refusalRecv s p) := by
  unfold State.refusalRecv
  try dsimp only
  repeat' (first
    | with_reducible assumption
    | with_reducible apply State.lateAnswer_keeps (hm := Mask.le hm rfl)
    | with_reducible apply State.stampAnswer_keeps (hm := Mask.le hm rfl)
    | with_reducible apply State.scheduleBusy_keeps (hm := Mask.le hm rfl)
    | with_reducible apply State.finish_keeps (hm := Mask.le hm rfl)
    | (intro x; intros; try dsimp only)
    | dsimp only
    | split)

theorem State.resendRma_keeps {m : Nat} {s0 s : State} (z1 : Handle) (h : Keeps m s0 s)
    (hm : 10696604 &&& m = 10696604 := by exact Mask.le (by assumption) rfl) :
    Keeps m s0 (State.resendRma s z1) := by
  unfold State.resendRma
  try dsimp only
  repeat' (first
    | with_reducible assumption
    | with_reducible apply State.sendParts_keeps (hm := Mask.le hm rfl)
    | with_reducible apply State.setHandle_keeps (hm := Mask.le hm rfl)
    | (intro x; intros; try dsimp only)
    | dsimp only
    | split)

theorem State.timeoutRma_keeps {m : Nat} {s0 s : State} (z1 : Handle) (h : Keeps m s0 s)
    (hm : 209804 &&& m = 209804 := by exact Mask.le (by assumption) rfl) :
    Keeps m s0 (State.timeoutRma s z1) := by
  unfold State.timeoutRma
  try dsimp only
  repeat' (first
    | with_reducible assumption
    | with_reducible apply State.pmcEv_keeps (hm := Mask.le hm rfl)
    | with_reducible apply State.complete_keeps (hm := Mask.le hm rfl)
    | (intro x; intros; try dsimp only)
    | dsimp only
    | split)

theorem State.placePeer_keeps {m : Nat} {s0 s : State} (v : Peer) (h : Keeps m s0 s)
    (hm : 4128 &&& m = 4128 := by exact Mask.le (by assumption) rfl) :
    Keeps m s0 (State.placePeer s v) := by
  unfold State.placePeer
  try dsimp only
  repeat' (first
    | with_reducible assumption
    | with_reducible apply State.takePlace_keeps (hm := Mask.le hm rfl)
    | exact fun (hb : Nat.testBit _ _ = _) => (Mask.off hm hb rfl).elim
    | with_reducible exact fun _ => rfl
    | (intro x; intros; try dsimp only)
    | dsimp only
    | split
    | refine Keeps.snd (by assumption) ?_
    | with_reducible apply Keeps.upd)

theorem State.setPeer_keeps {m : Nat} {s0 s : State} (v : Peer) (h : Keeps m s0 s)
    (hm : 4128 &&& m = 4128 := by exact Mask.le (by assumption) rfl) :
    Keeps m s0 (State.setPeer s v) := by
  unfold State.setPeer
  try dsimp only
  repeat' (first
    | with_reducible assumption
    | with_reducible apply State.placePeer_keeps (hm := Mask.le hm rfl)
    | exact fun (hb : Nat.testBit _ _ = _) => (Mask.off hm hb rfl).elim
    | with_reducible exact fun _ => rfl
    | (intro x; intros; try dsimp only)
    | dsimp only
    | split
    | with_reducible apply Keeps.upd)

theorem State.putPeer_keeps {m : Nat} {s0 s : State} (v : Peer) (h : Keeps m s0 s)
    (hm : 12320 &&& m = 12320 := by exact Mask.le (by assumption) rfl) :
    Keeps m s0 (State.putPeer s v) := by
  unfold State.putPeer
  try dsimp only
  repeat' (first
    | with_reducible assumption
    | with_reducible apply State.setPeer_keeps (hm := Mask.le hm rfl)
    | with_reducible apply State.report_keeps (hm := Mask.le hm rfl)
    | (intro x; intros; try dsimp only)
    | dsimp only
    | split)

theorem State.putFloor_keeps {m : Nat} {s0 s : State} (v : Peer) (h : Keeps m s0 s)
    (hm : 12320 &&& m = 12320 := by exact Mask.le (by assumption) rfl) :
    Keeps m s0 (State.putFloor s v) := by
  unfold State.putFloor
  try dsimp only
  repeat' (first
    | with_reducible assumption
    | with_reducible apply State.setPeer_keeps (hm := Mask.le hm rfl)
    | with_reducible apply State.reportLatest_keeps (hm := Mask.le hm rfl)
    | (intro x; intros; try dsimp only)
    | dsimp only
    | split)

theorem State.placeOp_keeps {m : Nat} {s0 s : State} (v : OpRec) (h : Keeps m s0 s)
    (hm : 4128 &&& m = 4128 := by exact Mask.le (by assumption) rfl) :
    Keeps m s0 (State.placeOp s v) := by
  unfold State.placeOp
  try dsimp only
  repeat' (first
    | with_reducible assumption
    | with_reducible apply State.takePlace_keeps (hm := Mask.le hm rfl)
    | exact fun (hb : Nat.testBit _ _ = _) => (Mask.off hm hb rfl).elim
    | with_reducible exact fun _ => rfl
    | (intro x; intros; try dsimp only)
    | dsimp only
    | split
    | refine Keeps.snd (by assumption) ?_
    | with_reducible apply Keeps.upd)

theorem State.setOp_keeps {m : Nat} {s0 s : State} (v : OpRec) (h : Keeps m s0 s)
    (hm : 4128 &&& m = 4128 := by exact Mask.le (by assumption) rfl) :
    Keeps m s0 (State.setOp s v) := by
  unfold State.setOp
  try dsimp only
  repeat' (first
    | with_reducible assumption
    | with_reducible apply State.placeOp_keeps (hm := Mask.le hm rfl)
    | exact fun (hb : Nat.testBit _ _ = _) => (Mask.off hm hb rfl).elim
    | with_reducible exact fun _ => rfl
    | (intro x; intros; try dsimp only)
    | dsimp only
    | split
    | with_reducible apply Keeps.upd)

theorem State.putOp_keeps {m : Nat} {s0 s : State} (v : OpRec) (h : Keeps m s0 s)
    (hm : 12320 &&& m = 12320 := by exact Mask.le (by assumption) rfl) :
    Keeps m s0 (State.putOp s v) := by
  unfold State.putOp
  try dsimp only
  repeat' (first
    | with_reducible assumption
    | with_reducible apply State.report_keeps (hm := Mask.le hm rfl)
    | with_reducible apply State.setOp_keeps (hm := Mask.le hm rfl)
    | (intro x; intros; try dsimp only)
    | dsimp only
    | split)

theorem State.unpinOp_keeps {m : Nat} {s0 s : State} (v : OpRec) (h : Keeps m s0 s)
    (hm : 1024 &&& m = 1024 := by exact Mask.le (by assumption) rfl) :
    Keeps m s0 (State.unpinOp s v) := by
  unfold State.unpinOp
  try dsimp only
  repeat' (first
    | with_reducible assumption
    | with_reducible apply State.unpin_keeps (hm := Mask.le hm rfl)
    | (intro x; intros; try dsimp only)
    | dsimp only
    | split)

theorem State.abandonOp_keeps {m : Nat} {s0 s : State} (v : OpRec) (h : Keeps m s0 s)
    (hm : 13344 &&& m = 13344 := by exact Mask.le (by assumption) rfl) :
    Keeps m s0 (State.abandonOp s v) := by
  unfold State.abandonOp
  try dsimp only
  repeat' (first
    | with_reducible assumption
    | with_reducible apply State.putOp_keeps (hm := Mask.le hm rfl)
    | with_reducible apply State.unpinOp_keeps (hm := Mask.le hm rfl)
    | (intro x; intros; try dsimp only)
    | dsimp only
    | split)

theorem State.removeOp_keeps {m : Nat} {s0 s : State} (v : OpRec) (h : Keeps m s0 s)
    (hm : 13312 &&& m = 13312 := by exact Mask.le (by assumption) rfl) :
    Keeps m s0 (State.removeOp s v) := by
  unfold State.removeOp
  try dsimp only
  repeat' (first
    | with_reducible assumption
    | with_reducible apply State.report_keeps (hm := Mask.le hm rfl)
    | with_reducible apply State.unpinOp_keeps (hm := Mask.le hm rfl)
    | exact fun (hb : Nat.testBit _ _ = _) => (Mask.off hm hb rfl).elim
    | with_reducible exact fun _ => rfl
    | (intro x; intros; try dsimp only)
    | dsimp only
    | split
    | with_reducible apply Keeps.upd)

theorem State.retireOps_keeps {m : Nat} {s0 s : State} (c : Nat) (remote : Nat) (lo : Nat) (hi : Nat) (h : Keeps m s0 s)
    (hm : 13312 &&& m = 13312 := by exact Mask.le (by assumption) rfl) :
    Keeps m s0 (State.retireOps s c remote lo hi) := by
  unfold State.retireOps
  try dsimp only
  repeat' (first
    | with_reducible assumption
    | with_reducible apply State.removeOp_keeps (hm := Mask.le hm rfl)
    | with_reducible apply Keeps.foldl
    | with_reducible apply Keeps.foldlSnd
    | with_reducible apply Keeps.foldlFst
    | (intro x; intros; try dsimp only)
    | dsimp only
    | split)

theorem State.countDup_keeps {m : Nat} {s0 s : State} (src : Nat) (h : Keeps m s0 s)
    (hm : 1155212 &&& m = 1155212 := by exact Mask.le (by assumption) rfl) :
    Keeps m s0 (State.countDup s src) := by
  unfold State.countDup
  try dsimp only
  repeat' (first
    | with_reducible assumption
    | with_reducible apply State.pmcEv_keeps (hm := Mask.le hm rfl)
    | with_reducible apply State.fault_keeps (hm := Mask.le hm rfl)
    | with_reducible apply State.bump_keeps (hm := Mask.le hm rfl)
    | (intro x; intros; try dsimp only)
    | dsimp only
    | split)

theorem State.takeFloor_keeps {m : Nat} {s0 s : State} (c : Nat) (src : Nat) (floor : Nat) (h : Keeps m s0 s)
    (hm : 13344 &&& m = 13344 := by exact Mask.le (by assumption) rfl) :
    Keeps m s0 (State.takeFloor s c src floor) := by
  unfold State.takeFloor
  try dsimp only
  repeat' (first
    | with_reducible assumption
    | with_reducible apply State.putFloor_keeps (hm := Mask.le hm rfl)
    | with_reducible apply State.retireOps_keeps (hm := Mask.le hm rfl)
    | (intro x; intros; try dsimp only)
    | dsimp only
    | split)

theorem State.classify_keeps {m : Nat} {s0 s : State} (p : Packet) (h : Keeps m s0 s)
    (hm : 1160364 &&& m = 1160364 := by exact Mask.le (by assumption) rfl) :
    Keeps m s0 (State.classify s p).2 := by
  unfold State.classify
  try dsimp only
  repeat' (first
    | with_reducible assumption
    | with_reducible apply State.takeFloor_keeps (hm := Mask.le hm rfl)
    | with_reducible apply State.countDup_keeps (hm := Mask.le hm rfl)
    | (intro x; intros; try dsimp only)
    | dsimp only
    | split)

theorem State.dropQuarantined_keeps {m : Nat} {s0 s : State}  (h : Keeps m s0 s)
    (hm : 4 &&& m = 4 := by exact Mask.le (by assumption) rfl) :
    Keeps m s0 (State.dropQuarantined s) := by
  unfold State.dropQuarantined
  try dsimp only
  repeat' (first
    | with_reducible assumption
    | with_reducible apply State.bump_keeps (hm := Mask.le hm rfl)
    | (intro x; intros; try dsimp only)
    | dsimp only
    | split)

theorem State.takeDelivered_keeps {m : Nat} {s0 s : State} (p : Packet) (h : Keeps m s0 s)
    (hm : 65552 &&& m = 65552 := by exact Mask.le (by assumption) rfl) :
    Keeps m s0 (State.takeDelivered s p) := by
  unfold State.takeDelivered
  try dsimp only
  repeat' (first
    | with_reducible assumption
    | with_reducible apply State.stampPkt_keeps (hm := Mask.le hm rfl)
    | exact fun (hb : Nat.testBit _ _ = _) => (Mask.off hm hb rfl).elim
    | with_reducible exact fun _ => rfl
    | (intro x; intros; try dsimp only)
    | dsimp only
    | split
    | with_reducible apply Keeps.upd)

theorem State.endDelivered_keeps {m : Nat} {s0 s : State} (p : Packet) (answered : Bool) (h : Keeps m s0 s)
    (hm : 65536 &&& m = 65536 := by exact Mask.le (by assumption) rfl) :
    Keeps m s0 (State.endDelivered s p answered) := by
  unfold State.endDelivered
  try dsimp only
  repeat' (first
    | with_reducible assumption
    | with_reducible apply State.endPkt_keeps (hm := Mask.le hm rfl)
    | (intro x; intros; try dsimp only)
    | dsimp only
    | split)

end Sys2Proof.Machine
end

