-- ==== Sys2Proof/Laws/KeepMat.lean ====
section
/-!
SUPPORT. What MAT keep.
-/
set_option Elab.async false
set_option linter.unusedTactic false
set_option linter.unreachableTactic false
set_option linter.unusedVariables false
namespace Sys2Proof.Machine

theorem State.matProbes_keeps {m : Nat} {s0 s : State} (c : Nat) (keys : List (List Byte)) (h : Keeps m s0 s)
    (hm : 67584 &&& m = 67584 := by exact Mask.le (by assumption) rfl) :
    Keeps m s0 (State.matProbes s c keys) := by
  unfold State.matProbes
  try dsimp only
  repeat' (first
    | with_reducible assumption
    | with_reducible apply State.pmcEv_keeps (hm := Mask.le hm rfl)
    | with_reducible apply Keeps.foldl
    | with_reducible apply Keeps.foldlSnd
    | with_reducible apply Keeps.foldlFst
    | exact fun (hb : Nat.testBit _ _ = _) => (Mask.off hm hb rfl).elim
    | with_reducible exact fun _ => rfl
    | (intro x; intros; try dsimp only)
    | dsimp only
    | split
    | with_reducible apply Keeps.upd)

theorem State.matPlace_keeps {m : Nat} {s0 s : State} (key : List Byte) (ovf : Bool) (h : Keeps m s0 s)
    (hm : 32 &&& m = 32 := by exact Mask.le (by assumption) rfl) :
    Keeps m s0 (State.matPlace s key ovf).2 := by
  unfold State.matPlace
  try dsimp only
  repeat' (first
    | with_reducible assumption
    | with_reducible apply State.takePlace_keeps (hm := Mask.le hm rfl)
    | (intro x; intros; try dsimp only)
    | dsimp only
    | split
    | refine Keeps.snd (by assumption) ?_)

theorem State.matAt_keeps {m : Nat} {s0 s : State} (e : MatEntry) (slot : Nat) (ovf : Bool) (h : Keeps m s0 s)
    (hm : 10240 &&& m = 10240 := by exact Mask.le (by assumption) rfl) :
    Keeps m s0 (State.matAt s e slot ovf) := by
  unfold State.matAt
  try dsimp only
  repeat' (first
    | with_reducible assumption
    | with_reducible apply State.report_keeps (hm := Mask.le hm rfl)
    | exact fun (hb : Nat.testBit _ _ = _) => (Mask.off hm hb rfl).elim
    | with_reducible exact fun _ => rfl
    | (intro x; intros; try dsimp only)
    | dsimp only
    | split
    | with_reducible apply Keeps.upd)

theorem State.matStore_keeps {m : Nat} {s0 s : State} (e : MatEntry) (ovf : Bool) (h : Keeps m s0 s)
    (hm : 1288364 &&& m = 1288364 := by exact Mask.le (by assumption) rfl) :
    Keeps m s0 (State.matStore s e ovf) := by
  unfold State.matStore
  try dsimp only
  repeat' (first
    | with_reducible assumption
    | with_reducible apply State.matPlace_keeps (hm := Mask.le hm rfl)
    | with_reducible apply State.fwPush_keeps (hm := Mask.le hm rfl)
    | with_reducible apply State.pmcEv_keeps (hm := Mask.le hm rfl)
    | with_reducible apply State.fault_keeps (hm := Mask.le hm rfl)
    | with_reducible apply State.matAt_keeps (hm := Mask.le hm rfl)
    | (intro x; intros; try dsimp only)
    | dsimp only
    | split
    | refine Keeps.snd (by assumption) ?_)

theorem State.matInsert_keeps {m : Nat} {s0 s : State} (e : MatEntry) (h : Keeps m s0 s)
    (hm : 1288364 &&& m = 1288364 := by exact Mask.le (by assumption) rfl) :
    OptKeeps m s0 (State.matInsert s e) := by
  unfold State.matInsert
  try dsimp only
  repeat' (first
    | with_reducible assumption
    | with_reducible apply State.matStore_keeps (hm := Mask.le hm rfl)
    | with_reducible exact OptKeeps.none
    | with_reducible apply OptKeeps.some
    | (intro x; intros; try dsimp only)
    | dsimp only
    | split)

theorem State.matSet_keeps {m : Nat} {s0 s : State} (i : Nat) (e : MatEntry) (h : Keeps m s0 s)
    (hm : 2048 &&& m = 2048 := by exact Mask.le (by assumption) rfl) :
    Keeps m s0 (State.matSet s i e) := by
  unfold State.matSet
  try dsimp only
  repeat' (first
    | with_reducible assumption
    | exact fun (hb : Nat.testBit _ _ = _) => (Mask.off hm hb rfl).elim
    | with_reducible exact fun _ => rfl
    | (intro x; intros; try dsimp only)
    | dsimp only
    | split
    | with_reducible apply Keeps.upd)

theorem State.placeFreed_keeps {m : Nat} {s0 s : State} (slot : Nat) (h : Keeps m s0 s)
    (hm : 2048 &&& m = 2048 := by exact Mask.le (by assumption) rfl) :
    Keeps m s0 (State.placeFreed s slot) := by
  unfold State.placeFreed
  try dsimp only
  repeat' (first
    | with_reducible assumption
    | with_reducible apply State.matSet_keeps (hm := Mask.le hm rfl)
    | (intro x; intros; try dsimp only)
    | dsimp only
    | split)

theorem State.matRemove_keeps {m : Nat} {s0 s : State} (i : Nat) (e : MatEntry) (h : Keeps m s0 s)
    (hm : 10240 &&& m = 10240 := by exact Mask.le (by assumption) rfl) :
    Keeps m s0 (State.matRemove s i e) := by
  unfold State.matRemove
  try dsimp only
  repeat' (first
    | with_reducible assumption
    | with_reducible apply State.report_keeps (hm := Mask.le hm rfl)
    | with_reducible apply State.placeFreed_keeps (hm := Mask.le hm rfl)
    | with_reducible apply State.matSet_keeps (hm := Mask.le hm rfl)
    | with_reducible apply OptKeeps.mapState
    | with_reducible apply OptKeeps.map
    | exact fun (hb : Nat.testBit _ _ = _) => (Mask.off hm hb rfl).elim
    | with_reducible exact fun _ => rfl
    | (intro x; intros; try dsimp only)
    | dsimp only
    | split
    | with_reducible apply Keeps.upd)

theorem State.sumpTake_keeps {m : Nat} {s0 s : State} (z1 : MatEntry) (h : Keeps m s0 s)
    (hm : 4 &&& m = 4 := by exact Mask.le (by assumption) rfl) :
    Keeps m s0 (State.sumpTake s z1).2 := by
  unfold State.sumpTake
  try dsimp only
  repeat' (first
    | with_reducible assumption
    | with_reducible apply State.bump_keeps (hm := Mask.le hm rfl)
    | (intro x; intros; try dsimp only)
    | dsimp only
    | split)

theorem State.matAnswer_keeps {m : Nat} {s0 s : State} (c : Nat) (dst : Nat) (cls : Nat) (osn : Nat) (fdelta : Nat) (mop : Nat) (handle : Nat) (aux : Nat) (bs : List Byte) (h : Keeps m s0 s)
    (hm : 10551316 &&& m = 10551316 := by exact Mask.le (by assumption) rfl) :
    Keeps m s0 (State.matAnswer s c dst cls osn fdelta mop handle aux bs) := by
  unfold State.matAnswer
  try dsimp only
  repeat' (first
    | with_reducible assumption
    | with_reducible apply State.present_keeps (hm := Mask.le hm rfl)
    | (intro x; intros; try dsimp only)
    | dsimp only
    | split)

theorem State.reportPlaced_keeps {m : Nat} {s0 s : State} (c : Nat) (src : Nat) (cls : Nat) (osn : Nat) (handle : Nat) (off : Nat) (h : Keeps m s0 s)
    (hm : 10551316 &&& m = 10551316 := by exact Mask.le (by assumption) rfl) :
    Keeps m s0 (State.reportPlaced s c src cls osn handle off) := by
  unfold State.reportPlaced
  try dsimp only
  repeat' (first
    | with_reducible assumption
    | with_reducible apply State.matAnswer_keeps (hm := Mask.le hm rfl)
    | (intro x; intros; try dsimp only)
    | dsimp only
    | split)

theorem State.matRefuse_keeps {m : Nat} {s0 s : State} (p : Packet) (st : Nat) (dt : Nat) (busy : Bool) (h : Keeps m s0 s)
    (hm : 10551316 &&& m = 10551316 := by exact Mask.le (by assumption) rfl) :
    Keeps m s0 (State.matRefuse s p st dt busy) := by
  unfold State.matRefuse
  try dsimp only
  repeat' (first
    | with_reducible assumption
    | with_reducible apply State.matAnswer_keeps (hm := Mask.le hm rfl)
    | (intro x; intros; try dsimp only)
    | dsimp only
    | split)

theorem State.matBusy_keeps {m : Nat} {s0 s : State} (p : Packet) (h : Keeps m s0 s)
    (hm : 11640988 &&& m = 11640988 := by exact Mask.le (by assumption) rfl) :
    Keeps m s0 (State.matBusy s p) := by
  unfold State.matBusy
  try dsimp only
  repeat' (first
    | with_reducible assumption
    | with_reducible apply State.fault_keeps (hm := Mask.le hm rfl)
    | with_reducible apply State.setFlag_keeps (hm := Mask.le hm rfl)
    | with_reducible apply State.bump_keeps (hm := Mask.le hm rfl)
    | with_reducible apply State.matRefuse_keeps (hm := Mask.le hm rfl)
    | (intro x; intros; try dsimp only)
    | dsimp only
    | split)

theorem State.setBound_keeps {m : Nat} {s0 s : State} (v : Bound) (h : Keeps m s0 s)
    (hm : 2048 &&& m = 2048 := by exact Mask.le (by assumption) rfl) :
    Keeps m s0 (State.setBound s v) := by
  unfold State.setBound
  try dsimp only
  repeat' (first
    | with_reducible assumption
    | exact fun (hb : Nat.testBit _ _ = _) => (Mask.off hm hb rfl).elim
    | with_reducible exact fun _ => rfl
    | (intro x; intros; try dsimp only)
    | dsimp only
    | split
    | with_reducible apply Keeps.upd)

theorem State.placeAt_keeps {m : Nat} {s0 s : State} (b : Bound) (off : Nat) (bs : List Byte) (h : Keeps m s0 s)
    (hm : 202747020 &&& m = 202747020 := by exact Mask.le (by assumption) rfl) :
    Keeps m s0 (State.placeAt s b off bs) := by
  unfold State.placeAt
  try dsimp only
  repeat' (first
    | with_reducible assumption
    | with_reducible apply State.xltUse_keeps (hm := Mask.le hm rfl)
    | with_reducible apply State.writeEach_keeps (hm := Mask.le hm rfl)
    | with_reducible apply State.setBound_keeps (hm := Mask.le hm rfl)
    | (intro x; intros; try dsimp only)
    | dsimp only
    | split)

theorem State.finishNotice_keeps {m : Nat} {s0 s : State} (b : Bound) (h : Keeps m s0 s)
    (hm : 10551316 &&& m = 10551316 := by exact Mask.le (by assumption) rfl) :
    Keeps m s0 (State.finishNotice s b) := by
  unfold State.finishNotice
  try dsimp only
  repeat' (first
    | with_reducible assumption
    | with_reducible apply State.matAnswer_keeps (hm := Mask.le hm rfl)
    | (intro x; intros; try dsimp only)
    | dsimp only
    | split)

theorem State.boundDone_keeps {m : Nat} {s0 s : State} (b : Bound) (status : Nat) (detail : Nat) (bytes : Nat) (h : Keeps m s0 s)
    (hm : 211852 &&& m = 211852 := by exact Mask.le (by assumption) rfl) :
    Keeps m s0 (State.boundDone s b status detail bytes) := by
  unfold State.boundDone
  try dsimp only
  repeat' (first
    | with_reducible assumption
    | with_reducible apply State.complete_keeps (hm := Mask.le hm rfl)
    | with_reducible apply State.setBound_keeps (hm := Mask.le hm rfl)
    | (intro x; intros; try dsimp only)
    | dsimp only
    | split)

theorem State.boundEnd_keeps {m : Nat} {s0 s : State} (c : Nat) (src : Nat) (msn : Nat) (h : Keeps m s0 s)
    (hm : 10697628 &&& m = 10697628 := by exact Mask.le (by assumption) rfl) :
    Keeps m s0 (State.boundEnd s c src msn) := by
  unfold State.boundEnd
  try dsimp only
  repeat' (first
    | with_reducible assumption
    | with_reducible apply State.finishNotice_keeps (hm := Mask.le hm rfl)
    | with_reducible apply State.boundDone_keeps (hm := Mask.le hm rfl)
    | (intro x; intros; try dsimp only)
    | dsimp only
    | split)

theorem State.pullSend_keeps {m : Nat} {s0 s : State} (b : Bound) (h : Keeps m s0 s)
    (hm : 10553364 &&& m = 10553364 := by exact Mask.le (by assumption) rfl) :
    Keeps m s0 (State.pullSend s b) := by
  unfold State.pullSend
  try dsimp only
  repeat' (first
    | with_reducible assumption
    | with_reducible apply State.setBound_keeps (hm := Mask.le hm rfl)
    | with_reducible apply State.matAnswer_keeps (hm := Mask.le hm rfl)
    | with_reducible apply Keeps.foldl
    | with_reducible apply Keeps.foldlSnd
    | with_reducible apply Keeps.foldlFst
    | with_reducible apply Keeps.getD
    | (intro x; intros; try dsimp only)
    | dsimp only
    | split)

theorem State.copySump_keeps {m : Nat} {s0 s : State} (c : Nat) (src : Nat) (msn : Nat) (h : Keeps m s0 s)
    (hm : 213368732 &&& m = 213368732 := by exact Mask.le (by assumption) rfl) :
    Keeps m s0 (State.copySump s c src msn) := by
  unfold State.copySump
  try dsimp only
  repeat' (first
    | with_reducible assumption
    | with_reducible apply State.placeAt_keeps (hm := Mask.le hm rfl)
    | with_reducible apply State.reportPlaced_keeps (hm := Mask.le hm rfl)
    | with_reducible apply State.boundEnd_keeps (hm := Mask.le hm rfl)
    | with_reducible apply Keeps.foldl
    | with_reducible apply Keeps.foldlSnd
    | with_reducible apply Keeps.foldlFst
    | with_reducible apply Keeps.getD
    | with_reducible apply OptKeeps.mapState
    | with_reducible apply OptKeeps.map
    | (intro x; intros; try dsimp only)
    | dsimp only
    | split)

theorem State.bindMsg_keeps {m : Nat} {s0 s : State} (z1 : MatEntry) (r : MatEntry) (h : Keeps m s0 s)
    (hm : 213368732 &&& m = 213368732 := by exact Mask.le (by assumption) rfl) :
    Keeps m s0 (State.bindMsg s z1 r) := by
  unfold State.bindMsg
  try dsimp only
  repeat' (first
    | with_reducible assumption
    | with_reducible apply State.report_keeps (hm := Mask.le hm rfl)
    | with_reducible apply State.pullSend_keeps (hm := Mask.le hm rfl)
    | with_reducible apply State.boundEnd_keeps (hm := Mask.le hm rfl)
    | with_reducible apply State.copySump_keeps (hm := Mask.le hm rfl)
    | exact fun (hb : Nat.testBit _ _ = _) => (Mask.off hm hb rfl).elim
    | with_reducible exact fun _ => rfl
    | (intro x; intros; try dsimp only)
    | dsimp only
    | split
    | with_reducible apply Keeps.upd)

theorem State.wcAdd_keeps {m : Nat} {s0 s : State} (c : Nat) (k : Nat) (up : Bool) (h : Keeps m s0 s)
    (hm : 256 &&& m = 256 := by exact Mask.le (by assumption) rfl) :
    Keeps m s0 (State.wcAdd s c k up) := by
  unfold State.wcAdd
  try dsimp only
  repeat' (first
    | with_reducible assumption
    | with_reducible apply State.setCtx_keeps (hm := Mask.le hm rfl)
    | (intro x; intros; try dsimp only)
    | dsimp only
    | split)

theorem State.reportCtx_keeps {m : Nat} {s0 s : State} (c : Nat) (h : Keeps m s0 s)
    (hm : 8192 &&& m = 8192 := by exact Mask.le (by assumption) rfl) :
    Keeps m s0 (State.reportCtx s c) := by
  unfold State.reportCtx
  try dsimp only
  repeat' (first
    | with_reducible assumption
    | with_reducible apply State.report_keeps (hm := Mask.le hm rfl)
    | (intro x; intros; try dsimp only)
    | dsimp only
    | split)

theorem State.presentProbe_keeps {m : Nat} {s0 s : State} (z1 : MatEntry) (h : Keeps m s0 s)
    (hm : 67584 &&& m = 67584 := by exact Mask.le (by assumption) rfl) :
    Keeps m s0 (State.presentProbe s z1) := by
  unfold State.presentProbe
  try dsimp only
  repeat' (first
    | with_reducible assumption
    | with_reducible apply State.matProbes_keeps (hm := Mask.le hm rfl)
    | (intro x; intros; try dsimp only)
    | dsimp only
    | split)

theorem State.unexpected_keeps {m : Nat} {s0 s : State} (z1 : MatEntry) (h : Keeps m s0 s)
    (hm : 65792 &&& m = 65792 := by exact Mask.le (by assumption) rfl) :
    Keeps m s0 (State.unexpected s z1).2 := by
  unfold State.unexpected
  try dsimp only
  repeat' (first
    | with_reducible assumption
    | with_reducible apply State.pmcEv_keeps (hm := Mask.le hm rfl)
    | with_reducible apply State.setCtx_keeps (hm := Mask.le hm rfl)
    | (intro x; intros; try dsimp only)
    | dsimp only
    | split)

theorem State.presentMsg_keeps {m : Nat} {s0 s : State} (z1 : MatEntry) (h : Keeps m s0 s)
    (hm : 213368764 &&& m = 213368764 := by exact Mask.le (by assumption) rfl) :
    OptKeeps m s0 (State.presentMsg s z1) := by
  unfold State.presentMsg
  try dsimp only
  repeat' (first
    | with_reducible assumption
    | with_reducible apply State.presentProbe_keeps (hm := Mask.le hm rfl)
    | with_reducible apply State.bindMsg_keeps (hm := Mask.le hm rfl)
    | with_reducible apply State.wcAdd_keeps (hm := Mask.le hm rfl)
    | with_reducible apply State.matRemove_keeps (hm := Mask.le hm rfl)
    | with_reducible apply State.unexpected_keeps (hm := Mask.le hm rfl)
    | with_reducible apply State.reportCtx_keeps (hm := Mask.le hm rfl)
    | with_reducible apply State.matInsert_keeps (hm := Mask.le hm rfl)
    | with_reducible apply OptKeeps.mapState
    | with_reducible apply OptKeeps.map
    | with_reducible exact OptKeeps.none
    | with_reducible apply OptKeeps.some
    | (intro x; intros; try dsimp only)
    | dsimp only
    | split
    | refine Keeps.snd (by assumption) ?_
    | refine OptKeeps.get (by assumption) ?_)

theorem State.presentEarly_keeps {m : Nat} {s0 s : State} (i : Nat) (z2 : MatEntry) (h : Keeps m s0 s)
    (hm : 213368732 &&& m = 213368732 := by exact Mask.le (by assumption) rfl) :
    Keeps m s0 (State.presentEarly s i z2) := by
  unfold State.presentEarly
  try dsimp only
  repeat' (first
    | with_reducible assumption
    | with_reducible apply State.presentProbe_keeps (hm := Mask.le hm rfl)
    | with_reducible apply State.bindMsg_keeps (hm := Mask.le hm rfl)
    | with_reducible apply State.wcAdd_keeps (hm := Mask.le hm rfl)
    | with_reducible apply State.matRemove_keeps (hm := Mask.le hm rfl)
    | with_reducible apply State.unexpected_keeps (hm := Mask.le hm rfl)
    | with_reducible apply State.reportCtx_keeps (hm := Mask.le hm rfl)
    | with_reducible apply State.matAt_keeps (hm := Mask.le hm rfl)
    | exact fun (hb : Nat.testBit _ _ = _) => (Mask.off hm hb rfl).elim
    | with_reducible exact fun _ => rfl
    | (intro x; intros; try dsimp only)
    | dsimp only
    | split
    | refine Keeps.snd (by assumption) ?_
    | with_reducible apply Keeps.upd)

theorem State.advanceMsn_keeps {m : Nat} {s0 s : State} (c : Nat) (src : Nat) (h : Keeps m s0 s)
    (hm : 12320 &&& m = 12320 := by exact Mask.le (by assumption) rfl) :
    Keeps m s0 (State.advanceMsn s c src) := by
  unfold State.advanceMsn
  try dsimp only
  repeat' (first
    | with_reducible assumption
    | with_reducible apply State.putPeer_keeps (hm := Mask.le hm rfl)
    | (intro x; intros; try dsimp only)
    | dsimp only
    | split)

theorem State.earlyAdd_keeps {m : Nat} {s0 s : State} (c : Nat) (src : Nat) (up : Bool) (h : Keeps m s0 s)
    (hm : 4128 &&& m = 4128 := by exact Mask.le (by assumption) rfl) :
    Keeps m s0 (State.earlyAdd s c src up) := by
  unfold State.earlyAdd
  try dsimp only
  repeat' (first
    | with_reducible assumption
    | with_reducible apply State.setPeer_keeps (hm := Mask.le hm rfl)
    | (intro x; intros; try dsimp only)
    | dsimp only
    | split)

theorem State.eventFirst_keeps {m : Nat} {s0 s : State} (e : MatEvent) (c : Nat) (h : Keeps m s0 s)
    (hm : 67584 &&& m = 67584 := by exact Mask.le (by assumption) rfl) :
    Keeps m s0 (State.eventFirst s e c) := by
  unfold State.eventFirst
  try dsimp only
  repeat' (first
    | with_reducible assumption
    | with_reducible apply State.pmcEv_keeps (hm := Mask.le hm rfl)
    | exact fun (hb : Nat.testBit _ _ = _) => (Mask.off hm hb rfl).elim
    | with_reducible exact fun _ => rfl
    | (intro x; intros; try dsimp only)
    | dsimp only
    | split
    | with_reducible apply Keeps.upd)

theorem State.resolveOne_keeps {m : Nat} {s0 s : State} (c : Nat) (src : Nat) (found : Bool) (h : Keeps m s0 s)
    (hm : 213368764 &&& m = 213368764 := by exact Mask.le (by assumption) rfl) :
    Keeps m s0 (State.resolveOne s c src found).1 := by
  unfold State.resolveOne
  try dsimp only
  repeat' (first
    | with_reducible assumption
    | with_reducible apply State.advanceMsn_keeps (hm := Mask.le hm rfl)
    | with_reducible apply State.earlyAdd_keeps (hm := Mask.le hm rfl)
    | with_reducible apply State.matRemove_keeps (hm := Mask.le hm rfl)
    | with_reducible apply State.eventFirst_keeps (hm := Mask.le hm rfl)
    | with_reducible apply State.presentEarly_keeps (hm := Mask.le hm rfl)
    | (intro x; intros; try dsimp only)
    | dsimp only
    | split)

theorem State.resolveEarly_keeps {m : Nat} {s0 s : State} (c : Nat) (src : Nat) (a : Nat) (h : Keeps m s0 s)
    (hm : 213368764 &&& m = 213368764 := by exact Mask.le (by assumption) rfl) :
    Keeps m s0 (State.resolveEarly s c src a) := by
  induction a generalizing s with
  | zero =>
    try unfold State.resolveEarly
    try dsimp only
    repeat' (first
      | with_reducible assumption
      | with_reducible apply State.matProbes_keeps (hm := Mask.le hm rfl)
      | with_reducible apply State.eventFirst_keeps (hm := Mask.le hm rfl)
      | with_reducible apply State.resolveOne_keeps (hm := Mask.le hm rfl)
      | (intro x; intros; try dsimp only)
      | dsimp only
      | split
      | refine Keeps.fst (by assumption) ?_)
  | succ n ih =>
    try unfold State.resolveEarly
    try dsimp only
    repeat' (first
      | with_reducible apply ih
      | with_reducible assumption
      | with_reducible apply State.matProbes_keeps (hm := Mask.le hm rfl)
      | with_reducible apply State.eventFirst_keeps (hm := Mask.le hm rfl)
      | with_reducible apply State.resolveOne_keeps (hm := Mask.le hm rfl)
      | (intro x; intros; try dsimp only)
      | dsimp only
      | split
      | refine Keeps.fst (by assumption) ?_)

theorem State.advanceAll_keeps {m : Nat} {s0 s : State} (c : Nat) (src : Nat) (h : Keeps m s0 s)
    (hm : 213368764 &&& m = 213368764 := by exact Mask.le (by assumption) rfl) :
    Keeps m s0 (State.advanceAll s c src) := by
  unfold State.advanceAll
  try dsimp only
  repeat' (first
    | with_reducible assumption
    | with_reducible apply State.resolveEarly_keeps (hm := Mask.le hm rfl)
    | with_reducible apply State.advanceMsn_keeps (hm := Mask.le hm rfl)
    | (intro x; intros; try dsimp only)
    | dsimp only
    | split)

theorem State.postRecv_keeps {m : Nat} {s0 s : State} (z1 : Handle) (h : Keeps m s0 s)
    (hm : 213368764 &&& m = 213368764 := by exact Mask.le (by assumption) rfl) :
    OptKeeps m s0 (State.postRecv s z1) := by
  unfold State.postRecv
  try dsimp only
  repeat' (first
    | with_reducible assumption
    | with_reducible apply State.matProbes_keeps (hm := Mask.le hm rfl)
    | with_reducible apply State.bindMsg_keeps (hm := Mask.le hm rfl)
    | with_reducible apply State.matRemove_keeps (hm := Mask.le hm rfl)
    | with_reducible apply State.matInsert_keeps (hm := Mask.le hm rfl)
    | with_reducible apply State.reportCtx_keeps (hm := Mask.le hm rfl)
    | with_reducible apply State.wcAdd_keeps (hm := Mask.le hm rfl)
    | with_reducible apply State.setCtx_keeps (hm := Mask.le hm rfl)
    | with_reducible exact OptKeeps.none
    | with_reducible apply OptKeeps.some
    | (intro x; intros; try dsimp only)
    | dsimp only
    | split
    | refine OptKeeps.get (by assumption) ?_)

theorem State.recvWait_keeps {m : Nat} {s0 s : State} (z1 : HandleRef) (h : Keeps m s0 s)
    (hm : 2304 &&& m = 2304 := by exact Mask.le (by assumption) rfl) :
    Keeps m s0 (State.recvWait s z1) := by
  unfold State.recvWait
  try dsimp only
  repeat' (first
    | with_reducible assumption
    | with_reducible apply State.setCtx_keeps (hm := Mask.le hm rfl)
    | exact fun (hb : Nat.testBit _ _ = _) => (Mask.off hm hb rfl).elim
    | with_reducible exact fun _ => rfl
    | (intro x; intros; try dsimp only)
    | dsimp only
    | split
    | with_reducible apply Keeps.upd)

theorem State.recvUnwait_keeps {m : Nat} {s0 s : State} (z1 : HandleRef) (h : Keeps m s0 s)
    (hm : 2304 &&& m = 2304 := by exact Mask.le (by assumption) rfl) :
    Keeps m s0 (State.recvUnwait s z1) := by
  unfold State.recvUnwait
  try dsimp only
  repeat' (first
    | with_reducible assumption
    | with_reducible apply State.setCtx_keeps (hm := Mask.le hm rfl)
    | exact fun (hb : Nat.testBit _ _ = _) => (Mask.off hm hb rfl).elim
    | with_reducible exact fun _ => rfl
    | (intro x; intros; try dsimp only)
    | dsimp only
    | split
    | with_reducible apply Keeps.upd)

theorem State.postEvent_keeps {m : Nat} {s0 s : State} (hr : HandleRef) (h : Keeps m s0 s)
    (hm : 213368764 &&& m = 213368764 := by exact Mask.le (by assumption) rfl) :
    Keeps m s0 (State.postEvent s hr) := by
  unfold State.postEvent
  try dsimp only
  repeat' (first
    | with_reducible assumption
    | with_reducible apply State.recvWait_keeps (hm := Mask.le hm rfl)
    | with_reducible apply State.postRecv_keeps (hm := Mask.le hm rfl)
    | (intro x; intros; try dsimp only)
    | dsimp only
    | split
    | refine OptKeeps.get (by assumption) ?_)

theorem State.cancelPosted_keeps {m : Nat} {s0 s : State} (i : Nat) (r : MatEntry) (h : Keeps m s0 s)
    (hm : 211852 &&& m = 211852 := by exact Mask.le (by assumption) rfl) :
    Keeps m s0 (State.cancelPosted s i r) := by
  unfold State.cancelPosted
  try dsimp only
  repeat' (first
    | with_reducible assumption
    | with_reducible apply State.finish_keeps (hm := Mask.le hm rfl)
    | with_reducible apply State.wcAdd_keeps (hm := Mask.le hm rfl)
    | with_reducible apply State.matRemove_keeps (hm := Mask.le hm rfl)
    | (intro x; intros; try dsimp only)
    | dsimp only
    | split)

theorem State.cancelNow_keeps {m : Nat} {s0 s : State} (hr : HandleRef) (h : Keeps m s0 s)
    (hm : 211852 &&& m = 211852 := by exact Mask.le (by assumption) rfl) :
    Keeps m s0 (State.cancelNow s hr) := by
  unfold State.cancelNow
  try dsimp only
  repeat' (first
    | with_reducible assumption
    | with_reducible apply State.finish_keeps (hm := Mask.le hm rfl)
    | with_reducible apply State.recvUnwait_keeps (hm := Mask.le hm rfl)
    | with_reducible apply State.cancelPosted_keeps (hm := Mask.le hm rfl)
    | (intro x; intros; try dsimp only)
    | dsimp only
    | split)

theorem State.cancelEvent_keeps {m : Nat} {s0 s : State} (hr : HandleRef) (h : Keeps m s0 s)
    (hm : 211852 &&& m = 211852 := by exact Mask.le (by assumption) rfl) :
    Keeps m s0 (State.cancelEvent s hr) := by
  unfold State.cancelEvent
  try dsimp only
  repeat' (first
    | with_reducible assumption
    | with_reducible apply State.recvWait_keeps (hm := Mask.le hm rfl)
    | with_reducible apply State.cancelNow_keeps (hm := Mask.le hm rfl)
    | (intro x; intros; try dsimp only)
    | dsimp only
    | split)

theorem State.recvRelease_keeps {m : Nat} {s0 s : State} (c : Nat) (a : Nat) (h : Keeps m s0 s)
    (hm : 213368764 &&& m = 213368764 := by exact Mask.le (by assumption) rfl) :
    Keeps m s0 (State.recvRelease s c a) := by
  induction a generalizing s with
  | zero =>
    try unfold State.recvRelease
    try dsimp only
    repeat' (first
      | with_reducible assumption
      | with_reducible apply State.recvUnwait_keeps (hm := Mask.le hm rfl)
      | with_reducible apply State.cancelNow_keeps (hm := Mask.le hm rfl)
      | with_reducible apply State.postRecv_keeps (hm := Mask.le hm rfl)
      | (intro x; intros; try dsimp only)
      | dsimp only
      | split
      | refine OptKeeps.get (by assumption) ?_)
  | succ n ih =>
    try unfold State.recvRelease
    try dsimp only
    repeat' (first
      | with_reducible apply ih
      | with_reducible assumption
      | with_reducible apply State.recvUnwait_keeps (hm := Mask.le hm rfl)
      | with_reducible apply State.cancelNow_keeps (hm := Mask.le hm rfl)
      | with_reducible apply State.postRecv_keeps (hm := Mask.le hm rfl)
      | (intro x; intros; try dsimp only)
      | dsimp only
      | split
      | refine OptKeeps.get (by assumption) ?_)

theorem State.joinStored_keeps {m : Nat} {s0 s : State} (i : Nat) (e : MatEntry) (p : Packet) (h : Keeps m s0 s)
    (hm : 10553364 &&& m = 10553364 := by exact Mask.le (by assumption) rfl) :
    Keeps m s0 (State.joinStored s i e p) := by
  unfold State.joinStored
  try dsimp only
  repeat' (first
    | with_reducible assumption
    | with_reducible apply State.reportPlaced_keeps (hm := Mask.le hm rfl)
    | with_reducible apply State.matSet_keeps (hm := Mask.le hm rfl)
    | (intro x; intros; try dsimp only)
    | dsimp only
    | split)

theorem State.newMsg_keeps {m : Nat} {s0 s : State} (p : Packet) (h : Keeps m s0 s)
    (hm : 4 &&& m = 4 := by exact Mask.le (by assumption) rfl) :
    Keeps m s0 (State.newMsg s p).2 := by
  unfold State.newMsg
  try dsimp only
  repeat' (first
    | with_reducible assumption
    | with_reducible apply State.sumpTake_keeps (hm := Mask.le hm rfl)
    | (intro x; intros; try dsimp only)
    | dsimp only
    | split
    | refine Keeps.snd (by assumption) ?_)

theorem State.reportFirst_keeps {m : Nat} {s0 s : State} (z1 : MatEntry) (p : Packet) (h : Keeps m s0 s)
    (hm : 10551316 &&& m = 10551316 := by exact Mask.le (by assumption) rfl) :
    Keeps m s0 (State.reportFirst s z1 p) := by
  unfold State.reportFirst
  try dsimp only
  repeat' (first
    | with_reducible assumption
    | with_reducible apply State.reportPlaced_keeps (hm := Mask.le hm rfl)
    | (intro x; intros; try dsimp only)
    | dsimp only
    | split)

theorem State.presentPacket_keeps {m : Nat} {s0 s : State} (p : Packet) (h : Keeps m s0 s)
    (hm : 213368764 &&& m = 213368764 := by exact Mask.le (by assumption) rfl) :
    Keeps m s0 (State.presentPacket s p) := by
  unfold State.presentPacket
  try dsimp only
  repeat' (first
    | with_reducible assumption
    | with_reducible apply State.newMsg_keeps (hm := Mask.le hm rfl)
    | with_reducible apply State.presentMsg_keeps (hm := Mask.le hm rfl)
    | with_reducible apply State.matBusy_keeps (hm := Mask.le hm rfl)
    | with_reducible apply State.reportPlaced_keeps (hm := Mask.le hm rfl)
    | with_reducible apply State.reportFirst_keeps (hm := Mask.le hm rfl)
    | with_reducible apply State.advanceAll_keeps (hm := Mask.le hm rfl)
    | (intro x; intros; try dsimp only)
    | dsimp only
    | split
    | refine Keeps.snd (by assumption) ?_
    | refine OptKeeps.get (by assumption) ?_)

theorem State.earlyPacket_keeps {m : Nat} {s0 s : State} (p : Packet) (h : Keeps m s0 s)
    (hm : 11778236 &&& m = 11778236 := by exact Mask.le (by assumption) rfl) :
    Keeps m s0 (State.earlyPacket s p) := by
  unfold State.earlyPacket
  try dsimp only
  repeat' (first
    | with_reducible assumption
    | with_reducible apply State.joinStored_keeps (hm := Mask.le hm rfl)
    | with_reducible apply State.newMsg_keeps (hm := Mask.le hm rfl)
    | with_reducible apply State.matInsert_keeps (hm := Mask.le hm rfl)
    | with_reducible apply State.matBusy_keeps (hm := Mask.le hm rfl)
    | with_reducible apply State.reportFirst_keeps (hm := Mask.le hm rfl)
    | with_reducible apply State.earlyAdd_keeps (hm := Mask.le hm rfl)
    | (intro x; intros; try dsimp only)
    | dsimp only
    | split
    | refine Keeps.snd (by assumption) ?_
    | refine OptKeeps.get (by assumption) ?_)

theorem State.laterPacket_keeps {m : Nat} {s0 s : State} (p : Packet) (h : Keeps m s0 s)
    (hm : 213368732 &&& m = 213368732 := by exact Mask.le (by assumption) rfl) :
    Keeps m s0 (State.laterPacket s p) := by
  unfold State.laterPacket
  try dsimp only
  repeat' (first
    | with_reducible assumption
    | with_reducible apply State.finishNotice_keeps (hm := Mask.le hm rfl)
    | with_reducible apply State.setBound_keeps (hm := Mask.le hm rfl)
    | with_reducible apply State.reportPlaced_keeps (hm := Mask.le hm rfl)
    | with_reducible apply State.matBusy_keeps (hm := Mask.le hm rfl)
    | with_reducible apply State.placeAt_keeps (hm := Mask.le hm rfl)
    | with_reducible apply State.boundEnd_keeps (hm := Mask.le hm rfl)
    | with_reducible apply State.joinStored_keeps (hm := Mask.le hm rfl)
    | with_reducible apply State.matAnswer_keeps (hm := Mask.le hm rfl)
    | (intro x; intros; try dsimp only)
    | dsimp only
    | split)

theorem State.matPacket_keeps {m : Nat} {s0 s : State} (p : Packet) (h : Keeps m s0 s)
    (hm : 213368764 &&& m = 213368764 := by exact Mask.le (by assumption) rfl) :
    Keeps m s0 (State.matPacket s p) := by
  unfold State.matPacket
  try dsimp only
  repeat' (first
    | with_reducible assumption
    | with_reducible apply State.matRefuse_keeps (hm := Mask.le hm rfl)
    | with_reducible apply State.laterPacket_keeps (hm := Mask.le hm rfl)
    | with_reducible apply State.matBusy_keeps (hm := Mask.le hm rfl)
    | with_reducible apply State.presentPacket_keeps (hm := Mask.le hm rfl)
    | with_reducible apply State.earlyPacket_keeps (hm := Mask.le hm rfl)
    | (intro x; intros; try dsimp only)
    | dsimp only
    | split)

theorem State.wdAnswer_keeps {m : Nat} {s0 s : State} (p : Packet) (bound : Bool) (h : Keeps m s0 s)
    (hm : 10551316 &&& m = 10551316 := by exact Mask.le (by assumption) rfl) :
    Keeps m s0 (State.wdAnswer s p bound) := by
  unfold State.wdAnswer
  try dsimp only
  repeat' (first
    | with_reducible assumption
    | with_reducible apply State.bump_keeps (hm := Mask.le hm rfl)
    | with_reducible apply State.matAnswer_keeps (hm := Mask.le hm rfl)
    | (intro x; intros; try dsimp only)
    | dsimp only
    | split)

theorem State.matWithdraw_keeps {m : Nat} {s0 s : State} (p : Packet) (h : Keeps m s0 s)
    (hm : 213368764 &&& m = 213368764 := by exact Mask.le (by assumption) rfl) :
    Keeps m s0 (State.matWithdraw s p) := by
  unfold State.matWithdraw
  try dsimp only
  repeat' (first
    | with_reducible assumption
    | with_reducible apply State.matRefuse_keeps (hm := Mask.le hm rfl)
    | with_reducible apply State.wdAnswer_keeps (hm := Mask.le hm rfl)
    | with_reducible apply State.advanceAll_keeps (hm := Mask.le hm rfl)
    | with_reducible apply State.report_keeps (hm := Mask.le hm rfl)
    | with_reducible apply State.matSet_keeps (hm := Mask.le hm rfl)
    | with_reducible apply State.matInsert_keeps (hm := Mask.le hm rfl)
    | with_reducible apply State.earlyAdd_keeps (hm := Mask.le hm rfl)
    | with_reducible apply State.matBusy_keeps (hm := Mask.le hm rfl)
    | with_reducible apply State.matRemove_keeps (hm := Mask.le hm rfl)
    | (intro x; intros; try dsimp only)
    | dsimp only
    | split
    | refine OptKeeps.get (by assumption) ?_)

theorem State.matRun_keeps {m : Nat} {s0 s : State} (a : MatEvent) (h : Keeps m s0 s)
    (hm : 213368764 &&& m = 213368764 := by exact Mask.le (by assumption) rfl) :
    Keeps m s0 (State.matRun s a) := by
  unfold State.matRun
  try dsimp only
  repeat' (first
    | with_reducible assumption
    | with_reducible apply State.matWithdraw_keeps (hm := Mask.le hm rfl)
    | with_reducible apply State.matPacket_keeps (hm := Mask.le hm rfl)
    | with_reducible apply State.postEvent_keeps (hm := Mask.le hm rfl)
    | with_reducible apply State.cancelEvent_keeps (hm := Mask.le hm rfl)
    | with_reducible apply State.resolveOne_keeps (hm := Mask.le hm rfl)
    | with_reducible apply State.resolveEarly_keeps (hm := Mask.le hm rfl)
    | (intro x; intros; try dsimp only)
    | dsimp only
    | split
    | refine Keeps.fst (by assumption) ?_)

theorem State.matEvent_keeps {m : Nat} {s0 s : State} (e : MatEvent) (h : Keeps m s0 s)
    (hm : 213368764 &&& m = 213368764 := by exact Mask.le (by assumption) rfl) :
    Keeps m s0 (State.matEvent s e) := by
  unfold State.matEvent
  try dsimp only
  repeat' (first
    | with_reducible assumption
    | with_reducible apply State.pmcEv_keeps (hm := Mask.le hm rfl)
    | with_reducible apply State.matRun_keeps (hm := Mask.le hm rfl)
    | exact fun (hb : Nat.testBit _ _ = _) => (Mask.off hm hb rfl).elim
    | with_reducible exact fun _ => rfl
    | (intro x; intros; try dsimp only)
    | dsimp only
    | split
    | with_reducible apply Keeps.upd)

theorem State.runEvents_keeps {m : Nat} {s0 s : State} (c : Nat) (a : Nat) (h : Keeps m s0 s)
    (hm : 213368764 &&& m = 213368764 := by exact Mask.le (by assumption) rfl) :
    Keeps m s0 (State.runEvents s c a) := by
  induction a generalizing s with
  | zero =>
    try unfold State.runEvents
    try dsimp only
    repeat' (first
      | with_reducible assumption
      | with_reducible apply State.matRun_keeps (hm := Mask.le hm rfl)
      | exact fun (hb : Nat.testBit _ _ = _) => (Mask.off hm hb rfl).elim
      | with_reducible exact fun _ => rfl
      | (intro x; intros; try dsimp only)
      | dsimp only
      | split
      | with_reducible apply Keeps.upd)
  | succ n ih =>
    try unfold State.runEvents
    try dsimp only
    repeat' (first
      | with_reducible apply ih
      | with_reducible assumption
      | with_reducible apply State.matRun_keeps (hm := Mask.le hm rfl)
      | exact fun (hb : Nat.testBit _ _ = _) => (Mask.off hm hb rfl).elim
      | with_reducible exact fun _ => rfl
      | (intro x; intros; try dsimp only)
      | dsimp only
      | split
      | with_reducible apply Keeps.upd)

theorem State.firmwareProbe_keeps {m : Nat} {s0 s : State} (c : Nat) (h : Keeps m s0 s)
    (hm : 213368764 &&& m = 213368764 := by exact Mask.le (by assumption) rfl) :
    Keeps m s0 (State.firmwareProbe s c) := by
  unfold State.firmwareProbe
  try dsimp only
  repeat' (first
    | with_reducible assumption
    | with_reducible apply State.runEvents_keeps (hm := Mask.le hm rfl)
    | with_reducible apply State.matRun_keeps (hm := Mask.le hm rfl)
    | exact fun (hb : Nat.testBit _ _ = _) => (Mask.off hm hb rfl).elim
    | with_reducible exact fun _ => rfl
    | (intro x; intros; try dsimp only)
    | dsimp only
    | split
    | with_reducible apply Keeps.upd)

theorem State.matArrive_keeps {m : Nat} {s0 s : State} (p : Packet) (h : Keeps m s0 s)
    (hm : 213368764 &&& m = 213368764 := by exact Mask.le (by assumption) rfl) :
    Keeps m s0 (State.matArrive s p) := by
  unfold State.matArrive
  try dsimp only
  repeat' (first
    | with_reducible assumption
    | with_reducible apply State.ctxUse_keeps (hm := Mask.le hm rfl)
    | with_reducible apply State.dropQuarantined_keeps (hm := Mask.le hm rfl)
    | with_reducible apply State.matBusy_keeps (hm := Mask.le hm rfl)
    | with_reducible apply State.classify_keeps (hm := Mask.le hm rfl)
    | with_reducible apply State.matRefuse_keeps (hm := Mask.le hm rfl)
    | with_reducible apply State.matEvent_keeps (hm := Mask.le hm rfl)
    | with_reducible apply State.matPacket_keeps (hm := Mask.le hm rfl)
    | (intro x; intros; try dsimp only)
    | dsimp only
    | split
    | refine Keeps.snd (by assumption) ?_)

theorem State.scheduleMat_keeps {m : Nat} {s0 s : State} (hr : HandleRef) (h : Keeps m s0 s)
    (hm : 512 &&& m = 512 := by exact Mask.le (by assumption) rfl) :
    Keeps m s0 (State.scheduleMat s hr) := by
  unfold State.scheduleMat
  try dsimp only
  repeat' (first
    | with_reducible assumption
    | with_reducible apply State.setHandle_keeps (hm := Mask.le hm rfl)
    | with_reducible apply Keeps.foldl
    | with_reducible apply Keeps.foldlSnd
    | with_reducible apply Keeps.foldlFst
    | (intro x; intros; try dsimp only)
    | dsimp only
    | split)

theorem State.sendAt_keeps {m : Nat} {s0 s : State} (hr : HandleRef) (off : Nat) (h : Keeps m s0 s)
    (hm : 10696604 &&& m = 10696604 := by exact Mask.le (by assumption) rfl) :
    Keeps m s0 (State.sendAt s hr off) := by
  unfold State.sendAt
  try dsimp only
  repeat' (first
    | with_reducible assumption
    | with_reducible apply State.presentFor_keeps (hm := Mask.le hm rfl)
    | with_reducible apply State.scheduleMat_keeps (hm := Mask.le hm rfl)
    | with_reducible apply State.gather_keeps (hm := Mask.le hm rfl)
    | with_reducible apply State.xltUse_keeps (hm := Mask.le hm rfl)
    | (intro x; intros; try dsimp only)
    | dsimp only
    | split
    | refine Keeps.snd (by assumption) ?_)

theorem State.sendThese_keeps {m : Nat} {s0 s : State} (hr : HandleRef) (ks : List Nat) (h : Keeps m s0 s)
    (hm : 10696604 &&& m = 10696604 := by exact Mask.le (by assumption) rfl) :
    Keeps m s0 (State.sendThese s hr ks) := by
  unfold State.sendThese
  try dsimp only
  repeat' (first
    | with_reducible assumption
    | with_reducible apply State.sendAt_keeps (hm := Mask.le hm rfl)
    | with_reducible apply State.presentFor_keeps (hm := Mask.le hm rfl)
    | with_reducible apply Keeps.foldl
    | with_reducible apply Keeps.foldlSnd
    | with_reducible apply Keeps.foldlFst
    | (intro x; intros; try dsimp only)
    | dsimp only
    | split)

theorem State.sendAll_keeps {m : Nat} {s0 s : State} (hr : HandleRef) (h : Keeps m s0 s)
    (hm : 10696604 &&& m = 10696604 := by exact Mask.le (by assumption) rfl) :
    Keeps m s0 (State.sendAll s hr) := by
  unfold State.sendAll
  try dsimp only
  repeat' (first
    | with_reducible assumption
    | with_reducible apply State.sendThese_keeps (hm := Mask.le hm rfl)
    | (intro x; intros; try dsimp only)
    | dsimp only
    | split)

theorem State.dispatchSend_keeps {m : Nat} {s0 s : State} (z1 : Handle) (h : Keeps m s0 s)
    (hm : 10696636 &&& m = 10696636 := by exact Mask.le (by assumption) rfl) :
    Keeps m s0 (State.dispatchSend s z1) := by
  unfold State.dispatchSend
  try dsimp only
  repeat' (first
    | with_reducible assumption
    | with_reducible apply State.hold_keeps (hm := Mask.le hm rfl)
    | with_reducible apply State.finish_keeps (hm := Mask.le hm rfl)
    | with_reducible apply State.putPeer_keeps (hm := Mask.le hm rfl)
    | with_reducible apply State.activate_keeps (hm := Mask.le hm rfl)
    | with_reducible apply State.sendAll_keeps (hm := Mask.le hm rfl)
    | with_reducible apply State.sampleLocal_keeps (hm := Mask.le hm rfl)
    | (intro x; intros; try dsimp only)
    | dsimp only
    | split)

theorem State.refreshWd_keeps {m : Nat} {s0 s : State} (c : Nat) (t : Nat) (h : Keeps m s0 s)
    (hm : 4128 &&& m = 4128 := by exact Mask.le (by assumption) rfl) :
    Keeps m s0 (State.refreshWd s c t) := by
  unfold State.refreshWd
  try dsimp only
  repeat' (first
    | with_reducible assumption
    | with_reducible apply State.setPeer_keeps (hm := Mask.le hm rfl)
    | (intro x; intros; try dsimp only)
    | dsimp only
    | split)

theorem State.sendEnd_keeps {m : Nat} {s0 s : State} (z1 : Handle) (st : Nat) (dt : Nat) (bytes : Nat) (h : Keeps m s0 s)
    (hm : 209804 &&& m = 209804 := by exact Mask.le (by assumption) rfl) :
    Keeps m s0 (State.sendEnd s z1 st dt bytes) := by
  unfold State.sendEnd
  try dsimp only
  repeat' (first
    | with_reducible assumption
    | with_reducible apply State.setHandle_keeps (hm := Mask.le hm rfl)
    | with_reducible apply State.complete_keeps (hm := Mask.le hm rfl)
    | (intro x; intros; try dsimp only)
    | dsimp only
    | split)

theorem State.placementReport_keeps {m : Nat} {s0 s : State} (p : Packet) (h : Keeps m s0 s)
    (hm : 209804 &&& m = 209804 := by exact Mask.le (by assumption) rfl) :
    Keeps m s0 (State.placementReport s p) := by
  unfold State.placementReport
  try dsimp only
  repeat' (first
    | with_reducible assumption
    | with_reducible apply State.lateAnswer_keeps (hm := Mask.le hm rfl)
    | with_reducible apply State.stampAnswer_keeps (hm := Mask.le hm rfl)
    | with_reducible apply State.setHandle_keeps (hm := Mask.le hm rfl)
    | with_reducible apply State.sendEnd_keeps (hm := Mask.le hm rfl)
    | (intro x; intros; try dsimp only)
    | dsimp only
    | split)

theorem State.finishRecv_keeps {m : Nat} {s0 s : State} (p : Packet) (h : Keeps m s0 s)
    (hm : 209804 &&& m = 209804 := by exact Mask.le (by assumption) rfl) :
    Keeps m s0 (State.finishRecv s p) := by
  unfold State.finishRecv
  try dsimp only
  repeat' (first
    | with_reducible assumption
    | with_reducible apply State.lateAnswer_keeps (hm := Mask.le hm rfl)
    | with_reducible apply State.stampAnswer_keeps (hm := Mask.le hm rfl)
    | with_reducible apply State.sendEnd_keeps (hm := Mask.le hm rfl)
    | (intro x; intros; try dsimp only)
    | dsimp only
    | split)

theorem State.dropLost_keeps {m : Nat} {s0 s : State} (c : Nat) (i : Nat) (h : Keeps m s0 s)
    (hm : 2048 &&& m = 2048 := by exact Mask.le (by assumption) rfl) :
    Keeps m s0 (State.dropLost s c i) := by
  unfold State.dropLost
  try dsimp only
  repeat' (first
    | with_reducible assumption
    | exact fun (hb : Nat.testBit _ _ = _) => (Mask.off hm hb rfl).elim
    | with_reducible exact fun _ => rfl
    | (intro x; intros; try dsimp only)
    | dsimp only
    | split
    | with_reducible apply Keeps.upd)

theorem State.withdrawalEnd_keeps {m : Nat} {s0 s : State} (p : Packet) (h : Keeps m s0 s)
    (hm : 211852 &&& m = 211852 := by exact Mask.le (by assumption) rfl) :
    Keeps m s0 (State.withdrawalEnd s p) := by
  unfold State.withdrawalEnd
  try dsimp only
  repeat' (first
    | with_reducible assumption
    | with_reducible apply State.lateAnswer_keeps (hm := Mask.le hm rfl)
    | with_reducible apply State.dropLost_keeps (hm := Mask.le hm rfl)
    | with_reducible apply State.stampAnswer_keeps (hm := Mask.le hm rfl)
    | with_reducible apply State.setHandle_keeps (hm := Mask.le hm rfl)
    | with_reducible apply State.complete_keeps (hm := Mask.le hm rfl)
    | (intro x; intros; try dsimp only)
    | dsimp only
    | split)

theorem State.withdrawalAnswer_keeps {m : Nat} {s0 s : State} (p : Packet) (h : Keeps m s0 s)
    (hm : 211884 &&& m = 211884 := by exact Mask.le (by assumption) rfl) :
    Keeps m s0 (State.withdrawalAnswer s p) := by
  unfold State.withdrawalAnswer
  try dsimp only
  repeat' (first
    | with_reducible assumption
    | with_reducible apply State.refreshWd_keeps (hm := Mask.le hm rfl)
    | with_reducible apply State.withdrawalEnd_keeps (hm := Mask.le hm rfl)
    | (intro x; intros; try dsimp only)
    | dsimp only
    | split)

theorem State.matRefused_keeps {m : Nat} {s0 s : State} (p : Packet) (h : Keeps m s0 s)
    (hm : 10697660 &&& m = 10697660 := by exact Mask.le (by assumption) rfl) :
    Keeps m s0 (State.matRefused s p) := by
  unfold State.matRefused
  try dsimp only
  repeat' (first
    | with_reducible assumption
    | with_reducible apply State.finishNotice_keeps (hm := Mask.le hm rfl)
    | with_reducible apply State.boundDone_keeps (hm := Mask.le hm rfl)
    | with_reducible apply State.dropLost_keeps (hm := Mask.le hm rfl)
    | with_reducible apply State.refreshWd_keeps (hm := Mask.le hm rfl)
    | with_reducible apply State.lateAnswer_keeps (hm := Mask.le hm rfl)
    | with_reducible apply State.stampAnswer_keeps (hm := Mask.le hm rfl)
    | with_reducible apply State.scheduleMat_keeps (hm := Mask.le hm rfl)
    | with_reducible apply State.finish_keeps (hm := Mask.le hm rfl)
    | with_reducible apply State.setHandle_keeps (hm := Mask.le hm rfl)
    | (intro x; intros; try dsimp only)
    | dsimp only
    | split)

theorem State.pullServed_keeps {m : Nat} {s0 s : State} (p : Packet) (bs : List Byte) (h : Keeps m s0 s)
    (hm : 10551316 &&& m = 10551316 := by exact Mask.le (by assumption) rfl) :
    Keeps m s0 (State.pullServed s p bs) := by
  unfold State.pullServed
  try dsimp only
  repeat' (first
    | with_reducible assumption
    | with_reducible apply State.endPkt_keeps (hm := Mask.le hm rfl)
    | with_reducible apply State.matAnswer_keeps (hm := Mask.le hm rfl)
    | (intro x; intros; try dsimp only)
    | dsimp only
    | split)

theorem State.pullRequest_keeps {m : Nat} {s0 s : State} (p : Packet) (h : Keeps m s0 s)
    (hm : 11642780 &&& m = 11642780 := by exact Mask.le (by assumption) rfl) :
    Keeps m s0 (State.pullRequest s p) := by
  unfold State.pullRequest
  try dsimp only
  repeat' (first
    | with_reducible assumption
    | with_reducible apply State.matAnswer_keeps (hm := Mask.le hm rfl)
    | with_reducible apply State.dropQuarantined_keeps (hm := Mask.le hm rfl)
    | with_reducible apply State.ctxUse_keeps (hm := Mask.le hm rfl)
    | with_reducible apply State.pullServed_keeps (hm := Mask.le hm rfl)
    | with_reducible apply State.fault_keeps (hm := Mask.le hm rfl)
    | with_reducible apply State.setHandle_keeps (hm := Mask.le hm rfl)
    | with_reducible apply State.gather_keeps (hm := Mask.le hm rfl)
    | with_reducible apply State.xltUse_keeps (hm := Mask.le hm rfl)
    | (intro x; intros; try dsimp only)
    | dsimp only
    | split
    | refine Keeps.snd (by assumption) ?_)

theorem State.pullResponse_keeps {m : Nat} {s0 s : State} (p : Packet) (h : Keeps m s0 s)
    (hm : 213368732 &&& m = 213368732 := by exact Mask.le (by assumption) rfl) :
    Keeps m s0 (State.pullResponse s p) := by
  unfold State.pullResponse
  try dsimp only
  repeat' (first
    | with_reducible assumption
    | with_reducible apply State.lateAnswer_keeps (hm := Mask.le hm rfl)
    | with_reducible apply State.placeAt_keeps (hm := Mask.le hm rfl)
    | with_reducible apply State.boundEnd_keeps (hm := Mask.le hm rfl)
    | (intro x; intros; try dsimp only)
    | dsimp only
    | split)

theorem State.resendPull_keeps {m : Nat} {s0 s : State} (b : Bound) (h : Keeps m s0 s)
    (hm : 10553364 &&& m = 10553364 := by exact Mask.le (by assumption) rfl) :
    Keeps m s0 (State.resendPull s b) := by
  unfold State.resendPull
  try dsimp only
  repeat' (first
    | with_reducible assumption
    | with_reducible apply State.pullSend_keeps (hm := Mask.le hm rfl)
    | with_reducible apply State.countResends_keeps (hm := Mask.le hm rfl)
    | (intro x; intros; try dsimp only)
    | dsimp only
    | split)

theorem State.pullLost_keeps {m : Nat} {s0 s : State} (b : Bound) (h : Keeps m s0 s)
    (hm : 211852 &&& m = 211852 := by exact Mask.le (by assumption) rfl) :
    Keeps m s0 (State.pullLost s b) := by
  unfold State.pullLost
  try dsimp only
  repeat' (first
    | with_reducible assumption
    | with_reducible apply State.boundDone_keeps (hm := Mask.le hm rfl)
    | (intro x; intros; try dsimp only)
    | dsimp only
    | split)

theorem State.resendSend_keeps {m : Nat} {s0 s : State} (z1 : Handle) (h : Keeps m s0 s)
    (hm : 10696604 &&& m = 10696604 := by exact Mask.le (by assumption) rfl) :
    Keeps m s0 (State.resendSend s z1) := by
  unfold State.resendSend
  try dsimp only
  repeat' (first
    | with_reducible assumption
    | with_reducible apply State.sendThese_keeps (hm := Mask.le hm rfl)
    | with_reducible apply State.setHandle_keeps (hm := Mask.le hm rfl)
    | (intro x; intros; try dsimp only)
    | dsimp only
    | split)

theorem State.resendOp_keeps {m : Nat} {s0 s : State} (z1 : Handle) (h : Keeps m s0 s)
    (hm : 10696604 &&& m = 10696604 := by exact Mask.le (by assumption) rfl) :
    Keeps m s0 (State.resendOp s z1) := by
  unfold State.resendOp
  try dsimp only
  repeat' (first
    | with_reducible assumption
    | with_reducible apply State.resendSend_keeps (hm := Mask.le hm rfl)
    | with_reducible apply State.resendRma_keeps (hm := Mask.le hm rfl)
    | (intro x; intros; try dsimp only)
    | dsimp only
    | split)

theorem State.resendLost_keeps {m : Nat} {s0 s : State} (l : LostWd) (h : Keeps m s0 s)
    (hm : 10553364 &&& m = 10553364 := by exact Mask.le (by assumption) rfl) :
    Keeps m s0 (State.resendLost s l) := by
  unfold State.resendLost
  try dsimp only
  repeat' (first
    | with_reducible assumption
    | with_reducible apply State.present_keeps (hm := Mask.le hm rfl)
    | with_reducible apply State.countResends_keeps (hm := Mask.le hm rfl)
    | exact fun (hb : Nat.testBit _ _ = _) => (Mask.off hm hb rfl).elim
    | with_reducible exact fun _ => rfl
    | (intro x; intros; try dsimp only)
    | dsimp only
    | split
    | with_reducible apply Keeps.upd)

theorem State.sendLost_keeps {m : Nat} {s0 s : State} (z1 : Handle) (h : Keeps m s0 s)
    (hm : 211852 &&& m = 211852 := by exact Mask.le (by assumption) rfl) :
    Keeps m s0 (State.sendLost s z1) := by
  unfold State.sendLost
  try dsimp only
  repeat' (first
    | with_reducible assumption
    | with_reducible apply State.complete_keeps (hm := Mask.le hm rfl)
    | with_reducible apply State.pmcEv_keeps (hm := Mask.le hm rfl)
    | exact fun (hb : Nat.testBit _ _ = _) => (Mask.off hm hb rfl).elim
    | with_reducible exact fun _ => rfl
    | (intro x; intros; try dsimp only)
    | dsimp only
    | split
    | with_reducible apply Keeps.upd)

theorem State.timeoutSend_keeps {m : Nat} {s0 s : State} (z1 : Handle) (h : Keeps m s0 s)
    (hm : 10697660 &&& m = 10697660 := by exact Mask.le (by assumption) rfl) :
    Keeps m s0 (State.timeoutSend s z1) := by
  unfold State.timeoutSend
  try dsimp only
  repeat' (first
    | with_reducible assumption
    | with_reducible apply State.refreshWd_keeps (hm := Mask.le hm rfl)
    | with_reducible apply State.sendLost_keeps (hm := Mask.le hm rfl)
    | with_reducible apply State.setHandle_keeps (hm := Mask.le hm rfl)
    | with_reducible apply State.presentFor_keeps (hm := Mask.le hm rfl)
    | (intro x; intros; try dsimp only)
    | dsimp only
    | split)

theorem State.dispatchRecv_keeps {m : Nat} {s0 s : State} (z1 : Handle) (h : Keeps m s0 s)
    (hm : 213368764 &&& m = 213368764 := by exact Mask.le (by assumption) rfl) :
    Keeps m s0 (State.dispatchRecv s z1) := by
  unfold State.dispatchRecv
  try dsimp only
  repeat' (first
    | with_reducible assumption
    | with_reducible apply State.hold_keeps (hm := Mask.le hm rfl)
    | with_reducible apply State.finish_keeps (hm := Mask.le hm rfl)
    | with_reducible apply State.matEvent_keeps (hm := Mask.le hm rfl)
    | with_reducible apply State.activate_keeps (hm := Mask.le hm rfl)
    | (intro x; intros; try dsimp only)
    | dsimp only
    | split)

theorem State.dispatchCancel_keeps {m : Nat} {s0 s : State} (z1 : Handle) (h : Keeps m s0 s)
    (hm : 213368764 &&& m = 213368764 := by exact Mask.le (by assumption) rfl) :
    Keeps m s0 (State.dispatchCancel s z1) := by
  unfold State.dispatchCancel
  try dsimp only
  repeat' (first
    | with_reducible assumption
    | with_reducible apply State.hold_keeps (hm := Mask.le hm rfl)
    | with_reducible apply State.finish_keeps (hm := Mask.le hm rfl)
    | with_reducible apply State.matEvent_keeps (hm := Mask.le hm rfl)
    | with_reducible apply State.activate_keeps (hm := Mask.le hm rfl)
    | (intro x; intros; try dsimp only)
    | dsimp only
    | split)

theorem State.matDrain_keeps {m : Nat} {s0 s : State} (c : Nat) (h : Keeps m s0 s)
    (hm : 213368764 &&& m = 213368764 := by exact Mask.le (by assumption) rfl) :
    Keeps m s0 (State.matDrain s c) := by
  unfold State.matDrain
  try dsimp only
  repeat' (first
    | with_reducible assumption
    | with_reducible apply State.matRun_keeps (hm := Mask.le hm rfl)
    | with_reducible apply State.cancelPosted_keeps (hm := Mask.le hm rfl)
    | with_reducible apply State.setCtx_keeps (hm := Mask.le hm rfl)
    | with_reducible apply State.cancelNow_keeps (hm := Mask.le hm rfl)
    | with_reducible apply State.finish_keeps (hm := Mask.le hm rfl)
    | with_reducible apply State.matRemove_keeps (hm := Mask.le hm rfl)
    | with_reducible apply State.earlyAdd_keeps (hm := Mask.le hm rfl)
    | with_reducible apply State.matAnswer_keeps (hm := Mask.le hm rfl)
    | with_reducible apply Keeps.foldl
    | with_reducible apply Keeps.foldlSnd
    | with_reducible apply Keeps.foldlFst
    | exact fun (hb : Nat.testBit _ _ = _) => (Mask.off hm hb rfl).elim
    | with_reducible exact fun _ => rfl
    | (intro x; intros; try dsimp only)
    | dsimp only
    | split
    | with_reducible apply Keeps.upd)

theorem State.matClosed_keeps {m : Nat} {s0 s : State} (c : Nat) (h : Keeps m s0 s)
    (hm : 6144 &&& m = 6144 := by exact Mask.le (by assumption) rfl) :
    Keeps m s0 (State.matClosed s c) := by
  unfold State.matClosed
  try dsimp only
  repeat' (first
    | with_reducible assumption
    | exact fun (hb : Nat.testBit _ _ = _) => (Mask.off hm hb rfl).elim
    | with_reducible exact fun _ => rfl
    | (intro x; intros; try dsimp only)
    | dsimp only
    | split
    | with_reducible apply Keeps.upd)

theorem State.orderReset_keeps {m : Nat} {s0 s : State} (z1 : Nat) (c : Nat) (remote : Nat) (h : Keeps m s0 s)
    (hm : 1161388 &&& m = 1161388 := by exact Mask.le (by assumption) rfl) :
    Keeps m s0 (State.orderReset s z1 c remote) := by
  unfold State.orderReset
  try dsimp only
  repeat' (first
    | with_reducible assumption
    | with_reducible apply State.faultBy_keeps (hm := Mask.le hm rfl)
    | with_reducible apply State.putPeer_keeps (hm := Mask.le hm rfl)
    | exact fun (hb : Nat.testBit _ _ = _) => (Mask.off hm hb rfl).elim
    | with_reducible exact fun _ => rfl
    | (intro x; intros; try dsimp only)
    | dsimp only
    | split
    | with_reducible apply Keeps.upd)

end Sys2Proof.Machine
end

