-- ==== Sys2Proof/Laws/KeepCsc.lean ====
section
/-!
SUPPORT. What CSC keep.
-/
set_option Elab.async false
set_option linter.unusedTactic false
set_option linter.unreachableTactic false
set_option linter.unusedVariables false
namespace Sys2Proof.Machine

theorem State.setGroup_keeps {m : Nat} {s0 s : State} (dim : Nat) (g : Nat) (v : CscGroup) (h : Keeps m s0 s)
    (hm : 33554432 &&& m = 33554432 := by exact Mask.le (by assumption) rfl) :
    Keeps m s0 (State.setGroup s dim g v) := by
  unfold State.setGroup
  try dsimp only
  repeat' (first
    | with_reducible assumption
    | exact fun (hb : Nat.testBit _ _ = _) => (Mask.off hm hb rfl).elim
    | with_reducible exact fun _ => rfl
    | (intro x; intros; try dsimp only)
    | dsimp only
    | split
    | with_reducible apply Keeps.upd)

theorem State.cscOut_keeps {m : Nat} {s0 s : State} (dim : Nat) (coords : List Nat) (p : Packet) (h : Keeps m s0 s)
    (hm : 44105748 &&& m = 44105748 := by exact Mask.le (by assumption) rfl) :
    Keeps m s0 (State.cscOut s dim coords p) := by
  unfold State.cscOut
  try dsimp only
  repeat' (first
    | with_reducible assumption
    | with_reducible apply State.multicast_keeps (hm := Mask.le hm rfl)
    | exact fun (hb : Nat.testBit _ _ = _) => (Mask.off hm hb rfl).elim
    | with_reducible exact fun _ => rfl
    | (intro x; intros; try dsimp only)
    | dsimp only
    | split
    | with_reducible apply Keeps.upd)

theorem State.cscDrain_keeps {m : Nat} {s0 s : State} (a : Nat) (h : Keeps m s0 s)
    (hm : 44105748 &&& m = 44105748 := by exact Mask.le (by assumption) rfl) :
    Keeps m s0 (State.cscDrain s a) := by
  induction a generalizing s with
  | zero =>
    try unfold State.cscDrain
    try dsimp only
    repeat' (first
      | with_reducible assumption
      | with_reducible apply State.multicast_keeps (hm := Mask.le hm rfl)
      | exact fun (hb : Nat.testBit _ _ = _) => (Mask.off hm hb rfl).elim
      | with_reducible exact fun _ => rfl
      | (intro x; intros; try dsimp only)
      | dsimp only
      | split
      | with_reducible apply Keeps.upd)
  | succ n ih =>
    try unfold State.cscDrain
    try dsimp only
    repeat' (first
      | with_reducible apply ih
      | with_reducible assumption
      | with_reducible apply State.multicast_keeps (hm := Mask.le hm rfl)
      | exact fun (hb : Nat.testBit _ _ = _) => (Mask.off hm hb rfl).elim
      | with_reducible exact fun _ => rfl
      | (intro x; intros; try dsimp only)
      | dsimp only
      | split
      | with_reducible apply Keeps.upd)

theorem State.sendElems_keeps {m : Nat} {s0 s : State} (i : CscInst) (dim : Nat) (t : Nat) (g : Nat) (attempt : Nat) (members : List Nat) (es : List CscElem) (h : Keeps m s0 s)
    (hm : 44106260 &&& m = 44106260 := by exact Mask.le (by assumption) rfl) :
    Keeps m s0 (State.sendElems s i dim t g attempt members es) := by
  unfold State.sendElems
  try dsimp only
  repeat' (first
    | with_reducible assumption
    | with_reducible apply State.stampLast_keeps (hm := Mask.le hm rfl)
    | with_reducible apply State.stampFirst_keeps (hm := Mask.le hm rfl)
    | with_reducible apply State.setHandle_keeps (hm := Mask.le hm rfl)
    | with_reducible apply State.cscOut_keeps (hm := Mask.le hm rfl)
    | with_reducible apply Keeps.foldl
    | with_reducible apply Keeps.foldlSnd
    | with_reducible apply Keeps.foldlFst
    | (intro x; intros; try dsimp only)
    | dsimp only
    | split)

theorem State.setInst_keeps {m : Nat} {s0 s : State} (v : CscInst) (h : Keeps m s0 s)
    (hm : 33554432 &&& m = 33554432 := by exact Mask.le (by assumption) rfl) :
    Keeps m s0 (State.setInst s v) := by
  unfold State.setInst
  try dsimp only
  repeat' (first
    | with_reducible assumption
    | exact fun (hb : Nat.testBit _ _ = _) => (Mask.off hm hb rfl).elim
    | with_reducible exact fun _ => rfl
    | (intro x; intros; try dsimp only)
    | dsimp only
    | split
    | with_reducible apply Keeps.upd)

theorem State.dropInst_keeps {m : Nat} {s0 s : State} (v : CscInst) (h : Keeps m s0 s)
    (hm : 33554432 &&& m = 33554432 := by exact Mask.le (by assumption) rfl) :
    Keeps m s0 (State.dropInst s v) := by
  unfold State.dropInst
  try dsimp only
  repeat' (first
    | with_reducible assumption
    | exact fun (hb : Nat.testBit _ _ = _) => (Mask.off hm hb rfl).elim
    | with_reducible exact fun _ => rfl
    | (intro x; intros; try dsimp only)
    | dsimp only
    | split
    | with_reducible apply Keeps.upd)

theorem State.sendAborts_keeps {m : Nat} {s0 s : State} (i : CscInst) (st : Nat) (dt : Nat) (but : Option Nat) (h : Keeps m s0 s)
    (hm : 44105748 &&& m = 44105748 := by exact Mask.le (by assumption) rfl) :
    Keeps m s0 (State.sendAborts s i st dt but) := by
  unfold State.sendAborts
  try dsimp only
  repeat' (first
    | with_reducible assumption
    | with_reducible apply State.setFlag_keeps (hm := Mask.le hm rfl)
    | with_reducible apply State.bump_keeps (hm := Mask.le hm rfl)
    | with_reducible apply State.cscOut_keeps (hm := Mask.le hm rfl)
    | with_reducible apply Keeps.foldl
    | with_reducible apply Keeps.foldlSnd
    | with_reducible apply Keeps.foldlFst
    | (intro x; intros; try dsimp only)
    | dsimp only
    | split)

theorem State.abortInst_keeps {m : Nat} {s0 s : State} (i : CscInst) (st : Nat) (dt : Nat) (but : Option Nat) (h : Keeps m s0 s)
    (hm : 44250012 &&& m = 44250012 := by exact Mask.le (by assumption) rfl) :
    Keeps m s0 (State.abortInst s i st dt but) := by
  unfold State.abortInst
  try dsimp only
  repeat' (first
    | with_reducible assumption
    | with_reducible apply State.complete_keeps (hm := Mask.le hm rfl)
    | with_reducible apply State.sendAborts_keeps (hm := Mask.le hm rfl)
    | with_reducible apply State.dropInst_keeps (hm := Mask.le hm rfl)
    | (intro x; intros; try dsimp only)
    | dsimp only
    | split)

theorem State.writeFinal_keeps {m : Nat} {s0 s : State} (i : CscInst) (es : List (Nat × CscElem)) (h : Keeps m s0 s)
    (hm : 236299404 &&& m = 236299404 := by exact Mask.le (by assumption) rfl) :
    Keeps m s0 (State.writeFinal s i es) := by
  unfold State.writeFinal
  try dsimp only
  repeat' (first
    | with_reducible assumption
    | with_reducible apply State.writeEach_keeps (hm := Mask.le hm rfl)
    | with_reducible apply State.xltUse_keeps (hm := Mask.le hm rfl)
    | with_reducible apply State.setInst_keeps (hm := Mask.le hm rfl)
    | with_reducible apply Keeps.foldl
    | with_reducible apply Keeps.foldlSnd
    | with_reducible apply Keeps.foldlFst
    | (intro x; intros; try dsimp only)
    | dsimp only
    | split)

theorem State.keepVals_keeps {m : Nat} {s0 s : State} (i : CscInst) (lv : Nat) (es : List (Nat × CscElem)) (h : Keeps m s0 s)
    (hm : 236299404 &&& m = 236299404 := by exact Mask.le (by assumption) rfl) :
    Keeps m s0 (State.keepVals s i lv es) := by
  unfold State.keepVals
  try dsimp only
  repeat' (first
    | with_reducible assumption
    | with_reducible apply State.setInst_keeps (hm := Mask.le hm rfl)
    | with_reducible apply State.writeFinal_keeps (hm := Mask.le hm rfl)
    | with_reducible apply Keeps.foldl
    | with_reducible apply Keeps.foldlSnd
    | with_reducible apply Keeps.foldlFst
    | (intro x; intros; try dsimp only)
    | dsimp only
    | split)

theorem State.sendUnit_keeps {m : Nat} {s0 s : State} (z1 : HandleRef) (t : Nat) (g : Nat) (st : CscKind × Nat) (lv : Nat) (u : Nat × List Nat) (h : Keeps m s0 s)
    (hm : 44106260 &&& m = 44106260 := by exact Mask.le (by assumption) rfl) :
    Keeps m s0 (State.sendUnit s z1 t g st lv u) := by
  unfold State.sendUnit
  try dsimp only
  repeat' (first
    | with_reducible assumption
    | with_reducible apply State.setInst_keeps (hm := Mask.le hm rfl)
    | with_reducible apply State.sendElems_keeps (hm := Mask.le hm rfl)
    | (intro x; intros; try dsimp only)
    | dsimp only
    | split)

theorem State.pickUnit_keeps {m : Nat} {s0 s : State}  (h : Keeps m s0 s)
    (hm : 32 &&& m = 32 := by exact Mask.le (by assumption) rfl) :
    Keeps m s0 (State.pickUnit s).2 := by
  unfold State.pickUnit
  try dsimp only
  repeat' (first
    | with_reducible assumption
    | with_reducible apply State.fresh_keeps (hm := Mask.le hm rfl)
    | with_reducible apply Keeps.getD
    | (intro x; intros; try dsimp only)
    | dsimp only
    | split
    | refine Keeps.snd (by assumption) ?_)

theorem State.startSeg_keeps {m : Nat} {s0 s : State} (z1 : HandleRef) (t : Nat) (g : Nat) (st : CscKind × Nat) (h : Keeps m s0 s)
    (hm : 44106292 &&& m = 44106292 := by exact Mask.le (by assumption) rfl) :
    Keeps m s0 (State.startSeg s z1 t g st) := by
  unfold State.startSeg
  try dsimp only
  repeat' (first
    | with_reducible assumption
    | with_reducible apply State.pickUnit_keeps (hm := Mask.le hm rfl)
    | with_reducible apply State.setInst_keeps (hm := Mask.le hm rfl)
    | with_reducible apply State.sendUnit_keeps (hm := Mask.le hm rfl)
    | with_reducible apply Keeps.foldl
    | with_reducible apply Keeps.foldlSnd
    | with_reducible apply Keeps.foldlFst
    | with_reducible apply OptKeeps.mapState
    | with_reducible apply OptKeeps.map
    | (intro x; intros; try dsimp only)
    | dsimp only
    | split
    | refine Keeps.snd (by assumption) ?_)

theorem State.stepEnd_keeps {m : Nat} {s0 s : State} (i : CscInst) (t : Nat) (g : Nat) (st : CscKind × Nat) (ms : List Nat) (h : Keeps m s0 s)
    (hm : 44105748 &&& m = 44105748 := by exact Mask.le (by assumption) rfl) :
    Keeps m s0 (State.stepEnd s i t g st ms) := by
  unfold State.stepEnd
  try dsimp only
  repeat' (first
    | with_reducible assumption
    | with_reducible apply State.cscOut_keeps (hm := Mask.le hm rfl)
    | (intro x; intros; try dsimp only)
    | dsimp only
    | split)

theorem State.endSeg_keeps {m : Nat} {s0 s : State} (z1 : HandleRef) (t : Nat) (g : Nat) (st : CscKind × Nat) (h : Keeps m s0 s)
    (hm : 246785692 &&& m = 246785692 := by exact Mask.le (by assumption) rfl) :
    Keeps m s0 (State.endSeg s z1 t g st) := by
  unfold State.endSeg
  try dsimp only
  repeat' (first
    | with_reducible assumption
    | with_reducible apply State.pmcEv_keeps (hm := Mask.le hm rfl)
    | with_reducible apply State.stepEnd_keeps (hm := Mask.le hm rfl)
    | with_reducible apply State.setInst_keeps (hm := Mask.le hm rfl)
    | with_reducible apply State.keepVals_keeps (hm := Mask.le hm rfl)
    | with_reducible apply State.sendUnit_keeps (hm := Mask.le hm rfl)
    | (intro x; intros; try dsimp only)
    | dsimp only
    | split)

theorem State.readSend_keeps {m : Nat} {s0 s : State} (i : CscInst) (dest : Nat) (seg : Nat) (ks : List Nat) (again : Option (Nat × Nat)) (h : Keeps m s0 s)
    (hm : 33621132 &&& m = 33621132 := by exact Mask.le (by assumption) rfl) :
    Keeps m s0 (State.readSend s i dest seg ks again) := by
  unfold State.readSend
  try dsimp only
  repeat' (first
    | with_reducible assumption
    | with_reducible apply State.setInst_keeps (hm := Mask.le hm rfl)
    | with_reducible apply State.xltUse_keeps (hm := Mask.le hm rfl)
    | with_reducible apply State.gather_keeps (hm := Mask.le hm rfl)
    | (intro x; intros; try dsimp only)
    | dsimp only
    | split
    | refine Keeps.snd (by assumption) ?_)

theorem State.cscRun_keeps {m : Nat} {s0 s : State} (z1 : HandleRef) (a : Nat) (h : Keeps m s0 s)
    (hm : 246921148 &&& m = 246921148 := by exact Mask.le (by assumption) rfl) :
    Keeps m s0 (State.cscRun s z1 a) := by
  induction a generalizing s with
  | zero =>
    try unfold State.cscRun
    try dsimp only
    repeat' (first
      | with_reducible assumption
      | with_reducible apply State.endSeg_keeps (hm := Mask.le hm rfl)
      | with_reducible apply State.startSeg_keeps (hm := Mask.le hm rfl)
      | with_reducible apply State.readSend_keeps (hm := Mask.le hm rfl)
      | with_reducible apply State.abortInst_keeps (hm := Mask.le hm rfl)
      | with_reducible apply State.complete_keeps (hm := Mask.le hm rfl)
      | with_reducible apply State.dropInst_keeps (hm := Mask.le hm rfl)
      | (intro x; intros; try dsimp only)
      | dsimp only
      | split)
  | succ n ih =>
    try unfold State.cscRun
    try dsimp only
    repeat' (first
      | with_reducible apply ih
      | with_reducible assumption
      | with_reducible apply State.endSeg_keeps (hm := Mask.le hm rfl)
      | with_reducible apply State.startSeg_keeps (hm := Mask.le hm rfl)
      | with_reducible apply State.readSend_keeps (hm := Mask.le hm rfl)
      | with_reducible apply State.abortInst_keeps (hm := Mask.le hm rfl)
      | with_reducible apply State.complete_keeps (hm := Mask.le hm rfl)
      | with_reducible apply State.dropInst_keeps (hm := Mask.le hm rfl)
      | (intro x; intros; try dsimp only)
      | dsimp only
      | split)

theorem State.cscGo_keeps {m : Nat} {s0 s : State} (z1 : HandleRef) (h : Keeps m s0 s)
    (hm : 246921148 &&& m = 246921148 := by exact Mask.le (by assumption) rfl) :
    Keeps m s0 (State.cscGo s z1) := by
  unfold State.cscGo
  try dsimp only
  repeat' (first
    | with_reducible assumption
    | with_reducible apply State.cscRun_keeps (hm := Mask.le hm rfl)
    | (intro x; intros; try dsimp only)
    | dsimp only
    | split)

theorem State.cscGoAll_keeps {m : Nat} {s0 s : State}  (h : Keeps m s0 s)
    (hm : 246921148 &&& m = 246921148 := by exact Mask.le (by assumption) rfl) :
    Keeps m s0 (State.cscGoAll s) := by
  unfold State.cscGoAll
  try dsimp only
  repeat' (first
    | with_reducible assumption
    | with_reducible apply State.cscDrain_keeps (hm := Mask.le hm rfl)
    | with_reducible apply State.cscGo_keeps (hm := Mask.le hm rfl)
    | with_reducible apply Keeps.foldl
    | with_reducible apply Keeps.foldlSnd
    | with_reducible apply Keeps.foldlFst
    | (intro x; intros; try dsimp only)
    | dsimp only
    | split)

theorem State.cscGathered_keeps {m : Nat} {s0 s : State} (z1 : HandleRef) (dest : Nat) (g : Nat) (again : Option (Nat × Nat)) (bs : List Byte) (h : Keeps m s0 s)
    (hm : 246785692 &&& m = 246785692 := by exact Mask.le (by assumption) rfl) :
    Keeps m s0 (State.cscGathered s z1 dest g again bs) := by
  unfold State.cscGathered
  try dsimp only
  repeat' (first
    | with_reducible assumption
    | with_reducible apply State.sendElems_keeps (hm := Mask.le hm rfl)
    | with_reducible apply State.setInst_keeps (hm := Mask.le hm rfl)
    | with_reducible apply State.writeFinal_keeps (hm := Mask.le hm rfl)
    | with_reducible apply Keeps.foldl
    | with_reducible apply Keeps.foldlSnd
    | with_reducible apply Keeps.foldlFst
    | (intro x; intros; try dsimp only)
    | dsimp only
    | split)

theorem State.takeSeq_keeps {m : Nat} {s0 s : State} (dim : Nat) (g : Nat) (h : Keeps m s0 s)
    (hm : 33554432 &&& m = 33554432 := by exact Mask.le (by assumption) rfl) :
    Keeps m s0 (State.takeSeq s dim g) := by
  unfold State.takeSeq
  try dsimp only
  repeat' (first
    | with_reducible assumption
    | with_reducible apply State.setGroup_keeps (hm := Mask.le hm rfl)
    | (intro x; intros; try dsimp only)
    | dsimp only
    | split)

theorem State.dropEarly_keeps {m : Nat} {s0 s : State}  (h : Keeps m s0 s)
    (hm : 4 &&& m = 4 := by exact Mask.le (by assumption) rfl) :
    Keeps m s0 (State.dropEarly s) := by
  unfold State.dropEarly
  try dsimp only
  repeat' (first
    | with_reducible assumption
    | with_reducible apply State.bump_keeps (hm := Mask.le hm rfl)
    | (intro x; intros; try dsimp only)
    | dsimp only
    | split)

theorem State.badFormat_keeps {m : Nat} {s0 s : State}  (h : Keeps m s0 s)
    (hm : 1155212 &&& m = 1155212 := by exact Mask.le (by assumption) rfl) :
    Keeps m s0 (State.badFormat s) := by
  unfold State.badFormat
  try dsimp only
  repeat' (first
    | with_reducible assumption
    | with_reducible apply State.fault_keeps (hm := Mask.le hm rfl)
    | (intro x; intros; try dsimp only)
    | dsimp only
    | split)

theorem State.answerEnd_keeps {m : Nat} {s0 s : State} (p : Packet) (h : Keeps m s0 s)
    (hm : 44105748 &&& m = 44105748 := by exact Mask.le (by assumption) rfl) :
    Keeps m s0 (State.answerEnd s p) := by
  unfold State.answerEnd
  try dsimp only
  repeat' (first
    | with_reducible assumption
    | with_reducible apply State.cscOut_keeps (hm := Mask.le hm rfl)
    | (intro x; intros; try dsimp only)
    | dsimp only
    | split)

theorem State.dataFor_keeps {m : Nat} {s0 s : State} (i : CscInst) (p : Packet) (h : Keeps m s0 s)
    (hm : 246921148 &&& m = 246921148 := by exact Mask.le (by assumption) rfl) :
    Keeps m s0 (State.dataFor s i p) := by
  unfold State.dataFor
  try dsimp only
  repeat' (first
    | with_reducible assumption
    | with_reducible apply State.stepEnd_keeps (hm := Mask.le hm rfl)
    | with_reducible apply State.badFormat_keeps (hm := Mask.le hm rfl)
    | with_reducible apply State.cscGo_keeps (hm := Mask.le hm rfl)
    | with_reducible apply State.setInst_keeps (hm := Mask.le hm rfl)
    | (intro x; intros; try dsimp only)
    | dsimp only
    | split)

theorem State.endFor_keeps {m : Nat} {s0 s : State} (i : CscInst) (p : Packet) (h : Keeps m s0 s)
    (hm : 246921148 &&& m = 246921148 := by exact Mask.le (by assumption) rfl) :
    Keeps m s0 (State.endFor s i p) := by
  unfold State.endFor
  try dsimp only
  repeat' (first
    | with_reducible assumption
    | with_reducible apply State.cscGo_keeps (hm := Mask.le hm rfl)
    | with_reducible apply State.setInst_keeps (hm := Mask.le hm rfl)
    | (intro x; intros; try dsimp only)
    | dsimp only
    | split)

theorem State.againFor_keeps {m : Nat} {s0 s : State} (i : CscInst) (p : Packet) (h : Keeps m s0 s)
    (hm : 44107420 &&& m = 44107420 := by exact Mask.le (by assumption) rfl) :
    Keeps m s0 (State.againFor s i p) := by
  unfold State.againFor
  try dsimp only
  repeat' (first
    | with_reducible assumption
    | with_reducible apply State.readSend_keeps (hm := Mask.le hm rfl)
    | with_reducible apply State.sendElems_keeps (hm := Mask.le hm rfl)
    | (intro x; intros; try dsimp only)
    | dsimp only
    | split)

theorem State.cscAct_keeps {m : Nat} {s0 s : State} (i : CscInst) (p : Packet) (h : Keeps m s0 s)
    (hm : 246921148 &&& m = 246921148 := by exact Mask.le (by assumption) rfl) :
    Keeps m s0 (State.cscAct s i p) := by
  unfold State.cscAct
  try dsimp only
  repeat' (first
    | with_reducible assumption
    | with_reducible apply State.abortInst_keeps (hm := Mask.le hm rfl)
    | with_reducible apply State.dataFor_keeps (hm := Mask.le hm rfl)
    | with_reducible apply State.againFor_keeps (hm := Mask.le hm rfl)
    | with_reducible apply State.endFor_keeps (hm := Mask.le hm rfl)
    | (intro x; intros; try dsimp only)
    | dsimp only
    | split)

theorem State.cscEarly_keeps {m : Nat} {s0 s : State} (p : Packet) (h : Keeps m s0 s)
    (hm : 44105748 &&& m = 44105748 := by exact Mask.le (by assumption) rfl) :
    Keeps m s0 (State.cscEarly s p) := by
  unfold State.cscEarly
  try dsimp only
  repeat' (first
    | with_reducible assumption
    | with_reducible apply State.dropEarly_keeps (hm := Mask.le hm rfl)
    | with_reducible apply State.answerEnd_keeps (hm := Mask.le hm rfl)
    | exact fun (hb : Nat.testBit _ _ = _) => (Mask.off hm hb rfl).elim
    | with_reducible exact fun _ => rfl
    | (intro x; intros; try dsimp only)
    | dsimp only
    | split
    | with_reducible apply Keeps.upd)

theorem State.cscArrive_keeps {m : Nat} {s0 s : State} (p : Packet) (h : Keeps m s0 s)
    (hm : 246921148 &&& m = 246921148 := by exact Mask.le (by assumption) rfl) :
    Keeps m s0 (State.cscArrive s p) := by
  unfold State.cscArrive
  try dsimp only
  repeat' (first
    | with_reducible assumption
    | with_reducible apply State.dropEarly_keeps (hm := Mask.le hm rfl)
    | with_reducible apply State.badFormat_keeps (hm := Mask.le hm rfl)
    | with_reducible apply State.cscAct_keeps (hm := Mask.le hm rfl)
    | with_reducible apply State.cscEarly_keeps (hm := Mask.le hm rfl)
    | (intro x; intros; try dsimp only)
    | dsimp only
    | split)

theorem State.startInst_keeps {m : Nat} {s0 s : State} (z1 : Handle) (h : Keeps m s0 s)
    (hm : 246921148 &&& m = 246921148 := by exact Mask.le (by assumption) rfl) :
    Keeps m s0 (State.startInst s z1) := by
  unfold State.startInst
  try dsimp only
  repeat' (first
    | with_reducible assumption
    | with_reducible apply State.stampFirst_keeps (hm := Mask.le hm rfl)
    | with_reducible apply State.activate_keeps (hm := Mask.le hm rfl)
    | with_reducible apply State.takeSeq_keeps (hm := Mask.le hm rfl)
    | with_reducible apply State.cscAct_keeps (hm := Mask.le hm rfl)
    | with_reducible apply State.cscGo_keeps (hm := Mask.le hm rfl)
    | with_reducible apply Keeps.foldl
    | with_reducible apply Keeps.foldlSnd
    | with_reducible apply Keeps.foldlFst
    | exact fun (hb : Nat.testBit _ _ = _) => (Mask.off hm hb rfl).elim
    | with_reducible exact fun _ => rfl
    | (intro x; intros; try dsimp only)
    | dsimp only
    | split
    | with_reducible apply Keeps.upd)

theorem State.dispatchColl_keeps {m : Nat} {s0 s : State} (z1 : Handle) (turn : Bool) (h : Keeps m s0 s)
    (hm : 246921148 &&& m = 246921148 := by exact Mask.le (by assumption) rfl) :
    Keeps m s0 (State.dispatchColl s z1 turn) := by
  unfold State.dispatchColl
  try dsimp only
  repeat' (first
    | with_reducible assumption
    | with_reducible apply State.hold_keeps (hm := Mask.le hm rfl)
    | with_reducible apply State.finish_keeps (hm := Mask.le hm rfl)
    | with_reducible apply State.startInst_keeps (hm := Mask.le hm rfl)
    | exact fun (hb : Nat.testBit _ _ = _) => (Mask.off hm hb rfl).elim
    | with_reducible exact fun _ => rfl
    | (intro x; intros; try dsimp only)
    | dsimp only
    | split
    | with_reducible apply Keeps.upd)

theorem State.stagingFreed_keeps {m : Nat} {s0 s : State} (a : Nat) (h : Keeps m s0 s)
    (hm : 246921148 &&& m = 246921148 := by exact Mask.le (by assumption) rfl) :
    Keeps m s0 (State.stagingFreed s a) := by
  induction a generalizing s with
  | zero =>
    try unfold State.stagingFreed
    try dsimp only
    repeat' (first
      | with_reducible assumption
      | with_reducible apply State.dispatchColl_keeps (hm := Mask.le hm rfl)
      | exact fun (hb : Nat.testBit _ _ = _) => (Mask.off hm hb rfl).elim
      | with_reducible exact fun _ => rfl
      | (intro x; intros; try dsimp only)
      | dsimp only
      | split
      | with_reducible apply Keeps.upd)
  | succ n ih =>
    try unfold State.stagingFreed
    try dsimp only
    repeat' (first
      | with_reducible apply ih
      | with_reducible assumption
      | with_reducible apply State.dispatchColl_keeps (hm := Mask.le hm rfl)
      | exact fun (hb : Nat.testBit _ _ = _) => (Mask.off hm hb rfl).elim
      | with_reducible exact fun _ => rfl
      | (intro x; intros; try dsimp only)
      | dsimp only
      | split
      | with_reducible apply Keeps.upd)

theorem State.rerequest_keeps {m : Nat} {s0 s : State} (i : CscInst) (t : Nat) (g : Nat) (st : CscKind × Nat) (h : Keeps m s0 s)
    (hm : 44105748 &&& m = 44105748 := by exact Mask.le (by assumption) rfl) :
    Keeps m s0 (State.rerequest s i t g st) := by
  unfold State.rerequest
  try dsimp only
  repeat' (first
    | with_reducible assumption
    | with_reducible apply State.setInst_keeps (hm := Mask.le hm rfl)
    | with_reducible apply State.pmcEv_keeps (hm := Mask.le hm rfl)
    | with_reducible apply State.bump_keeps (hm := Mask.le hm rfl)
    | with_reducible apply State.cscOut_keeps (hm := Mask.le hm rfl)
    | (intro x; intros; try dsimp only)
    | dsimp only
    | split)

theorem State.restartSeg_keeps {m : Nat} {s0 s : State} (z1 : HandleRef) (t : Nat) (g : Nat) (h : Keeps m s0 s)
    (hm : 44105780 &&& m = 44105780 := by exact Mask.le (by assumption) rfl) :
    Keeps m s0 (State.restartSeg s z1 t g) := by
  unfold State.restartSeg
  try dsimp only
  repeat' (first
    | with_reducible assumption
    | with_reducible apply State.pickUnit_keeps (hm := Mask.le hm rfl)
    | with_reducible apply State.setInst_keeps (hm := Mask.le hm rfl)
    | with_reducible apply State.rerequest_keeps (hm := Mask.le hm rfl)
    | (intro x; intros; try dsimp only)
    | dsimp only
    | split
    | refine Keeps.snd (by assumption) ?_)

theorem State.unitLost_keeps {m : Nat} {s0 s : State} (u : Nat) (h : Keeps m s0 s)
    (hm : 44105780 &&& m = 44105780 := by exact Mask.le (by assumption) rfl) :
    Keeps m s0 (State.unitLost s u) := by
  unfold State.unitLost
  try dsimp only
  repeat' (first
    | with_reducible assumption
    | with_reducible apply State.restartSeg_keeps (hm := Mask.le hm rfl)
    | with_reducible apply Keeps.foldl
    | with_reducible apply Keeps.foldlSnd
    | with_reducible apply Keeps.foldlFst
    | (intro x; intros; try dsimp only)
    | dsimp only
    | split)

theorem State.pcLost_keeps {m : Nat} {s0 s : State}  (h : Keeps m s0 s)
    (hm : 44105780 &&& m = 44105780 := by exact Mask.le (by assumption) rfl) :
    Keeps m s0 (State.pcLost s) := by
  unfold State.pcLost
  try dsimp only
  repeat' (first
    | with_reducible assumption
    | with_reducible apply State.fresh_keeps (hm := Mask.le hm rfl)
    | with_reducible apply State.restartSeg_keeps (hm := Mask.le hm rfl)
    | with_reducible apply Keeps.foldl
    | with_reducible apply Keeps.foldlSnd
    | with_reducible apply Keeps.foldlFst
    | (intro x; intros; try dsimp only)
    | dsimp only
    | split
    | refine Keeps.snd (by assumption) ?_)

theorem State.collLost_keeps {m : Nat} {s0 s : State} (z1 : Handle) (h : Keeps m s0 s)
    (hm : 44250044 &&& m = 44250044 := by exact Mask.le (by assumption) rfl) :
    Keeps m s0 (State.collLost s z1) := by
  unfold State.collLost
  try dsimp only
  repeat' (first
    | with_reducible assumption
    | with_reducible apply State.fresh_keeps (hm := Mask.le hm rfl)
    | with_reducible apply State.finish_keeps (hm := Mask.le hm rfl)
    | with_reducible apply State.sendAborts_keeps (hm := Mask.le hm rfl)
    | (intro x; intros; try dsimp only)
    | dsimp only
    | split
    | refine Keeps.snd (by assumption) ?_)

theorem State.timeoutColl_keeps {m : Nat} {s0 s : State} (z1 : Handle) (h : Keeps m s0 s)
    (hm : 44250012 &&& m = 44250012 := by exact Mask.le (by assumption) rfl) :
    Keeps m s0 (State.timeoutColl s z1) := by
  unfold State.timeoutColl
  try dsimp only
  repeat' (first
    | with_reducible assumption
    | with_reducible apply State.pmcEv_keeps (hm := Mask.le hm rfl)
    | with_reducible apply State.abortInst_keeps (hm := Mask.le hm rfl)
    | with_reducible apply State.finish_keeps (hm := Mask.le hm rfl)
    | (intro x; intros; try dsimp only)
    | dsimp only
    | split)

end Sys2Proof.Machine
end

