-- ==== Sys2Proof/Laws/KeepHdl.lean ====
section
/-!
SUPPORT. What HDL, CTX, the rings, the targets and what follows by itself keep.
-/
set_option Elab.async false
set_option linter.unusedTactic false
set_option linter.unreachableTactic false
set_option linter.unusedVariables false
namespace Sys2Proof.Machine

theorem State.setCore_keeps {m : Nat} {s0 s : State} (c : Nat) (v : HCore) (h : Keeps m s0 s)
    (hm : 131072 &&& m = 131072 := by exact Mask.le (by assumption) rfl) :
    Keeps m s0 (State.setCore s c v) := by
  unfold State.setCore
  try dsimp only
  repeat' (first
    | with_reducible assumption
    | exact fun (hb : Nat.testBit _ _ = _) => (Mask.off hm hb rfl).elim
    | with_reducible exact fun _ => rfl
    | (intro x; intros; try dsimp only)
    | dsimp only
    | split
    | with_reducible apply Keeps.upd)

theorem State.invoke_keeps {m : Nat} {s0 s : State} (c : Nat) (e : TrigEv) (h : Keeps m s0 s)
    (hm : 196612 &&& m = 196612 := by exact Mask.le (by assumption) rfl) :
    Keeps m s0 (State.invoke s c e) := by
  unfold State.invoke
  try dsimp only
  repeat' (first
    | with_reducible assumption
    | with_reducible apply State.setCore_keeps (hm := Mask.le hm rfl)
    | with_reducible apply State.setFld_keeps (hm := Mask.le hm rfl)
    | with_reducible apply State.pmcEv_keeps (hm := Mask.le hm rfl)
    | (intro x; intros; try dsimp only)
    | dsimp only
    | split)

theorem State.dispatchEvent_keeps {m : Nat} {s0 s : State}  (h : Keeps m s0 s)
    (hm : 196612 &&& m = 196612 := by exact Mask.le (by assumption) rfl) :
    Keeps m s0 (State.dispatchEvent s) := by
  unfold State.dispatchEvent
  try dsimp only
  repeat' (first
    | with_reducible assumption
    | with_reducible apply State.invoke_keeps (hm := Mask.le hm rfl)
    | exact fun (hb : Nat.testBit _ _ = _) => (Mask.off hm hb rfl).elim
    | with_reducible exact fun _ => rfl
    | (intro x; intros; try dsimp only)
    | dsimp only
    | split
    | with_reducible apply Keeps.upd)

theorem State.dropCoreReads_keeps {m : Nat} {s0 s : State} (c : Nat) (h : Keeps m s0 s)
    (hm : 128 &&& m = 128 := by exact Mask.le (by assumption) rfl) :
    Keeps m s0 (State.dropCoreReads s c) := by
  unfold State.dropCoreReads
  try dsimp only
  repeat' (first
    | with_reducible assumption
    | exact fun (hb : Nat.testBit _ _ = _) => (Mask.off hm hb rfl).elim
    | with_reducible exact fun _ => rfl
    | (intro x; intros; try dsimp only)
    | dsimp only
    | split
    | with_reducible apply Keeps.upd)

theorem State.endInv_keeps {m : Nat} {s0 s : State} (c : Nat) (h : Keeps m s0 s)
    (hm : 131204 &&& m = 131204 := by exact Mask.le (by assumption) rfl) :
    Keeps m s0 (State.endInv s c) := by
  unfold State.endInv
  try dsimp only
  repeat' (first
    | with_reducible assumption
    | with_reducible apply State.setCore_keeps (hm := Mask.le hm rfl)
    | with_reducible apply State.setFld_keeps (hm := Mask.le hm rfl)
    | with_reducible apply State.dropCoreReads_keeps (hm := Mask.le hm rfl)
    | (intro x; intros; try dsimp only)
    | dsimp only
    | split)

theorem State.stopInv_keeps {m : Nat} {s0 s : State} (c : Nat) (status : Nat) (detail : Nat) (mtval : Word) (h : Keeps m s0 s)
    (hm : 1810828 &&& m = 1810828 := by exact Mask.le (by assumption) rfl) :
    Keeps m s0 (State.stopInv s c status detail mtval) := by
  unfold State.stopInv
  try dsimp only
  repeat' (first
    | with_reducible assumption
    | with_reducible apply State.disarmTrig_keeps (hm := Mask.le hm rfl)
    | with_reducible apply State.endInv_keeps (hm := Mask.le hm rfl)
    | with_reducible apply State.setFld_keeps (hm := Mask.le hm rfl)
    | with_reducible apply State.postEntry_keeps (hm := Mask.le hm rfl)
    | with_reducible apply State.fault_keeps (hm := Mask.le hm rfl)
    | with_reducible apply State.semReset_keeps (hm := Mask.le hm rfl)
    | (intro x; intros; try dsimp only)
    | dsimp only
    | split)

theorem State.coreTake_keeps {m : Nat} {s0 s : State} (c : Nat) (off : Nat) (val : Nat) (h : Keeps m s0 s)
    (hm : 131072 &&& m = 131072 := by exact Mask.le (by assumption) rfl) :
    Keeps m s0 (State.coreTake s c off val) := by
  unfold State.coreTake
  try dsimp only
  repeat' (first
    | with_reducible assumption
    | with_reducible apply State.setCore_keeps (hm := Mask.le hm rfl)
    | (intro x; intros; try dsimp only)
    | dsimp only
    | split)

theorem State.coreGathered_keeps {m : Nat} {s0 s : State} (c : Nat) (bs : List Byte) (h : Keeps m s0 s)
    (hm : 131072 &&& m = 131072 := by exact Mask.le (by assumption) rfl) :
    Keeps m s0 (State.coreGathered s c bs) := by
  unfold State.coreGathered
  try dsimp only
  repeat' (first
    | with_reducible assumption
    | with_reducible apply State.setCore_keeps (hm := Mask.le hm rfl)
    | (intro x; intros; try dsimp only)
    | dsimp only
    | split)

theorem State.coreFault_keeps {m : Nat} {s0 s : State} (c : Nat) (cause : Nat) (tval : Word) (h : Keeps m s0 s)
    (hm : 1810828 &&& m = 1810828 := by exact Mask.le (by assumption) rfl) :
    Keeps m s0 (State.coreFault s c cause tval) := by
  unfold State.coreFault
  try dsimp only
  repeat' (first
    | with_reducible assumption
    | with_reducible apply State.stopInv_keeps (hm := Mask.le hm rfl)
    | with_reducible apply State.setCore_keeps (hm := Mask.le hm rfl)
    | (intro x; intros; try dsimp only)
    | dsimp only
    | split)

theorem State.coreUnread_keeps {m : Nat} {s0 s : State} (c : Nat) (h : Keeps m s0 s)
    (hm : 1810828 &&& m = 1810828 := by exact Mask.le (by assumption) rfl) :
    Keeps m s0 (State.coreUnread s c) := by
  unfold State.coreUnread
  try dsimp only
  repeat' (first
    | with_reducible assumption
    | with_reducible apply State.coreFault_keeps (hm := Mask.le hm rfl)
    | with_reducible apply State.setCore_keeps (hm := Mask.le hm rfl)
    | (intro x; intros; try dsimp only)
    | dsimp only
    | split)

theorem State.tlbInstall_keeps {m : Nat} {s0 s : State} (c : Nat) (e : TlbEntry) (fetch : Bool) (h : Keeps m s0 s)
    (hm : 131104 &&& m = 131104 := by exact Mask.le (by assumption) rfl) :
    Keeps m s0 (State.tlbInstall s c e fetch) := by
  unfold State.tlbInstall
  try dsimp only
  repeat' (first
    | with_reducible assumption
    | with_reducible apply State.fresh_keeps (hm := Mask.le hm rfl)
    | with_reducible apply State.setCore_keeps (hm := Mask.le hm rfl)
    | (intro x; intros; try dsimp only)
    | dsimp only
    | split
    | refine Keeps.snd (by assumption) ?_)

theorem State.refillTrap_keeps {m : Nat} {s0 s : State} (c : Nat) (va : Word) (acc : Nat) (dirty : Bool) (h : Keeps m s0 s)
    (hm : 196608 &&& m = 196608 := by exact Mask.le (by assumption) rfl) :
    Keeps m s0 (State.refillTrap s c va acc dirty) := by
  unfold State.refillTrap
  try dsimp only
  repeat' (first
    | with_reducible assumption
    | with_reducible apply State.pmcEv_keeps (hm := Mask.le hm rfl)
    | with_reducible apply State.setCore_keeps (hm := Mask.le hm rfl)
    | (intro x; intros; try dsimp only)
    | dsimp only
    | split)

theorem State.missTrap_keeps {m : Nat} {s0 s : State} (c : Nat) (va : Word) (acc : Nat) (dirty : Bool) (h : Keeps m s0 s)
    (hm : 1810828 &&& m = 1810828 := by exact Mask.le (by assumption) rfl) :
    Keeps m s0 (State.missTrap s c va acc dirty) := by
  unfold State.missTrap
  try dsimp only
  repeat' (first
    | with_reducible assumption
    | with_reducible apply State.stopInv_keeps (hm := Mask.le hm rfl)
    | with_reducible apply State.refillTrap_keeps (hm := Mask.le hm rfl)
    | (intro x; intros; try dsimp only)
    | dsimp only
    | split)

theorem State.coreEntry_keeps {m : Nat} {s0 s : State} (c : Nat) (va : Word) (acc : Nat) (h : Keeps m s0 s)
    (hm : 1810860 &&& m = 1810860 := by exact Mask.le (by assumption) rfl) :
    Keeps m s0 (State.coreEntry s c va acc).2 := by
  unfold State.coreEntry
  try dsimp only
  repeat' (first
    | with_reducible assumption
    | with_reducible apply State.missTrap_keeps (hm := Mask.le hm rfl)
    | with_reducible apply State.tlbInstall_keeps (hm := Mask.le hm rfl)
    | (intro x; intros; try dsimp only)
    | dsimp only
    | split)

theorem State.tlbMiss_keeps {m : Nat} {s0 s : State} (c : Nat) (va : Word) (acc : Nat) (h : Keeps m s0 s)
    (hm : 1810860 &&& m = 1810860 := by exact Mask.le (by assumption) rfl) :
    Keeps m s0 (State.tlbMiss s c va acc) := by
  unfold State.tlbMiss
  try dsimp only
  repeat' (first
    | with_reducible assumption
    | with_reducible apply State.coreEntry_keeps (hm := Mask.le hm rfl)
    | (intro x; intros; try dsimp only)
    | dsimp only
    | split
    | refine Keeps.snd (by assumption) ?_)

theorem State.refillReturn_keeps {m : Nat} {s0 s : State} (c : Nat) (h : Keeps m s0 s)
    (hm : 131072 &&& m = 131072 := by exact Mask.le (by assumption) rfl) :
    Keeps m s0 (State.refillReturn s c) := by
  unfold State.refillReturn
  try dsimp only
  repeat' (first
    | with_reducible assumption
    | with_reducible apply State.setCore_keeps (hm := Mask.le hm rfl)
    | (intro x; intros; try dsimp only)
    | dsimp only
    | split)

theorem State.setAD_keeps {m : Nat} {s0 s : State} (c : Nat) (h : Keeps m s0 s)
    (hm : 91140 &&& m = 91140 := by exact Mask.le (by assumption) rfl) :
    Keeps m s0 (State.setAD s c).2 := by
  unfold State.setAD
  try dsimp only
  repeat' (first
    | with_reducible assumption
    | with_reducible apply State.report_keeps (hm := Mask.le hm rfl)
    | with_reducible apply State.logTable_keeps (hm := Mask.le hm rfl)
    | with_reducible apply State.setXltEntry_keeps (hm := Mask.le hm rfl)
    | (intro x; intros; try dsimp only)
    | dsimp only
    | split)

theorem State.fillEntry_keeps {m : Nat} {s0 s : State} (c : Nat) (pg : Nat) (lock : Bool) (h : Keeps m s0 s)
    (hm : 1828268 &&& m = 1828268 := by exact Mask.le (by assumption) rfl) :
    Keeps m s0 (State.fillEntry s c pg lock) := by
  unfold State.fillEntry
  try dsimp only
  repeat' (first
    | with_reducible assumption
    | with_reducible apply State.stopInv_keeps (hm := Mask.le hm rfl)
    | with_reducible apply State.setAD_keeps (hm := Mask.le hm rfl)
    | with_reducible apply State.tlbInstall_keeps (hm := Mask.le hm rfl)
    | (intro x; intros; try dsimp only)
    | dsimp only
    | split
    | refine Keeps.snd (by assumption) ?_)

theorem State.tlbFill_keeps {m : Nat} {s0 s : State} (c : Nat) (entry : Word) (idx : Nat) (pg : Nat) (lock : Bool) (h : Keeps m s0 s)
    (hm : 1828268 &&& m = 1828268 := by exact Mask.le (by assumption) rfl) :
    Keeps m s0 (State.tlbFill s c entry idx pg lock) := by
  unfold State.tlbFill
  try dsimp only
  repeat' (first
    | with_reducible assumption
    | with_reducible apply State.setCore_keeps (hm := Mask.le hm rfl)
    | with_reducible apply State.refillReturn_keeps (hm := Mask.le hm rfl)
    | with_reducible apply State.fillEntry_keeps (hm := Mask.le hm rfl)
    | (intro x; intros; try dsimp only)
    | dsimp only
    | split)

theorem State.tlbAge_keeps {m : Nat} {s0 s : State}  (h : Keeps m s0 s)
    (hm : 131072 &&& m = 131072 := by exact Mask.le (by assumption) rfl) :
    Keeps m s0 (State.tlbAge s) := by
  unfold State.tlbAge
  try dsimp only
  repeat' (first
    | with_reducible assumption
    | with_reducible apply State.setCore_keeps (hm := Mask.le hm rfl)
    | with_reducible apply Keeps.foldl
    | with_reducible apply Keeps.foldlSnd
    | with_reducible apply Keeps.foldlFst
    | (intro x; intros; try dsimp only)
    | dsimp only
    | split)

theorem State.clearCore_keeps {m : Nat} {s0 s : State} (c : Nat) (h : Keeps m s0 s)
    (hm : 1810828 &&& m = 1810828 := by exact Mask.le (by assumption) rfl) :
    Keeps m s0 (State.clearCore s c) := by
  unfold State.clearCore
  try dsimp only
  repeat' (first
    | with_reducible assumption
    | with_reducible apply State.semReset_keeps (hm := Mask.le hm rfl)
    | with_reducible apply State.stopInv_keeps (hm := Mask.le hm rfl)
    | with_reducible apply State.setCore_keeps (hm := Mask.le hm rfl)
    | with_reducible apply State.dropCoreReads_keeps (hm := Mask.le hm rfl)
    | with_reducible apply State.setReg_keeps (hm := Mask.le hm rfl)
    | (intro x; intros; try dsimp only)
    | dsimp only
    | split)

theorem State.resetCore_keeps {m : Nat} {s0 s : State} (c : Nat) (h : Keeps m s0 s)
    (hm : 1810828 &&& m = 1810828 := by exact Mask.le (by assumption) rfl) :
    Keeps m s0 (State.resetCore s c) := by
  unfold State.resetCore
  try dsimp only
  repeat' (first
    | with_reducible assumption
    | with_reducible apply State.setFld_keeps (hm := Mask.le hm rfl)
    | with_reducible apply State.clearCore_keeps (hm := Mask.le hm rfl)
    | (intro x; intros; try dsimp only)
    | dsimp only
    | split)

theorem State.retireCore_keeps {m : Nat} {s0 s : State} (c : Nat) (h : Keeps m s0 s)
    (hm : 1810828 &&& m = 1810828 := by exact Mask.le (by assumption) rfl) :
    Keeps m s0 (State.retireCore s c) := by
  unfold State.retireCore
  try dsimp only
  repeat' (first
    | with_reducible assumption
    | with_reducible apply State.setFld_keeps (hm := Mask.le hm rfl)
    | with_reducible apply State.clearCore_keeps (hm := Mask.le hm rfl)
    | with_reducible apply State.stopInv_keeps (hm := Mask.le hm rfl)
    | (intro x; intros; try dsimp only)
    | dsimp only
    | split)

theorem State.startUserCores_keeps {m : Nat} {s0 s : State}  (h : Keeps m s0 s)
    (hm : 4 &&& m = 4 := by exact Mask.le (by assumption) rfl) :
    Keeps m s0 (State.startUserCores s) := by
  unfold State.startUserCores
  try dsimp only
  repeat' (first
    | with_reducible assumption
    | with_reducible apply State.setFld_keeps (hm := Mask.le hm rfl)
    | with_reducible apply Keeps.foldl
    | with_reducible apply Keeps.foldlSnd
    | with_reducible apply Keeps.foldlFst
    | (intro x; intros; try dsimp only)
    | dsimp only
    | split)

theorem State.startFwCores_keeps {m : Nat} {s0 s : State}  (h : Keeps m s0 s)
    (hm : 4 &&& m = 4 := by exact Mask.le (by assumption) rfl) :
    Keeps m s0 (State.startFwCores s) := by
  unfold State.startFwCores
  try dsimp only
  repeat' (first
    | with_reducible assumption
    | with_reducible apply State.setFld_keeps (hm := Mask.le hm rfl)
    | with_reducible apply Keeps.foldl
    | with_reducible apply Keeps.foldlSnd
    | with_reducible apply Keeps.foldlFst
    | (intro x; intros; try dsimp only)
    | dsimp only
    | split)

theorem State.startReplayCores_keeps {m : Nat} {s0 s : State}  (h : Keeps m s0 s)
    (hm : 4 &&& m = 4 := by exact Mask.le (by assumption) rfl) :
    Keeps m s0 (State.startReplayCores s) := by
  unfold State.startReplayCores
  try dsimp only
  repeat' (first
    | with_reducible assumption
    | with_reducible apply State.setFld_keeps (hm := Mask.le hm rfl)
    | with_reducible apply Keeps.foldl
    | with_reducible apply Keeps.foldlSnd
    | with_reducible apply Keeps.foldlFst
    | (intro x; intros; try dsimp only)
    | dsimp only
    | split)

theorem State.endReplayCores_keeps {m : Nat} {s0 s : State}  (h : Keeps m s0 s)
    (hm : 4 &&& m = 4 := by exact Mask.le (by assumption) rfl) :
    Keeps m s0 (State.endReplayCores s) := by
  unfold State.endReplayCores
  try dsimp only
  repeat' (first
    | with_reducible assumption
    | with_reducible apply State.setFld_keeps (hm := Mask.le hm rfl)
    | with_reducible apply Keeps.foldl
    | with_reducible apply Keeps.foldlSnd
    | with_reducible apply Keeps.foldlFst
    | (intro x; intros; try dsimp only)
    | dsimp only
    | split)

theorem State.disarmOwner_keeps {m : Nat} {s0 s : State} (c : Nat) (h : Keeps m s0 s)
    (hm : 131072 &&& m = 131072 := by exact Mask.le (by assumption) rfl) :
    Keeps m s0 (State.disarmOwner s c) := by
  unfold State.disarmOwner
  try dsimp only
  repeat' (first
    | with_reducible assumption
    | with_reducible apply State.disarmTrig_keeps (hm := Mask.le hm rfl)
    | with_reducible apply Keeps.foldl
    | with_reducible apply Keeps.foldlSnd
    | with_reducible apply Keeps.foldlFst
    | (intro x; intros; try dsimp only)
    | dsimp only
    | split)

theorem State.releasePosts_keeps {m : Nat} {s0 s : State} (a : Nat) (h : Keeps m s0 s)
    (hm : 10695580 &&& m = 10695580 := by exact Mask.le (by assumption) rfl) :
    Keeps m s0 (State.releasePosts s a) := by
  induction a generalizing s with
  | zero =>
    try unfold State.releasePosts
    try dsimp only
    repeat' (first
      | with_reducible assumption
      | with_reducible apply State.present_keeps (hm := Mask.le hm rfl)
      | with_reducible apply State.queueEv_keeps (hm := Mask.le hm rfl)
      | with_reducible apply State.complete_keeps (hm := Mask.le hm rfl)
      | with_reducible apply Keeps.foldl
      | with_reducible apply Keeps.foldlSnd
      | with_reducible apply Keeps.foldlFst
      | exact fun (hb : Nat.testBit _ _ = _) => (Mask.off hm hb rfl).elim
      | with_reducible exact fun _ => rfl
      | (intro x; intros; try dsimp only)
      | dsimp only
      | split
      | with_reducible apply Keeps.upd)
  | succ n ih =>
    try unfold State.releasePosts
    try dsimp only
    repeat' (first
      | with_reducible apply ih
      | with_reducible assumption
      | with_reducible apply State.present_keeps (hm := Mask.le hm rfl)
      | with_reducible apply State.queueEv_keeps (hm := Mask.le hm rfl)
      | with_reducible apply State.complete_keeps (hm := Mask.le hm rfl)
      | with_reducible apply Keeps.foldl
      | with_reducible apply Keeps.foldlSnd
      | with_reducible apply Keeps.foldlFst
      | exact fun (hb : Nat.testBit _ _ = _) => (Mask.off hm hb rfl).elim
      | with_reducible exact fun _ => rfl
      | (intro x; intros; try dsimp only)
      | dsimp only
      | split
      | with_reducible apply Keeps.upd)

theorem State.fireWaiting_keeps {m : Nat} {s0 s : State}  (h : Keeps m s0 s)
    (hm : 131076 &&& m = 131076 := by exact Mask.le (by assumption) rfl) :
    Keeps m s0 (State.fireWaiting s) := by
  unfold State.fireWaiting
  try dsimp only
  repeat' (first
    | with_reducible assumption
    | with_reducible apply State.fireCounter_keeps (hm := Mask.le hm rfl)
    | with_reducible apply Keeps.foldl
    | with_reducible apply Keeps.foldlSnd
    | with_reducible apply Keeps.foldlFst
    | (intro x; intros; try dsimp only)
    | dsimp only
    | split)

theorem State.dbTail_keeps {m : Nat} {s0 s : State} (z1 : Nat) (c : Nat) (v : Nat) (h : Keeps m s0 s)
    (hm : 1155468 &&& m = 1155468 := by exact Mask.le (by assumption) rfl) :
    Keeps m s0 (State.dbTail s z1 c v) := by
  unfold State.dbTail
  try dsimp only
  repeat' (first
    | with_reducible assumption
    | with_reducible apply State.setCtx_keeps (hm := Mask.le hm rfl)
    | with_reducible apply State.bump_keeps (hm := Mask.le hm rfl)
    | with_reducible apply State.faultBy_keeps (hm := Mask.le hm rfl)
    | (intro x; intros; try dsimp only)
    | dsimp only
    | split)

theorem State.inlineFallback_keeps {m : Nat} {s0 s : State} (z1 : Nat) (c : Nat) (h : Keeps m s0 s)
    (hm : 1155468 &&& m = 1155468 := by exact Mask.le (by assumption) rfl) :
    Keeps m s0 (State.inlineFallback s z1 c) := by
  unfold State.inlineFallback
  try dsimp only
  repeat' (first
    | with_reducible assumption
    | with_reducible apply State.dbTail_keeps (hm := Mask.le hm rfl)
    | with_reducible apply State.bump_keeps (hm := Mask.le hm rfl)
    | (intro x; intros; try dsimp only)
    | dsimp only
    | split)

theorem State.inlineTry_keeps {m : Nat} {s0 s : State} (z1 : Nat) (c : Nat) (d : Descriptor) (h : Keeps m s0 s)
    (hm : 1291148 &&& m = 1291148 := by exact Mask.le (by assumption) rfl) :
    Keeps m s0 (State.inlineTry s z1 c d) := by
  unfold State.inlineTry
  try dsimp only
  repeat' (first
    | with_reducible assumption
    | with_reducible apply State.assign_keeps (hm := Mask.le hm rfl)
    | with_reducible apply State.pmcEv_keeps (hm := Mask.le hm rfl)
    | with_reducible apply State.setCtx_keeps (hm := Mask.le hm rfl)
    | with_reducible apply State.inlineFallback_keeps (hm := Mask.le hm rfl)
    | (intro x; intros; try dsimp only)
    | dsimp only
    | split)

theorem State.inlineGo_keeps {m : Nat} {s0 s : State} (c : Nat) (h : Keeps m s0 s)
    (hm : 1291148 &&& m = 1291148 := by exact Mask.le (by assumption) rfl) :
    Keeps m s0 (State.inlineGo s c) := by
  unfold State.inlineGo
  try dsimp only
  repeat' (first
    | with_reducible assumption
    | with_reducible apply State.inlineTry_keeps (hm := Mask.le hm rfl)
    | with_reducible apply State.setCtx_keeps (hm := Mask.le hm rfl)
    | with_reducible apply Keeps.foldl
    | with_reducible apply Keeps.foldlSnd
    | with_reducible apply Keeps.foldlFst
    | (intro x; intros; try dsimp only)
    | dsimp only
    | split)

theorem State.inlineGoAll_keeps {m : Nat} {s0 s : State}  (h : Keeps m s0 s)
    (hm : 1291148 &&& m = 1291148 := by exact Mask.le (by assumption) rfl) :
    Keeps m s0 (State.inlineGoAll s) := by
  unfold State.inlineGoAll
  try dsimp only
  repeat' (first
    | with_reducible assumption
    | with_reducible apply State.inlineGo_keeps (hm := Mask.le hm rfl)
    | with_reducible apply Keeps.foldl
    | with_reducible apply Keeps.foldlSnd
    | with_reducible apply Keeps.foldlFst
    | (intro x; intros; try dsimp only)
    | dsimp only
    | split)

theorem State.contextFill_keeps {m : Nat} {s0 s : State} (c : Nat) (h : Keeps m s0 s)
    (hm : 1291148 &&& m = 1291148 := by exact Mask.le (by assumption) rfl) :
    Keeps m s0 (State.contextFill s c) := by
  unfold State.contextFill
  try dsimp only
  repeat' (first
    | with_reducible assumption
    | with_reducible apply State.inlineGo_keeps (hm := Mask.le hm rfl)
    | with_reducible apply State.cacheIn_keeps (hm := Mask.le hm rfl)
    | (intro x; intros; try dsimp only)
    | dsimp only
    | split)

theorem State.fillFirst_keeps {m : Nat} {s0 s : State} (c : Nat) (h : Keeps m s0 s)
    (hm : 1291148 &&& m = 1291148 := by exact Mask.le (by assumption) rfl) :
    Keeps m s0 (State.fillFirst s c) := by
  unfold State.fillFirst
  try dsimp only
  repeat' (first
    | with_reducible assumption
    | with_reducible apply State.inlineGo_keeps (hm := Mask.le hm rfl)
    | with_reducible apply State.ctxUse_keeps (hm := Mask.le hm rfl)
    | (intro x; intros; try dsimp only)
    | dsimp only
    | split)

theorem State.ctxRead_keeps {m : Nat} {s0 s : State} (c : Nat) (h : Keeps m s0 s)
    (hm : 1291148 &&& m = 1291148 := by exact Mask.le (by assumption) rfl) :
    Keeps m s0 (State.ctxRead s c) := by
  unfold State.ctxRead
  try dsimp only
  repeat' (first
    | with_reducible assumption
    | with_reducible apply State.fillFirst_keeps (hm := Mask.le hm rfl)
    | with_reducible apply State.setReg_keeps (hm := Mask.le hm rfl)
    | with_reducible apply State.setFld_keeps (hm := Mask.le hm rfl)
    | with_reducible apply Keeps.foldl
    | with_reducible apply Keeps.foldlSnd
    | with_reducible apply Keeps.foldlFst
    | (intro x; intros; try dsimp only)
    | dsimp only
    | split)

theorem State.movePhase_keeps {m : Nat} {s0 s : State} (z1 : Nat) (c : Nat) (p : CtxPhase) (h : Keeps m s0 s)
    (hm : 90372 &&& m = 90372 := by exact Mask.le (by assumption) rfl) :
    Keeps m s0 (State.movePhase s z1 c p) := by
  unfold State.movePhase
  try dsimp only
  repeat' (first
    | with_reducible assumption
    | with_reducible apply State.logTable_keeps (hm := Mask.le hm rfl)
    | with_reducible apply State.setCtx_keeps (hm := Mask.le hm rfl)
    | with_reducible apply State.report_keeps (hm := Mask.le hm rfl)
    | (intro x; intros; try dsimp only)
    | dsimp only
    | split)

theorem State.ctxOpen_keeps {m : Nat} {s0 s : State} (z1 : Nat) (c : Nat) (h : Keeps m s0 s)
    (hm : 90372 &&& m = 90372 := by exact Mask.le (by assumption) rfl) :
    Keeps m s0 (State.ctxOpen s z1 c) := by
  unfold State.ctxOpen
  try dsimp only
  repeat' (first
    | with_reducible assumption
    | with_reducible apply State.setFld_keeps (hm := Mask.le hm rfl)
    | with_reducible apply State.cacheIn_keeps (hm := Mask.le hm rfl)
    | with_reducible apply State.movePhase_keeps (hm := Mask.le hm rfl)
    | with_reducible apply State.setCtx_keeps (hm := Mask.le hm rfl)
    | (intro x; intros; try dsimp only)
    | dsimp only
    | split)

theorem State.semAbandon_keeps {m : Nat} {s0 s : State} (z1 : Handle) (h : Keeps m s0 s)
    (hm : 721036 &&& m = 721036 := by exact Mask.le (by assumption) rfl) :
    Keeps m s0 (State.semAbandon s z1) := by
  unfold State.semAbandon
  try dsimp only
  repeat' (first
    | with_reducible assumption
    | with_reducible apply State.semForget_keeps (hm := Mask.le hm rfl)
    | (intro x; intros; try dsimp only)
    | dsimp only
    | split)

theorem State.endUndispatched_keeps {m : Nat} {s0 s : State} (c : Nat) (detail : Nat) (h : Keeps m s0 s)
    (hm : 34288524 &&& m = 34288524 := by exact Mask.le (by assumption) rfl) :
    Keeps m s0 (State.endUndispatched s c detail) := by
  unfold State.endUndispatched
  try dsimp only
  repeat' (first
    | with_reducible assumption
    | with_reducible apply State.finish_keeps (hm := Mask.le hm rfl)
    | with_reducible apply State.semAbandon_keeps (hm := Mask.le hm rfl)
    | with_reducible apply Keeps.foldl
    | with_reducible apply Keeps.foldlSnd
    | with_reducible apply Keeps.foldlFst
    | exact fun (hb : Nat.testBit _ _ = _) => (Mask.off hm hb rfl).elim
    | with_reducible exact fun _ => rfl
    | (intro x; intros; try dsimp only)
    | dsimp only
    | split
    | with_reducible apply Keeps.upd)

theorem State.drain_keeps {m : Nat} {s0 s : State} (z1 : Nat) (c : Nat) (detail : Nat) (h : Keeps m s0 s)
    (hm : 247463868 &&& m = 247463868 := by exact Mask.le (by assumption) rfl) :
    Keeps m s0 (State.drain s z1 c detail) := by
  unfold State.drain
  try dsimp only
  repeat' (first
    | with_reducible assumption
    | with_reducible apply State.movePhase_keeps (hm := Mask.le hm rfl)
    | with_reducible apply State.setCtx_keeps (hm := Mask.le hm rfl)
    | with_reducible apply State.disarmOwner_keeps (hm := Mask.le hm rfl)
    | with_reducible apply State.matDrain_keeps (hm := Mask.le hm rfl)
    | with_reducible apply State.endUndispatched_keeps (hm := Mask.le hm rfl)
    | (intro x; intros; try dsimp only)
    | dsimp only
    | split)

theorem State.ctxClose_keeps {m : Nat} {s0 s : State} (z1 : Nat) (c : Nat) (h : Keeps m s0 s)
    (hm : 247463868 &&& m = 247463868 := by exact Mask.le (by assumption) rfl) :
    Keeps m s0 (State.ctxClose s z1 c) := by
  unfold State.ctxClose
  try dsimp only
  repeat' (first
    | with_reducible assumption
    | with_reducible apply State.fillFirst_keeps (hm := Mask.le hm rfl)
    | with_reducible apply State.drain_keeps (hm := Mask.le hm rfl)
    | with_reducible apply State.setFld_keeps (hm := Mask.le hm rfl)
    | (intro x; intros; try dsimp only)
    | dsimp only
    | split)

theorem State.contextClosed_keeps {m : Nat} {s0 s : State} (c : Nat) (h : Keeps m s0 s)
    (hm : 96516 &&& m = 96516 := by exact Mask.le (by assumption) rfl) :
    Keeps m s0 (State.contextClosed s c) := by
  unfold State.contextClosed
  try dsimp only
  repeat' (first
    | with_reducible assumption
    | with_reducible apply State.movePhase_keeps (hm := Mask.le hm rfl)
    | with_reducible apply State.setCtx_keeps (hm := Mask.le hm rfl)
    | with_reducible apply State.matClosed_keeps (hm := Mask.le hm rfl)
    | exact fun (hb : Nat.testBit _ _ = _) => (Mask.off hm hb rfl).elim
    | with_reducible exact fun _ => rfl
    | (intro x; intros; try dsimp only)
    | dsimp only
    | split
    | with_reducible apply Keeps.upd)

theorem State.ctxCmd_keeps {m : Nat} {s0 s : State} (z1 : Nat) (op : Nat) (h : Keeps m s0 s)
    (hm : 247463868 &&& m = 247463868 := by exact Mask.le (by assumption) rfl) :
    Keeps m s0 (State.ctxCmd s z1 op) := by
  unfold State.ctxCmd
  try dsimp only
  repeat' (first
    | with_reducible assumption
    | with_reducible apply State.setFld_keeps (hm := Mask.le hm rfl)
    | with_reducible apply State.ctxRead_keeps (hm := Mask.le hm rfl)
    | with_reducible apply State.ctxOpen_keeps (hm := Mask.le hm rfl)
    | with_reducible apply State.ctxClose_keeps (hm := Mask.le hm rfl)
    | (intro x; intros; try dsimp only)
    | dsimp only
    | split)

theorem State.doorbell_keeps {m : Nat} {s0 s : State} (z1 : Nat) (c : Nat) (act : State → State) (hact : ∀ x, Keeps m s0 x → Keeps m s0 (act x)) (h : Keeps m s0 s)
    (hm : 1155212 &&& m = 1155212 := by exact Mask.le (by assumption) rfl) :
    Keeps m s0 (State.doorbell s z1 c act) := by
  unfold State.doorbell
  try dsimp only
  repeat' (first
    | with_reducible assumption
    | with_reducible apply State.faultBy_keeps (hm := Mask.le hm rfl)
    | with_reducible apply State.pmcEv_keeps (hm := Mask.le hm rfl)
    | with_reducible apply hact
    | (intro x; intros; try dsimp only)
    | dsimp only
    | split)

theorem State.headMove_keeps {m : Nat} {s0 s : State} (z1 : Nat) (c : Nat) (v : Nat) (h : Keeps m s0 s)
    (hm : 1155468 &&& m = 1155468 := by exact Mask.le (by assumption) rfl) :
    Keeps m s0 (State.headMove s z1 c v) := by
  unfold State.headMove
  try dsimp only
  repeat' (first
    | with_reducible assumption
    | with_reducible apply State.setCtx_keeps (hm := Mask.le hm rfl)
    | with_reducible apply State.reportLatest_keeps (hm := Mask.le hm rfl)
    | with_reducible apply State.faultBy_keeps (hm := Mask.le hm rfl)
    | (intro x; intros; try dsimp only)
    | dsimp only
    | split)

theorem State.dbHead_keeps {m : Nat} {s0 s : State} (z1 : Nat) (c : Nat) (v : Nat) (h : Keeps m s0 s)
    (hm : 1155468 &&& m = 1155468 := by exact Mask.le (by assumption) rfl) :
    Keeps m s0 (State.dbHead s z1 c v) := by
  unfold State.dbHead
  try dsimp only
  repeat' (first
    | with_reducible assumption
    | with_reducible apply State.holdChange_keeps (hm := Mask.le hm rfl)
    | with_reducible apply State.headMove_keeps (hm := Mask.le hm rfl)
    | (intro x; intros; try dsimp only)
    | dsimp only
    | split)

theorem State.dbArm_keeps {m : Nat} {s0 s : State} (c : Nat) (v : Nat) (h : Keeps m s0 s)
    (hm : 65932 &&& m = 65932 := by exact Mask.le (by assumption) rfl) :
    Keeps m s0 (State.dbArm s c v) := by
  unfold State.dbArm
  try dsimp only
  repeat' (first
    | with_reducible assumption
    | with_reducible apply State.vecEvent_keeps (hm := Mask.le hm rfl)
    | with_reducible apply State.setCtx_keeps (hm := Mask.le hm rfl)
    | (intro x; intros; try dsimp only)
    | dsimp only
    | split)

theorem State.dbInline_keeps {m : Nat} {s0 s : State} (z1 : Nat) (c : Nat) (d : Option Descriptor) (h : Keeps m s0 s)
    (hm : 1291148 &&& m = 1291148 := by exact Mask.le (by assumption) rfl) :
    Keeps m s0 (State.dbInline s z1 c d) := by
  unfold State.dbInline
  try dsimp only
  repeat' (first
    | with_reducible assumption
    | with_reducible apply State.inlineFallback_keeps (hm := Mask.le hm rfl)
    | with_reducible apply State.fillFirst_keeps (hm := Mask.le hm rfl)
    | with_reducible apply State.inlineTry_keeps (hm := Mask.le hm rfl)
    | with_reducible apply State.setCtx_keeps (hm := Mask.le hm rfl)
    | (intro x; intros; try dsimp only)
    | dsimp only
    | split)

theorem State.dbPageWrite_keeps {m : Nat} {s0 s : State} (z1 : Nat) (c : Nat) (off : Nat) (v : Nat) (h : Keeps m s0 s)
    (hm : 1291148 &&& m = 1291148 := by exact Mask.le (by assumption) rfl) :
    Keeps m s0 (State.dbPageWrite s z1 c off v) := by
  unfold State.dbPageWrite
  try dsimp only
  repeat' (first
    | with_reducible assumption
    | with_reducible apply State.doorbell_keeps (hm := Mask.le hm rfl)
    | with_reducible apply State.dbTail_keeps (hm := Mask.le hm rfl)
    | with_reducible apply State.fillFirst_keeps (hm := Mask.le hm rfl)
    | with_reducible apply State.dbHead_keeps (hm := Mask.le hm rfl)
    | with_reducible apply State.dbArm_keeps (hm := Mask.le hm rfl)
    | with_reducible apply State.dbInline_keeps (hm := Mask.le hm rfl)
    | (intro x; intros; try dsimp only)
    | dsimp only
    | split)

theorem State.fetchDescriptors_keeps {m : Nat} {s0 s : State} (c : Nat) (h : Keeps m s0 s)
    (hm : 65928 &&& m = 65928 := by exact Mask.le (by assumption) rfl) :
    Keeps m s0 (State.fetchDescriptors s c) := by
  unfold State.fetchDescriptors
  try dsimp only
  repeat' (first
    | with_reducible assumption
    | with_reducible apply State.ctxUse_keeps (hm := Mask.le hm rfl)
    | with_reducible apply State.takeOther_keeps (hm := Mask.le hm rfl)
    | with_reducible apply State.emit_keeps (hm := Mask.le hm rfl)
    | with_reducible apply State.setCtx_keeps (hm := Mask.le hm rfl)
    | (intro x; intros; try dsimp only)
    | dsimp only
    | split
    | refine Keeps.snd (by assumption) ?_)

theorem State.returnDescriptors_keeps {m : Nat} {s0 s : State} (c : Nat) (ds : List Descriptor) (h : Keeps m s0 s)
    (hm : 209804 &&& m = 209804 := by exact Mask.le (by assumption) rfl) :
    Keeps m s0 (State.returnDescriptors s c ds) := by
  unfold State.returnDescriptors
  try dsimp only
  repeat' (first
    | with_reducible assumption
    | with_reducible apply State.setCtx_keeps (hm := Mask.le hm rfl)
    | with_reducible apply State.assign_keeps (hm := Mask.le hm rfl)
    | with_reducible apply Keeps.foldl
    | with_reducible apply Keeps.foldlSnd
    | with_reducible apply Keeps.foldlFst
    | exact fun (hb : Nat.testBit _ _ = _) => (Mask.off hm hb rfl).elim
    | with_reducible exact fun _ => rfl
    | (intro x; intros; try dsimp only)
    | dsimp only
    | split
    | with_reducible apply Keeps.upd)

theorem State.handleQuery_keeps {m : Nat} {s0 s : State} (w : Nat) (h : Keeps m s0 s)
    (hm : 4 &&& m = 4 := by exact Mask.le (by assumption) rfl) :
    Keeps m s0 (State.handleQuery s w) := by
  unfold State.handleQuery
  try dsimp only
  repeat' (first
    | with_reducible assumption
    | with_reducible apply State.setReg_keeps (hm := Mask.le hm rfl)
    | (intro x; intros; try dsimp only)
    | dsimp only
    | split)

theorem State.hbmLine_keeps {m : Nat} {s0 s : State} (line : Nat) (h : Keeps m s0 s)
    (hm : 32 &&& m = 32 := by exact Mask.le (by assumption) rfl) :
    Keeps m s0 (State.hbmLine s line).2 := by
  unfold State.hbmLine
  try dsimp only
  repeat' (first
    | with_reducible assumption
    | with_reducible apply State.fresh_keeps (hm := Mask.le hm rfl)
    | with_reducible apply Keeps.getD
    | (intro x; intros; try dsimp only)
    | dsimp only
    | split
    | refine Keeps.snd (by assumption) ?_)

theorem State.tableStore_keeps {m : Nat} {s0 s : State} (z1 : Nat) (a : Nat) (bs : List Byte) (h : Keeps m s0 s)
    (hm : 91140 &&& m = 91140 := by exact Mask.le (by assumption) rfl) :
    Keeps m s0 (State.tableStore s z1 a bs) := by
  unfold State.tableStore
  try dsimp only
  repeat' (first
    | with_reducible assumption
    | with_reducible apply State.writeXlt_keeps (hm := Mask.le hm rfl)
    | with_reducible apply Keeps.foldl
    | with_reducible apply Keeps.foldlSnd
    | with_reducible apply Keeps.foldlFst
    | (intro x; intros; try dsimp only)
    | dsimp only
    | split)

theorem State.hbmStore_keeps {m : Nat} {s0 s : State} (z1 : Nat) (a : Nat) (bs : List Byte) (h : Keeps m s0 s)
    (hm : 336815108 &&& m = 336815108 := by exact Mask.le (by assumption) rfl) :
    OptKeeps m s0 (State.hbmStore s z1 a bs) := by
  unfold State.hbmStore
  extract_lets counted
  have hc : ∀ x, Keeps m s0 x → Keeps m s0 (counted x) := fun x hx =>
    State.pmcEv_keeps _ _ _ _ _ (State.hbmMend_keeps _ _ hx)
  split
  · exact OptKeeps.some (State.fmemStore_keeps _ _ h)
  · split
    · exact OptKeeps.some (hc _ (State.hmemRaw_keeps _ (fun k => Memory.wf_write k.hmem _ _) h))
    · split
      · refine OptKeeps.some (hc _ ?_)
        refine Keeps.upd h ?_ ?_ ?_ ?_ ?_ ?_ ?_ ?_ ?_ ?_ ?_ ?_ ?_ ?_ ?_ ?_ ?_ ?_ ?_ ?_ <;> first | exact fun hb => (Mask.off hm hb rfl).elim | exact fun _ => rfl
      · split
        · split
          · exact OptKeeps.none
          · exact OptKeeps.some (hc _ (State.tableStore_keeps _ _ _ h))
        · exact OptKeeps.some (hc _ h)

theorem State.tgtRefuse_keeps {m : Nat} {s0 s : State} (p : Packet) (st : Nat) (dt : Nat) (busy : Bool) (h : Keeps m s0 s)
    (hm : 10551316 &&& m = 10551316 := by exact Mask.le (by assumption) rfl) :
    Keeps m s0 (State.tgtRefuse s p st dt busy) := by
  unfold State.tgtRefuse
  try dsimp only
  repeat' (first
    | with_reducible assumption
    | with_reducible apply State.present_keeps (hm := Mask.le hm rfl)
    | (intro x; intros; try dsimp only)
    | dsimp only
    | split)

theorem State.tgtBusy_keeps {m : Nat} {s0 s : State} (p : Packet) (h : Keeps m s0 s)
    (hm : 10551316 &&& m = 10551316 := by exact Mask.le (by assumption) rfl) :
    Keeps m s0 (State.tgtBusy s p) := by
  unfold State.tgtBusy
  try dsimp only
  repeat' (first
    | with_reducible assumption
    | with_reducible apply State.bump_keeps (hm := Mask.le hm rfl)
    | with_reducible apply State.setFlag_keeps (hm := Mask.le hm rfl)
    | with_reducible apply State.tgtRefuse_keeps (hm := Mask.le hm rfl)
    | (intro x; intros; try dsimp only)
    | dsimp only
    | split)

theorem State.recordRefusal_keeps {m : Nat} {s0 s : State} (p : Packet) (st : Nat) (dt : Nat) (h : Keeps m s0 s)
    (hm : 10564660 &&& m = 10564660 := by exact Mask.le (by assumption) rfl) :
    Keeps m s0 (State.recordRefusal s p st dt) := by
  unfold State.recordRefusal
  try dsimp only
  repeat' (first
    | with_reducible assumption
    | with_reducible apply State.putOp_keeps (hm := Mask.le hm rfl)
    | with_reducible apply State.unpinOp_keeps (hm := Mask.le hm rfl)
    | with_reducible apply State.tgtRefuse_keeps (hm := Mask.le hm rfl)
    | (intro x; intros; try dsimp only)
    | dsimp only
    | split)

theorem State.partRefused_keeps {m : Nat} {s0 s : State} (p : Packet) (v : OpRec) (st : Nat) (dt : Nat) (h : Keeps m s0 s)
    (hm : 10564660 &&& m = 10564660 := by exact Mask.le (by assumption) rfl) :
    Keeps m s0 (State.partRefused s p v st dt) := by
  unfold State.partRefused
  try dsimp only
  repeat' (first
    | with_reducible assumption
    | with_reducible apply State.abandonOp_keeps (hm := Mask.le hm rfl)
    | with_reducible apply State.recordRefusal_keeps (hm := Mask.le hm rfl)
    | (intro x; intros; try dsimp only)
    | dsimp only
    | split)

theorem State.endOp_keeps {m : Nat} {s0 s : State} (v : OpRec) (counter : Option Nat) (answer : Packet) (h : Keeps m s0 s)
    (hm : 10695740 &&& m = 10695740 := by exact Mask.le (by assumption) rfl) :
    Keeps m s0 (State.endOp s v counter answer) := by
  unfold State.endOp
  try dsimp only
  repeat' (first
    | with_reducible assumption
    | with_reducible apply State.putOp_keeps (hm := Mask.le hm rfl)
    | with_reducible apply State.unpinOp_keeps (hm := Mask.le hm rfl)
    | with_reducible apply State.ctrUpdate_keeps (hm := Mask.le hm rfl)
    | with_reducible apply State.present_keeps (hm := Mask.le hm rfl)
    | with_reducible apply State.queueEv_keeps (hm := Mask.le hm rfl)
    | with_reducible apply State.markFull_keeps (hm := Mask.le hm rfl)
    | with_reducible apply Keeps.foldl
    | with_reducible apply Keeps.foldlSnd
    | with_reducible apply Keeps.foldlFst
    | exact fun (hb : Nat.testBit _ _ = _) => (Mask.off hm hb rfl).elim
    | with_reducible exact fun _ => rfl
    | (intro x; intros; try dsimp only)
    | dsimp only
    | split
    | with_reducible apply Keeps.upd)

theorem State.winUse_keeps {m : Nat} {s0 s : State} (v : OpRec) (off : Nat) (len : Nat) (h : Keeps m s0 s)
    (hm : 66560 &&& m = 66560 := by exact Mask.le (by assumption) rfl) :
    Keeps m s0 (State.winUse s v off len) := by
  unfold State.winUse
  try dsimp only
  repeat' (first
    | with_reducible assumption
    | with_reducible apply State.xltUse_keeps (hm := Mask.le hm rfl)
    | (intro x; intros; try dsimp only)
    | dsimp only
    | split)

theorem State.partStopped_keeps {m : Nat} {s0 s : State} (p : Packet) (v : OpRec) (a : PartStop) (h : Keeps m s0 s)
    (hm : 10564660 &&& m = 10564660 := by exact Mask.le (by assumption) rfl) :
    Keeps m s0 (State.partStopped s p v a) := by
  unfold State.partStopped
  try dsimp only
  repeat' (first
    | with_reducible assumption
    | with_reducible apply State.partRefused_keeps (hm := Mask.le hm rfl)
    | with_reducible apply State.tgtBusy_keeps (hm := Mask.le hm rfl)
    | (intro x; intros; try dsimp only)
    | dsimp only
    | split)

theorem State.applyPut_keeps {m : Nat} {s0 s : State} (p : Packet) (v : OpRec) (h : Keeps m s0 s)
    (hm : 213333052 &&& m = 213333052 := by exact Mask.le (by assumption) rfl) :
    Keeps m s0 (State.applyPut s p v) := by
  unfold State.applyPut
  try dsimp only
  repeat' (first
    | with_reducible assumption
    | with_reducible apply State.partStopped_keeps (hm := Mask.le hm rfl)
    | with_reducible apply State.winUse_keeps (hm := Mask.le hm rfl)
    | with_reducible apply State.placesWrite_keeps (hm := Mask.le hm rfl)
    | with_reducible apply State.stampAccess_keeps (hm := Mask.le hm rfl)
    | with_reducible apply State.setOp_keeps (hm := Mask.le hm rfl)
    | with_reducible apply State.endOp_keeps (hm := Mask.le hm rfl)
    | (intro x; intros; try dsimp only)
    | dsimp only
    | split)

theorem State.applyGet_keeps {m : Nat} {s0 s : State} (p : Packet) (v : OpRec) (h : Keeps m s0 s)
    (hm : 10564796 &&& m = 10564796 := by exact Mask.le (by assumption) rfl) :
    Keeps m s0 (State.applyGet s p v) := by
  unfold State.applyGet
  try dsimp only
  repeat' (first
    | with_reducible assumption
    | with_reducible apply State.partStopped_keeps (hm := Mask.le hm rfl)
    | with_reducible apply State.winUse_keeps (hm := Mask.le hm rfl)
    | with_reducible apply State.gather_keeps (hm := Mask.le hm rfl)
    | with_reducible apply State.stampAccess_keeps (hm := Mask.le hm rfl)
    | with_reducible apply State.setOp_keeps (hm := Mask.le hm rfl)
    | (intro x; intros; try dsimp only)
    | dsimp only
    | split
    | refine Keeps.snd (by assumption) ?_)

theorem State.getServed_keeps {m : Nat} {s0 s : State} (p : Packet) (bs : List Byte) (h : Keeps m s0 s)
    (hm : 10695740 &&& m = 10695740 := by exact Mask.le (by assumption) rfl) :
    Keeps m s0 (State.getServed s p bs) := by
  unfold State.getServed
  try dsimp only
  repeat' (first
    | with_reducible assumption
    | with_reducible apply State.endPkt_keeps (hm := Mask.le hm rfl)
    | with_reducible apply State.endOp_keeps (hm := Mask.le hm rfl)
    | with_reducible apply State.present_keeps (hm := Mask.le hm rfl)
    | with_reducible apply State.setOp_keeps (hm := Mask.le hm rfl)
    | (intro x; intros; try dsimp only)
    | dsimp only
    | split)

theorem State.applyAtomic_keeps {m : Nat} {s0 s : State} (p : Packet) (v : OpRec) (h : Keeps m s0 s)
    (hm : 213333180 &&& m = 213333180 := by exact Mask.le (by assumption) rfl) :
    Keeps m s0 (State.applyAtomic s p v) := by
  unfold State.applyAtomic
  try dsimp only
  repeat' (first
    | with_reducible assumption
    | with_reducible apply State.partStopped_keeps (hm := Mask.le hm rfl)
    | with_reducible apply State.stampAccess_keeps (hm := Mask.le hm rfl)
    | with_reducible apply State.winUse_keeps (hm := Mask.le hm rfl)
    | with_reducible apply State.takeOther_keeps (hm := Mask.le hm rfl)
    | with_reducible apply State.setOp_keeps (hm := Mask.le hm rfl)
    | with_reducible apply State.emit_keeps (hm := Mask.le hm rfl)
    | with_reducible apply State.partRefused_keeps (hm := Mask.le hm rfl)
    | with_reducible apply State.tgtBusy_keeps (hm := Mask.le hm rfl)
    | with_reducible apply State.placesWrite_keeps (hm := Mask.le hm rfl)
    | with_reducible apply State.endOp_keeps (hm := Mask.le hm rfl)
    | with_reducible apply Keeps.getD
    | (intro x; intros; try dsimp only)
    | dsimp only
    | split
    | refine Keeps.snd (by assumption) ?_)

theorem State.atomicOpDone_keeps {m : Nat} {s0 s : State} (r : OpRef) (res : HostResult) (h : Keeps m s0 s)
    (hm : 10695868 &&& m = 10695868 := by exact Mask.le (by assumption) rfl) :
    Keeps m s0 (State.atomicOpDone s r res) := by
  unfold State.atomicOpDone
  try dsimp only
  repeat' (first
    | with_reducible assumption
    | with_reducible apply State.dropOther_keeps (hm := Mask.le hm rfl)
    | with_reducible apply State.endOp_keeps (hm := Mask.le hm rfl)
    | with_reducible apply State.putOp_keeps (hm := Mask.le hm rfl)
    | with_reducible apply State.unpinOp_keeps (hm := Mask.le hm rfl)
    | with_reducible apply State.present_keeps (hm := Mask.le hm rfl)
    | (intro x; intros; try dsimp only)
    | dsimp only
    | split)

theorem State.applyPart_keeps {m : Nat} {s0 s : State} (p : Packet) (v : OpRec) (h : Keeps m s0 s)
    (hm : 213333180 &&& m = 213333180 := by exact Mask.le (by assumption) rfl) :
    Keeps m s0 (State.applyPart s p v) := by
  unfold State.applyPart
  try dsimp only
  repeat' (first
    | with_reducible assumption
    | with_reducible apply State.applyPut_keeps (hm := Mask.le hm rfl)
    | with_reducible apply State.applyGet_keeps (hm := Mask.le hm rfl)
    | with_reducible apply State.applyAtomic_keeps (hm := Mask.le hm rfl)
    | (intro x; intros; try dsimp only)
    | dsimp only
    | split)

theorem State.admitOp_keeps {m : Nat} {s0 s : State} (p : Packet) (h : Keeps m s0 s)
    (hm : 213333180 &&& m = 213333180 := by exact Mask.le (by assumption) rfl) :
    Keeps m s0 (State.admitOp s p) := by
  unfold State.admitOp
  try dsimp only
  repeat' (first
    | with_reducible assumption
    | with_reducible apply State.tgtBusy_keeps (hm := Mask.le hm rfl)
    | with_reducible apply State.recordRefusal_keeps (hm := Mask.le hm rfl)
    | with_reducible apply State.pmcEv_keeps (hm := Mask.le hm rfl)
    | with_reducible apply State.putOp_keeps (hm := Mask.le hm rfl)
    | with_reducible apply State.pinImage_keeps (hm := Mask.le hm rfl)
    | with_reducible apply State.applyPart_keeps (hm := Mask.le hm rfl)
    | (intro x; intros; try dsimp only)
    | dsimp only
    | split)

theorem State.countAnswered_keeps {m : Nat} {s0 s : State}  (h : Keeps m s0 s)
    (hm : 65540 &&& m = 65540 := by exact Mask.le (by assumption) rfl) :
    Keeps m s0 (State.countAnswered s) := by
  unfold State.countAnswered
  try dsimp only
  repeat' (first
    | with_reducible assumption
    | with_reducible apply State.pmcEv_keeps (hm := Mask.le hm rfl)
    | with_reducible apply State.bump_keeps (hm := Mask.le hm rfl)
    | (intro x; intros; try dsimp only)
    | dsimp only
    | split)

theorem State.answerAgain_keeps {m : Nat} {s0 s : State} (p : Packet) (v : OpRec) (h : Keeps m s0 s)
    (hm : 11646140 &&& m = 11646140 := by exact Mask.le (by assumption) rfl) :
    Keeps m s0 (State.answerAgain s p v) := by
  unfold State.answerAgain
  try dsimp only
  repeat' (first
    | with_reducible assumption
    | with_reducible apply State.present_keeps (hm := Mask.le hm rfl)
    | with_reducible apply State.countAnswered_keeps (hm := Mask.le hm rfl)
    | with_reducible apply State.applyGet_keeps (hm := Mask.le hm rfl)
    | with_reducible apply State.fault_keeps (hm := Mask.le hm rfl)
    | (intro x; intros; try dsimp only)
    | dsimp only
    | split)

theorem State.continueOp_keeps {m : Nat} {s0 s : State} (p : Packet) (v : OpRec) (h : Keeps m s0 s)
    (hm : 213365948 &&& m = 213365948 := by exact Mask.le (by assumption) rfl) :
    Keeps m s0 (State.continueOp s p v) := by
  unfold State.continueOp
  try dsimp only
  repeat' (first
    | with_reducible assumption
    | with_reducible apply State.countDup_keeps (hm := Mask.le hm rfl)
    | with_reducible apply State.tgtRefuse_keeps (hm := Mask.le hm rfl)
    | with_reducible apply State.answerAgain_keeps (hm := Mask.le hm rfl)
    | with_reducible apply State.setOp_keeps (hm := Mask.le hm rfl)
    | with_reducible apply State.applyPart_keeps (hm := Mask.le hm rfl)
    | (intro x; intros; try dsimp only)
    | dsimp only
    | split)

theorem State.rmaRequest_keeps {m : Nat} {s0 s : State} (p : Packet) (opens : State → State) (hopens : ∀ x, Keeps m s0 x → Keeps m s0 (opens x)) (h : Keeps m s0 s)
    (hm : 213366204 &&& m = 213366204 := by exact Mask.le (by assumption) rfl) :
    Keeps m s0 (State.rmaRequest s p opens) := by
  unfold State.rmaRequest
  try dsimp only
  repeat' (first
    | with_reducible assumption
    | with_reducible apply State.ctxUse_keeps (hm := Mask.le hm rfl)
    | with_reducible apply State.dropQuarantined_keeps (hm := Mask.le hm rfl)
    | with_reducible apply State.tgtBusy_keeps (hm := Mask.le hm rfl)
    | with_reducible apply State.fault_keeps (hm := Mask.le hm rfl)
    | with_reducible apply State.classify_keeps (hm := Mask.le hm rfl)
    | with_reducible apply State.tgtRefuse_keeps (hm := Mask.le hm rfl)
    | with_reducible apply State.continueOp_keeps (hm := Mask.le hm rfl)
    | with_reducible apply hopens
    | (intro x; intros; try dsimp only)
    | dsimp only
    | split
    | refine Keeps.snd (by assumption) ?_)

theorem State.pinExpire_keeps {m : Nat} {s0 s : State} (v : OpRec) (h : Keeps m s0 s)
    (hm : 1160364 &&& m = 1160364 := by exact Mask.le (by assumption) rfl) :
    Keeps m s0 (State.pinExpire s v) := by
  unfold State.pinExpire
  try dsimp only
  repeat' (first
    | with_reducible assumption
    | with_reducible apply State.fault_keeps (hm := Mask.le hm rfl)
    | with_reducible apply State.abandonOp_keeps (hm := Mask.le hm rfl)
    | (intro x; intros; try dsimp only)
    | dsimp only
    | split)

theorem State.regWinEnd_keeps {m : Nat} {s0 s : State} (r : OpRef) (ctr : Option Nat) (val : Option Word) (h : Keeps m s0 s)
    (hm : 10695740 &&& m = 10695740 := by exact Mask.le (by assumption) rfl) :
    Keeps m s0 (State.regWinEnd s r ctr val) := by
  unfold State.regWinEnd
  try dsimp only
  repeat' (first
    | with_reducible assumption
    | with_reducible apply State.endOp_keeps (hm := Mask.le hm rfl)
    | (intro x; intros; try dsimp only)
    | dsimp only
    | split)

theorem State.mbTake_keeps {m : Nat} {s0 s : State} (a : WaitAcc) (val : Word) (result : Nat) (h : Keeps m s0 s)
    (hm : 1048576 &&& m = 1048576 := by exact Mask.le (by assumption) rfl) :
    Keeps m s0 (State.mbTake s a val result) := by
  unfold State.mbTake
  try dsimp only
  repeat' (first
    | with_reducible assumption
    | exact fun (hb : Nat.testBit _ _ = _) => (Mask.off hm hb rfl).elim
    | with_reducible exact fun _ => rfl
    | (intro x; intros; try dsimp only)
    | dsimp only
    | split
    | with_reducible apply Keeps.upd)

theorem State.jtagTake_keeps {m : Nat} {s0 s : State} (a : WaitAcc) (val : Word) (status : Nat) (h : Keeps m s0 s)
    (hm : 1048576 &&& m = 1048576 := by exact Mask.le (by assumption) rfl) :
    Keeps m s0 (State.jtagTake s a val status) := by
  unfold State.jtagTake
  try dsimp only
  repeat' (first
    | with_reducible assumption
    | exact fun (hb : Nat.testBit _ _ = _) => (Mask.off hm hb rfl).elim
    | with_reducible exact fun _ => rfl
    | (intro x; intros; try dsimp only)
    | dsimp only
    | split
    | with_reducible apply Keeps.upd)

theorem State.deliver_keeps {m : Nat} {s0 s : State} (a : WaitAcc) (val : Word) (stop : Bool) (h : Keeps m s0 s)
    (hm : 11744316 &&& m = 11744316 := by exact Mask.le (by assumption) rfl) :
    Keeps m s0 (State.deliver s a val stop) := by
  unfold State.deliver
  try dsimp only
  repeat' (first
    | with_reducible assumption
    | with_reducible apply State.regWinEnd_keeps (hm := Mask.le hm rfl)
    | with_reducible apply State.mbTake_keeps (hm := Mask.le hm rfl)
    | with_reducible apply State.jtagTake_keeps (hm := Mask.le hm rfl)
    | with_reducible apply State.coreTake_keeps (hm := Mask.le hm rfl)
    | with_reducible apply State.emit_keeps (hm := Mask.le hm rfl)
    | with_reducible apply Keeps.getD
    | (intro x; intros; try dsimp only)
    | dsimp only
    | split)

theorem State.dispatchNop_keeps {m : Nat} {s0 s : State} (z1 : Handle) (h : Keeps m s0 s)
    (hm : 209804 &&& m = 209804 := by exact Mask.le (by assumption) rfl) :
    Keeps m s0 (State.dispatchNop s z1) := by
  unfold State.dispatchNop
  try dsimp only
  repeat' (first
    | with_reducible assumption
    | with_reducible apply State.finish_keeps (hm := Mask.le hm rfl)
    | (intro x; intros; try dsimp only)
    | dsimp only
    | split)

theorem State.dispatchFence_keeps {m : Nat} {s0 s : State} (z1 : Handle) (h : Keeps m s0 s)
    (hm : 209804 &&& m = 209804 := by exact Mask.le (by assumption) rfl) :
    Keeps m s0 (State.dispatchFence s z1) := by
  unfold State.dispatchFence
  try dsimp only
  repeat' (first
    | with_reducible assumption
    | with_reducible apply State.finish_keeps (hm := Mask.le hm rfl)
    | with_reducible apply State.setHandle_keeps (hm := Mask.le hm rfl)
    | (intro x; intros; try dsimp only)
    | dsimp only
    | split)

theorem State.dispatchTriggered_keeps {m : Nat} {s0 s : State} (z1 : Handle) (h : Keeps m s0 s)
    (hm : 209804 &&& m = 209804 := by exact Mask.le (by assumption) rfl) :
    Keeps m s0 (State.dispatchTriggered s z1) := by
  unfold State.dispatchTriggered
  try dsimp only
  repeat' (first
    | with_reducible assumption
    | with_reducible apply State.hold_keeps (hm := Mask.le hm rfl)
    | with_reducible apply State.registerTrig_keeps (hm := Mask.le hm rfl)
    | with_reducible apply State.finish_keeps (hm := Mask.le hm rfl)
    | with_reducible apply State.setHandle_keeps (hm := Mask.le hm rfl)
    | (intro x; intros; try dsimp only)
    | dsimp only
    | split)

theorem State.semTake_keeps {m : Nat} {s0 s : State} (z1 : Handle) (h : Keeps m s0 s)
    (hm : 734092 &&& m = 734092 := by exact Mask.le (by assumption) rfl) :
    Keeps m s0 (State.semTake s z1) := by
  unfold State.semTake
  try dsimp only
  repeat' (first
    | with_reducible assumption
    | with_reducible apply State.semAcquire_keeps (hm := Mask.le hm rfl)
    | with_reducible apply State.complete_keeps (hm := Mask.le hm rfl)
    | (intro x; intros; try dsimp only)
    | dsimp only
    | split
    | refine Keeps.snd (by assumption) ?_)

theorem State.dispatchSemWait_keeps {m : Nat} {s0 s : State} (z1 : Handle) (h : Keeps m s0 s)
    (hm : 734092 &&& m = 734092 := by exact Mask.le (by assumption) rfl) :
    Keeps m s0 (State.dispatchSemWait s z1) := by
  unfold State.dispatchSemWait
  try dsimp only
  repeat' (first
    | with_reducible assumption
    | with_reducible apply State.hold_keeps (hm := Mask.le hm rfl)
    | with_reducible apply State.finish_keeps (hm := Mask.le hm rfl)
    | with_reducible apply State.semTake_keeps (hm := Mask.le hm rfl)
    | with_reducible apply State.setHandle_keeps (hm := Mask.le hm rfl)
    | (intro x; intros; try dsimp only)
    | dsimp only
    | split)

theorem State.dispatchSemTry_keeps {m : Nat} {s0 s : State} (z1 : Handle) (h : Keeps m s0 s)
    (hm : 734092 &&& m = 734092 := by exact Mask.le (by assumption) rfl) :
    Keeps m s0 (State.dispatchSemTry s z1) := by
  unfold State.dispatchSemTry
  try dsimp only
  repeat' (first
    | with_reducible assumption
    | with_reducible apply State.hold_keeps (hm := Mask.le hm rfl)
    | with_reducible apply State.finish_keeps (hm := Mask.le hm rfl)
    | with_reducible apply State.semAcquire_keeps (hm := Mask.le hm rfl)
    | with_reducible apply State.complete_keeps (hm := Mask.le hm rfl)
    | (intro x; intros; try dsimp only)
    | dsimp only
    | split
    | refine Keeps.snd (by assumption) ?_)

theorem State.dispatchSemRelease_keeps {m : Nat} {s0 s : State} (z1 : Handle) (h : Keeps m s0 s)
    (hm : 1815436 &&& m = 1815436 := by exact Mask.le (by assumption) rfl) :
    Keeps m s0 (State.dispatchSemRelease s z1) := by
  unfold State.dispatchSemRelease
  try dsimp only
  repeat' (first
    | with_reducible assumption
    | with_reducible apply State.hold_keeps (hm := Mask.le hm rfl)
    | with_reducible apply State.finish_keeps (hm := Mask.le hm rfl)
    | with_reducible apply State.complete_keeps (hm := Mask.le hm rfl)
    | with_reducible apply State.semFree_keeps (hm := Mask.le hm rfl)
    | with_reducible apply State.faultBy_keeps (hm := Mask.le hm rfl)
    | (intro x; intros; try dsimp only)
    | dsimp only
    | split)

theorem State.dispatch_keeps {m : Nat} {s0 s : State} (z1 : Handle) (h : Keeps m s0 s)
    (hm : 247447484 &&& m = 247447484 := by exact Mask.le (by assumption) rfl) :
    Keeps m s0 (State.dispatch s z1) := by
  unfold State.dispatch
  try dsimp only
  repeat' (first
    | with_reducible assumption
    | with_reducible apply State.stampFirst_keeps (hm := Mask.le hm rfl)
    | with_reducible apply State.ctxUse_keeps (hm := Mask.le hm rfl)
    | with_reducible apply State.dispatchNop_keeps (hm := Mask.le hm rfl)
    | with_reducible apply State.dispatchRma_keeps (hm := Mask.le hm rfl)
    | with_reducible apply State.dispatchSend_keeps (hm := Mask.le hm rfl)
    | with_reducible apply State.dispatchRecv_keeps (hm := Mask.le hm rfl)
    | with_reducible apply State.dispatchCancel_keeps (hm := Mask.le hm rfl)
    | with_reducible apply State.dispatchColl_keeps (hm := Mask.le hm rfl)
    | with_reducible apply State.dispatchFence_keeps (hm := Mask.le hm rfl)
    | with_reducible apply State.dispatchArm_keeps (hm := Mask.le hm rfl)
    | with_reducible apply State.dispatchTriggered_keeps (hm := Mask.le hm rfl)
    | with_reducible apply State.dispatchSemWait_keeps (hm := Mask.le hm rfl)
    | with_reducible apply State.dispatchSemTry_keeps (hm := Mask.le hm rfl)
    | with_reducible apply State.dispatchSemRelease_keeps (hm := Mask.le hm rfl)
    | (intro x; intros; try dsimp only)
    | dsimp only
    | split)

theorem State.dispatchHeld_keeps {m : Nat} {s0 s : State} (blk : Nat) (h : Keeps m s0 s)
    (hm : 247447484 &&& m = 247447484 := by exact Mask.le (by assumption) rfl) :
    Keeps m s0 (State.dispatchHeld s blk) := by
  unfold State.dispatchHeld
  try dsimp only
  repeat' (first
    | with_reducible assumption
    | with_reducible apply State.dispatch_keeps (hm := Mask.le hm rfl)
    | with_reducible apply Keeps.foldl
    | with_reducible apply Keeps.foldlSnd
    | with_reducible apply Keeps.foldlFst
    | (intro x; intros; try dsimp only)
    | dsimp only
    | split)

theorem State.useGather_keeps {m : Nat} {s0 s : State} (u : GatherUse) (bs : List Byte) (h : Keeps m s0 s)
    (hm : 246921148 &&& m = 246921148 := by exact Mask.le (by assumption) rfl) :
    Keeps m s0 (State.useGather s u bs) := by
  unfold State.useGather
  try dsimp only
  repeat' (first
    | with_reducible assumption
    | with_reducible apply State.presentFor_keeps (hm := Mask.le hm rfl)
    | with_reducible apply State.getServed_keeps (hm := Mask.le hm rfl)
    | with_reducible apply State.pullServed_keeps (hm := Mask.le hm rfl)
    | with_reducible apply State.cscGo_keeps (hm := Mask.le hm rfl)
    | with_reducible apply State.cscGathered_keeps (hm := Mask.le hm rfl)
    | with_reducible apply State.coreGathered_keeps (hm := Mask.le hm rfl)
    | (intro x; intros; try dsimp only)
    | dsimp only
    | split)

theorem State.fireTrig_keeps {m : Nat} {s0 s : State} (t : Trig) (h : Keeps m s0 s)
    (hm : 247447484 &&& m = 247447484 := by exact Mask.le (by assumption) rfl) :
    Keeps m s0 (State.fireTrig s t) := by
  unfold State.fireTrig
  try dsimp only
  repeat' (first
    | with_reducible assumption
    | with_reducible apply State.finish_keeps (hm := Mask.le hm rfl)
    | with_reducible apply State.dispatch_keeps (hm := Mask.le hm rfl)
    | exact fun (hb : Nat.testBit _ _ = _) => (Mask.off hm hb rfl).elim
    | with_reducible exact fun _ => rfl
    | (intro x; intros; try dsimp only)
    | dsimp only
    | split
    | with_reducible apply Keeps.upd)

theorem State.follow_keepsAny {m : Nat} {s0 s : State}  (h : Keeps m s0 s)
    (hm : 247447484 &&& m = 247447484 := by exact Mask.le (by assumption) rfl) :
    OptKeeps m s0 (State.follow? s) := by
  unfold State.follow?
  try dsimp only
  repeat' (first
    | with_reducible assumption
    | with_reducible apply State.useGather_keeps (hm := Mask.le hm rfl)
    | with_reducible apply State.dropGather_keeps (hm := Mask.le hm rfl)
    | with_reducible apply State.fireTrig_keeps (hm := Mask.le hm rfl)
    | with_reducible apply State.finish_keeps (hm := Mask.le hm rfl)
    | with_reducible apply State.complete_keeps (hm := Mask.le hm rfl)
    | with_reducible apply State.semTake_keeps (hm := Mask.le hm rfl)
    | with_reducible apply State.copySump_keeps (hm := Mask.le hm rfl)
    | with_reducible apply OptKeeps.mapState
    | with_reducible apply OptKeeps.map
    | with_reducible exact OptKeeps.none
    | with_reducible apply OptKeeps.some
    | (intro x; intros; try dsimp only)
    | dsimp only
    | split)

theorem State.followAll_keeps {m : Nat} {s0 s : State} (a : Nat) (h : Keeps m s0 s)
    (hm : 247447484 &&& m = 247447484 := by exact Mask.le (by assumption) rfl) :
    Keeps m s0 (State.followAll s a) := by
  induction a generalizing s with
  | zero =>
    try unfold State.followAll
    try dsimp only
    repeat' (first
      | with_reducible assumption
      | with_reducible apply State.follow_keepsAny (hm := Mask.le hm rfl)
      | (intro x; intros; try dsimp only)
      | dsimp only
      | split
      | refine OptKeeps.get (by assumption) ?_)
  | succ n ih =>
    try unfold State.followAll
    try dsimp only
    repeat' (first
      | with_reducible apply ih
      | with_reducible assumption
      | with_reducible apply State.follow_keepsAny (hm := Mask.le hm rfl)
      | (intro x; intros; try dsimp only)
      | dsimp only
      | split
      | refine OptKeeps.get (by assumption) ?_)

theorem State.settle_keeps {m : Nat} {s0 s : State}  (h : Keeps m s0 s)
    (hm : 247447484 &&& m = 247447484 := by exact Mask.le (by assumption) rfl) :
    Keeps m s0 (State.settle s) := by
  unfold State.settle
  try dsimp only
  repeat' (first
    | with_reducible assumption
    | with_reducible apply State.inlineGoAll_keeps (hm := Mask.le hm rfl)
    | with_reducible apply State.cscGoAll_keeps (hm := Mask.le hm rfl)
    | with_reducible apply State.fireWaiting_keeps (hm := Mask.le hm rfl)
    | with_reducible apply State.releasePosts_keeps (hm := Mask.le hm rfl)
    | with_reducible apply State.rescore_keeps (hm := Mask.le hm rfl)
    | with_reducible apply State.noteHolds_keeps (hm := Mask.le hm rfl)
    | with_reducible apply State.followAll_keeps (hm := Mask.le hm rfl)
    | (intro x; intros; try dsimp only)
    | dsimp only
    | split)

end Sys2Proof.Machine
end

