-- ==== Sys2Proof/Laws/KeepRsv.lean ====
section
/-!
SUPPORT. What the journal keep.
-/
set_option Elab.async false
set_option linter.unusedTactic false
set_option linter.unreachableTactic false
set_option linter.unusedVariables false
namespace Sys2Proof.Machine

theorem State.setDone_keeps {m : Nat} {s0 s : State} (blk : Nat) (b : Bool) (h : Keeps m s0 s)
    (hm : 4 &&& m = 4 := by exact Mask.le (by assumption) rfl) :
    Keeps m s0 (State.setDone s blk b) := by
  unfold State.setDone
  try dsimp only
  repeat' (first
    | with_reducible assumption
    | with_reducible apply State.setFld_keeps (hm := Mask.le hm rfl)
    | (intro x; intros; try dsimp only)
    | dsimp only
    | split)

theorem State.xltRelease_keeps {m : Nat} {s0 s : State}  (h : Keeps m s0 s)
    (hm : 1048580 &&& m = 1048580 := by exact Mask.le (by assumption) rfl) :
    Keeps m s0 (State.xltRelease s) := by
  unfold State.xltRelease
  try dsimp only
  repeat' (first
    | with_reducible assumption
    | with_reducible apply State.setDone_keeps (hm := Mask.le hm rfl)
    | exact fun (hb : Nat.testBit _ _ = _) => (Mask.off hm hb rfl).elim
    | with_reducible exact fun _ => rfl
    | (intro x; intros; try dsimp only)
    | dsimp only
    | split
    | with_reducible apply Keeps.upd)

theorem State.targetLost_keeps {m : Nat} {s0 s : State}  (h : Keeps m s0 s)
    (hm : 1155212 &&& m = 1155212 := by exact Mask.le (by assumption) rfl) :
    Keeps m s0 (State.targetLost s) := by
  unfold State.targetLost
  try dsimp only
  repeat' (first
    | with_reducible assumption
    | with_reducible apply State.setFlag_keeps (hm := Mask.le hm rfl)
    | with_reducible apply State.fault_keeps (hm := Mask.le hm rfl)
    | with_reducible apply State.setFld_keeps (hm := Mask.le hm rfl)
    | exact fun (hb : Nat.testBit _ _ = _) => (Mask.off hm hb rfl).elim
    | with_reducible exact fun _ => rfl
    | (intro x; intros; try dsimp only)
    | dsimp only
    | split
    | with_reducible apply Keeps.upd)

theorem State.targetError_keeps {m : Nat} {s0 s : State}  (h : Keeps m s0 s)
    (hm : 1155212 &&& m = 1155212 := by exact Mask.le (by assumption) rfl) :
    Keeps m s0 (State.targetError s) := by
  unfold State.targetError
  try dsimp only
  repeat' (first
    | with_reducible assumption
    | with_reducible apply State.fault_keeps (hm := Mask.le hm rfl)
    | with_reducible apply State.targetLost_keeps (hm := Mask.le hm rfl)
    | exact fun (hb : Nat.testBit _ _ = _) => (Mask.off hm hb rfl).elim
    | with_reducible exact fun _ => rfl
    | (intro x; intros; try dsimp only)
    | dsimp only
    | split
    | with_reducible apply Keeps.upd)

theorem State.journalAck_keeps {m : Nat} {s0 s : State} (ok : Bool) (h : Keeps m s0 s)
    (hm : 1155212 &&& m = 1155212 := by exact Mask.le (by assumption) rfl) :
    Keeps m s0 (State.journalAck s ok) := by
  unfold State.journalAck
  try dsimp only
  repeat' (first
    | with_reducible assumption
    | with_reducible apply State.sealDrain_keeps (hm := Mask.le hm rfl)
    | with_reducible apply State.targetError_keeps (hm := Mask.le hm rfl)
    | with_reducible apply State.targetWrite_keeps (hm := Mask.le hm rfl)
    | exact fun (hb : Nat.testBit _ _ = _) => (Mask.off hm hb rfl).elim
    | with_reducible exact fun _ => rfl
    | (intro x; intros; try dsimp only)
    | dsimp only
    | split
    | with_reducible apply Keeps.upd)

theorem State.rsvToSetup_keeps {m : Nat} {s0 s : State}  (h : Keeps m s0 s)
    (hm : 8196 &&& m = 8196 := by exact Mask.le (by assumption) rfl) :
    Keeps m s0 (State.rsvToSetup s) := by
  unfold State.rsvToSetup
  try dsimp only
  repeat' (first
    | with_reducible assumption
    | with_reducible apply State.setFld_keeps (hm := Mask.le hm rfl)
    | with_reducible apply State.setDone_keeps (hm := Mask.le hm rfl)
    | with_reducible apply State.setFlag_keeps (hm := Mask.le hm rfl)
    | exact fun (hb : Nat.testBit _ _ = _) => (Mask.off hm hb rfl).elim
    | with_reducible exact fun _ => rfl
    | (intro x; intros; try dsimp only)
    | dsimp only
    | split
    | with_reducible apply Keeps.upd)

theorem State.sealEnd_keeps {m : Nat} {s0 s : State} (x : Seal) (h : Keeps m s0 s)
    (hm : 1155212 &&& m = 1155212 := by exact Mask.le (by assumption) rfl) :
    Keeps m s0 (State.sealEnd s x) := by
  unfold State.sealEnd
  extract_lets s1 s2 r s3
  have h1 : Keeps m s0 s1 := by
    show Keeps m s0 (if _ then _ else _)
    split
    · exact State.fault_keeps _ _ _ h
    · exact h
  clear_value s1
  have h2 : Keeps m s0 s2 := State.ibi_keeps _ (State.setFld_keeps _ _ _ _ h1)
  clear_value s2
  have h3 : Keeps m s0 s3 := by
    refine Keeps.upd h2 ?_ ?_ ?_ ?_ ?_ ?_ ?_ ?_ ?_ ?_ ?_ ?_ ?_ ?_ ?_ ?_ ?_ ?_ ?_ ?_ <;> first | exact fun hb => (Mask.off hm hb rfl).elim | exact fun _ => rfl
  clear_value s3
  split
  · exact State.rsvToSetup_keeps h3
  · split
    · exact State.superblock_keeps _ _ _ _ (State.setFld_keeps _ _ _ _ h3)
    · exact h3

theorem State.sealFlushed_keeps {m : Nat} {s0 s : State}  (h : Keeps m s0 s)
    (hm : 1155212 &&& m = 1155212 := by exact Mask.le (by assumption) rfl) :
    Keeps m s0 (State.sealFlushed s) := by
  unfold State.sealFlushed
  try dsimp only
  repeat' (first
    | with_reducible assumption
    | with_reducible apply State.dropOther_keeps (hm := Mask.le hm rfl)
    | with_reducible apply State.emit_keeps (hm := Mask.le hm rfl)
    | with_reducible apply State.sealEnd_keeps (hm := Mask.le hm rfl)
    | exact fun (hb : Nat.testBit _ _ = _) => (Mask.off hm hb rfl).elim
    | with_reducible exact fun _ => rfl
    | (intro x; intros; try dsimp only)
    | dsimp only
    | split
    | with_reducible apply Keeps.upd)

theorem State.detach_keeps {m : Nat} {s0 s : State}  (h : Keeps m s0 s)
    (hm : 73868 &&& m = 73868 := by exact Mask.le (by assumption) rfl) :
    Keeps m s0 (State.detach s) := by
  unfold State.detach
  try dsimp only
  repeat' (first
    | with_reducible assumption
    | with_reducible apply State.sealStart_keeps (hm := Mask.le hm rfl)
    | with_reducible apply State.rsvToSetup_keeps (hm := Mask.le hm rfl)
    | (intro x; intros; try dsimp only)
    | dsimp only
    | split)

theorem State.cycleBegin_keeps {m : Nat} {s0 s : State}  (h : Keeps m s0 s)
    (hm : 8192 &&& m = 8192 := by exact Mask.le (by assumption) rfl) :
    Keeps m s0 (State.cycleBegin s) := by
  unfold State.cycleBegin
  try dsimp only
  repeat' (first
    | with_reducible assumption
    | with_reducible apply State.stage_keeps (hm := Mask.le hm rfl)
    | exact fun (hb : Nat.testBit _ _ = _) => (Mask.off hm hb rfl).elim
    | with_reducible exact fun _ => rfl
    | (intro x; intros; try dsimp only)
    | dsimp only
    | split
    | with_reducible apply Keeps.upd)

theorem State.cycleEnd_keeps {m : Nat} {s0 s : State}  (h : Keeps m s0 s)
    (hm : 73740 &&& m = 73740 := by exact Mask.le (by assumption) rfl) :
    Keeps m s0 (State.cycleEnd s) := by
  unfold State.cycleEnd
  try dsimp only
  repeat' (first
    | with_reducible assumption
    | with_reducible apply State.stage_keeps (hm := Mask.le hm rfl)
    | with_reducible apply State.setFld_keeps (hm := Mask.le hm rfl)
    | with_reducible apply State.setFlag_keeps (hm := Mask.le hm rfl)
    | with_reducible apply State.cycleBegin_keeps (hm := Mask.le hm rfl)
    | with_reducible apply State.superblock_keeps (hm := Mask.le hm rfl)
    | with_reducible apply Keeps.foldl
    | with_reducible apply Keeps.foldlSnd
    | with_reducible apply Keeps.foldlFst
    | exact fun (hb : Nat.testBit _ _ = _) => (Mask.off hm hb rfl).elim
    | with_reducible exact fun _ => rfl
    | (intro x; intros; try dsimp only)
    | dsimp only
    | split
    | with_reducible apply Keeps.upd)

theorem State.rsvStart_keeps {m : Nat} {s0 s : State}  (h : Keeps m s0 s)
    (hm : 1155212 &&& m = 1155212 := by exact Mask.le (by assumption) rfl) :
    Keeps m s0 (State.rsvStart s) := by
  unfold State.rsvStart
  try dsimp only
  repeat' (first
    | with_reducible assumption
    | with_reducible apply State.setFld_keeps (hm := Mask.le hm rfl)
    | with_reducible apply State.targetLost_keeps (hm := Mask.le hm rfl)
    | with_reducible apply State.cycleBegin_keeps (hm := Mask.le hm rfl)
    | with_reducible apply State.superblock_keeps (hm := Mask.le hm rfl)
    | exact fun (hb : Nat.testBit _ _ = _) => (Mask.off hm hb rfl).elim
    | with_reducible exact fun _ => rfl
    | (intro x; intros; try dsimp only)
    | dsimp only
    | split
    | with_reducible apply Keeps.upd)

theorem State.replayClear_keeps {m : Nat} {s0 s : State}  (h : Keeps m s0 s)
    (hm : 7936 &&& m = 7936 := by exact Mask.le (by assumption) rfl) :
    Keeps m s0 (State.replayClear s) := by
  refine Keeps.upd (State.ctxsRaw_keeps [] (fun _ => rfl) h) ?_ ?_ ?_ ?_ ?_ ?_ ?_ ?_ ?_ ?_ ?_ ?_ ?_ ?_ ?_ ?_ ?_ ?_ ?_ ?_ <;> first | exact fun hb => (Mask.off hm hb rfl).elim | exact fun _ => rfl

theorem State.replayClosed_keeps {m : Nat} {s0 s : State} (c : Nat) (h : Keeps m s0 s)
    (hm : 6912 &&& m = 6912 := by exact Mask.le (by assumption) rfl) :
    Keeps m s0 (State.replayClosed s c) := by
  refine Keeps.upd (State.ctxsRaw_keeps (SMap.erase s.ctxs c) (fun k => SMap.wf_erase k.ctxs c) h) ?_ ?_ ?_ ?_ ?_ ?_ ?_ ?_ ?_ ?_ ?_ ?_ ?_ ?_ ?_ ?_ ?_ ?_ ?_ ?_ <;> first | exact fun hb => (Mask.off hm hb rfl).elim | exact fun _ => rfl

theorem State.replayMsn_keeps {m : Nat} {s0 s : State} (c : Nat) (r : Nat) (n : Nat) (h : Keeps m s0 s)
    (hm : 512 &&& m = 512 := by exact Mask.le (by assumption) rfl) :
    Keeps m s0 (State.replayMsn s c r n) := by
  unfold State.replayMsn
  try dsimp only
  repeat' (first
    | with_reducible assumption
    | with_reducible apply State.setHandle_keeps (hm := Mask.le hm rfl)
    | with_reducible apply Keeps.foldl
    | with_reducible apply Keeps.foldlSnd
    | with_reducible apply Keeps.foldlFst
    | (intro x; intros; try dsimp only)
    | dsimp only
    | split)

theorem State.replayUnmatch_keeps {m : Nat} {s0 s : State} (c : Nat) (cls : Nat) (stamp : Nat) (src : Nat) (msn : Nat) (h : Keeps m s0 s)
    (hm : 2048 &&& m = 2048 := by exact Mask.le (by assumption) rfl) :
    Keeps m s0 (State.replayUnmatch s c cls stamp src msn) := by
  unfold State.replayUnmatch
  try dsimp only
  repeat' (first
    | with_reducible assumption
    | exact fun (hb : Nat.testBit _ _ = _) => (Mask.off hm hb rfl).elim
    | with_reducible exact fun _ => rfl
    | (intro x; intros; try dsimp only)
    | dsimp only
    | split
    | with_reducible apply Keeps.upd)

theorem State.replayMatch_keeps {m : Nat} {s0 s : State} (e : MatEntry) (h : Keeps m s0 s)
    (hm : 2048 &&& m = 2048 := by exact Mask.le (by assumption) rfl) :
    Keeps m s0 (State.replayMatch s e) := by
  unfold State.replayMatch
  try dsimp only
  repeat' (first
    | with_reducible assumption
    | with_reducible apply State.replayUnmatch_keeps (hm := Mask.le hm rfl)
    | exact fun (hb : Nat.testBit _ _ = _) => (Mask.off hm hb rfl).elim
    | with_reducible exact fun _ => rfl
    | (intro x; intros; try dsimp only)
    | dsimp only
    | split
    | with_reducible apply Keeps.upd)

theorem State.replayStore_keeps {m : Nat} {s0 s : State}  (h : Keeps m s0 s)
    (hm : 10272 &&& m = 10272 := by exact Mask.le (by assumption) rfl) :
    Keeps m s0 (State.replayStore s) := by
  unfold State.replayStore
  try dsimp only
  repeat' (first
    | with_reducible assumption
    | with_reducible apply State.matPlace_keeps (hm := Mask.le hm rfl)
    | with_reducible apply State.matAt_keeps (hm := Mask.le hm rfl)
    | with_reducible apply Keeps.foldl
    | with_reducible apply Keeps.foldlSnd
    | with_reducible apply Keeps.foldlFst
    | exact fun (hb : Nat.testBit _ _ = _) => (Mask.off hm hb rfl).elim
    | with_reducible exact fun _ => rfl
    | (intro x; intros; try dsimp only)
    | dsimp only
    | split
    | refine Keeps.snd (by assumption) ?_
    | with_reducible apply Keeps.upd)

theorem State.replayBind_keeps {m : Nat} {s0 s : State} (c : Nat) (i : Nat) (sh : Nat) (src : Nat) (pull : Bool) (msn : Nat) (len : Nat) (h : Keeps m s0 s)
    (hm : 2048 &&& m = 2048 := by exact Mask.le (by assumption) rfl) :
    Keeps m s0 (State.replayBind s c i sh src pull msn len) := by
  unfold State.replayBind
  try dsimp only
  repeat' (first
    | with_reducible assumption
    | with_reducible apply Keeps.getD
    | with_reducible apply OptKeeps.mapState
    | with_reducible apply OptKeeps.map
    | exact fun (hb : Nat.testBit _ _ = _) => (Mask.off hm hb rfl).elim
    | with_reducible exact fun _ => rfl
    | (intro x; intros; try dsimp only)
    | dsimp only
    | split
    | with_reducible apply Keeps.upd)

theorem State.replayRec_keeps {m : Nat} {s0 s : State} (a : JRec) (h : Keeps m s0 s)
    (hm : 16164 &&& m = 16164 := by exact Mask.le (by assumption) rfl) :
    Keeps m s0 (State.replayRec s a) := by
  unfold State.replayRec
  try dsimp only
  repeat' (first
    | with_reducible assumption
    | with_reducible apply State.setCtx_keeps (hm := Mask.le hm rfl)
    | with_reducible apply State.replayClosed_keeps (hm := Mask.le hm rfl)
    | with_reducible apply State.setHandle_keeps (hm := Mask.le hm rfl)
    | with_reducible apply State.dropHandle_keeps (hm := Mask.le hm rfl)
    | with_reducible apply State.setWin_keeps (hm := Mask.le hm rfl)
    | with_reducible apply State.setXltEntry_keeps (hm := Mask.le hm rfl)
    | with_reducible apply State.setPeer_keeps (hm := Mask.le hm rfl)
    | with_reducible apply State.replayMsn_keeps (hm := Mask.le hm rfl)
    | with_reducible apply State.setOp_keeps (hm := Mask.le hm rfl)
    | with_reducible apply State.setCtr_keeps (hm := Mask.le hm rfl)
    | with_reducible apply State.replayMatch_keeps (hm := Mask.le hm rfl)
    | with_reducible apply State.replayUnmatch_keeps (hm := Mask.le hm rfl)
    | with_reducible apply State.replayBind_keeps (hm := Mask.le hm rfl)
    | with_reducible apply State.setFld_keeps (hm := Mask.le hm rfl)
    | with_reducible apply Keeps.foldl
    | with_reducible apply Keeps.foldlSnd
    | with_reducible apply Keeps.foldlFst
    | with_reducible apply Keeps.getD
    | with_reducible apply OptKeeps.mapState
    | with_reducible apply OptKeeps.map
    | exact fun (hb : Nat.testBit _ _ = _) => (Mask.off hm hb rfl).elim
    | with_reducible exact fun _ => rfl
    | (intro x; intros; try dsimp only)
    | dsimp only
    | split
    | with_reducible apply Keeps.upd)

/-- Every semaphore as a replay leaves it. -/
theorem orphans_ok (n : Nat) : (SMap.getD (fun _ => Semaphore.init)
    ((List.range 64).map fun n => (n, { Semaphore.init with orphan := true })) n).Ok := by
  have h : ∀ (l : List (Nat × Semaphore)), (∀ e ∈ l, e.2.Ok) → (SMap.getD (fun _ => Semaphore.init) l n).Ok := by
    intro l hl
    unfold SMap.getD
    induction l with
    | nil => exact ⟨fun _ => rfl, fun w hw => absurd hw (List.not_mem_nil), List.nodup_nil, Nat.zero_le _⟩
    | cons e l ih =>
      simp only [SMap.find?]
      split
      · exact hl e (List.mem_cons_self ..)
      · exact ih fun x hx => hl x (List.mem_cons_of_mem _ hx)
  refine h _ fun e he => ?_
  obtain ⟨k, _, rfl⟩ := List.mem_map.1 he
  exact ⟨fun _ => rfl, fun w hw => absurd hw (List.not_mem_nil), List.nodup_nil, Nat.zero_le _⟩

theorem orphans_wf : SMap.wf (fun _ => Semaphore.init)
    ((List.range 64).map fun n => (n, { Semaphore.init with orphan := true })) = true := by decide +kernel

theorem State.orphanAll_keeps {m : Nat} {s0 s : State}  (h : Keeps m s0 s)
    (hm : 524288 &&& m = 524288 := by exact Mask.le (by assumption) rfl) :
    Keeps m s0 (State.orphanAll s) :=
  Keeps.data (s := s) rfl rfl rfl rfl (fun k => ⟨k.fmem, k.hmem, k.spdMem, k.flash, k.regs, k.ctxs, orphans_wf,
    fun n => orphans_ok n⟩) h
    (fun p hp => by cases p <;> first | exact (Mask.off hm hp rfl).elim | rfl)

theorem State.replaySends_keeps {m : Nat} {s0 s : State} (c : Nat) (r : Nat) (h : Keeps m s0 s)
    (hm : 512 &&& m = 512 := by exact Mask.le (by assumption) rfl) :
    Keeps m s0 (State.replaySends s c r) := by
  unfold State.replaySends
  try dsimp only
  repeat' (first
    | with_reducible assumption
    | with_reducible apply State.setHandle_keeps (hm := Mask.le hm rfl)
    | with_reducible apply Keeps.foldl
    | with_reducible apply Keeps.foldlSnd
    | with_reducible apply Keeps.foldlFst
    | (intro x; intros; try dsimp only)
    | dsimp only
    | split)

theorem State.replayPhase_keeps {m : Nat} {s0 s : State} (z1 : Handle) (h : Keeps m s0 s)
    (hm : 512 &&& m = 512 := by exact Mask.le (by assumption) rfl) :
    Keeps m s0 (State.replayPhase s z1) := by
  unfold State.replayPhase
  try dsimp only
  repeat' (first
    | with_reducible assumption
    | with_reducible apply State.setHandle_keeps (hm := Mask.le hm rfl)
    | (intro x; intros; try dsimp only)
    | dsimp only
    | split)

theorem State.replayCtx_keeps {m : Nat} {s0 s : State} (c : Nat) (h : Keeps m s0 s)
    (hm : 256 &&& m = 256 := by exact Mask.le (by assumption) rfl) :
    Keeps m s0 (State.replayCtx s c) := by
  unfold State.replayCtx
  try dsimp only
  repeat' (first
    | with_reducible assumption
    | with_reducible apply State.setCtx_keeps (hm := Mask.le hm rfl)
    | with_reducible apply Keeps.foldl
    | with_reducible apply Keeps.foldlSnd
    | with_reducible apply Keeps.foldlFst
    | (intro x; intros; try dsimp only)
    | dsimp only
    | split)

theorem State.replayFinish_keeps {m : Nat} {s0 s : State}  (h : Keeps m s0 s)
    (hm : 539424 &&& m = 539424 := by exact Mask.le (by assumption) rfl) :
    Keeps m s0 (State.replayFinish s) := by
  unfold State.replayFinish
  try dsimp only
  repeat' (first
    | with_reducible assumption
    | with_reducible apply State.replayStore_keeps (hm := Mask.le hm rfl)
    | with_reducible apply State.replaySends_keeps (hm := Mask.le hm rfl)
    | with_reducible apply State.replayPhase_keeps (hm := Mask.le hm rfl)
    | with_reducible apply State.orphanAll_keeps (hm := Mask.le hm rfl)
    | with_reducible apply State.replayCtx_keeps (hm := Mask.le hm rfl)
    | with_reducible apply Keeps.foldl
    | with_reducible apply Keeps.foldlSnd
    | with_reducible apply Keeps.foldlFst
    | exact fun (hb : Nat.testBit _ _ = _) => (Mask.off hm hb rfl).elim
    | with_reducible exact fun _ => rfl
    | (intro x; intros; try dsimp only)
    | dsimp only
    | split
    | with_reducible apply Keeps.upd)

theorem State.replayOne_keeps {m : Nat} {s0 s : State} (r : List Byte) (h : Keeps m s0 s)
    (hm : 16164 &&& m = 16164 := by exact Mask.le (by assumption) rfl) :
    Keeps m s0 (State.replayOne s r) := by
  unfold State.replayOne
  try dsimp only
  repeat' (first
    | with_reducible assumption
    | with_reducible apply State.replayRec_keeps (hm := Mask.le hm rfl)
    | (intro x; intros; try dsimp only)
    | dsimp only
    | split)

theorem State.replay_keeps {m : Nat} {s0 s : State}  (h : Keeps m s0 s)
    (hm : 605996 &&& m = 605996 := by exact Mask.le (by assumption) rfl) :
    Keeps m s0 (State.replay s) := by
  unfold State.replay
  try dsimp only
  repeat' (first
    | with_reducible assumption
    | with_reducible apply State.replayFinish_keeps (hm := Mask.le hm rfl)
    | with_reducible apply State.replayOne_keeps (hm := Mask.le hm rfl)
    | with_reducible apply State.replayClear_keeps (hm := Mask.le hm rfl)
    | with_reducible apply State.setFld_keeps (hm := Mask.le hm rfl)
    | with_reducible apply State.setFlag_keeps (hm := Mask.le hm rfl)
    | with_reducible apply State.cycleBegin_keeps (hm := Mask.le hm rfl)
    | with_reducible apply State.superblock_keeps (hm := Mask.le hm rfl)
    | with_reducible apply State.stage_keeps (hm := Mask.le hm rfl)
    | with_reducible apply Keeps.foldl
    | with_reducible apply Keeps.foldlSnd
    | with_reducible apply Keeps.foldlFst
    | exact fun (hb : Nat.testBit _ _ = _) => (Mask.off hm hb rfl).elim
    | with_reducible exact fun _ => rfl
    | (intro x; intros; try dsimp only)
    | dsimp only
    | split
    | with_reducible apply Keeps.upd)

theorem State.redispatch_keeps {m : Nat} {s0 s : State} (c : Nat) (h : Keeps m s0 s)
    (hm : 247447484 &&& m = 247447484 := by exact Mask.le (by assumption) rfl) :
    Keeps m s0 (State.redispatch s c) := by
  unfold State.redispatch
  try dsimp only
  repeat' (first
    | with_reducible assumption
    | with_reducible apply State.collLost_keeps (hm := Mask.le hm rfl)
    | with_reducible apply State.dispatch_keeps (hm := Mask.le hm rfl)
    | with_reducible apply Keeps.foldl
    | with_reducible apply Keeps.foldlSnd
    | with_reducible apply Keeps.foldlFst
    | (intro x; intros; try dsimp only)
    | dsimp only
    | split)

theorem State.resumePort_keeps {m : Nat} {s0 s : State} (p : Nat) (h : Keeps m s0 s)
    (hm : 247447484 &&& m = 247447484 := by exact Mask.le (by assumption) rfl) :
    Keeps m s0 (State.resumePort s p) := by
  unfold State.resumePort
  try dsimp only
  repeat' (first
    | with_reducible assumption
    | with_reducible apply State.setCtx_keeps (hm := Mask.le hm rfl)
    | with_reducible apply State.mirrorWrite_keeps (hm := Mask.le hm rfl)
    | with_reducible apply State.redispatch_keeps (hm := Mask.le hm rfl)
    | with_reducible apply State.pullSend_keeps (hm := Mask.le hm rfl)
    | with_reducible apply Keeps.foldl
    | with_reducible apply Keeps.foldlSnd
    | with_reducible apply Keeps.foldlFst
    | (intro x; intros; try dsimp only)
    | dsimp only
    | split)

theorem State.resume_keeps {m : Nat} {s0 s : State} (ports : Nat) (h : Keeps m s0 s)
    (hm : 247447484 &&& m = 247447484 := by exact Mask.le (by assumption) rfl) :
    Keeps m s0 (State.resume s ports) := by
  unfold State.resume
  try dsimp only
  repeat' (first
    | with_reducible assumption
    | with_reducible apply State.resumePort_keeps (hm := Mask.le hm rfl)
    | with_reducible apply Keeps.foldl
    | with_reducible apply Keeps.foldlSnd
    | with_reducible apply Keeps.foldlFst
    | (intro x; intros; try dsimp only)
    | dsimp only
    | split)

end Sys2Proof.Machine
end

