-- ==== Sys2Proof/Laws/KeepPorts.lean ====
section
/-!
SUPPORT. What HIF and LAN keep.
-/
set_option Elab.async false
set_option linter.unusedTactic false
set_option linter.unreachableTactic false
set_option linter.unusedVariables false
namespace Sys2Proof.Machine

theorem State.resetEnd_keeps {m : Nat} {s0 s : State} (z1 : Handle) (h : Keeps m s0 s)
    (hm : 44250012 &&& m = 44250012 := by exact Mask.le (by assumption) rfl) :
    Keeps m s0 (State.resetEnd s z1) := by
  unfold State.resetEnd
  split
  · exact State.abortInst_keeps _ _ _ _ h
  · cases s.handle? z1.ref with
    | none => exact h
    | some g => exact State.finish_keeps _ _ _ h

theorem State.muteAll_keeps {m : Nat} {s0 s : State} (c : Nat) (h : Keeps m s0 s)
    (hm : 512 &&& m = 512 := by exact Mask.le (by assumption) rfl) :
    Keeps m s0 (State.muteAll s c) := by
  unfold State.muteAll
  try dsimp only
  repeat' (first
    | with_reducible assumption
    | with_reducible apply State.setHandle_keeps (hm := Mask.le hm rfl)
    | with_reducible apply Keeps.foldl
    | with_reducible apply Keeps.foldlSnd
    | with_reducible apply Keeps.foldlFst
    | (intro x; intros; try dsimp only)
    | dsimp only
    | split)

theorem State.ctxFnReset_keeps {m : Nat} {s0 s : State} (c : Nat) (h : Keeps m s0 s)
    (hm : 247463868 &&& m = 247463868 := by exact Mask.le (by assumption) rfl) :
    Keeps m s0 (State.ctxFnReset s c) := by
  unfold State.ctxFnReset
  try dsimp only
  repeat' (first
    | with_reducible assumption
    | with_reducible apply State.muteAll_keeps (hm := Mask.le hm rfl)
    | with_reducible apply State.fillFirst_keeps (hm := Mask.le hm rfl)
    | with_reducible apply State.drain_keeps (hm := Mask.le hm rfl)
    | with_reducible apply State.setCtx_keeps (hm := Mask.le hm rfl)
    | with_reducible apply State.resetEnd_keeps (hm := Mask.le hm rfl)
    | with_reducible apply Keeps.foldl
    | with_reducible apply Keeps.foldlSnd
    | with_reducible apply Keeps.foldlFst
    | (intro x; intros; try dsimp only)
    | dsimp only
    | split)

theorem State.fnDrain_keeps {m : Nat} {s0 s : State} (p : Nat) (f : Nat) (h : Keeps m s0 s)
    (hm : 247463868 &&& m = 247463868 := by exact Mask.le (by assumption) rfl) :
    Keeps m s0 (State.fnDrain s p f) := by
  unfold State.fnDrain
  try dsimp only
  repeat' (first
    | with_reducible assumption
    | with_reducible apply State.holdChange_keeps (hm := Mask.le hm rfl)
    | with_reducible apply State.ctxFnReset_keeps (hm := Mask.le hm rfl)
    | with_reducible apply Keeps.foldl
    | with_reducible apply Keeps.foldlSnd
    | with_reducible apply Keeps.foldlFst
    | (intro x; intros; try dsimp only)
    | dsimp only
    | split)

theorem State.heldChange_keeps {m : Nat} {s0 s : State} (a : HeldChange) (h : Keeps m s0 s)
    (hm : 247463868 &&& m = 247463868 := by exact Mask.le (by assumption) rfl) :
    Keeps m s0 (State.heldChange s a) := by
  unfold State.heldChange
  try dsimp only
  repeat' (first
    | with_reducible assumption
    | with_reducible apply State.headMove_keeps (hm := Mask.le hm rfl)
    | with_reducible apply State.fnDrain_keeps (hm := Mask.le hm rfl)
    | (intro x; intros; try dsimp only)
    | dsimp only
    | split)

theorem State.releaseHeld_keeps {m : Nat} {s0 s : State}  (h : Keeps m s0 s)
    (hm : 247463868 &&& m = 247463868 := by exact Mask.le (by assumption) rfl) :
    Keeps m s0 (State.releaseHeld s) := by
  unfold State.releaseHeld
  try dsimp only
  repeat' (first
    | with_reducible assumption
    | with_reducible apply State.heldChange_keeps (hm := Mask.le hm rfl)
    | with_reducible apply Keeps.foldl
    | with_reducible apply Keeps.foldlSnd
    | with_reducible apply Keeps.foldlFst
    | exact fun (hb : Nat.testBit _ _ = _) => (Mask.off hm hb rfl).elim
    | with_reducible exact fun _ => rfl
    | (intro x; intros; try dsimp only)
    | dsimp only
    | split
    | with_reducible apply Keeps.upd)

theorem State.dropReads_keeps {m : Nat} {s0 s : State} (p : Nat) (f : Nat) (h : Keeps m s0 s)
    (hm : 128 &&& m = 128 := by exact Mask.le (by assumption) rfl) :
    Keeps m s0 (State.dropReads s p f) := by
  unfold State.dropReads
  try dsimp only
  repeat' (first
    | with_reducible assumption
    | exact fun (hb : Nat.testBit _ _ = _) => (Mask.off hm hb rfl).elim
    | with_reducible exact fun _ => rfl
    | (intro x; intros; try dsimp only)
    | dsimp only
    | split
    | with_reducible apply Keeps.upd)

theorem State.pfLost_keeps {m : Nat} {s0 s : State} (p : Nat) (h : Keeps m s0 s)
    (hm : 1156236 &&& m = 1156236 := by exact Mask.le (by assumption) rfl) :
    Keeps m s0 (State.pfLost s p) := by
  unfold State.pfLost
  try dsimp only
  repeat' (first
    | with_reducible assumption
    | with_reducible apply State.loaderEnd_keeps (hm := Mask.le hm rfl)
    | with_reducible apply State.targetLost_keeps (hm := Mask.le hm rfl)
    | (intro x; intros; try dsimp only)
    | dsimp only
    | split)

theorem State.oneFnReset_keeps {m : Nat} {s0 s : State} (p : Nat) (f : Nat) (h : Keeps m s0 s)
    (hm : 247463868 &&& m = 247463868 := by exact Mask.le (by assumption) rfl) :
    Keeps m s0 (State.oneFnReset s p f) := by
  unfold State.oneFnReset
  try dsimp only
  repeat' (first
    | with_reducible assumption
    | with_reducible apply State.setFn_keeps (hm := Mask.le hm rfl)
    | with_reducible apply State.fnDrain_keeps (hm := Mask.le hm rfl)
    | with_reducible apply State.semReset_keeps (hm := Mask.le hm rfl)
    | with_reducible apply State.dropReads_keeps (hm := Mask.le hm rfl)
    | with_reducible apply State.updateWire_keeps (hm := Mask.le hm rfl)
    | with_reducible apply State.pfLost_keeps (hm := Mask.le hm rfl)
    | (intro x; intros; try dsimp only)
    | dsimp only
    | split)

theorem State.fnReset_keeps {m : Nat} {s0 s : State} (p : Nat) (f : Nat) (h : Keeps m s0 s)
    (hm : 247463868 &&& m = 247463868 := by exact Mask.le (by assumption) rfl) :
    Keeps m s0 (State.fnReset s p f) := by
  unfold State.fnReset
  try dsimp only
  repeat' (first
    | with_reducible assumption
    | with_reducible apply State.oneFnReset_keeps (hm := Mask.le hm rfl)
    | with_reducible apply State.setHport_keeps (hm := Mask.le hm rfl)
    | with_reducible apply Keeps.foldl
    | with_reducible apply Keeps.foldlSnd
    | with_reducible apply Keeps.foldlFst
    | (intro x; intros; try dsimp only)
    | dsimp only
    | split)

theorem State.oneFnDone_keeps {m : Nat} {s0 s : State} (p : Nat) (f : Nat) (h : Keeps m s0 s)
    (hm : 132 &&& m = 132 := by exact Mask.le (by assumption) rfl) :
    Keeps m s0 (State.oneFnDone s p f) := by
  unfold State.oneFnDone
  extract_lets v i s1 hp s2 base
  have h1 : Keeps m s0 s1 := State.setFn_keeps _ _ _ h
  have h2 : Keeps m s0 s2 := State.setHport_keeps _ _ h1
  clear_value s1 s2
  split
  · exact h
  · split
    · exact h1
    · exact State.regsRaw_keeps _ (fun k => SMap.wf_filter k.regs _) h2

theorem State.linkTrain_keeps {m : Nat} {s0 s : State} (p : Nat) (flit : Bool) (h : Keeps m s0 s)
    (hm : 65672 &&& m = 65672 := by exact Mask.le (by assumption) rfl) :
    Keeps m s0 (State.linkTrain s p flit) := by
  unfold State.linkTrain
  try dsimp only
  repeat' (first
    | with_reducible assumption
    | with_reducible apply State.emit_keeps (hm := Mask.le hm rfl)
    | with_reducible apply State.setHport_keeps (hm := Mask.le hm rfl)
    | (intro x; intros; try dsimp only)
    | dsimp only
    | split)

theorem State.trainWhen_keeps {m : Nat} {s0 s : State} (p : Nat) (h : Keeps m s0 s)
    (hm : 65672 &&& m = 65672 := by exact Mask.le (by assumption) rfl) :
    Keeps m s0 (State.trainWhen s p) := by
  unfold State.trainWhen
  try dsimp only
  repeat' (first
    | with_reducible assumption
    | with_reducible apply State.setHport_keeps (hm := Mask.le hm rfl)
    | with_reducible apply State.linkTrain_keeps (hm := Mask.le hm rfl)
    | (intro x; intros; try dsimp only)
    | dsimp only
    | split)

theorem State.fnDone_keeps {m : Nat} {s0 s : State} (p : Nat) (f : Nat) (h : Keeps m s0 s)
    (hm : 65676 &&& m = 65676 := by exact Mask.le (by assumption) rfl) :
    Keeps m s0 (State.fnDone s p f) := by
  unfold State.fnDone
  try dsimp only
  repeat' (first
    | with_reducible assumption
    | with_reducible apply State.oneFnDone_keeps (hm := Mask.le hm rfl)
    | with_reducible apply State.trainWhen_keeps (hm := Mask.le hm rfl)
    | with_reducible apply Keeps.foldl
    | with_reducible apply Keeps.foldlSnd
    | with_reducible apply Keeps.foldlFst
    | (intro x; intros; try dsimp only)
    | dsimp only
    | split)

theorem State.setUp_keeps {m : Nat} {s0 s : State} (p : Nat) (k : Nat) (b : Bool) (h : Keeps m s0 s)
    (hm : 4 &&& m = 4 := by exact Mask.le (by assumption) rfl) :
    Keeps m s0 (State.setUp s p k b) := by
  unfold State.setUp
  try dsimp only
  repeat' (first
    | with_reducible assumption
    | with_reducible apply State.setFld_keeps (hm := Mask.le hm rfl)
    | (intro x; intros; try dsimp only)
    | dsimp only
    | split)

theorem State.slotEvent_keeps {m : Nat} {s0 s : State} (p : Nat) (k : Nat) (h : Keeps m s0 s)
    (hm : 196748 &&& m = 196748 := by exact Mask.le (by assumption) rfl) :
    Keeps m s0 (State.slotEvent s p k) := by
  unfold State.slotEvent
  try dsimp only
  repeat' (first
    | with_reducible assumption
    | with_reducible apply State.fwPush_keeps (hm := Mask.le hm rfl)
    | with_reducible apply State.blockVec_keeps (hm := Mask.le hm rfl)
    | (intro x; intros; try dsimp only)
    | dsimp only
    | split)

theorem State.slotBit_keeps {m : Nat} {s0 s : State} (p : Nat) (k : Nat) (bit : Field) (en : Field) (h : Keeps m s0 s)
    (hm : 196748 &&& m = 196748 := by exact Mask.le (by assumption) rfl) :
    Keeps m s0 (State.slotBit s p k bit en) := by
  unfold State.slotBit
  try dsimp only
  repeat' (first
    | with_reducible assumption
    | with_reducible apply State.setFlag_keeps (hm := Mask.le hm rfl)
    | with_reducible apply State.slotEvent_keeps (hm := Mask.le hm rfl)
    | (intro x; intros; try dsimp only)
    | dsimp only
    | split)

theorem State.dsEnd_keeps {m : Nat} {s0 s : State} (d : DsOut) (data : Word) (h : Keeps m s0 s)
    (hm : 11744444 &&& m = 11744444 := by exact Mask.le (by assumption) rfl) :
    Keeps m s0 (State.dsEnd s d data) := by
  unfold State.dsEnd
  try dsimp only
  repeat' (first
    | with_reducible assumption
    | with_reducible apply State.deliver_keeps (hm := Mask.le hm rfl)
    | exact fun (hb : Nat.testBit _ _ = _) => (Mask.off hm hb rfl).elim
    | with_reducible exact fun _ => rfl
    | (intro x; intros; try dsimp only)
    | dsimp only
    | split
    | with_reducible apply Keeps.upd)

theorem State.surpriseRemoval_keeps {m : Nat} {s0 s : State} (p : Nat) (k : Nat) (h : Keeps m s0 s)
    (hm : 11777212 &&& m = 11777212 := by exact Mask.le (by assumption) rfl) :
    Keeps m s0 (State.surpriseRemoval s p k) := by
  unfold State.surpriseRemoval
  try dsimp only
  repeat' (first
    | with_reducible assumption
    | with_reducible apply State.setFlag_keeps (hm := Mask.le hm rfl)
    | with_reducible apply State.dsEnd_keeps (hm := Mask.le hm rfl)
    | with_reducible apply State.targetLost_keeps (hm := Mask.le hm rfl)
    | (intro x; intros; try dsimp only)
    | dsimp only
    | split)

theorem State.slotInd_keeps {m : Nat} {s0 s : State} (p : Nat) (k : Nat) (attn : Bool) (o : Word) (h : Keeps m s0 s)
    (hm : 65544 &&& m = 65544 := by exact Mask.le (by assumption) rfl) :
    Keeps m s0 (State.slotInd s p k attn o) := by
  unfold State.slotInd
  try dsimp only
  repeat' (first
    | with_reducible assumption
    | with_reducible apply State.emit_keeps (hm := Mask.le hm rfl)
    | (intro x; intros; try dsimp only)
    | dsimp only
    | split)

theorem State.lowSpeed_keeps {m : Nat} {s0 s : State} (p : Nat) (h : Keeps m s0 s)
    (hm : 4 &&& m = 4 := by exact Mask.le (by assumption) rfl) :
    Keeps m s0 (State.lowSpeed s p) := by
  unfold State.lowSpeed
  try dsimp only
  repeat' (first
    | with_reducible assumption
    | with_reducible apply State.setFlag_keeps (hm := Mask.le hm rfl)
    | (intro x; intros; try dsimp only)
    | dsimp only
    | split)

theorem State.dllChange_keeps {m : Nat} {s0 s : State} (p : Nat) (k : Nat) (active : Bool) (width : Nat) (speed : Nat) (h : Keeps m s0 s)
    (hm : 11777212 &&& m = 11777212 := by exact Mask.le (by assumption) rfl) :
    Keeps m s0 (State.dllChange s p k active width speed) := by
  unfold State.dllChange
  try dsimp only
  repeat' (first
    | with_reducible assumption
    | with_reducible apply State.setFlag_keeps (hm := Mask.le hm rfl)
    | with_reducible apply State.setFld_keeps (hm := Mask.le hm rfl)
    | with_reducible apply State.lowSpeed_keeps (hm := Mask.le hm rfl)
    | with_reducible apply State.setUp_keeps (hm := Mask.le hm rfl)
    | with_reducible apply State.setSub_keeps (hm := Mask.le hm rfl)
    | with_reducible apply State.slotBit_keeps (hm := Mask.le hm rfl)
    | with_reducible apply State.surpriseRemoval_keeps (hm := Mask.le hm rfl)
    | (intro x; intros; try dsimp only)
    | dsimp only
    | split)

theorem State.deviceFound_keeps {m : Nat} {s0 s : State} (p : Nat) (k : Nat) (speed : Nat) (dev : Option SubDevice) (h : Keeps m s0 s)
    (hm : 65676 &&& m = 65676 := by exact Mask.le (by assumption) rfl) :
    Keeps m s0 (State.deviceFound s p k speed dev) := by
  unfold State.deviceFound
  try dsimp only
  repeat' (first
    | with_reducible assumption
    | with_reducible apply State.setSub_keeps (hm := Mask.le hm rfl)
    | with_reducible apply State.setFlag_keeps (hm := Mask.le hm rfl)
    | with_reducible apply State.emit_keeps (hm := Mask.le hm rfl)
    | with_reducible apply Keeps.getD
    | with_reducible apply OptKeeps.mapState
    | with_reducible apply OptKeeps.map
    | (intro x; intros; try dsimp only)
    | dsimp only
    | split)

theorem State.subUp_keeps {m : Nat} {s0 s : State} (p : Nat) (k : Nat) (width : Nat) (speed : Nat) (dev : Option SubDevice) (h : Keeps m s0 s)
    (hm : 11777212 &&& m = 11777212 := by exact Mask.le (by assumption) rfl) :
    Keeps m s0 (State.subUp s p k width speed dev) := by
  unfold State.subUp
  try dsimp only
  repeat' (first
    | with_reducible assumption
    | with_reducible apply State.linkTrain_keeps (hm := Mask.le hm rfl)
    | with_reducible apply State.setFlag_keeps (hm := Mask.le hm rfl)
    | with_reducible apply State.deviceFound_keeps (hm := Mask.le hm rfl)
    | with_reducible apply State.dllChange_keeps (hm := Mask.le hm rfl)
    | with_reducible apply State.setHport_keeps (hm := Mask.le hm rfl)
    | (intro x; intros; try dsimp only)
    | dsimp only
    | split)

theorem State.linkTrained_keeps {m : Nat} {s0 s : State} (p : Nat) (k : Nat) (width : Nat) (speed : Nat) (dev : Option SubDevice) (h : Keeps m s0 s)
    (hm : 11777212 &&& m = 11777212 := by exact Mask.le (by assumption) rfl) :
    Keeps m s0 (State.linkTrained s p k width speed dev) := by
  unfold State.linkTrained
  try dsimp only
  repeat' (first
    | with_reducible assumption
    | with_reducible apply State.linkTrain_keeps (hm := Mask.le hm rfl)
    | with_reducible apply State.setFlag_keeps (hm := Mask.le hm rfl)
    | with_reducible apply State.setHport_keeps (hm := Mask.le hm rfl)
    | with_reducible apply State.setFld_keeps (hm := Mask.le hm rfl)
    | with_reducible apply State.setUp_keeps (hm := Mask.le hm rfl)
    | with_reducible apply State.updateWire_keeps (hm := Mask.le hm rfl)
    | with_reducible apply State.subUp_keeps (hm := Mask.le hm rfl)
    | (intro x; intros; try dsimp only)
    | dsimp only
    | split)

theorem State.portExit_keeps {m : Nat} {s0 s : State} (p : Nat) (h : Keeps m s0 s)
    (hm : 65676 &&& m = 65676 := by exact Mask.le (by assumption) rfl) :
    Keeps m s0 (State.portExit s p) := by
  unfold State.portExit
  try dsimp only
  repeat' (first
    | with_reducible assumption
    | with_reducible apply State.trainWhen_keeps (hm := Mask.le hm rfl)
    | with_reducible apply State.setFlag_keeps (hm := Mask.le hm rfl)
    | (intro x; intros; try dsimp only)
    | dsimp only
    | split)

theorem State.portReset_keeps {m : Nat} {s0 s : State} (p : Nat) (h : Keeps m s0 s)
    (hm : 247463868 &&& m = 247463868 := by exact Mask.le (by assumption) rfl) :
    Keeps m s0 (State.portReset s p) := by
  unfold State.portReset
  try dsimp only
  repeat' (first
    | with_reducible assumption
    | with_reducible apply State.fnReset_keeps (hm := Mask.le hm rfl)
    | with_reducible apply State.setHport_keeps (hm := Mask.le hm rfl)
    | with_reducible apply State.dllChange_keeps (hm := Mask.le hm rfl)
    | with_reducible apply State.setFld_keeps (hm := Mask.le hm rfl)
    | with_reducible apply State.setFlag_keeps (hm := Mask.le hm rfl)
    | with_reducible apply Keeps.foldl
    | with_reducible apply Keeps.foldlSnd
    | with_reducible apply Keeps.foldlFst
    | (intro x; intros; try dsimp only)
    | dsimp only
    | split)

theorem State.perstLow_keeps {m : Nat} {s0 s : State} (p : Nat) (h : Keeps m s0 s)
    (hm : 247463868 &&& m = 247463868 := by exact Mask.le (by assumption) rfl) :
    Keeps m s0 (State.perstLow s p) := by
  unfold State.perstLow
  try dsimp only
  repeat' (first
    | with_reducible assumption
    | with_reducible apply State.portReset_keeps (hm := Mask.le hm rfl)
    | with_reducible apply State.setHport_keeps (hm := Mask.le hm rfl)
    | with_reducible apply State.setFn_keeps (hm := Mask.le hm rfl)
    | with_reducible apply Keeps.foldl
    | with_reducible apply Keeps.foldlSnd
    | with_reducible apply Keeps.foldlFst
    | (intro x; intros; try dsimp only)
    | dsimp only
    | split)

theorem State.perstHigh_keeps {m : Nat} {s0 s : State} (p : Nat) (h : Keeps m s0 s)
    (hm : 65672 &&& m = 65672 := by exact Mask.le (by assumption) rfl) :
    Keeps m s0 (State.perstHigh s p) := by
  unfold State.perstHigh
  try dsimp only
  repeat' (first
    | with_reducible assumption
    | with_reducible apply State.setHport_keeps (hm := Mask.le hm rfl)
    | with_reducible apply State.trainWhen_keeps (hm := Mask.le hm rfl)
    | (intro x; intros; try dsimp only)
    | dsimp only
    | split)

theorem State.writeVfEnable_keeps {m : Nat} {s0 s : State} (p : Nat) (en : Bool) (n : Nat) (h : Keeps m s0 s)
    (hm : 247463868 &&& m = 247463868 := by exact Mask.le (by assumption) rfl) :
    Keeps m s0 (State.writeVfEnable s p en n) := by
  unfold State.writeVfEnable
  try dsimp only
  repeat' (first
    | with_reducible assumption
    | with_reducible apply State.setHport_keeps (hm := Mask.le hm rfl)
    | with_reducible apply State.oneFnDone_keeps (hm := Mask.le hm rfl)
    | with_reducible apply State.oneFnReset_keeps (hm := Mask.le hm rfl)
    | with_reducible apply Keeps.foldl
    | with_reducible apply Keeps.foldlSnd
    | with_reducible apply Keeps.foldlFst
    | (intro x; intros; try dsimp only)
    | dsimp only
    | split)

theorem State.cfgRequest_keeps {m : Nat} {s0 s : State} (p : Nat) (f : Nat) (req : CfgReq) (h : Keeps m s0 s)
    (hm : 247463868 &&& m = 247463868 := by exact Mask.le (by assumption) rfl) :
    Keeps m s0 (State.cfgRequest s p f req) := by
  unfold State.cfgRequest
  try dsimp only
  repeat' (first
    | with_reducible assumption
    | with_reducible apply State.emit_keeps (hm := Mask.le hm rfl)
    | with_reducible apply State.setFn_keeps (hm := Mask.le hm rfl)
    | with_reducible apply State.writeVfEnable_keeps (hm := Mask.le hm rfl)
    | with_reducible apply State.setHport_keeps (hm := Mask.le hm rfl)
    | with_reducible apply State.cfgStore_keeps (hm := Mask.le hm rfl)
    | (intro x; intros; try dsimp only)
    | dsimp only
    | split)

theorem State.msixEnable_keeps {m : Nat} {s0 s : State} (p : Nat) (f : Nat) (en : Bool) (h : Keeps m s0 s)
    (hm : 65676 &&& m = 65676 := by exact Mask.le (by assumption) rfl) :
    Keeps m s0 (State.msixEnable s p f en) := by
  unfold State.msixEnable
  try dsimp only
  repeat' (first
    | with_reducible assumption
    | with_reducible apply State.setFn_keeps (hm := Mask.le hm rfl)
    | with_reducible apply State.updateWire_keeps (hm := Mask.le hm rfl)
    | with_reducible apply State.flushPending_keeps (hm := Mask.le hm rfl)
    | (intro x; intros; try dsimp only)
    | dsimp only
    | split)

theorem State.intxDisable_keeps {m : Nat} {s0 s : State} (p : Nat) (dis : Bool) (h : Keeps m s0 s)
    (hm : 65672 &&& m = 65672 := by exact Mask.le (by assumption) rfl) :
    Keeps m s0 (State.intxDisable s p dis) := by
  unfold State.intxDisable
  try dsimp only
  repeat' (first
    | with_reducible assumption
    | with_reducible apply State.updateWire_keeps (hm := Mask.le hm rfl)
    | with_reducible apply State.setFn_keeps (hm := Mask.le hm rfl)
    | (intro x; intros; try dsimp only)
    | dsimp only
    | split)

theorem State.fnReady_keeps {m : Nat} {s0 s : State} (p : Nat) (f : Nat) (h : Keeps m s0 s)
    (hm : 128 &&& m = 128 := by exact Mask.le (by assumption) rfl) :
    Keeps m s0 (State.fnReady s p f) := by
  unfold State.fnReady
  try dsimp only
  repeat' (first
    | with_reducible assumption
    | with_reducible apply State.setFn_keeps (hm := Mask.le hm rfl)
    | (intro x; intros; try dsimp only)
    | dsimp only
    | split)

theorem State.aer_keeps {m : Nat} {s0 s : State} (p : Nat) (uncorrectable : Bool) (h : Keeps m s0 s)
    (hm : 1155244 &&& m = 1155244 := by exact Mask.le (by assumption) rfl) :
    Keeps m s0 (State.aer s p uncorrectable) := by
  unfold State.aer
  try dsimp only
  repeat' (first
    | with_reducible assumption
    | with_reducible apply State.fresh_keeps (hm := Mask.le hm rfl)
    | with_reducible apply State.setHport_keeps (hm := Mask.le hm rfl)
    | with_reducible apply State.fault_keeps (hm := Mask.le hm rfl)
    | (intro x; intros; try dsimp only)
    | dsimp only
    | split
    | refine Keeps.snd (by assumption) ?_)

theorem State.slotOff_keeps {m : Nat} {s0 s : State} (p : Nat) (k : Nat) (h : Keeps m s0 s)
    (hm : 65672 &&& m = 65672 := by exact Mask.le (by assumption) rfl) :
    Keeps m s0 (State.slotOff s p k) := by
  unfold State.slotOff
  try dsimp only
  repeat' (first
    | with_reducible assumption
    | with_reducible apply State.emit_keeps (hm := Mask.le hm rfl)
    | with_reducible apply State.setSub_keeps (hm := Mask.le hm rfl)
    | (intro x; intros; try dsimp only)
    | dsimp only
    | split)

theorem State.slotPerstLow_keeps {m : Nat} {s0 s : State} (p : Nat) (k : Nat) (h : Keeps m s0 s)
    (hm : 65672 &&& m = 65672 := by exact Mask.le (by assumption) rfl) :
    Keeps m s0 (State.slotPerstLow s p k) := by
  unfold State.slotPerstLow
  try dsimp only
  repeat' (first
    | with_reducible assumption
    | with_reducible apply State.emit_keeps (hm := Mask.le hm rfl)
    | with_reducible apply State.setSub_keeps (hm := Mask.le hm rfl)
    | (intro x; intros; try dsimp only)
    | dsimp only
    | split)

theorem State.powerOff_keeps {m : Nat} {s0 s : State} (p : Nat) (k : Nat) (h : Keeps m s0 s)
    (hm : 65676 &&& m = 65676 := by exact Mask.le (by assumption) rfl) :
    Keeps m s0 (State.powerOff s p k) := by
  unfold State.powerOff
  try dsimp only
  repeat' (first
    | with_reducible assumption
    | with_reducible apply State.setFlag_keeps (hm := Mask.le hm rfl)
    | with_reducible apply State.slotPerstLow_keeps (hm := Mask.le hm rfl)
    | with_reducible apply State.setSub_keeps (hm := Mask.le hm rfl)
    | (intro x; intros; try dsimp only)
    | dsimp only
    | split)

theorem State.powerOn_keeps {m : Nat} {s0 s : State} (p : Nat) (k : Nat) (h : Keeps m s0 s)
    (hm : 65672 &&& m = 65672 := by exact Mask.le (by assumption) rfl) :
    Keeps m s0 (State.powerOn s p k) := by
  unfold State.powerOn
  try dsimp only
  repeat' (first
    | with_reducible assumption
    | with_reducible apply State.emit_keeps (hm := Mask.le hm rfl)
    | with_reducible apply State.setSub_keeps (hm := Mask.le hm rfl)
    | (intro x; intros; try dsimp only)
    | dsimp only
    | split)

theorem State.presence_keeps {m : Nat} {s0 s : State} (p : Nat) (k : Nat) (present : Bool) (h : Keeps m s0 s)
    (hm : 11777212 &&& m = 11777212 := by exact Mask.le (by assumption) rfl) :
    Keeps m s0 (State.presence s p k present) := by
  unfold State.presence
  try dsimp only
  repeat' (first
    | with_reducible assumption
    | with_reducible apply State.setFlag_keeps (hm := Mask.le hm rfl)
    | with_reducible apply State.slotBit_keeps (hm := Mask.le hm rfl)
    | with_reducible apply State.surpriseRemoval_keeps (hm := Mask.le hm rfl)
    | (intro x; intros; try dsimp only)
    | dsimp only
    | split)

theorem State.slotFault_keeps {m : Nat} {s0 s : State} (p : Nat) (k : Nat) (h : Keeps m s0 s)
    (hm : 11777212 &&& m = 11777212 := by exact Mask.le (by assumption) rfl) :
    Keeps m s0 (State.slotFault s p k) := by
  unfold State.slotFault
  try dsimp only
  repeat' (first
    | with_reducible assumption
    | with_reducible apply State.slotBit_keeps (hm := Mask.le hm rfl)
    | with_reducible apply State.slotOff_keeps (hm := Mask.le hm rfl)
    | with_reducible apply State.slotPerstLow_keeps (hm := Mask.le hm rfl)
    | with_reducible apply State.setFlag_keeps (hm := Mask.le hm rfl)
    | with_reducible apply State.surpriseRemoval_keeps (hm := Mask.le hm rfl)
    | (intro x; intros; try dsimp only)
    | dsimp only
    | split)

theorem State.attention_keeps {m : Nat} {s0 s : State} (p : Nat) (k : Nat) (h : Keeps m s0 s)
    (hm : 196748 &&& m = 196748 := by exact Mask.le (by assumption) rfl) :
    Keeps m s0 (State.attention s p k) := by
  unfold State.attention
  try dsimp only
  repeat' (first
    | with_reducible assumption
    | with_reducible apply State.slotBit_keeps (hm := Mask.le hm rfl)
    | (intro x; intros; try dsimp only)
    | dsimp only
    | split)

theorem State.dsIssue_keeps {m : Nat} {s0 s : State} (a : WaitAcc) (p : Nat) (k : Nat) (kind : DsKind) (val : Word) (h : Keeps m s0 s)
    (hm : 11744444 &&& m = 11744444 := by exact Mask.le (by assumption) rfl) :
    Keeps m s0 (State.dsIssue s a p k kind val) := by
  unfold State.dsIssue
  try dsimp only
  repeat' (first
    | with_reducible assumption
    | with_reducible apply State.dsEnd_keeps (hm := Mask.le hm rfl)
    | with_reducible apply State.setFlag_keeps (hm := Mask.le hm rfl)
    | with_reducible apply State.emit_keeps (hm := Mask.le hm rfl)
    | exact fun (hb : Nat.testBit _ _ = _) => (Mask.off hm hb rfl).elim
    | with_reducible exact fun _ => rfl
    | (intro x; intros; try dsimp only)
    | dsimp only
    | split
    | with_reducible apply Keeps.upd)

theorem State.dsFail_keeps {m : Nat} {s0 s : State} (d : DsOut) (h : Keeps m s0 s)
    (hm : 11744444 &&& m = 11744444 := by exact Mask.le (by assumption) rfl) :
    Keeps m s0 (State.dsFail s d) := by
  unfold State.dsFail
  try dsimp only
  repeat' (first
    | with_reducible assumption
    | with_reducible apply State.dsEnd_keeps (hm := Mask.le hm rfl)
    | with_reducible apply State.setFlag_keeps (hm := Mask.le hm rfl)
    | (intro x; intros; try dsimp only)
    | dsimp only
    | split)

theorem State.dsComplete_keeps {m : Nat} {s0 s : State} (p : Nat) (k : Nat) (cfg : Bool) (r : DsResult) (h : Keeps m s0 s)
    (hm : 11777212 &&& m = 11777212 := by exact Mask.le (by assumption) rfl) :
    Keeps m s0 (State.dsComplete s p k cfg r) := by
  unfold State.dsComplete
  cases s.hif.ds with
  | none => exact h
  | some d =>
    dsimp only
    by_cases hp : d.p ≠ p ∨ d.s ≠ k ∨ d.kind.isCfg ≠ cfg
    · rw [if_pos hp]; exact h
    · rw [if_neg hp]
      cases r with
      | ok data => exact State.dsEnd_keeps _ _ h
      | unsupported => exact State.dsFail_keeps _ h
      | abort => exact State.dsFail_keeps _ h
      | retryStatus => exact State.dsFail_keeps _ h
      | poisoned =>
        refine State.dsFail_keeps _ ?_
        by_cases ht : s.targetOn p k
        · rw [if_pos ht]; exact State.targetError_keeps h
        · rw [if_neg ht]; exact h

theorem State.dsInbound_keeps {m : Nat} {s0 s : State} (p : Nat) (k : Nat) (kind : DsInbound) (h : Keeps m s0 s)
    (hm : 196748 &&& m = 196748 := by exact Mask.le (by assumption) rfl) :
    Keeps m s0 (State.dsInbound s p k kind) := by
  unfold State.dsInbound
  try dsimp only
  repeat' (first
    | with_reducible assumption
    | with_reducible apply State.slotBit_keeps (hm := Mask.le hm rfl)
    | with_reducible apply State.emit_keeps (hm := Mask.le hm rfl)
    | (intro x; intros; try dsimp only)
    | dsimp only
    | split)

theorem State.readDone_keeps {m : Nat} {s0 s : State} (p : Nat) (tag : Nat) (data : List Byte) (h : Keeps m s0 s)
    (hm : 65664 &&& m = 65664 := by exact Mask.le (by assumption) rfl) :
    Keeps m s0 (State.readDone s p tag data) := by
  unfold State.readDone
  try dsimp only
  repeat' (first
    | with_reducible assumption
    | with_reducible apply State.pmcEv_keeps (hm := Mask.le hm rfl)
    | exact fun (hb : Nat.testBit _ _ = _) => (Mask.off hm hb rfl).elim
    | with_reducible exact fun _ => rfl
    | (intro x; intros; try dsimp only)
    | dsimp only
    | split
    | with_reducible apply Keeps.upd)

theorem State.cscUnread_keeps {m : Nat} {s0 s : State} (z1 : HandleRef) (dest : Nat) (seg : Nat) (h : Keeps m s0 s)
    (hm : 33554432 &&& m = 33554432 := by exact Mask.le (by assumption) rfl) :
    Keeps m s0 (State.cscUnread s z1 dest seg) := by
  unfold State.cscUnread
  try dsimp only
  repeat' (first
    | with_reducible assumption
    | with_reducible apply State.setInst_keeps (hm := Mask.le hm rfl)
    | (intro x; intros; try dsimp only)
    | dsimp only
    | split)

theorem State.otherLost_keeps {m : Nat} {s0 s : State} (p : Nat) (tag : Nat) (h : Keeps m s0 s)
    (hm : 1156492 &&& m = 1156492 := by exact Mask.le (by assumption) rfl) :
    Keeps m s0 (State.otherLost s p tag) := by
  unfold State.otherLost
  try dsimp only
  repeat' (first
    | with_reducible assumption
    | with_reducible apply State.fault_keeps (hm := Mask.le hm rfl)
    | with_reducible apply State.setCtx_keeps (hm := Mask.le hm rfl)
    | with_reducible apply State.loaderEnd_keeps (hm := Mask.le hm rfl)
    | with_reducible apply State.sealFlush_keeps (hm := Mask.le hm rfl)
    | exact fun (hb : Nat.testBit _ _ = _) => (Mask.off hm hb rfl).elim
    | with_reducible exact fun _ => rfl
    | (intro x; intros; try dsimp only)
    | dsimp only
    | split
    | with_reducible apply Keeps.upd)

theorem State.readLost_keeps {m : Nat} {s0 s : State} (p : Nat) (tag : Nat) (h : Keeps m s0 s)
    (hm : 35366284 &&& m = 35366284 := by exact Mask.le (by assumption) rfl) :
    Keeps m s0 (State.readLost s p tag) := by
  unfold State.readLost
  try dsimp only
  repeat' (first
    | with_reducible assumption
    | with_reducible apply State.otherLost_keeps (hm := Mask.le hm rfl)
    | with_reducible apply State.fault_keeps (hm := Mask.le hm rfl)
    | with_reducible apply State.dropGather_keeps (hm := Mask.le hm rfl)
    | with_reducible apply State.cscUnread_keeps (hm := Mask.le hm rfl)
    | with_reducible apply State.coreUnread_keeps (hm := Mask.le hm rfl)
    | with_reducible apply OptKeeps.mapState
    | with_reducible apply OptKeeps.map
    | exact fun (hb : Nat.testBit _ _ = _) => (Mask.off hm hb rfl).elim
    | with_reducible exact fun _ => rfl
    | (intro x; intros; try dsimp only)
    | dsimp only
    | split
    | with_reducible apply Keeps.upd)

theorem State.lanEvent_keeps {m : Nat} {s0 s : State} (l : Nat) (k : Nat) (h : Keeps m s0 s)
    (hm : 1155212 &&& m = 1155212 := by exact Mask.le (by assumption) rfl) :
    Keeps m s0 (State.lanEvent s l k) := by
  unfold State.lanEvent
  try dsimp only
  repeat' (first
    | with_reducible assumption
    | with_reducible apply State.fault_keeps (hm := Mask.le hm rfl)
    | (intro x; intros; try dsimp only)
    | dsimp only
    | split)

theorem State.maybeBringUp_keeps {m : Nat} {s0 s : State} (p : Nat) (h : Keeps m s0 s)
    (hm : 12648492 &&& m = 12648492 := by exact Mask.le (by assumption) rfl) :
    Keeps m s0 (State.maybeBringUp s p) := by
  unfold State.maybeBringUp
  try dsimp only
  repeat' (first
    | with_reducible assumption
    | with_reducible apply State.bringUp_keeps (hm := Mask.le hm rfl)
    | (intro x; intros; try dsimp only)
    | dsimp only
    | split)

theorem State.laneReset_keeps {m : Nat} {s0 s : State} (l : Nat) (h : Keeps m s0 s)
    (hm : 15835292 &&& m = 15835292 := by exact Mask.le (by assumption) rfl) :
    Keeps m s0 (State.laneReset s l) := by
  unfold State.laneReset
  try dsimp only
  repeat' (first
    | with_reducible assumption
    | with_reducible apply State.linkDown_keeps (hm := Mask.le hm rfl)
    | with_reducible apply State.laneTo_keeps (hm := Mask.le hm rfl)
    | with_reducible apply State.setFld_keeps (hm := Mask.le hm rfl)
    | with_reducible apply State.setLane_keeps (hm := Mask.le hm rfl)
    | (intro x; intros; try dsimp only)
    | dsimp only
    | split)

theorem State.laneExit_keeps {m : Nat} {s0 s : State} (z1 : Nat) (t : Word) (l : Nat) (h : Keeps m s0 s)
    (hm : 13754540 &&& m = 13754540 := by exact Mask.le (by assumption) rfl) :
    Keeps m s0 (State.laneExit s z1 t l) := by
  unfold State.laneExit
  try dsimp only
  repeat' (first
    | with_reducible assumption
    | with_reducible apply State.faultBy_keeps (hm := Mask.le hm rfl)
    | with_reducible apply State.logIgnored_keeps (hm := Mask.le hm rfl)
    | with_reducible apply State.maybeBringUp_keeps (hm := Mask.le hm rfl)
    | with_reducible apply State.laneTo_keeps (hm := Mask.le hm rfl)
    | (intro x; intros; try dsimp only)
    | dsimp only
    | split)

theorem State.laneRetire_keeps {m : Nat} {s0 s : State} (l : Nat) (h : Keeps m s0 s)
    (hm : 15835324 &&& m = 15835324 := by exact Mask.le (by assumption) rfl) :
    Keeps m s0 (State.laneRetire s l) := by
  unfold State.laneRetire
  try dsimp only
  repeat' (first
    | with_reducible assumption
    | with_reducible apply State.laneRetired_keeps (hm := Mask.le hm rfl)
    | with_reducible apply State.portRetire_keeps (hm := Mask.le hm rfl)
    | with_reducible apply State.setLport_keeps (hm := Mask.le hm rfl)
    | with_reducible apply State.laneTrain_keeps (hm := Mask.le hm rfl)
    | with_reducible apply State.requestReset_keeps (hm := Mask.le hm rfl)
    | (intro x; intros; try dsimp only)
    | dsimp only
    | split)

theorem State.ownRequest_keeps {m : Nat} {s0 s : State} (l : Nat) (h : Keeps m s0 s)
    (hm : 4194336 &&& m = 4194336 := by exact Mask.le (by assumption) rfl) :
    Keeps m s0 (State.ownRequest s l) := by
  unfold State.ownRequest
  try dsimp only
  repeat' (first
    | with_reducible assumption
    | with_reducible apply State.fresh_keeps (hm := Mask.le hm rfl)
    | with_reducible apply State.setLane_keeps (hm := Mask.le hm rfl)
    | (intro x; intros; try dsimp only)
    | dsimp only
    | split
    | refine Keeps.snd (by assumption) ?_)

theorem State.peerX1_keeps {m : Nat} {s0 s : State} (l : Nat) (k : Nat) (h : Keeps m s0 s)
    (hm : 15835292 &&& m = 15835292 := by exact Mask.le (by assumption) rfl) :
    Keeps m s0 (State.peerX1 s l k).2 := by
  unfold State.peerX1
  try dsimp only
  repeat' (first
    | with_reducible assumption
    | with_reducible apply State.portRetire_keeps (hm := Mask.le hm rfl)
    | with_reducible apply State.laneTo_keeps (hm := Mask.le hm rfl)
    | with_reducible apply State.setLport_keeps (hm := Mask.le hm rfl)
    | with_reducible apply State.setLane_keeps (hm := Mask.le hm rfl)
    | with_reducible apply Keeps.getD
    | (intro x; intros; try dsimp only)
    | dsimp only
    | split)

theorem State.frameIn_keeps {m : Nat} {s0 s : State} (l : Nat) (f : TrainFrame) (h : Keeps m s0 s)
    (hm : 4259884 &&& m = 4259884 := by exact Mask.le (by assumption) rfl) :
    Keeps m s0 (State.frameIn s l f) := by
  unfold State.frameIn
  try dsimp only
  repeat' (first
    | with_reducible assumption
    | with_reducible apply State.setFlag_keeps (hm := Mask.le hm rfl)
    | with_reducible apply State.setFld_keeps (hm := Mask.le hm rfl)
    | with_reducible apply State.setLane_keeps (hm := Mask.le hm rfl)
    | with_reducible apply State.laneAlign_keeps (hm := Mask.le hm rfl)
    | with_reducible apply State.ownRequest_keeps (hm := Mask.le hm rfl)
    | (intro x; intros; try dsimp only)
    | dsimp only
    | split)

theorem State.trainFrame_keeps {m : Nat} {s0 s : State} (l : Nat) (f : TrainFrame) (h : Keeps m s0 s)
    (hm : 15835324 &&& m = 15835324 := by exact Mask.le (by assumption) rfl) :
    Keeps m s0 (State.trainFrame s l f) := by
  unfold State.trainFrame
  try dsimp only
  repeat' (first
    | with_reducible assumption
    | with_reducible apply State.linkReset_keeps (hm := Mask.le hm rfl)
    | with_reducible apply State.peerX1_keeps (hm := Mask.le hm rfl)
    | with_reducible apply State.frameIn_keeps (hm := Mask.le hm rfl)
    | (intro x; intros; try dsimp only)
    | dsimp only
    | split
    | refine Keeps.snd (by assumption) ?_)

theorem State.signalUp_keeps {m : Nat} {s0 s : State} (l : Nat) (h : Keeps m s0 s)
    (hm : 4194308 &&& m = 4194308 := by exact Mask.le (by assumption) rfl) :
    Keeps m s0 (State.signalUp s l) := by
  unfold State.signalUp
  try dsimp only
  repeat' (first
    | with_reducible assumption
    | with_reducible apply State.setLane_keeps (hm := Mask.le hm rfl)
    | with_reducible apply State.setFlag_keeps (hm := Mask.le hm rfl)
    | (intro x; intros; try dsimp only)
    | dsimp only
    | split)

theorem State.signalDown_keeps {m : Nat} {s0 s : State} (l : Nat) (h : Keeps m s0 s)
    (hm : 15835324 &&& m = 15835324 := by exact Mask.le (by assumption) rfl) :
    Keeps m s0 (State.signalDown s l) := by
  unfold State.signalDown
  try dsimp only
  repeat' (first
    | with_reducible assumption
    | with_reducible apply State.setFlag_keeps (hm := Mask.le hm rfl)
    | with_reducible apply State.linkReset_keeps (hm := Mask.le hm rfl)
    | with_reducible apply State.lanEvent_keeps (hm := Mask.le hm rfl)
    | (intro x; intros; try dsimp only)
    | dsimp only
    | split)

theorem State.trainLimit_keeps {m : Nat} {s0 s : State} (l : Nat) (h : Keeps m s0 s)
    (hm : 5349548 &&& m = 5349548 := by exact Mask.le (by assumption) rfl) :
    Keeps m s0 (State.trainLimit s l) := by
  unfold State.trainLimit
  try dsimp only
  repeat' (first
    | with_reducible assumption
    | with_reducible apply State.lanEvent_keeps (hm := Mask.le hm rfl)
    | with_reducible apply State.laneTrain_keeps (hm := Mask.le hm rfl)
    | with_reducible apply State.setFld_keeps (hm := Mask.le hm rfl)
    | (intro x; intros; try dsimp only)
    | dsimp only
    | split)

theorem State.adapt_keeps {m : Nat} {s0 s : State} (l : Nat) (h : Keeps m s0 s)
    (hm : 36 &&& m = 36 := by exact Mask.le (by assumption) rfl) :
    Keeps m s0 (State.adapt s l) := by
  unfold State.adapt
  try dsimp only
  repeat' (first
    | with_reducible assumption
    | with_reducible apply State.fresh_keeps (hm := Mask.le hm rfl)
    | with_reducible apply State.setFld_keeps (hm := Mask.le hm rfl)
    | (intro x; intros; try dsimp only)
    | dsimp only
    | split
    | refine Keeps.snd (by assumption) ?_)

theorem State.eyeStore_keeps {m : Nat} {s0 s : State} (l : Nat) (ef : Int) (h : Keeps m s0 s)
    (hm : 5349516 &&& m = 5349516 := by exact Mask.le (by assumption) rfl) :
    Keeps m s0 (State.eyeStore s l ef) := by
  unfold State.eyeStore
  try dsimp only
  repeat' (first
    | with_reducible assumption
    | with_reducible apply State.setFld_keeps (hm := Mask.le hm rfl)
    | with_reducible apply State.setLane_keeps (hm := Mask.le hm rfl)
    | with_reducible apply State.setFlag_keeps (hm := Mask.le hm rfl)
    | with_reducible apply State.lanEvent_keeps (hm := Mask.le hm rfl)
    | with_reducible apply State.bump_keeps (hm := Mask.le hm rfl)
    | (intro x; intros; try dsimp only)
    | dsimp only
    | split)

theorem State.eyeWindow_keeps {m : Nat} {s0 s : State} (l : Nat) (means : List Int) (sigmas : List Nat) (h : Keeps m s0 s)
    (hm : 5349548 &&& m = 5349548 := by exact Mask.le (by assumption) rfl) :
    Keeps m s0 (State.eyeWindow s l means sigmas) := by
  unfold State.eyeWindow
  try dsimp only
  repeat' (first
    | with_reducible assumption
    | with_reducible apply State.adapt_keeps (hm := Mask.le hm rfl)
    | with_reducible apply State.eyeStore_keeps (hm := Mask.le hm rfl)
    | (intro x; intros; try dsimp only)
    | dsimp only
    | split)

theorem State.streamIn_keeps {m : Nat} {s0 s : State} (p : Nat) (ptr : Nat) (bs : List Byte) (bad : Bool) (h : Keeps m s0 s)
    (hm : 4194304 &&& m = 4194304 := by exact Mask.le (by assumption) rfl) :
    Keeps m s0 (State.streamIn s p ptr bs bad) := by
  unfold State.streamIn
  try dsimp only
  repeat' (first
    | with_reducible assumption
    | exact fun (hb : Nat.testBit _ _ = _) => (Mask.off hm hb rfl).elim
    | with_reducible exact fun _ => rfl
    | (intro x; intros; try dsimp only)
    | dsimp only
    | split
    | with_reducible apply Keeps.upd)

theorem State.rxNext_keeps {m : Nat} {s0 s : State} (p : Nat) (prbs : Nat) (next : Nat) (h : Keeps m s0 s)
    (hm : 4194304 &&& m = 4194304 := by exact Mask.le (by assumption) rfl) :
    Keeps m s0 (State.rxNext s p prbs next) := by
  unfold State.rxNext
  try dsimp only
  repeat' (first
    | with_reducible assumption
    | exact fun (hb : Nat.testBit _ _ = _) => (Mask.off hm hb rfl).elim
    | with_reducible exact fun _ => rfl
    | (intro x; intros; try dsimp only)
    | dsimp only
    | split
    | with_reducible apply Keeps.upd)

theorem State.codewordLost_keeps {m : Nat} {s0 s : State} (p : Nat) (prbs : Nat) (w : List Nat) (h : Keeps m s0 s)
    (hm : 5349516 &&& m = 5349516 := by exact Mask.le (by assumption) rfl) :
    Keeps m s0 (State.codewordLost s p prbs w) := by
  unfold State.codewordLost
  try dsimp only
  repeat' (first
    | with_reducible assumption
    | with_reducible apply State.bump_keeps (hm := Mask.le hm rfl)
    | with_reducible apply State.lanEvent_keeps (hm := Mask.le hm rfl)
    | with_reducible apply State.pmcEv_keeps (hm := Mask.le hm rfl)
    | with_reducible apply State.rxNext_keeps (hm := Mask.le hm rfl)
    | with_reducible apply State.streamIn_keeps (hm := Mask.le hm rfl)
    | (intro x; intros; try dsimp only)
    | dsimp only
    | split)

theorem State.codeword_keeps {m : Nat} {s0 s : State} (p : Nat) (w : List Nat) (h : Keeps m s0 s)
    (hm : 5349516 &&& m = 5349516 := by exact Mask.le (by assumption) rfl) :
    Keeps m s0 (State.codeword s p w) := by
  unfold State.codeword
  try dsimp only
  repeat' (first
    | with_reducible assumption
    | with_reducible apply State.pmcEv_keeps (hm := Mask.le hm rfl)
    | with_reducible apply State.bump_keeps (hm := Mask.le hm rfl)
    | with_reducible apply State.rxNext_keeps (hm := Mask.le hm rfl)
    | with_reducible apply State.streamIn_keeps (hm := Mask.le hm rfl)
    | with_reducible apply State.codewordLost_keeps (hm := Mask.le hm rfl)
    | with_reducible apply Keeps.foldl
    | with_reducible apply Keeps.foldlSnd
    | with_reducible apply Keeps.foldlFst
    | with_reducible apply Keeps.getD
    | (intro x; intros; try dsimp only)
    | dsimp only
    | split)

theorem State.streamReset_keeps {m : Nat} {s0 s : State} (p : Nat) (h : Keeps m s0 s)
    (hm : 4194304 &&& m = 4194304 := by exact Mask.le (by assumption) rfl) :
    Keeps m s0 (State.streamReset s p) := by
  unfold State.streamReset
  try dsimp only
  repeat' (first
    | with_reducible assumption
    | exact fun (hb : Nat.testBit _ _ = _) => (Mask.off hm hb rfl).elim
    | with_reducible exact fun _ => rfl
    | (intro x; intros; try dsimp only)
    | dsimp only
    | split
    | with_reducible apply Keeps.upd)

theorem State.alignDone_keeps {m : Nat} {s0 s : State} (p : Nat) (lanes : List Nat) (swapped : Bool) (port : Nat) (h : Keeps m s0 s)
    (hm : 13738156 &&& m = 13738156 := by exact Mask.le (by assumption) rfl) :
    Keeps m s0 (State.alignDone s p lanes swapped port) := by
  unfold State.alignDone
  try dsimp only
  repeat' (first
    | with_reducible assumption
    | with_reducible apply State.lanEvent_keeps (hm := Mask.le hm rfl)
    | with_reducible apply State.laneTrain_keeps (hm := Mask.le hm rfl)
    | with_reducible apply State.laneTo_keeps (hm := Mask.le hm rfl)
    | with_reducible apply State.setFlag_keeps (hm := Mask.le hm rfl)
    | with_reducible apply State.setFld_keeps (hm := Mask.le hm rfl)
    | with_reducible apply State.frameUp_keeps (hm := Mask.le hm rfl)
    | with_reducible apply State.streamReset_keeps (hm := Mask.le hm rfl)
    | with_reducible apply Keeps.foldl
    | with_reducible apply Keeps.foldlSnd
    | with_reducible apply Keeps.foldlFst
    | (intro x; intros; try dsimp only)
    | dsimp only
    | split)

theorem State.markerIn_keeps {m : Nat} {s0 s : State} (l : Nat) (mk : Option Marker) (h : Keeps m s0 s)
    (hm : 15835324 &&& m = 15835324 := by exact Mask.le (by assumption) rfl) :
    Keeps m s0 (State.markerIn s l mk) := by
  unfold State.markerIn
  try dsimp only
  repeat' (first
    | with_reducible assumption
    | with_reducible apply State.setLane_keeps (hm := Mask.le hm rfl)
    | with_reducible apply State.setFlag_keeps (hm := Mask.le hm rfl)
    | with_reducible apply State.linkReset_keeps (hm := Mask.le hm rfl)
    | with_reducible apply State.lanEvent_keeps (hm := Mask.le hm rfl)
    | with_reducible apply State.alignDone_keeps (hm := Mask.le hm rfl)
    | (intro x; intros; try dsimp only)
    | dsimp only
    | split)

theorem State.alignLimit_keeps {m : Nat} {s0 s : State} (p : Nat) (h : Keeps m s0 s)
    (hm : 5349548 &&& m = 5349548 := by exact Mask.le (by assumption) rfl) :
    Keeps m s0 (State.alignLimit s p) := by
  unfold State.alignLimit
  try dsimp only
  repeat' (first
    | with_reducible assumption
    | with_reducible apply State.lanEvent_keeps (hm := Mask.le hm rfl)
    | with_reducible apply State.laneAlign_keeps (hm := Mask.le hm rfl)
    | with_reducible apply State.laneTrain_keeps (hm := Mask.le hm rfl)
    | with_reducible apply Keeps.foldl
    | with_reducible apply Keeps.foldlSnd
    | with_reducible apply Keeps.foldlFst
    | (intro x; intros; try dsimp only)
    | dsimp only
    | split)

theorem State.sendLevels_keeps {m : Nat} {s0 s : State} (l : Nat) (xs : List Int) (h : Keeps m s0 s)
    (hm : 65544 &&& m = 65544 := by exact Mask.le (by assumption) rfl) :
    Keeps m s0 (State.sendLevels s l xs) := by
  unfold State.sendLevels
  try dsimp only
  repeat' (first
    | with_reducible assumption
    | with_reducible apply State.emit_keeps (hm := Mask.le hm rfl)
    | (intro x; intros; try dsimp only)
    | dsimp only
    | split)

theorem State.sendCodeword_keeps {m : Nat} {s0 s : State} (p : Nat) (w : List Nat) (h : Keeps m s0 s)
    (hm : 65544 &&& m = 65544 := by exact Mask.le (by assumption) rfl) :
    Keeps m s0 (State.sendCodeword s p w) := by
  unfold State.sendCodeword
  try dsimp only
  repeat' (first
    | with_reducible assumption
    | with_reducible apply State.emit_keeps (hm := Mask.le hm rfl)
    | with_reducible apply State.sendLevels_keeps (hm := Mask.le hm rfl)
    | with_reducible apply Keeps.foldl
    | with_reducible apply Keeps.foldlSnd
    | with_reducible apply Keeps.foldlFst
    | (intro x; intros; try dsimp only)
    | dsimp only
    | split)

theorem State.injectSyms_keeps {m : Nat} {s0 s : State} (l : Nat) (w : List Nat) (h : Keeps m s0 s)
    (hm : 4194308 &&& m = 4194308 := by exact Mask.le (by assumption) rfl) :
    Keeps m s0 (State.injectSyms s l w).1 := by
  unfold State.injectSyms
  try dsimp only
  repeat' (first
    | with_reducible assumption
    | with_reducible apply State.setFld_keeps (hm := Mask.le hm rfl)
    | with_reducible apply State.setLane_keeps (hm := Mask.le hm rfl)
    | with_reducible apply Keeps.foldl
    | with_reducible apply Keeps.foldlSnd
    | with_reducible apply Keeps.foldlFst
    | (intro x; intros; try dsimp only)
    | dsimp only
    | split)

theorem State.setLanTx_keeps {m : Nat} {s0 s : State} (p : Nat) (x : LanTx) (h : Keeps m s0 s)
    (hm : 4194304 &&& m = 4194304 := by exact Mask.le (by assumption) rfl) :
    Keeps m s0 (State.setLanTx s p x) := by
  unfold State.setLanTx
  try dsimp only
  repeat' (first
    | with_reducible assumption
    | exact fun (hb : Nat.testBit _ _ = _) => (Mask.off hm hb rfl).elim
    | with_reducible exact fun _ => rfl
    | (intro x; intros; try dsimp only)
    | dsimp only
    | split
    | with_reducible apply Keeps.upd)

theorem State.sendMarker_keeps {m : Nat} {s0 s : State} (p : Nat) (h : Keeps m s0 s)
    (hm : 4259848 &&& m = 4259848 := by exact Mask.le (by assumption) rfl) :
    Keeps m s0 (State.sendMarker s p) := by
  unfold State.sendMarker
  try dsimp only
  repeat' (first
    | with_reducible assumption
    | with_reducible apply State.sendCodeword_keeps (hm := Mask.le hm rfl)
    | with_reducible apply State.setLanTx_keeps (hm := Mask.le hm rfl)
    | with_reducible apply Keeps.getD
    | (intro x; intros; try dsimp only)
    | dsimp only
    | split)

theorem State.sendData_keeps {m : Nat} {s0 s : State} (p : Nat) (h : Keeps m s0 s)
    (hm : 4259852 &&& m = 4259852 := by exact Mask.le (by assumption) rfl) :
    Keeps m s0 (State.sendData s p) := by
  unfold State.sendData
  try dsimp only
  repeat' (first
    | with_reducible assumption
    | with_reducible apply State.setLanTx_keeps (hm := Mask.le hm rfl)
    | with_reducible apply State.injectSyms_keeps (hm := Mask.le hm rfl)
    | with_reducible apply State.sendCodeword_keeps (hm := Mask.le hm rfl)
    | with_reducible apply Keeps.getD
    | (intro x; intros; try dsimp only)
    | dsimp only
    | split
    | refine Keeps.fst (by assumption) ?_)

theorem State.txCodewords_keeps {m : Nat} {s0 s : State} (p : Nat) (a : Nat) (h : Keeps m s0 s)
    (hm : 4259852 &&& m = 4259852 := by exact Mask.le (by assumption) rfl) :
    Keeps m s0 (State.txCodewords s p a) := by
  induction a generalizing s with
  | zero =>
    try unfold State.txCodewords
    try dsimp only
    repeat' (first
      | with_reducible assumption
      | with_reducible apply State.sendMarker_keeps (hm := Mask.le hm rfl)
      | with_reducible apply State.sendData_keeps (hm := Mask.le hm rfl)
      | (intro x; intros; try dsimp only)
      | dsimp only
      | split)
  | succ n ih =>
    try unfold State.txCodewords
    try dsimp only
    repeat' (first
      | with_reducible apply ih
      | with_reducible assumption
      | with_reducible apply State.sendMarker_keeps (hm := Mask.le hm rfl)
      | with_reducible apply State.sendData_keeps (hm := Mask.le hm rfl)
      | (intro x; intros; try dsimp only)
      | dsimp only
      | split)

theorem State.sendChars_keeps {m : Nat} {s0 s : State} (l : Nat) (cs : List Char8) (h : Keeps m s0 s)
    (hm : 4259848 &&& m = 4259848 := by exact Mask.le (by assumption) rfl) :
    Keeps m s0 (State.sendChars s l cs) := by
  unfold State.sendChars
  try dsimp only
  repeat' (first
    | with_reducible assumption
    | with_reducible apply State.setLane_keeps (hm := Mask.le hm rfl)
    | with_reducible apply State.emit_keeps (hm := Mask.le hm rfl)
    | (intro x; intros; try dsimp only)
    | dsimp only
    | split)

theorem State.sendSlots_keeps {m : Nat} {s0 s : State} (p : Nat) (cs : List (Char8 × Char8)) (h : Keeps m s0 s)
    (hm : 4259848 &&& m = 4259848 := by exact Mask.le (by assumption) rfl) :
    Keeps m s0 (State.sendSlots s p cs) := by
  unfold State.sendSlots
  try dsimp only
  repeat' (first
    | with_reducible assumption
    | with_reducible apply State.setLanTx_keeps (hm := Mask.le hm rfl)
    | with_reducible apply State.sendChars_keeps (hm := Mask.le hm rfl)
    | (intro x; intros; try dsimp only)
    | dsimp only
    | split)

theorem State.txBlock_keeps {m : Nat} {s0 s : State} (p : Nat) (b : LinkBlock) (h : Keeps m s0 s)
    (hm : 4259852 &&& m = 4259852 := by exact Mask.le (by assumption) rfl) :
    Keeps m s0 (State.txBlock s p b) := by
  unfold State.txBlock
  try dsimp only
  repeat' (first
    | with_reducible assumption
    | with_reducible apply State.sendSlots_keeps (hm := Mask.le hm rfl)
    | with_reducible apply State.txCodewords_keeps (hm := Mask.le hm rfl)
    | with_reducible apply State.setLanTx_keeps (hm := Mask.le hm rfl)
    | (intro x; intros; try dsimp only)
    | dsimp only
    | split)

theorem State.sendCoded_keeps {m : Nat} {s0 s : State} (p : Nat) (h : Keeps m s0 s)
    (hm : 15835324 &&& m = 15835324 := by exact Mask.le (by assumption) rfl) :
    Keeps m s0 (State.sendCoded s p) := by
  unfold State.sendCoded
  try dsimp only
  repeat' (first
    | with_reducible assumption
    | with_reducible apply State.sendBlock_keeps (hm := Mask.le hm rfl)
    | with_reducible apply State.txBlock_keeps (hm := Mask.le hm rfl)
    | (intro x; intros; try dsimp only)
    | dsimp only
    | split)

theorem State.streamCut_keeps {m : Nat} {s0 s : State} (p : Nat) (b : LinkBlock) (h : Keeps m s0 s)
    (hm : 4194304 &&& m = 4194304 := by exact Mask.le (by assumption) rfl) :
    Keeps m s0 (State.streamCut s p b) := by
  unfold State.streamCut
  try dsimp only
  repeat' (first
    | with_reducible assumption
    | with_reducible apply State.setLane_keeps (hm := Mask.le hm rfl)
    | with_reducible apply Keeps.foldl
    | with_reducible apply Keeps.foldlSnd
    | with_reducible apply Keeps.foldlFst
    | exact fun (hb : Nat.testBit _ _ = _) => (Mask.off hm hb rfl).elim
    | with_reducible exact fun _ => rfl
    | (intro x; intros; try dsimp only)
    | dsimp only
    | split
    | with_reducible apply Keeps.upd)

theorem State.m2Deskewed_keeps {m : Nat} {s0 s : State} (p : Nat) (h : Keeps m s0 s)
    (hm : 12648460 &&& m = 12648460 := by exact Mask.le (by assumption) rfl) :
    Keeps m s0 (State.m2Deskewed s p) := by
  unfold State.m2Deskewed
  try dsimp only
  repeat' (first
    | with_reducible assumption
    | with_reducible apply State.frameUp_keeps (hm := Mask.le hm rfl)
    | with_reducible apply State.setFlag_keeps (hm := Mask.le hm rfl)
    | with_reducible apply State.laneTo_keeps (hm := Mask.le hm rfl)
    | with_reducible apply Keeps.foldl
    | with_reducible apply Keeps.foldlSnd
    | with_reducible apply Keeps.foldlFst
    | (intro x; intros; try dsimp only)
    | dsimp only
    | split)

theorem State.k283In_keeps {m : Nat} {s0 s : State} (l : Nat) (h : Keeps m s0 s)
    (hm : 13738124 &&& m = 13738124 := by exact Mask.le (by assumption) rfl) :
    Keeps m s0 (State.k283In s l) := by
  unfold State.k283In
  try dsimp only
  repeat' (first
    | with_reducible assumption
    | with_reducible apply State.setLane_keeps (hm := Mask.le hm rfl)
    | with_reducible apply State.lanEvent_keeps (hm := Mask.le hm rfl)
    | with_reducible apply State.m2Deskewed_keeps (hm := Mask.le hm rfl)
    | (intro x; intros; try dsimp only)
    | dsimp only
    | split)

theorem State.m2Stream_keeps {m : Nat} {s0 s : State} (l : Nat) (c : Char8) (h : Keeps m s0 s)
    (hm : 4194304 &&& m = 4194304 := by exact Mask.le (by assumption) rfl) :
    Keeps m s0 (State.m2Stream s l c) := by
  unfold State.m2Stream
  try dsimp only
  repeat' (first
    | with_reducible assumption
    | with_reducible apply State.setLane_keeps (hm := Mask.le hm rfl)
    | (intro x; intros; try dsimp only)
    | dsimp only
    | split)

theorem State.m2Lost_keeps {m : Nat} {s0 s : State} (l : Nat) (h : Keeps m s0 s)
    (hm : 15835324 &&& m = 15835324 := by exact Mask.le (by assumption) rfl) :
    Keeps m s0 (State.m2Lost s l) := by
  unfold State.m2Lost
  try dsimp only
  repeat' (first
    | with_reducible assumption
    | with_reducible apply State.lanEvent_keeps (hm := Mask.le hm rfl)
    | with_reducible apply State.setLane_keeps (hm := Mask.le hm rfl)
    | with_reducible apply State.setFlag_keeps (hm := Mask.le hm rfl)
    | with_reducible apply State.linkReset_keeps (hm := Mask.le hm rfl)
    | (intro x; intros; try dsimp only)
    | dsimp only
    | split)

theorem State.m2Char_keeps {m : Nat} {s0 s : State} (l : Nat) (c : Char8) (h : Keeps m s0 s)
    (hm : 15835324 &&& m = 15835324 := by exact Mask.le (by assumption) rfl) :
    Keeps m s0 (State.m2Char s l c) := by
  unfold State.m2Char
  try dsimp only
  repeat' (first
    | with_reducible assumption
    | with_reducible apply State.bump_keeps (hm := Mask.le hm rfl)
    | with_reducible apply State.setLane_keeps (hm := Mask.le hm rfl)
    | with_reducible apply State.m2Lost_keeps (hm := Mask.le hm rfl)
    | with_reducible apply State.k283In_keeps (hm := Mask.le hm rfl)
    | with_reducible apply State.m2Stream_keeps (hm := Mask.le hm rfl)
    | (intro x; intros; try dsimp only)
    | dsimp only
    | split)

theorem State.m2Receive_keeps {m : Nat} {s0 s : State} (l : Nat) (bits : Nat) (h : Keeps m s0 s)
    (hm : 15835324 &&& m = 15835324 := by exact Mask.le (by assumption) rfl) :
    Keeps m s0 (State.m2Receive s l bits) := by
  unfold State.m2Receive
  try dsimp only
  repeat' (first
    | with_reducible assumption
    | with_reducible apply State.setFld_keeps (hm := Mask.le hm rfl)
    | with_reducible apply State.setFlag_keeps (hm := Mask.le hm rfl)
    | with_reducible apply State.setLane_keeps (hm := Mask.le hm rfl)
    | with_reducible apply State.m2Char_keeps (hm := Mask.le hm rfl)
    | with_reducible apply OptKeeps.mapState
    | with_reducible apply OptKeeps.map
    | (intro x; intros; try dsimp only)
    | dsimp only
    | split)

theorem State.m2Slip_keeps {m : Nat} {s0 s : State} (l : Nat) (h : Keeps m s0 s)
    (hm : 4194308 &&& m = 4194308 := by exact Mask.le (by assumption) rfl) :
    Keeps m s0 (State.m2Slip s l) := by
  unfold State.m2Slip
  try dsimp only
  repeat' (first
    | with_reducible assumption
    | with_reducible apply State.setLane_keeps (hm := Mask.le hm rfl)
    | with_reducible apply State.setFlag_keeps (hm := Mask.le hm rfl)
    | (intro x; intros; try dsimp only)
    | dsimp only
    | split)

theorem State.genStart_keeps {m : Nat} {s0 s : State} (l : Nat) (h : Keeps m s0 s)
    (hm : 4194336 &&& m = 4194336 := by exact Mask.le (by assumption) rfl) :
    Keeps m s0 (State.genStart s l) := by
  unfold State.genStart
  try dsimp only
  repeat' (first
    | with_reducible assumption
    | with_reducible apply State.fresh_keeps (hm := Mask.le hm rfl)
    | with_reducible apply State.setLane_keeps (hm := Mask.le hm rfl)
    | (intro x; intros; try dsimp only)
    | dsimp only
    | split
    | refine Keeps.snd (by assumption) ?_)

theorem State.testEnd_keeps {m : Nat} {s0 s : State} (p : Nat) (h : Keeps m s0 s)
    (hm : 12648492 &&& m = 12648492 := by exact Mask.le (by assumption) rfl) :
    Keeps m s0 (State.testEnd s p) := by
  unfold State.testEnd
  try dsimp only
  repeat' (first
    | with_reducible assumption
    | with_reducible apply State.laneTo_keeps (hm := Mask.le hm rfl)
    | with_reducible apply State.bringUp_keeps (hm := Mask.le hm rfl)
    | with_reducible apply State.setLport_keeps (hm := Mask.le hm rfl)
    | with_reducible apply State.portTo2_keeps (hm := Mask.le hm rfl)
    | with_reducible apply Keeps.foldl
    | with_reducible apply Keeps.foldlSnd
    | with_reducible apply Keeps.foldlFst
    | (intro x; intros; try dsimp only)
    | dsimp only
    | split)

theorem State.testBegin_keeps {m : Nat} {s0 s : State} (p : Nat) (h : Keeps m s0 s)
    (hm : 15835292 &&& m = 15835292 := by exact Mask.le (by assumption) rfl) :
    Keeps m s0 (State.testBegin s p) := by
  unfold State.testBegin
  try dsimp only
  repeat' (first
    | with_reducible assumption
    | with_reducible apply State.linkDown_keeps (hm := Mask.le hm rfl)
    | with_reducible apply State.laneTo_keeps (hm := Mask.le hm rfl)
    | with_reducible apply State.portTo2_keeps (hm := Mask.le hm rfl)
    | with_reducible apply Keeps.foldl
    | with_reducible apply Keeps.foldlSnd
    | with_reducible apply Keeps.foldlFst
    | (intro x; intros; try dsimp only)
    | dsimp only
    | split)

theorem State.testChanged_keeps {m : Nat} {s0 s : State} (l : Nat) (gen : Bool) (h : Keeps m s0 s)
    (hm : 15835324 &&& m = 15835324 := by exact Mask.le (by assumption) rfl) :
    Keeps m s0 (State.testChanged s l gen) := by
  unfold State.testChanged
  try dsimp only
  repeat' (first
    | with_reducible assumption
    | with_reducible apply State.setLane_keeps (hm := Mask.le hm rfl)
    | with_reducible apply State.setFlag_keeps (hm := Mask.le hm rfl)
    | with_reducible apply State.genStart_keeps (hm := Mask.le hm rfl)
    | with_reducible apply State.laneTx_keeps (hm := Mask.le hm rfl)
    | with_reducible apply State.testEnd_keeps (hm := Mask.le hm rfl)
    | with_reducible apply State.testBegin_keeps (hm := Mask.le hm rfl)
    | (intro x; intros; try dsimp only)
    | dsimp only
    | split)

theorem State.chkBit_keeps {m : Nat} {s0 s : State} (l : Nat) (pat : Nat) (b : Bool) (h : Keeps m s0 s)
    (hm : 4194308 &&& m = 4194308 := by exact Mask.le (by assumption) rfl) :
    Keeps m s0 (State.chkBit s l pat b) := by
  unfold State.chkBit
  try dsimp only
  repeat' (first
    | with_reducible assumption
    | with_reducible apply State.setLane_keeps (hm := Mask.le hm rfl)
    | with_reducible apply State.setFlag_keeps (hm := Mask.le hm rfl)
    | with_reducible apply State.bump_keeps (hm := Mask.le hm rfl)
    | with_reducible apply Keeps.getD
    | (intro x; intros; try dsimp only)
    | dsimp only
    | split)

theorem State.chkReceive_keeps {m : Nat} {s0 s : State} (l : Nat) (bits : List Bool) (h : Keeps m s0 s)
    (hm : 4194308 &&& m = 4194308 := by exact Mask.le (by assumption) rfl) :
    Keeps m s0 (State.chkReceive s l bits) := by
  unfold State.chkReceive
  try dsimp only
  repeat' (first
    | with_reducible assumption
    | with_reducible apply State.chkBit_keeps (hm := Mask.le hm rfl)
    | with_reducible apply Keeps.foldl
    | with_reducible apply Keeps.foldlSnd
    | with_reducible apply Keeps.foldlFst
    | (intro x; intros; try dsimp only)
    | dsimp only
    | split)

theorem State.injectBegin_keeps {m : Nat} {s0 s : State} (l : Nat) (h : Keeps m s0 s)
    (hm : 4194304 &&& m = 4194304 := by exact Mask.le (by assumption) rfl) :
    Keeps m s0 (State.injectBegin s l) := by
  unfold State.injectBegin
  try dsimp only
  repeat' (first
    | with_reducible assumption
    | with_reducible apply State.setLane_keeps (hm := Mask.le hm rfl)
    | (intro x; intros; try dsimp only)
    | dsimp only
    | split)

end Sys2Proof.Machine
end

