-- ==== Sys2Proof/Laws/KeepTop.lean ====
section
/-!
SUPPORT. What the reactions to faults, PMC, SEC and PWR keep.
-/
set_option Elab.async false
set_option linter.unusedTactic false
set_option linter.unreachableTactic false
set_option linter.unusedVariables false
namespace Sys2Proof.Machine

theorem State.bankRetire_keeps {m : Nat} {s0 s : State} (b : Nat) (h : Keeps m s0 s)
    (hm : 262148 &&& m = 262148 := by exact Mask.le (by assumption) rfl) :
    Keeps m s0 (State.bankRetire s b) := by
  unfold State.bankRetire
  try dsimp only
  repeat' (first
    | with_reducible assumption
    | with_reducible apply State.setFld_keeps (hm := Mask.le hm rfl)
    | exact fun (hb : Nat.testBit _ _ = _) => (Mask.off hm hb rfl).elim
    | with_reducible exact fun _ => rfl
    | (intro x; intros; try dsimp only)
    | dsimp only
    | split
    | with_reducible apply Keeps.upd)

theorem State.bankMarch_keeps {m : Nat} {s0 s : State} (b : Nat) (h : Keeps m s0 s)
    (hm : 262148 &&& m = 262148 := by exact Mask.le (by assumption) rfl) :
    Keeps m s0 (State.bankMarch s b) := by
  unfold State.bankMarch
  try dsimp only
  repeat' (first
    | with_reducible assumption
    | with_reducible apply State.setFld_keeps (hm := Mask.le hm rfl)
    | with_reducible apply State.setFlag_keeps (hm := Mask.le hm rfl)
    | exact fun (hb : Nat.testBit _ _ = _) => (Mask.off hm hb rfl).elim
    | with_reducible exact fun _ => rfl
    | (intro x; intros; try dsimp only)
    | dsimp only
    | split
    | with_reducible apply Keeps.upd)

theorem State.bankRepaired_keeps {m : Nat} {s0 s : State} (b : Nat) (n : Nat) (h : Keeps m s0 s)
    (hm : 4 &&& m = 4 := by exact Mask.le (by assumption) rfl) :
    Keeps m s0 (State.bankRepaired s b n) := by
  unfold State.bankRepaired
  try dsimp only
  repeat' (first
    | with_reducible assumption
    | with_reducible apply State.bump_keeps (hm := Mask.le hm rfl)
    | with_reducible apply State.setFld_keeps (hm := Mask.le hm rfl)
    | (intro x; intros; try dsimp only)
    | dsimp only
    | split)

theorem State.rowRepair_keeps {m : Nat} {s0 s : State} (c : Nat) (h : Keeps m s0 s)
    (hm : 1048576 &&& m = 1048576 := by exact Mask.le (by assumption) rfl) :
    Keeps m s0 (State.rowRepair s c) := by
  unfold State.rowRepair
  try dsimp only
  repeat' (first
    | with_reducible assumption
    | exact fun (hb : Nat.testBit _ _ = _) => (Mask.off hm hb rfl).elim
    | with_reducible exact fun _ => rfl
    | (intro x; intros; try dsimp only)
    | dsimp only
    | split
    | with_reducible apply Keeps.upd)

theorem State.pcRetire_keeps {m : Nat} {s0 s : State} (n : Nat) (h : Keeps m s0 s)
    (hm : 45162684 &&& m = 45162684 := by exact Mask.le (by assumption) rfl) :
    Keeps m s0 (State.pcRetire s n) := by
  unfold State.pcRetire
  try dsimp only
  repeat' (first
    | with_reducible assumption
    | with_reducible apply State.deviceStop_keeps (hm := Mask.le hm rfl)
    | with_reducible apply State.pcLost_keeps (hm := Mask.le hm rfl)
    | exact fun (hb : Nat.testBit _ _ = _) => (Mask.off hm hb rfl).elim
    | with_reducible exact fun _ => rfl
    | (intro x; intros; try dsimp only)
    | dsimp only
    | split
    | with_reducible apply Keeps.upd)

theorem State.unitRetire_keeps {m : Nat} {s0 s : State} (u : Nat) (h : Keeps m s0 s)
    (hm : 44105780 &&& m = 44105780 := by exact Mask.le (by assumption) rfl) :
    Keeps m s0 (State.unitRetire s u) := by
  unfold State.unitRetire
  try dsimp only
  repeat' (first
    | with_reducible assumption
    | with_reducible apply State.unitLost_keeps (hm := Mask.le hm rfl)
    | exact fun (hb : Nat.testBit _ _ = _) => (Mask.off hm hb rfl).elim
    | with_reducible exact fun _ => rfl
    | (intro x; intros; try dsimp only)
    | dsimp only
    | split
    | with_reducible apply Keeps.upd)

theorem State.reactOn_keeps {m : Nat} {s0 s : State} (blk : Nat) (n : Nat) (r : Reaction) (h : Keeps m s0 s)
    (hm : 50307516 &&& m = 50307516 := by exact Mask.le (by assumption) rfl) :
    Keeps m s0 (State.reactOn s blk n r) := by
  unfold State.reactOn
  try dsimp only
  repeat' (first
    | with_reducible assumption
    | with_reducible apply State.requestReset_keeps (hm := Mask.le hm rfl)
    | with_reducible apply State.laneRetire_keeps (hm := Mask.le hm rfl)
    | with_reducible apply State.portRetire_keeps (hm := Mask.le hm rfl)
    | with_reducible apply State.retireCore_keeps (hm := Mask.le hm rfl)
    | with_reducible apply State.bankRetire_keeps (hm := Mask.le hm rfl)
    | with_reducible apply State.bankMarch_keeps (hm := Mask.le hm rfl)
    | with_reducible apply State.rowRepair_keeps (hm := Mask.le hm rfl)
    | with_reducible apply State.pcRetire_keeps (hm := Mask.le hm rfl)
    | with_reducible apply State.unitRetire_keeps (hm := Mask.le hm rfl)
    | with_reducible apply State.deviceStop_keeps (hm := Mask.le hm rfl)
    | (intro x; intros; try dsimp only)
    | dsimp only
    | split)

theorem State.clearSource_keeps {m : Nat} {s0 s : State} (blk : Nat) (n : Nat) (h : Keeps m s0 s)
    (hm : 32772 &&& m = 32772 := by exact Mask.le (by assumption) rfl) :
    Keeps m s0 (State.clearSource s blk n) := by
  unfold State.clearSource
  try dsimp only
  repeat' (first
    | with_reducible assumption
    | with_reducible apply State.setFlag_keeps (hm := Mask.le hm rfl)
    | with_reducible apply State.setFld_keeps (hm := Mask.le hm rfl)
    | exact fun (hb : Nat.testBit _ _ = _) => (Mask.off hm hb rfl).elim
    | with_reducible exact fun _ => rfl
    | (intro x; intros; try dsimp only)
    | dsimp only
    | split
    | with_reducible apply Keeps.upd)

theorem State.escStop_keeps {m : Nat} {s0 s : State} (blk : Nat) (h : Keeps m s0 s)
    (hm : 32768 &&& m = 32768 := by exact Mask.le (by assumption) rfl) :
    Keeps m s0 (State.escStop s blk) := by
  unfold State.escStop
  try dsimp only
  repeat' (first
    | with_reducible assumption
    | exact fun (hb : Nat.testBit _ _ = _) => (Mask.off hm hb rfl).elim
    | with_reducible exact fun _ => rfl
    | (intro x; intros; try dsimp only)
    | dsimp only
    | split
    | with_reducible apply Keeps.upd)

theorem State.carryOut_keeps {m : Nat} {s0 s : State} (blk : Nat) (n : Nat) (h : Keeps m s0 s)
    (hm : 50307516 &&& m = 50307516 := by exact Mask.le (by assumption) rfl) :
    Keeps m s0 (State.carryOut s blk n) := by
  unfold State.carryOut
  try dsimp only
  repeat' (first
    | with_reducible assumption
    | with_reducible apply State.clearSource_keeps (hm := Mask.le hm rfl)
    | with_reducible apply State.reactOn_keeps (hm := Mask.le hm rfl)
    | with_reducible apply State.setFlag_keeps (hm := Mask.le hm rfl)
    | with_reducible apply State.setFld_keeps (hm := Mask.le hm rfl)
    | with_reducible apply State.blockVec_keeps (hm := Mask.le hm rfl)
    | (intro x; intros; try dsimp only)
    | dsimp only
    | split)

theorem State.escExpire_keeps {m : Nat} {s0 s : State} (blk : Nat) (h : Keeps m s0 s)
    (hm : 50307516 &&& m = 50307516 := by exact Mask.le (by assumption) rfl) :
    Keeps m s0 (State.escExpire s blk) := by
  unfold State.escExpire
  try dsimp only
  repeat' (first
    | with_reducible assumption
    | with_reducible apply State.carryOut_keeps (hm := Mask.le hm rfl)
    | with_reducible apply Keeps.foldl
    | with_reducible apply Keeps.foldlSnd
    | with_reducible apply Keeps.foldlFst
    | exact fun (hb : Nat.testBit _ _ = _) => (Mask.off hm hb rfl).elim
    | with_reducible exact fun _ => rfl
    | (intro x; intros; try dsimp only)
    | dsimp only
    | split
    | with_reducible apply Keeps.upd)

theorem State.actNow_keeps {m : Nat} {s0 s : State} (blk : Nat) (every : Bool) (n : Nat) (h : Keeps m s0 s)
    (hm : 50307516 &&& m = 50307516 := by exact Mask.le (by assumption) rfl) :
    Keeps m s0 (State.actNow s blk every n) := by
  unfold State.actNow
  try dsimp only
  repeat' (first
    | with_reducible assumption
    | with_reducible apply State.escStop_keeps (hm := Mask.le hm rfl)
    | with_reducible apply State.carryOut_keeps (hm := Mask.le hm rfl)
    | with_reducible apply Keeps.foldl
    | with_reducible apply Keeps.foldlSnd
    | with_reducible apply Keeps.foldlFst
    | (intro x; intros; try dsimp only)
    | dsimp only
    | split)

theorem State.escWithdraw_keeps {m : Nat} {s0 s : State} (blk : Nat) (every : Bool) (n : Nat) (h : Keeps m s0 s)
    (hm : 32772 &&& m = 32772 := by exact Mask.le (by assumption) rfl) :
    Keeps m s0 (State.escWithdraw s blk every n) := by
  unfold State.escWithdraw
  try dsimp only
  repeat' (first
    | with_reducible assumption
    | with_reducible apply State.escStop_keeps (hm := Mask.le hm rfl)
    | with_reducible apply State.clearSource_keeps (hm := Mask.le hm rfl)
    | with_reducible apply Keeps.foldl
    | with_reducible apply Keeps.foldlSnd
    | with_reducible apply Keeps.foldlFst
    | (intro x; intros; try dsimp only)
    | dsimp only
    | split)

theorem State.windowEnd_keeps {m : Nat} {s0 s : State} (blk : Nat) (n : Nat) (h : Keeps m s0 s)
    (hm : 32772 &&& m = 32772 := by exact Mask.le (by assumption) rfl) :
    Keeps m s0 (State.windowEnd s blk n) := by
  unfold State.windowEnd
  try dsimp only
  repeat' (first
    | with_reducible assumption
    | with_reducible apply State.setFld_keeps (hm := Mask.le hm rfl)
    | exact fun (hb : Nat.testBit _ _ = _) => (Mask.off hm hb rfl).elim
    | with_reducible exact fun _ => rfl
    | (intro x; intros; try dsimp only)
    | dsimp only
    | split
    | with_reducible apply Keeps.upd)

theorem State.firstClear_keeps {m : Nat} {s0 s : State} (blk : Nat) (h : Keeps m s0 s)
    (hm : 32772 &&& m = 32772 := by exact Mask.le (by assumption) rfl) :
    Keeps m s0 (State.firstClear s blk) := by
  unfold State.firstClear
  try dsimp only
  repeat' (first
    | with_reducible assumption
    | with_reducible apply State.setReg_keeps (hm := Mask.le hm rfl)
    | with_reducible apply State.setFlag_keeps (hm := Mask.le hm rfl)
    | with_reducible apply State.setFld_keeps (hm := Mask.le hm rfl)
    | exact fun (hb : Nat.testBit _ _ = _) => (Mask.off hm hb rfl).elim
    | with_reducible exact fun _ => rfl
    | (intro x; intros; try dsimp only)
    | dsimp only
    | split
    | with_reducible apply Keeps.upd)

theorem State.injectOne_keeps {m : Nat} {s0 s : State} (blk : Nat) (x : FltInj) (h : Keeps m s0 s)
    (hm : 1155212 &&& m = 1155212 := by exact Mask.le (by assumption) rfl) :
    Keeps m s0 (State.injectOne s blk x) := by
  unfold State.injectOne
  try dsimp only
  repeat' (first
    | with_reducible assumption
    | with_reducible apply State.event_keeps (hm := Mask.le hm rfl)
    | with_reducible apply State.setFld_keeps (hm := Mask.le hm rfl)
    | with_reducible apply State.setFlag_keeps (hm := Mask.le hm rfl)
    | exact fun (hb : Nat.testBit _ _ = _) => (Mask.off hm hb rfl).elim
    | with_reducible exact fun _ => rfl
    | (intro x; intros; try dsimp only)
    | dsimp only
    | split
    | with_reducible apply Keeps.upd)

theorem State.injectStart_keeps {m : Nat} {s0 s : State} (blk : Nat) (z2 : Nat) (count : Nat) (interval : Nat) (source : Nat) (h : Keeps m s0 s)
    (hm : 1155212 &&& m = 1155212 := by exact Mask.le (by assumption) rfl) :
    Keeps m s0 (State.injectStart s blk z2 count interval source) := by
  unfold State.injectStart
  try dsimp only
  repeat' (first
    | with_reducible assumption
    | with_reducible apply State.setFld_keeps (hm := Mask.le hm rfl)
    | with_reducible apply State.injectOne_keeps (hm := Mask.le hm rfl)
    | with_reducible apply State.setFlag_keeps (hm := Mask.le hm rfl)
    | (intro x; intros; try dsimp only)
    | dsimp only
    | split)

theorem State.injectTick_keeps {m : Nat} {s0 s : State} (blk : Nat) (h : Keeps m s0 s)
    (hm : 1155212 &&& m = 1155212 := by exact Mask.le (by assumption) rfl) :
    Keeps m s0 (State.injectTick s blk) := by
  unfold State.injectTick
  try dsimp only
  repeat' (first
    | with_reducible assumption
    | with_reducible apply State.injectOne_keeps (hm := Mask.le hm rfl)
    | (intro x; intros; try dsimp only)
    | dsimp only
    | split)

theorem State.sramError_keeps {m : Nat} {s0 s : State} (blk : Nat) (unc : Bool) (h : Keeps m s0 s)
    (hm : 1155212 &&& m = 1155212 := by exact Mask.le (by assumption) rfl) :
    Keeps m s0 (State.sramError s blk unc) := by
  unfold State.sramError
  try dsimp only
  repeat' (first
    | with_reducible assumption
    | with_reducible apply State.fault_keeps (hm := Mask.le hm rfl)
    | (intro x; intros; try dsimp only)
    | dsimp only
    | split)

theorem State.stagingLost_keeps {m : Nat} {s0 s : State}  (h : Keeps m s0 s)
    (hm : 44105780 &&& m = 44105780 := by exact Mask.le (by assumption) rfl) :
    Keeps m s0 (State.stagingLost s) := by
  unfold State.stagingLost
  try dsimp only
  repeat' (first
    | with_reducible assumption
    | with_reducible apply State.fresh_keeps (hm := Mask.le hm rfl)
    | with_reducible apply State.restartSeg_keeps (hm := Mask.le hm rfl)
    | (intro x; intros; try dsimp only)
    | dsimp only
    | split
    | refine Keeps.snd (by assumption) ?_)

theorem State.sampleLost_keeps {m : Nat} {s0 s : State} (a : Nat) (h : Keeps m s0 s)
    (hm : 1155212 &&& m = 1155212 := by exact Mask.le (by assumption) rfl) :
    Keeps m s0 (State.sampleLost s a) := by
  unfold State.sampleLost
  try dsimp only
  repeat' (first
    | with_reducible assumption
    | with_reducible apply State.fault_keeps (hm := Mask.le hm rfl)
    | with_reducible apply State.bump_keeps (hm := Mask.le hm rfl)
    | exact fun (hb : Nat.testBit _ _ = _) => (Mask.off hm hb rfl).elim
    | with_reducible exact fun _ => rfl
    | (intro x; intros; try dsimp only)
    | dsimp only
    | split
    | with_reducible apply Keeps.upd)

theorem State.hbmSpoil_keeps {m : Nat} {s0 s : State} (a : Nat) (h : Keeps m s0 s)
    (hm : 1048576 &&& m = 1048576 := by exact Mask.le (by assumption) rfl) :
    Keeps m s0 (State.hbmSpoil s a) := by
  unfold State.hbmSpoil
  try dsimp only
  repeat' (first
    | with_reducible assumption
    | exact fun (hb : Nat.testBit _ _ = _) => (Mask.off hm hb rfl).elim
    | with_reducible exact fun _ => rfl
    | (intro x; intros; try dsimp only)
    | dsimp only
    | split
    | with_reducible apply Keeps.upd)

theorem State.hbmSeen_keeps {m : Nat} {s0 s : State} (a : Nat) (h : Keeps m s0 s)
    (hm : 1155212 &&& m = 1155212 := by exact Mask.le (by assumption) rfl) :
    Keeps m s0 (State.hbmSeen s a) := by
  unfold State.hbmSeen
  try dsimp only
  repeat' (first
    | with_reducible assumption
    | with_reducible apply State.fault_keeps (hm := Mask.le hm rfl)
    | (intro x; intros; try dsimp only)
    | dsimp only
    | split)

theorem State.hbmLost_keeps {m : Nat} {s0 s : State} (a : Nat) (a2 : HbmArea) (h : Keeps m s0 s)
    (hm : 49389756 &&& m = 49389756 := by exact Mask.le (by assumption) rfl) :
    Keeps m s0 (State.hbmLost s a a2) := by
  unfold State.hbmLost
  try dsimp only
  repeat' (first
    | with_reducible assumption
    | with_reducible apply State.event_keeps (hm := Mask.le hm rfl)
    | with_reducible apply State.linkReset_keeps (hm := Mask.le hm rfl)
    | with_reducible apply State.hbmSeen_keeps (hm := Mask.le hm rfl)
    | with_reducible apply State.stagingLost_keeps (hm := Mask.le hm rfl)
    | with_reducible apply State.sampleLost_keeps (hm := Mask.le hm rfl)
    | with_reducible apply State.hbmSpoil_keeps (hm := Mask.le hm rfl)
    | (intro x; intros; try dsimp only)
    | dsimp only
    | split)

theorem State.hbmUncorrected_keeps {m : Nat} {s0 s : State} (a : Nat) (h : Keeps m s0 s)
    (hm : 49389756 &&& m = 49389756 := by exact Mask.le (by assumption) rfl) :
    Keeps m s0 (State.hbmUncorrected s a) := by
  unfold State.hbmUncorrected
  try dsimp only
  repeat' (first
    | with_reducible assumption
    | with_reducible apply State.hbmLost_keeps (hm := Mask.le hm rfl)
    | (intro x; intros; try dsimp only)
    | dsimp only
    | split)

theorem State.hbmError_keeps {m : Nat} {s0 s : State} (a : Nat) (unc : Bool) (h : Keeps m s0 s)
    (hm : 49389756 &&& m = 49389756 := by exact Mask.le (by assumption) rfl) :
    Keeps m s0 (State.hbmError s a unc) := by
  unfold State.hbmError
  try dsimp only
  repeat' (first
    | with_reducible assumption
    | with_reducible apply State.hbmUncorrected_keeps (hm := Mask.le hm rfl)
    | with_reducible apply State.fault_keeps (hm := Mask.le hm rfl)
    | (intro x; intros; try dsimp only)
    | dsimp only
    | split)

theorem State.rowRepaired_keeps {m : Nat} {s0 s : State} (c : Nat) (h : Keeps m s0 s)
    (hm : 1155212 &&& m = 1155212 := by exact Mask.le (by assumption) rfl) :
    Keeps m s0 (State.rowRepaired s c) := by
  unfold State.rowRepaired
  try dsimp only
  repeat' (first
    | with_reducible assumption
    | with_reducible apply State.fault_keeps (hm := Mask.le hm rfl)
    | exact fun (hb : Nat.testBit _ _ = _) => (Mask.off hm hb rfl).elim
    | with_reducible exact fun _ => rfl
    | (intro x; intros; try dsimp only)
    | dsimp only
    | split
    | with_reducible apply Keeps.upd)

theorem State.copyDone_keeps {m : Nat} {s0 s : State} (c : Nat) (h : Keeps m s0 s)
    (hm : 68157440 &&& m = 68157440 := by exact Mask.le (by assumption) rfl) :
    Keeps m s0 (State.copyDone s c) := by
  unfold State.copyDone
  split
  · exact h
  · extract_lets p s1 size
    have h1 : Keeps m s0 s1 := by
      refine Keeps.upd h ?_ ?_ ?_ ?_ ?_ ?_ ?_ ?_ ?_ ?_ ?_ ?_ ?_ ?_ ?_ ?_ ?_ ?_ ?_ ?_ <;> first | exact fun hb => (Mask.off hm hb rfl).elim | exact fun _ => rfl
    exact State.fmemStoreRaw_keeps _ (fun k => Memory.wf_filter k.fmem _) h1

theorem State.sliceDone_keeps {m : Nat} {s0 s : State} (b : Nat) (pass : Bool) (repaired : Nat) (h : Keeps m s0 s)
    (hm : 262148 &&& m = 262148 := by exact Mask.le (by assumption) rfl) :
    Keeps m s0 (State.sliceDone s b pass repaired) := by
  unfold State.sliceDone
  try dsimp only
  repeat' (first
    | with_reducible assumption
    | with_reducible apply State.bankRepaired_keeps (hm := Mask.le hm rfl)
    | with_reducible apply State.bankRetire_keeps (hm := Mask.le hm rfl)
    | exact fun (hb : Nat.testBit _ _ = _) => (Mask.off hm hb rfl).elim
    | with_reducible exact fun _ => rfl
    | (intro x; intros; try dsimp only)
    | dsimp only
    | split
    | with_reducible apply Keeps.upd)

theorem State.spdEcc_keeps {m : Nat} {s0 s : State} (a : Nat) (unc : Bool) (h : Keeps m s0 s)
    (hm : 1417356 &&& m = 1417356 := by exact Mask.le (by assumption) rfl) :
    Keeps m s0 (State.spdEcc s a unc) := by
  unfold State.spdEcc
  try dsimp only
  repeat' (first
    | with_reducible assumption
    | with_reducible apply State.fault_keeps (hm := Mask.le hm rfl)
    | exact fun (hb : Nat.testBit _ _ = _) => (Mask.off hm hb rfl).elim
    | with_reducible exact fun _ => rfl
    | (intro x; intros; try dsimp only)
    | dsimp only
    | split
    | with_reducible apply Keeps.upd)

theorem State.coreParity_keeps {m : Nat} {s0 s : State} (c : Nat) (tlb : Bool) (h : Keeps m s0 s)
    (hm : 1286316 &&& m = 1286316 := by exact Mask.le (by assumption) rfl) :
    Keeps m s0 (State.coreParity s c tlb) := by
  unfold State.coreParity
  try dsimp only
  repeat' (first
    | with_reducible assumption
    | with_reducible apply State.fault_keeps (hm := Mask.le hm rfl)
    | with_reducible apply State.fresh_keeps (hm := Mask.le hm rfl)
    | with_reducible apply State.setCore_keeps (hm := Mask.le hm rfl)
    | (intro x; intros; try dsimp only)
    | dsimp only
    | split
    | refine Keeps.snd (by assumption) ?_)

theorem State.xbarError_keeps {m : Nat} {s0 s : State} (p : Nat) (id : Nat) (h : Keeps m s0 s)
    (hm : 11640972 &&& m = 11640972 := by exact Mask.le (by assumption) rfl) :
    Keeps m s0 (State.xbarError s p id) := by
  unfold State.xbarError
  try dsimp only
  repeat' (first
    | with_reducible assumption
    | with_reducible apply State.poisonPkt_keeps (hm := Mask.le hm rfl)
    | with_reducible apply State.fault_keeps (hm := Mask.le hm rfl)
    | (intro x; intros; try dsimp only)
    | dsimp only
    | split)

theorem State.cscError_keeps {m : Nat} {s0 s : State} (u : Nat) (h : Keeps m s0 s)
    (hm : 45195452 &&& m = 45195452 := by exact Mask.le (by assumption) rfl) :
    Keeps m s0 (State.cscError s u) := by
  unfold State.cscError
  try dsimp only
  repeat' (first
    | with_reducible assumption
    | with_reducible apply State.unitLost_keeps (hm := Mask.le hm rfl)
    | with_reducible apply State.fault_keeps (hm := Mask.le hm rfl)
    | (intro x; intros; try dsimp only)
    | dsimp only
    | split)

theorem State.freezeReq_keeps {m : Nat} {s0 s : State} (t : Nat) (h : Keeps m s0 s)
    (hm : 65536 &&& m = 65536 := by exact Mask.le (by assumption) rfl) :
    Keeps m s0 (State.freezeReq s t) := by
  unfold State.freezeReq
  try dsimp only
  repeat' (first
    | with_reducible assumption
    | exact fun (hb : Nat.testBit _ _ = _) => (Mask.off hm hb rfl).elim
    | with_reducible exact fun _ => rfl
    | (intro x; intros; try dsimp only)
    | dsimp only
    | split
    | with_reducible apply Keeps.upd)

theorem State.freezeSoon_keeps {m : Nat} {s0 s : State}  (h : Keeps m s0 s)
    (hm : 65536 &&& m = 65536 := by exact Mask.le (by assumption) rfl) :
    Keeps m s0 (State.freezeSoon s) := by
  unfold State.freezeSoon
  try dsimp only
  repeat' (first
    | with_reducible assumption
    | with_reducible apply State.freezeReq_keeps (hm := Mask.le hm rfl)
    | (intro x; intros; try dsimp only)
    | dsimp only
    | split)

theorem State.freezeAtTime_keeps {m : Nat} {s0 s : State}  (h : Keeps m s0 s)
    (hm : 65536 &&& m = 65536 := by exact Mask.le (by assumption) rfl) :
    Keeps m s0 (State.freezeAtTime s) := by
  unfold State.freezeAtTime
  try dsimp only
  repeat' (first
    | with_reducible assumption
    | with_reducible apply State.freezeReq_keeps (hm := Mask.le hm rfl)
    | (intro x; intros; try dsimp only)
    | dsimp only
    | split)

theorem State.unfreeze_keeps {m : Nat} {s0 s : State}  (h : Keeps m s0 s)
    (hm : 65540 &&& m = 65540 := by exact Mask.le (by assumption) rfl) :
    Keeps m s0 (State.unfreeze s) := by
  unfold State.unfreeze
  try dsimp only
  repeat' (first
    | with_reducible assumption
    | with_reducible apply State.setFlag_keeps (hm := Mask.le hm rfl)
    | exact fun (hb : Nat.testBit _ _ = _) => (Mask.off hm hb rfl).elim
    | with_reducible exact fun _ => rfl
    | (intro x; intros; try dsimp only)
    | dsimp only
    | split
    | with_reducible apply Keeps.upd)

theorem wf_putAll {d : Nat → Word} {m : SMap Word} (h : SMap.wf d m = true) (l : List (Nat × Word)) :
    SMap.wf d (l.foldl (fun m e => SMap.put d m e.1 e.2) m) = true := by
  induction l generalizing m with
  | nil => exact h
  | cons e l ih => exact ih (SMap.wf_put h e.1 e.2)

theorem State.freeze_keeps {m : Nat} {s0 s : State} (t : Nat) (h : Keeps m s0 s)
    (hm : 65540 &&& m = 65540 := by exact Mask.le (by assumption) rfl) :
    Keeps m s0 (State.freeze s t) := by
  unfold State.freeze
  extract_lets snaps rest regs p s1 s2
  have h1 : Keeps m s0 s1 := by
    refine Keeps.upd (State.regsRaw_keeps regs (fun k => wf_putAll (SMap.wf_filter k.regs _) snaps) h) ?_ ?_ ?_ ?_ ?_ ?_ ?_ ?_ ?_ ?_ ?_ ?_ ?_ ?_ ?_ ?_ ?_ ?_ ?_ ?_ <;> first | exact fun hb => (Mask.off hm hb rfl).elim | exact fun _ => rfl
  clear_value s1
  have h2 : Keeps m s0 s2 := State.setFlag_keeps _ _ _ _ (State.setFld_keeps _ _ _ _ h1)
  clear_value s2
  split
  · exact h2
  · exact State.setFlag_keeps _ _ _ _ h2

theorem State.countUp_keeps {m : Nat} {s0 s : State} (x : Nat × EvSel × Nat × Nat × Nat) (h : Keeps m s0 s)
    (hm : 65676 &&& m = 65676 := by exact Mask.le (by assumption) rfl) :
    Keeps m s0 (State.countUp s x) := by
  unfold State.countUp
  try dsimp only
  repeat' (first
    | with_reducible assumption
    | with_reducible apply State.setFld_keeps (hm := Mask.le hm rfl)
    | with_reducible apply State.setFlag_keeps (hm := Mask.le hm rfl)
    | with_reducible apply State.blockVec_keeps (hm := Mask.le hm rfl)
    | with_reducible apply State.freezeSoon_keeps (hm := Mask.le hm rfl)
    | exact fun (hb : Nat.testBit _ _ = _) => (Mask.off hm hb rfl).elim
    | with_reducible exact fun _ => rfl
    | (intro x; intros; try dsimp only)
    | dsimp only
    | split
    | with_reducible apply Keeps.upd)

theorem State.clock_keeps {m : Nat} {s0 s : State} (t : Nat) (h : Keeps m s0 s)
    (hm : 65677 &&& m = 65677 := by exact Mask.le (by assumption) rfl) :
    Keeps m s0 (State.clock s t) := by
  unfold State.clock
  have ok : ∀ n p, s.Ok → State.Ok { s with now := n, pmc := p } := fun n p k =>
    ⟨k.fmem, k.hmem, k.spdMem, k.flash, k.regs, k.ctxs, k.semTable, k.sems⟩
  extract_lets n adds p s1
  split
  · exact h.trans ⟨rfl, Nat.le_max_left _ _, List.prefix_rfl, Nat.le_refl _, fun k => ok _ s.pmc k,
      fun p hp => by cases p <;> first | exact (Mask.off hm hp rfl).elim | rfl⟩
  · next hn =>
    have h1 : Keeps m s0 s1 := by
      refine h.trans ⟨rfl, ?_, List.prefix_rfl, Nat.le_refl _, fun k => ok _ _ k,
        fun p hp => by cases p <;> first | exact (Mask.off hm hp rfl).elim | rfl⟩
      show s.now ≤ t
      have : t / 500 - s.now / 500 ≠ 0 := hn
      omega
    clear_value s1 adds
    exact Keeps.foldl (fun s x hs => State.countUp_keeps _ hs) h1

theorem State.advanceBy_keeps {m : Nat} {s0 s : State} (t : Nat) (a : Nat) (h : Keeps m s0 s)
    (hm : 65677 &&& m = 65677 := by exact Mask.le (by assumption) rfl) :
    Keeps m s0 (State.advanceBy s t a) := by
  induction a generalizing s with
  | zero =>
    try unfold State.advanceBy
    try dsimp only
    repeat' (first
      | with_reducible assumption
      | with_reducible apply State.clock_keeps (hm := Mask.le hm rfl)
      | with_reducible apply State.freeze_keeps (hm := Mask.le hm rfl)
      | (intro x; intros; try dsimp only)
      | dsimp only
      | split)
  | succ n ih =>
    try unfold State.advanceBy
    try dsimp only
    repeat' (first
      | with_reducible apply ih
      | with_reducible assumption
      | with_reducible apply State.clock_keeps (hm := Mask.le hm rfl)
      | with_reducible apply State.freeze_keeps (hm := Mask.le hm rfl)
      | (intro x; intros; try dsimp only)
      | dsimp only
      | split)

theorem State.advance_keeps {m : Nat} {s0 s : State} (t : Nat) (h : Keeps m s0 s)
    (hm : 65677 &&& m = 65677 := by exact Mask.le (by assumption) rfl) :
    Keeps m s0 (State.advance s t) := by
  unfold State.advance
  try dsimp only
  repeat' (first
    | with_reducible assumption
    | with_reducible apply State.advanceBy_keeps (hm := Mask.le hm rfl)
    | (intro x; intros; try dsimp only)
    | dsimp only
    | split)

theorem State.endCycle_keeps {m : Nat} {s0 s : State}  (h : Keeps m s0 s)
    (hm : 65677 &&& m = 65677 := by exact Mask.le (by assumption) rfl) :
    Keeps m s0 (State.endCycle s) := by
  unfold State.endCycle
  try dsimp only
  repeat' (first
    | with_reducible assumption
    | with_reducible apply State.advance_keeps (hm := Mask.le hm rfl)
    | (intro x; intros; try dsimp only)
    | dsimp only
    | split)

theorem State.overflow_keeps {m : Nat} {s0 s : State} (n : Nat) (h : Keeps m s0 s)
    (hm : 65677 &&& m = 65677 := by exact Mask.le (by assumption) rfl) :
    Keeps m s0 (State.overflow s n) := by
  unfold State.overflow
  try dsimp only
  repeat' (first
    | with_reducible assumption
    | with_reducible apply State.advance_keeps (hm := Mask.le hm rfl)
    | (intro x; intros; try dsimp only)
    | dsimp only
    | split)

theorem State.freezeTick_keeps {m : Nat} {s0 s : State}  (h : Keeps m s0 s)
    (hm : 65677 &&& m = 65677 := by exact Mask.le (by assumption) rfl) :
    Keeps m s0 (State.freezeTick s) := by
  unfold State.freezeTick
  try dsimp only
  repeat' (first
    | with_reducible assumption
    | with_reducible apply State.advance_keeps (hm := Mask.le hm rfl)
    | with_reducible apply State.freeze_keeps (hm := Mask.le hm rfl)
    | (intro x; intros; try dsimp only)
    | dsimp only
    | split)

theorem State.sampleWrite_keeps {m : Nat} {s0 s : State} (slot : Nat) (v : Sample) (h : Keeps m s0 s)
    (hm : 1155212 &&& m = 1155212 := by exact Mask.le (by assumption) rfl) :
    Keeps m s0 (State.sampleWrite s slot v) := by
  unfold State.sampleWrite
  try dsimp only
  repeat' (first
    | with_reducible assumption
    | with_reducible apply State.fault_keeps (hm := Mask.le hm rfl)
    | with_reducible apply State.bump_keeps (hm := Mask.le hm rfl)
    | with_reducible apply State.pmcEv_keeps (hm := Mask.le hm rfl)
    | with_reducible apply State.setFld_keeps (hm := Mask.le hm rfl)
    | exact fun (hb : Nat.testBit _ _ = _) => (Mask.off hm hb rfl).elim
    | with_reducible exact fun _ => rfl
    | (intro x; intros; try dsimp only)
    | dsimp only
    | split
    | with_reducible apply Keeps.upd)

theorem State.sampleRecord_keeps {m : Nat} {s0 s : State} (slot : Nat) (h : Keeps m s0 s)
    (hm : 1155212 &&& m = 1155212 := by exact Mask.le (by assumption) rfl) :
    Keeps m s0 (State.sampleRecord s slot) := by
  unfold State.sampleRecord
  try dsimp only
  repeat' (first
    | with_reducible assumption
    | with_reducible apply State.sampleWrite_keeps (hm := Mask.le hm rfl)
    | (intro x; intros; try dsimp only)
    | dsimp only
    | split)

theorem State.sampleLimit_keeps {m : Nat} {s0 s : State} (slot : Nat) (h : Keeps m s0 s)
    (hm : 1155213 &&& m = 1155213 := by exact Mask.le (by assumption) rfl) :
    Keeps m s0 (State.sampleLimit s slot) := by
  unfold State.sampleLimit
  try dsimp only
  repeat' (first
    | with_reducible assumption
    | with_reducible apply State.advance_keeps (hm := Mask.le hm rfl)
    | with_reducible apply State.sampleWrite_keeps (hm := Mask.le hm rfl)
    | (intro x; intros; try dsimp only)
    | dsimp only
    | split)

theorem State.sendFrame_keeps {m : Nat} {s0 s : State} (l : Nat) (h : Keeps m s0 s)
    (hm : 4259848 &&& m = 4259848 := by exact Mask.le (by assumption) rfl) :
    Keeps m s0 (State.sendFrame s l) := by
  unfold State.sendFrame
  try dsimp only
  repeat' (first
    | with_reducible assumption
    | with_reducible apply State.sendLevels_keeps (hm := Mask.le hm rfl)
    | with_reducible apply State.emit_keeps (hm := Mask.le hm rfl)
    | with_reducible apply State.setLane_keeps (hm := Mask.le hm rfl)
    | (intro x; intros; try dsimp only)
    | dsimp only
    | split)

theorem State.freeBytes_keeps {m : Nat} {s0 s : State} (a : Nat) (h : Keeps m s0 s)
    (hm : 32 &&& m = 32 := by exact Mask.le (by assumption) rfl) :
    Keeps m s0 (State.freeBytes s a).2 := by
  induction a generalizing s with
  | zero =>
    try unfold State.freeBytes
    try dsimp only
    repeat' (first
      | with_reducible assumption
      | with_reducible apply State.fresh_keeps (hm := Mask.le hm rfl)
      | (intro x; intros; try dsimp only)
      | dsimp only
      | split
      | refine Keeps.snd (by assumption) ?_)
  | succ n ih =>
    try unfold State.freeBytes
    try dsimp only
    repeat' (first
      | with_reducible apply ih
      | with_reducible assumption
      | with_reducible apply State.fresh_keeps (hm := Mask.le hm rfl)
      | (intro x; intros; try dsimp only)
      | dsimp only
      | split
      | refine Keeps.snd (by assumption) ?_)

theorem State.sendFiller_keeps {m : Nat} {s0 s : State} (p : Nat) (h : Keeps m s0 s)
    (hm : 4259884 &&& m = 4259884 := by exact Mask.le (by assumption) rfl) :
    Keeps m s0 (State.sendFiller s p) := by
  unfold State.sendFiller
  try dsimp only
  repeat' (first
    | with_reducible assumption
    | with_reducible apply State.sendMarker_keeps (hm := Mask.le hm rfl)
    | with_reducible apply State.freeBytes_keeps (hm := Mask.le hm rfl)
    | with_reducible apply State.sendData_keeps (hm := Mask.le hm rfl)
    | with_reducible apply State.setLanTx_keeps (hm := Mask.le hm rfl)
    | (intro x; intros; try dsimp only)
    | dsimp only
    | split
    | refine Keeps.snd (by assumption) ?_)

theorem State.genBits_keeps {m : Nat} {s0 s : State} (l : Nat) (n : Nat) (h : Keeps m s0 s)
    (hm : 4194304 &&& m = 4194304 := by exact Mask.le (by assumption) rfl) :
    Keeps m s0 (State.genBits s l n).2 := by
  unfold State.genBits
  try dsimp only
  repeat' (first
    | with_reducible assumption
    | with_reducible apply State.setLane_keeps (hm := Mask.le hm rfl)
    | (intro x; intros; try dsimp only)
    | dsimp only
    | split)

theorem State.sendPattern_keeps {m : Nat} {s0 s : State} (l : Nat) (t0 : Nat) (t1 : Nat) (h : Keeps m s0 s)
    (hm : 4259848 &&& m = 4259848 := by exact Mask.le (by assumption) rfl) :
    Keeps m s0 (State.sendPattern s l t0 t1) := by
  unfold State.sendPattern
  try dsimp only
  repeat' (first
    | with_reducible assumption
    | with_reducible apply State.genBits_keeps (hm := Mask.le hm rfl)
    | with_reducible apply State.emit_keeps (hm := Mask.le hm rfl)
    | with_reducible apply State.sendLevels_keeps (hm := Mask.le hm rfl)
    | (intro x; intros; try dsimp only)
    | dsimp only
    | split
    | refine Keeps.snd (by assumption) ?_)

theorem State.laneSends_keeps {m : Nat} {s0 s : State} (l : Nat) (t0 : Nat) (t1 : Nat) (h : Keeps m s0 s)
    (hm : 4259848 &&& m = 4259848 := by exact Mask.le (by assumption) rfl) :
    Keeps m s0 (State.laneSends s l t0 t1) := by
  unfold State.laneSends
  try dsimp only
  repeat' (first
    | with_reducible assumption
    | with_reducible apply State.sendFrame_keeps (hm := Mask.le hm rfl)
    | with_reducible apply State.sendPattern_keeps (hm := Mask.le hm rfl)
    | with_reducible apply Keeps.foldl
    | with_reducible apply Keeps.foldlSnd
    | with_reducible apply Keeps.foldlFst
    | (intro x; intros; try dsimp only)
    | dsimp only
    | split)

theorem State.portSends_keeps {m : Nat} {s0 s : State} (p : Nat) (t0 : Nat) (t1 : Nat) (h : Keeps m s0 s)
    (hm : 4259884 &&& m = 4259884 := by exact Mask.le (by assumption) rfl) :
    Keeps m s0 (State.portSends s p t0 t1) := by
  unfold State.portSends
  try dsimp only
  repeat' (first
    | with_reducible assumption
    | with_reducible apply State.setLanTx_keeps (hm := Mask.le hm rfl)
    | with_reducible apply State.sendChars_keeps (hm := Mask.le hm rfl)
    | with_reducible apply State.sendFiller_keeps (hm := Mask.le hm rfl)
    | with_reducible apply Keeps.foldl
    | with_reducible apply Keeps.foldlSnd
    | with_reducible apply Keeps.foldlFst
    | (intro x; intros; try dsimp only)
    | dsimp only
    | split)

theorem State.lineSends_keeps {m : Nat} {s0 s : State} (t0 : Nat) (t1 : Nat) (h : Keeps m s0 s)
    (hm : 4259884 &&& m = 4259884 := by exact Mask.le (by assumption) rfl) :
    Keeps m s0 (State.lineSends s t0 t1) := by
  unfold State.lineSends
  try dsimp only
  repeat' (first
    | with_reducible assumption
    | with_reducible apply State.portSends_keeps (hm := Mask.le hm rfl)
    | with_reducible apply State.laneSends_keeps (hm := Mask.le hm rfl)
    | with_reducible apply Keeps.foldl
    | with_reducible apply Keeps.foldlSnd
    | with_reducible apply Keeps.foldlFst
    | (intro x; intros; try dsimp only)
    | dsimp only
    | split)

theorem State.lineCycle_keeps {m : Nat} {s0 s : State}  (h : Keeps m s0 s)
    (hm : 4260013 &&& m = 4260013 := by exact Mask.le (by assumption) rfl) :
    Keeps m s0 (State.lineCycle s) := by
  unfold State.lineCycle
  try dsimp only
  repeat' (first
    | with_reducible assumption
    | with_reducible apply State.endCycle_keeps (hm := Mask.le hm rfl)
    | with_reducible apply State.lineSends_keeps (hm := Mask.le hm rfl)
    | (intro x; intros; try dsimp only)
    | dsimp only
    | split)

theorem State.resetOutputs_keeps {m : Nat} {s0 s : State}  (h : Keeps m s0 s)
    (hm : 65544 &&& m = 65544 := by exact Mask.le (by assumption) rfl) :
    Keeps m s0 (State.resetOutputs s) := by
  unfold State.resetOutputs
  try dsimp only
  repeat' (first
    | with_reducible assumption
    | with_reducible apply State.emit_keeps (hm := Mask.le hm rfl)
    | with_reducible apply Keeps.foldl
    | with_reducible apply Keeps.foldlSnd
    | with_reducible apply Keeps.foldlFst
    | (intro x; intros; try dsimp only)
    | dsimp only
    | split)

theorem State.reset_ok : State.reset.Ok :=
  ⟨rfl, rfl, rfl, rfl, rfl, rfl, rfl, fun _ => ⟨fun _ => rfl, fun w hw => absurd hw List.not_mem_nil, List.nodup_nil,
    Nat.zero_le _⟩⟩

theorem State.cleared_keeps {m : Nat} {s0 s : State}  (h : Keeps m s0 s)
    (hm : 536870868 &&& m = 536870868 := by exact Mask.le (by assumption) rfl) :
    Keeps m s0 (State.cleared s) := by
  unfold State.cleared
  extract_lets ps _ _ _ _ _ _ t t2 t3
  have h1 : Keeps m s0 t := h.trans ⟨rfl, Nat.le_refl _, List.prefix_rfl, Nat.le_refl _, fun k =>
    ⟨State.reset_ok.fmem, State.reset_ok.hmem, State.reset_ok.spdMem, k.flash, State.reset_ok.regs, State.reset_ok.ctxs,
      State.reset_ok.semTable, State.reset_ok.sems⟩,
    fun p hp => by cases p <;> first | exact (Mask.off hm hp rfl).elim | rfl⟩
  clear_value t
  exact State.setFlag_keeps _ _ _ _ (State.setFld_keeps _ _ _ _ (State.setFld_keeps _ _ _ _ (State.setFld_keeps _ _ _ _
    (State.setFld_keeps _ _ _ _ h1))))

theorem State.deviceReset_keeps {m : Nat} {s0 s : State} (cause : Nat) (h : Keeps m s0 s)
    (hm : 536870876 &&& m = 536870876 := by exact Mask.le (by assumption) rfl) :
    Keeps m s0 (State.deviceReset s cause) := by
  unfold State.deviceReset
  extract_lets s1 q s2
  have h1 : Keeps m s0 s1 := State.cleared_keeps (State.resetOutputs_keeps h)
  clear_value s1
  have h2 : Keeps m s0 s2 := by
    refine Keeps.upd h1 ?_ ?_ ?_ ?_ ?_ ?_ ?_ ?_ ?_ ?_ ?_ ?_ ?_ ?_ ?_ ?_ ?_ ?_ ?_ ?_ <;>
      first | exact fun hb => (Mask.off hm hb rfl).elim | exact fun _ => rfl
  clear_value s2
  exact State.logMarker_keeps _ _ _ h2

theorem State.powerFall_keeps {m : Nat} {s0 s : State}  (h : Keeps m s0 s)
    (hm : 536870876 &&& m = 536870876 := by exact Mask.le (by assumption) rfl) :
    Keeps m s0 (State.powerFall s) := by
  unfold State.powerFall
  split
  · exact h
  extract_lets s1 q1 q2 s2
  have h1 : Keeps m s0 s1 := State.cleared_keeps (State.resetOutputs_keeps h)
  clear_value s1
  have h2 : Keeps m s0 s2 := by
    refine Keeps.upd h1 ?_ ?_ ?_ ?_ ?_ ?_ ?_ ?_ ?_ ?_ ?_ ?_ ?_ ?_ ?_ ?_ ?_ ?_ ?_ ?_ <;>
      first | exact fun hb => (Mask.off hm hb rfl).elim | exact fun _ => rfl
  clear_value s2
  exact State.setFld_keeps _ _ _ _ (State.setFld_keeps _ _ _ _ (State.setFld_keeps _ _ _ _ (State.setFld_keeps _ _ _ _ h2)))

theorem State.resetWhenSealed_keeps {m : Nat} {s0 s : State}  (h : Keeps m s0 s)
    (hm : 536870876 &&& m = 536870876 := by exact Mask.le (by assumption) rfl) :
    Keeps m s0 (State.resetWhenSealed s) := by
  unfold State.resetWhenSealed
  try dsimp only
  repeat' (first
    | with_reducible assumption
    | with_reducible apply State.deviceReset_keeps (hm := Mask.le hm rfl)
    | (intro x; intros; try dsimp only)
    | dsimp only
    | split)

theorem State.topReset_keeps {m : Nat} {s0 s : State}  (h : Keeps m s0 s)
    (hm : 536870876 &&& m = 536870876 := by exact Mask.le (by assumption) rfl) :
    Keeps m s0 (State.topReset s) := by
  unfold State.topReset
  try dsimp only
  repeat' (first
    | with_reducible assumption
    | with_reducible apply State.resetWhenSealed_keeps (hm := Mask.le hm rfl)
    | with_reducible apply State.sealStart_keeps (hm := Mask.le hm rfl)
    | exact fun (hb : Nat.testBit _ _ = _) => (Mask.off hm hb rfl).elim
    | with_reducible exact fun _ => rfl
    | (intro x; intros; try dsimp only)
    | dsimp only
    | split
    | with_reducible apply Keeps.upd)

theorem State.powerRise_keeps {m : Nat} {s0 s : State} (addrSel : Nat) (rails : Nat) (h : Keeps m s0 s)
    (hm : 17907716 &&& m = 17907716 := by exact Mask.le (by assumption) rfl) :
    Keeps m s0 (State.powerRise s addrSel rails) := by
  unfold State.powerRise
  try dsimp only
  repeat' (first
    | with_reducible assumption
    | with_reducible apply State.setFld_keeps (hm := Mask.le hm rfl)
    | with_reducible apply State.setFlag_keeps (hm := Mask.le hm rfl)
    | with_reducible apply State.logMarker_keeps (hm := Mask.le hm rfl)
    | exact fun (hb : Nat.testBit _ _ = _) => (Mask.off hm hb rfl).elim
    | with_reducible exact fun _ => rfl
    | (intro x; intros; try dsimp only)
    | dsimp only
    | split
    | with_reducible apply Keeps.upd)

theorem State.atStep_keeps {m : Nat} {s0 s : State} (n : Nat) (h : Keeps m s0 s)
    (hm : 16777216 &&& m = 16777216 := by exact Mask.le (by assumption) rfl) :
    Keeps m s0 (State.atStep s n) := by
  unfold State.atStep
  try dsimp only
  repeat' (first
    | with_reducible assumption
    | exact fun (hb : Nat.testBit _ _ = _) => (Mask.off hm hb rfl).elim
    | with_reducible exact fun _ => rfl
    | (intro x; intros; try dsimp only)
    | dsimp only
    | split
    | with_reducible apply Keeps.upd)

theorem State.railsSettled_keeps {m : Nat} {s0 s : State}  (h : Keeps m s0 s)
    (hm : 65677 &&& m = 65677 := by exact Mask.le (by assumption) rfl) :
    Keeps m s0 (State.railsSettled s) := by
  unfold State.railsSettled
  try dsimp only
  repeat' (first
    | with_reducible assumption
    | with_reducible apply State.setFld_keeps (hm := Mask.le hm rfl)
    | with_reducible apply State.advance_keeps (hm := Mask.le hm rfl)
    | (intro x; intros; try dsimp only)
    | dsimp only
    | split)

theorem State.spdFuses_keeps {m : Nat} {s0 s : State} (repairs : List (Nat × Nat)) (h : Keeps m s0 s)
    (hm : 4 &&& m = 4 := by exact Mask.le (by assumption) rfl) :
    Keeps m s0 (State.spdFuses s repairs) := by
  unfold State.spdFuses
  try dsimp only
  repeat' (first
    | with_reducible assumption
    | with_reducible apply State.setFld_keeps (hm := Mask.le hm rfl)
    | with_reducible apply Keeps.foldl
    | with_reducible apply Keeps.foldlSnd
    | with_reducible apply Keeps.foldlFst
    | with_reducible apply Keeps.getD
    | with_reducible apply OptKeeps.mapState
    | with_reducible apply OptKeeps.map
    | (intro x; intros; try dsimp only)
    | dsimp only
    | split)

theorem State.fusesSensed_keeps {m : Nat} {s0 s : State} (fuses : Fuses) (h : Keeps m s0 s)
    (hm : 16842893 &&& m = 16842893 := by exact Mask.le (by assumption) rfl) :
    Keeps m s0 (State.fusesSensed s fuses) := by
  unfold State.fusesSensed
  try dsimp only
  repeat' (first
    | with_reducible assumption
    | with_reducible apply State.atStep_keeps (hm := Mask.le hm rfl)
    | with_reducible apply State.railsSettled_keeps (hm := Mask.le hm rfl)
    | with_reducible apply State.setFld_keeps (hm := Mask.le hm rfl)
    | with_reducible apply State.spdFuses_keeps (hm := Mask.le hm rfl)
    | with_reducible apply Keeps.getD
    | exact fun (hb : Nat.testBit _ _ = _) => (Mask.off hm hb rfl).elim
    | with_reducible exact fun _ => rfl
    | (intro x; intros; try dsimp only)
    | dsimp only
    | split
    | with_reducible apply Keeps.upd)

theorem State.pllLocked_keeps {m : Nat} {s0 s : State}  (h : Keeps m s0 s)
    (hm : 16777220 &&& m = 16777220 := by exact Mask.le (by assumption) rfl) :
    Keeps m s0 (State.pllLocked s) := by
  unfold State.pllLocked
  try dsimp only
  repeat' (first
    | with_reducible assumption
    | with_reducible apply State.setFld_keeps (hm := Mask.le hm rfl)
    | with_reducible apply State.atStep_keeps (hm := Mask.le hm rfl)
    | (intro x; intros; try dsimp only)
    | dsimp only
    | split)

theorem State.setSlotCode_keeps {m : Nat} {s0 s : State} (slot : Nat) (code : Nat) (h : Keeps m s0 s)
    (hm : 4 &&& m = 4 := by exact Mask.le (by assumption) rfl) :
    Keeps m s0 (State.setSlotCode s slot code) := by
  unfold State.setSlotCode
  try dsimp only
  repeat' (first
    | with_reducible assumption
    | with_reducible apply State.setFld_keeps (hm := Mask.le hm rfl)
    | (intro x; intros; try dsimp only)
    | dsimp only
    | split)

theorem State.bootFailed_keeps {m : Nat} {s0 s : State}  (h : Keeps m s0 s)
    (hm : 65676 &&& m = 65676 := by exact Mask.le (by assumption) rfl) :
    Keeps m s0 (State.bootFailed s) := by
  unfold State.bootFailed
  try dsimp only
  repeat' (first
    | with_reducible assumption
    | with_reducible apply State.setFld_keeps (hm := Mask.le hm rfl)
    | with_reducible apply State.portExit_keeps (hm := Mask.le hm rfl)
    | with_reducible apply Keeps.foldl
    | with_reducible apply Keeps.foldlSnd
    | with_reducible apply Keeps.foldlFst
    | (intro x; intros; try dsimp only)
    | dsimp only
    | split)

theorem State.headersChecked_keeps {m : Nat} {s0 s : State}  (h : Keeps m s0 s)
    (hm : 16842892 &&& m = 16842892 := by exact Mask.le (by assumption) rfl) :
    Keeps m s0 (State.headersChecked s) := by
  unfold State.headersChecked
  try dsimp only
  repeat' (first
    | with_reducible assumption
    | with_reducible apply State.setSlotCode_keeps (hm := Mask.le hm rfl)
    | with_reducible apply State.atStep_keeps (hm := Mask.le hm rfl)
    | with_reducible apply State.setFld_keeps (hm := Mask.le hm rfl)
    | with_reducible apply State.bootFailed_keeps (hm := Mask.le hm rfl)
    | exact fun (hb : Nat.testBit _ _ = _) => (Mask.off hm hb rfl).elim
    | with_reducible exact fun _ => rfl
    | (intro x; intros; try dsimp only)
    | dsimp only
    | split
    | with_reducible apply Keeps.upd)

theorem State.candidateBad_keeps {m : Nat} {s0 s : State} (code : Nat) (h : Keeps m s0 s)
    (hm : 16842892 &&& m = 16842892 := by exact Mask.le (by assumption) rfl) :
    Keeps m s0 (State.candidateBad s code) := by
  unfold State.candidateBad
  try dsimp only
  repeat' (first
    | with_reducible assumption
    | with_reducible apply State.setSlotCode_keeps (hm := Mask.le hm rfl)
    | with_reducible apply State.bootFailed_keeps (hm := Mask.le hm rfl)
    | exact fun (hb : Nat.testBit _ _ = _) => (Mask.off hm hb rfl).elim
    | with_reducible exact fun _ => rfl
    | (intro x; intros; try dsimp only)
    | dsimp only
    | split
    | with_reducible apply Keeps.upd)

theorem State.loadSlot_keeps {m : Nat} {s0 s : State}  (h : Keeps m s0 s)
    (hm : 16777220 &&& m = 16777220 := by exact Mask.le (by assumption) rfl) :
    Keeps m s0 (State.loadSlot s) := by
  unfold State.loadSlot
  try dsimp only
  repeat' (first
    | with_reducible assumption
    | with_reducible apply State.setFld_keeps (hm := Mask.le hm rfl)
    | with_reducible apply State.setFlag_keeps (hm := Mask.le hm rfl)
    | exact fun (hb : Nat.testBit _ _ = _) => (Mask.off hm hb rfl).elim
    | with_reducible exact fun _ => rfl
    | (intro x; intros; try dsimp only)
    | dsimp only
    | split
    | with_reducible apply Keeps.upd)

theorem State.hbmTrained_keeps {m : Nat} {s0 s : State}  (h : Keeps m s0 s)
    (hm : 16777216 &&& m = 16777216 := by exact Mask.le (by assumption) rfl) :
    Keeps m s0 (State.hbmTrained s) := by
  unfold State.hbmTrained
  try dsimp only
  repeat' (first
    | with_reducible assumption
    | exact fun (hb : Nat.testBit _ _ = _) => (Mask.off hm hb rfl).elim
    | with_reducible exact fun _ => rfl
    | (intro x; intros; try dsimp only)
    | dsimp only
    | split
    | with_reducible apply Keeps.upd)

theorem State.hbmZeroed_keeps {m : Nat} {s0 s : State}  (h : Keeps m s0 s)
    (hm : 336675840 &&& m = 336675840 := by exact Mask.le (by assumption) rfl) :
    Keeps m s0 (State.hbmZeroed s) := by
  unfold State.hbmZeroed
  split
  · exact h
  · refine Keeps.upd (State.hmemRaw_keeps [] (fun _ => rfl) (State.fmemStoreRaw_keeps [] (fun _ => rfl) h)) ?_ ?_ ?_ ?_ ?_ ?_ ?_ ?_ ?_ ?_ ?_ ?_ ?_ ?_ ?_ ?_ ?_ ?_ ?_ ?_ <;> first | exact fun hb => (Mask.off hm hb rfl).elim | exact fun _ => rfl

theorem State.bootWait_keeps {m : Nat} {s0 s : State}  (h : Keeps m s0 s)
    (hm : 16777216 &&& m = 16777216 := by exact Mask.le (by assumption) rfl) :
    Keeps m s0 (State.bootWait s) := by
  unfold State.bootWait
  try dsimp only
  repeat' (first
    | with_reducible assumption
    | exact fun (hb : Nat.testBit _ _ = _) => (Mask.off hm hb rfl).elim
    | with_reducible exact fun _ => rfl
    | (intro x; intros; try dsimp only)
    | dsimp only
    | split
    | with_reducible apply Keeps.upd)

theorem State.bootWaitEdge_keeps {m : Nat} {s0 s : State} (low : Bool) (h : Keeps m s0 s)
    (hm : 16777216 &&& m = 16777216 := by exact Mask.le (by assumption) rfl) :
    Keeps m s0 (State.bootWaitEdge s low) := by
  unfold State.bootWaitEdge
  try dsimp only
  repeat' (first
    | with_reducible assumption
    | exact fun (hb : Nat.testBit _ _ = _) => (Mask.off hm hb rfl).elim
    | with_reducible exact fun _ => rfl
    | (intro x; intros; try dsimp only)
    | dsimp only
    | split
    | with_reducible apply Keeps.upd)

theorem State.bootWatchdog_keeps {m : Nat} {s0 s : State}  (h : Keeps m s0 s)
    (hm : 536870877 &&& m = 536870877 := by exact Mask.le (by assumption) rfl) :
    Keeps m s0 (State.bootWatchdog s) := by
  unfold State.bootWatchdog
  try dsimp only
  repeat' (first
    | with_reducible assumption
    | with_reducible apply State.advance_keeps (hm := Mask.le hm rfl)
    | with_reducible apply State.bootFailed_keeps (hm := Mask.le hm rfl)
    | with_reducible apply State.deviceReset_keeps (hm := Mask.le hm rfl)
    | exact fun (hb : Nat.testBit _ _ = _) => (Mask.off hm hb rfl).elim
    | with_reducible exact fun _ => rfl
    | (intro x; intros; try dsimp only)
    | dsimp only
    | split
    | with_reducible apply Keeps.upd)

theorem State.flashNext_keeps {m : Nat} {s0 s : State}  (h : Keeps m s0 s)
    (hm : 4 &&& m = 4 := by exact Mask.le (by assumption) rfl) :
    Keeps m s0 (State.flashNext s) := by
  unfold State.flashNext
  try dsimp only
  repeat' (first
    | with_reducible assumption
    | with_reducible apply State.bump_keeps (hm := Mask.le hm rfl)
    | (intro x; intros; try dsimp only)
    | dsimp only
    | split)

theorem State.flashRead_keeps {m : Nat} {s0 s : State}  (h : Keeps m s0 s)
    (hm : 4 &&& m = 4 := by exact Mask.le (by assumption) rfl) :
    Keeps m s0 (State.flashRead s).2 := by
  unfold State.flashRead
  try dsimp only
  repeat' (first
    | with_reducible assumption
    | with_reducible apply State.flashNext_keeps (hm := Mask.le hm rfl)
    | (intro x; intros; try dsimp only)
    | dsimp only
    | split)

theorem State.flashRun_keeps {m : Nat} {s0 s : State} (t : Nat) (h : Keeps m s0 s)
    (hm : 16777220 &&& m = 16777220 := by exact Mask.le (by assumption) rfl) :
    Keeps m s0 (State.flashRun s t) := by
  unfold State.flashRun
  try dsimp only
  repeat' (first
    | with_reducible assumption
    | with_reducible apply State.setFlag_keeps (hm := Mask.le hm rfl)
    | exact fun (hb : Nat.testBit _ _ = _) => (Mask.off hm hb rfl).elim
    | with_reducible exact fun _ => rfl
    | (intro x; intros; try dsimp only)
    | dsimp only
    | split
    | with_reducible apply Keeps.upd)

theorem State.flashProgram_keeps {m : Nat} {s0 s : State} (w : Word) (h : Keeps m s0 s)
    (hm : 553648132 &&& m = 553648132 := by exact Mask.le (by assumption) rfl) :
    Keeps m s0 (State.flashProgram s w) := by
  exact State.flashRun_keeps _ (State.flashNext_keeps (State.flashRaw_keeps _ (fun k => Memory.wf_write k.flash _ _) h))

/-- A sector of 0xFF in place of what a memory held there keeps the canonical form. -/
theorem Memory.wf_sector {m : Memory} (h : m.wf = true) (lo : Nat) : Memory.wf (m.filter (fun e => e.1 < lo) ++
    ((List.range 65536).map fun i => (lo + i, (0xFF : Byte))) ++ m.filter (fun e => lo + 65536 ≤ e.1)) = true := by
  have hs : ∀ n, SMap.risingFrom lo ((List.range n).map fun i => (lo + i, (0xFF : Byte))) = true := by
    intro n
    induction n with
    | zero => rfl
    | succ n ih =>
      rw [List.range_succ, List.map_append]
      refine SMap.risingFrom_append (mid := lo + n) ih (by simp [SMap.risingFrom]) (by omega) fun e he => ?_
      obtain ⟨i, hi, rfl⟩ := List.mem_map.1 he
      have := List.mem_range.1 hi
      show lo + i < lo + n
      omega
  unfold Memory.wf at h ⊢
  rw [SMap.wf_iff] at h ⊢
  have up : ∀ (l : Memory), SMap.risingFrom 0 l = true → SMap.risingFrom (lo + 65536)
      (l.filter fun e => lo + 65536 ≤ e.1) = true := by
    intro l hl
    have g : ∀ k, SMap.risingFrom k l = true → SMap.risingFrom (max k (lo + 65536))
        (l.filter fun e => lo + 65536 ≤ e.1) = true := by
      clear hl
      induction l with
      | nil => intro k _; rfl
      | cons e l ih =>
        intro k hk
        simp only [SMap.risingFrom, Bool.and_eq_true, decide_eq_true_eq] at hk
        rw [List.filter_cons]
        have := ih _ hk.2
        split
        · next hd =>
          simp only [decide_eq_true_eq] at hd
          simp only [SMap.risingFrom, Bool.and_eq_true, decide_eq_true_eq]
          exact ⟨by omega, SMap.risingFrom_mono (by omega) this⟩
        · exact SMap.risingFrom_mono (by omega) this
    exact SMap.risingFrom_mono (by omega) (g 0 hl)
  refine ⟨?_, fun e he => ?_⟩
  · refine SMap.risingFrom_append (mid := lo + 65536) ?_ (up m h.1) (by omega) fun e he => ?_
    · refine SMap.risingFrom_append (mid := lo) (SMap.risingFrom_filter h.1) (hs _) (by omega) fun e he => ?_
      simpa using (List.mem_filter.1 he).2
    · rcases List.mem_append.1 he with he | he
      · have := (List.mem_filter.1 he).2
        simp only [decide_eq_true_eq] at this
        omega
      · obtain ⟨i, hi, rfl⟩ := List.mem_map.1 he
        have := List.mem_range.1 hi
        show lo + i < lo + 65536
        omega
  · rcases List.mem_append.1 he with he | he
    · rcases List.mem_append.1 he with he | he
      · exact h.2 e (List.mem_filter.1 he).1
      · obtain ⟨i, _, rfl⟩ := List.mem_map.1 he
        show (0xFF : Byte) ≠ 0
        decide
    · exact h.2 e (List.mem_filter.1 he).1

theorem State.flashErase_keeps {m : Nat} {s0 s : State}  (h : Keeps m s0 s)
    (hm : 553648132 &&& m = 553648132 := by exact Mask.le (by assumption) rfl) :
    Keeps m s0 (State.flashErase s) :=
  State.flashRun_keeps _ (State.flashRaw_keeps _ (fun k => Memory.wf_sector k.flash _) h)

theorem State.flashDone_keeps {m : Nat} {s0 s : State}  (h : Keeps m s0 s)
    (hm : 4 &&& m = 4 := by exact Mask.le (by assumption) rfl) :
    Keeps m s0 (State.flashDone s) := by
  unfold State.flashDone
  try dsimp only
  repeat' (first
    | with_reducible assumption
    | with_reducible apply State.setFlag_keeps (hm := Mask.le hm rfl)
    | (intro x; intros; try dsimp only)
    | dsimp only
    | split)

theorem State.verifyStart_keeps {m : Nat} {s0 s : State} (slot : Nat) (h : Keeps m s0 s)
    (hm : 16777220 &&& m = 16777220 := by exact Mask.le (by assumption) rfl) :
    Keeps m s0 (State.verifyStart s slot) := by
  unfold State.verifyStart
  try dsimp only
  repeat' (first
    | with_reducible assumption
    | with_reducible apply State.setFld_keeps (hm := Mask.le hm rfl)
    | exact fun (hb : Nat.testBit _ _ = _) => (Mask.off hm hb rfl).elim
    | with_reducible exact fun _ => rfl
    | (intro x; intros; try dsimp only)
    | dsimp only
    | split
    | with_reducible apply Keeps.upd)

theorem State.verifyDone_keeps {m : Nat} {s0 s : State} (place : Nat) (h : Keeps m s0 s)
    (hm : 16908292 &&& m = 16908292 := by exact Mask.le (by assumption) rfl) :
    Keeps m s0 (State.verifyDone s place) := by
  unfold State.verifyDone
  try dsimp only
  repeat' (first
    | with_reducible assumption
    | with_reducible apply State.setFld_keeps (hm := Mask.le hm rfl)
    | exact fun (hb : Nat.testBit _ _ = _) => (Mask.off hm hb rfl).elim
    | with_reducible exact fun _ => rfl
    | (intro x; intros; try dsimp only)
    | dsimp only
    | split
    | with_reducible apply Keeps.upd)

theorem State.updateStart_keeps {m : Nat} {s0 s : State}  (h : Keeps m s0 s)
    (hm : 16777220 &&& m = 16777220 := by exact Mask.le (by assumption) rfl) :
    Keeps m s0 (State.updateStart s) := by
  unfold State.updateStart
  try dsimp only
  repeat' (first
    | with_reducible assumption
    | with_reducible apply State.setFld_keeps (hm := Mask.le hm rfl)
    | exact fun (hb : Nat.testBit _ _ = _) => (Mask.off hm hb rfl).elim
    | with_reducible exact fun _ => rfl
    | (intro x; intros; try dsimp only)
    | dsimp only
    | split
    | with_reducible apply Keeps.upd)

theorem State.fwReady_keeps {m : Nat} {s0 s : State}  (h : Keeps m s0 s)
    (hm : 16859140 &&& m = 16859140 := by exact Mask.le (by assumption) rfl) :
    Keeps m s0 (State.fwReady s) := by
  unfold State.fwReady
  try dsimp only
  repeat' (first
    | with_reducible assumption
    | with_reducible apply State.setFld_keeps (hm := Mask.le hm rfl)
    | with_reducible apply State.logMarker_keeps (hm := Mask.le hm rfl)
    | exact fun (hb : Nat.testBit _ _ = _) => (Mask.off hm hb rfl).elim
    | with_reducible exact fun _ => rfl
    | (intro x; intros; try dsimp only)
    | dsimp only
    | split
    | with_reducible apply Keeps.upd)

theorem State.activationLimit_keeps {m : Nat} {s0 s : State}  (h : Keeps m s0 s)
    (hm : 65677 &&& m = 65677 := by exact Mask.le (by assumption) rfl) :
    Keeps m s0 (State.activationLimit s) := by
  unfold State.activationLimit
  try dsimp only
  repeat' (first
    | with_reducible assumption
    | with_reducible apply State.setFld_keeps (hm := Mask.le hm rfl)
    | with_reducible apply State.advance_keeps (hm := Mask.le hm rfl)
    | (intro x; intros; try dsimp only)
    | dsimp only
    | split)

theorem State.commitSvn_keeps {m : Nat} {s0 s : State}  (h : Keeps m s0 s)
    (hm : 16777220 &&& m = 16777220 := by exact Mask.le (by assumption) rfl) :
    Keeps m s0 (State.commitSvn s) := by
  unfold State.commitSvn
  try dsimp only
  repeat' (first
    | with_reducible assumption
    | with_reducible apply State.setFld_keeps (hm := Mask.le hm rfl)
    | exact fun (hb : Nat.testBit _ _ = _) => (Mask.off hm hb rfl).elim
    | with_reducible exact fun _ => rfl
    | (intro x; intros; try dsimp only)
    | dsimp only
    | split
    | with_reducible apply Keeps.upd)

theorem State.quoteStart_keeps {m : Nat} {s0 s : State} (z1 : Nat) (h : Keeps m s0 s)
    (hm : 16777220 &&& m = 16777220 := by exact Mask.le (by assumption) rfl) :
    Keeps m s0 (State.quoteStart s z1) := by
  unfold State.quoteStart
  try dsimp only
  repeat' (first
    | with_reducible assumption
    | with_reducible apply State.setFld_keeps (hm := Mask.le hm rfl)
    | with_reducible apply State.setFlag_keeps (hm := Mask.le hm rfl)
    | with_reducible apply Keeps.foldl
    | with_reducible apply Keeps.foldlSnd
    | with_reducible apply Keeps.foldlFst
    | exact fun (hb : Nat.testBit _ _ = _) => (Mask.off hm hb rfl).elim
    | with_reducible exact fun _ => rfl
    | (intro x; intros; try dsimp only)
    | dsimp only
    | split
    | with_reducible apply Keeps.upd)

theorem State.quoteDone_keeps {m : Nat} {s0 s : State}  (h : Keeps m s0 s)
    (hm : 4 &&& m = 4 := by exact Mask.le (by assumption) rfl) :
    Keeps m s0 (State.quoteDone s) := by
  unfold State.quoteDone
  try dsimp only
  repeat' (first
    | with_reducible assumption
    | with_reducible apply State.setReg_keeps (hm := Mask.le hm rfl)
    | with_reducible apply State.setFlag_keeps (hm := Mask.le hm rfl)
    | with_reducible apply Keeps.foldl
    | with_reducible apply Keeps.foldlSnd
    | with_reducible apply Keeps.foldlFst
    | (intro x; intros; try dsimp only)
    | dsimp only
    | split)

theorem State.railFault_keeps {m : Nat} {s0 s : State} (rail : Nat) (h : Keeps m s0 s)
    (hm : 1155212 &&& m = 1155212 := by exact Mask.le (by assumption) rfl) :
    Keeps m s0 (State.railFault s rail) := by
  unfold State.railFault
  try dsimp only
  repeat' (first
    | with_reducible assumption
    | with_reducible apply State.fault_keeps (hm := Mask.le hm rfl)
    | with_reducible apply State.setFld_keeps (hm := Mask.le hm rfl)
    | (intro x; intros; try dsimp only)
    | dsimp only
    | split)

theorem State.pllUnlock_keeps {m : Nat} {s0 s : State} (pll : Nat) (h : Keeps m s0 s)
    (hm : 1155212 &&& m = 1155212 := by exact Mask.le (by assumption) rfl) :
    Keeps m s0 (State.pllUnlock s pll) := by
  unfold State.pllUnlock
  try dsimp only
  repeat' (first
    | with_reducible assumption
    | with_reducible apply State.fault_keeps (hm := Mask.le hm rfl)
    | with_reducible apply State.setFld_keeps (hm := Mask.le hm rfl)
    | (intro x; intros; try dsimp only)
    | dsimp only
    | split)

theorem State.setRef_keeps {m : Nat} {s0 s : State} (f : Field) (k : Nat) (b : Bool) (h : Keeps m s0 s)
    (hm : 4 &&& m = 4 := by exact Mask.le (by assumption) rfl) :
    Keeps m s0 (State.setRef s f k b) := by
  unfold State.setRef
  try dsimp only
  repeat' (first
    | with_reducible assumption
    | with_reducible apply State.setFld_keeps (hm := Mask.le hm rfl)
    | (intro x; intros; try dsimp only)
    | dsimp only
    | split)

theorem State.fabClockLost_keeps {m : Nat} {s0 s : State} (k : Nat) (h : Keeps m s0 s)
    (hm : 15835324 &&& m = 15835324 := by exact Mask.le (by assumption) rfl) :
    Keeps m s0 (State.fabClockLost s k) := by
  unfold State.fabClockLost
  try dsimp only
  repeat' (first
    | with_reducible assumption
    | with_reducible apply State.signalDown_keeps (hm := Mask.le hm rfl)
    | with_reducible apply State.emit_keeps (hm := Mask.le hm rfl)
    | with_reducible apply Keeps.foldl
    | with_reducible apply Keeps.foldlSnd
    | with_reducible apply Keeps.foldlFst
    | (intro x; intros; try dsimp only)
    | dsimp only
    | split)

theorem State.refLost_keeps {m : Nat} {s0 s : State} (clk : Nat) (h : Keeps m s0 s)
    (hm : 251658172 &&& m = 251658172 := by exact Mask.le (by assumption) rfl) :
    Keeps m s0 (State.refLost s clk) := by
  unfold State.refLost
  try dsimp only
  repeat' (first
    | with_reducible assumption
    | with_reducible apply State.fault_keeps (hm := Mask.le hm rfl)
    | with_reducible apply State.setFld_keeps (hm := Mask.le hm rfl)
    | with_reducible apply State.setFlag_keeps (hm := Mask.le hm rfl)
    | with_reducible apply State.fabClockLost_keeps (hm := Mask.le hm rfl)
    | with_reducible apply State.setRef_keeps (hm := Mask.le hm rfl)
    | with_reducible apply State.portReset_keeps (hm := Mask.le hm rfl)
    | (intro x; intros; try dsimp only)
    | dsimp only
    | split)

theorem State.refBack_keeps {m : Nat} {s0 s : State} (clk : Nat) (h : Keeps m s0 s)
    (hm : 4 &&& m = 4 := by exact Mask.le (by assumption) rfl) :
    Keeps m s0 (State.refBack s clk) := by
  unfold State.refBack
  try dsimp only
  repeat' (first
    | with_reducible assumption
    | with_reducible apply State.setFlag_keeps (hm := Mask.le hm rfl)
    | with_reducible apply State.setRef_keeps (hm := Mask.le hm rfl)
    | (intro x; intros; try dsimp only)
    | dsimp only
    | split)

theorem State.tempStore_keeps {m : Nat} {s0 s : State} (tj : Nat) (hottest : Nat) (mean : Nat) (h : Keeps m s0 s)
    (hm : 4 &&& m = 4 := by exact Mask.le (by assumption) rfl) :
    Keeps m s0 (State.tempStore s tj hottest mean) := by
  unfold State.tempStore
  try dsimp only
  repeat' (first
    | with_reducible assumption
    | with_reducible apply State.setFld_keeps (hm := Mask.le hm rfl)
    | (intro x; intros; try dsimp only)
    | dsimp only
    | split)

theorem State.thermalWarn_keeps {m : Nat} {s0 s : State} (tj : Int) (h : Keeps m s0 s)
    (hm : 1155212 &&& m = 1155212 := by exact Mask.le (by assumption) rfl) :
    Keeps m s0 (State.thermalWarn s tj) := by
  unfold State.thermalWarn
  try dsimp only
  repeat' (first
    | with_reducible assumption
    | with_reducible apply State.fault_keeps (hm := Mask.le hm rfl)
    | with_reducible apply State.ibi_keeps (hm := Mask.le hm rfl)
    | exact fun (hb : Nat.testBit _ _ = _) => (Mask.off hm hb rfl).elim
    | with_reducible exact fun _ => rfl
    | (intro x; intros; try dsimp only)
    | dsimp only
    | split
    | with_reducible apply Keeps.upd)

theorem State.thermalTrip_keeps {m : Nat} {s0 s : State} (tj : Int) (h : Keeps m s0 s)
    (hm : 1155212 &&& m = 1155212 := by exact Mask.le (by assumption) rfl) :
    Keeps m s0 (State.thermalTrip s tj) := by
  unfold State.thermalTrip
  try dsimp only
  repeat' (first
    | with_reducible assumption
    | with_reducible apply State.fault_keeps (hm := Mask.le hm rfl)
    | with_reducible apply State.ibi_keeps (hm := Mask.le hm rfl)
    | exact fun (hb : Nat.testBit _ _ = _) => (Mask.off hm hb rfl).elim
    | with_reducible exact fun _ => rfl
    | (intro x; intros; try dsimp only)
    | dsimp only
    | split
    | with_reducible apply Keeps.upd)

theorem State.thermal_keeps {m : Nat} {s0 s : State} (tj : Nat) (hottest : Nat) (mean : Nat) (h : Keeps m s0 s)
    (hm : 1155212 &&& m = 1155212 := by exact Mask.le (by assumption) rfl) :
    Keeps m s0 (State.thermal s tj hottest mean) := by
  unfold State.thermal
  try dsimp only
  repeat' (first
    | with_reducible assumption
    | with_reducible apply State.thermalTrip_keeps (hm := Mask.le hm rfl)
    | with_reducible apply State.thermalWarn_keeps (hm := Mask.le hm rfl)
    | with_reducible apply State.tempStore_keeps (hm := Mask.le hm rfl)
    | (intro x; intros; try dsimp only)
    | dsimp only
    | split)

theorem State.life_keeps {m : Nat} {s0 s : State}  (h : Keeps m s0 s)
    (hm : 65709 &&& m = 65709 := by exact Mask.le (by assumption) rfl) :
    Keeps m s0 (State.life s) := by
  unfold State.life
  try dsimp only
  repeat' (first
    | with_reducible assumption
    | with_reducible apply State.advance_keeps (hm := Mask.le hm rfl)
    | with_reducible apply State.fresh_keeps (hm := Mask.le hm rfl)
    | with_reducible apply State.bump_keeps (hm := Mask.le hm rfl)
    | (intro x; intros; try dsimp only)
    | dsimp only
    | split
    | refine Keeps.snd (by assumption) ?_)

theorem State.pwrfailPin_keeps {m : Nat} {s0 s : State} (low : Bool) (h : Keeps m s0 s)
    (hm : 17825796 &&& m = 17825796 := by exact Mask.le (by assumption) rfl) :
    Keeps m s0 (State.pwrfailPin s low) := by
  unfold State.pwrfailPin
  try dsimp only
  repeat' (first
    | with_reducible assumption
    | with_reducible apply State.bootWaitEdge_keeps (hm := Mask.le hm rfl)
    | with_reducible apply State.setFlag_keeps (hm := Mask.le hm rfl)
    | exact fun (hb : Nat.testBit _ _ = _) => (Mask.off hm hb rfl).elim
    | with_reducible exact fun _ => rfl
    | (intro x; intros; try dsimp only)
    | dsimp only
    | split
    | with_reducible apply Keeps.upd)

theorem State.sealFromEdge_keeps {m : Nat} {s0 s : State}  (h : Keeps m s0 s)
    (hm : 8192 &&& m = 8192 := by exact Mask.le (by assumption) rfl) :
    Keeps m s0 (State.sealFromEdge s) := by
  unfold State.sealFromEdge
  try dsimp only
  repeat' (first
    | with_reducible assumption
    | exact fun (hb : Nat.testBit _ _ = _) => (Mask.off hm hb rfl).elim
    | with_reducible exact fun _ => rfl
    | (intro x; intros; try dsimp only)
    | dsimp only
    | split
    | with_reducible apply Keeps.upd)

theorem State.pwrfailTake_keeps {m : Nat} {s0 s : State}  (h : Keeps m s0 s)
    (hm : 73869 &&& m = 73869 := by exact Mask.le (by assumption) rfl) :
    Keeps m s0 (State.pwrfailTake s) := by
  unfold State.pwrfailTake
  try dsimp only
  repeat' (first
    | with_reducible assumption
    | with_reducible apply State.advance_keeps (hm := Mask.le hm rfl)
    | with_reducible apply State.setFlag_keeps (hm := Mask.le hm rfl)
    | with_reducible apply State.sealFromEdge_keeps (hm := Mask.le hm rfl)
    | with_reducible apply State.sealStart_keeps (hm := Mask.le hm rfl)
    | with_reducible apply State.squelchAll_keeps (hm := Mask.le hm rfl)
    | (intro x; intros; try dsimp only)
    | dsimp only
    | split)

theorem State.pinEdge_keeps {m : Nat} {s0 s : State} (k : Nat) (h : Keeps m s0 s)
    (hm : 65540 &&& m = 65540 := by exact Mask.le (by assumption) rfl) :
    Keeps m s0 (State.pinEdge s k) := by
  unfold State.pinEdge
  try dsimp only
  repeat' (first
    | with_reducible assumption
    | with_reducible apply State.freezeSoon_keeps (hm := Mask.le hm rfl)
    | with_reducible apply State.setFld_keeps (hm := Mask.le hm rfl)
    | (intro x; intros; try dsimp only)
    | dsimp only
    | split)

theorem State.tickPins_keeps {m : Nat} {s0 s : State} (b : Bool) (h : Keeps m s0 s)
    (hm : 65544 &&& m = 65544 := by exact Mask.le (by assumption) rfl) :
    Keeps m s0 (State.tickPins s b) := by
  unfold State.tickPins
  try dsimp only
  repeat' (first
    | with_reducible assumption
    | with_reducible apply State.emit_keeps (hm := Mask.le hm rfl)
    | with_reducible apply Keeps.foldl
    | with_reducible apply Keeps.foldlSnd
    | with_reducible apply Keeps.foldlFst
    | (intro x; intros; try dsimp only)
    | dsimp only
    | split)

theorem State.timeTick_keeps {m : Nat} {s0 s : State}  (h : Keeps m s0 s)
    (hm : 65677 &&& m = 65677 := by exact Mask.le (by assumption) rfl) :
    Keeps m s0 (State.timeTick s) := by
  unfold State.timeTick
  try dsimp only
  repeat' (first
    | with_reducible assumption
    | with_reducible apply State.tickPins_keeps (hm := Mask.le hm rfl)
    | with_reducible apply State.advance_keeps (hm := Mask.le hm rfl)
    | (intro x; intros; try dsimp only)
    | dsimp only
    | split)

theorem State.ibiFlush_keeps {m : Nat} {s0 s : State}  (h : Keeps m s0 s)
    (hm : 1114120 &&& m = 1114120 := by exact Mask.le (by assumption) rfl) :
    Keeps m s0 (State.ibiFlush s) := by
  unfold State.ibiFlush
  try dsimp only
  repeat' (first
    | with_reducible assumption
    | with_reducible apply State.emit_keeps (hm := Mask.le hm rfl)
    | with_reducible apply Keeps.foldl
    | with_reducible apply Keeps.foldlSnd
    | with_reducible apply Keeps.foldlFst
    | exact fun (hb : Nat.testBit _ _ = _) => (Mask.off hm hb rfl).elim
    | with_reducible exact fun _ => rfl
    | (intro x; intros; try dsimp only)
    | dsimp only
    | split
    | with_reducible apply Keeps.upd)

theorem State.takeAddr_keeps {m : Nat} {s0 s : State} (a : Nat) (h : Keeps m s0 s)
    (hm : 1114120 &&& m = 1114120 := by exact Mask.le (by assumption) rfl) :
    Keeps m s0 (State.takeAddr s a) := by
  unfold State.takeAddr
  try dsimp only
  repeat' (first
    | with_reducible assumption
    | with_reducible apply State.ibiFlush_keeps (hm := Mask.le hm rfl)
    | exact fun (hb : Nat.testBit _ _ = _) => (Mask.off hm hb rfl).elim
    | with_reducible exact fun _ => rfl
    | (intro x; intros; try dsimp only)
    | dsimp only
    | split
    | with_reducible apply Keeps.upd)

theorem State.setDasa_keeps {m : Nat} {s0 s : State} (a : Nat) (h : Keeps m s0 s)
    (hm : 1114120 &&& m = 1114120 := by exact Mask.le (by assumption) rfl) :
    Keeps m s0 (State.setDasa s a) := by
  unfold State.setDasa
  try dsimp only
  repeat' (first
    | with_reducible assumption
    | with_reducible apply State.takeAddr_keeps (hm := Mask.le hm rfl)
    | with_reducible apply State.emit_keeps (hm := Mask.le hm rfl)
    | (intro x; intros; try dsimp only)
    | dsimp only
    | split)

theorem State.entDaa_keeps {m : Nat} {s0 s : State} (a : Nat) (h : Keeps m s0 s)
    (hm : 1114152 &&& m = 1114152 := by exact Mask.le (by assumption) rfl) :
    Keeps m s0 (State.entDaa s a) := by
  unfold State.entDaa
  try dsimp only
  repeat' (first
    | with_reducible assumption
    | with_reducible apply State.fresh_keeps (hm := Mask.le hm rfl)
    | with_reducible apply State.takeAddr_keeps (hm := Mask.le hm rfl)
    | with_reducible apply State.emit_keeps (hm := Mask.le hm rfl)
    | (intro x; intros; try dsimp only)
    | dsimp only
    | split
    | refine Keeps.snd (by assumption) ?_)

theorem State.rstDaa_keeps {m : Nat} {s0 s : State}  (h : Keeps m s0 s)
    (hm : 1048576 &&& m = 1048576 := by exact Mask.le (by assumption) rfl) :
    Keeps m s0 (State.rstDaa s) := by
  unfold State.rstDaa
  try dsimp only
  repeat' (first
    | with_reducible assumption
    | exact fun (hb : Nat.testBit _ _ = _) => (Mask.off hm hb rfl).elim
    | with_reducible exact fun _ => rfl
    | (intro x; intros; try dsimp only)
    | dsimp only
    | split
    | with_reducible apply Keeps.upd)

theorem State.enec_keeps {m : Nat} {s0 s : State}  (h : Keeps m s0 s)
    (hm : 1114120 &&& m = 1114120 := by exact Mask.le (by assumption) rfl) :
    Keeps m s0 (State.enec s) := by
  unfold State.enec
  try dsimp only
  repeat' (first
    | with_reducible assumption
    | with_reducible apply State.ibiFlush_keeps (hm := Mask.le hm rfl)
    | exact fun (hb : Nat.testBit _ _ = _) => (Mask.off hm hb rfl).elim
    | with_reducible exact fun _ => rfl
    | (intro x; intros; try dsimp only)
    | dsimp only
    | split
    | with_reducible apply Keeps.upd)

theorem State.jtagLoad_keeps {m : Nat} {s0 s : State} (op : JtagOp) (h : Keeps m s0 s)
    (hm : 1114120 &&& m = 1114120 := by exact Mask.le (by assumption) rfl) :
    Keeps m s0 (State.jtagLoad s op) := by
  unfold State.jtagLoad
  try dsimp only
  repeat' (first
    | with_reducible assumption
    | with_reducible apply State.emit_keeps (hm := Mask.le hm rfl)
    | exact fun (hb : Nat.testBit _ _ = _) => (Mask.off hm hb rfl).elim
    | with_reducible exact fun _ => rfl
    | (intro x; intros; try dsimp only)
    | dsimp only
    | split
    | with_reducible apply Keeps.upd)

theorem State.mirrorRec_keeps {m : Nat} {s0 s : State} (i : Nat) (h : Keeps m s0 s)
    (hm : 65544 &&& m = 65544 := by exact Mask.le (by assumption) rfl) :
    Keeps m s0 (State.mirrorRec s i) := by
  unfold State.mirrorRec
  try dsimp only
  repeat' (first
    | with_reducible assumption
    | with_reducible apply State.hostWrite_keeps (hm := Mask.le hm rfl)
    | (intro x; intros; try dsimp only)
    | dsimp only
    | split)

theorem State.logMirror_keeps {m : Nat} {s0 s : State}  (h : Keeps m s0 s)
    (hm : 1171596 &&& m = 1171596 := by exact Mask.le (by assumption) rfl) :
    Keeps m s0 (State.logMirror s) := by
  unfold State.logMirror
  try dsimp only
  repeat' (first
    | with_reducible assumption
    | with_reducible apply State.fault_keeps (hm := Mask.le hm rfl)
    | with_reducible apply State.setFlag_keeps (hm := Mask.le hm rfl)
    | with_reducible apply State.mirrorRec_keeps (hm := Mask.le hm rfl)
    | with_reducible apply State.hostWrite_keeps (hm := Mask.le hm rfl)
    | with_reducible apply Keeps.foldl
    | with_reducible apply Keeps.foldlSnd
    | with_reducible apply Keeps.foldlFst
    | exact fun (hb : Nat.testBit _ _ = _) => (Mask.off hm hb rfl).elim
    | with_reducible exact fun _ => rfl
    | (intro x; intros; try dsimp only)
    | dsimp only
    | split
    | with_reducible apply Keeps.upd)

theorem State.syncStart_keeps {m : Nat} {s0 s : State}  (h : Keeps m s0 s)
    (hm : 1152 &&& m = 1152 := by exact Mask.le (by assumption) rfl) :
    Keeps m s0 (State.syncStart s) := by
  unfold State.syncStart
  try dsimp only
  repeat' (first
    | with_reducible assumption
    | exact fun (hb : Nat.testBit _ _ = _) => (Mask.off hm hb rfl).elim
    | with_reducible exact fun _ => rfl
    | (intro x; intros; try dsimp only)
    | dsimp only
    | split
    | with_reducible apply Keeps.upd)

theorem State.syncDone_keeps {m : Nat} {s0 s : State}  (h : Keeps m s0 s)
    (hm : 1024 &&& m = 1024 := by exact Mask.le (by assumption) rfl) :
    Keeps m s0 (State.syncDone s) := by
  unfold State.syncDone
  try dsimp only
  repeat' (first
    | with_reducible assumption
    | exact fun (hb : Nat.testBit _ _ = _) => (Mask.off hm hb rfl).elim
    | with_reducible exact fun _ => rfl
    | (intro x; intros; try dsimp only)
    | dsimp only
    | split
    | with_reducible apply Keeps.upd)

theorem State.escapeWait_keeps {m : Nat} {s0 s : State} (id : Nat) (h : Keeps m s0 s)
    (hm : 10551453 &&& m = 10551453 := by exact Mask.le (by assumption) rfl) :
    Keeps m s0 (State.escapeWait s id) := by
  unfold State.escapeWait
  try dsimp only
  repeat' (first
    | with_reducible assumption
    | with_reducible apply State.advance_keeps (hm := Mask.le hm rfl)
    | with_reducible apply State.takeHop_keeps (hm := Mask.le hm rfl)
    | with_reducible apply State.routePkt_keeps (hm := Mask.le hm rfl)
    | (intro x; intros; try dsimp only)
    | dsimp only
    | split)

theorem State.holdEnd_keeps {m : Nat} {s0 s : State} (id : Nat) (h : Keeps m s0 s)
    (hm : 11640973 &&& m = 11640973 := by exact Mask.le (by assumption) rfl) :
    Keeps m s0 (State.holdEnd s id) := by
  unfold State.holdEnd
  try dsimp only
  repeat' (first
    | with_reducible assumption
    | with_reducible apply State.fault_keeps (hm := Mask.le hm rfl)
    | with_reducible apply State.discardPkt_keeps (hm := Mask.le hm rfl)
    | with_reducible apply State.advance_keeps (hm := Mask.le hm rfl)
    | with_reducible apply OptKeeps.mapState
    | with_reducible apply OptKeeps.map
    | (intro x; intros; try dsimp only)
    | dsimp only
    | split)

theorem State.heldRoute_keeps {m : Nat} {s0 s : State} (id : Nat) (h : Keeps m s0 s)
    (hm : 10551316 &&& m = 10551316 := by exact Mask.le (by assumption) rfl) :
    Keeps m s0 (State.heldRoute s id) := by
  unfold State.heldRoute
  try dsimp only
  repeat' (first
    | with_reducible assumption
    | with_reducible apply State.routePkt_keeps (hm := Mask.le hm rfl)
    | (intro x; intros; try dsimp only)
    | dsimp only
    | split)

theorem State.retentionEnd_keeps {m : Nat} {s0 s : State} (p : Nat) (h : Keeps m s0 s)
    (hm : 10551453 &&& m = 10551453 := by exact Mask.le (by assumption) rfl) :
    Keeps m s0 (State.retentionEnd s p) := by
  unfold State.retentionEnd
  try dsimp only
  repeat' (first
    | with_reducible assumption
    | with_reducible apply State.releaseRetained_keeps (hm := Mask.le hm rfl)
    | with_reducible apply State.advance_keeps (hm := Mask.le hm rfl)
    | (intro x; intros; try dsimp only)
    | dsimp only
    | split)

theorem State.noticeIn_keeps {m : Nat} {s0 s : State} (p : Packet) (h : Keeps m s0 s)
    (hm : 4 &&& m = 4 := by exact Mask.le (by assumption) rfl) :
    Keeps m s0 (State.noticeIn s p) := by
  unfold State.noticeIn
  try dsimp only
  repeat' (first
    | with_reducible assumption
    | with_reducible apply State.setFld_keeps (hm := Mask.le hm rfl)
    | (intro x; intros; try dsimp only)
    | dsimp only
    | split)

theorem State.rowTimer_keeps {m : Nat} {s0 s : State}  (h : Keeps m s0 s)
    (hm : 10551453 &&& m = 10551453 := by exact Mask.le (by assumption) rfl) :
    Keeps m s0 (State.rowTimer s) := by
  unfold State.rowTimer
  try dsimp only
  repeat' (first
    | with_reducible assumption
    | with_reducible apply State.sendRow_keeps (hm := Mask.le hm rfl)
    | with_reducible apply State.advance_keeps (hm := Mask.le hm rfl)
    | (intro x; intros; try dsimp only)
    | dsimp only
    | split)

theorem State.hintRefresh_keeps {m : Nat} {s0 s : State}  (h : Keeps m s0 s)
    (hm : 2162829 &&& m = 2162829 := by exact Mask.le (by assumption) rfl) :
    Keeps m s0 (State.hintRefresh s) := by
  unfold State.hintRefresh
  try dsimp only
  repeat' (first
    | with_reducible assumption
    | with_reducible apply State.advance_keeps (hm := Mask.le hm rfl)
    | exact fun (hb : Nat.testBit _ _ = _) => (Mask.off hm hb rfl).elim
    | with_reducible exact fun _ => rfl
    | (intro x; intros; try dsimp only)
    | dsimp only
    | split
    | with_reducible apply Keeps.upd)

theorem State.tokenGrant_keeps {m : Nat} {s0 s : State}  (h : Keeps m s0 s)
    (hm : 10551453 &&& m = 10551453 := by exact Mask.le (by assumption) rfl) :
    Keeps m s0 (State.tokenGrant s) := by
  unfold State.tokenGrant
  try dsimp only
  repeat' (first
    | with_reducible assumption
    | with_reducible apply State.takeTokens_keeps (hm := Mask.le hm rfl)
    | with_reducible apply State.advance_keeps (hm := Mask.le hm rfl)
    | with_reducible apply State.routePkt_keeps (hm := Mask.le hm rfl)
    | (intro x; intros; try dsimp only)
    | dsimp only
    | split)

theorem State.lnkExit_keeps {m : Nat} {s0 s : State} (p : Nat) (h : Keeps m s0 s)
    (hm : 12648492 &&& m = 12648492 := by exact Mask.le (by assumption) rfl) :
    Keeps m s0 (State.lnkExit s p) := by
  unfold State.lnkExit
  try dsimp only
  repeat' (first
    | with_reducible assumption
    | with_reducible apply State.maybeBringUp_keeps (hm := Mask.le hm rfl)
    | with_reducible apply State.portTo2_keeps (hm := Mask.le hm rfl)
    | with_reducible apply State.setLport_keeps (hm := Mask.le hm rfl)
    | (intro x; intros; try dsimp only)
    | dsimp only
    | split)

theorem State.lanesIdle_keeps {m : Nat} {s0 s : State} (p : Nat) (h : Keeps m s0 s)
    (hm : 4259852 &&& m = 4259852 := by exact Mask.le (by assumption) rfl) :
    Keeps m s0 (State.lanesIdle s p) := by
  unfold State.lanesIdle
  try dsimp only
  repeat' (first
    | with_reducible assumption
    | with_reducible apply State.laneTo_keeps (hm := Mask.le hm rfl)
    | with_reducible apply Keeps.foldl
    | with_reducible apply Keeps.foldlSnd
    | with_reducible apply Keeps.foldlFst
    | (intro x; intros; try dsimp only)
    | dsimp only
    | split)

theorem State.lnkSetup_keeps {m : Nat} {s0 s : State} (p : Nat) (h : Keeps m s0 s)
    (hm : 15835292 &&& m = 15835292 := by exact Mask.le (by assumption) rfl) :
    Keeps m s0 (State.lnkSetup s p) := by
  unfold State.lnkSetup
  try dsimp only
  repeat' (first
    | with_reducible assumption
    | with_reducible apply State.lanesIdle_keeps (hm := Mask.le hm rfl)
    | with_reducible apply State.releaseRetained_keeps (hm := Mask.le hm rfl)
    | with_reducible apply State.linkDown_keeps (hm := Mask.le hm rfl)
    | with_reducible apply State.portTo2_keeps (hm := Mask.le hm rfl)
    | with_reducible apply State.setLport_keeps (hm := Mask.le hm rfl)
    | (intro x; intros; try dsimp only)
    | dsimp only
    | split)

theorem State.stepLimit_keeps {m : Nat} {s0 s : State} (p : Nat) (h : Keeps m s0 s)
    (hm : 11640989 &&& m = 11640989 := by exact Mask.le (by assumption) rfl) :
    Keeps m s0 (State.stepLimit s p) := by
  unfold State.stepLimit
  try dsimp only
  repeat' (first
    | with_reducible assumption
    | with_reducible apply State.admitFail_keeps (hm := Mask.le hm rfl)
    | with_reducible apply State.advance_keeps (hm := Mask.le hm rfl)
    | (intro x; intros; try dsimp only)
    | dsimp only
    | split)

theorem State.bringRetry_keeps {m : Nat} {s0 s : State} (p : Nat) (h : Keeps m s0 s)
    (hm : 12648621 &&& m = 12648621 := by exact Mask.le (by assumption) rfl) :
    Keeps m s0 (State.bringRetry s p) := by
  unfold State.bringRetry
  try dsimp only
  repeat' (first
    | with_reducible assumption
    | with_reducible apply State.bringUp_keeps (hm := Mask.le hm rfl)
    | with_reducible apply State.advance_keeps (hm := Mask.le hm rfl)
    | (intro x; intros; try dsimp only)
    | dsimp only
    | split)

theorem State.nakAgain_keeps {m : Nat} {s0 s : State} (p : Nat) (h : Keeps m s0 s)
    (hm : 8454285 &&& m = 8454285 := by exact Mask.le (by assumption) rfl) :
    Keeps m s0 (State.nakAgain s p) := by
  unfold State.nakAgain
  try dsimp only
  repeat' (first
    | with_reducible assumption
    | with_reducible apply State.enterDiscard_keeps (hm := Mask.le hm rfl)
    | with_reducible apply State.advance_keeps (hm := Mask.le hm rfl)
    | (intro x; intros; try dsimp only)
    | dsimp only
    | split)

theorem State.replayLimit_keeps {m : Nat} {s0 s : State} (p : Nat) (h : Keeps m s0 s)
    (hm : 15835325 &&& m = 15835325 := by exact Mask.le (by assumption) rfl) :
    Keeps m s0 (State.replayLimit s p) := by
  unfold State.replayLimit
  try dsimp only
  repeat' (first
    | with_reducible assumption
    | with_reducible apply State.advance_keeps (hm := Mask.le hm rfl)
    | with_reducible apply State.startReplay_keeps (hm := Mask.le hm rfl)
    | with_reducible apply State.lnkEvent_keeps (hm := Mask.le hm rfl)
    | (intro x; intros; try dsimp only)
    | dsimp only
    | split)

theorem State.creditLimit_keeps {m : Nat} {s0 s : State} (p : Nat) (k : Nat) (h : Keeps m s0 s)
    (hm : 15835325 &&& m = 15835325 := by exact Mask.le (by assumption) rfl) :
    Keeps m s0 (State.creditLimit s p k) := by
  unfold State.creditLimit
  try dsimp only
  repeat' (first
    | with_reducible assumption
    | with_reducible apply State.advance_keeps (hm := Mask.le hm rfl)
    | with_reducible apply State.linkReset_keeps (hm := Mask.le hm rfl)
    | with_reducible apply State.lnkEvent_keeps (hm := Mask.le hm rfl)
    | (intro x; intros; try dsimp only)
    | dsimp only
    | split)

theorem State.canary_keeps {m : Nat} {s0 s : State} (p : Nat) (h : Keeps m s0 s)
    (hm : 15835325 &&& m = 15835325 := by exact Mask.le (by assumption) rfl) :
    Keeps m s0 (State.canary s p) := by
  unfold State.canary
  try dsimp only
  repeat' (first
    | with_reducible assumption
    | with_reducible apply State.advance_keeps (hm := Mask.le hm rfl)
    | with_reducible apply State.setLport_keeps (hm := Mask.le hm rfl)
    | with_reducible apply State.linkReset_keeps (hm := Mask.le hm rfl)
    | with_reducible apply State.lnkEvent_keeps (hm := Mask.le hm rfl)
    | (intro x; intros; try dsimp only)
    | dsimp only
    | split)

theorem State.timeTimer_keeps {m : Nat} {s0 s : State} (p : Nat) (h : Keeps m s0 s)
    (hm : 8454285 &&& m = 8454285 := by exact Mask.le (by assumption) rfl) :
    Keeps m s0 (State.timeTimer s p) := by
  unfold State.timeTimer
  try dsimp only
  repeat' (first
    | with_reducible assumption
    | with_reducible apply State.advance_keeps (hm := Mask.le hm rfl)
    | with_reducible apply State.pushCtl_keeps (hm := Mask.le hm rfl)
    | (intro x; intros; try dsimp only)
    | dsimp only
    | split)

theorem State.ackLimit_keeps {m : Nat} {s0 s : State} (p : Nat) (h : Keeps m s0 s)
    (hm : 15835325 &&& m = 15835325 := by exact Mask.le (by assumption) rfl) :
    Keeps m s0 (State.ackLimit s p) := by
  unfold State.ackLimit
  try dsimp only
  repeat' (first
    | with_reducible assumption
    | with_reducible apply State.proceedReset_keeps (hm := Mask.le hm rfl)
    | with_reducible apply State.advance_keeps (hm := Mask.le hm rfl)
    | (intro x; intros; try dsimp only)
    | dsimp only
    | split)

theorem State.marchStart_keeps {m : Nat} {s0 s : State}  (h : Keeps m s0 s)
    (hm : 262148 &&& m = 262148 := by exact Mask.le (by assumption) rfl) :
    Keeps m s0 (State.marchStart s) := by
  unfold State.marchStart
  try dsimp only
  repeat' (first
    | with_reducible assumption
    | with_reducible apply State.setFld_keeps (hm := Mask.le hm rfl)
    | with_reducible apply State.setFlag_keeps (hm := Mask.le hm rfl)
    | with_reducible apply Keeps.foldl
    | with_reducible apply Keeps.foldlSnd
    | with_reducible apply Keeps.foldlFst
    | exact fun (hb : Nat.testBit _ _ = _) => (Mask.off hm hb rfl).elim
    | with_reducible exact fun _ => rfl
    | (intro x; intros; try dsimp only)
    | dsimp only
    | split
    | with_reducible apply Keeps.upd)

theorem State.bankZero_keeps {m : Nat} {s0 s : State} (b : Nat) (h : Keeps m s0 s)
    (hm : 134479872 &&& m = 134479872 := by exact Mask.le (by assumption) rfl) :
    Keeps m s0 (State.bankZero s b) := by
  refine Keeps.upd (State.spdRaw_keeps _ (fun k => Memory.wf_filter k.spdMem _) h) ?_ ?_ ?_ ?_ ?_ ?_ ?_ ?_ ?_ ?_ ?_ ?_ ?_ ?_ ?_ ?_ ?_ ?_ ?_ ?_ <;> first | exact fun hb => (Mask.off hm hb rfl).elim | exact fun _ => rfl

theorem State.bankTested_keeps {m : Nat} {s0 s : State} (mode : Nat) (b : Nat) (fails : Bool) (h : Keeps m s0 s)
    (hm : 135635084 &&& m = 135635084 := by exact Mask.le (by assumption) rfl) :
    Keeps m s0 (State.bankTested s mode b fails) := by
  unfold State.bankTested
  try dsimp only
  repeat' (first
    | with_reducible assumption
    | with_reducible apply State.bankZero_keeps (hm := Mask.le hm rfl)
    | with_reducible apply State.setFld_keeps (hm := Mask.le hm rfl)
    | with_reducible apply State.fault_keeps (hm := Mask.le hm rfl)
    | with_reducible apply State.setFlag_keeps (hm := Mask.le hm rfl)
    | (intro x; intros; try dsimp only)
    | dsimp only
    | split)

theorem State.marchDone_keeps {m : Nat} {s0 s : State} (fails : Word) (repairs : List (Nat × Nat)) (h : Keeps m s0 s)
    (hm : 135635084 &&& m = 135635084 := by exact Mask.le (by assumption) rfl) :
    Keeps m s0 (State.marchDone s fails repairs) := by
  unfold State.marchDone
  try dsimp only
  repeat' (first
    | with_reducible assumption
    | with_reducible apply State.setFlag_keeps (hm := Mask.le hm rfl)
    | with_reducible apply State.bankRepaired_keeps (hm := Mask.le hm rfl)
    | with_reducible apply State.bankTested_keeps (hm := Mask.le hm rfl)
    | with_reducible apply Keeps.foldl
    | with_reducible apply Keeps.foldlSnd
    | with_reducible apply Keeps.foldlFst
    | exact fun (hb : Nat.testBit _ _ = _) => (Mask.off hm hb rfl).elim
    | with_reducible exact fun _ => rfl
    | (intro x; intros; try dsimp only)
    | dsimp only
    | split
    | with_reducible apply Keeps.upd)

theorem State.bankRetained_keeps {m : Nat} {s0 s : State} (b : Nat) (h : Keeps m s0 s)
    (hm : 4 &&& m = 4 := by exact Mask.le (by assumption) rfl) :
    Keeps m s0 (State.bankRetained s b) := by
  unfold State.bankRetained
  try dsimp only
  repeat' (first
    | with_reducible assumption
    | with_reducible apply State.setFld_keeps (hm := Mask.le hm rfl)
    | (intro x; intros; try dsimp only)
    | dsimp only
    | split)

theorem State.bankWoken_keeps {m : Nat} {s0 s : State} (b : Nat) (h : Keeps m s0 s)
    (hm : 4 &&& m = 4 := by exact Mask.le (by assumption) rfl) :
    Keeps m s0 (State.bankWoken s b) := by
  unfold State.bankWoken
  try dsimp only
  repeat' (first
    | with_reducible assumption
    | with_reducible apply State.setFld_keeps (hm := Mask.le hm rfl)
    | (intro x; intros; try dsimp only)
    | dsimp only
    | split)

theorem State.bankActive_keeps {m : Nat} {s0 s : State} (b : Nat) (h : Keeps m s0 s)
    (hm : 4 &&& m = 4 := by exact Mask.le (by assumption) rfl) :
    Keeps m s0 (State.bankActive s b) := by
  unfold State.bankActive
  try dsimp only
  repeat' (first
    | with_reducible assumption
    | with_reducible apply State.setFld_keeps (hm := Mask.le hm rfl)
    | (intro x; intros; try dsimp only)
    | dsimp only
    | split)

theorem State.grantEnd_keeps {m : Nat} {s0 s : State} (n : Nat) (h : Keeps m s0 s)
    (hm : 721037 &&& m = 721037 := by exact Mask.le (by assumption) rfl) :
    Keeps m s0 (State.grantEnd s n) := by
  unfold State.grantEnd
  try dsimp only
  repeat' (first
    | with_reducible assumption
    | with_reducible apply State.semGrant_keeps (hm := Mask.le hm rfl)
    | with_reducible apply State.advance_keeps (hm := Mask.le hm rfl)
    | (intro x; intros; try dsimp only)
    | dsimp only
    | split)

theorem State.ecall_keeps {m : Nat} {s0 s : State} (c : Nat) (h : Keeps m s0 s)
    (hm : 131204 &&& m = 131204 := by exact Mask.le (by assumption) rfl) :
    Keeps m s0 (State.ecall s c) := by
  unfold State.ecall
  try dsimp only
  repeat' (first
    | with_reducible assumption
    | with_reducible apply State.endInv_keeps (hm := Mask.le hm rfl)
    | (intro x; intros; try dsimp only)
    | dsimp only
    | split)

theorem State.budgetEnd_keeps {m : Nat} {s0 s : State} (c : Nat) (h : Keeps m s0 s)
    (hm : 1810829 &&& m = 1810829 := by exact Mask.le (by assumption) rfl) :
    Keeps m s0 (State.budgetEnd s c) := by
  unfold State.budgetEnd
  try dsimp only
  repeat' (first
    | with_reducible assumption
    | with_reducible apply State.stopInv_keeps (hm := Mask.le hm rfl)
    | with_reducible apply State.advance_keeps (hm := Mask.le hm rfl)
    | (intro x; intros; try dsimp only)
    | dsimp only
    | split)

theorem State.handlerTrap_keeps {m : Nat} {s0 s : State} (c : Nat) (mtval : Word) (h : Keeps m s0 s)
    (hm : 1810828 &&& m = 1810828 := by exact Mask.le (by assumption) rfl) :
    Keeps m s0 (State.handlerTrap s c mtval) := by
  unfold State.handlerTrap
  try dsimp only
  repeat' (first
    | with_reducible assumption
    | with_reducible apply State.stopInv_keeps (hm := Mask.le hm rfl)
    | (intro x; intros; try dsimp only)
    | dsimp only
    | split)

theorem State.fillRefused_keeps {m : Nat} {s0 s : State} (c : Nat) (detail : Nat) (h : Keeps m s0 s)
    (hm : 1810828 &&& m = 1810828 := by exact Mask.le (by assumption) rfl) :
    Keeps m s0 (State.fillRefused s c detail) := by
  unfold State.fillRefused
  try dsimp only
  repeat' (first
    | with_reducible assumption
    | with_reducible apply State.stopInv_keeps (hm := Mask.le hm rfl)
    | (intro x; intros; try dsimp only)
    | dsimp only
    | split)

theorem State.tlbDropPage_keeps {m : Nat} {s0 s : State} (c : Nat) (va : Word) (h : Keeps m s0 s)
    (hm : 131072 &&& m = 131072 := by exact Mask.le (by assumption) rfl) :
    Keeps m s0 (State.tlbDropPage s c va) := by
  unfold State.tlbDropPage
  try dsimp only
  repeat' (first
    | with_reducible assumption
    | with_reducible apply State.setCore_keeps (hm := Mask.le hm rfl)
    | (intro x; intros; try dsimp only)
    | dsimp only
    | split)

theorem State.tlbDropCtx_keeps {m : Nat} {s0 s : State} (c : Nat) (h : Keeps m s0 s)
    (hm : 131072 &&& m = 131072 := by exact Mask.le (by assumption) rfl) :
    Keeps m s0 (State.tlbDropCtx s c) := by
  unfold State.tlbDropCtx
  try dsimp only
  repeat' (first
    | with_reducible assumption
    | with_reducible apply State.setCore_keeps (hm := Mask.le hm rfl)
    | (intro x; intros; try dsimp only)
    | dsimp only
    | split)

theorem State.tlbDropAll_keeps {m : Nat} {s0 s : State} (c : Nat) (h : Keeps m s0 s)
    (hm : 131072 &&& m = 131072 := by exact Mask.le (by assumption) rfl) :
    Keeps m s0 (State.tlbDropAll s c) := by
  unfold State.tlbDropAll
  try dsimp only
  repeat' (first
    | with_reducible assumption
    | with_reducible apply State.setCore_keeps (hm := Mask.le hm rfl)
    | (intro x; intros; try dsimp only)
    | dsimp only
    | split)

theorem State.tlbUnlock_keeps {m : Nat} {s0 s : State} (c : Nat) (h : Keeps m s0 s)
    (hm : 131072 &&& m = 131072 := by exact Mask.le (by assumption) rfl) :
    Keeps m s0 (State.tlbUnlock s c) := by
  unfold State.tlbUnlock
  try dsimp only
  repeat' (first
    | with_reducible assumption
    | with_reducible apply State.setCore_keeps (hm := Mask.le hm rfl)
    | (intro x; intros; try dsimp only)
    | dsimp only
    | split)

theorem State.agerTick_keeps {m : Nat} {s0 s : State}  (h : Keeps m s0 s)
    (hm : 196749 &&& m = 196749 := by exact Mask.le (by assumption) rfl) :
    Keeps m s0 (State.agerTick s) := by
  unfold State.agerTick
  try dsimp only
  repeat' (first
    | with_reducible assumption
    | with_reducible apply State.tlbAge_keeps (hm := Mask.le hm rfl)
    | with_reducible apply State.advance_keeps (hm := Mask.le hm rfl)
    | (intro x; intros; try dsimp only)
    | dsimp only
    | split)

theorem State.timerLevel_keeps {m : Nat} {s0 s : State} (c : Nat) (h : Keeps m s0 s)
    (hm : 131072 &&& m = 131072 := by exact Mask.le (by assumption) rfl) :
    Keeps m s0 (State.timerLevel s c) := by
  unfold State.timerLevel
  try dsimp only
  repeat' (first
    | with_reducible assumption
    | with_reducible apply State.setCore_keeps (hm := Mask.le hm rfl)
    | (intro x; intros; try dsimp only)
    | dsimp only
    | split)

theorem State.timerMatch_keeps {m : Nat} {s0 s : State} (c : Nat) (h : Keeps m s0 s)
    (hm : 196749 &&& m = 196749 := by exact Mask.le (by assumption) rfl) :
    Keeps m s0 (State.timerMatch s c) := by
  unfold State.timerMatch
  try dsimp only
  repeat' (first
    | with_reducible assumption
    | with_reducible apply State.timerLevel_keeps (hm := Mask.le hm rfl)
    | with_reducible apply State.advance_keeps (hm := Mask.le hm rfl)
    | (intro x; intros; try dsimp only)
    | dsimp only
    | split)

theorem State.leaveEffect_keeps {m : Nat} {s0 s : State} (blk : Nat) (h : Keeps m s0 s)
    (hm : 247447484 &&& m = 247447484 := by exact Mask.le (by assumption) rfl) :
    Keeps m s0 (State.leaveEffect s blk) := by
  unfold State.leaveEffect
  try dsimp only
  repeat' (first
    | with_reducible assumption
    | with_reducible apply State.dispatchHeld_keeps (hm := Mask.le hm rfl)
    | with_reducible apply State.startUserCores_keeps (hm := Mask.le hm rfl)
    | with_reducible apply State.rsvStart_keeps (hm := Mask.le hm rfl)
    | (intro x; intros; try dsimp only)
    | dsimp only
    | split)

theorem State.leaveSetup_keeps {m : Nat} {s0 s : State} (blk : Nat) (h : Keeps m s0 s)
    (hm : 247447484 &&& m = 247447484 := by exact Mask.le (by assumption) rfl) :
    Keeps m s0 (State.leaveSetup s blk) := by
  unfold State.leaveSetup
  try dsimp only
  repeat' (first
    | with_reducible assumption
    | with_reducible apply State.leaveEffect_keeps (hm := Mask.le hm rfl)
    | with_reducible apply State.setDone_keeps (hm := Mask.le hm rfl)
    | (intro x; intros; try dsimp only)
    | dsimp only
    | split)

theorem State.leaveAll_keeps {m : Nat} {s0 s : State} (bs : List Nat) (h : Keeps m s0 s)
    (hm : 247447484 &&& m = 247447484 := by exact Mask.le (by assumption) rfl) :
    Keeps m s0 (State.leaveAll s bs) := by
  unfold State.leaveAll
  try dsimp only
  repeat' (first
    | with_reducible assumption
    | with_reducible apply State.leaveSetup_keeps (hm := Mask.le hm rfl)
    | with_reducible apply Keeps.foldl
    | with_reducible apply Keeps.foldlSnd
    | with_reducible apply Keeps.foldlFst
    | (intro x; intros; try dsimp only)
    | dsimp only
    | split)

end Sys2Proof.Machine
end

