-- ==== Sys2Proof/Laws/KeepReg.lean ====
section
/-!
SUPPORT. What register accesses and boot keep.
-/
set_option Elab.async false
set_option linter.unusedTactic false
set_option linter.unreachableTactic false
set_option linter.unusedVariables false
namespace Sys2Proof.Machine

theorem State.setupViolation_keeps {m : Nat} {s0 s : State} (r : RegRef) (z2 : Nat) (h : Keeps m s0 s)
    (hm : 1155212 &&& m = 1155212 := by exact Mask.le (by assumption) rfl) :
    Keeps m s0 (State.setupViolation s r z2) := by
  unfold State.setupViolation
  try dsimp only
  repeat' (first
    | with_reducible assumption
    | with_reducible apply State.faultBy_keeps (hm := Mask.le hm rfl)
    | (intro x; intros; try dsimp only)
    | dsimp only
    | split)

theorem State.bankRefusal_keeps {m : Nat} {s0 s : State} (w : Word) (count : Nat → State → State) (hcount : ∀ y x, Keeps m s0 x → Keeps m s0 (count y x)) (h : Keeps m s0 s)
    (hm : 4 &&& m = 4 := by exact Mask.le (by assumption) rfl) :
    OptKeeps m s0 (State.bankRefusal s w count) := by
  unfold State.bankRefusal
  try dsimp only
  repeat' (first
    | with_reducible assumption
    | with_reducible apply State.setFlag_keeps (hm := Mask.le hm rfl)
    | with_reducible apply hcount
    | with_reducible exact OptKeeps.none
    | with_reducible apply OptKeeps.some
    | (intro x; intros; try dsimp only)
    | dsimp only
    | split)

theorem State.refuse_keeps {m : Nat} {s0 s : State} (z1 : Nat) (full : Bool) (r : RegRef) (o : Word) (t : Word) (h : Keeps m s0 s)
    (hm : 247463868 &&& m = 247463868 := by exact Mask.le (by assumption) rfl) :
    OptKeeps m s0 (State.refuse s z1 full r o t) := by
  unfold State.refuse
  try dsimp only
  repeat' (first
    | with_reducible assumption
    | with_reducible apply State.faultBy_keeps (hm := Mask.le hm rfl)
    | with_reducible apply State.ctxCmd_keeps (hm := Mask.le hm rfl)
    | with_reducible apply State.orderReset_keeps (hm := Mask.le hm rfl)
    | with_reducible apply State.bankRefusal_keeps (hm := Mask.le hm rfl)
    | with_reducible apply State.setFlag_keeps (hm := Mask.le hm rfl)
    | with_reducible apply State.setFld_keeps (hm := Mask.le hm rfl)
    | with_reducible apply OptKeeps.mapState
    | with_reducible apply OptKeeps.map
    | with_reducible exact OptKeeps.none
    | with_reducible apply OptKeeps.some
    | (intro x; intros; try dsimp only)
    | dsimp only
    | split
    | refine OptKeeps.get (by assumption) ?_)

theorem State.setVfWord_keeps {m : Nat} {s0 s : State} (p : Nat) (v : Nat) (w : Nat) (x : Word) (h : Keeps m s0 s)
    (hm : 128 &&& m = 128 := by exact Mask.le (by assumption) rfl) :
    Keeps m s0 (State.setVfWord s p v w x) := by
  unfold State.setVfWord
  try dsimp only
  repeat' (first
    | with_reducible assumption
    | with_reducible apply State.setFn_keeps (hm := Mask.le hm rfl)
    | (intro x; intros; try dsimp only)
    | dsimp only
    | split)

theorem State.putGroup_keeps {m : Nat} {s0 s : State} (f : CscGroup → CscGroup) (h : Keeps m s0 s)
    (hm : 33554432 &&& m = 33554432 := by exact Mask.le (by assumption) rfl) :
    Keeps m s0 (State.putGroup s f) := by
  unfold State.putGroup
  try dsimp only
  repeat' (first
    | with_reducible assumption
    | with_reducible apply State.setGroup_keeps (hm := Mask.le hm rfl)
    | (intro x; intros; try dsimp only)
    | dsimp only
    | split)

theorem State.putCtr_keeps {m : Nat} {s0 s : State} (n : Nat) (f : Counter → Counter) (h : Keeps m s0 s)
    (hm : 143364 &&& m = 143364 := by exact Mask.le (by assumption) rfl) :
    Keeps m s0 (State.putCtr s n f) := by
  unfold State.putCtr
  try dsimp only
  repeat' (first
    | with_reducible assumption
    | with_reducible apply State.setCtr_keeps (hm := Mask.le hm rfl)
    | with_reducible apply State.ctrChanged_keeps (hm := Mask.le hm rfl)
    | (intro x; intros; try dsimp only)
    | dsimp only
    | split)

theorem State.putBank_keeps {m : Nat} {s0 s : State} (z1 : Nat) (w : Word) (h : Keeps m s0 s)
    (hm : 2179076 &&& m = 2179076 := by exact Mask.le (by assumption) rfl) :
    Keeps m s0 (State.putBank s z1 w) := by
  unfold State.putBank
  try dsimp only
  repeat' (first
    | with_reducible assumption
    | with_reducible apply State.logTable_keeps (hm := Mask.le hm rfl)
    | exact fun (hb : Nat.testBit _ _ = _) => (Mask.off hm hb rfl).elim
    | with_reducible exact fun _ => rfl
    | (intro x; intros; try dsimp only)
    | dsimp only
    | split
    | with_reducible apply Keeps.upd)

theorem State.putCtrReg_keeps {m : Nat} {s0 s : State} (z1 : Nat) (o : Word) (w : Word) (f : Counter → Counter) (h : Keeps m s0 s)
    (hm : 225284 &&& m = 225284 := by exact Mask.le (by assumption) rfl) :
    Keeps m s0 (State.putCtrReg s z1 o w f) := by
  unfold State.putCtrReg
  try dsimp only
  repeat' (first
    | with_reducible assumption
    | with_reducible apply State.putCtr_keeps (hm := Mask.le hm rfl)
    | with_reducible apply State.logTable_keeps (hm := Mask.le hm rfl)
    | (intro x; intros; try dsimp only)
    | dsimp only
    | split)

theorem State.trigWrite_keeps {m : Nat} {s0 s t : State} (n v : Nat) (q : s.trigWrite n v = .ok t) (h : Keeps m s0 s)
    (hm : 131072 &&& m = 131072 := by exact Mask.le (by assumption) rfl) : Keeps m s0 t := by
  unfold State.trigWrite at q
  dsimp only at q
  split at q
  · cases q
  · split at q
    · cases q
    · cases q
      exact State.setTrig_keeps _ _ h

theorem State.store_keeps {m : Nat} {s0 s : State} (z : Nat) (r : RegRef) (o : Word) (w : Word) (t : Word) (mask : Word) (h : Keeps m s0 s)
    (hm : 305362052 &&& m = 305362052 := by exact Mask.le (by assumption) rfl) :
    Keeps m s0 (State.store s z r o w t mask) := by
  unfold State.store
  extract_lets keep
  repeat' (first
    | with_reducible assumption
    | with_reducible apply State.setReg_keeps (hm := Mask.le hm rfl)
    | with_reducible apply State.setVfWord_keeps (hm := Mask.le hm rfl)
    | with_reducible apply State.setFld_keeps (hm := Mask.le hm rfl)
    | with_reducible apply State.writeXlt_keeps (hm := Mask.le hm rfl)
    | with_reducible apply State.putCtrReg_keeps (hm := Mask.le hm rfl)
    | with_reducible apply State.putCtr_keeps (hm := Mask.le hm rfl)
    | with_reducible apply State.putGroup_keeps (hm := Mask.le hm rfl)
    | with_reducible apply State.putBank_keeps (hm := Mask.le hm rfl)
    | with_reducible apply State.urgentCfg_keeps (hm := Mask.le hm rfl)
    | with_reducible apply State.setTrig_keeps (hm := Mask.le hm rfl)
    | exact State.hmemRaw_keeps _ (fun k => Memory.wf_write k.hmem _ _) h
    | exact State.trigWrite_keeps _ _ (by assumption) h
    | exact fun (hb : Nat.testBit _ _ = _) => (Mask.off hm hb rfl).elim
    | with_reducible exact fun _ => rfl
    | (intro x; intros; try dsimp only)
    | split
    | with_reducible apply Keeps.upd
    | dsimp only)

theorem State.act_keeps {m : Nat} {s0 s : State} (z1 : Nat) (r : RegRef) (o : Word) (t : Word) (mask : Word) (h : Keeps m s0 s)
    (hm : 1073741820 &&& m = 1073741820 := by exact Mask.le (by assumption) rfl) :
    Keeps m s0 (State.act s z1 r o t mask) := by
  unfold State.act
  try dsimp only
  repeat' (first
    | with_reducible assumption
    | with_reducible apply State.leaveEffect_keeps (hm := Mask.le hm rfl)
    | with_reducible apply State.topReset_keeps (hm := Mask.le hm rfl)
    | with_reducible apply State.portExit_keeps (hm := Mask.le hm rfl)
    | with_reducible apply State.portReset_keeps (hm := Mask.le hm rfl)
    | with_reducible apply State.flushPending_keeps (hm := Mask.le hm rfl)
    | with_reducible apply State.updateWire_keeps (hm := Mask.le hm rfl)
    | with_reducible apply State.setPba_keeps (hm := Mask.le hm rfl)
    | with_reducible apply State.slotInd_keeps (hm := Mask.le hm rfl)
    | with_reducible apply State.powerOff_keeps (hm := Mask.le hm rfl)
    | with_reducible apply State.powerOn_keeps (hm := Mask.le hm rfl)
    | with_reducible apply State.handleQuery_keeps (hm := Mask.le hm rfl)
    | with_reducible apply State.ctxCmd_keeps (hm := Mask.le hm rfl)
    | with_reducible apply State.commit_keeps (hm := Mask.le hm rfl)
    | with_reducible apply State.loaderStart_keeps (hm := Mask.le hm rfl)
    | with_reducible apply State.syncStart_keeps (hm := Mask.le hm rfl)
    | with_reducible apply State.orderReset_keeps (hm := Mask.le hm rfl)
    | with_reducible apply State.usabilityChanged_keeps (hm := Mask.le hm rfl)
    | with_reducible apply State.laneRetire_keeps (hm := Mask.le hm rfl)
    | with_reducible apply State.laneExit_keeps (hm := Mask.le hm rfl)
    | with_reducible apply State.laneReset_keeps (hm := Mask.le hm rfl)
    | with_reducible apply State.testChanged_keeps (hm := Mask.le hm rfl)
    | with_reducible apply State.injectBegin_keeps (hm := Mask.le hm rfl)
    | with_reducible apply State.setLane_keeps (hm := Mask.le hm rfl)
    | with_reducible apply State.m2Slip_keeps (hm := Mask.le hm rfl)
    | with_reducible apply State.requestReset_keeps (hm := Mask.le hm rfl)
    | with_reducible apply State.lnkExit_keeps (hm := Mask.le hm rfl)
    | with_reducible apply State.lnkSetup_keeps (hm := Mask.le hm rfl)
    | with_reducible apply State.retireCore_keeps (hm := Mask.le hm rfl)
    | with_reducible apply State.resetCore_keeps (hm := Mask.le hm rfl)
    | with_reducible apply State.timerLevel_keeps (hm := Mask.le hm rfl)
    | with_reducible apply State.marchStart_keeps (hm := Mask.le hm rfl)
    | with_reducible apply State.bankWoken_keeps (hm := Mask.le hm rfl)
    | with_reducible apply State.semFree_keeps (hm := Mask.le hm rfl)
    | with_reducible apply State.firstClear_keeps (hm := Mask.le hm rfl)
    | with_reducible apply State.actNow_keeps (hm := Mask.le hm rfl)
    | with_reducible apply State.escWithdraw_keeps (hm := Mask.le hm rfl)
    | with_reducible apply State.injectStart_keeps (hm := Mask.le hm rfl)
    | with_reducible apply State.sealStart_keeps (hm := Mask.le hm rfl)
    | with_reducible apply State.detach_keeps (hm := Mask.le hm rfl)
    | with_reducible apply State.resume_keeps (hm := Mask.le hm rfl)
    | with_reducible apply State.flashProgram_keeps (hm := Mask.le hm rfl)
    | with_reducible apply State.flashErase_keeps (hm := Mask.le hm rfl)
    | with_reducible apply State.verifyStart_keeps (hm := Mask.le hm rfl)
    | with_reducible apply State.commitSvn_keeps (hm := Mask.le hm rfl)
    | with_reducible apply State.updateStart_keeps (hm := Mask.le hm rfl)
    | with_reducible apply State.quoteStart_keeps (hm := Mask.le hm rfl)
    | with_reducible apply State.freezeAtTime_keeps (hm := Mask.le hm rfl)
    | with_reducible apply State.freezeSoon_keeps (hm := Mask.le hm rfl)
    | with_reducible apply State.unfreeze_keeps (hm := Mask.le hm rfl)
    | with_reducible apply Keeps.foldl
    | with_reducible apply Keeps.foldlSnd
    | with_reducible apply Keeps.foldlFst
    | (intro x; intros; try dsimp only)
    | dsimp only
    | split)

theorem State.unmappedWrite_keeps {m : Nat} {s0 s : State} (a : WaitAcc) (v : Word) (h : Keeps m s0 s)
    (hm : 1171596 &&& m = 1171596 := by exact Mask.le (by assumption) rfl) :
    Keeps m s0 (State.unmappedWrite s a v) := by
  unfold State.unmappedWrite
  try dsimp only
  repeat' (first
    | with_reducible assumption
    | with_reducible apply State.faultBy_keeps (hm := Mask.le hm rfl)
    | with_reducible apply State.logIgnored_keeps (hm := Mask.le hm rfl)
    | (intro x; intros; try dsimp only)
    | dsimp only
    | split)

theorem State.logPerformed_keeps {m : Nat} {s0 s : State} (z1 : Nat) (r : RegRef) (o : Word) (t : Word) (h : Keeps m s0 s)
    (hm : 81924 &&& m = 81924 := by exact Mask.le (by assumption) rfl) :
    Keeps m s0 (State.logPerformed s z1 r o t) := by
  unfold State.logPerformed
  try dsimp only
  repeat' (first
    | with_reducible assumption
    | with_reducible apply State.logWrite_keeps (hm := Mask.le hm rfl)
    | (intro x; intros; try dsimp only)
    | dsimp only
    | split)

theorem State.pinsRefused_keeps {m : Nat} {s0 s : State} (z1 : Nat) (r : RegRef) (o : Word) (t : Word) (h : Keeps m s0 s)
    (hm : 1171596 &&& m = 1171596 := by exact Mask.le (by assumption) rfl) :
    Keeps m s0 (State.pinsRefused s z1 r o t) := by
  unfold State.pinsRefused
  try dsimp only
  repeat' (first
    | with_reducible assumption
    | with_reducible apply State.faultBy_keeps (hm := Mask.le hm rfl)
    | with_reducible apply State.logIgnored_keeps (hm := Mask.le hm rfl)
    | with_reducible apply Keeps.foldl
    | with_reducible apply Keeps.foldlSnd
    | with_reducible apply Keeps.foldlFst
    | (intro x; intros; try dsimp only)
    | dsimp only
    | split)

theorem State.regStore_keeps {m : Nat} {s0 s : State} (z1 : Nat) (r : RegRef) (o : Word) (t : Word) (v : Word) (mask : Word) (h : Keeps m s0 s)
    (hm : 305394828 &&& m = 305394828 := by exact Mask.le (by assumption) rfl) :
    Keeps m s0 (State.regStore s z1 r o t v mask).1 := by
  unfold State.regStore
  try dsimp only
  repeat' (first
    | with_reducible assumption
    | with_reducible apply State.pinsRefused_keeps (hm := Mask.le hm rfl)
    | with_reducible apply State.logIgnored_keeps (hm := Mask.le hm rfl)
    | with_reducible apply State.setupViolation_keeps (hm := Mask.le hm rfl)
    | with_reducible apply State.logPerformed_keeps (hm := Mask.le hm rfl)
    | with_reducible apply State.store_keeps (hm := Mask.le hm rfl)
    | (intro x; intros; try dsimp only)
    | dsimp only
    | split)

theorem State.dsWrite_keeps {m : Nat} {s0 s : State} (a : WaitAcc) (r : RegRef) (t : Word) (mask : Word) (h : Keeps m s0 s)
    (hm : 11760828 &&& m = 11760828 := by exact Mask.le (by assumption) rfl) :
    Keeps m s0 (State.dsWrite s a r t mask) := by
  unfold State.dsWrite
  try dsimp only
  repeat' (first
    | with_reducible assumption
    | with_reducible apply State.logWrite_keeps (hm := Mask.le hm rfl)
    | with_reducible apply State.deliver_keeps (hm := Mask.le hm rfl)
    | with_reducible apply State.dsIssue_keeps (hm := Mask.le hm rfl)
    | (intro x; intros; try dsimp only)
    | dsimp only
    | split)

theorem State.writeReg_keeps {m : Nat} {s0 s : State} (a : WaitAcc) (p : AccSize) (r : RegRef) (v : Word) (h : Keeps m s0 s)
    (hm : 1073741821 &&& m = 1073741821 := by exact Mask.le (by assumption) rfl) :
    Keeps m s0 (State.writeReg s a p r v).1 := by
  unfold State.writeReg
  try dsimp only
  repeat' (first
    | with_reducible assumption
    | with_reducible apply State.endCycle_keeps (hm := Mask.le hm rfl)
    | with_reducible apply State.deliver_keeps (hm := Mask.le hm rfl)
    | with_reducible apply State.logIgnored_keeps (hm := Mask.le hm rfl)
    | with_reducible apply State.refuse_keeps (hm := Mask.le hm rfl)
    | with_reducible apply State.dsWrite_keeps (hm := Mask.le hm rfl)
    | with_reducible apply State.regStore_keeps (hm := Mask.le hm rfl)
    | with_reducible apply State.act_keeps (hm := Mask.le hm rfl)
    | (intro x; intros; try dsimp only)
    | dsimp only
    | split
    | refine Keeps.fst (by assumption) ?_
    | refine OptKeeps.get (by assumption) ?_)

theorem State.performWrite_keeps {m : Nat} {s0 s : State} (a : WaitAcc) (v : Word) (h : Keeps m s0 s)
    (hm : 1073741821 &&& m = 1073741821 := by exact Mask.le (by assumption) rfl) :
    Keeps m s0 (State.performWrite s a v).1 := by
  unfold State.performWrite
  try dsimp only
  repeat' (first
    | with_reducible assumption
    | with_reducible apply State.writeReg_keeps (hm := Mask.le hm rfl)
    | with_reducible apply State.deliver_keeps (hm := Mask.le hm rfl)
    | with_reducible apply State.unmappedWrite_keeps (hm := Mask.le hm rfl)
    | (intro x; intros; try dsimp only)
    | dsimp only
    | split
    | refine Keeps.fst (by assumption) ?_)

theorem State.performRead_keeps {m : Nat} {s0 s : State} (a : WaitAcc) (h : Keeps m s0 s)
    (hm : 12268732 &&& m = 12268732 := by exact Mask.le (by assumption) rfl) :
    Keeps m s0 (State.performRead s a) := by
  unfold State.performRead
  try dsimp only
  repeat' (first
    | with_reducible assumption
    | with_reducible apply State.semAcquire_keeps (hm := Mask.le hm rfl)
    | with_reducible apply State.deliver_keeps (hm := Mask.le hm rfl)
    | with_reducible apply State.flashRead_keeps (hm := Mask.le hm rfl)
    | with_reducible apply State.dsIssue_keeps (hm := Mask.le hm rfl)
    | (intro x; intros; try dsimp only)
    | dsimp only
    | split
    | refine Keeps.snd (by assumption) ?_)

theorem State.perform_keeps {m : Nat} {s0 s : State} (a : WaitAcc) (h : Keeps m s0 s)
    (hm : 1073741821 &&& m = 1073741821 := by exact Mask.le (by assumption) rfl) :
    Keeps m s0 (State.perform s a) := by
  unfold State.perform
  try dsimp only
  repeat' (first
    | with_reducible assumption
    | with_reducible apply State.performWrite_keeps (hm := Mask.le hm rfl)
    | with_reducible apply State.performRead_keeps (hm := Mask.le hm rfl)
    | (intro x; intros; try dsimp only)
    | dsimp only
    | split
    | refine Keeps.fst (by assumption) ?_)

theorem State.regAccess_keeps {m : Nat} {s0 s : State} (a : WaitAcc) (h : Keeps m s0 s)
    (hm : 1073741821 &&& m = 1073741821 := by exact Mask.le (by assumption) rfl) :
    Keeps m s0 (State.regAccess s a) := by
  unfold State.regAccess
  try dsimp only
  repeat' (first
    | with_reducible assumption
    | with_reducible apply State.perform_keeps (hm := Mask.le hm rfl)
    | exact fun (hb : Nat.testBit _ _ = _) => (Mask.off hm hb rfl).elim
    | with_reducible exact fun _ => rfl
    | (intro x; intros; try dsimp only)
    | dsimp only
    | split
    | with_reducible apply Keeps.upd)

theorem State.runWaits_keeps {m : Nat} {s0 s : State} (a : Nat) (h : Keeps m s0 s)
    (hm : 1073741821 &&& m = 1073741821 := by exact Mask.le (by assumption) rfl) :
    Keeps m s0 (State.runWaits s a) := by
  induction a generalizing s with
  | zero =>
    try unfold State.runWaits
    try dsimp only
    repeat' (first
      | with_reducible assumption
      | with_reducible apply State.perform_keeps (hm := Mask.le hm rfl)
      | exact fun (hb : Nat.testBit _ _ = _) => (Mask.off hm hb rfl).elim
      | with_reducible exact fun _ => rfl
      | (intro x; intros; try dsimp only)
      | dsimp only
      | split
      | with_reducible apply Keeps.upd)
  | succ n ih =>
    try unfold State.runWaits
    try dsimp only
    repeat' (first
      | with_reducible apply ih
      | with_reducible assumption
      | with_reducible apply State.perform_keeps (hm := Mask.le hm rfl)
      | exact fun (hb : Nat.testBit _ _ = _) => (Mask.off hm hb rfl).elim
      | with_reducible exact fun _ => rfl
      | (intro x; intros; try dsimp only)
      | dsimp only
      | split
      | with_reducible apply Keeps.upd)

theorem State.wakeWaits_keeps {m : Nat} {s0 s : State}  (h : Keeps m s0 s)
    (hm : 1073741821 &&& m = 1073741821 := by exact Mask.le (by assumption) rfl) :
    Keeps m s0 (State.wakeWaits s) := by
  unfold State.wakeWaits
  try dsimp only
  repeat' (first
    | with_reducible assumption
    | with_reducible apply State.runWaits_keeps (hm := Mask.le hm rfl)
    | (intro x; intros; try dsimp only)
    | dsimp only
    | split)

theorem State.stallExpire_keeps {m : Nat} {s0 s : State}  (h : Keeps m s0 s)
    (hm : 1073741821 &&& m = 1073741821 := by exact Mask.le (by assumption) rfl) :
    Keeps m s0 (State.stallExpire s) := by
  unfold State.stallExpire
  try dsimp only
  repeat' (first
    | with_reducible assumption
    | with_reducible apply State.advance_keeps (hm := Mask.le hm rfl)
    | with_reducible apply State.setFlag_keeps (hm := Mask.le hm rfl)
    | with_reducible apply State.bump_keeps (hm := Mask.le hm rfl)
    | with_reducible apply State.wakeWaits_keeps (hm := Mask.le hm rfl)
    | with_reducible apply State.deliver_keeps (hm := Mask.le hm rfl)
    | with_reducible apply State.faultBy_keeps (hm := Mask.le hm rfl)
    | exact fun (hb : Nat.testBit _ _ = _) => (Mask.off hm hb rfl).elim
    | with_reducible exact fun _ => rfl
    | (intro x; intros; try dsimp only)
    | dsimp only
    | split
    | with_reducible apply Keeps.upd)

theorem State.masterAccess_keeps {m : Nat} {s0 s : State} (z1 : Nat) (off : Nat) (size : ReqSize) (write : Option Word) (h : Keeps m s0 s)
    (hm : 1073741821 &&& m = 1073741821 := by exact Mask.le (by assumption) rfl) :
    Keeps m s0 (State.masterAccess s z1 off size write) := by
  unfold State.masterAccess
  try dsimp only
  repeat' (first
    | with_reducible assumption
    | with_reducible apply State.regAccess_keeps (hm := Mask.le hm rfl)
    | (intro x; intros; try dsimp only)
    | dsimp only
    | split)

theorem State.directAccess_keeps {m : Nat} {s0 s : State} (z1 : Nat) (off : Nat) (size : ReqSize) (write : Option Word) (h : Keeps m s0 s)
    (hm : 1073741821 &&& m = 1073741821 := by exact Mask.le (by assumption) rfl) :
    Keeps m s0 (State.directAccess s z1 off size write) := by
  unfold State.directAccess
  try dsimp only
  repeat' (first
    | with_reducible assumption
    | with_reducible apply State.masterAccess_keeps (hm := Mask.le hm rfl)
    | (intro x; intros; try dsimp only)
    | dsimp only
    | split)

theorem State.regWrite_keeps {m : Nat} {s0 s : State} (z1 : Nat) (r : RegRef) (w : WVal) (h : Keeps m s0 s)
    (hm : 1073741821 &&& m = 1073741821 := by exact Mask.le (by assumption) rfl) :
    Keeps m s0 (State.regWrite s z1 r w) := by
  unfold State.regWrite
  try dsimp only
  repeat' (first
    | with_reducible assumption
    | with_reducible apply State.masterAccess_keeps (hm := Mask.le hm rfl)
    | with_reducible apply State.rxBytes_keeps (hm := Mask.le hm rfl)
    | (intro x; intros; try dsimp only)
    | dsimp only
    | split)

theorem State.regRead_keeps {m : Nat} {s0 s : State} (z1 : Nat) (r : RegRef) (acc : AccSize) (h : Keeps m s0 s)
    (hm : 1073741821 &&& m = 1073741821 := by exact Mask.le (by assumption) rfl) :
    Keeps m s0 (State.regRead s z1 r acc) := by
  unfold State.regRead
  try dsimp only
  repeat' (first
    | with_reducible assumption
    | with_reducible apply State.directAccess_keeps (hm := Mask.le hm rfl)
    | (intro x; intros; try dsimp only)
    | dsimp only
    | split)

theorem State.vfPageStore_keeps {m : Nat} {s0 s : State} (p : Nat) (v : Nat) (off : Nat) (size : ReqSize) (val : Word) (h : Keeps m s0 s)
    (hm : 65676 &&& m = 65676 := by exact Mask.le (by assumption) rfl) :
    Keeps m s0 (State.vfPageStore s p v off size val) := by
  unfold State.vfPageStore
  try dsimp only
  repeat' (first
    | with_reducible assumption
    | with_reducible apply State.setVfWord_keeps (hm := Mask.le hm rfl)
    | with_reducible apply State.flushPending_keeps (hm := Mask.le hm rfl)
    | with_reducible apply State.setFn_keeps (hm := Mask.le hm rfl)
    | (intro x; intros; try dsimp only)
    | dsimp only
    | split)

theorem State.vfPageWrite_keeps {m : Nat} {s0 s : State} (p : Nat) (v : Nat) (off : Nat) (size : ReqSize) (val : Word) (h : Keeps m s0 s)
    (hm : 1073741821 &&& m = 1073741821 := by exact Mask.le (by assumption) rfl) :
    Keeps m s0 (State.vfPageWrite s p v off size val) := by
  unfold State.vfPageWrite
  try dsimp only
  repeat' (first
    | with_reducible assumption
    | with_reducible apply State.masterAccess_keeps (hm := Mask.le hm rfl)
    | with_reducible apply State.vfPageStore_keeps (hm := Mask.le hm rfl)
    | (intro x; intros; try dsimp only)
    | dsimp only
    | split)

theorem State.vfPageRead_keeps {m : Nat} {s0 s : State} (p : Nat) (v : Nat) (off : Nat) (size : ReqSize) (h : Keeps m s0 s)
    (hm : 1073741821 &&& m = 1073741821 := by exact Mask.le (by assumption) rfl) :
    Keeps m s0 (State.vfPageRead s p v off size) := by
  unfold State.vfPageRead
  try dsimp only
  repeat' (first
    | with_reducible assumption
    | with_reducible apply State.masterAccess_keeps (hm := Mask.le hm rfl)
    | with_reducible apply State.emit_keeps (hm := Mask.le hm rfl)
    | (intro x; intros; try dsimp only)
    | dsimp only
    | split)

theorem State.done_keeps {m : Nat} {s0 s : State} (z1 : State) (h : Keeps m s0 s)
    (hm : 1073741821 &&& m = 1073741821 := by exact Mask.le (by assumption) rfl) :
    Keeps m s0 (State.done s z1) := by
  unfold State.done
  try dsimp only
  repeat' (first
    | with_reducible assumption
    | with_reducible apply State.releaseHeld_keeps (hm := Mask.le hm rfl)
    | with_reducible apply State.journalFlush_keeps (hm := Mask.le hm rfl)
    | with_reducible apply State.settle_keeps (hm := Mask.le hm rfl)
    | with_reducible apply State.resetWhenSealed_keeps (hm := Mask.le hm rfl)
    | with_reducible apply State.wakeWaits_keeps (hm := Mask.le hm rfl)
    | (intro x; intros; try dsimp only)
    | dsimp only
    | split)

theorem State.takeIrq_keeps {m : Nat} {s0 s : State} (c : Nat) (k : Nat) (h : Keeps m s0 s)
    (hm : 131072 &&& m = 131072 := by exact Mask.le (by assumption) rfl) :
    Keeps m s0 (State.takeIrq s c k) := by
  unfold State.takeIrq
  try dsimp only
  repeat' (first
    | with_reducible assumption
    | with_reducible apply State.setCore_keeps (hm := Mask.le hm rfl)
    | (intro x; intros; try dsimp only)
    | dsimp only
    | split)

theorem State.residentHandler_keeps {m : Nat} {s0 s : State} (c : Nat) (h : Keeps m s0 s)
    (hm : 131104 &&& m = 131104 := by exact Mask.le (by assumption) rfl) :
    Keeps m s0 (State.residentHandler s c) := by
  unfold State.residentHandler
  try dsimp only
  repeat' (first
    | with_reducible assumption
    | with_reducible apply State.fresh_keeps (hm := Mask.le hm rfl)
    | with_reducible apply State.setCore_keeps (hm := Mask.le hm rfl)
    | (intro x; intros; try dsimp only)
    | dsimp only
    | split
    | refine Keeps.snd (by assumption) ?_)

theorem State.refillRoutine_keeps {m : Nat} {s0 s : State} (c : Nat) (h : Keeps m s0 s)
    (hm : 1828268 &&& m = 1828268 := by exact Mask.le (by assumption) rfl) :
    Keeps m s0 (State.refillRoutine s c) := by
  unfold State.refillRoutine
  try dsimp only
  repeat' (first
    | with_reducible assumption
    | with_reducible apply State.setCore_keeps (hm := Mask.le hm rfl)
    | with_reducible apply State.fillRefused_keeps (hm := Mask.le hm rfl)
    | with_reducible apply State.tlbFill_keeps (hm := Mask.le hm rfl)
    | (intro x; intros; try dsimp only)
    | dsimp only
    | split)

theorem State.cacheRead_keeps {m : Nat} {s0 s : State} (c : Nat) (code : Bool) (a : Nat) (n : Nat) (h : Keeps m s0 s)
    (hm : 196640 &&& m = 196640 := by exact Mask.le (by assumption) rfl) :
    Keeps m s0 (State.cacheRead s c code a n).2 := by
  have h1 : Keeps m s0 (s.fresh 16).2 := State.fresh_keeps _ h
  have h2 : Keeps m s0 ((s.fresh 16).2.hbmLine (a / 64)).2 := State.hbmLine_keeps _ h1
  unfold State.cacheRead
  dsimp only
  generalize Option.filter _ _ = o
  cases o with
  | some bs =>
    dsimp only
    exact h1
  | none =>
    dsimp only
    exact State.pmcEv_keeps _ _ _ _ _ (State.setCore_keeps _ _ h2)

theorem State.coreBusy_keeps {m : Nat} {s0 s : State} (c : Nat) (h : Keeps m s0 s)
    (hm : 131072 &&& m = 131072 := by exact Mask.le (by assumption) rfl) :
    Keeps m s0 (State.coreBusy s c) := by
  unfold State.coreBusy
  try dsimp only
  repeat' (first
    | with_reducible assumption
    | with_reducible apply State.setCore_keeps (hm := Mask.le hm rfl)
    | (intro x; intros; try dsimp only)
    | dsimp only
    | split)

theorem State.spdCoreRead_keeps {m : Nat} {s0 s : State} (c : Nat) (off : Nat) (n : Nat) (h : Keeps m s0 s)
    (hm : 196612 &&& m = 196612 := by exact Mask.le (by assumption) rfl) :
    Keeps m s0 (State.spdCoreRead s c off n).2 := by
  unfold State.spdCoreRead
  try dsimp only
  repeat' (first
    | with_reducible assumption
    | with_reducible apply State.pmcEv_keeps (hm := Mask.le hm rfl)
    | with_reducible apply State.coreBusy_keeps (hm := Mask.le hm rfl)
    | with_reducible apply State.spdTouch_keeps (hm := Mask.le hm rfl)
    | (intro x; intros; try dsimp only)
    | dsimp only
    | split)

theorem State.spdCoreWrite_keeps {m : Nat} {s0 s : State} (c : Nat) (off : Nat) (bs : List Byte) (h : Keeps m s0 s)
    (hm : 134676484 &&& m = 134676484 := by exact Mask.le (by assumption) rfl) :
    Keeps m s0 (State.spdCoreWrite s c off bs) := by
  unfold State.spdCoreWrite
  try dsimp only
  repeat' (first
    | with_reducible assumption
    | with_reducible apply State.pmcEv_keeps (hm := Mask.le hm rfl)
    | with_reducible apply State.spdStore_keeps (hm := Mask.le hm rfl)
    | with_reducible apply State.spdTouch_keeps (hm := Mask.le hm rfl)
    | with_reducible apply State.coreBusy_keeps (hm := Mask.le hm rfl)
    | (intro x; intros; try dsimp only)
    | dsimp only
    | split)

theorem State.devLoad_keeps {m : Nat} {s0 s : State} (c : Nat) (off : Nat) (w : CoreWait) (h : Keeps m s0 s)
    (hm : 1073741821 &&& m = 1073741821 := by exact Mask.le (by assumption) rfl) :
    Keeps m s0 (State.devLoad s c off w) := by
  unfold State.devLoad
  try dsimp only
  repeat' (first
    | with_reducible assumption
    | with_reducible apply State.directAccess_keeps (hm := Mask.le hm rfl)
    | with_reducible apply State.setCore_keeps (hm := Mask.le hm rfl)
    | (intro x; intros; try dsimp only)
    | dsimp only
    | split)

theorem State.devStore_keeps {m : Nat} {s0 s : State} (c : Nat) (off : Nat) (n : Nat) (val : Word) (h : Keeps m s0 s)
    (hm : 1073741821 &&& m = 1073741821 := by exact Mask.le (by assumption) rfl) :
    Keeps m s0 (State.devStore s c off n val) := by
  unfold State.devStore
  try dsimp only
  repeat' (first
    | with_reducible assumption
    | with_reducible apply State.directAccess_keeps (hm := Mask.le hm rfl)
    | with_reducible apply State.dbPageWrite_keeps (hm := Mask.le hm rfl)
    | (intro x; intros; try dsimp only)
    | dsimp only
    | split)

theorem State.coreUncorrected_keeps {m : Nat} {s0 s : State} (c : Nat) (a : Nat) (cause : Nat) (va : Word) (h : Keeps m s0 s)
    (hm : 50045372 &&& m = 50045372 := by exact Mask.le (by assumption) rfl) :
    Keeps m s0 (State.coreUncorrected s c a cause va) := by
  unfold State.coreUncorrected
  try dsimp only
  repeat' (first
    | with_reducible assumption
    | with_reducible apply State.coreFault_keeps (hm := Mask.le hm rfl)
    | with_reducible apply State.hbmUncorrected_keeps (hm := Mask.le hm rfl)
    | (intro x; intros; try dsimp only)
    | dsimp only
    | split)

theorem State.coreLoadAt_keeps {m : Nat} {s0 s : State} (c : Nat) (w : CoreWait) (t : CoreTarget) (h : Keeps m s0 s)
    (hm : 1073741821 &&& m = 1073741821 := by exact Mask.le (by assumption) rfl) :
    Keeps m s0 (State.coreLoadAt s c w t) := by
  unfold State.coreLoadAt
  try dsimp only
  repeat' (first
    | with_reducible assumption
    | with_reducible apply State.coreFault_keeps (hm := Mask.le hm rfl)
    | with_reducible apply State.gather_keeps (hm := Mask.le hm rfl)
    | with_reducible apply State.setCore_keeps (hm := Mask.le hm rfl)
    | with_reducible apply State.coreUncorrected_keeps (hm := Mask.le hm rfl)
    | with_reducible apply State.cacheRead_keeps (hm := Mask.le hm rfl)
    | with_reducible apply State.spdCoreRead_keeps (hm := Mask.le hm rfl)
    | with_reducible apply State.devLoad_keeps (hm := Mask.le hm rfl)
    | (intro x; intros; try dsimp only)
    | dsimp only
    | split
    | refine Keeps.snd (by assumption) ?_)

theorem State.coreLoad_keeps {m : Nat} {s0 s : State} (c : Nat) (n : Nat) (signed : Bool) (rd : Nat) (va : Word) (next : Word) (h : Keeps m s0 s)
    (hm : 1073741821 &&& m = 1073741821 := by exact Mask.le (by assumption) rfl) :
    Keeps m s0 (State.coreLoad s c n signed rd va next) := by
  unfold State.coreLoad
  try dsimp only
  repeat' (first
    | with_reducible assumption
    | with_reducible apply State.coreFault_keeps (hm := Mask.le hm rfl)
    | with_reducible apply State.coreEntry_keeps (hm := Mask.le hm rfl)
    | with_reducible apply State.coreLoadAt_keeps (hm := Mask.le hm rfl)
    | (intro x; intros; try dsimp only)
    | dsimp only
    | split
    | refine Keeps.snd (by assumption) ?_)

theorem State.coreRetire_keeps {m : Nat} {s0 s : State} (c : Nat) (next : Word) (h : Keeps m s0 s)
    (hm : 131072 &&& m = 131072 := by exact Mask.le (by assumption) rfl) :
    Keeps m s0 (State.coreRetire s c next) := by
  unfold State.coreRetire
  try dsimp only
  repeat' (first
    | with_reducible assumption
    | with_reducible apply State.setCore_keeps (hm := Mask.le hm rfl)
    | (intro x; intros; try dsimp only)
    | dsimp only
    | split)

theorem State.coreHbmStore_keeps {m : Nat} {s0 s : State} (c : Nat) (a : Nat) (bs : List Byte) (h : Keeps m s0 s)
    (hm : 336815108 &&& m = 336815108 := by exact Mask.le (by assumption) rfl) :
    OptKeeps m s0 (State.coreHbmStore s c a bs) := by
  unfold State.coreHbmStore
  try dsimp only
  repeat' (first
    | with_reducible assumption
    | with_reducible apply State.setCore_keeps (hm := Mask.le hm rfl)
    | with_reducible apply State.hbmStore_keeps (hm := Mask.le hm rfl)
    | with_reducible apply OptKeeps.mapState
    | with_reducible apply OptKeeps.map
    | with_reducible exact OptKeeps.none
    | with_reducible apply OptKeeps.some
    | (intro x; intros; try dsimp only)
    | dsimp only
    | split
    | refine OptKeeps.get (by assumption) ?_)

theorem State.coreStoreAt_keeps {m : Nat} {s0 s : State} (c : Nat) (n : Nat) (val : Word) (va : Word) (next : Word) (t : CoreTarget) (h : Keeps m s0 s)
    (hm : 1073741821 &&& m = 1073741821 := by exact Mask.le (by assumption) rfl) :
    Keeps m s0 (State.coreStoreAt s c n val va next t) := by
  unfold State.coreStoreAt
  try dsimp only
  repeat' (first
    | with_reducible assumption
    | with_reducible apply State.coreFault_keeps (hm := Mask.le hm rfl)
    | with_reducible apply State.hostWrite_keeps (hm := Mask.le hm rfl)
    | with_reducible apply State.coreRetire_keeps (hm := Mask.le hm rfl)
    | with_reducible apply State.coreHbmStore_keeps (hm := Mask.le hm rfl)
    | with_reducible apply State.spdCoreWrite_keeps (hm := Mask.le hm rfl)
    | with_reducible apply State.devStore_keeps (hm := Mask.le hm rfl)
    | with_reducible apply Keeps.getD
    | with_reducible apply OptKeeps.mapState
    | with_reducible apply OptKeeps.map
    | (intro x; intros; try dsimp only)
    | dsimp only
    | split
    | refine OptKeeps.get (by assumption) ?_)

theorem State.coreStore_keeps {m : Nat} {s0 s : State} (c : Nat) (n : Nat) (val : Word) (va : Word) (next : Word) (h : Keeps m s0 s)
    (hm : 1073741821 &&& m = 1073741821 := by exact Mask.le (by assumption) rfl) :
    Keeps m s0 (State.coreStore s c n val va next) := by
  unfold State.coreStore
  try dsimp only
  repeat' (first
    | with_reducible assumption
    | with_reducible apply State.coreFault_keeps (hm := Mask.le hm rfl)
    | with_reducible apply State.coreEntry_keeps (hm := Mask.le hm rfl)
    | with_reducible apply State.coreStoreAt_keeps (hm := Mask.le hm rfl)
    | (intro x; intros; try dsimp only)
    | dsimp only
    | split
    | refine Keeps.snd (by assumption) ?_)

theorem State.atomicOf_keeps {m : Nat} {s0 s : State} (c : Nat) (k : AtomicKind) (space : Nat) (n : Nat) (va : Word) (old : List Byte) (h : Keeps m s0 s)
    (hm : 131104 &&& m = 131104 := by exact Mask.le (by assumption) rfl) :
    Keeps m s0 (State.atomicOf s c k space n va old).2 := by
  unfold State.atomicOf
  try dsimp only
  repeat' (first
    | with_reducible assumption
    | with_reducible apply State.setCore_keeps (hm := Mask.le hm rfl)
    | with_reducible apply State.fresh_keeps (hm := Mask.le hm rfl)
    | (intro x; intros; try dsimp only)
    | dsimp only
    | split
    | refine Keeps.snd (by assumption) ?_)

theorem State.atomicEnd_keeps {m : Nat} {s0 s : State} (c : Nat) (n : Nat) (rd : Nat) (r : Nat) (next : Word) (h : Keeps m s0 s)
    (hm : 131072 &&& m = 131072 := by exact Mask.le (by assumption) rfl) :
    Keeps m s0 (State.atomicEnd s c n rd r next) := by
  unfold State.atomicEnd
  try dsimp only
  repeat' (first
    | with_reducible assumption
    | with_reducible apply State.coreRetire_keeps (hm := Mask.le hm rfl)
    | with_reducible apply State.setCore_keeps (hm := Mask.le hm rfl)
    | (intro x; intros; try dsimp only)
    | dsimp only
    | split)

theorem State.coreAtomicAt_keeps {m : Nat} {s0 s : State} (c : Nat) (k : AtomicKind) (n : Nat) (rd : Nat) (va : Word) (next : Word) (t : CoreTarget) (h : Keeps m s0 s)
    (hm : 520086972 &&& m = 520086972 := by exact Mask.le (by assumption) rfl) :
    Keeps m s0 (State.coreAtomicAt s c k n rd va next t) := by
  unfold State.coreAtomicAt
  cases t with
  | hbm a =>
    dsimp only
    split
    · exact State.coreUncorrected_keeps _ _ _ _ h
    · have h1 : Keeps m s0 (s.hbmLine (a / 64)).2 := State.hbmLine_keeps _ h
      have h2 : Keeps m s0 ((s.hbmLine (a / 64)).2.atomicOf c k 1 n va (((s.hbmLine (a / 64)).1.drop (a % 64)).take n)).2 :=
        State.atomicOf_keeps _ _ _ _ _ _ h1
      generalize (s.hbmLine (a / 64)).2.atomicOf c k 1 n va (((s.hbmLine (a / 64)).1.drop (a % 64)).take n) = z at h2
      obtain ⟨⟨w, r⟩, t⟩ := z
      cases w with
      | none => exact State.atomicEnd_keeps _ _ _ _ _ h2
      | some bs =>
        exact Keeps.getD (OptKeeps.mapState (State.coreHbmStore_keeps _ _ _ h2)
          (fun t ht => State.atomicEnd_keeps _ _ _ _ _ ht)) h2
  | spd o =>
    dsimp only
    have h1 : Keeps m s0 (s.spdCoreRead c o n).2 := State.spdCoreRead_keeps _ _ _ h
    generalize s.spdCoreRead c o n = y at h1
    obtain ⟨old, t⟩ := y
    have h2 : Keeps m s0 (t.atomicOf c k 2 n va old).2 := State.atomicOf_keeps _ _ _ _ _ _ h1
    dsimp only
    generalize t.atomicOf c k 2 n va old = z at h2
    obtain ⟨⟨w, r⟩, u⟩ := z
    dsimp only
    cases w with
    | none => exact State.atomicEnd_keeps _ _ _ _ _ h2
    | some bs =>
      dsimp only
      refine State.atomicEnd_keeps _ _ _ _ _ ?_
      split
      · exact State.spdStore_keeps _ _ h2
      · exact h2
  | _ => exact State.coreFault_keeps _ _ _ h

theorem State.coreAtomic_keeps {m : Nat} {s0 s : State} (c : Nat) (k : AtomicKind) (n : Nat) (rd : Nat) (va : Word) (next : Word) (h : Keeps m s0 s)
    (hm : 520086972 &&& m = 520086972 := by exact Mask.le (by assumption) rfl) :
    Keeps m s0 (State.coreAtomic s c k n rd va next) := by
  unfold State.coreAtomic
  try dsimp only
  repeat' (first
    | with_reducible assumption
    | with_reducible apply State.coreFault_keeps (hm := Mask.le hm rfl)
    | with_reducible apply State.coreEntry_keeps (hm := Mask.le hm rfl)
    | with_reducible apply State.coreAtomicAt_keeps (hm := Mask.le hm rfl)
    | (intro x; intros; try dsimp only)
    | dsimp only
    | split
    | refine Keeps.snd (by assumption) ?_)

theorem State.coreCboAt_keeps {m : Nat} {s0 s : State} (c : Nat) (k : RvCbo) (va : Word) (next : Word) (t : CoreTarget) (h : Keeps m s0 s)
    (hm : 1810828 &&& m = 1810828 := by exact Mask.le (by assumption) rfl) :
    Keeps m s0 (State.coreCboAt s c k va next t) := by
  unfold State.coreCboAt
  try dsimp only
  repeat' (first
    | with_reducible assumption
    | with_reducible apply State.coreFault_keeps (hm := Mask.le hm rfl)
    | with_reducible apply State.coreRetire_keeps (hm := Mask.le hm rfl)
    | with_reducible apply State.setCore_keeps (hm := Mask.le hm rfl)
    | (intro x; intros; try dsimp only)
    | dsimp only
    | split)

theorem State.coreCbo_keeps {m : Nat} {s0 s : State} (c : Nat) (k : RvCbo) (va : Word) (next : Word) (h : Keeps m s0 s)
    (hm : 1810860 &&& m = 1810860 := by exact Mask.le (by assumption) rfl) :
    Keeps m s0 (State.coreCbo s c k va next) := by
  unfold State.coreCbo
  try dsimp only
  repeat' (first
    | with_reducible assumption
    | with_reducible apply State.coreFault_keeps (hm := Mask.le hm rfl)
    | with_reducible apply State.coreEntry_keeps (hm := Mask.le hm rfl)
    | with_reducible apply State.coreCboAt_keeps (hm := Mask.le hm rfl)
    | (intro x; intros; try dsimp only)
    | dsimp only
    | split
    | refine Keeps.snd (by assumption) ?_)

theorem State.coreCmd_keeps {m : Nat} {s0 s : State} (c : Nat) (w : Word) (h : Keeps m s0 s)
    (hm : 1828268 &&& m = 1828268 := by exact Mask.le (by assumption) rfl) :
    Keeps m s0 (State.coreCmd s c w) := by
  unfold State.coreCmd
  try dsimp only
  repeat' (first
    | with_reducible assumption
    | with_reducible apply State.fillEntry_keeps (hm := Mask.le hm rfl)
    | with_reducible apply State.fillRefused_keeps (hm := Mask.le hm rfl)
    | with_reducible apply State.tlbDropPage_keeps (hm := Mask.le hm rfl)
    | with_reducible apply State.tlbDropCtx_keeps (hm := Mask.le hm rfl)
    | with_reducible apply State.tlbDropAll_keeps (hm := Mask.le hm rfl)
    | with_reducible apply State.tlbUnlock_keeps (hm := Mask.le hm rfl)
    | (intro x; intros; try dsimp only)
    | dsimp only
    | split)

theorem State.csrWrite_keeps {m : Nat} {s0 s : State} (c : Nat) (num : Nat) (w : Word) (h : Keeps m s0 s)
    (hm : 1828268 &&& m = 1828268 := by exact Mask.le (by assumption) rfl) :
    Keeps m s0 (State.csrWrite s c num w) := by
  unfold State.csrWrite
  try dsimp only
  repeat' (first
    | with_reducible assumption
    | with_reducible apply State.setCore_keeps (hm := Mask.le hm rfl)
    | with_reducible apply State.coreCmd_keeps (hm := Mask.le hm rfl)
    | (intro x; intros; try dsimp only)
    | dsimp only
    | split)

theorem State.coreCsr_keeps {m : Nat} {s0 s : State} (c : Nat) (k : RvCsr) (rd : Nat) (num : Nat) (x : RvSrc) (next : Word) (h : Keeps m s0 s)
    (hm : 1828268 &&& m = 1828268 := by exact Mask.le (by assumption) rfl) :
    Keeps m s0 (State.coreCsr s c k rd num x next) := by
  unfold State.coreCsr
  try dsimp only
  repeat' (first
    | with_reducible assumption
    | with_reducible apply State.coreFault_keeps (hm := Mask.le hm rfl)
    | with_reducible apply State.setCore_keeps (hm := Mask.le hm rfl)
    | with_reducible apply State.csrWrite_keeps (hm := Mask.le hm rfl)
    | (intro x; intros; try dsimp only)
    | dsimp only
    | split)

theorem State.coreFetchAt_keeps {m : Nat} {s0 s : State} (c : Nat) (va : Word) (t : CoreTarget) (h : Keeps m s0 s)
    (hm : 50045372 &&& m = 50045372 := by exact Mask.le (by assumption) rfl) :
    Keeps m s0 (State.coreFetchAt s c va t).2 := by
  unfold State.coreFetchAt
  try dsimp only
  repeat' (first
    | with_reducible assumption
    | with_reducible apply State.coreUncorrected_keeps (hm := Mask.le hm rfl)
    | with_reducible apply State.cacheRead_keeps (hm := Mask.le hm rfl)
    | with_reducible apply State.coreFault_keeps (hm := Mask.le hm rfl)
    | (intro x; intros; try dsimp only)
    | dsimp only
    | split
    | refine Keeps.snd (by assumption) ?_)

theorem State.coreFetch_keeps {m : Nat} {s0 s : State} (c : Nat) (va : Word) (h : Keeps m s0 s)
    (hm : 50045372 &&& m = 50045372 := by exact Mask.le (by assumption) rfl) :
    Keeps m s0 (State.coreFetch s c va).2 := by
  unfold State.coreFetch
  try dsimp only
  repeat' (first
    | with_reducible assumption
    | with_reducible apply State.coreEntry_keeps (hm := Mask.le hm rfl)
    | with_reducible apply State.coreFetchAt_keeps (hm := Mask.le hm rfl)
    | (intro x; intros; try dsimp only)
    | dsimp only
    | split
    | refine Keeps.snd (by assumption) ?_)

theorem State.coreEcall_keeps {m : Nat} {s0 s : State} (c : Nat) (h : Keeps m s0 s)
    (hm : 1810828 &&& m = 1810828 := by exact Mask.le (by assumption) rfl) :
    Keeps m s0 (State.coreEcall s c) := by
  unfold State.coreEcall
  try dsimp only
  repeat' (first
    | with_reducible assumption
    | with_reducible apply State.endInv_keeps (hm := Mask.le hm rfl)
    | with_reducible apply State.coreFault_keeps (hm := Mask.le hm rfl)
    | (intro x; intros; try dsimp only)
    | dsimp only
    | split)

theorem State.coreDo_keeps {m : Nat} {s0 s : State} (c : Nat) (op : RvOp) (next : Word) (h : Keeps m s0 s)
    (hm : 1073741821 &&& m = 1073741821 := by exact Mask.le (by assumption) rfl) :
    Keeps m s0 (State.coreDo s c op next) := by
  unfold State.coreDo
  try dsimp only
  repeat' (first
    | with_reducible assumption
    | with_reducible apply State.setCore_keeps (hm := Mask.le hm rfl)
    | with_reducible apply State.coreLoad_keeps (hm := Mask.le hm rfl)
    | with_reducible apply State.coreStore_keeps (hm := Mask.le hm rfl)
    | with_reducible apply State.coreAtomic_keeps (hm := Mask.le hm rfl)
    | with_reducible apply State.coreCsr_keeps (hm := Mask.le hm rfl)
    | with_reducible apply State.coreCbo_keeps (hm := Mask.le hm rfl)
    | with_reducible apply State.coreFault_keeps (hm := Mask.le hm rfl)
    | with_reducible apply State.coreEcall_keeps (hm := Mask.le hm rfl)
    | (intro x; intros; try dsimp only)
    | dsimp only
    | split)

theorem State.coreExec_keeps {m : Nat} {s0 s : State} (c : Nat) (h : Keeps m s0 s)
    (hm : 1073741821 &&& m = 1073741821 := by exact Mask.le (by assumption) rfl) :
    Keeps m s0 (State.coreExec s c) := by
  unfold State.coreExec
  try dsimp only
  repeat' (first
    | with_reducible assumption
    | with_reducible apply State.coreFetch_keeps (hm := Mask.le hm rfl)
    | with_reducible apply State.coreDo_keeps (hm := Mask.le hm rfl)
    | (intro x; intros; try dsimp only)
    | dsimp only
    | split
    | refine Keeps.snd (by assumption) ?_)

theorem State.coreStep_keeps {m : Nat} {s0 s : State} (c : Nat) (h : Keeps m s0 s)
    (hm : 1073741821 &&& m = 1073741821 := by exact Mask.le (by assumption) rfl) :
    Keeps m s0 (State.coreStep s c) := by
  unfold State.coreStep
  try dsimp only
  repeat' (first
    | with_reducible assumption
    | with_reducible apply State.takeIrq_keeps (hm := Mask.le hm rfl)
    | with_reducible apply State.coreExec_keeps (hm := Mask.le hm rfl)
    | with_reducible apply State.residentHandler_keeps (hm := Mask.le hm rfl)
    | with_reducible apply State.refillRoutine_keeps (hm := Mask.le hm rfl)
    | (intro x; intros; try dsimp only)
    | dsimp only
    | split)

theorem State.coreCycle_keeps {m : Nat} {s0 s : State}  (h : Keeps m s0 s)
    (hm : 1073741821 &&& m = 1073741821 := by exact Mask.le (by assumption) rfl) :
    Keeps m s0 (State.coreCycle s) := by
  unfold State.coreCycle
  try dsimp only
  repeat' (first
    | with_reducible assumption
    | with_reducible apply State.done_keeps (hm := Mask.le hm rfl)
    | with_reducible apply State.coreStep_keeps (hm := Mask.le hm rfl)
    | with_reducible apply Keeps.foldl
    | with_reducible apply Keeps.foldlSnd
    | with_reducible apply Keeps.foldlFst
    | (intro x; intros; try dsimp only)
    | dsimp only
    | split)

theorem State.idleCycle_keeps {m : Nat} {s0 s : State}  (h : Keeps m s0 s)
    (hm : 1073741821 &&& m = 1073741821 := by exact Mask.le (by assumption) rfl) :
    Keeps m s0 (State.idleCycle s) := by
  unfold State.idleCycle
  try dsimp only
  repeat' (first
    | with_reducible assumption
    | with_reducible apply State.coreCycle_keeps (hm := Mask.le hm rfl)
    | with_reducible apply State.lineCycle_keeps (hm := Mask.le hm rfl)
    | (intro x; intros; try dsimp only)
    | dsimp only
    | split)

theorem State.regWinAdmit_keeps {m : Nat} {s0 s : State} (p : Packet) (h : Keeps m s0 s)
    (hm : 1073741821 &&& m = 1073741821 := by exact Mask.le (by assumption) rfl) :
    Keeps m s0 (State.regWinAdmit s p) := by
  unfold State.regWinAdmit
  try dsimp only
  repeat' (first
    | with_reducible assumption
    | with_reducible apply State.tgtBusy_keeps (hm := Mask.le hm rfl)
    | with_reducible apply State.recordRefusal_keeps (hm := Mask.le hm rfl)
    | with_reducible apply State.pmcEv_keeps (hm := Mask.le hm rfl)
    | with_reducible apply State.putOp_keeps (hm := Mask.le hm rfl)
    | with_reducible apply State.regAccess_keeps (hm := Mask.le hm rfl)
    | (intro x; intros; try dsimp only)
    | dsimp only
    | split)

theorem State.rmaArrive_keeps {m : Nat} {s0 s : State} (p : Packet) (h : Keeps m s0 s)
    (hm : 1073741821 &&& m = 1073741821 := by exact Mask.le (by assumption) rfl) :
    Keeps m s0 (State.rmaArrive s p) := by
  unfold State.rmaArrive
  try dsimp only
  repeat' (first
    | with_reducible assumption
    | with_reducible apply State.rmaRequest_keeps (hm := Mask.le hm rfl)
    | with_reducible apply State.regWinAdmit_keeps (hm := Mask.le hm rfl)
    | with_reducible apply State.admitOp_keeps (hm := Mask.le hm rfl)
    | (intro x; intros; try dsimp only)
    | dsimp only
    | split)

theorem State.applyEntry_keeps {m : Nat} {s0 s : State} (e : Nat × Word) (h : Keeps m s0 s)
    (hm : 1073741821 &&& m = 1073741821 := by exact Mask.le (by assumption) rfl) :
    Keeps m s0 (State.applyEntry s e).1 := by
  unfold State.applyEntry
  try dsimp only
  repeat' (first
    | with_reducible assumption
    | with_reducible apply State.performWrite_keeps (hm := Mask.le hm rfl)
    | (intro x; intros; try dsimp only)
    | dsimp only
    | split
    | refine Keeps.fst (by assumption) ?_)

theorem State.applyDefaults_keeps {m : Nat} {s0 s : State} (es : List (Nat × Word)) (h : Keeps m s0 s)
    (hm : 1073741821 &&& m = 1073741821 := by exact Mask.le (by assumption) rfl) :
    Keeps m s0 (State.applyDefaults s es) := by
  unfold State.applyDefaults
  try dsimp only
  repeat' (first
    | with_reducible assumption
    | with_reducible apply State.applyEntry_keeps (hm := Mask.le hm rfl)
    | with_reducible apply Keeps.foldl
    | with_reducible apply Keeps.foldlSnd
    | with_reducible apply Keeps.foldlFst
    | (intro x; intros; try dsimp only)
    | dsimp only
    | split
    | refine Keeps.fst (by assumption) ?_)

theorem State.applyList_keeps {m : Nat} {s0 s : State} (a : List (Nat × Bool × Word)) (h : Keeps m s0 s)
    (hm : 1073741821 &&& m = 1073741821 := by exact Mask.le (by assumption) rfl) :
    Keeps m s0 (State.applyList s a).1 := by
  induction a generalizing s with
  | nil => exact h
  | cons e es ih =>
    obtain ⟨off, zero, w⟩ := e
    have he := State.applyEntry_keeps (off, w) h
    unfold State.applyList
    dsimp only
    split
    · exact ih he
    · dsimp only
      split
      · exact he
      · exact h

theorem State.naturalMap_keeps {m : Nat} {s0 s : State}  (h : Keeps m s0 s)
    (hm : 4 &&& m = 4 := by exact Mask.le (by assumption) rfl) :
    Keeps m s0 (State.naturalMap s) := by
  unfold State.naturalMap
  try dsimp only
  repeat' (first
    | with_reducible assumption
    | with_reducible apply State.setFld_keeps (hm := Mask.le hm rfl)
    | with_reducible apply Keeps.foldl
    | with_reducible apply Keeps.foldlSnd
    | with_reducible apply Keeps.foldlFst
    | (intro x; intros; try dsimp only)
    | dsimp only
    | split)

theorem State.firmwareVerified_keeps {m : Nat} {s0 s : State} (defaults : List (Nat × Word)) (timeRef : Bool) (h : Keeps m s0 s)
    (hm : 1073741821 &&& m = 1073741821 := by exact Mask.le (by assumption) rfl) :
    Keeps m s0 (State.firmwareVerified s defaults timeRef) := by
  unfold State.firmwareVerified
  try dsimp only
  repeat' (first
    | with_reducible assumption
    | with_reducible apply State.candidateBad_keeps (hm := Mask.le hm rfl)
    | with_reducible apply State.applyList_keeps (hm := Mask.le hm rfl)
    | with_reducible apply State.applyDefaults_keeps (hm := Mask.le hm rfl)
    | with_reducible apply State.naturalMap_keeps (hm := Mask.le hm rfl)
    | with_reducible apply State.loadSlot_keeps (hm := Mask.le hm rfl)
    | with_reducible apply State.atStep_keeps (hm := Mask.le hm rfl)
    | exact fun (hb : Nat.testBit _ _ = _) => (Mask.off hm hb rfl).elim
    | with_reducible exact fun _ => rfl
    | (intro x; intros; try dsimp only)
    | dsimp only
    | split
    | refine Keeps.fst (by assumption) ?_
    | with_reducible apply Keeps.upd)

theorem State.fwWrite_keeps {m : Nat} {s0 s : State} (r : RegRef) (v : Word) (h : Keeps m s0 s)
    (hm : 1073741821 &&& m = 1073741821 := by exact Mask.le (by assumption) rfl) :
    Keeps m s0 (State.fwWrite s r v) := by
  unfold State.fwWrite
  try dsimp only
  repeat' (first
    | with_reducible assumption
    | with_reducible apply State.performWrite_keeps (hm := Mask.le hm rfl)
    | (intro x; intros; try dsimp only)
    | dsimp only
    | split
    | refine Keeps.fst (by assumption) ?_)

theorem State.firmwareLoaded_keeps {m : Nat} {s0 s : State}  (h : Keeps m s0 s)
    (hm : 1073741821 &&& m = 1073741821 := by exact Mask.le (by assumption) rfl) :
    Keeps m s0 (State.firmwareLoaded s) := by
  unfold State.firmwareLoaded
  split
  · exact h
  · extract_lets s1 s2 s3
    have h1 : Keeps m s0 s1 := State.hmemRaw_keeps _ (fun k => Memory.wf_write k.hmem _ _) h
    clear_value s1
    have h2 : Keeps m s0 s2 :=
      State.bootWait_keeps (State.startFwCores_keeps (State.setFld_keeps _ _ _ _ (State.atStep_keeps _ h1)))
    exact State.fwWrite_keeps _ _ (State.fwWrite_keeps _ _ h2)

theorem State.releaseBlocks_keeps {m : Nat} {s0 s : State} (blocks : Nat) (h : Keeps m s0 s)
    (hm : 1073741821 &&& m = 1073741821 := by exact Mask.le (by assumption) rfl) :
    Keeps m s0 (State.releaseBlocks s blocks) := by
  unfold State.releaseBlocks
  try dsimp only
  repeat' (first
    | with_reducible assumption
    | with_reducible apply State.fwWrite_keeps (hm := Mask.le hm rfl)
    | (intro x; intros; try dsimp only)
    | dsimp only
    | split)

theorem State.distrust_keeps {m : Nat} {s0 s : State} (code : Nat) (blocks : Nat) (h : Keeps m s0 s)
    (hm : 1073741821 &&& m = 1073741821 := by exact Mask.le (by assumption) rfl) :
    Keeps m s0 (State.distrust s code blocks) := by
  unfold State.distrust
  try dsimp only
  repeat' (first
    | with_reducible assumption
    | with_reducible apply State.setFld_keeps (hm := Mask.le hm rfl)
    | with_reducible apply State.releaseBlocks_keeps (hm := Mask.le hm rfl)
    | exact fun (hb : Nat.testBit _ _ = _) => (Mask.off hm hb rfl).elim
    | with_reducible exact fun _ => rfl
    | (intro x; intros; try dsimp only)
    | dsimp only
    | split
    | with_reducible apply Keeps.upd)

theorem State.takeJournal_keeps {m : Nat} {s0 s : State} (x : JournalRead) (trusted : Bool) (h : Keeps m s0 s)
    (hm : 8192 &&& m = 8192 := by exact Mask.le (by assumption) rfl) :
    Keeps m s0 (State.takeJournal s x trusted) := by
  unfold State.takeJournal
  try dsimp only
  repeat' (first
    | with_reducible assumption
    | exact fun (hb : Nat.testBit _ _ = _) => (Mask.off hm hb rfl).elim
    | with_reducible exact fun _ => rfl
    | (intro x; intros; try dsimp only)
    | dsimp only
    | split
    | with_reducible apply Keeps.upd)

theorem State.release_keeps {m : Nat} {s0 s : State} (x : JournalRead) (h : Keeps m s0 s)
    (hm : 1073741821 &&& m = 1073741821 := by exact Mask.le (by assumption) rfl) :
    Keeps m s0 (State.release s x) := by
  unfold State.release
  try dsimp only
  repeat' (first
    | with_reducible assumption
    | with_reducible apply State.takeJournal_keeps (hm := Mask.le hm rfl)
    | with_reducible apply State.atStep_keeps (hm := Mask.le hm rfl)
    | with_reducible apply State.advance_keeps (hm := Mask.le hm rfl)
    | with_reducible apply State.releaseBlocks_keeps (hm := Mask.le hm rfl)
    | with_reducible apply State.startReplayCores_keeps (hm := Mask.le hm rfl)
    | with_reducible apply State.setFld_keeps (hm := Mask.le hm rfl)
    | with_reducible apply State.distrust_keeps (hm := Mask.le hm rfl)
    | (intro x; intros; try dsimp only)
    | dsimp only
    | split)

theorem State.replayEnd_keeps {m : Nat} {s0 s : State} (readable : Bool) (t : Nat) (h : Keeps m s0 s)
    (hm : 1073741821 &&& m = 1073741821 := by exact Mask.le (by assumption) rfl) :
    Keeps m s0 (State.replayEnd s readable t) := by
  unfold State.replayEnd
  try dsimp only
  repeat' (first
    | with_reducible assumption
    | with_reducible apply State.advance_keeps (hm := Mask.le hm rfl)
    | with_reducible apply State.releaseBlocks_keeps (hm := Mask.le hm rfl)
    | with_reducible apply State.endReplayCores_keeps (hm := Mask.le hm rfl)
    | with_reducible apply State.replay_keeps (hm := Mask.le hm rfl)
    | with_reducible apply State.distrust_keeps (hm := Mask.le hm rfl)
    | with_reducible apply State.setFld_keeps (hm := Mask.le hm rfl)
    | with_reducible apply State.fault_keeps (hm := Mask.le hm rfl)
    | exact fun (hb : Nat.testBit _ _ = _) => (Mask.off hm hb rfl).elim
    | with_reducible exact fun _ => rfl
    | (intro x; intros; try dsimp only)
    | dsimp only
    | split
    | with_reducible apply Keeps.upd)

theorem State.quarantineOver_keeps {m : Nat} {s0 s : State}  (h : Keeps m s0 s)
    (hm : 73869 &&& m = 73869 := by exact Mask.le (by assumption) rfl) :
    Keeps m s0 (State.quarantineOver s) := by
  unfold State.quarantineOver
  try dsimp only
  repeat' (first
    | with_reducible assumption
    | with_reducible apply State.advance_keeps (hm := Mask.le hm rfl)
    | exact fun (hb : Nat.testBit _ _ = _) => (Mask.off hm hb rfl).elim
    | with_reducible exact fun _ => rfl
    | (intro x; intros; try dsimp only)
    | dsimp only
    | split
    | with_reducible apply Keeps.upd)

end Sys2Proof.Machine
end

