-- ==== Sys2Proof/Laws/KeepExec.lean ====
section
/-!
SUPPORT. What the events that commands name keep.
-/
set_option Elab.async false
set_option linter.unusedTactic false
set_option linter.unreachableTactic false
set_option linter.unusedVariables false
namespace Sys2Proof.Machine

theorem State.dispatchIf_keeps {m : Nat} {s0 s : State} (r : HandleRef) (test : Descriptor → Bool) (h : Keeps m s0 s)
    (hm : 247447484 &&& m = 247447484 := by exact Mask.le (by assumption) rfl) :
    Keeps m s0 (State.dispatchIf s r test) := by
  unfold State.dispatchIf
  try dsimp only
  repeat' (first
    | with_reducible assumption
    | with_reducible apply State.dispatch_keeps (hm := Mask.le hm rfl)
    | (intro x; intros; try dsimp only)
    | dsimp only
    | split)

theorem State.ifRuns_keeps {m : Nat} {s0 s : State} (f : State → State) (hf : ∀ x, Keeps m s0 x → Keeps m s0 (f x)) (h : Keeps m s0 s)
    (hm : 0 &&& m = 0 := by exact Mask.le (by assumption) rfl) :
    Keeps m s0 (State.ifRuns s f) := by
  unfold State.ifRuns
  try dsimp only
  repeat' (first
    | with_reducible assumption
    | with_reducible apply hf
    | (intro x; intros; try dsimp only)
    | dsimp only
    | split)

theorem State.due_keeps {m : Nat} {s0 s : State} (t : Nat) (f : State → State) (hf : ∀ x, Keeps m s0 x → Keeps m s0 (f x)) (h : Keeps m s0 s)
    (hm : 65677 &&& m = 65677 := by exact Mask.le (by assumption) rfl) :
    Keeps m s0 (State.due s t f) := by
  unfold State.due
  try dsimp only
  repeat' (first
    | with_reducible assumption
    | with_reducible apply State.advance_keeps (hm := Mask.le hm rfl)
    | with_reducible apply hf
    | (intro x; intros; try dsimp only)
    | dsimp only
    | split)

theorem State.applyPending_keeps {m : Nat} {s0 s : State} (e : Nat) (h : Keeps m s0 s)
    (hm : 91140 &&& m = 91140 := by exact Mask.le (by assumption) rfl) :
    Keeps m s0 (State.applyPending s e) := by
  unfold State.applyPending
  try dsimp only
  repeat' (first
    | with_reducible assumption
    | with_reducible apply State.applyCommit_keeps (hm := Mask.le hm rfl)
    | (intro x; intros; try dsimp only)
    | dsimp only
    | split)

theorem State.pinLimitEnd_keeps {m : Nat} {s0 s : State} (r : OpRef) (h : Keeps m s0 s)
    (hm : 1160365 &&& m = 1160365 := by exact Mask.le (by assumption) rfl) :
    Keeps m s0 (State.pinLimitEnd s r) := by
  unfold State.pinLimitEnd
  try dsimp only
  repeat' (first
    | with_reducible assumption
    | with_reducible apply State.due_keeps (hm := Mask.le hm rfl)
    | with_reducible apply State.pinExpire_keeps (hm := Mask.le hm rfl)
    | (intro x; intros; try dsimp only)
    | dsimp only
    | split)

theorem State.fmemAccess_keeps {m : Nat} {s0 s : State} (p : Nat) (addr : Nat) (op : MemOp) (h : Keeps m s0 s)
    (hm : 68264076 &&& m = 68264076 := by exact Mask.le (by assumption) rfl) :
    Keeps m s0 (State.fmemAccess s p addr op) := by
  unfold State.fmemAccess
  try dsimp only
  repeat' (first
    | with_reducible assumption
    | with_reducible apply State.emit_keeps (hm := Mask.le hm rfl)
    | with_reducible apply State.faultBy_keeps (hm := Mask.le hm rfl)
    | with_reducible apply State.pmcEv_keeps (hm := Mask.le hm rfl)
    | with_reducible apply State.rxBytes_keeps (hm := Mask.le hm rfl)
    | with_reducible apply State.fmemStore_keeps (hm := Mask.le hm rfl)
    | (intro x; intros; try dsimp only)
    | dsimp only
    | split)

theorem State.arrive_keeps {m : Nat} {s0 s : State} (p : Packet) (test : Bool) (f : State → State) (hf : ∀ x, Keeps m s0 x → Keeps m s0 (f x)) (h : Keeps m s0 s)
    (hm : 1155228 &&& m = 1155228 := by exact Mask.le (by assumption) rfl) :
    Keeps m s0 (State.arrive s p test f) := by
  unfold State.arrive
  try dsimp only
  repeat' (first
    | with_reducible assumption
    | with_reducible apply State.takeDelivered_keeps (hm := Mask.le hm rfl)
    | with_reducible apply State.endDelivered_keeps (hm := Mask.le hm rfl)
    | with_reducible apply State.fault_keeps (hm := Mask.le hm rfl)
    | with_reducible apply hf
    | (intro x; intros; try dsimp only)
    | dsimp only
    | split)

theorem State.sendRelease_keeps {m : Nat} {s0 s : State} (r : HandleRef) (h : Keeps m s0 s)
    (hm : 247447484 &&& m = 247447484 := by exact Mask.le (by assumption) rfl) :
    Keeps m s0 (State.sendRelease s r) := by
  unfold State.sendRelease
  try dsimp only
  repeat' (first
    | with_reducible assumption
    | with_reducible apply State.dispatch_keeps (hm := Mask.le hm rfl)
    | (intro x; intros; try dsimp only)
    | dsimp only
    | split)

theorem State.ifFirmware_keeps {m : Nat} {s0 s : State} (f : State → State) (hf : ∀ x, Keeps m s0 x → Keeps m s0 (f x)) (h : Keeps m s0 s)
    (hm : 0 &&& m = 0 := by exact Mask.le (by assumption) rfl) :
    Keeps m s0 (State.ifFirmware s f) := by
  unfold State.ifFirmware
  try dsimp only
  repeat' (first
    | with_reducible assumption
    | with_reducible apply State.ifRuns_keeps (hm := Mask.le hm rfl)
    | with_reducible apply hf
    | (intro x; intros; try dsimp only)
    | dsimp only
    | split)

theorem State.busyEnd_keeps {m : Nat} {s0 s : State} (r : HandleRef) (h : Keeps m s0 s)
    (hm : 10696605 &&& m = 10696605 := by exact Mask.le (by assumption) rfl) :
    Keeps m s0 (State.busyEnd s r) := by
  unfold State.busyEnd
  try dsimp only
  repeat' (first
    | with_reducible assumption
    | with_reducible apply State.due_keeps (hm := Mask.le hm rfl)
    | with_reducible apply State.resendOp_keeps (hm := Mask.le hm rfl)
    | (intro x; intros; try dsimp only)
    | dsimp only
    | split)

theorem State.pullLimit_keeps {m : Nat} {s0 s : State} (r : HandleRef) (h : Keeps m s0 s)
    (hm : 211853 &&& m = 211853 := by exact Mask.le (by assumption) rfl) :
    Keeps m s0 (State.pullLimit s r) := by
  unfold State.pullLimit
  try dsimp only
  repeat' (first
    | with_reducible assumption
    | with_reducible apply State.due_keeps (hm := Mask.le hm rfl)
    | with_reducible apply State.pullLost_keeps (hm := Mask.le hm rfl)
    | (intro x; intros; try dsimp only)
    | dsimp only
    | split)

theorem State.resendEnd_keeps {m : Nat} {s0 s : State} (a : ResendRef) (h : Keeps m s0 s)
    (hm : 10698653 &&& m = 10698653 := by exact Mask.le (by assumption) rfl) :
    Keeps m s0 (State.resendEnd s a) := by
  unfold State.resendEnd
  try dsimp only
  repeat' (first
    | with_reducible assumption
    | with_reducible apply State.due_keeps (hm := Mask.le hm rfl)
    | with_reducible apply State.resendOp_keeps (hm := Mask.le hm rfl)
    | with_reducible apply State.resendLost_keeps (hm := Mask.le hm rfl)
    | with_reducible apply State.resendPull_keeps (hm := Mask.le hm rfl)
    | (intro x; intros; try dsimp only)
    | dsimp only
    | split)

theorem State.timeoutEnd_keeps {m : Nat} {s0 s : State} (r : HandleRef) (h : Keeps m s0 s)
    (hm : 44252093 &&& m = 44252093 := by exact Mask.le (by assumption) rfl) :
    Keeps m s0 (State.timeoutEnd s r) := by
  unfold State.timeoutEnd
  try dsimp only
  repeat' (first
    | with_reducible assumption
    | with_reducible apply State.due_keeps (hm := Mask.le hm rfl)
    | with_reducible apply State.timeoutRma_keeps (hm := Mask.le hm rfl)
    | with_reducible apply State.timeoutSend_keeps (hm := Mask.le hm rfl)
    | with_reducible apply State.sendLost_keeps (hm := Mask.le hm rfl)
    | with_reducible apply State.timeoutColl_keeps (hm := Mask.le hm rfl)
    | (intro x; intros; try dsimp only)
    | dsimp only
    | split)

theorem State.rereqEnd_keeps {m : Nat} {s0 s : State} (r : HandleRef) (t : Nat) (g : Nat) (h : Keeps m s0 s)
    (hm : 44105885 &&& m = 44105885 := by exact Mask.le (by assumption) rfl) :
    Keeps m s0 (State.rereqEnd s r t g) := by
  unfold State.rereqEnd
  try dsimp only
  repeat' (first
    | with_reducible assumption
    | with_reducible apply State.due_keeps (hm := Mask.le hm rfl)
    | with_reducible apply State.rerequest_keeps (hm := Mask.le hm rfl)
    | (intro x; intros; try dsimp only)
    | dsimp only
    | split)

theorem State.trainEnd_keeps {m : Nat} {s0 s : State} (l : Nat) (h : Keeps m s0 s)
    (hm : 5349549 &&& m = 5349549 := by exact Mask.le (by assumption) rfl) :
    Keeps m s0 (State.trainEnd s l) := by
  unfold State.trainEnd
  try dsimp only
  repeat' (first
    | with_reducible assumption
    | with_reducible apply State.due_keeps (hm := Mask.le hm rfl)
    | with_reducible apply State.trainLimit_keeps (hm := Mask.le hm rfl)
    | (intro x; intros; try dsimp only)
    | dsimp only
    | split)

theorem State.alignEnd_keeps {m : Nat} {s0 s : State} (p : Nat) (h : Keeps m s0 s)
    (hm : 5349549 &&& m = 5349549 := by exact Mask.le (by assumption) rfl) :
    Keeps m s0 (State.alignEnd s p) := by
  unfold State.alignEnd
  try dsimp only
  repeat' (first
    | with_reducible assumption
    | with_reducible apply State.due_keeps (hm := Mask.le hm rfl)
    | with_reducible apply State.alignLimit_keeps (hm := Mask.le hm rfl)
    | with_reducible apply Keeps.foldl
    | with_reducible apply Keeps.foldlSnd
    | with_reducible apply Keeps.foldlFst
    | (intro x; intros; try dsimp only)
    | dsimp only
    | split)

theorem State.ctlFlit_keeps {m : Nat} {s0 s : State} (p : Nat) (t : Nat) (f : Flit) (act : State → State) (hact : ∀ x, Keeps m s0 x → Keeps m s0 (act x)) (h : Keeps m s0 s)
    (hm : 0 &&& m = 0 := by exact Mask.le (by assumption) rfl) :
    Keeps m s0 (State.ctlFlit s p t f act) := by
  unfold State.ctlFlit
  try dsimp only
  repeat' (first
    | with_reducible assumption
    | with_reducible apply State.ifRuns_keeps (hm := Mask.le hm rfl)
    | with_reducible apply hact
    | (intro x; intros; try dsimp only)
    | dsimp only
    | split)

theorem State.admitFlit_keeps {m : Nat} {s0 s : State} (p : Nat) (step : Nat) (f : Flit) (act : State → State) (hact : ∀ x, Keeps m s0 x → Keeps m s0 (act x)) (h : Keeps m s0 s)
    (hm : 0 &&& m = 0 := by exact Mask.le (by assumption) rfl) :
    Keeps m s0 (State.admitFlit s p step f act) := by
  unfold State.admitFlit
  try dsimp only
  repeat' (first
    | with_reducible assumption
    | with_reducible apply State.ctlFlit_keeps (hm := Mask.le hm rfl)
    | with_reducible apply hact
    | (intro x; intros; try dsimp only)
    | dsimp only
    | split)

theorem State.ifCore_keeps {m : Nat} {s0 s : State} (c : Nat) (f : State → State) (hf : ∀ x, Keeps m s0 x → Keeps m s0 (f x)) (h : Keeps m s0 s)
    (hm : 0 &&& m = 0 := by exact Mask.le (by assumption) rfl) :
    Keeps m s0 (State.ifCore s c f) := by
  unfold State.ifCore
  try dsimp only
  repeat' (first
    | with_reducible assumption
    | with_reducible apply State.ifRuns_keeps (hm := Mask.le hm rfl)
    | with_reducible apply hf
    | (intro x; intros; try dsimp only)
    | dsimp only
    | split)

theorem State.hxcmd_keeps {m : Nat} {s0 s : State} (c : Nat) (f : State → State) (hf : ∀ x, Keeps m s0 x → Keeps m s0 (f x)) (h : Keeps m s0 s)
    (hm : 1810828 &&& m = 1810828 := by exact Mask.le (by assumption) rfl) :
    Keeps m s0 (State.hxcmd s c f) := by
  unfold State.hxcmd
  try dsimp only
  repeat' (first
    | with_reducible assumption
    | with_reducible apply State.ifCore_keeps (hm := Mask.le hm rfl)
    | with_reducible apply State.coreFault_keeps (hm := Mask.le hm rfl)
    | with_reducible apply hf
    | (intro x; intros; try dsimp only)
    | dsimp only
    | split)

theorem State.portA_keeps {m : Nat} {s0 s : State} (a : PortAUse) (h : Keeps m s0 s)
    (hm : 134545408 &&& m = 134545408 := by exact Mask.le (by assumption) rfl) :
    Keeps m s0 (State.portA s a) := by
  unfold State.portA
  try dsimp only
  repeat' (first
    | with_reducible assumption
    | with_reducible apply State.pmcEv_keeps (hm := Mask.le hm rfl)
    | with_reducible apply State.spdStore_keeps (hm := Mask.le hm rfl)
    | (intro x; intros; try dsimp only)
    | dsimp only
    | split)

theorem State.collide_keeps {m : Nat} {s0 s : State} (ws : List Nat) (kind : Nat) (h : Keeps m s0 s)
    (hm : 1155212 &&& m = 1155212 := by exact Mask.le (by assumption) rfl) :
    Keeps m s0 (State.collide s ws kind) := by
  unfold State.collide
  try dsimp only
  repeat' (first
    | with_reducible assumption
    | with_reducible apply State.spdCollision_keeps (hm := Mask.le hm rfl)
    | with_reducible apply Keeps.foldl
    | with_reducible apply Keeps.foldlSnd
    | with_reducible apply Keeps.foldlFst
    | (intro x; intros; try dsimp only)
    | dsimp only
    | split)

theorem State.clashBytes_keeps {m : Nat} {s0 s : State} (addr : Nat) (n : Nat) (ws : List Nat) (h : Keeps m s0 s)
    (hm : 32 &&& m = 32 := by exact Mask.le (by assumption) rfl) :
    Keeps m s0 (State.clashBytes s addr n ws).2 := by
  unfold State.clashBytes
  try dsimp only
  repeat' (first
    | with_reducible assumption
    | with_reducible apply State.fresh_keeps (hm := Mask.le hm rfl)
    | with_reducible apply Keeps.foldl
    | with_reducible apply Keeps.foldlSnd
    | with_reducible apply Keeps.foldlFst
    | (intro x; intros; try dsimp only)
    | dsimp only
    | split
    | refine Keeps.snd (by assumption) ?_)

theorem State.spdRead_keeps {m : Nat} {s0 s : State} (p : Nat) (addr : Nat) (n : Nat) (as : List PortAUse) (h : Keeps m s0 s)
    (hm : 135635116 &&& m = 135635116 := by exact Mask.le (by assumption) rfl) :
    Keeps m s0 (State.spdRead s p addr n as) := by
  unfold State.spdRead
  try dsimp only
  repeat' (first
    | with_reducible assumption
    | with_reducible apply State.pmcEv_keeps (hm := Mask.le hm rfl)
    | with_reducible apply State.emit_keeps (hm := Mask.le hm rfl)
    | with_reducible apply State.spdBusyHost_keeps (hm := Mask.le hm rfl)
    | with_reducible apply State.spdTouch_keeps (hm := Mask.le hm rfl)
    | with_reducible apply State.clashBytes_keeps (hm := Mask.le hm rfl)
    | with_reducible apply State.collide_keeps (hm := Mask.le hm rfl)
    | with_reducible apply State.portA_keeps (hm := Mask.le hm rfl)
    | with_reducible apply Keeps.foldl
    | with_reducible apply Keeps.foldlSnd
    | with_reducible apply Keeps.foldlFst
    | (intro x; intros; try dsimp only)
    | dsimp only
    | split
    | refine Keeps.snd (by assumption) ?_)

theorem State.spdWrite_keeps {m : Nat} {s0 s : State} (p : Nat) (addr : Nat) (bs : List Byte) (as : List PortAUse) (h : Keeps m s0 s)
    (hm : 135635084 &&& m = 135635084 := by exact Mask.le (by assumption) rfl) :
    Keeps m s0 (State.spdWrite s p addr bs as) := by
  unfold State.spdWrite
  try dsimp only
  repeat' (first
    | with_reducible assumption
    | with_reducible apply State.pmcEv_keeps (hm := Mask.le hm rfl)
    | with_reducible apply State.spdBusyHost_keeps (hm := Mask.le hm rfl)
    | with_reducible apply State.spdTouch_keeps (hm := Mask.le hm rfl)
    | with_reducible apply State.portA_keeps (hm := Mask.le hm rfl)
    | with_reducible apply State.spdStore_keeps (hm := Mask.le hm rfl)
    | with_reducible apply State.collide_keeps (hm := Mask.le hm rfl)
    | with_reducible apply Keeps.foldl
    | with_reducible apply Keeps.foldlSnd
    | with_reducible apply Keeps.foldlFst
    | (intro x; intros; try dsimp only)
    | dsimp only
    | split)

theorem State.spdAccess_keeps {m : Nat} {s0 s : State} (p : Nat) (addr : Nat) (op : MemOp) (a : List PortAUse) (h : Keeps m s0 s)
    (hm : 135635116 &&& m = 135635116 := by exact Mask.le (by assumption) rfl) :
    Keeps m s0 (State.spdAccess s p addr op a) := by
  unfold State.spdAccess
  try dsimp only
  repeat' (first
    | with_reducible assumption
    | with_reducible apply State.emit_keeps (hm := Mask.le hm rfl)
    | with_reducible apply State.spdRead_keeps (hm := Mask.le hm rfl)
    | with_reducible apply State.rxBytes_keeps (hm := Mask.le hm rfl)
    | with_reducible apply State.spdWrite_keeps (hm := Mask.le hm rfl)
    | (intro x; intros; try dsimp only)
    | dsimp only
    | split)

theorem State.spdAgain_keeps {m : Nat} {s0 s : State} (off : Nat) (h : Keeps m s0 s)
    (hm : 65677 &&& m = 65677 := by exact Mask.le (by assumption) rfl) :
    Keeps m s0 (State.spdAgain s off) := by
  unfold State.spdAgain
  try dsimp only
  repeat' (first
    | with_reducible assumption
    | with_reducible apply State.pmcEv_keeps (hm := Mask.le hm rfl)
    | with_reducible apply State.advance_keeps (hm := Mask.le hm rfl)
    | (intro x; intros; try dsimp only)
    | dsimp only
    | split)

theorem State.windowLimit_keeps {m : Nat} {s0 s : State} (blk : Nat) (n : Nat) (h : Keeps m s0 s)
    (hm : 98445 &&& m = 98445 := by exact Mask.le (by assumption) rfl) :
    Keeps m s0 (State.windowLimit s blk n) := by
  unfold State.windowLimit
  try dsimp only
  repeat' (first
    | with_reducible assumption
    | with_reducible apply State.due_keeps (hm := Mask.le hm rfl)
    | with_reducible apply State.windowEnd_keeps (hm := Mask.le hm rfl)
    | (intro x; intros; try dsimp only)
    | dsimp only
    | split)

theorem State.escLimit_keeps {m : Nat} {s0 s : State} (blk : Nat) (h : Keeps m s0 s)
    (hm : 50307517 &&& m = 50307517 := by exact Mask.le (by assumption) rfl) :
    Keeps m s0 (State.escLimit s blk) := by
  unfold State.escLimit
  try dsimp only
  repeat' (first
    | with_reducible assumption
    | with_reducible apply State.due_keeps (hm := Mask.le hm rfl)
    | with_reducible apply State.escExpire_keeps (hm := Mask.le hm rfl)
    | (intro x; intros; try dsimp only)
    | dsimp only
    | split)

theorem State.injectLimit_keeps {m : Nat} {s0 s : State} (blk : Nat) (h : Keeps m s0 s)
    (hm : 1155213 &&& m = 1155213 := by exact Mask.le (by assumption) rfl) :
    Keeps m s0 (State.injectLimit s blk) := by
  unfold State.injectLimit
  try dsimp only
  repeat' (first
    | with_reducible assumption
    | with_reducible apply State.due_keeps (hm := Mask.le hm rfl)
    | with_reducible apply State.injectTick_keeps (hm := Mask.le hm rfl)
    | (intro x; intros; try dsimp only)
    | dsimp only
    | split)

theorem State.rateTick_keeps {m : Nat} {s0 s : State} (rate : Nat) (h : Keeps m s0 s)
    (hm : 73869 &&& m = 73869 := by exact Mask.le (by assumption) rfl) :
    Keeps m s0 (State.rateTick s rate) := by
  unfold State.rateTick
  try dsimp only
  repeat' (first
    | with_reducible assumption
    | with_reducible apply State.advance_keeps (hm := Mask.le hm rfl)
    | exact fun (hb : Nat.testBit _ _ = _) => (Mask.off hm hb rfl).elim
    | with_reducible exact fun _ => rfl
    | (intro x; intros; try dsimp only)
    | dsimp only
    | split
    | with_reducible apply Keeps.upd)

theorem State.setMb_keeps {m : Nat} {s0 s : State} (v : Mailbox) (h : Keeps m s0 s)
    (hm : 1048576 &&& m = 1048576 := by exact Mask.le (by assumption) rfl) :
    Keeps m s0 (State.setMb s v) := by
  unfold State.setMb
  try dsimp only
  repeat' (first
    | with_reducible assumption
    | exact fun (hb : Nat.testBit _ _ = _) => (Mask.off hm hb rfl).elim
    | with_reducible exact fun _ => rfl
    | (intro x; intros; try dsimp only)
    | dsimp only
    | split
    | with_reducible apply Keeps.upd)

theorem State.mbStart_keeps {m : Nat} {s0 s : State} (addr : Word) (data : Word) (ctl : Word) (h : Keeps m s0 s)
    (hm : 1073741821 &&& m = 1073741821 := by exact Mask.le (by assumption) rfl) :
    Keeps m s0 (State.mbStart s addr data ctl) := by
  unfold State.mbStart
  try dsimp only
  repeat' (first
    | with_reducible assumption
    | with_reducible apply State.setMb_keeps (hm := Mask.le hm rfl)
    | with_reducible apply State.regAccess_keeps (hm := Mask.le hm rfl)
    | (intro x; intros; try dsimp only)
    | dsimp only
    | split)

theorem State.mbEnd_keeps {m : Nat} {s0 s : State} (data : Word) (result : Nat) (h : Keeps m s0 s)
    (hm : 1114120 &&& m = 1114120 := by exact Mask.le (by assumption) rfl) :
    Keeps m s0 (State.mbEnd s data result) := by
  unfold State.mbEnd
  try dsimp only
  repeat' (first
    | with_reducible assumption
    | with_reducible apply State.setMb_keeps (hm := Mask.le hm rfl)
    | with_reducible apply State.ibi_keeps (hm := Mask.le hm rfl)
    | (intro x; intros; try dsimp only)
    | dsimp only
    | split)

theorem State.mbDone_keeps {m : Nat} {s0 s : State}  (h : Keeps m s0 s)
    (hm : 1114120 &&& m = 1114120 := by exact Mask.le (by assumption) rfl) :
    Keeps m s0 (State.mbDone s) := by
  unfold State.mbDone
  try dsimp only
  repeat' (first
    | with_reducible assumption
    | with_reducible apply State.mbEnd_keeps (hm := Mask.le hm rfl)
    | (intro x; intros; try dsimp only)
    | dsimp only
    | split)

theorem State.mbLimit_keeps {m : Nat} {s0 s : State}  (h : Keeps m s0 s)
    (hm : 1114253 &&& m = 1114253 := by exact Mask.le (by assumption) rfl) :
    Keeps m s0 (State.mbLimit s) := by
  unfold State.mbLimit
  try dsimp only
  repeat' (first
    | with_reducible assumption
    | with_reducible apply State.due_keeps (hm := Mask.le hm rfl)
    | with_reducible apply State.mbEnd_keeps (hm := Mask.le hm rfl)
    | (intro x; intros; try dsimp only)
    | dsimp only
    | split)

theorem State.setJtag_keeps {m : Nat} {s0 s : State} (v : Jtag) (h : Keeps m s0 s)
    (hm : 1048576 &&& m = 1048576 := by exact Mask.le (by assumption) rfl) :
    Keeps m s0 (State.setJtag s v) := by
  unfold State.setJtag
  try dsimp only
  repeat' (first
    | with_reducible assumption
    | exact fun (hb : Nat.testBit _ _ = _) => (Mask.off hm hb rfl).elim
    | with_reducible exact fun _ => rfl
    | (intro x; intros; try dsimp only)
    | dsimp only
    | split
    | with_reducible apply Keeps.upd)

theorem State.regacc_keeps {m : Nat} {s0 s : State} (dr : BitVec 96) (h : Keeps m s0 s)
    (hm : 1073741821 &&& m = 1073741821 := by exact Mask.le (by assumption) rfl) :
    Keeps m s0 (State.regacc s dr) := by
  unfold State.regacc
  try dsimp only
  repeat' (first
    | with_reducible assumption
    | with_reducible apply State.emit_keeps (hm := Mask.le hm rfl)
    | with_reducible apply State.setJtag_keeps (hm := Mask.le hm rfl)
    | with_reducible apply State.regAccess_keeps (hm := Mask.le hm rfl)
    | (intro x; intros; try dsimp only)
    | dsimp only
    | split)

end Sys2Proof.Machine
end

