-- ==== Sys2Proof/Laws/RegMap.lean ====
section
/-!
SUPPORT. Laws of the register map: where the elements of a register lie, and when two registers share no offset.
-/
set_option Elab.async false
namespace Sys2Proof.Machine

/-- The bytes from the first to the last element of the second index. -/
def Shape.width (h : Shape) : Nat := (h.n2 - 1) * h.s2 + 8

/-- The bytes from the first element to the last. -/
def Shape.extent (h : Shape) : Nat := (h.n1 - 1) * h.s1 + h.width

/-- Elements do not overlap: each index steps past what lies under it. -/
def Shape.good (h : Shape) : Bool :=
  0 < h.n1 && 0 < h.n2 && (h.n1 == 1 || h.width ≤ h.s1) && (h.n2 == 1 || 8 ≤ h.s2) && (h.n2 != 1 || h.s2 == 0)

/-- Two shapes lie apart: one ends before the other begins, or both repeat with one stride and share no part of it, or their
bases differ modulo a step that divides every stride. -/
def Shape.apart (g h : Shape) : Bool :=
  g.base + g.extent ≤ h.base || h.base + h.extent ≤ g.base ||
  (g.s1 == h.s1 && 0 < g.s1 && 1 < g.n1 && 1 < h.n1 &&
    ((g.base + g.width ≤ h.base && h.base + h.width ≤ g.base + g.s1) ||
     (h.base + h.width ≤ g.base && g.base + g.width ≤ h.base + g.s1))) ||
  (g.s2 == h.s2 && g.s1 % g.s2 == 0 && h.s1 % g.s2 == 0 && g.base % g.s2 != h.base % g.s2)

/-- The offset of an element within its register. -/
theorem RegRef.off_bounds {r : RegRef} (hg : r.reg.shape.good = true) (hr : r.inShape = true) :
    r.reg.shape.base + r.i * r.reg.shape.s1 ≤ r.off ∧ r.off + 8 ≤ r.reg.shape.base + r.i * r.reg.shape.s1 + r.reg.shape.width ∧
    r.off + 8 ≤ r.reg.shape.base + r.reg.shape.extent := by
  simp only [RegRef.inShape, Bool.and_eq_true, decide_eq_true_eq] at hr
  simp only [Shape.good, Bool.and_eq_true, decide_eq_true_eq, Bool.or_eq_true, beq_iff_eq] at hg
  unfold RegRef.off Shape.extent Shape.width
  generalize r.reg.shape = h at *
  have h1 : (r.k - h.k0) * h.s2 ≤ (h.n2 - 1) * h.s2 := Nat.mul_le_mul_right _ (by omega)
  have h2 : r.i * h.s1 ≤ (h.n1 - 1) * h.s1 := Nat.mul_le_mul_right _ (by omega)
  omega

/-- The element at an element's own offset. -/
theorem Reg.elemAt_self {r : RegRef} (hg : r.reg.shape.good = true) (hr : r.inShape = true) :
    r.reg.elemAt r.off = some r := by
  obtain ⟨b1, b2, b3⟩ := RegRef.off_bounds hg hr
  simp only [RegRef.inShape, Bool.and_eq_true, decide_eq_true_eq] at hr
  simp only [Shape.good, Bool.and_eq_true, decide_eq_true_eq, Bool.or_eq_true, beq_iff_eq, bne_iff_ne, ne_eq] at hg
  obtain ⟨g, i, k⟩ := r
  unfold Reg.elemAt
  dsimp only at *
  have hb : ¬ (RegRef.mk g i k).off < g.shape.base := by omega
  rw [if_neg hb]
  unfold RegRef.off at *
  unfold Shape.width at *
  dsimp only at *
  generalize g.shape = h at *
  have hi : (if h.n1 = 1 then 0 else (h.base + i * h.s1 + (k - h.k0) * h.s2 - h.base) / h.s1) = i := by
    split
    · omega
    · have e : h.base + i * h.s1 + (k - h.k0) * h.s2 - h.base = (k - h.k0) * h.s2 + h.s1 * i := by
        rw [Nat.mul_comm h.s1 i]; omega
      have hs : (k - h.k0) * h.s2 < h.s1 := by
        have := Nat.mul_le_mul_right h.s2 (show k - h.k0 ≤ h.n2 - 1 by omega)
        omega
      rw [e, Nat.add_mul_div_left _ _ (by omega), Nat.div_eq_of_lt hs]; omega
  rw [hi]
  have he : h.base + i * h.s1 + (k - h.k0) * h.s2 - h.base - i * h.s1 = (k - h.k0) * h.s2 := by omega
  rw [he]
  have hk : (if h.n2 = 1 then 0 else (k - h.k0) * h.s2 / h.s2) = k - h.k0 := by
    split
    · omega
    · exact Nat.mul_div_cancel _ (by omega)
  rw [hk]
  have c : (decide (i < h.n1) && decide (k - h.k0 < h.n2) && (k - h.k0) * h.s2 == (k - h.k0) * h.s2) = true := by
    simp; omega
  rw [if_pos c]
  congr 2
  omega

/-- No element of a register lies at an element of one that lies apart. -/
theorem Reg.elemAt_apart {g : Reg} {r : RegRef} (hg : g.shape.good = true) (hh : r.reg.shape.good = true)
    (hr : r.inShape = true) (ha : Shape.apart g.shape r.reg.shape = true) : g.elemAt r.off = none := by
  have ho : ∃ x, r.off = r.reg.shape.base + r.i * r.reg.shape.s1 + x * r.reg.shape.s2 := ⟨_, rfl⟩
  obtain ⟨b1, b2, b3⟩ := RegRef.off_bounds hh hr
  have hi : r.i < r.reg.shape.n1 := by
    simp only [RegRef.inShape, Bool.and_eq_true, decide_eq_true_eq] at hr
    exact hr.1.1
  generalize r.off = o at *
  unfold Reg.elemAt
  dsimp only
  split
  · rfl
  next hb =>
  generalize hj : (if g.shape.n1 = 1 then 0 else (o - g.shape.base) / g.shape.s1) = j
  generalize hk : (if g.shape.n2 = 1 then 0 else (o - g.shape.base - j * g.shape.s1) / g.shape.s2) = k
  split
  · next hc =>
    exfalso
    simp only [Bool.and_eq_true, decide_eq_true_eq, beq_iff_eq] at hc
    obtain ⟨⟨hj1, hk1⟩, he⟩ := hc
    simp only [Shape.good, Bool.and_eq_true, decide_eq_true_eq, Bool.or_eq_true, beq_iff_eq, bne_iff_ne, ne_eq] at hg
    simp only [Shape.apart, Bool.and_eq_true, decide_eq_true_eq, Bool.or_eq_true, beq_iff_eq] at ha
    unfold Shape.extent Shape.width at *
    generalize g.shape = a at *
    generalize r.reg.shape = b at *
    have hks : k * a.s2 ≤ (a.n2 - 1) * a.s2 := Nat.mul_le_mul_right _ (by omega)
    have hjs : j * a.s1 ≤ (a.n1 - 1) * a.s1 := Nat.mul_le_mul_right _ (by omega)
    have hjo : j * a.s1 ≤ o - a.base := by
      rw [← hj]
      split
      · omega
      · exact Nat.div_mul_le_self _ _
    have hmul : ∀ x y s : Nat, x < y → (x + 1) * s ≤ y * s := fun x y s h => Nat.mul_le_mul_right s h
    rcases ha with ((ha | ha) | ha) | ha
    · omega
    · omega
    · obtain ⟨⟨⟨⟨hs, hs0⟩, _⟩, _⟩, hw⟩ := ha
      rw [← hs] at b1 b2
      rcases Nat.lt_trichotomy j r.i with hlt | heq | hgt
      · have := hmul _ _ a.s1 hlt
        rw [Nat.add_mul] at this
        omega
      · subst heq
        omega
      · have := hmul _ _ a.s1 hgt
        rw [Nat.add_mul] at this
        omega
    · obtain ⟨⟨⟨h2, d1⟩, d2⟩, hne⟩ := ha
      obtain ⟨x, ho⟩ := ho
      refine (bne_iff_ne.1 hne) ?_
      have e1 : o = a.base + (j * a.s1 + k * a.s2) := by omega
      have e2 : o = b.base + (r.i * b.s1 + x * a.s2) := by rw [ho, h2]; omega
      have z1 : (j * a.s1 + k * a.s2) % a.s2 = 0 := by
        rw [Nat.add_mod, Nat.mul_mod, d1]; simp
      have z2 : (r.i * b.s1 + x * a.s2) % a.s2 = 0 := by
        rw [Nat.add_mod, Nat.mul_mod, d2]; simp
      have m1 := congrArg (· % a.s2) e1
      have m2 := congrArg (· % a.s2) e2
      simp only [Nat.add_mod a.base, Nat.add_mod b.base, z1, z2, Nat.add_zero, Nat.mod_mod] at m1 m2
      omega
  · rfl

/-- A search through registers that lie apart finds the one that has the offset. -/
theorem Reg.findSome_off {l : List Reg} {r : RegRef} (hl : l.all (fun g => g.shape.good) = true)
    (hp : l.Pairwise fun g h => Shape.apart g.shape h.shape = true ∧ Shape.apart h.shape g.shape = true)
    (hm : r.reg ∈ l) (hr : r.inShape = true) : l.findSome? (fun g => g.elemAt r.off) = some r := by
  induction l with
  | nil => cases hm
  | cons g l ih =>
    rw [List.all_cons, Bool.and_eq_true] at hl
    rw [List.pairwise_cons] at hp
    rw [List.findSome?_cons]
    rcases List.mem_cons.1 hm with e | hm'
    · rw [← e] at hl ⊢
      rw [Reg.elemAt_self hl.1 hr]
    · have hgood : r.reg.shape.good = true := List.all_eq_true.1 hl.2 _ hm'
      rw [Reg.elemAt_apart hl.1 hgood hr (hp.1 _ hm').1]
      exact ih hl.2 hp.2 hm'

end Sys2Proof.Machine
end

