-- ==== Sys2Proof/Laws/State.lean ====
section
/-!
SUPPORT. What each update of the state leaves as it was: one lemma for each field of State, for each update that the blocks
share.
-/
set_option Elab.async false
namespace Sys2Proof.Machine

/-! ### setReg -/

@[simp] theorem State.setReg_pending (s : State) (r : RegRef) (w : Word) : (s.setReg r w).pending = s.pending := rfl
@[simp] theorem State.setReg_now (s : State) (r : RegRef) (w : Word) : (s.setReg r w).now = s.now := rfl
@[simp] theorem State.setReg_timAdj (s : State) (r : RegRef) (w : Word) : (s.setReg r w).timAdj = s.timAdj := rfl
@[simp] theorem State.setReg_out (s : State) (r : RegRef) (w : Word) : (s.setReg r w).out = s.out := rfl
@[simp] theorem State.setReg_delivered (s : State) (r : RegRef) (w : Word) : (s.setReg r w).delivered = s.delivered := rfl
@[simp] theorem State.setReg_free (s : State) (r : RegRef) (w : Word) : (s.setReg r w).free = s.free := rfl
@[simp] theorem State.setReg_waits (s : State) (r : RegRef) (w : Word) : (s.setReg r w).waits = s.waits := rfl
@[simp] theorem State.setReg_hif (s : State) (r : RegRef) (w : Word) : (s.setReg r w).hif = s.hif := rfl
@[simp] theorem State.setReg_ctxs (s : State) (r : RegRef) (w : Word) : (s.setReg r w).ctxs = s.ctxs := rfl
@[simp] theorem State.setReg_handles (s : State) (r : RegRef) (w : Word) : (s.setReg r w).handles = s.handles := rfl
@[simp] theorem State.setReg_xlt (s : State) (r : RegRef) (w : Word) : (s.setReg r w).xlt = s.xlt := rfl
@[simp] theorem State.setReg_mat (s : State) (r : RegRef) (w : Word) : (s.setReg r w).mat = s.mat := rfl
@[simp] theorem State.setReg_rma (s : State) (r : RegRef) (w : Word) : (s.setReg r w).rma = s.rma := rfl
@[simp] theorem State.setReg_rsv (s : State) (r : RegRef) (w : Word) : (s.setReg r w).rsv = s.rsv := rfl
@[simp] theorem State.setReg_log (s : State) (r : RegRef) (w : Word) : (s.setReg r w).log = s.log := rfl
@[simp] theorem State.setReg_flt (s : State) (r : RegRef) (w : Word) : (s.setReg r w).flt = s.flt := rfl
@[simp] theorem State.setReg_pmc (s : State) (r : RegRef) (w : Word) : (s.setReg r w).pmc = s.pmc := rfl
@[simp] theorem State.setReg_hdl (s : State) (r : RegRef) (w : Word) : (s.setReg r w).hdl = s.hdl := rfl
@[simp] theorem State.setReg_spd (s : State) (r : RegRef) (w : Word) : (s.setReg r w).spd = s.spd := rfl
@[simp] theorem State.setReg_sem (s : State) (r : RegRef) (w : Word) : (s.setReg r w).sem = s.sem := rfl
@[simp] theorem State.setReg_pwr (s : State) (r : RegRef) (w : Word) : (s.setReg r w).pwr = s.pwr := rfl
@[simp] theorem State.setReg_rte (s : State) (r : RegRef) (w : Word) : (s.setReg r w).rte = s.rte := rfl
@[simp] theorem State.setReg_lan (s : State) (r : RegRef) (w : Word) : (s.setReg r w).lan = s.lan := rfl
@[simp] theorem State.setReg_lnk (s : State) (r : RegRef) (w : Word) : (s.setReg r w).lnk = s.lnk := rfl
@[simp] theorem State.setReg_sec (s : State) (r : RegRef) (w : Word) : (s.setReg r w).sec = s.sec := rfl
@[simp] theorem State.setReg_csc (s : State) (r : RegRef) (w : Word) : (s.setReg r w).csc = s.csc := rfl
@[simp] theorem State.setReg_fmem (s : State) (r : RegRef) (w : Word) : (s.setReg r w).fmem = s.fmem := rfl
@[simp] theorem State.setReg_spdMem (s : State) (r : RegRef) (w : Word) : (s.setReg r w).spdMem = s.spdMem := rfl
@[simp] theorem State.setReg_hmem (s : State) (r : RegRef) (w : Word) : (s.setReg r w).hmem = s.hmem := rfl
@[simp] theorem State.setReg_flash (s : State) (r : RegRef) (w : Word) : (s.setReg r w).flash = s.flash := rfl

/-! ### setFld -/

@[simp] theorem State.setFld_pending (s : State) (f : Field) (i k v : Nat) : (s.setFld f i k v).pending = s.pending := rfl
@[simp] theorem State.setFld_now (s : State) (f : Field) (i k v : Nat) : (s.setFld f i k v).now = s.now := rfl
@[simp] theorem State.setFld_timAdj (s : State) (f : Field) (i k v : Nat) : (s.setFld f i k v).timAdj = s.timAdj := rfl
@[simp] theorem State.setFld_out (s : State) (f : Field) (i k v : Nat) : (s.setFld f i k v).out = s.out := rfl
@[simp] theorem State.setFld_delivered (s : State) (f : Field) (i k v : Nat) :
    (s.setFld f i k v).delivered = s.delivered := rfl
@[simp] theorem State.setFld_free (s : State) (f : Field) (i k v : Nat) : (s.setFld f i k v).free = s.free := rfl
@[simp] theorem State.setFld_waits (s : State) (f : Field) (i k v : Nat) : (s.setFld f i k v).waits = s.waits := rfl
@[simp] theorem State.setFld_hif (s : State) (f : Field) (i k v : Nat) : (s.setFld f i k v).hif = s.hif := rfl
@[simp] theorem State.setFld_ctxs (s : State) (f : Field) (i k v : Nat) : (s.setFld f i k v).ctxs = s.ctxs := rfl
@[simp] theorem State.setFld_handles (s : State) (f : Field) (i k v : Nat) : (s.setFld f i k v).handles = s.handles := rfl
@[simp] theorem State.setFld_xlt (s : State) (f : Field) (i k v : Nat) : (s.setFld f i k v).xlt = s.xlt := rfl
@[simp] theorem State.setFld_mat (s : State) (f : Field) (i k v : Nat) : (s.setFld f i k v).mat = s.mat := rfl
@[simp] theorem State.setFld_rma (s : State) (f : Field) (i k v : Nat) : (s.setFld f i k v).rma = s.rma := rfl
@[simp] theorem State.setFld_rsv (s : State) (f : Field) (i k v : Nat) : (s.setFld f i k v).rsv = s.rsv := rfl
@[simp] theorem State.setFld_log (s : State) (f : Field) (i k v : Nat) : (s.setFld f i k v).log = s.log := rfl
@[simp] theorem State.setFld_flt (s : State) (f : Field) (i k v : Nat) : (s.setFld f i k v).flt = s.flt := rfl
@[simp] theorem State.setFld_pmc (s : State) (f : Field) (i k v : Nat) : (s.setFld f i k v).pmc = s.pmc := rfl
@[simp] theorem State.setFld_hdl (s : State) (f : Field) (i k v : Nat) : (s.setFld f i k v).hdl = s.hdl := rfl
@[simp] theorem State.setFld_spd (s : State) (f : Field) (i k v : Nat) : (s.setFld f i k v).spd = s.spd := rfl
@[simp] theorem State.setFld_sem (s : State) (f : Field) (i k v : Nat) : (s.setFld f i k v).sem = s.sem := rfl
@[simp] theorem State.setFld_pwr (s : State) (f : Field) (i k v : Nat) : (s.setFld f i k v).pwr = s.pwr := rfl
@[simp] theorem State.setFld_rte (s : State) (f : Field) (i k v : Nat) : (s.setFld f i k v).rte = s.rte := rfl
@[simp] theorem State.setFld_lan (s : State) (f : Field) (i k v : Nat) : (s.setFld f i k v).lan = s.lan := rfl
@[simp] theorem State.setFld_lnk (s : State) (f : Field) (i k v : Nat) : (s.setFld f i k v).lnk = s.lnk := rfl
@[simp] theorem State.setFld_sec (s : State) (f : Field) (i k v : Nat) : (s.setFld f i k v).sec = s.sec := rfl
@[simp] theorem State.setFld_csc (s : State) (f : Field) (i k v : Nat) : (s.setFld f i k v).csc = s.csc := rfl
@[simp] theorem State.setFld_fmem (s : State) (f : Field) (i k v : Nat) : (s.setFld f i k v).fmem = s.fmem := rfl
@[simp] theorem State.setFld_spdMem (s : State) (f : Field) (i k v : Nat) : (s.setFld f i k v).spdMem = s.spdMem := rfl
@[simp] theorem State.setFld_hmem (s : State) (f : Field) (i k v : Nat) : (s.setFld f i k v).hmem = s.hmem := rfl
@[simp] theorem State.setFld_flash (s : State) (f : Field) (i k v : Nat) : (s.setFld f i k v).flash = s.flash := rfl

/-! ### setFlag -/

@[simp] theorem State.setFlag_pending (s : State) (f : Field) (i k : Nat) (b : Bool) :
    (s.setFlag f i k b).pending = s.pending := rfl
@[simp] theorem State.setFlag_now (s : State) (f : Field) (i k : Nat) (b : Bool) : (s.setFlag f i k b).now = s.now := rfl
@[simp] theorem State.setFlag_timAdj (s : State) (f : Field) (i k : Nat) (b : Bool) :
    (s.setFlag f i k b).timAdj = s.timAdj := rfl
@[simp] theorem State.setFlag_out (s : State) (f : Field) (i k : Nat) (b : Bool) : (s.setFlag f i k b).out = s.out := rfl
@[simp] theorem State.setFlag_delivered (s : State) (f : Field) (i k : Nat) (b : Bool) :
    (s.setFlag f i k b).delivered = s.delivered := rfl
@[simp] theorem State.setFlag_free (s : State) (f : Field) (i k : Nat) (b : Bool) : (s.setFlag f i k b).free = s.free := rfl
@[simp] theorem State.setFlag_waits (s : State) (f : Field) (i k : Nat) (b : Bool) :
    (s.setFlag f i k b).waits = s.waits := rfl
@[simp] theorem State.setFlag_hif (s : State) (f : Field) (i k : Nat) (b : Bool) : (s.setFlag f i k b).hif = s.hif := rfl
@[simp] theorem State.setFlag_ctxs (s : State) (f : Field) (i k : Nat) (b : Bool) : (s.setFlag f i k b).ctxs = s.ctxs := rfl
@[simp] theorem State.setFlag_handles (s : State) (f : Field) (i k : Nat) (b : Bool) :
    (s.setFlag f i k b).handles = s.handles := rfl
@[simp] theorem State.setFlag_xlt (s : State) (f : Field) (i k : Nat) (b : Bool) : (s.setFlag f i k b).xlt = s.xlt := rfl
@[simp] theorem State.setFlag_mat (s : State) (f : Field) (i k : Nat) (b : Bool) : (s.setFlag f i k b).mat = s.mat := rfl
@[simp] theorem State.setFlag_rma (s : State) (f : Field) (i k : Nat) (b : Bool) : (s.setFlag f i k b).rma = s.rma := rfl
@[simp] theorem State.setFlag_rsv (s : State) (f : Field) (i k : Nat) (b : Bool) : (s.setFlag f i k b).rsv = s.rsv := rfl
@[simp] theorem State.setFlag_log (s : State) (f : Field) (i k : Nat) (b : Bool) : (s.setFlag f i k b).log = s.log := rfl
@[simp] theorem State.setFlag_flt (s : State) (f : Field) (i k : Nat) (b : Bool) : (s.setFlag f i k b).flt = s.flt := rfl
@[simp] theorem State.setFlag_pmc (s : State) (f : Field) (i k : Nat) (b : Bool) : (s.setFlag f i k b).pmc = s.pmc := rfl
@[simp] theorem State.setFlag_hdl (s : State) (f : Field) (i k : Nat) (b : Bool) : (s.setFlag f i k b).hdl = s.hdl := rfl
@[simp] theorem State.setFlag_spd (s : State) (f : Field) (i k : Nat) (b : Bool) : (s.setFlag f i k b).spd = s.spd := rfl
@[simp] theorem State.setFlag_sem (s : State) (f : Field) (i k : Nat) (b : Bool) : (s.setFlag f i k b).sem = s.sem := rfl
@[simp] theorem State.setFlag_pwr (s : State) (f : Field) (i k : Nat) (b : Bool) : (s.setFlag f i k b).pwr = s.pwr := rfl
@[simp] theorem State.setFlag_rte (s : State) (f : Field) (i k : Nat) (b : Bool) : (s.setFlag f i k b).rte = s.rte := rfl
@[simp] theorem State.setFlag_lan (s : State) (f : Field) (i k : Nat) (b : Bool) : (s.setFlag f i k b).lan = s.lan := rfl
@[simp] theorem State.setFlag_lnk (s : State) (f : Field) (i k : Nat) (b : Bool) : (s.setFlag f i k b).lnk = s.lnk := rfl
@[simp] theorem State.setFlag_sec (s : State) (f : Field) (i k : Nat) (b : Bool) : (s.setFlag f i k b).sec = s.sec := rfl
@[simp] theorem State.setFlag_csc (s : State) (f : Field) (i k : Nat) (b : Bool) : (s.setFlag f i k b).csc = s.csc := rfl
@[simp] theorem State.setFlag_fmem (s : State) (f : Field) (i k : Nat) (b : Bool) : (s.setFlag f i k b).fmem = s.fmem := rfl
@[simp] theorem State.setFlag_spdMem (s : State) (f : Field) (i k : Nat) (b : Bool) :
    (s.setFlag f i k b).spdMem = s.spdMem := rfl
@[simp] theorem State.setFlag_hmem (s : State) (f : Field) (i k : Nat) (b : Bool) : (s.setFlag f i k b).hmem = s.hmem := rfl
@[simp] theorem State.setFlag_flash (s : State) (f : Field) (i k : Nat) (b : Bool) :
    (s.setFlag f i k b).flash = s.flash := rfl

/-! ### bump -/

@[simp] theorem State.bump_pending (s : State) (f : Field) (i k n : Nat) : (s.bump f i k n).pending = s.pending := rfl
@[simp] theorem State.bump_now (s : State) (f : Field) (i k n : Nat) : (s.bump f i k n).now = s.now := rfl
@[simp] theorem State.bump_timAdj (s : State) (f : Field) (i k n : Nat) : (s.bump f i k n).timAdj = s.timAdj := rfl
@[simp] theorem State.bump_out (s : State) (f : Field) (i k n : Nat) : (s.bump f i k n).out = s.out := rfl
@[simp] theorem State.bump_delivered (s : State) (f : Field) (i k n : Nat) : (s.bump f i k n).delivered = s.delivered := rfl
@[simp] theorem State.bump_free (s : State) (f : Field) (i k n : Nat) : (s.bump f i k n).free = s.free := rfl
@[simp] theorem State.bump_waits (s : State) (f : Field) (i k n : Nat) : (s.bump f i k n).waits = s.waits := rfl
@[simp] theorem State.bump_hif (s : State) (f : Field) (i k n : Nat) : (s.bump f i k n).hif = s.hif := rfl
@[simp] theorem State.bump_ctxs (s : State) (f : Field) (i k n : Nat) : (s.bump f i k n).ctxs = s.ctxs := rfl
@[simp] theorem State.bump_handles (s : State) (f : Field) (i k n : Nat) : (s.bump f i k n).handles = s.handles := rfl
@[simp] theorem State.bump_xlt (s : State) (f : Field) (i k n : Nat) : (s.bump f i k n).xlt = s.xlt := rfl
@[simp] theorem State.bump_mat (s : State) (f : Field) (i k n : Nat) : (s.bump f i k n).mat = s.mat := rfl
@[simp] theorem State.bump_rma (s : State) (f : Field) (i k n : Nat) : (s.bump f i k n).rma = s.rma := rfl
@[simp] theorem State.bump_rsv (s : State) (f : Field) (i k n : Nat) : (s.bump f i k n).rsv = s.rsv := rfl
@[simp] theorem State.bump_log (s : State) (f : Field) (i k n : Nat) : (s.bump f i k n).log = s.log := rfl
@[simp] theorem State.bump_flt (s : State) (f : Field) (i k n : Nat) : (s.bump f i k n).flt = s.flt := rfl
@[simp] theorem State.bump_pmc (s : State) (f : Field) (i k n : Nat) : (s.bump f i k n).pmc = s.pmc := rfl
@[simp] theorem State.bump_hdl (s : State) (f : Field) (i k n : Nat) : (s.bump f i k n).hdl = s.hdl := rfl
@[simp] theorem State.bump_spd (s : State) (f : Field) (i k n : Nat) : (s.bump f i k n).spd = s.spd := rfl
@[simp] theorem State.bump_sem (s : State) (f : Field) (i k n : Nat) : (s.bump f i k n).sem = s.sem := rfl
@[simp] theorem State.bump_pwr (s : State) (f : Field) (i k n : Nat) : (s.bump f i k n).pwr = s.pwr := rfl
@[simp] theorem State.bump_rte (s : State) (f : Field) (i k n : Nat) : (s.bump f i k n).rte = s.rte := rfl
@[simp] theorem State.bump_lan (s : State) (f : Field) (i k n : Nat) : (s.bump f i k n).lan = s.lan := rfl
@[simp] theorem State.bump_lnk (s : State) (f : Field) (i k n : Nat) : (s.bump f i k n).lnk = s.lnk := rfl
@[simp] theorem State.bump_sec (s : State) (f : Field) (i k n : Nat) : (s.bump f i k n).sec = s.sec := rfl
@[simp] theorem State.bump_csc (s : State) (f : Field) (i k n : Nat) : (s.bump f i k n).csc = s.csc := rfl
@[simp] theorem State.bump_fmem (s : State) (f : Field) (i k n : Nat) : (s.bump f i k n).fmem = s.fmem := rfl
@[simp] theorem State.bump_spdMem (s : State) (f : Field) (i k n : Nat) : (s.bump f i k n).spdMem = s.spdMem := rfl
@[simp] theorem State.bump_hmem (s : State) (f : Field) (i k n : Nat) : (s.bump f i k n).hmem = s.hmem := rfl
@[simp] theorem State.bump_flash (s : State) (f : Field) (i k n : Nat) : (s.bump f i k n).flash = s.flash := rfl

/-! ### setFn -/

@[simp] theorem State.setFn_pending (s : State) (p f : Nat) (v : FnState) : (s.setFn p f v).pending = s.pending := rfl
@[simp] theorem State.setFn_now (s : State) (p f : Nat) (v : FnState) : (s.setFn p f v).now = s.now := rfl
@[simp] theorem State.setFn_timAdj (s : State) (p f : Nat) (v : FnState) : (s.setFn p f v).timAdj = s.timAdj := rfl
@[simp] theorem State.setFn_regs (s : State) (p f : Nat) (v : FnState) : (s.setFn p f v).regs = s.regs := rfl
@[simp] theorem State.setFn_out (s : State) (p f : Nat) (v : FnState) : (s.setFn p f v).out = s.out := rfl
@[simp] theorem State.setFn_delivered (s : State) (p f : Nat) (v : FnState) : (s.setFn p f v).delivered = s.delivered := rfl
@[simp] theorem State.setFn_free (s : State) (p f : Nat) (v : FnState) : (s.setFn p f v).free = s.free := rfl
@[simp] theorem State.setFn_waits (s : State) (p f : Nat) (v : FnState) : (s.setFn p f v).waits = s.waits := rfl
@[simp] theorem State.setFn_ctxs (s : State) (p f : Nat) (v : FnState) : (s.setFn p f v).ctxs = s.ctxs := rfl
@[simp] theorem State.setFn_handles (s : State) (p f : Nat) (v : FnState) : (s.setFn p f v).handles = s.handles := rfl
@[simp] theorem State.setFn_xlt (s : State) (p f : Nat) (v : FnState) : (s.setFn p f v).xlt = s.xlt := rfl
@[simp] theorem State.setFn_mat (s : State) (p f : Nat) (v : FnState) : (s.setFn p f v).mat = s.mat := rfl
@[simp] theorem State.setFn_rma (s : State) (p f : Nat) (v : FnState) : (s.setFn p f v).rma = s.rma := rfl
@[simp] theorem State.setFn_rsv (s : State) (p f : Nat) (v : FnState) : (s.setFn p f v).rsv = s.rsv := rfl
@[simp] theorem State.setFn_log (s : State) (p f : Nat) (v : FnState) : (s.setFn p f v).log = s.log := rfl
@[simp] theorem State.setFn_flt (s : State) (p f : Nat) (v : FnState) : (s.setFn p f v).flt = s.flt := rfl
@[simp] theorem State.setFn_pmc (s : State) (p f : Nat) (v : FnState) : (s.setFn p f v).pmc = s.pmc := rfl
@[simp] theorem State.setFn_hdl (s : State) (p f : Nat) (v : FnState) : (s.setFn p f v).hdl = s.hdl := rfl
@[simp] theorem State.setFn_spd (s : State) (p f : Nat) (v : FnState) : (s.setFn p f v).spd = s.spd := rfl
@[simp] theorem State.setFn_sem (s : State) (p f : Nat) (v : FnState) : (s.setFn p f v).sem = s.sem := rfl
@[simp] theorem State.setFn_pwr (s : State) (p f : Nat) (v : FnState) : (s.setFn p f v).pwr = s.pwr := rfl
@[simp] theorem State.setFn_rte (s : State) (p f : Nat) (v : FnState) : (s.setFn p f v).rte = s.rte := rfl
@[simp] theorem State.setFn_lan (s : State) (p f : Nat) (v : FnState) : (s.setFn p f v).lan = s.lan := rfl
@[simp] theorem State.setFn_lnk (s : State) (p f : Nat) (v : FnState) : (s.setFn p f v).lnk = s.lnk := rfl
@[simp] theorem State.setFn_sec (s : State) (p f : Nat) (v : FnState) : (s.setFn p f v).sec = s.sec := rfl
@[simp] theorem State.setFn_csc (s : State) (p f : Nat) (v : FnState) : (s.setFn p f v).csc = s.csc := rfl
@[simp] theorem State.setFn_fmem (s : State) (p f : Nat) (v : FnState) : (s.setFn p f v).fmem = s.fmem := rfl
@[simp] theorem State.setFn_spdMem (s : State) (p f : Nat) (v : FnState) : (s.setFn p f v).spdMem = s.spdMem := rfl
@[simp] theorem State.setFn_hmem (s : State) (p f : Nat) (v : FnState) : (s.setFn p f v).hmem = s.hmem := rfl
@[simp] theorem State.setFn_flash (s : State) (p f : Nat) (v : FnState) : (s.setFn p f v).flash = s.flash := rfl

/-! ### setHport -/

@[simp] theorem State.setHport_pending (s : State) (p : Nat) (v : HPortState) : (s.setHport p v).pending = s.pending := rfl
@[simp] theorem State.setHport_now (s : State) (p : Nat) (v : HPortState) : (s.setHport p v).now = s.now := rfl
@[simp] theorem State.setHport_timAdj (s : State) (p : Nat) (v : HPortState) : (s.setHport p v).timAdj = s.timAdj := rfl
@[simp] theorem State.setHport_regs (s : State) (p : Nat) (v : HPortState) : (s.setHport p v).regs = s.regs := rfl
@[simp] theorem State.setHport_out (s : State) (p : Nat) (v : HPortState) : (s.setHport p v).out = s.out := rfl
@[simp] theorem State.setHport_delivered (s : State) (p : Nat) (v : HPortState) :
    (s.setHport p v).delivered = s.delivered := rfl
@[simp] theorem State.setHport_free (s : State) (p : Nat) (v : HPortState) : (s.setHport p v).free = s.free := rfl
@[simp] theorem State.setHport_waits (s : State) (p : Nat) (v : HPortState) : (s.setHport p v).waits = s.waits := rfl
@[simp] theorem State.setHport_ctxs (s : State) (p : Nat) (v : HPortState) : (s.setHport p v).ctxs = s.ctxs := rfl
@[simp] theorem State.setHport_handles (s : State) (p : Nat) (v : HPortState) : (s.setHport p v).handles = s.handles := rfl
@[simp] theorem State.setHport_xlt (s : State) (p : Nat) (v : HPortState) : (s.setHport p v).xlt = s.xlt := rfl
@[simp] theorem State.setHport_mat (s : State) (p : Nat) (v : HPortState) : (s.setHport p v).mat = s.mat := rfl
@[simp] theorem State.setHport_rma (s : State) (p : Nat) (v : HPortState) : (s.setHport p v).rma = s.rma := rfl
@[simp] theorem State.setHport_rsv (s : State) (p : Nat) (v : HPortState) : (s.setHport p v).rsv = s.rsv := rfl
@[simp] theorem State.setHport_log (s : State) (p : Nat) (v : HPortState) : (s.setHport p v).log = s.log := rfl
@[simp] theorem State.setHport_flt (s : State) (p : Nat) (v : HPortState) : (s.setHport p v).flt = s.flt := rfl
@[simp] theorem State.setHport_pmc (s : State) (p : Nat) (v : HPortState) : (s.setHport p v).pmc = s.pmc := rfl
@[simp] theorem State.setHport_hdl (s : State) (p : Nat) (v : HPortState) : (s.setHport p v).hdl = s.hdl := rfl
@[simp] theorem State.setHport_spd (s : State) (p : Nat) (v : HPortState) : (s.setHport p v).spd = s.spd := rfl
@[simp] theorem State.setHport_sem (s : State) (p : Nat) (v : HPortState) : (s.setHport p v).sem = s.sem := rfl
@[simp] theorem State.setHport_pwr (s : State) (p : Nat) (v : HPortState) : (s.setHport p v).pwr = s.pwr := rfl
@[simp] theorem State.setHport_rte (s : State) (p : Nat) (v : HPortState) : (s.setHport p v).rte = s.rte := rfl
@[simp] theorem State.setHport_lan (s : State) (p : Nat) (v : HPortState) : (s.setHport p v).lan = s.lan := rfl
@[simp] theorem State.setHport_lnk (s : State) (p : Nat) (v : HPortState) : (s.setHport p v).lnk = s.lnk := rfl
@[simp] theorem State.setHport_sec (s : State) (p : Nat) (v : HPortState) : (s.setHport p v).sec = s.sec := rfl
@[simp] theorem State.setHport_csc (s : State) (p : Nat) (v : HPortState) : (s.setHport p v).csc = s.csc := rfl
@[simp] theorem State.setHport_fmem (s : State) (p : Nat) (v : HPortState) : (s.setHport p v).fmem = s.fmem := rfl
@[simp] theorem State.setHport_spdMem (s : State) (p : Nat) (v : HPortState) : (s.setHport p v).spdMem = s.spdMem := rfl
@[simp] theorem State.setHport_hmem (s : State) (p : Nat) (v : HPortState) : (s.setHport p v).hmem = s.hmem := rfl
@[simp] theorem State.setHport_flash (s : State) (p : Nat) (v : HPortState) : (s.setHport p v).flash = s.flash := rfl

/-! ### setSub -/

@[simp] theorem State.setSub_pending (s : State) (p k : Nat) (v : SubState) : (s.setSub p k v).pending = s.pending := rfl
@[simp] theorem State.setSub_now (s : State) (p k : Nat) (v : SubState) : (s.setSub p k v).now = s.now := rfl
@[simp] theorem State.setSub_timAdj (s : State) (p k : Nat) (v : SubState) : (s.setSub p k v).timAdj = s.timAdj := rfl
@[simp] theorem State.setSub_regs (s : State) (p k : Nat) (v : SubState) : (s.setSub p k v).regs = s.regs := rfl
@[simp] theorem State.setSub_out (s : State) (p k : Nat) (v : SubState) : (s.setSub p k v).out = s.out := rfl
@[simp] theorem State.setSub_delivered (s : State) (p k : Nat) (v : SubState) :
    (s.setSub p k v).delivered = s.delivered := rfl
@[simp] theorem State.setSub_free (s : State) (p k : Nat) (v : SubState) : (s.setSub p k v).free = s.free := rfl
@[simp] theorem State.setSub_waits (s : State) (p k : Nat) (v : SubState) : (s.setSub p k v).waits = s.waits := rfl
@[simp] theorem State.setSub_ctxs (s : State) (p k : Nat) (v : SubState) : (s.setSub p k v).ctxs = s.ctxs := rfl
@[simp] theorem State.setSub_handles (s : State) (p k : Nat) (v : SubState) : (s.setSub p k v).handles = s.handles := rfl
@[simp] theorem State.setSub_xlt (s : State) (p k : Nat) (v : SubState) : (s.setSub p k v).xlt = s.xlt := rfl
@[simp] theorem State.setSub_mat (s : State) (p k : Nat) (v : SubState) : (s.setSub p k v).mat = s.mat := rfl
@[simp] theorem State.setSub_rma (s : State) (p k : Nat) (v : SubState) : (s.setSub p k v).rma = s.rma := rfl
@[simp] theorem State.setSub_rsv (s : State) (p k : Nat) (v : SubState) : (s.setSub p k v).rsv = s.rsv := rfl
@[simp] theorem State.setSub_log (s : State) (p k : Nat) (v : SubState) : (s.setSub p k v).log = s.log := rfl
@[simp] theorem State.setSub_flt (s : State) (p k : Nat) (v : SubState) : (s.setSub p k v).flt = s.flt := rfl
@[simp] theorem State.setSub_pmc (s : State) (p k : Nat) (v : SubState) : (s.setSub p k v).pmc = s.pmc := rfl
@[simp] theorem State.setSub_hdl (s : State) (p k : Nat) (v : SubState) : (s.setSub p k v).hdl = s.hdl := rfl
@[simp] theorem State.setSub_spd (s : State) (p k : Nat) (v : SubState) : (s.setSub p k v).spd = s.spd := rfl
@[simp] theorem State.setSub_sem (s : State) (p k : Nat) (v : SubState) : (s.setSub p k v).sem = s.sem := rfl
@[simp] theorem State.setSub_pwr (s : State) (p k : Nat) (v : SubState) : (s.setSub p k v).pwr = s.pwr := rfl
@[simp] theorem State.setSub_rte (s : State) (p k : Nat) (v : SubState) : (s.setSub p k v).rte = s.rte := rfl
@[simp] theorem State.setSub_lan (s : State) (p k : Nat) (v : SubState) : (s.setSub p k v).lan = s.lan := rfl
@[simp] theorem State.setSub_lnk (s : State) (p k : Nat) (v : SubState) : (s.setSub p k v).lnk = s.lnk := rfl
@[simp] theorem State.setSub_sec (s : State) (p k : Nat) (v : SubState) : (s.setSub p k v).sec = s.sec := rfl
@[simp] theorem State.setSub_csc (s : State) (p k : Nat) (v : SubState) : (s.setSub p k v).csc = s.csc := rfl
@[simp] theorem State.setSub_fmem (s : State) (p k : Nat) (v : SubState) : (s.setSub p k v).fmem = s.fmem := rfl
@[simp] theorem State.setSub_spdMem (s : State) (p k : Nat) (v : SubState) : (s.setSub p k v).spdMem = s.spdMem := rfl
@[simp] theorem State.setSub_hmem (s : State) (p k : Nat) (v : SubState) : (s.setSub p k v).hmem = s.hmem := rfl
@[simp] theorem State.setSub_flash (s : State) (p k : Nat) (v : SubState) : (s.setSub p k v).flash = s.flash := rfl

/-! ### setCtx -/

@[simp] theorem State.setCtx_pending (s : State) (c : Nat) (r : CtxRec) : (s.setCtx c r).pending = s.pending := rfl
@[simp] theorem State.setCtx_now (s : State) (c : Nat) (r : CtxRec) : (s.setCtx c r).now = s.now := rfl
@[simp] theorem State.setCtx_timAdj (s : State) (c : Nat) (r : CtxRec) : (s.setCtx c r).timAdj = s.timAdj := rfl
@[simp] theorem State.setCtx_regs (s : State) (c : Nat) (r : CtxRec) : (s.setCtx c r).regs = s.regs := rfl
@[simp] theorem State.setCtx_out (s : State) (c : Nat) (r : CtxRec) : (s.setCtx c r).out = s.out := rfl
@[simp] theorem State.setCtx_delivered (s : State) (c : Nat) (r : CtxRec) : (s.setCtx c r).delivered = s.delivered := rfl
@[simp] theorem State.setCtx_free (s : State) (c : Nat) (r : CtxRec) : (s.setCtx c r).free = s.free := rfl
@[simp] theorem State.setCtx_waits (s : State) (c : Nat) (r : CtxRec) : (s.setCtx c r).waits = s.waits := rfl
@[simp] theorem State.setCtx_hif (s : State) (c : Nat) (r : CtxRec) : (s.setCtx c r).hif = s.hif := rfl
@[simp] theorem State.setCtx_handles (s : State) (c : Nat) (r : CtxRec) : (s.setCtx c r).handles = s.handles := rfl
@[simp] theorem State.setCtx_xlt (s : State) (c : Nat) (r : CtxRec) : (s.setCtx c r).xlt = s.xlt := rfl
@[simp] theorem State.setCtx_mat (s : State) (c : Nat) (r : CtxRec) : (s.setCtx c r).mat = s.mat := rfl
@[simp] theorem State.setCtx_rma (s : State) (c : Nat) (r : CtxRec) : (s.setCtx c r).rma = s.rma := rfl
@[simp] theorem State.setCtx_rsv (s : State) (c : Nat) (r : CtxRec) : (s.setCtx c r).rsv = s.rsv := rfl
@[simp] theorem State.setCtx_log (s : State) (c : Nat) (r : CtxRec) : (s.setCtx c r).log = s.log := rfl
@[simp] theorem State.setCtx_flt (s : State) (c : Nat) (r : CtxRec) : (s.setCtx c r).flt = s.flt := rfl
@[simp] theorem State.setCtx_pmc (s : State) (c : Nat) (r : CtxRec) : (s.setCtx c r).pmc = s.pmc := rfl
@[simp] theorem State.setCtx_hdl (s : State) (c : Nat) (r : CtxRec) : (s.setCtx c r).hdl = s.hdl := rfl
@[simp] theorem State.setCtx_spd (s : State) (c : Nat) (r : CtxRec) : (s.setCtx c r).spd = s.spd := rfl
@[simp] theorem State.setCtx_sem (s : State) (c : Nat) (r : CtxRec) : (s.setCtx c r).sem = s.sem := rfl
@[simp] theorem State.setCtx_pwr (s : State) (c : Nat) (r : CtxRec) : (s.setCtx c r).pwr = s.pwr := rfl
@[simp] theorem State.setCtx_rte (s : State) (c : Nat) (r : CtxRec) : (s.setCtx c r).rte = s.rte := rfl
@[simp] theorem State.setCtx_lan (s : State) (c : Nat) (r : CtxRec) : (s.setCtx c r).lan = s.lan := rfl
@[simp] theorem State.setCtx_lnk (s : State) (c : Nat) (r : CtxRec) : (s.setCtx c r).lnk = s.lnk := rfl
@[simp] theorem State.setCtx_sec (s : State) (c : Nat) (r : CtxRec) : (s.setCtx c r).sec = s.sec := rfl
@[simp] theorem State.setCtx_csc (s : State) (c : Nat) (r : CtxRec) : (s.setCtx c r).csc = s.csc := rfl
@[simp] theorem State.setCtx_fmem (s : State) (c : Nat) (r : CtxRec) : (s.setCtx c r).fmem = s.fmem := rfl
@[simp] theorem State.setCtx_spdMem (s : State) (c : Nat) (r : CtxRec) : (s.setCtx c r).spdMem = s.spdMem := rfl
@[simp] theorem State.setCtx_hmem (s : State) (c : Nat) (r : CtxRec) : (s.setCtx c r).hmem = s.hmem := rfl
@[simp] theorem State.setCtx_flash (s : State) (c : Nat) (r : CtxRec) : (s.setCtx c r).flash = s.flash := rfl

/-! ### setHandle -/

@[simp] theorem State.setHandle_pending (s : State) (h : Handle) : (s.setHandle h).pending = s.pending := rfl
@[simp] theorem State.setHandle_now (s : State) (h : Handle) : (s.setHandle h).now = s.now := rfl
@[simp] theorem State.setHandle_timAdj (s : State) (h : Handle) : (s.setHandle h).timAdj = s.timAdj := rfl
@[simp] theorem State.setHandle_regs (s : State) (h : Handle) : (s.setHandle h).regs = s.regs := rfl
@[simp] theorem State.setHandle_out (s : State) (h : Handle) : (s.setHandle h).out = s.out := rfl
@[simp] theorem State.setHandle_delivered (s : State) (h : Handle) : (s.setHandle h).delivered = s.delivered := rfl
@[simp] theorem State.setHandle_free (s : State) (h : Handle) : (s.setHandle h).free = s.free := rfl
@[simp] theorem State.setHandle_waits (s : State) (h : Handle) : (s.setHandle h).waits = s.waits := rfl
@[simp] theorem State.setHandle_hif (s : State) (h : Handle) : (s.setHandle h).hif = s.hif := rfl
@[simp] theorem State.setHandle_ctxs (s : State) (h : Handle) : (s.setHandle h).ctxs = s.ctxs := rfl
@[simp] theorem State.setHandle_xlt (s : State) (h : Handle) : (s.setHandle h).xlt = s.xlt := rfl
@[simp] theorem State.setHandle_mat (s : State) (h : Handle) : (s.setHandle h).mat = s.mat := rfl
@[simp] theorem State.setHandle_rma (s : State) (h : Handle) : (s.setHandle h).rma = s.rma := rfl
@[simp] theorem State.setHandle_rsv (s : State) (h : Handle) : (s.setHandle h).rsv = s.rsv := rfl
@[simp] theorem State.setHandle_log (s : State) (h : Handle) : (s.setHandle h).log = s.log := rfl
@[simp] theorem State.setHandle_flt (s : State) (h : Handle) : (s.setHandle h).flt = s.flt := rfl
@[simp] theorem State.setHandle_pmc (s : State) (h : Handle) : (s.setHandle h).pmc = s.pmc := rfl
@[simp] theorem State.setHandle_hdl (s : State) (h : Handle) : (s.setHandle h).hdl = s.hdl := rfl
@[simp] theorem State.setHandle_spd (s : State) (h : Handle) : (s.setHandle h).spd = s.spd := rfl
@[simp] theorem State.setHandle_sem (s : State) (h : Handle) : (s.setHandle h).sem = s.sem := rfl
@[simp] theorem State.setHandle_pwr (s : State) (h : Handle) : (s.setHandle h).pwr = s.pwr := rfl
@[simp] theorem State.setHandle_rte (s : State) (h : Handle) : (s.setHandle h).rte = s.rte := rfl
@[simp] theorem State.setHandle_lan (s : State) (h : Handle) : (s.setHandle h).lan = s.lan := rfl
@[simp] theorem State.setHandle_lnk (s : State) (h : Handle) : (s.setHandle h).lnk = s.lnk := rfl
@[simp] theorem State.setHandle_sec (s : State) (h : Handle) : (s.setHandle h).sec = s.sec := rfl
@[simp] theorem State.setHandle_csc (s : State) (h : Handle) : (s.setHandle h).csc = s.csc := rfl
@[simp] theorem State.setHandle_fmem (s : State) (h : Handle) : (s.setHandle h).fmem = s.fmem := rfl
@[simp] theorem State.setHandle_spdMem (s : State) (h : Handle) : (s.setHandle h).spdMem = s.spdMem := rfl
@[simp] theorem State.setHandle_hmem (s : State) (h : Handle) : (s.setHandle h).hmem = s.hmem := rfl
@[simp] theorem State.setHandle_flash (s : State) (h : Handle) : (s.setHandle h).flash = s.flash := rfl

/-! ### setSem -/

@[simp] theorem State.setSem_pending (s : State) (n : Nat) (v : Semaphore) : (s.setSem n v).pending = s.pending := rfl
@[simp] theorem State.setSem_now (s : State) (n : Nat) (v : Semaphore) : (s.setSem n v).now = s.now := rfl
@[simp] theorem State.setSem_timAdj (s : State) (n : Nat) (v : Semaphore) : (s.setSem n v).timAdj = s.timAdj := rfl
@[simp] theorem State.setSem_regs (s : State) (n : Nat) (v : Semaphore) : (s.setSem n v).regs = s.regs := rfl
@[simp] theorem State.setSem_out (s : State) (n : Nat) (v : Semaphore) : (s.setSem n v).out = s.out := rfl
@[simp] theorem State.setSem_delivered (s : State) (n : Nat) (v : Semaphore) : (s.setSem n v).delivered = s.delivered := rfl
@[simp] theorem State.setSem_free (s : State) (n : Nat) (v : Semaphore) : (s.setSem n v).free = s.free := rfl
@[simp] theorem State.setSem_waits (s : State) (n : Nat) (v : Semaphore) : (s.setSem n v).waits = s.waits := rfl
@[simp] theorem State.setSem_hif (s : State) (n : Nat) (v : Semaphore) : (s.setSem n v).hif = s.hif := rfl
@[simp] theorem State.setSem_ctxs (s : State) (n : Nat) (v : Semaphore) : (s.setSem n v).ctxs = s.ctxs := rfl
@[simp] theorem State.setSem_handles (s : State) (n : Nat) (v : Semaphore) : (s.setSem n v).handles = s.handles := rfl
@[simp] theorem State.setSem_xlt (s : State) (n : Nat) (v : Semaphore) : (s.setSem n v).xlt = s.xlt := rfl
@[simp] theorem State.setSem_mat (s : State) (n : Nat) (v : Semaphore) : (s.setSem n v).mat = s.mat := rfl
@[simp] theorem State.setSem_rma (s : State) (n : Nat) (v : Semaphore) : (s.setSem n v).rma = s.rma := rfl
@[simp] theorem State.setSem_rsv (s : State) (n : Nat) (v : Semaphore) : (s.setSem n v).rsv = s.rsv := rfl
@[simp] theorem State.setSem_log (s : State) (n : Nat) (v : Semaphore) : (s.setSem n v).log = s.log := rfl
@[simp] theorem State.setSem_flt (s : State) (n : Nat) (v : Semaphore) : (s.setSem n v).flt = s.flt := rfl
@[simp] theorem State.setSem_pmc (s : State) (n : Nat) (v : Semaphore) : (s.setSem n v).pmc = s.pmc := rfl
@[simp] theorem State.setSem_hdl (s : State) (n : Nat) (v : Semaphore) : (s.setSem n v).hdl = s.hdl := rfl
@[simp] theorem State.setSem_spd (s : State) (n : Nat) (v : Semaphore) : (s.setSem n v).spd = s.spd := rfl
@[simp] theorem State.setSem_pwr (s : State) (n : Nat) (v : Semaphore) : (s.setSem n v).pwr = s.pwr := rfl
@[simp] theorem State.setSem_rte (s : State) (n : Nat) (v : Semaphore) : (s.setSem n v).rte = s.rte := rfl
@[simp] theorem State.setSem_lan (s : State) (n : Nat) (v : Semaphore) : (s.setSem n v).lan = s.lan := rfl
@[simp] theorem State.setSem_lnk (s : State) (n : Nat) (v : Semaphore) : (s.setSem n v).lnk = s.lnk := rfl
@[simp] theorem State.setSem_sec (s : State) (n : Nat) (v : Semaphore) : (s.setSem n v).sec = s.sec := rfl
@[simp] theorem State.setSem_csc (s : State) (n : Nat) (v : Semaphore) : (s.setSem n v).csc = s.csc := rfl
@[simp] theorem State.setSem_fmem (s : State) (n : Nat) (v : Semaphore) : (s.setSem n v).fmem = s.fmem := rfl
@[simp] theorem State.setSem_spdMem (s : State) (n : Nat) (v : Semaphore) : (s.setSem n v).spdMem = s.spdMem := rfl
@[simp] theorem State.setSem_hmem (s : State) (n : Nat) (v : Semaphore) : (s.setSem n v).hmem = s.hmem := rfl
@[simp] theorem State.setSem_flash (s : State) (n : Nat) (v : Semaphore) : (s.setSem n v).flash = s.flash := rfl

/-! ### pmcEv -/

@[simp] theorem State.pmcEv_pending (s : State) (b c i v w : Nat) :
    (s.pmcEv b c i v w).pending = s.pending := by unfold State.pmcEv; split <;> rfl
@[simp] theorem State.pmcEv_now (s : State) (b c i v w : Nat) :
    (s.pmcEv b c i v w).now = s.now := by unfold State.pmcEv; split <;> rfl
@[simp] theorem State.pmcEv_timAdj (s : State) (b c i v w : Nat) :
    (s.pmcEv b c i v w).timAdj = s.timAdj := by unfold State.pmcEv; split <;> rfl
@[simp] theorem State.pmcEv_regs (s : State) (b c i v w : Nat) :
    (s.pmcEv b c i v w).regs = s.regs := by unfold State.pmcEv; split <;> rfl
@[simp] theorem State.pmcEv_out (s : State) (b c i v w : Nat) :
    (s.pmcEv b c i v w).out = s.out := by unfold State.pmcEv; split <;> rfl
@[simp] theorem State.pmcEv_delivered (s : State) (b c i v w : Nat) :
    (s.pmcEv b c i v w).delivered = s.delivered := by unfold State.pmcEv; split <;> rfl
@[simp] theorem State.pmcEv_free (s : State) (b c i v w : Nat) :
    (s.pmcEv b c i v w).free = s.free := by unfold State.pmcEv; split <;> rfl
@[simp] theorem State.pmcEv_waits (s : State) (b c i v w : Nat) :
    (s.pmcEv b c i v w).waits = s.waits := by unfold State.pmcEv; split <;> rfl
@[simp] theorem State.pmcEv_hif (s : State) (b c i v w : Nat) :
    (s.pmcEv b c i v w).hif = s.hif := by unfold State.pmcEv; split <;> rfl
@[simp] theorem State.pmcEv_ctxs (s : State) (b c i v w : Nat) :
    (s.pmcEv b c i v w).ctxs = s.ctxs := by unfold State.pmcEv; split <;> rfl
@[simp] theorem State.pmcEv_handles (s : State) (b c i v w : Nat) :
    (s.pmcEv b c i v w).handles = s.handles := by unfold State.pmcEv; split <;> rfl
@[simp] theorem State.pmcEv_xlt (s : State) (b c i v w : Nat) :
    (s.pmcEv b c i v w).xlt = s.xlt := by unfold State.pmcEv; split <;> rfl
@[simp] theorem State.pmcEv_mat (s : State) (b c i v w : Nat) :
    (s.pmcEv b c i v w).mat = s.mat := by unfold State.pmcEv; split <;> rfl
@[simp] theorem State.pmcEv_rma (s : State) (b c i v w : Nat) :
    (s.pmcEv b c i v w).rma = s.rma := by unfold State.pmcEv; split <;> rfl
@[simp] theorem State.pmcEv_rsv (s : State) (b c i v w : Nat) :
    (s.pmcEv b c i v w).rsv = s.rsv := by unfold State.pmcEv; split <;> rfl
@[simp] theorem State.pmcEv_log (s : State) (b c i v w : Nat) :
    (s.pmcEv b c i v w).log = s.log := by unfold State.pmcEv; split <;> rfl
@[simp] theorem State.pmcEv_flt (s : State) (b c i v w : Nat) :
    (s.pmcEv b c i v w).flt = s.flt := by unfold State.pmcEv; split <;> rfl
@[simp] theorem State.pmcEv_hdl (s : State) (b c i v w : Nat) :
    (s.pmcEv b c i v w).hdl = s.hdl := by unfold State.pmcEv; split <;> rfl
@[simp] theorem State.pmcEv_spd (s : State) (b c i v w : Nat) :
    (s.pmcEv b c i v w).spd = s.spd := by unfold State.pmcEv; split <;> rfl
@[simp] theorem State.pmcEv_sem (s : State) (b c i v w : Nat) :
    (s.pmcEv b c i v w).sem = s.sem := by unfold State.pmcEv; split <;> rfl
@[simp] theorem State.pmcEv_pwr (s : State) (b c i v w : Nat) :
    (s.pmcEv b c i v w).pwr = s.pwr := by unfold State.pmcEv; split <;> rfl
@[simp] theorem State.pmcEv_rte (s : State) (b c i v w : Nat) :
    (s.pmcEv b c i v w).rte = s.rte := by unfold State.pmcEv; split <;> rfl
@[simp] theorem State.pmcEv_lan (s : State) (b c i v w : Nat) :
    (s.pmcEv b c i v w).lan = s.lan := by unfold State.pmcEv; split <;> rfl
@[simp] theorem State.pmcEv_lnk (s : State) (b c i v w : Nat) :
    (s.pmcEv b c i v w).lnk = s.lnk := by unfold State.pmcEv; split <;> rfl
@[simp] theorem State.pmcEv_sec (s : State) (b c i v w : Nat) :
    (s.pmcEv b c i v w).sec = s.sec := by unfold State.pmcEv; split <;> rfl
@[simp] theorem State.pmcEv_csc (s : State) (b c i v w : Nat) :
    (s.pmcEv b c i v w).csc = s.csc := by unfold State.pmcEv; split <;> rfl
@[simp] theorem State.pmcEv_fmem (s : State) (b c i v w : Nat) :
    (s.pmcEv b c i v w).fmem = s.fmem := by unfold State.pmcEv; split <;> rfl
@[simp] theorem State.pmcEv_spdMem (s : State) (b c i v w : Nat) :
    (s.pmcEv b c i v w).spdMem = s.spdMem := by unfold State.pmcEv; split <;> rfl
@[simp] theorem State.pmcEv_hmem (s : State) (b c i v w : Nat) :
    (s.pmcEv b c i v w).hmem = s.hmem := by unfold State.pmcEv; split <;> rfl
@[simp] theorem State.pmcEv_flash (s : State) (b c i v w : Nat) :
    (s.pmcEv b c i v w).flash = s.flash := by unfold State.pmcEv; split <;> rfl

/-! ### rxBytes -/

@[simp] theorem State.rxBytes_pending (s : State) (m n : Nat) :
    (s.rxBytes m n).pending = s.pending := by unfold State.rxBytes; split <;> simp
@[simp] theorem State.rxBytes_now (s : State) (m n : Nat) :
    (s.rxBytes m n).now = s.now := by unfold State.rxBytes; split <;> simp
@[simp] theorem State.rxBytes_timAdj (s : State) (m n : Nat) :
    (s.rxBytes m n).timAdj = s.timAdj := by unfold State.rxBytes; split <;> simp
@[simp] theorem State.rxBytes_regs (s : State) (m n : Nat) :
    (s.rxBytes m n).regs = s.regs := by unfold State.rxBytes; split <;> simp
@[simp] theorem State.rxBytes_out (s : State) (m n : Nat) :
    (s.rxBytes m n).out = s.out := by unfold State.rxBytes; split <;> simp
@[simp] theorem State.rxBytes_delivered (s : State) (m n : Nat) :
    (s.rxBytes m n).delivered = s.delivered := by unfold State.rxBytes; split <;> simp
@[simp] theorem State.rxBytes_free (s : State) (m n : Nat) :
    (s.rxBytes m n).free = s.free := by unfold State.rxBytes; split <;> simp
@[simp] theorem State.rxBytes_waits (s : State) (m n : Nat) :
    (s.rxBytes m n).waits = s.waits := by unfold State.rxBytes; split <;> simp
@[simp] theorem State.rxBytes_hif (s : State) (m n : Nat) :
    (s.rxBytes m n).hif = s.hif := by unfold State.rxBytes; split <;> simp
@[simp] theorem State.rxBytes_ctxs (s : State) (m n : Nat) :
    (s.rxBytes m n).ctxs = s.ctxs := by unfold State.rxBytes; split <;> simp
@[simp] theorem State.rxBytes_handles (s : State) (m n : Nat) :
    (s.rxBytes m n).handles = s.handles := by unfold State.rxBytes; split <;> simp
@[simp] theorem State.rxBytes_xlt (s : State) (m n : Nat) :
    (s.rxBytes m n).xlt = s.xlt := by unfold State.rxBytes; split <;> simp
@[simp] theorem State.rxBytes_mat (s : State) (m n : Nat) :
    (s.rxBytes m n).mat = s.mat := by unfold State.rxBytes; split <;> simp
@[simp] theorem State.rxBytes_rma (s : State) (m n : Nat) :
    (s.rxBytes m n).rma = s.rma := by unfold State.rxBytes; split <;> simp
@[simp] theorem State.rxBytes_rsv (s : State) (m n : Nat) :
    (s.rxBytes m n).rsv = s.rsv := by unfold State.rxBytes; split <;> simp
@[simp] theorem State.rxBytes_log (s : State) (m n : Nat) :
    (s.rxBytes m n).log = s.log := by unfold State.rxBytes; split <;> simp
@[simp] theorem State.rxBytes_flt (s : State) (m n : Nat) :
    (s.rxBytes m n).flt = s.flt := by unfold State.rxBytes; split <;> simp
@[simp] theorem State.rxBytes_hdl (s : State) (m n : Nat) :
    (s.rxBytes m n).hdl = s.hdl := by unfold State.rxBytes; split <;> simp
@[simp] theorem State.rxBytes_spd (s : State) (m n : Nat) :
    (s.rxBytes m n).spd = s.spd := by unfold State.rxBytes; split <;> simp
@[simp] theorem State.rxBytes_sem (s : State) (m n : Nat) :
    (s.rxBytes m n).sem = s.sem := by unfold State.rxBytes; split <;> simp
@[simp] theorem State.rxBytes_pwr (s : State) (m n : Nat) :
    (s.rxBytes m n).pwr = s.pwr := by unfold State.rxBytes; split <;> simp
@[simp] theorem State.rxBytes_rte (s : State) (m n : Nat) :
    (s.rxBytes m n).rte = s.rte := by unfold State.rxBytes; split <;> simp
@[simp] theorem State.rxBytes_lan (s : State) (m n : Nat) :
    (s.rxBytes m n).lan = s.lan := by unfold State.rxBytes; split <;> simp
@[simp] theorem State.rxBytes_lnk (s : State) (m n : Nat) :
    (s.rxBytes m n).lnk = s.lnk := by unfold State.rxBytes; split <;> simp
@[simp] theorem State.rxBytes_sec (s : State) (m n : Nat) :
    (s.rxBytes m n).sec = s.sec := by unfold State.rxBytes; split <;> simp
@[simp] theorem State.rxBytes_csc (s : State) (m n : Nat) :
    (s.rxBytes m n).csc = s.csc := by unfold State.rxBytes; split <;> simp
@[simp] theorem State.rxBytes_fmem (s : State) (m n : Nat) :
    (s.rxBytes m n).fmem = s.fmem := by unfold State.rxBytes; split <;> simp
@[simp] theorem State.rxBytes_spdMem (s : State) (m n : Nat) :
    (s.rxBytes m n).spdMem = s.spdMem := by unfold State.rxBytes; split <;> simp
@[simp] theorem State.rxBytes_hmem (s : State) (m n : Nat) :
    (s.rxBytes m n).hmem = s.hmem := by unfold State.rxBytes; split <;> simp
@[simp] theorem State.rxBytes_flash (s : State) (m n : Nat) :
    (s.rxBytes m n).flash = s.flash := by unfold State.rxBytes; split <;> simp

/-! ### emit -/

@[simp] theorem State.emit_pending (s : State) (o : Output) : (s.emit o).pending = s.pending := by unfold State.emit; simp
@[simp] theorem State.emit_now (s : State) (o : Output) : (s.emit o).now = s.now := by unfold State.emit; simp
@[simp] theorem State.emit_timAdj (s : State) (o : Output) : (s.emit o).timAdj = s.timAdj := by unfold State.emit; simp
@[simp] theorem State.emit_regs (s : State) (o : Output) : (s.emit o).regs = s.regs := by unfold State.emit; simp
@[simp] theorem State.emit_delivered (s : State) (o : Output) :
    (s.emit o).delivered = s.delivered := by unfold State.emit; simp
@[simp] theorem State.emit_free (s : State) (o : Output) : (s.emit o).free = s.free := by unfold State.emit; simp
@[simp] theorem State.emit_waits (s : State) (o : Output) : (s.emit o).waits = s.waits := by unfold State.emit; simp
@[simp] theorem State.emit_hif (s : State) (o : Output) : (s.emit o).hif = s.hif := by unfold State.emit; simp
@[simp] theorem State.emit_ctxs (s : State) (o : Output) : (s.emit o).ctxs = s.ctxs := by unfold State.emit; simp
@[simp] theorem State.emit_handles (s : State) (o : Output) : (s.emit o).handles = s.handles := by unfold State.emit; simp
@[simp] theorem State.emit_xlt (s : State) (o : Output) : (s.emit o).xlt = s.xlt := by unfold State.emit; simp
@[simp] theorem State.emit_mat (s : State) (o : Output) : (s.emit o).mat = s.mat := by unfold State.emit; simp
@[simp] theorem State.emit_rma (s : State) (o : Output) : (s.emit o).rma = s.rma := by unfold State.emit; simp
@[simp] theorem State.emit_rsv (s : State) (o : Output) : (s.emit o).rsv = s.rsv := by unfold State.emit; simp
@[simp] theorem State.emit_log (s : State) (o : Output) : (s.emit o).log = s.log := by unfold State.emit; simp
@[simp] theorem State.emit_flt (s : State) (o : Output) : (s.emit o).flt = s.flt := by unfold State.emit; simp
@[simp] theorem State.emit_hdl (s : State) (o : Output) : (s.emit o).hdl = s.hdl := by unfold State.emit; simp
@[simp] theorem State.emit_spd (s : State) (o : Output) : (s.emit o).spd = s.spd := by unfold State.emit; simp
@[simp] theorem State.emit_sem (s : State) (o : Output) : (s.emit o).sem = s.sem := by unfold State.emit; simp
@[simp] theorem State.emit_pwr (s : State) (o : Output) : (s.emit o).pwr = s.pwr := by unfold State.emit; simp
@[simp] theorem State.emit_rte (s : State) (o : Output) : (s.emit o).rte = s.rte := by unfold State.emit; simp
@[simp] theorem State.emit_lan (s : State) (o : Output) : (s.emit o).lan = s.lan := by unfold State.emit; simp
@[simp] theorem State.emit_lnk (s : State) (o : Output) : (s.emit o).lnk = s.lnk := by unfold State.emit; simp
@[simp] theorem State.emit_sec (s : State) (o : Output) : (s.emit o).sec = s.sec := by unfold State.emit; simp
@[simp] theorem State.emit_csc (s : State) (o : Output) : (s.emit o).csc = s.csc := by unfold State.emit; simp
@[simp] theorem State.emit_fmem (s : State) (o : Output) : (s.emit o).fmem = s.fmem := by unfold State.emit; simp
@[simp] theorem State.emit_spdMem (s : State) (o : Output) : (s.emit o).spdMem = s.spdMem := by unfold State.emit; simp
@[simp] theorem State.emit_hmem (s : State) (o : Output) : (s.emit o).hmem = s.hmem := by unfold State.emit; simp
@[simp] theorem State.emit_flash (s : State) (o : Output) : (s.emit o).flash = s.flash := by unfold State.emit; simp

/-! ### setMb -/

@[simp] theorem State.setMb_pending (s : State) (v : Mailbox) : (s.setMb v).pending = s.pending := rfl
@[simp] theorem State.setMb_now (s : State) (v : Mailbox) : (s.setMb v).now = s.now := rfl
@[simp] theorem State.setMb_timAdj (s : State) (v : Mailbox) : (s.setMb v).timAdj = s.timAdj := rfl
@[simp] theorem State.setMb_regs (s : State) (v : Mailbox) : (s.setMb v).regs = s.regs := rfl
@[simp] theorem State.setMb_out (s : State) (v : Mailbox) : (s.setMb v).out = s.out := rfl
@[simp] theorem State.setMb_delivered (s : State) (v : Mailbox) : (s.setMb v).delivered = s.delivered := rfl
@[simp] theorem State.setMb_free (s : State) (v : Mailbox) : (s.setMb v).free = s.free := rfl
@[simp] theorem State.setMb_waits (s : State) (v : Mailbox) : (s.setMb v).waits = s.waits := rfl
@[simp] theorem State.setMb_hif (s : State) (v : Mailbox) : (s.setMb v).hif = s.hif := rfl
@[simp] theorem State.setMb_ctxs (s : State) (v : Mailbox) : (s.setMb v).ctxs = s.ctxs := rfl
@[simp] theorem State.setMb_handles (s : State) (v : Mailbox) : (s.setMb v).handles = s.handles := rfl
@[simp] theorem State.setMb_xlt (s : State) (v : Mailbox) : (s.setMb v).xlt = s.xlt := rfl
@[simp] theorem State.setMb_mat (s : State) (v : Mailbox) : (s.setMb v).mat = s.mat := rfl
@[simp] theorem State.setMb_rma (s : State) (v : Mailbox) : (s.setMb v).rma = s.rma := rfl
@[simp] theorem State.setMb_rsv (s : State) (v : Mailbox) : (s.setMb v).rsv = s.rsv := rfl
@[simp] theorem State.setMb_log (s : State) (v : Mailbox) : (s.setMb v).log = s.log := rfl
@[simp] theorem State.setMb_flt (s : State) (v : Mailbox) : (s.setMb v).flt = s.flt := rfl
@[simp] theorem State.setMb_pmc (s : State) (v : Mailbox) : (s.setMb v).pmc = s.pmc := rfl
@[simp] theorem State.setMb_hdl (s : State) (v : Mailbox) : (s.setMb v).hdl = s.hdl := rfl
@[simp] theorem State.setMb_spd (s : State) (v : Mailbox) : (s.setMb v).spd = s.spd := rfl
@[simp] theorem State.setMb_sem (s : State) (v : Mailbox) : (s.setMb v).sem = s.sem := rfl
@[simp] theorem State.setMb_rte (s : State) (v : Mailbox) : (s.setMb v).rte = s.rte := rfl
@[simp] theorem State.setMb_lan (s : State) (v : Mailbox) : (s.setMb v).lan = s.lan := rfl
@[simp] theorem State.setMb_lnk (s : State) (v : Mailbox) : (s.setMb v).lnk = s.lnk := rfl
@[simp] theorem State.setMb_sec (s : State) (v : Mailbox) : (s.setMb v).sec = s.sec := rfl
@[simp] theorem State.setMb_csc (s : State) (v : Mailbox) : (s.setMb v).csc = s.csc := rfl
@[simp] theorem State.setMb_fmem (s : State) (v : Mailbox) : (s.setMb v).fmem = s.fmem := rfl
@[simp] theorem State.setMb_spdMem (s : State) (v : Mailbox) : (s.setMb v).spdMem = s.spdMem := rfl
@[simp] theorem State.setMb_hmem (s : State) (v : Mailbox) : (s.setMb v).hmem = s.hmem := rfl
@[simp] theorem State.setMb_flash (s : State) (v : Mailbox) : (s.setMb v).flash = s.flash := rfl

/-! ### setJtag -/

@[simp] theorem State.setJtag_pending (s : State) (v : Jtag) : (s.setJtag v).pending = s.pending := rfl
@[simp] theorem State.setJtag_now (s : State) (v : Jtag) : (s.setJtag v).now = s.now := rfl
@[simp] theorem State.setJtag_timAdj (s : State) (v : Jtag) : (s.setJtag v).timAdj = s.timAdj := rfl
@[simp] theorem State.setJtag_regs (s : State) (v : Jtag) : (s.setJtag v).regs = s.regs := rfl
@[simp] theorem State.setJtag_out (s : State) (v : Jtag) : (s.setJtag v).out = s.out := rfl
@[simp] theorem State.setJtag_delivered (s : State) (v : Jtag) : (s.setJtag v).delivered = s.delivered := rfl
@[simp] theorem State.setJtag_free (s : State) (v : Jtag) : (s.setJtag v).free = s.free := rfl
@[simp] theorem State.setJtag_waits (s : State) (v : Jtag) : (s.setJtag v).waits = s.waits := rfl
@[simp] theorem State.setJtag_hif (s : State) (v : Jtag) : (s.setJtag v).hif = s.hif := rfl
@[simp] theorem State.setJtag_ctxs (s : State) (v : Jtag) : (s.setJtag v).ctxs = s.ctxs := rfl
@[simp] theorem State.setJtag_handles (s : State) (v : Jtag) : (s.setJtag v).handles = s.handles := rfl
@[simp] theorem State.setJtag_xlt (s : State) (v : Jtag) : (s.setJtag v).xlt = s.xlt := rfl
@[simp] theorem State.setJtag_mat (s : State) (v : Jtag) : (s.setJtag v).mat = s.mat := rfl
@[simp] theorem State.setJtag_rma (s : State) (v : Jtag) : (s.setJtag v).rma = s.rma := rfl
@[simp] theorem State.setJtag_rsv (s : State) (v : Jtag) : (s.setJtag v).rsv = s.rsv := rfl
@[simp] theorem State.setJtag_log (s : State) (v : Jtag) : (s.setJtag v).log = s.log := rfl
@[simp] theorem State.setJtag_flt (s : State) (v : Jtag) : (s.setJtag v).flt = s.flt := rfl
@[simp] theorem State.setJtag_pmc (s : State) (v : Jtag) : (s.setJtag v).pmc = s.pmc := rfl
@[simp] theorem State.setJtag_hdl (s : State) (v : Jtag) : (s.setJtag v).hdl = s.hdl := rfl
@[simp] theorem State.setJtag_spd (s : State) (v : Jtag) : (s.setJtag v).spd = s.spd := rfl
@[simp] theorem State.setJtag_sem (s : State) (v : Jtag) : (s.setJtag v).sem = s.sem := rfl
@[simp] theorem State.setJtag_rte (s : State) (v : Jtag) : (s.setJtag v).rte = s.rte := rfl
@[simp] theorem State.setJtag_lan (s : State) (v : Jtag) : (s.setJtag v).lan = s.lan := rfl
@[simp] theorem State.setJtag_lnk (s : State) (v : Jtag) : (s.setJtag v).lnk = s.lnk := rfl
@[simp] theorem State.setJtag_sec (s : State) (v : Jtag) : (s.setJtag v).sec = s.sec := rfl
@[simp] theorem State.setJtag_csc (s : State) (v : Jtag) : (s.setJtag v).csc = s.csc := rfl
@[simp] theorem State.setJtag_fmem (s : State) (v : Jtag) : (s.setJtag v).fmem = s.fmem := rfl
@[simp] theorem State.setJtag_spdMem (s : State) (v : Jtag) : (s.setJtag v).spdMem = s.spdMem := rfl
@[simp] theorem State.setJtag_hmem (s : State) (v : Jtag) : (s.setJtag v).hmem = s.hmem := rfl
@[simp] theorem State.setJtag_flash (s : State) (v : Jtag) : (s.setJtag v).flash = s.flash := rfl

end Sys2Proof.Machine
end

