-- ==== Sys2Proof/Laws/Time.lean ====
section
/-!
SUPPORT. Laws of the clock: where it stands after time has passed, and what the passing of time leaves as it was.
-/
set_option Elab.async false
namespace Sys2Proof.Machine

/-- Counting up does not move the clock. -/
theorem State.countUp_now (s : State) (x : Nat × EvSel × Nat × Nat × Nat) : (s.countUp x).now = s.now :=
  (State.countUp_keeps (m := 1073741822) x (Keeps.refl s) rfl).same .now rfl

theorem State.countUps_now (s : State) (l : List (Nat × EvSel × Nat × Nat × Nat)) :
    (l.foldl State.countUp s).now = s.now := by
  induction l generalizing s with
  | nil => rfl
  | cons x l ih => rw [List.foldl_cons, ih, s.countUp_now]

/-- The clock moves on to the later of two times. -/
theorem State.clock_now (s : State) (t : Nat) : (s.clock t).now = max s.now t := by
  unfold State.clock
  extract_lets n adds p s1
  split
  · rfl
  · next h =>
    have : n = t / 500 - s.now / 500 := rfl
    rw [State.countUps_now]
    show t = max s.now t
    omega

theorem State.freeze_now (s : State) (t : Nat) : (s.freeze t).now = s.now :=
  (State.freeze_keeps (m := 1073741822) t (Keeps.refl s) rfl).same .now rfl

theorem foldl_min_le (l : List Nat) (t : Nat) : l.foldl min t ≤ t := by
  induction l generalizing t with
  | nil => exact Nat.le_refl t
  | cons x l ih => exact Nat.le_trans (ih _) (Nat.min_le_left _ _)

theorem State.nextStop_le (s : State) (t : Nat) : s.nextStop t ≤ t := foldl_min_le _ t

/-- Moving on stops at the time given, when that lies ahead. -/
theorem State.advanceBy_now (fuel : Nat) (s : State) (t : Nat) (h : s.now ≤ t) : (s.advanceBy t fuel).now = t := by
  induction fuel generalizing s with
  | zero =>
    show (s.clock t).now = t
    rw [State.clock_now]; omega
  | succ n ih =>
    have hu := s.nextStop_le t
    have hc : (s.clock (s.nextStop t)).now ≤ t := by rw [State.clock_now]; omega
    unfold State.advanceBy
    dsimp only
    have stop : ∀ v : State, v.now = max s.now (s.nextStop t) → ¬ s.nextStop t < t → v.now = t := by
      intro v e g; omega
    split
    · split
      · exact ih _ (by rw [State.freeze_now]; exact hc)
      · split
        · exact ih _ hc
        · next g => exact stop _ (State.clock_now ..) g
    · split
      · exact ih _ hc
      · next g => exact stop _ (State.clock_now ..) g

/-- Time has passed until the time given, or stands where it was when that is past. -/
theorem State.advance_now (s : State) (t : Nat) : (s.advance t).now = max s.now t := by
  unfold State.advance
  split
  · rw [State.advanceBy_now _ _ _ (by omega)]; omega
  · omega

/-- The passing of time changes the clock, registers, what has left, HIF and PMC at most. -/
theorem State.advance_same (s : State) (t : Nat) (p : Part) (h : p ∉ [Part.now, .regs, .out, .hif, .pmc]) :
    State.Same p s (s.advance t) :=
  (State.advance_keeps (m := 65677) t (Keeps.refl s) rfl).same p (by
    cases p <;> first | rfl | exact absurd (by decide) h)

end Sys2Proof.Machine
end

