-- ==== Sys2Proof/Machine/Package.lean ====
section
/-!
DEFINITION. The package: the balls of its signals and its supply rails (R470 to R472, R475).
-/
set_option Elab.async false
namespace Sys2Proof.Machine

/-- A ball: its row and its column. -/
structure Ball where
  row : Nat
  col : Nat
  deriving DecidableEq, Repr

/-- A ball of fabric lane `n`: signal 0 FTX_P, 1 FTX_N, 2 FRX_P, 3 FRX_N (R471). -/
def fabricBall (n i : Nat) : Ball :=
  let k := n % 144
  let r := 4 * (k / 54) + 1 + i
  ⟨if n < 144 then r else 117 - r, 5 + 2 * (k % 54)⟩

/-- A ball of lane `l` of host port `p`: signal 0 HTX_P, 1 HTX_N, 2 HRX_P, 3 HRX_N (R471). -/
def hostBall (p l i : Nat) : Ball :=
  let c := [1, 2, 4, 5].getD i 0
  ⟨15 + 22 * (p % 4) + l, if p < 4 then c else 117 - c⟩

/-- A ball of the reference clock of host port `p`: P, or N (R471). -/
def hostClockBall (p : Nat) (neg : Bool) : Ball :=
  ⟨24 + 22 * (p % 4), if p < 4 then 8 + b2n neg else 109 - b2n neg⟩

/-- The ball of slot signal `i` (R483) of sub-link `k` of host port `p` (R471). -/
def slotBall (p k i : Nat) : Ball := ⟨20 + 2 * (4 * p + k), 14 + i⟩

/-- A ball of the reference clock of fabric ports 36k to 36k + 35: P, or N (R471). -/
def fabricClockBall (k : Nat) (neg : Bool) : Ball := ⟨14, 46 + 3 * k + b2n neg⟩

/-- The remaining signals: a run of balls in one row, from its first column on (R471). -/
def otherBalls : List (Ball × List String) :=
  [(⟨14, 30⟩, ["PWRGOOD", "PWRFAIL_N", "PERST_N0", "PERST_N1", "PERST_N2", "PERST_N3", "PERST_N4", "PERST_N5", "PERST_N6",
      "PERST_N7"]),
    (⟨14, 42⟩, ["REFCLK_CORE_P", "REFCLK_CORE_N"]),
    (⟨103, 40⟩, ["I3C_SCL", "I3C_SDA", "ADDR_SEL0", "ADDR_SEL1"]),
    (⟨103, 46⟩, ["TCK", "TMS", "TDI", "TDO", "TRST_N"]),
    (⟨103, 53⟩, ["SPI_CLK", "SPI_CS_N", "SPI_DQS", "SPI_IO0", "SPI_IO1", "SPI_IO2", "SPI_IO3", "SPI_IO4", "SPI_IO5", "SPI_IO6",
      "SPI_IO7"]),
    (⟨103, 66⟩, ["EVENT0", "EVENT1", "EVENT2", "EVENT3"]),
    (⟨103, 72⟩, ["THERM_DP", "THERM_DN"])]

/-- A supply rail: its nominal voltage in mV, its tolerance in percent, its absolute maximum in mV, the typical and maximum
current in 100 mA, its balls, and its group of the power sequence (R472, R475). -/
structure Rail where
  name : String
  nominal : Nat
  tolerance : Nat
  limit : Nat
  typical : Nat
  maximum : Nat
  balls : Nat
  group : Nat
  deriving DecidableEq, Repr

/-- The 13 rails (R472, R475). -/
def rails : List Rail :=
  [⟨"VDD_CORE", 750, 3, 900, 3070, 3600, 2200, 2⟩, ⟨"VDD_SRAM", 850, 3, 1020, 282, 340, 240, 2⟩,
    ⟨"VDD_FSD", 850, 2, 1020, 2820, 3200, 1600, 3⟩, ⟨"VDDA_FSD", 1200, 2, 1440, 417, 460, 288, 3⟩,
    ⟨"VDD_HSD", 850, 2, 1020, 388, 450, 256, 3⟩, ⟨"VDDA_HSD", 1200, 2, 1440, 67, 80, 64, 3⟩,
    ⟨"VDD_HPHY", 750, 3, 900, 333, 400, 200, 2⟩, ⟨"VDDC_HBM", 1100, 3, 1320, 727, 840, 480, 4⟩,
    ⟨"VDDQ_HBM", 400, 5, 480, 600, 700, 400, 4⟩, ⟨"VPP_HBM", 1800, 5, 2100, 33, 40, 32, 4⟩,
    ⟨"VDD_PLL", 850, 2, 1020, 35, 40, 24, 2⟩, ⟨"VDD_IO", 1800, 5, 2100, 25, 30, 16, 1⟩,
    ⟨"VDD_AON", 750, 3, 900, 33, 40, 16, 1⟩]

/-- A voltage in mV lies within a rail's tolerance (R472, R474). -/
def Rail.inTolerance (r : Rail) (mv : Nat) : Bool :=
  r.nominal * (100 - r.tolerance) ≤ 100 * mv && 100 * mv ≤ r.nominal * (100 + r.tolerance)

end Sys2Proof.Machine
end

