-- ==== Sys2Proof/Tests/Slice0.lean ====
section
/-!
SUPPORT. The tests: for each check of WellFormed a term that it refuses, for each statement concrete states and operands that
meet its hypotheses clause by clause (`witness_<statement>`), and worked examples of the spec (`test_<what>`, with the rule).
-/
set_option Elab.async false
namespace Sys2Proof.Tests
open Machine

/-! ## Small states -/

/-- Every block out of setup. -/
def base : State := State.reset.setFld TOP_SETUP_DONE.done 0 0 (2 ^ 20 - 1)

/-- Host port 0 with its link up, its physical function and its first virtual function ready, its second in reset. -/
def linked : State :=
  let s := (base.setFlag HIF_PORT_STATUS.in_setup 0 0 false).setFld HIF_PORT_STATUS.sublink_up 0 0 1
  let s := s.setHport 0 { s.hport 0 with vfEnable := true, numVfs := 2 }
  let s := s.setFn 0 0 { FnState.init with ready := true }
  let s := s.setFn 0 1 { FnState.init with ready := true }
  s.setFn 0 2 { FnState.init with ready := true, flr := true }

/-- Host port 1 as a downstream port out of setup, with sub-links 0 and 1 powered. -/
def down : State :=
  let s := ((base.setFld HIF_PORT_CFG.mode 1 0 1).setFld HIF_PORT_CFG.bifurcation 1 0 1).setFlag HIF_PORT_STATUS.in_setup 1 0 false
  let s := s.setHport 1 { s.hport 1 with flit := false }
  let s := s.setSub 1 0 { SubState.init with powered := true, perst := false }
  s.setSub 1 1 { SubState.init with powered := true, perst := false }

/-- The device stopped (R386). -/
def halted : State := base.setFlag TOP_STOP.stopped 0 0 true

/-- A state of canonical data whose semaphores are all at reset is Ok. -/
theorem ok_of (s : State) (h : (s.fmem.wf && s.hmem.wf && s.spdMem.wf && s.flash.wf && SMap.wf resetWord s.regs &&
    SMap.wf (fun _ => CtxRec.init) s.ctxs) = true) (hs : s.sem.sems = []) : s.Ok := by
  simp only [Bool.and_eq_true] at h
  obtain ⟨⟨⟨⟨⟨h1, h2⟩, h3⟩, h4⟩, h5⟩, h6⟩ := h
  refine ⟨h1, h2, h3, h4, h5, h6, by rw [hs]; rfl, fun n => ?_⟩
  have : s.semOf n = Semaphore.init := by unfold State.semOf; rw [hs]; rfl
  rw [this]
  exact ⟨fun h => absurd h (by decide), fun w h => absurd h List.not_mem_nil, by decide, by decide⟩

/-- 64 bytes with the given values at the given byte offsets. -/
def bytes64 (fs : List (Nat × Nat)) : BitVec 512 := BitVec.ofNat 512 (fs.foldl (fun a f => a + f.2 * 256 ^ f.1) 0)

/-- An assigned handle. -/
def handle (c i : Nat) (d : Descriptor) : Handle :=
  ⟨c, i, d, .assigned, false, 0, false, false, 0, false, [], none, false, [], 0, .none, false, none, true⟩

/-- Context 1 open on port 0's physical function, rings of 16, one posted entry unconsumed, four descriptors to fetch. -/
def opened1 : CtxRec := { CtxRec.init with
  cfg := bytes64 [(16, 4), (17, 4), (20, 1000)], phase := .opened, tail := 4, post := 2, head := 1, cached := true }

def ring : State := linked.setCtx 1 opened1

/-- Context 1 with handles of these descriptors at its indices 0, 1, …, all fetched. -/
def holding (ds : List Descriptor) : State :=
  let s := ring.setCtx 1 { opened1 with fetch := ds.length }
  (ds.zipIdx).foldl (fun s d => s.setHandle (handle 1 d.2 d.1)) s

/-- A PUT of 64 bytes of fabric memory to node 1. -/
def putDesc : Descriptor := bytes64 [(0, 1), (4, 2 ^ 23 + 7), (10, 3), (16, 4096), (32, 64), (36, 2)]
def sendDesc : Descriptor := bytes64 [(0, 4), (4, 2 ^ 23 + 7), (16, 4096), (24, 64), (37, 2)]
def recvDesc : Descriptor := bytes64 [(0, 5), (16, 4096), (24, 64), (37, 2)]

/-! ## The general statements -/

theorem witness_StepRunsTheCommandInFront : ({ base with pending := [.hbmTrained, .hbmZeroed] } : State).pending =
    Instr.hbmTrained :: [.hbmZeroed] := rfl

theorem witness_IdleStepEndsTheCycle : base.pending = [] := by decide +kernel

theorem witness_StepKeepsTheInvariant : ({ base with pending := [.hbmTrained] } : State).Inv ∧
    (match step { base with pending := [.hbmTrained] } with | .next t => t.pending.isEmpty | _ => false) = true :=
  ⟨⟨ok_of _ (by decide) (by decide), by decide⟩, by decide⟩

theorem witness_RestAddsNothing : base.AtRest ∧ halted.frozen = true ∧ halted.Quiet ∧
    (base.hif.ds.isSome = true → halted.hif.ds.isSome = true) ∧ (base.rsvHeld = true → halted.rsvHeld = true) :=
  ⟨⟨rfl, rfl, by decide, rfl, by decide, rfl, rfl, by decide +kernel, fun x hx => absurd hx List.not_mem_nil, by decide⟩, by decide, ⟨rfl, rfl, by decide, rfl⟩,
    by decide, by decide⟩

theorem witness_CommandsChangeOnlyTheirParts : Part.now ∉ Instr.idcode.mayChange ∧
    Part.timAdj ∉ (Instr.putDataArrival ⟨0, []⟩).mayChange := by decide +kernel

theorem witness_WhatFollowsLeavesTimeLogLanesAndCode : linked.sec.resetWaits = false ∧ linked.rsv.held = [] ∧
    (base.hif.ds.isSome = true → linked.releaseHeld.hif.ds.isSome = true) ∧ (base.rsvHeld = true → linked.rsvHeld = true) := by
  decide +kernel

theorem witness_TheRegisterMapIsUnambiguous : (⟨.TOP_NODE_COORD, 0, 0⟩ : RegRef).inShape = true ∧
    (⟨.TOP_NODE_COORD, 0, 0⟩ : RegRef).live = true ∧ (⟨.PMC_EVSEL, 0, 511⟩ : RegRef).inShape = true ∧
    (⟨.FLT_COUNT, 0, 2047⟩ : RegRef).inShape = true ∧ (⟨.FLT_COUNT, 0, 2047⟩ : RegRef).live = true := by decide +kernel

theorem witness_takes_nodeCoord : base.Takes 0 ⟨.TOP_NODE_COORD, 0, 0⟩ ⟨.full, 0⟩ :=
  ⟨by decide, by decide, by decide, by decide, by decide, by decide, by decide, by decide, by decide⟩

theorem witness_RegisterCommandsWriteTheirRegister :
    base.regWriteOf (.nodeCoordWrite 0 ⟨.full, 0⟩) = some (0, ⟨.TOP_NODE_COORD, 0, 0⟩, ⟨.full, 0⟩) ∧
    base.Takes 0 ⟨.TOP_NODE_COORD, 0, 0⟩ ⟨.full, 0⟩ ∧
    (BitVec.ofNat 26 (RegRef.mk .TOP_NODE_COORD 0 0).off).toNat = wvalOff ⟨.TOP_NODE_COORD, 0, 0⟩ ⟨.full, 0⟩ ∧
    linked.vfThere 0 1 = true ∧ (linked.setFn 0 1 { linked.fn 0 1 with
      vfRegAddr := (RegRef.mk .TOP_NODE_COORD 0 0).off }).vfThere 0 1 = true ∧ ReqSize.w32 ≠ .w64 :=
  ⟨by decide, witness_takes_nodeCoord, by decide, by decide, by decide, by decide⟩

/-- A read or write of nothing at an offset. -/
def acc0 (m off : Nat) (size : ReqSize) (w : Option Word) : WaitAcc := ⟨m, off, size, w, none, 0⟩

theorem witness_UnmappedWritesAreLoggedAndCounted : (acc0 0 (2 ^ 26 - 8) .w64 (some 1)).reg = none ∧
    (base.rxBytes 0 8).blocked (acc0 0 (2 ^ 26 - 8) .w64 (some 1)) = false ∧ base.waits = [] ∧
    (acc0 0 4 .odd (some 1)).reg = none := by decide +kernel

/-- Port 0's first virtual function points its register window at `off`, and the window of HIF_VF_TBL_DATA at its vector 0. -/
def pointing (off : Nat) : State :=
  (linked.setFn 0 1 { linked.fn 0 1 with vfRegAddr := off }).setFld HIF_VF_TBL_ADDR.vf 0 0 1

theorem witness_ReadsReturnWhatTheRegisterShows :
    let s := pointing (RegRef.mk .TOP_NODE_COORD 0 0).off
    let a := acc0 (mHost 0 1) (RegRef.mk .TOP_NODE_COORD 0 0).off .w64 none
    s.vfThere 0 1 = true ∧ (s.fn 0 1).vfRegAddr % 8 = 0 ∧ s.blocked a = false ∧ s.waits = [] ∧
    regAt (s.fn 0 1).vfRegAddr = some ⟨.TOP_NODE_COORD, 0, 0⟩ ∧ (acc0 0 (2 ^ 26 - 8) .w64 none).reg = none ∧
    ReqSize.odd ≠ .w64 ∧ s.hif.ds = none ∧ (s.vfTblSel 0).isSome = true ∧ directMaster (0 : Master).toNat = true := by decide +kernel

/-! ## HIF -/

theorem witness_HostLinksTrainAndSettle :
    (let s := linked.setHport 0 { linked.hport 0 with training := true, flit := true }
     s.linkFits 0 16 6 = true ∧ s.linkFits 0 1 1 = true ∧ s.endpoint 0 = true ∧ (s.hport 0).training = true ∧
      ((s.hport 0).flit && decide (6 < 6)) = false ∧ ((s.hport 0).flit && decide (1 < 6)) = true) ∧
    (down.linkFits 1 8 6 = false ∧ down.linkFits 1 8 5 = true ∧ down.dllMay 1 0 = true ∧ down.dllMay 1 1 = true ∧
      ((down.hport 1).flit && decide (5 < 6)) = false ∧
      ((down.setHport 1 { down.hport 1 with flit := true }).hport 1).flit = true) ∧
    (let s := linked.setHport 0 { linked.hport 0 with perst := true }
     (s.hport 0).perst = true ∧ s.flag HIF_PORT_STATUS.in_setup 0 0 = false ∧ s.endpoint 0 = true) ∧
    (let s := base.setHport 0 { base.hport 0 with perst := true }
     (s.hport 0).perst = true ∧ s.flag HIF_PORT_STATUS.in_setup 0 0 = true) ∧
    (linked.endpoint 0 = true ∧ (linked.hport 0).perst = false ∧ (linked.fn 0 0).flr = false ∧
      ((linked.setFn 0 0 { linked.fn 0 0 with flr := true }).fn 0 0).flr = true) := by decide +kernel

theorem witness_PortResetsReturnThePortToSetup : linked.endpoint 0 = true ∧
    linked.fld HIF_PORT_STATUS.sublink_up 0 0 ≠ 0 ∧ (linked.hport 0).perst = false ∧ linked.Ok :=
  ⟨by decide, by decide, by decide, ok_of _ (by decide) (by decide)⟩

theorem witness_FunctionResetsRunTheirSteps :
    linked.fnAnswers 0 0 = true ∧ linked.fnAnswers 0 1 = true ∧ (1 : Fn) ≠ 0 ∧ (linked.fn 0 2).flr = true ∧
    ((linked.setFn 0 0 { FnState.init with flr := true }).fn 0 0).flr = true ∧
    (let s : State := { linked with sec := { linked.sec with step := 10 } }
     let s := s.setFn 0 1 FnState.init
     s.sec.step ≠ 0 ∧ s.fnExists 0 1 = true ∧ (s.hport 0).perst = false ∧ (s.fn 0 1).ready = false) := by decide +kernel

theorem witness_ConfigurationRequestsReachTheirFunction :
    linked.fnExists 0 3 = false ∧ linked.fnExists 0 2 = true ∧ linked.fnAnswers 0 2 = false ∧
    linked.fld HIF_PORT_STATUS.sublink_up 0 0 ≠ 0 ∧ linked.fnAnswers 0 0 = true ∧ linked.fnAnswers 0 1 = true ∧
    (let s := linked.setHport 0 { linked.hport 0 with vfEnable := false, numVfs := 0 }
     s.fnAnswers 0 0 = true ∧ (s.hport 0).vfEnable = false) := by decide +kernel

theorem witness_InterruptsGoByMessageOrWire :
    linked.fnAnswers 0 0 = true ∧ (linked.fn 0 0).intxDis ≠ true ∧ (linked.fn 0 0).msixEn ≠ true ∧
    linked.fnAnswers 0 1 = true ∧ (linked.fn 0 1).msixEn ≠ true ∧
    (let s := (linked.setFn 0 0 { linked.fn 0 0 with msixEn := true }).setFn 0 1 { linked.fn 0 1 with msixEn := true }
     s.fnAnswers 0 0 = true ∧ (s.fn 0 0).msixEn ≠ false ∧ s.fnAnswers 0 1 = true ∧ (s.fn 0 1).msixEn ≠ false ∧
      (s.fn 0 0).flr = false ∧ s.msixMasked 0 0 2047 = true ∧ s.msixMasked 0 1 0 = true ∧
      (s.setFn 0 1 { s.fn 0 1 with tbl := [(1, 1), (3, 0)] }).msixMasked 0 1 1 = false) ∧
    (linked.fn 0 2).flr = true := by decide +kernel

theorem witness_SlotsFollowTheirDevices :
    ((down.setSub 1 0 { SubState.init with powered := true, offBy := some 1000000000 }).sub 1 0).offBy = some 1000000000 ∧
    (let s := down.setSub 1 0 { SubState.init with powered := true, onAt := 5 }
     (s.sub 1 0).powered = true ∧ (s.sub 1 0).perst = true ∧ (s.sub 1 0).offBy = none ∧
      (s.setFlag HIF_DS_SLOT_CTL.pwr_ctl 1 0 false).flag HIF_DS_SLOT_CTL.pwr_ctl 1 0 = false) ∧
    (down.endpoint 1 = false ∧ down.subExists 1 1 = true ∧ down.subExists 1 2 = false ∧
      down.flag HIF_DS_SLOT_STATUS.pres_state 1 1 ≠ true ∧
      (down.setFlag HIF_DS_SLOT_STATUS.pres_state 1 1 true).flag HIF_DS_SLOT_STATUS.pres_state 1 1 ≠ false) ∧
    (down.flag HIF_DS_SLOT_STATUS.dll_active 1 1 ≠ true ∧ down.dllMay 1 1 = true ∧ down.linkFits 1 8 5 = true ∧
      (down.setFlag HIF_DS_SLOT_STATUS.dll_active 1 1 true).flag HIF_DS_SLOT_STATUS.dll_active 1 1 ≠ false) ∧
    down.flag HIF_DS_SLOT_STATUS.attn_btn 1 0 = false := by decide +kernel

/-- A read of the configuration of sub-link 0 of port 1 that is outstanding; and one of its memory. -/
def dsWaits (mem : Bool) : State :=
  let a := acc0 0 (RegRef.mk (if mem then .HIF_DS_MEM_DATA else .HIF_DS_CFG_DATA) 1 0).off .w64 none
  { down with hif := { down.hif with ds := some ⟨a, 1, 0, if mem then .memRead else .cfgRead, 0⟩ } }

theorem witness_DownstreamAccessesIssueAndEnd :
    down.hif.ds = none ∧ down.waits = [] ∧ down.stopped = false ∧ down.fld SEC_BOOT_STATUS.state 0 0 ≠ 3 ∧
    (down.rxBytes 0 8).logStall (WVal.access ⟨.full, 1⟩ 0 ⟨.HIF_DS_CFG_DATA, 1, 0⟩ 0) = false ∧ AccSize.full ≠ .hi ∧
    (down.setFlag HIF_DS_SLOT_STATUS.removed 1 0 true).flag HIF_DS_SLOT_STATUS.removed 1 0 = true ∧
    (down.flag HIF_DS_SLOT_STATUS.removed 1 0 = false ∧ down.flag HIF_DS_SLOT_STATUS.dll_active 1 0 = false) ∧
    (let s := down.setFlag HIF_DS_SLOT_STATUS.dll_active 1 0 true
     s.flag HIF_DS_SLOT_STATUS.removed 1 0 = false ∧ s.flag HIF_DS_SLOT_STATUS.dll_active 1 0 = true) ∧
    ((dsWaits false).hif.ds.map fun d => (d.p, d.s, d.kind.isCfg)) = some (1, 0, true) ∧
    ((dsWaits true).hif.ds.map fun d => (d.p, d.s, d.kind.isCfg)) = some (1, 0, false) ∧
    (∀ x, DsResult.abort ≠ .ok x) ∧ DsResult.abort ≠ .poisoned ∧ directMaster (0 : Master).toNat = true := ⟨by decide, by decide, by decide, by decide, by decide, by decide, by decide, by decide,
      by decide, by decide, by decide, by intros; simp, by simp, by decide⟩

theorem witness_HostReadsEndWithDataOrByTimeout :
    let s : State := { linked with hif := { linked.hif with
      reads := [(0, ⟨0, 0, 7, 0, 4, false⟩), (1, ⟨0, 0, 8, 0, 4, false⟩)], gathers := [(7, ⟨.pullServe ⟨0, []⟩, [none]⟩)]
      others := [(2, ⟨0, 0, .descriptors 5⟩)] } }
    (SMap.find? s.hif.reads 0).map (fun r => (r.p, r.len, r.gather)) = some (0, ([1, 2, 3, 4] : List Byte).length, 7) ∧
    (SMap.find? s.hif.gathers 7).isSome = true ∧ SMap.find? s.hif.gathers 8 = none ∧ SMap.find? s.hif.reads 2 = none ∧
    (SMap.find? s.hif.others 2).map (fun r => (r.p, decide (r.use = .descriptors 5))) = some (0, true) := by decide +kernel

/-! ## CMD, CTX and XLT -/

theorem witness_IdentifiersRoundTrip : 47 < 48 ∧ 110591 < 110592 ∧ 7 < 8 ∧ 2 ^ 20 - 1 < 2 ^ 20 ∧ 16 ≤ 16 ∧ 2 ^ 16 - 1 < 2 ^ 16 ∧
    256 < 2 ^ 18 := by decide +kernel

theorem witness_CompletionEntriesHaveTheirLayout : 2 ^ 64 - 1 < 2 ^ 64 ∧ 255 < 256 ∧ 2 ^ 32 - 1 < 2 ^ 32 := by decide +kernel

/-- A doorbell of context 1 finds it open. -/
theorem ring_open : let r := ring.ctx (ring.pageCtx (.ctx 1))
    ring.stopped = false ∧ ring.inSetup 2 = false ∧ r.phase = .opened ∧ (ring.fn r.port r.func).flr = false ∧
    r.inlineWait = [] := by decide +kernel

theorem witness_DoorbellsMoveTheirCounts :
    let r := ring.ctx (ring.pageCtx (.ctx 1))
    let d (v : Nat) := (v % 2 ^ 32 + 2 ^ 32 - r.tail) % 2 ^ 32
    (d 4 = 0 ∧ 0 < d 5 ∧ d 20 = 2 ^ r.drLog2 ∧ 2 ^ r.drLog2 < d 21 ∧ d 21 ≤ 2 ^ 31 ∧ d (2 ^ 31 + 4) = 2 ^ 31 ∧
      2 ^ 31 < d (2 ^ 31 + 5) ∧ bitOf 1 0 = true ∧ r.post ≠ r.head) ∧
    (let s := ring.setCtx 1 { opened1 with head := 2 }
     (s.ctx 1).post = (s.ctx 1).head) ∧
    (halted.stopped = true) ∧
    (let s := linked.setCtx 1 { opened1 with cfg := bytes64 [(16, 4), (17, 4), (33, 2)] }
     (s.ctx 1).phase ≠ .closed ∧ (s.fn (s.ctx 1).port (s.ctx 1).func).flr = true ∧ s.stopped = false) ∧
    (let s := linked.setFn 0 2 { FnState.init with flr := true, flrCtxs := [1] }
     let s := s.setCtx 1 { CtxRec.init with cfg := bytes64 [(16, 4), (17, 4), (33, 2)] }
     (s.ctx 1).phase = .closed ∧ (s.fn (s.ctx 1).port (s.ctx 1).func).flr = true ∧ s.pageCtx (.ctx 1) = 1 ∧
      1 ∈ (s.fn (s.ctx 1).port (s.ctx 1).func).flrCtxs) ∧
    (State.reset.inSetup 2 = true ∧ (State.reset.fn (State.reset.ctx 1).port (State.reset.ctx 1).func).flr = false ∧
      State.reset.stopped = false) ∧
    (base.inSetup 2 = false ∧ (base.ctx 1).phase ≠ .opened) := by decide +kernel

theorem witness_CqHeadMovesWithinThePostedEntries :
    let r := ring.ctx 1
    let e (v : Nat) := (v % 2 ^ 32 + 2 ^ 32 - r.head) % 2 ^ 32
    let n := (r.post + 2 ^ 32 - r.head) % 2 ^ 32
    e 1 ≤ n ∧ e 2 ≤ n ∧ n < e 3 ∧ n < e 0 := by decide +kernel

theorem witness_InlineDoorbellsTakeTheFastPath :
    (let s := (ring.setCtx 1 { opened1 with fetch := 4, head := 2 }).setFlag CMD_CTL.inline_en 0 0 true
     let u := (s.rxBytes 0 64).pmcEv 2 1 1 0 1
     (s.ctx 1).cached = true ∧ u.flag CMD_CTL.inline_en 0 0 = true ∧ (s.ctx 1).fetch = (s.ctx 1).tail ∧ u.cmdRuns = true ∧
      u.holdCauseAt 1 (s.ctx 1).tail 0 = 0) ∧
    ((ring.ctx 1).cached = true ∧ (ring.ctx 1).fetch ≠ (ring.ctx 1).tail) ∧
    (let s := ring.setCtx 1 { opened1 with cached := false, inlineWait := [0] }
     (s.ctx 1).cached = false ∧ (s.ctx 1).phase ≠ .closed ∧ (s.ctx 1).inlineWait ≠ []) := by decide +kernel

theorem witness_DescriptorsAreFetchedAndAssigned :
    (ring.cmdRuns = true ∧ (ring.ctx 1).fetching = none ∧ (ring.ctx 1).phase = .opened ∧ ring.fetchCount 1 ≠ 0) ∧
    (let s := ring.setCtx 1 { opened1 with fetching := some (0, 4, 7) }
     let s : State := { s with hif := { s.hif with others := [(7, ⟨0, 0, .descriptors 1⟩)] } }
     (s.ctx 1).fetching = some (0, 4, 7) ∧ s.frozen = false ∧ (s.ctx 1).phase = .opened ∧ s.descRead 1 = some 7 ∧
      s.descRead 2 ≠ some 7) ∧
    (let s := ring.setCtx 1 { opened1 with fetching := some (0, 4, 7), phase := .draining }
     (s.ctx 1).fetching = some (0, 4, 7) ∧ s.frozen = false ∧ (s.ctx 1).phase ≠ .opened) ∧
    ring.waitingTrig 1 0 = none ∧ descCheck putDesc = none ∧ descCheck (bytes64 [(0, 12)]) = some (0x15, 1) ∧
    descCheck (bytes64 [(0, 0), (63, 1)]) = some (0x15, 2) ∧ descCheck (bytes64 [(0, 0), (1, 0x18)]) = some (0x15, 3) ∧
    descCheck (bytes64 [(0, 0), (1, 4)]) = some (0x15, 4) ∧
    descCheck (bytes64 [(0, 1), (32, 17), (36, 3)]) = some (0x13, 0) := by decide +kernel

/-- The first handle of a state as `holding` makes it is the next to be dispatched. -/
def dispatches (ds : List Descriptor) : Bool :=
  match (holding ds).handle? ⟨1, 0⟩ with
  | some h => (holding ds).dispatchable h
  | none => false

/-- The state that the dispatch finds, and its first handle. -/
def found (ds : List Descriptor) : State := ((holding ds).ctxUse 1).stampFirst 1 (handleKey ⟨1, 0⟩) 4

theorem witness_DescriptorsGoToTheirBlock :
    (dispatches [putDesc] = true ∧ (found [putDesc]).inSetup 6 = false ∧ (found [putDesc]).localRefusal (handle 1 0 putDesc) = none ∧
      dOpcode putDesc = 1) ∧
    (let d := bytes64 [(0, 1), (16, 2 ^ 60), (32, 64), (36, 2)]
     dispatches [d] = true ∧ (found [d]).localRefusal (handle 1 0 d) = some (0x13, 6)) ∧
    (let s := (holding [putDesc]).setFld TOP_SETUP_DONE.done 0 0 0
     let u := (s.ctxUse 1).stampFirst 1 (handleKey ⟨1, 0⟩) 4
     s.dispatchable (handle 1 0 putDesc) = true ∧ u.inSetup (blockOf 1) = true) ∧
    (dispatches [0] = true ∧ dOpcode 0 = 0 ∧ (found [0]).lcntBad (handle 1 0 0) = false) ∧
    (let d := bytes64 [(0, 0), (1, 0x40)]
     dispatches [d] = true ∧ dOpcode d = 0 ∧ (found [d]).lcntBad (handle 1 0 d) = true) ∧
    (let d := bytes64 [(0, 8), (9, 1)]
     dispatches [d] = true ∧ dOpcode d = 8 ∧ dSub d = 1 ∧ (found [d]).lcntBad (handle 1 0 d) = false) ∧
    (dispatches [sendDesc] = true ∧ dOpcode sendDesc = 4 ∧ (found [sendDesc]).inSetup 5 = false ∧
      (found [sendDesc]).sendRefusal (handle 1 0 sendDesc) = none ∧ (handle 1 0 sendDesc).msnOk = false ∧
      (found [sendDesc]).peerRoom 1 (dTarget sendDesc) = true) ∧
    (let d := bytes64 [(0, 4), (16, 2 ^ 60), (24, 64), (37, 2)]
     dispatches [d] = true ∧ (found [d]).sendRefusal (handle 1 0 d) = some (0x13, 6)) ∧
    (dispatches [recvDesc] = true ∧ dOpcode recvDesc = 5 ∧ (found [recvDesc]).recvRefusal (handle 1 0 recvDesc) = none ∧
      ((found [recvDesc]).ctx 1).recvHeld = false) ∧
    (let d := bytes64 [(0, 6)]
     dispatches [d] = true ∧ dOpcode d = 6 ∧ (found [d]).lcntBad (handle 1 0 d) = false) := by decide +kernel

theorem witness_DescriptorsGoToTheirBlock_rest :
    (let d := bytes64 [(0, 7), (9, 6)]
     let u := found [d]
     dispatches [d] = true ∧ dOpcode d = 7 ∧ dSub d = 6 ∧ u.inSetup 7 = false ∧ u.collRefusal (handle 1 0 d) = none ∧ u.csc.wait = [] ∧
      u.collRoom (u.newInst (handle 1 0 d)) = true) ∧
    (let d := bytes64 [(0, 7), (9, 6), (38, 1)]
     dispatches [d] = true ∧ (found [d]).collRefusal (handle 1 0 d) = some (0x18, 3)) ∧
    (let d := bytes64 [(0, 9), (9, 1), (24, 5), (32, 0)]
     let s := (holding [d]).setCtr 0 { (holding [d]).ctr 0 with enable := true, owner := 1 }
     let u := (s.ctxUse 1).stampFirst 1 (handleKey ⟨1, 0⟩) 4
     s.dispatchable (handle 1 0 d) = true ∧ dOpcode d = 9 ∧ u.inSetup 6 = false ∧ u.ctrOk (dCounter d) 1 = true ∧
      u.lcntBad (handle 1 0 d) = false ∧ dSub d % 2 = 1 ∧ dSub (bytes64 [(0, 9), (9, 0)]) % 2 = 0) ∧
    (let d := bytes64 [(0, 10), (16, 1)]
     let u := found [d, putDesc]
     dispatches [d, putDesc] = true ∧ dOpcode d = 10 ∧ (u.handle? ⟨1, 1⟩).isSome = true ∧ dGateable putDesc = true ∧
      dispatches [d, 0] = true ∧ dGateable 0 = false ∧ dispatches [d] = true ∧ (found [d]).handle? ⟨1, 1⟩ = none ∧
      ((found [d]).ctx 1).fetch = 1) := by decide +kernel

theorem witness_ContextAndWindowEventsEndWhatWaits :
    (let s := linked.setCtx 1 { opened1 with phase := .draining }
     (s.ctx 1).phase = .draining ∧ s.outstanding 1 = 0 ∧ s.anyPinned 1 = false) ∧
    (let s := base.setWin 65535 { WinEntry.init with queued := some WinImage.init }
     (s.win 65535).queued = some WinImage.init ∧ (s.win 65535).pins (!(s.win 65535).active) = 0) ∧
    (let v : OpRec := ⟨1, 9, 0, .active, 0, false, false, 0, 0, 0, 0, 2, [0], 0, 0, 0, false, 0, [], 0, 0, 0⟩
     let s : State := { base with rma := { base.rma with ops := [v] } }
     s.frozen = false ∧ s.op? 1 9 0 = some v ∧ v.pinned = true) ∧
    (let s : State := { base with xlt := { base.xlt with loader := ⟨true, 0, 0, 16, 2⟩ } }
     s.frozen = false ∧ s.xlt.loader.running = true ∧ s.logFull = false ∧
      s.fld XLT_LOAD_STATUS.loaded 0 0 + 1 ≠ s.xlt.loader.count ∧
      (s.setFld XLT_LOAD_STATUS.loaded 0 0 1).fld XLT_LOAD_STATUS.loaded 0 0 + 1 = s.xlt.loader.count) ∧
    (∀ e ∈ base.hif.reads, e.2.sync = false) := by decide +kernel

theorem witness_FabricMemoryIsReadAndWrittenThroughItsAperture :
    linked.Ok ∧ linked.endpoint 0 = true ∧ linked.stopped = false ∧ halted.stopped = true ∧ halted.endpoint 0 = true ∧
    linked.fmemSize - 4 + ([1, 2, 3, 4] : List Byte).length ≤ linked.fmemSize ∧ linked.fmemSize < linked.fmemSize - 3 + 4 ∧
    linked.hbmBad (linked.hbmAddr 64) 8 = false ∧
    (let s : State := { linked with pwr := { linked.pwr with hbmBad := [linked.hbmAddr 64 / 8] } }
     s.hbmBad (s.hbmAddr 64) 8 = true) :=
  ⟨ok_of _ (by decide) (by decide), by decide +kernel⟩

/-! ## MAT -/

/-- A packet of context 7 of node 1 to context 1. -/
def pkt (ptype kind : Nat) (bs : List Byte) : Packet := ⟨mkHdr 0 1 1 7 0 1 0 ptype 0 0 bs.length kind, bs⟩

/-- A MAT packet of a kind for a handle. -/
def matPkt (mop osn handle aux : Nat) (bs : List Byte) : Packet := pkt 7 (kindMat osn 0 mop handle aux) bs

/-- An eager SEND packet of 64 bytes with message number `msn`. -/
def sendPkt (osn msn : Nat) : Packet := matPkt 0 osn 77 0 (mkExt 0 0 0 0 msn 64 0 77 ++ List.replicate 64 1)

/-- The source of those packets. -/
def peer1 : Nat := 2 ^ 23 + 7

/-- A peer record of context 1 with that source, its floor at 10. -/
def peered : State := ring.putPeer ⟨1, peer1, 10, true, 0, 0, 0, false, 0⟩

/-- Context 1 with an active SEND at index 0. -/
def sending (h : Handle) : State := (holding [sendDesc]).setHandle { h with phase := .active }

def sent0 : Handle := { handle 1 0 sendDesc with phase := .active }

/-- The handle value of that SEND. -/
def hword : Nat := ring.handleWord sent0

/-- A bound receive of context 1, index 3, that pulls 4,097 bytes from that source into fabric memory. -/
def bound1 : Bound := ⟨1, 3, peer1, 0, 99, 0, 0, 4097, 8192, 2, 4096, 0, 0, true, 1, [], 0, 0, some 0, [], false, 0, [], false⟩

def pulling (b : Bound) : State := { ring with mat := { ring.mat with bound := [b] } }

/-- Context 1 with one posted receive in the store. -/
def posted : State := { ring with mat := { ring.mat with store := [(0, recvEntry (handle 1 3 recvDesc))] } }

/-- A PUT data packet to node `n` on VC1. -/
def toNode (n : Nat) : Packet := ⟨mkHdr n 0 1 7 0 1 0 0 0 0 8 (kindReq 5 0 0 5 0 true false 0 8), List.replicate 8 0⟩

/-- Context 1 with every place for answers of the block of an answer taken. -/
def crowded (q : Packet) (b : Nat) : State :=
  { ring with rte := { ring.rte with pkts := List.replicate (Config.answerSlots b + 1) ⟨0, q, none, 1, 1, 0, 0, .held 0, none⟩ } }

/-- A request then finds no room for its answer (R243). -/
theorem crowded_full (p q : Packet) (b : Nat) (h : answerOf q = some b) (hp : requestTo p = some b) :
    ((crowded q b).takeDelivered p).answerFull p = some b := by
  have h0 : ((crowded q b).takeDelivered p).rte.pkts = (crowded q b).rte.pkts := by
    rfl
  unfold State.answerFull State.answerRoom State.answersWaiting
  rw [hp, h0]
  simp [crowded, List.filter_replicate, h]

theorem witness_MatchingTakesTheOldestThatMatches :
    (posted.bestReceive (msgOf (sendPkt 0 0))).isSome = true ∧ ring.bestReceive (msgOf (sendPkt 0 0)) = none ∧
    ring.firstMessage (recvEntry (handle 1 3 recvDesc)) = none ∧
    (let s : State := { ring with mat := { ring.mat with store := [(0, msgOf (sendPkt 0 0))] } }
     (s.firstMessage (recvEntry (handle 1 3 recvDesc))).isSome = true) ∧
    (3 < 4 ∧ matKey 3 1 2 3 4 0 0 = matKey 3 1 2 5 6 0 0) := by decide +kernel

theorem witness_MessagePacketsAreAdmittedAndMatched :
    let u := (ring.takeDelivered (sendPkt 5 0)).ctxUse 1
    pDstNode (sendPkt 5 0) = ring.node ∧ pDstNode (toNode 1) ≠ ring.node ∧ pDstCtx (sendPkt 5 0) = 1 ∧
    (ring.takeDelivered (sendPkt 5 0)).answerFull (sendPkt 5 0) = none ∧
    answerOf (matPkt 3 0 0 0 []) = some 5 ∧ requestTo (sendPkt 5 0) = some 5 ∧ requestTo (matPkt 4 0 0 0 []) = some 5 ∧
    isMat (sendPkt 5 0) [0] = true ∧ isMat (matPkt 1 5 77 0 (mkExt 0 0 0 0 0 64 0 77)) [1] = true ∧
    (halted.takeDelivered (sendPkt 5 0)).frozen = true ∧ u.frozen = false ∧ u.rsv.quarantineEnd = none ∧
    (({ ring with rsv := { ring.rsv with quarantineEnd := some 5 } } : State).takeDelivered (sendPkt 5 0)).rsv.quarantineEnd.isSome =
      true ∧
    (State.reset.takeDelivered (sendPkt 5 0)).inSetup 5 = true ∧
    (u.inSetup 5 || u.inSetup 6 || u.rsvHeld || (u.ctx (pDstCtx (sendPkt 5 0))).awaiting) = false ∧
    (base.classify (sendPkt 5 0)).1 = .refuse 0x12 0x01 ∧ (peered.classify (sendPkt 5 0)).1 = .retired ∧
    (peered.classify (sendPkt 65545 0)).1 = .pass ∧ (u.classify (sendPkt 5 0)).1 = .pass ∧
    (u.classify (sendPkt 5 0)).2.msnDist (sendPkt 5 65535) < 65536 ∧
    65536 ≤ (u.classify (sendPkt 5 0)).2.msnDist (sendPkt 5 65536) ∧
    (ring.mat.events = [] ∧ ring.needsFirmware (.packet (sendPkt 5 0)) = false ∧ (MatEvent.post ⟨1, 3⟩).ctx = 1) ∧
    (let s : State := { ring with mat := { ring.mat with events := [(1, .post ⟨1, 3⟩)] } }
     s.fld SEC_UPDATE_STATUS.state 0 0 ≠ 3 ∧ s.mat.events.find? (fun x => x.1 == 1) = some (1, .post ⟨1, 3⟩)) := by
  decide +kernel

/-- With every place of a bucket and of the overflow area taken no peer record can be made (R175). -/
theorem no_peer_room (n c remote : Nat) (s : State) (hn : 2 ^ 23 ≤ n) (hs : s.rma.peers =
    List.replicate n ⟨2, 0, 0, true, 0, 0, 0, false, 2 ^ 24⟩ ++ List.replicate 8 ⟨2, 0, 0, true, 0, 0, 0, false, 8 * peerBucket c remote⟩) :
    s.peerRoom c remote = false := by
  have hb : peerBucket c remote < 2 ^ 21 := Nat.mod_lt _ (by decide)
  have h1 : (2 ^ 24 / 8 == peerBucket c remote) = false := beq_eq_false_iff_ne.2 (by omega)
  have h2 : (8 * peerBucket c remote / 8 == peerBucket c remote) = true := beq_iff_eq.2 (by omega)
  have h3 : decide (2 ^ 24 ≤ 8 * peerBucket c remote) = false := decide_eq_false (by omega)
  unfold State.peerRoom State.bucketUsed State.peerOvf
  rw [hs]
  simp only [List.filter_append, List.filter_replicate, h1, h2, h3, List.length_map, List.length_append, if_true,
    Bool.false_eq_true, if_false, List.length_nil, List.length_replicate]
  simp
  omega

/-- With no place for its peer record a packet of an unknown source is refused busy. -/
theorem witness_MessagePacketsAreAdmittedAndMatched_busy :
    let ps : List Peer := List.replicate (2 ^ 23) ⟨2, 0, 0, true, 0, 0, 0, false, 2 ^ 24⟩ ++
      List.replicate 8 ⟨2, 0, 0, true, 0, 0, 0, false, 8 * peerBucket 1 peer1⟩
    let s : State := { ring with rma := { ring.rma with peers := ps } }
    s.classify (sendPkt 5 0) = (.busy, s) := by
  intro ps s
  have hc : pDstCtx (sendPkt 5 0) = 1 := by decide +kernel
  have hr : pSrcEp (sendPkt 5 0) = peer1 := by decide +kernel
  have hp : s.peer? 1 peer1 = none := by
    refine List.find?_eq_none.2 fun v hv => ?_
    rcases List.mem_append.1 hv with h | h <;> rw [List.eq_of_mem_replicate h] <;> decide +kernel
  have ho : s.isOpen 1 = true := by decide +kernel
  have hm := no_peer_room (2 ^ 23) 1 peer1 s (Nat.le_refl _) rfl
  unfold State.classify
  simp [hc, hr, hp, ho, hm]

theorem witness_SendsEndByTheAnswersOfTheirPeer :
    let u (h : Handle) (p : Packet) := (sending h).takeDelivered p
    let p := matPkt 2 0 hword 0 []
    (u sent0 p).frozen = false ∧ isMat p [2] = true ∧ (u sent0 p).sendOf p = some sent0 ∧
    (ring.takeDelivered p).sendOf p = none ∧ pAux p ∉ sent0.got ∧ pAux p ∈ ({ sent0 with got := [0] } : Handle).got ∧
    (let h' : Handle := { sent0 with got := [pAux p] }
     let v := ((u sent0 p).stampAnswer sent0).setHandle h'
     sent0.eager = true ∧ v.sendOffsets h' = [] ∧ ({ sent0 with eager := false } : Handle).eager = false) ∧
    (isMat (matPkt 6 0 hword 64 []) [6] = true ∧ (u sent0 (matPkt 6 0 hword 64 [])).sendOf (matPkt 6 0 hword 64 []) = some sent0 ∧
      sent0.fin = none) ∧
    (let w := u { sent0 with wd := .sent } (matPkt 3 0 hword 1 [])
     isMat (matPkt 3 0 hword 1 []) [3] = true ∧ pAux (matPkt 3 0 hword 1 []) % 2 = 1 ∧ pAux (matPkt 3 0 hword 0 []) % 2 = 0 ∧
      w.sendOf (matPkt 3 0 hword 1 []) = some { sent0 with wd := .sent } ∧
      ({ sent0 with fin := some (0x10, 0, 5) } : Handle).fin = some (0x10, 0, 5) ∧ sent0.wd ≠ .sent) ∧
    ({ sent0 with fin := some (0x13, 1, 5) } : Handle).fin = some (0x13, 1, 5) ∧
    pDstNode p = (sending sent0).node ∧
    (let p := matPkt 7 0 hword (2 ^ 16) []
     isMat p [7] = true ∧ (u sent0 p).pullOf p = none ∧ (u sent0 p).sendOf p = some sent0 ∧ bitOf (pAux p) 16 = true ∧
      bitOf (pAux (matPkt 7 0 hword 0x112 [])) 16 = false) ∧ sent0.wd = .none := by decide +kernel

theorem witness_PullsMoveTheBytesOfALongMessage :
    (let p := matPkt 4 0 hword 0 []
     let u := (sending sent0).takeDelivered p
     isMat p [4] = true ∧ u.frozen = false ∧ u.rsv.quarantineEnd = none ∧ u.sendOf p = some sent0 ∧ ring.sendOf p = none ∧
      (match u.places 1 (dKind sendDesc) (dAddr sendDesc + pAux p) (pFdelta p + 1) false with
        | .ok ps => u.placesCheck ps false == none
        | .error _ => false) = true) ∧
    (let h : Handle := { sent0 with desc := bytes64 [(0, 4), (16, 2 ^ 60), (24, 64), (37, 2)] }
     let p := matPkt 4 0 (ring.handleWord h) 0 []
     let u := (sending h).takeDelivered p
     u.sendOf p = some h ∧
      (match u.places 1 (dKind h.desc) (dAddr h.desc + pAux p) (pFdelta p + 1) false with | .error _ => true | _ => false) = true) ∧
    (let p := matPkt 5 0 99 4096 [1]
     let u := (pulling bound1).takeDelivered p
     isMat p [5] = true ∧ u.pullOf p = some bound1 ∧ ring.pullOf p = none ∧ pAux p ∈ bound1.unpulled ∧
      u.pagesBusy (u.pages 1 2 (bound1.addr + pAux p) 1 true) = false ∧
      pAux p ∉ ({ bound1 with pulled := [4096] } : Bound).unpulled) ∧
    (let p := matPkt 7 0 99 0x0712 []
     isMat p [7] = true ∧ (pulling bound1).pullOf p = some bound1 ∧ bitOf (pAux p) 16 = false ∧ bitsOf (pAux p) 7 0 = 0x12 ∧
      bitsOf (pAux (matPkt 7 0 99 0x0613 [])) 7 0 ≠ 0x12 ∧ bitOf (pAux (matPkt 7 0 99 (2 ^ 16) [])) 16 = true) ∧
    (let s := pulling bound1
     s.boundFor ⟨1, 3⟩ = some bound1 ∧ bound1.pull = true ∧ bound1.lostAt = some 0 ∧ s.hasRoute (epNode bound1.src) = false ∧
      s.boundOf 1 peer1 0 = some bound1 ∧ bound1.placed < bound1.want ∧ bound1.finished = false ∧
      ({ bound1 with placed := 4097 } : Bound).want ≤ ({ bound1 with placed := 4097 } : Bound).placed) := by decide +kernel

theorem witness_WhatMatHoldsGoesOn :
    (let h : Handle := { handle 1 0 sendDesc with phase := .held }
     let s := (holding [sendDesc]).setHandle h
     s.handle? ⟨1, 0⟩ = some h ∧ dOpcode h.desc = 4 ∧ s.heldBehind h = false ∧ s.inSetup 5 = false ∧ s.frozen = false ∧
      (s.setFlag TOP_STOP.stopped 0 0 true).frozen = true) ∧
    (let h : Handle := { handle 1 0 recvDesc with phase := .active }
     let s := (holding [recvDesc]).setHandle h
     let s : State := { s with mat := { s.mat with held := [(1, 0)] } }
     s.mat.held.find? (fun e => e.1 == 1) = some (1, 0) ∧ s.handle? ⟨1, 0⟩ = some h ∧ dOpcode h.desc = 5 ∧
      (s.postRecv h).isSome = true) ∧
    (let h : Handle := { sent0 with tx := [⟨0, 5, true, some 9000⟩] }
     (sending h).handle? ⟨1, 0⟩ = some h ∧ h.busyRetryAt ((sending h).openParts h) = some 9000 ∧ dOpcode h.desc = 4 ∧ dOpcode putDesc ≠ 4) := by decide +kernel

/-- With every place of its bin and of the overflow area taken a new key has no room (R156). -/
theorem no_mat_room (n : Nat) (e : MatEntry) (s : State) (key : List Byte) (hn : 2 ^ 23 ≤ n) (hk : (e.key == key) = false)
    (hs : s.mat.store = List.replicate n (0, { e with ovf := true }) ++
      List.replicate 8 (0, { e with ovf := false, slot := 8 * s.binOf key })) : s.matRoom key = .full := by
  have hh : s.matHead key = none := by
    refine List.find?_eq_none.2 fun x hx => ?_
    rw [hs] at hx
    rcases List.mem_append.1 hx with h | h <;> rw [List.eq_of_mem_replicate h]
    · simpa [MatEntry.key] using hk
    · simpa [MatEntry.key] using hk
  have hb : (8 * s.binOf key / 8 == s.binOf key) = true := beq_iff_eq.2 (by omega)
  have hw : s.matHw = List.replicate 8 (0, { e with ovf := false, slot := 8 * s.binOf key }) := by
    unfold State.matHw
    rw [hs]
    simp [List.filter_append, List.filter_replicate]
  have ho : s.matOvf = List.replicate n (0, { e with ovf := true }) := by
    unfold State.matOvf
    rw [hs]
    simp [List.filter_append, List.filter_replicate]
  unfold State.matRoom State.binUsed
  rw [hw, ho]
  simp only [hh, Option.isSome_none, Bool.false_eq_true, if_false, List.filter_replicate, hb, if_true, List.length_map,
    List.length_replicate]
  simp
  omega

theorem binOf_regs (s t : State) (k : List Byte) (h : s.regs = t.regs) : s.binOf k = t.binOf k := by
  unfold State.binOf State.fld State.reg
  rw [h]

theorem witness_WhatMatHoldsGoesOn_full :
    let r := recvEntry (handle 1 0 recvDesc)
    let e : MatEntry := { r with comm := 9 }
    let l : SMap MatEntry := List.replicate (2 ^ 23) (0, { e with ovf := true }) ++
      List.replicate 8 (0, { e with ovf := false, slot := 8 * ring.binOf r.key })
    let s : State := { ring with mat := { ring.mat with store := l } }
    s.matRoom r.key = .full := by
  intro r e l s
  have hb : s.binOf r.key = ring.binOf r.key := binOf_regs s ring _ rfl
  exact no_mat_room (2 ^ 23) e s _ (Nat.le_refl _) (by decide +kernel) (by rw [hb])

/-! ## RMA -/

theorem witness_PartsCoverAnOperation : 0 < 1 ∧ 0 + 1 < partsOf 8192 ∧ 1 < partsOf 4097 := by decide

/-- Window 0 of context 1, 8 KiB of fabric memory at 4,096, read, write and atomic, key 5. -/
def windowed : State :=
  let s := linked.setCtx 1 { opened1 with cfg := bytes64 [(16, 4), (17, 4), (20, 1000), (44, 4)] }
  s.setWin 0 { WinEntry.init with img0 := ⟨true, true, true, true, false, 2, 5, 4096, 8192⟩ }

/-- A PUT of one part of 8 bytes at offset 0 of window `w`. -/
def putPkt (osn w key : Nat) : Packet := pkt 0 (kindReq osn 0 w key 0 true false 0 8) (List.replicate 8 7 ++ leBytes 8 0)

def atomPkt (op : Nat) : Packet := pkt 3 (kindAtomic 5 0 0 5 0 op) (List.replicate 32 1)

theorem witness_RequestsAreClassifiedAndAdmitted :
    let u := (windowed.takeDelivered (putPkt 5 0 5)).ctxUse 1
    pDstNode (putPkt 5 0 5) = windowed.node ∧ pDstNode (toNode 1) ≠ windowed.node ∧ pDstCtx (putPkt 5 0 5) = 1 ∧
    (windowed.takeDelivered (putPkt 5 0 5)).answerFull (putPkt 5 0 5) = none ∧ answerOf (pkt 5 0 []) = some 6 ∧
    requestTo (putPkt 5 0 5) = some 6 ∧ requestTo (pkt 1 0 []) = some 6 ∧ requestTo (atomPkt 12) = some 6 ∧
    pType (putPkt 5 0 5) = 0 ∧ pType (pkt 1 0 []) = 1 ∧ pType (atomPkt 12) = 3 ∧ pAtomOp (atomPkt 12) = 12 ∧
    (halted.takeDelivered (putPkt 5 0 5)).frozen = true ∧ u.frozen = false ∧ u.rsv.quarantineEnd = none ∧
    (({ windowed with rsv := { windowed.rsv with quarantineEnd := some 5 } } : State).takeDelivered
      (putPkt 5 0 5)).rsv.quarantineEnd.isSome = true ∧
    (State.reset.takeDelivered (putPkt 5 0 5)).rmaBusy (putPkt 5 0 5) = true ∧ u.rmaBusy (putPkt 5 0 5) = false ∧
    u.closedContinue (putPkt 5 0 5) = false ∧ (u.classify (putPkt 5 0 5)).1 = .pass ∧
    (base.classify (putPkt 5 0 5)).1 = .refuse 0x12 0x01 ∧ (peered.classify (putPkt 5 0 5)).1 = .retired ∧
    (u.classify (putPkt 5 0 5)).2.opOf (putPkt 5 0 5) = none ∧ pWindow (putPkt 5 0xFFFF 5) = 0xFFFF ∧
    pWindow (putPkt 5 0 5) ≠ 0xFFFF ∧ u.opRoom (putPkt 5 0 5) = true ∧ u.admitRefusal (putPkt 5 0 5) = none ∧
    u.admitRefusal (putPkt 5 0 6) = some (0x12, 4) ∧
    (let o := u.newOp (putPkt 5 0 5) .active 0 0 0 false
     o.phase = .active ∧ reqPart (putPkt 5 0 5) ∉ o.present ∧ ((u.putOp o).opOf (putPkt 5 0 5)).map (fun x => x.phase) = some .active) ∧
    (let s := (windowed.setCtx 1 { opened1 with phase := .draining, byReset := true, step4 := true }).setWin 0
       { WinEntry.init with img0 := ⟨true, true, true, true, false, 0, 5, 4096, 8192⟩ }
     (s.putOp (s.newOp (putPkt 5 0 5) .active 0 0 0 false)).closedContinue (putPkt 5 0 5) = true) := by decide +kernel

theorem except_ok {α : Type} [DecidableEq α] {x : Except PartStop α} {a : α}
    (h : (match x with | .ok b => decide (b = a) | .error _ => false) = true) : x = .ok a := by
  cases x with
  | ok b => rw [of_decide_eq_true h]
  | error e => cases h

theorem witness_AtomicsFetchAndStoreOnce :
    let v := windowed.newOp (atomPkt 1) .active 0 0 0 false
    windowed.partPlaces v (reqOff (atomPkt 1)) (atomSize (pAtomOp (atomPkt 1))) true = .ok [(.fmem 4096, 8)] ∧
    windowed.partPlaces v (reqOff (atomPkt 12)) (atomSize (pAtomOp (atomPkt 12))) true = .ok [(.fmem 4096, 16)] ∧
    windowed.placesCheck [(.fmem 4096, 8)] false = none ∧ fmt64.isNan 0x7FF0000000000001 = true ∧ fmt64.isNan 0 = false :=
  ⟨except_ok (by decide +kernel), except_ok (by decide +kernel), by decide +kernel⟩

theorem witness_atomics_ok : windowed.Ok := ok_of _ (by decide +kernel) (by decide +kernel)

/-- Context 1 with an active handle of a descriptor at index 0. -/
def running (h : Handle) : State := (holding [h.desc]).setHandle { h with phase := .active }

def put0 : Handle := { handle 1 0 putDesc with phase := .active }
def get0 : Handle := { handle 1 0 (bytes64 [(0, 2), (4, 2 ^ 23 + 7), (16, 4096), (32, 4097), (36, 2)]) with phase := .active }
def atom0 : Handle := { handle 1 0 (bytes64 [(0, 3), (4, 2 ^ 23 + 7), (9, 1)]) with phase := .active }

theorem witness_AnswersEndTheirOperation :
    (let p := pkt 5 0 []
     let u := (running put0).takeDelivered p
     pDstNode p = (running put0).node ∧ u.frozen = false ∧ pType p = 5 ∧ u.answered p [1] = some put0 ∧
      ring.answered p [1] = none) ∧
    (let p := pkt 4 (kindAtomResp 0 1) (List.replicate 16 3)
     let u := (running atom0).takeDelivered p
     pType p = 4 ∧ u.answered p [3] = some atom0 ∧ ring.answered p [3] = none ∧ dAddr atom0.desc = 0) ∧
    (let h : Handle := { atom0 with desc := bytes64 [(0, 3), (4, 2 ^ 23 + 7), (9, 1), (16, 64)] }
     let p := pkt 4 (kindAtomResp 0 1) (List.replicate 16 3)
     let u := (running h).takeDelivered p
     let x := (u.stampAnswer h).xltUse 1 0 (dAddr h.desc) (dLength h.desc)
     let ps := x.pages 1 0 (dAddr h.desc) (dLength h.desc) true
     u.answered p [3] = some h ∧ dAddr h.desc ≠ 0 ∧ x.pagesBusy ps = false ∧ x.pagesRetired ps = false) ∧
    (∀ b ∈ [(3, true, false), (4, false, true)], let h : Handle := { get0 with desc := bytes64 [(0, 2), (4, 2 ^ 23 + 7), (32, 64), (36, 1)] }
     let s := (running h).setFld SPD_BANK_CTL.state 0 0 b.1
     let p := pkt 2 (kindGetResp 0 0 true 64) (List.replicate 64 9)
     let x := ((s.takeDelivered p).stampAnswer h).xltUse 1 (dKind h.desc) (dAddr h.desc + 4096 * 0) 64
     let ps := x.pages 1 (dKind h.desc) (dAddr h.desc + 4096 * 0) 64 true
     (s.takeDelivered p).answered p [2] = some h ∧ x.pagesBusy ps = b.2.1 ∧ x.pagesRetired ps = b.2.2) ∧
    (let p := pkt 2 (kindGetResp 0 1 true 4097) [9]
     let u := (running get0).takeDelivered p
     let v := (u.stampAnswer get0).xltUse 1 2 (dAddr get0.desc + 4096) 1
     let ps := v.pages 1 2 (dAddr get0.desc + 4096) 1 true
     pType p = 2 ∧ u.answered p [2] = some get0 ∧ kget p 51 32 < partsOf (dLength get0.desc) ∧ kget p 51 32 ∉ get0.got ∧
      v.pagesBusy ps = false ∧ v.pagesRetired ps = false ∧ get0.got.length + 1 < partsOf (dLength get0.desc)) ∧
    (let p := pkt 6 (kindRefusal 0 0x12 4 true 0 0) []
     let u := (running put0).takeDelivered p
     pType p = 6 ∧ u.answered p [1, 2, 3] = some put0 ∧ ring.answered p [1, 2, 3] = none ∧ kget p 48 48 = 1 ∧
      kget (pkt 6 (kindRefusal 0 0x12 4 false 0 0) []) 48 48 ≠ 1) ∧
    (let v := windowed.newOp (atomPkt 1) .active 0 0 0 false
     let s := windowed.putOp v
     let s : State := { s with hif := { s.hif with others := [(0, ⟨0, 0, .atomic ⟨1, peer1, 5⟩⟩)] } }
     s.frozen = false ∧ (s.op? 1 peer1 5).map (fun v => (v.phase, v.pkind)) = some (.active, 3) ∧ s.awaits (.atomic ⟨1, peer1, 5⟩) = true) := by
  decide +kernel

theorem witness_TimersResendAndEndOperations :
    ((running put0).frozen = false ∧ (running put0).handle? ⟨1, 0⟩ = some put0 ∧ put0.phase = .active ∧ dOpcode putDesc = 1 ∧
      dOpcode get0.desc = 2 ∧ (running get0).handle? ⟨1, 0⟩ = some get0) ∧
    (let h : Handle := { put0 with tx := [⟨0, 5, true, none⟩] }
     let s := running h
     s.handle? ⟨1, 0⟩ = some h ∧ put0.resendAt s.retryPs (s.openParts put0) = none ∧
      h.resendAt s.retryPs (s.openParts h) = some (5 + s.retryPs) ∧ 0 ∈ h.dueParts (5 + s.retryPs) s.retryPs h.unanswered ∧
      h.dueParts (4 + s.retryPs) s.retryPs h.unanswered = [] ∧ h.txOf 0 = some ⟨0, 5, true, none⟩ ∧ h.taken 0 = true ∧
      put0.taken 0 = false) ∧
    (let h : Handle := { put0 with tx := [⟨0, 5, true, some 7⟩] }
     let s := running h
     h.resendAt s.retryPs (s.openParts h) = some 7 ∧ h.dueParts 7 s.retryPs h.unanswered = [0] ∧ 7 < 5 + s.retryPs) ∧
    (let h : Handle := { sent0 with tx := [⟨0, 5, true, none⟩, ⟨wdPart, 9, true, none⟩], wd := .sent }
     let s := sending h
     h.resendAt s.retryPs (s.openParts h) = some (5 + s.retryPs) ∧
      h.dueParts (5 + s.retryPs) s.retryPs (s.sendUnanswered h) = [0]) ∧
    ((sending sent0).handle? ⟨1, 0⟩ = some sent0 ∧ dOpcode sendDesc = 4 ∧ sent0.wd = .none ∧ sent0.phase = .active) ∧
    (let h : Handle := { sent0 with wd := .sent, lostAt := some 5 }
     (sending h).handle? ⟨1, 0⟩ = some h ∧ (sending h).hasRoute (epNode (dTarget h.desc)) = false ∧ sent0.lostAt = none) ∧
    dOpcode (bytes64 [(0, 7), (9, 6)]) = 7 ∧
    (let l : LostWd := ⟨1, 0, sendDesc, 0, 77, 0⟩
     let s : State := { ring with mat := { ring.mat with lost := [l] } }
     s.handle? ⟨1, 0⟩ = none ∧ s.mat.lost.find? (fun l => l.ctx == 1 && l.index == 0) = some l) ∧
    ((pulling bound1).boundFor ⟨1, 3⟩ = some bound1 ∧ bound1.pull = true ∧ bound1.unpulled ≠ []) ∧
    ring.hasRoute 1 = false := by decide +kernel

/-! ## CSC -/

theorem witness_ExactSumsDependOnTheirTermsAlone : [fmt64.toAcc 0, fmt64.toAcc 1].Perm [fmt64.toAcc 1, fmt64.toAcc 0] ∧
    fmt64 ∈ [fmt64, fmt32, fmt16, fmtB16] ∧ 2 ^ 64 - 1 < 2 ^ (fmt64.mag + 1) ∧
    (0 < 2 ^ 2000 + 1 ∧ fmt64.roundMag 0 (2 ^ 2000 + 1) / 2 ^ (fmt64.p - 1) < fmt64.emax) := by
  refine ⟨List.Perm.swap _ _ _, ?_⟩
  decide +kernel

theorem witness_PartialRecordsReadBack : 1 ≤ 34 ∧ 34 ≤ 34 ∧ -(2 ^ (64 * 1 - 1) : Int) ≤ -(2 ^ 63 : Int) ∧
    (2 ^ 63 - 1 : Int) < (2 ^ (64 * 1 - 1) : Int) := by decide

/-- A Cascade packet of member 1 in dimension 0, group 0. -/
def cscPkt (ctype step seq sig : Nat) : Packet :=
  ⟨BitVec.ofNat 256 (packFields [(17, 17, 1), (34, 2, 0), (36, 12, 0), (48, 6, 1), (54, 4, step), (58, 3, ctype), (81, 4, 8),
    (104, 32, seq), (136, 32, sig)]), []⟩

def barrier0 : Handle := handle 1 0 (bytes64 [(0, 7), (9, 6), (38, 1)])

/-- Context 1 with its group of members 0 and 1, and a barrier of it active. -/
def grouped : State :=
  (holding [barrier0.desc]).setGroup 0 0 ⟨1, true, 3, 0⟩

def barrier : CscInst := grouped.newInst barrier0
def joined : State := { grouped with csc := { grouped.csc with insts := [barrier] } }

theorem witness_CascadePacketsFindTheirInstance :
    let p (ctype seq : Nat) := cscPkt ctype 0 seq barrier.signature
    pDstNode (p 0 0) = joined.node ∧ pDstNode (toNode 1) ≠ joined.node ∧ (joined.takeDelivered (p 0 0)).answerFull (p 0 0) = none ∧
    requestTo (p 1 0) = some 7 ∧ answerOf (p 2 0) = some 7 ∧    pType (p 0 0) = 8 ∧ xCtype (p 0 0) = 0 ∧ xCtype (p 3 0) = 3 ∧ 4 ≤ xCtype (p 7 0) ∧ xCtype (p 4 0) = 4 ∧
    (halted.takeDelivered (p 0 0)).frozen = true ∧ (joined.takeDelivered (p 0 0)).frozen = false ∧
    (State.reset.takeDelivered (p 0 0)).inSetup 7 = true ∧ (joined.takeDelivered (p 0 0)).inSetup 7 = false ∧
    (joined.takeDelivered (p 0 0)).instOf (p 0 0) = some barrier ∧ (joined.takeDelivered (p 0 1)).instOf (p 0 1) = none ∧
    xSig (cscPkt 0 0 0 (barrier.signature + 1)) ≠ barrier.signature ∧ xSig (p 0 0) = barrier.signature ∧
    barrier.steps[xStep (p 0 0)]? = some (.E, xCdim (p 0 0)) ∧ joined.takesPart barrier (.E, 0) = true ∧
    xMember (p 0 0) ∈ joined.recvFrom barrier (.E, 0) ∧ (barrier.segAt 0 0).done = false ∧
    (barrier.segAt 0 0).attempt % 256 ≤ xAttempt (p 0 0) ∧
    readElems barrier.desc (barrier.partial? 0) (xNelem (p 0 0)) [] = some [] ∧ (barrier.segAt 0 0).got = [] ∧
    (joined.seqAhead (p 0 (2 ^ 32 - 1)) = 2 ^ 32 - 1 ∧ joined.seqAhead (p 0 15) = 15 ∧ joined.seqAhead (p 0 16) = 16 ∧
      joined.earlyRoom (p 0 15) = true ∧ xCdim (p 0 15) < 3) := by decide +kernel

theorem witness_CollectivesAskAgainAndStartInOrder :
    (let x := barrier.setSeg { barrier.segAt 0 0 with started := true }
     let s : State := { grouped with csc := { grouped.csc with insts := [x] } }
     let u := s.advance ((x.segAt 0 0).startAt + s.rereqPs)
     s.frozen = false ∧ s.inst? ⟨1, 0⟩ = some x ∧ x.steps[0]? = some (.E, 0) ∧ (x.segAt 0 0).started = true ∧
      (x.segAt 0 0).done = false ∧ u.missing x 0 0 (.E, 0) ≠ [] ∧
      u.missing (x.setSeg { x.segAt 0 0 with got := [⟨1, 0, []⟩] }) 0 0 (.E, 0) = []) ∧
    (let s : State := { grouped with csc := { grouped.csc with wait := [⟨1, 0⟩] } }
     s.handle? ⟨1, 0⟩ = some barrier0 ∧ s.collRoom (s.newInst barrier0) = true) := by decide +kernel

/-- With 16,384 instances no other starts. -/
theorem witness_CollectivesAskAgainAndStartInOrder_full :
    ({ grouped with csc := { grouped.csc with insts := List.replicate 16384 barrier } } : State).collRoom barrier = false := by
  unfold State.collRoom
  rw [show ({ grouped with csc := { grouped.csc with insts := List.replicate 16384 barrier } } : State).csc.insts.length = 16384
    from List.length_replicate]
  rfl

/-! ## RTE -/

/-- Port 0 live and mapped to the neighbour at coordinate 1 of dimension 0, framing, with 10 credits of every pool. -/
def live : State :=
  let s := ((base.setFld RTE_PORT_MAP.state 0 0 1).setFld RTE_PORT_MAP.peer 0 0 1).setFld LNK_PORT_STATUS.state 0 0 psLive
  let v := { LPort.init with framed := true, adm := { Admission.init with sizes := List.replicate 9 16 } }
  s.setLport 0 ((List.range 9).foldl (fun v k => v.setPool k { LPool.init with limit := some 10 }) v)

theorem witness_TimersResendAndEndOperations_routes : live.injectable (toNode 0) = .ok ∧
    ring.injectable (toNode 1) = .noRoute := by decide +kernel

/-- That packet in RTE at a place. -/
def inRte (pl : PktPlace) : State :=
  { live with rte := { live.rte with pkts := [⟨4, toNode 1, none, 1, 1, 0, 0, pl, none⟩], nextId := 5 } }

theorem witness_PacketsLeaveBestHopFirstOrWaitOut :
    live.bestHop 1 [⟨0, 1, 1, none⟩] = some ⟨0, 1, 1, none⟩ ∧ live.bestHop 1 [] = none ∧
    (let s := inRte (.waiting 0)
     let u := s.advance (0 + 500 * s.fld RTE_CTL.escape_wait 0 0)
     s.frozen = false ∧ (s.rtePkt 4).map (fun x => (x.place, x.mcast, pVc x.pkt)) = some (.waiting 0, none, 1) ∧
      u.escape7 (toNode 1) (u.routeNode 0 (pDstNode (toNode 1))).1 = some ⟨0, 7, 7, none⟩ ∧ u.decideHop (toNode 1) ≠ .wait ∧
      (let w (k : Nat) := u.setLport 0 (((u.lport 0).setPool 1 { LPool.init with limit := some 0 }).setPool 7
         { LPool.init with limit := some k })
       (w 10).decideHop (toNode 1) = .wait ∧ ((w 10).lport 0).hasCredit 7 = true ∧ ((w 0).lport 0).hasCredit 7 = false ∧
        (w 0).decideHop (toNode 1) = .wait ∧ (w 0).escape7 (toNode 1) ((w 0).routeNode 0 (pDstNode (toNode 1))).1 =
          some ⟨0, 7, 7, none⟩) ∧ u.escape7 (toNode 2) 2 = none) ∧
    (1 ≤ pVc (toNode 1) ∧ pVc (toNode 1) ≤ 6 ∧ (⟨0, 7, 7, none⟩ : Hop).vc = 7) ∧
    ((inRte (.held 9)).rtePkt 4).map (fun x => x.place) = some (.held 9) ∧
    (let s := (inRte (.retained 1 1))
     s.portSt 1 ≠ psLive ∧ ∃ x ∈ s.rte.pkts, x.place = .retained 1 1) ∧
    ((inRte .tokens).rte.pkts.find? (fun x => x.place == .tokens)).isSome = true ∧ halted.frozen = true := by decide +kernel

/-- A notice of the member at coordinate 5 of dimension `d`. -/
def noticePkt (d : Nat) : Packet := ⟨mkHdr 0 5 0 0 0 0 0 9 0 3 0 d, []⟩

theorem witness_LinesShareTheirStateAndHints :
    pDstNode (noticePkt 0) = live.node ∧ pDstNode (toNode 1) ≠ live.node ∧ pType (noticePkt 0) = 9 ∧ kget (noticePkt 0) 1 0 < 3 ∧
    nodeCoord (pSrcNode (noticePkt 0)) 0 ≠ (live.takeDelivered (noticePkt 0)).coord 0 ∧ kget (noticePkt 3) 1 0 = 3 ∧
    nodeCoord (pSrcNode (noticePkt 1)) 1 = (live.takeDelivered (noticePkt 1)).coord 1 ∧
    (live.takeDelivered (noticePkt 0)).frozen = false ∧ (halted.takeDelivered (noticePkt 0)).frozen = true ∧
    live.fld RTE_PORT_MAP.state 0 0 = 1 ∧ live.inSetup 8 = false ∧ 140 < 141 ∧
    ((List.range 47).map fun j => 47 * 0 + j).filter live.portUsable ≠ [] ∧
    ((List.range 47).map fun j => 47 * 1 + j).filter live.portUsable = [] := by decide +kernel

/-! ## LAN -/

/-- Lane 0 in a state, with signal. -/
def laneIn (n : Nat) : State := (base.setFld LAN_STATUS.state 0 0 n).setFlag LAN_STATUS.signal 0 0 true

theorem witness_LanesTrainAlignAndWatchTheirEye :
    (tapsOk 0x0000F834FC00 = true ∧ (0x0000F834FC00 : Nat) < 2 ^ 48 ∧ (tapRequest 0x0000F834FC00 3 2).2 = 1 ∧ (tapRequest 0x0000F834FC00 3 1).2 = 2) ∧
    ((laneIn lsTrain).frozen = false ∧ (laneIn lsTrain).malsol 0 = false ∧ (laneIn lsTrain).laneSt 0 = lsTrain ∧
      (laneIn lsReady).laneSt 0 = lsReady ∧ (laneIn lsIdle).laneSt 0 ≠ lsTrain) ∧
    (let s := ((laneIn lsTrain).setLane 0 { (laneIn lsTrain).lane 0 with width1 := true }).setLport 0
       { LPort.init with survivor := some 1 }
     (s.lane 0).width1 = true ∧ (s.lport 0).survivor.getD 0 ≠ 0 ∧ (s.lport 0).survivor.getD 1 = 1) ∧
    ((laneIn lsTrain).flag LAN_STATUS.signal 0 0 = true ∧ base.flag LAN_STATUS.signal 0 0 = false) ∧
    (let s := (laneIn lsReady).setFlag LAN_STATUS.am_lock 0 0 true
     let s := s.setLane 0 { s.lane 0 with missed := 3 }
     s.laneSt 0 = lsReady ∧ 3 ≤ (s.lane 0).missed ∧ ((laneIn lsReady).lane 0).missed < 3 ∧
      (s.setLane 0 { s.lane 0 with missed := 4 }).flag LAN_STATUS.am_lock 0 0 = true) ∧
    (let v := (laneIn lsAlign).lane 0
     let u := (laneIn lsAlign).setLane 0 { v with marks := 3, lastMark := 7 }
     u.laneSt 0 = lsAlign ∧ 3 ≤ (u.lane 0).marks ∧ u.laneSt (otherLane 0) ∉ [lsRetired, lsDropped, lsIdle] ∧
      (u.setFld LAN_STATUS.state 1 0 lsIdle).laneSt (otherLane 0) ∈ [lsRetired, lsDropped, lsIdle] ∧
      (let w := (u.setLane 1 { v with marks := 3, lastMark := 7 }).setFld LAN_STATUS.state 1 0 lsAlign
       3 ≤ (w.lane (otherLane 0)).marks ∧ (w.lane 0).lastMark = (w.lane (otherLane 0)).lastMark ∧ w.laneSt (otherLane 0) = lsAlign)) ∧
    (([0, 1].filter fun l => base.laneSt l == lsAlign) = [] ∧ ([0, 1].filter fun l => (laneIn lsAlign).laneSt l == lsAlign) ≠ []) ∧
    (0 < 1 ∧ ([-96, -32, 32, 96] : List Int).length = 4 ∧ ([4, 4, 4, 4] : List Nat).length = 4 ∧
      (laneIn lsTest).laneSt 0 ≤ 5 ∧ 3 ≤ (laneIn lsTest).laneSt 0) ∧
    (∃ l ∈ [0], 256 < ((base.setLane l { base.lane l with skew := 300 }).lane l).skew) ∧
    (base.setFlag LAN_CFG.adapt_freeze 0 0 true).flag LAN_CFG.adapt_freeze 0 0 = true := by decide +kernel

/-- Port 0 with both lanes ready. -/
def lanesUp : State := (laneIn lsReady).setFld LAN_STATUS.state 1 0 lsReady

/-- Zero symbols at either end of a word add nothing to its syndromes: before the last ones … -/
theorem gfEval_zeros_right (q : List Nat) (n x : Nat) : gfEval (q ++ List.replicate n 0) x = gfEval q x := by
  have h0 : gfMul 0 x = 0 := by
    have : (List.range 10).foldl (fun r i => if bitOf x i then r ^^^ (0 * 2 ^ i) else r) 0 = 0 := by
      generalize List.range 10 = l
      induction l with
      | nil => rfl
      | cons a l ih => simpa using ih
    unfold gfMul
    rw [this]
    decide
  have hz : ∀ n, List.foldr (fun c acc => c ^^^ gfMul acc x) 0 (List.replicate n 0) = 0 := by
    intro n
    induction n with
    | zero => rfl
    | succ n ih => rw [List.replicate_succ, List.foldr_cons, ih, h0]; rfl
  unfold gfEval
  rw [List.foldr_append, hz]

/-- … and before a word that already evaluates to zero. -/
theorem gfEval_zeros_left (q : List Nat) (n x : Nat) (h : gfEval q x = 0) : gfEval (List.replicate n 0 ++ q) x = 0 := by
  induction n with
  | zero => exact h
  | succ n ih =>
    have h0 : gfEval [] x = 0 := rfl
    have := gfEval_zeros_right [] 1 x
    have hm : 0 ^^^ gfMul 0 x = 0 := by simpa [gfEval] using this
    rw [List.replicate_succ, List.cons_append]
    unfold gfEval at ih ⊢
    rw [List.foldr_cons, ih, hm]

/-- A marker codeword: the generator times 512 in its first 16 symbols. -/
def markerWord : List Nat := (rsGen.map (gfMul 512)).reverse ++ List.replicate 256 0

/-- A word with eight wrong symbols at its end. -/
def badWord : List Nat := List.replicate 264 0 ++ [1, 2, 3, 4, 5, 6, 7, 8]

theorem zeros_decode : rsDecode (List.replicate 272 0) = some (List.replicate 272 0, []) := by
  have h : (rsSyndromes (List.replicate 272 0)).all (· == 0) = true := by
    refine List.all_eq_true.2 fun x hx => ?_
    obtain ⟨i, -, rfl⟩ := List.mem_map.1 hx
    rw [List.reverse_replicate, ← List.nil_append (List.replicate 272 0), gfEval_zeros_right]
    rfl
  unfold rsDecode
  simp only [h, if_true]

theorem marker_decode : rsDecode markerWord = some (markerWord, []) := by
  have hg : ∀ i < 15, gfEval (rsGen.map (gfMul 512)) (gfAlpha i) = 0 := by decide +kernel
  have h : (rsSyndromes markerWord).all (· == 0) = true := by
    refine List.all_eq_true.2 fun x hx => ?_
    obtain ⟨i, hi, rfl⟩ := List.mem_map.1 hx
    rw [markerWord, List.reverse_append, List.reverse_reverse, List.reverse_replicate,
      gfEval_zeros_left _ _ _ (hg i (List.mem_range.1 hi))]
    rfl
  unfold rsDecode
  simp only [h, if_true]

theorem bad_decode : rsDecode badWord = none := by
  have h : rsSyndromes badWord = (List.range 15).map fun i => gfEval [8, 7, 6, 5, 4, 3, 2, 1] (gfAlpha i) := by
    unfold rsSyndromes
    refine List.map_congr_left fun i _ => ?_
    rw [badWord, List.reverse_append, List.reverse_replicate, gfEval_zeros_right]
    rfl
  have h0 : (((List.range 15).map fun i => gfEval [8, 7, 6, 5, 4, 3, 2, 1] (gfAlpha i)).all (· == 0)) = false := by decide +kernel
  have hl : 7 < ((List.range 15).foldl (bmStep ((List.range 15).map fun i => gfEval [8, 7, 6, 5, 4, 3, 2, 1] (gfAlpha i)))
    ⟨[1], [1], 0, 1, 1⟩).len := by decide +kernel
  unfold rsDecode
  simp only [h, h0, Bool.false_eq_true, if_false]
  rw [if_pos (Or.inl hl)]

theorem witness_StreamsAreScrambledCorrectedAndDecoded :
    (List.replicate 320 (0 : Byte)).length = 320 ∧
    (lanesUp.frozen = false ∧ lanesUp.portSt 0 ≠ psRetired ∧ lanesUp.malsol 0 = false ∧ lanesUp.lanesReady 0 = true ∧
      lanesUp.markerDue 0 = false ∧
      ({ lanesUp with lan := { lanesUp.lan with cwIn := [(0, 0)] } } : State).markerDue 0 = true) ∧
    (List.replicate 272 (0 : BitVec 10)).length = 272 ∧ bitOf ((List.replicate 272 0).headD 0) 9 = false ∧
    bitOf (markerWord.headD 0) 9 = true ∧ 255 < 256 ∧ (encD 255 false).1 ≠ (encD 255 true).1 ∧
    (let s := (laneIn lsReady).setFlag LAN_CFG.malsol 0 0 true
     s.frozen = false ∧ s.malsol 0 = true ∧ s.laneSt 0 = lsReady ∧ (s.lane 0).rdKnown = false ∧ isComma 0b1100000101 = true ∧
      ((s.setLane 0 { s.lane 0 with rdKnown := true }).lane 0).rdKnown = true) ∧
    (let s := base.setFld LAN_TEST_CFG.chk_pat 0 0 1
     s.fld LAN_TEST_CFG.chk_pat 0 0 = 1 ∧ s.laneSt 0 = lsSetup ∧ base.fld LAN_TEST_CFG.chk_pat 0 0 = 0 ∧
      s.flag LAN_TEST_ERR.lock 0 0 = false ∧ (s.setFlag LAN_TEST_ERR.lock 0 0 true).flag LAN_TEST_ERR.lock 0 0 = true ∧
      chkExpect 1 0 (List.replicate 64 true) ≠ none) := by decide +kernel

/-! ## LNK -/

/-- Port 0 in a state of bring-up, framing. -/
def portIn (n : Nat) (v : LPort) : State :=
  (live.setFld LNK_PORT_STATUS.state 0 0 n).setLport 0 { v with framed := true }

set_option maxRecDepth 1000000 in
theorem witness_BlocksAreAcceptedInOrderAndSentAgain :
    let v : LPort := live.lport 0
    ([(8, 1)] : List (Nat × Flit)).length ≤ 4 ∧ (15 < 16 ∧ ¬(3 ≤ 2 ∧ 2 < 8) ∧ ¬(3 ≤ 8 ∧ 8 < 8)) ∧ 65535 < 2 ^ 16 ∧
    blkBad (mkBlock [(8, 1)] 0) false = false ∧ (1 : BitVec 32) + (mkBlock [(8, 1)] 0).crc ≠ (mkBlock [(8, 1)] 0).crc ∧
    (mkBlock [(8, 1)] 0).tags ≠ 0 ∧ live.frozen = false ∧ ((live.streamCut 0 (mkBlock [] 0)).lport 0).framed = true ∧
    (base.lport 0).framed = false ∧ (v.discarding = false ∧ v.expected = 0) ∧
    ((0 + 2 ^ 16 - 65535) % 2 ^ 16 < 2 ^ 15 ∧ 2 ^ 15 ≤ (0 + 2 ^ 16 - 32768) % 2 ^ 16) ∧
    (live.stopped = false ∧ v.replay = none ∧ v.unacked.length < live.txBound 0 ∧
      (State.takeSlots 0 4 (live.setLport 0 { v with ctl := [ctlFlit [(0, 1, 4)]] })).1 ≠ []) ∧
    ((portIn psLive { v with discarding := true }).lport 0).discarding = true ∧ v.unacked = [] ∧
    ((portIn psLive { v with unacked := [⟨0, [], [], [], 0⟩], replays := 8 }).lport 0).unacked = [⟨0, [], [], [], 0⟩] ∧
    max 1 (live.fld LNK_PORT_CFG.replay_max 0 0) ≤ 8 ∧ v.replays < max 1 (live.fld LNK_PORT_CFG.replay_max 0 0) ∧
    (v.pool 8).waitFrom = none ∧
    (((portIn psLive (v.setPool 8 { v.pool 8 with waitFrom := some 5 })).lport 0).pool 8).waitFrom = some 5 ∧
    v.missed + 1 < 16 ∧ 16 ≤ ({ v with missed := 15 } : LPort).missed + 1 := by decide +kernel

/-- A control flit of a type. -/
def ctl (n : Nat) : Flit := ctlFlit [(0, 1, n)]

/-- A HELLO that the check of R313 passes at port 0: from node 1, port 0, two lanes. -/
def helloFlit : Flit := ctlFlit [(0, 1, 1), (8, 8, 0xABC), (16, 4, 1), (20, 1, 0), (21, 1, 0), (22, 1, 0), (23, 1, 2)]

theorem witness_LinksAreAdmittedResetAndTimed :
    (255 < 256 ∧ 256 ^ 8 - 1 < 256 ^ 8 ∧ 1 ≤ 8 ∧ 8 + 56 ≤ 64) ∧
    (live.frozen = false ∧ flitBytes (ctl 9) 0 1 ≠ 1 ∧ (base.lport 0).framed = false ∧ (live.lport 0).framed = true) ∧
    (flitBytes helloFlit 0 1 = 1 ∧ (portIn psHello (live.lport 0)).portSt 0 = psHello ∧ live.portSt 0 ≠ psHello ∧
      (portIn psHello (live.lport 0)).helloOk 0 helloFlit = true ∧ (portIn psHello (live.lport 0)).helloOk 0 (ctl 1) = false) ∧
    (let f (k : Nat) := ctlFlit [(0, 1, 2), (1, 1, k), (2, 1, 4), (3, 1, 5)]
     flitBytes (f 1) 0 1 = 2 ∧ flitBytes (f 1) 1 1 = 1 ∧ flitBytes (f 2) 1 1 = 2 ∧ flitBytes (f 2) 3 1 = 5 ∧ flitBytes (f 2) 2 1 < 5 ∧
      flitBytes (f 2) 4 4 = 0 ∧ flitBytes (ctlFlit [(0, 1, 2), (1, 1, 2), (2, 1, 5), (3, 1, 5)]) 2 1 = 5 ∧
      (portIn psAdmit (live.lport 0)).portSt 0 = psAdmit ∧ (live.lport 0).adm.verdictOut = none ∧
      (SMap.insert ([(0, 0), (1, 0), (2, 0), (3, 0)] : SMap (BitVec 448)) 4 0).length = 5 ∧
      (SMap.insert ([] : SMap (BitVec 448)) 4 0).length < 5 ∧ flitBytes (f 3) 1 1 = 3) ∧
    (flitBytes (ctl 3) 0 1 = 3 ∧ ((live.lport 0).pool 0).rx = none ∧
      (((live.lport 0).setPool 0 { LPool.init with rx := some ⟨some 4, 2⟩ }).pool 0).rx = some ⟨some 4, 2⟩) ∧
    ((portIn psReset { live.lport 0 with retryAt := some 7 }).portSt 0 = psReset ∧
      ((portIn psReset { live.lport 0 with retryAt := some 7 }).lport 0).retryAt = some 7 ∧ (live.lport 0).retryAt = none) ∧
    (let v : LPort := { live.lport 0 with reqUntil := some 10000000 }
     let own := live.fld SEC_IDENTITY.identity 0 0
     ((portIn psLive v).lport 0).reqUntil ≠ none ∧ flitBytes (ctl 5) 8 8 ≤ own ∧
      own < flitBytes (ctlFlit [(0, 1, 5), (8, 8, own + 1)]) 8 8 ∧ (live.lport 0).reqUntil = none ∧
      flitBytes (ctlFlit [(0, 1, 6), (8, 8, own)]) 8 8 = own ∧ flitBytes (ctl 6) 0 1 = 6) ∧
    (flitBytes (ctl 4) 0 1 = 4 ∧ (live.lport 0).malsol = false ∧ (live.lport 0).discarding = false ∧ flitBytes (ctl 4) 24 8 = 0 ∧
      flitBytes (ctlFlit [(0, 1, 4), (24, 8, 9)]) 24 8 ≠ 0 ∧
      ((portIn psLive { live.lport 0 with discarding := true }).lport 0).discarding = true) ∧
    (live.portSt 0 = psLive ∧ base.portSt 0 ≠ psLive ∧ (live.lport 0).ctl = []) ∧
    ((live.lport 0).adm.version ≠ 1 ∧ (live.lport 0).adm.agreed = false ∧ (live.lport 0).ackOwed = none ∧
      ((portIn psAdmit { live.lport 0 with adm := { (live.lport 0).adm with
        version := 1, verdictOut := some 0, verdictIn := some 0 } }).lport 0).adm.version = 1 ∧
      ((portIn psAdmit { live.lport 0 with adm := { (live.lport 0).adm with
        verdictOut := some 0, verdictIn := some 0 } }).lport 0).adm.agreed = true ∧
      ((portIn psLive { live.lport 0 with ackOwed := some none }).lport 0).ackOwed = some none) ∧
    (live.lnk.locked = false ∧ 1000000 < ((4001 : Int) * 250).natAbs ∧ ((4000 : Int) * 250).natAbs ≤ 1000000 ∧
      live.lnk.slewAt.getD live.now ≤ live.now) := by decide +kernel

/-! ## HDL -/

/-- Core 0 idle and context 1 open, with an event of trigger 0 queued. -/
def handling : State :=
  let s := ring.setFld HDL_CORE_STATUS.state 0 0 1
  let s : State := { s with hdl := { s.hdl with queue := [⟨0, 0, 1, 0, 0, 0, 5, { TrigCfg.init with enable := true }⟩], trigs := [(0, { TrigCfg.init with enable := true })] } }
  s

/-- Core 0 in an invocation of trigger 0 for context 1, in U mode, with one entry for page 5 in its data TLB. -/
def inHandler (e : Word) : State :=
  (handling.setFld HDL_CORE_STATUS.state 0 0 2).setCore 0
    { HCore.init with inv := some (0, 1, 100), umode := true, hxctx := 1, dtlb := [⟨1, 5, 0, e, false, 0⟩] }

/-- Core 0 in user mode at the start of page 0, whose entry leads to fabric memory with an instruction and 4 bytes there. -/
def executing (bs : List Byte) : State :=
  let s := handling.setFld HDL_CORE_STATUS.state 0 0 2
  let s := s.setCore 0 { HCore.init with inv := some (0, 1, 100), umode := true, hxctx := 1, pc := 0, x := [(1, 6), (2, 7)],
                                         itlb := [⟨1, 0, 0, 0x40F, false, 0⟩] }
  { s with fmem := s.fmem.write 0 bs }

theorem witness_IdleStepEndsTheCycle_cores :
    (base.lineCycle.frozen = false ∧ base.lineCycle.liveCores = [] ∧ halted.lineCycle.frozen = true ∧
      (executing []).lineCycle.liveCores ≠ [] ∧ (executing []).pending = []) ∧
    ((executing []).core 0).wait = none ∧ (executing []).coreIrq 0 = none ∧ ((executing []).core 0).umode = true ∧
    ((handling.core 0).umode = false ∧ (handling.core 0).pc = residentMain ∧ handling.coreIrq 0 = none) ∧
    ({ (executing []).core 0 with wait := some ⟨1, 8, false, 0, none, 4⟩ } : HCore).wait ≠ none ∧
    ((executing []).setReg ⟨.HDL_IPI_PEND, 0, 0⟩ 1).coreIrq 0 = some 3 ∧
    ((executing [0x33, 0x81, 0x20, 0]).coreFetch 0 0).1 = some 0x8133 ∧ 0x8133 % 4 = 3 ∧
    ((executing [0x33, 0x81, 0x20, 0]).coreFetch 0 2).1 = some 0x20 ∧
    ((executing [0x0A, 0x91]).coreFetch 0 0).1 = some 0x910A ∧ 0x910A % 4 ≠ 3 ∧ ((executing []).coreFetch 0 0x5000).1 = none ∧
    SMap.wf (fun _ => (0 : Word)) ((executing []).core 0).x = true ∧ (((executing []).core 0).xr 1 + 1).toNat % 8 ≠ 0 := by
  decide +kernel

theorem witness_InvocationsStartByPriorityAndEnd :
    0 ∈ handling.eligible 0 ∧ (handling.nextEvent.map fun x => (x.1, x.2.2)) = some (0, 0) ∧ base.nextEvent = none ∧
    handling.inSetup 11 = false ∧ handling.frozen = false ∧ halted.frozen = true ∧
    (inHandler 1).coreSt 0 = 2 ∧ ((inHandler 1).core 0).umode = true ∧ ((inHandler 1).core 0).inv = some (0, 1, 100) ∧
    (handling.core 0).inv = none ∧ handling.coreSt 0 ≠ 2 ∧ 1 ≤ handling.coreSt 0 := by decide +kernel

theorem witness_TlbsMissFillAndForget :
    (let v := (inHandler 1).core 0
     v.lookup 0x6000 false = none ∧ (v.lookup 0x5000 false).isSome = true ∧ v.hxstat.getLsbD 0 = false ∧
      ({ v with hxstat := 1 } : HCore).hxstat.getLsbD 0 = true ∧ bitOf (1 : Word).toNat 3 = false ∧ bitOf (9 : Word).toNat 3 = true ∧
      (∃ x ∈ v.dtlb, v.serves x 0x5000 = true) ∧
      (let w : HCore := { v with dtlb := [], l2 := v.dtlb }
       (w.lookup 0x5000 false).isSome = true ∧ ∀ x ∈ w.dtlb, w.serves x 0x5000 = false)) ∧
    2 < 3 ∧ (inHandler 1).frozen = false ∧ (inHandler 1).coreSt 0 = 2 ∧ (inHandler 1).coreActs 0 = true ∧
    ((inHandler 1).fillStall 0 = false ∧
      (let s := (inHandler 1).setFld RSV_STATUS.state 0 0 4
       (s.setCore 0 { s.core 0 with hxentry := 1, umode := false }).fillStall 0 = true)) ∧
    ({ (inHandler 1).core 0 with umode := false, hxstat := 1 } : HCore).umode = false ∧ (inHandler 1).coreSt 0 ≤ 3 ∧
    (((inHandler 1).core 0).inv ≠ none ∧ (handling.core 0).inv = none) ∧
    fillRefusal 1 0 false = none ∧ fillRefusal 0 0 false = some (0x13, 0x83) ∧ fillRefusal 0xC01 0 false = some (0x17, 0x80) ∧
    fillRefusal 0xE01 0 false = none ∧ fillRefusal 0xE01 0 true = some (0x17, 0x80) ∧
    fillRefusal 0x1001 1 false = some (0x13, 0x83) ∧
    (((List.replicate 4 (⟨1, 5, 0, 1, true, 0⟩ : TlbEntry)).filter (·.locked)).length = 4) := by decide +kernel

/-! ## SPD and SEM -/

/-- A semaphore state. -/
def semIn (v : Semaphore) : State := base.setSem 63 v

theorem witness_BanksAndSemaphoresServeTheirMasters :
    (base.Ok ∧ base.spd.bad = []) ∧
    (halted.stopped = true ∧ State.reset.inSetup 12 = true ∧ State.reset.stopped = false ∧ base.endpoint 0 = true ∧
      base.inSetup 12 = false ∧ spdSize - 8 + 8 ≤ spdSize ∧ 0 < 8) ∧
    (let u := (base.setFld SPD_BANK_CTL.state 0 63 4).pmcEv 12 2 63 0 1
     u.spdCheck (spdSize - 8) 8 = .retired ∧ ((base.setFld SPD_BANK_CTL.state 0 63 3).pmcEv 12 2 63 0 1).spdCheck (spdSize - 8) 8 ≠ .ok ∧
      (base.pmcEv 12 2 63 0 1).spdCheck (spdSize - 8) 8 = .ok ∧ 
      (⟨8, .write [1]⟩, [1]) ∈ collisions 8 8 true [⟨8, .write [1]⟩, ⟨8, .read 1⟩] ∧ collisions 8 8 true [⟨8, .read 1⟩] = [] ∧
      (⟨8, .read 1⟩, [1]) ∈ collisions 8 8 false [⟨8, .read 1⟩] ∧ sharedWords 8 8 8 1 = [1]) ∧
    ((base.setFlag SPD_BANK_CTL.retain 0 63 true).flag SPD_BANK_CTL.retain 0 63 = true ∧ base.fld SPD_BANK_CTL.state 0 63 = 0 ∧
      (base.setFld SPD_BANK_CTL.state 0 63 2).fld SPD_BANK_CTL.state 0 63 = 2 ∧ base.flag SPD_BANK_CTL.retain 0 63 = false) ∧
    (base.spd.march = none ∧ (∃ x ∈ ([⟨3, 0⟩] : List (Nat × Nat)), bitOf 8 x.1 = true)) ∧
    directMaster (0 : Master).toNat = true ∧ base.waits = [] ∧ State.reset.inSetup 13 = true ∧
    base.inSetup 13 = false ∧ ((semIn { Semaphore.init with holder := some 7 }).semOf 63).holder = some 7 ∧
    (base.semOf 63).holder = none ∧ (base.semOf 63).reserved = none ∧
    ((semIn { Semaphore.init with reserved := some 7 }).semOf 63).reserved = some 7 ∧
    64 ≤ ((semIn { Semaphore.init with
      holder := some 7, waiters := (List.range 64).map fun k => ⟨k + 100, 1, k⟩ }).semOf 63).waiters.length ∧
    bestWaiter [⟨5, 1, 3⟩, ⟨6, 2, 9⟩, ⟨7, 2, 8⟩] = some ⟨7, 2, 8⟩ ∧ bestWaiter [] = none :=
  ⟨⟨ok_of _ (by decide +kernel) (by decide +kernel), by decide +kernel⟩, by decide +kernel⟩

/-- A SEM descriptor of kind `sub` on semaphore 63. -/
def semDesc (sub : Nat) : Descriptor := bytes64 [(0, 11), (9, sub), (16, 63)]

theorem witness_BanksAndSemaphoresServeTheirMasters_descriptors :
    dispatches [semDesc 1] = true ∧ dOpcode (semDesc 1) = 11 ∧ dSub (semDesc 3) = 3 ∧ (found [semDesc 1]).inSetup 13 = false ∧
    (found [semDesc 1]).lcntBad (handle 1 0 (semDesc 1)) = false ∧
    ((found [semDesc 1]).semOf 63).holder ≠ some (mHost 0 0) ∧ (found [semDesc 1]).semFor 63 (mHost 0 0) = true ∧
    (((found [semDesc 3]).setSem 63 { Semaphore.init with holder := some 0 }).semOf 63).holder = some (mHost 0 0) ∧
    ((found [semDesc 1]).setSem 63 { Semaphore.init with holder := some 9 }).semFor 63 (mHost 0 0) = false := by decide +kernel

/-! ## Faults -/

theorem witness_TheFirstEventMakesTheRecord : base.Ok ∧ 19 < 20 ∧ (sourceSpec 19 2047).isSome = true ∧
    (sourceSpec 1 0).isSome = true ∧ base.flag FLT_STATUS.first_valid 1 0 = false ∧
    ((sourceSpec 2 2046).map fun sp => sp.react) = some .deviceStop :=
  ⟨ok_of _ (by decide +kernel) (by decide +kernel), by decide +kernel⟩

theorem witness_FaultsAreCountedEscalatedAndRepaired :
    ((sourceSpec 1 0).map fun sp => decide (sp.react ≠ .deviceStop)) = some true ∧
    (base.setFlag FLT_COUNT.severe 1 0 true).flag FLT_COUNT.severe 1 0 = true ∧
    (let s := base.setFlag FLT_STATUS.first_valid 1 0 true
     s.flag FLT_STATUS.first_valid 1 0 = true ∧ SMap.find? s.flt.firstAt 1 ≠ some s.cycle) ∧
    (let s : State := { base with flt := { base.flt with
       wins := [(srcKey 1 0, ⟨100, 3⟩)], esc := [(1, 500)], inj := [(1, ⟨0, 0, 900⟩)] } }
     SMap.find? base.flt.wins (srcKey 1 0) = none ∧ SMap.find? s.flt.wins (srcKey 1 0) = some ⟨100, 3⟩ ∧
      SMap.find? base.flt.esc 1 = none ∧ SMap.find? s.flt.esc 1 = some 500 ∧
      (s.advance 500).flag FLT_ESC_ACTION.hw_enable 1 0 = true ∧
      (s.setFlag FLT_ESC_ACTION.hw_enable 1 0 false).flag FLT_ESC_ACTION.hw_enable 1 0 = false ∧
      SMap.find? base.flt.inj 1 = none ∧ SMap.find? s.flt.inj 1 = some ⟨0, 0, 900⟩ ∧
      SMap.find? (s.advance 900).flt.inj 1 = some ⟨0, 0, 900⟩) ∧
    (let s : State := { base with spd := { base.spd with slices := [(3, 7), (4, 6)], bad := [5] } }
     SMap.find? s.spd.slices 3 = some 7 ∧ SMap.find? s.spd.slices 4 = some 6 ∧ SMap.find? s.spd.slices 5 = none ∧
      40 / 8 ∈ s.spd.bad ∧ 48 / 8 ∉ s.spd.bad) ∧
    (let s : State := { base with pwr := { base.pwr with copying := [127], repairing := [127] } }
     127 ∈ s.pwr.copying ∧ 126 ∉ s.pwr.copying ∧ 127 ∈ s.pwr.repairing ∧ 126 ∉ s.pwr.repairing) ∧
    144 * 2 ^ 30 - 1 < 144 * 2 ^ 30 ∧ 64 * 2 ^ 20 - 1 < 64 * 2 ^ 20 ∧ (base.core 0).itlb ++ (base.core 0).dtlb ++ (base.core 0).l2 = [] ∧
    ((inHandler 1).core 0).itlb ++ ((inHandler 1).core 0).dtlb ++ ((inHandler 1).core 0).l2 ≠ [] ∧ halted.stopped = true := by
  decide +kernel

/-! ## RSV, SEC, LOG, PMC and PWR -/

/-- The journal runs. -/
def journalling : State :=
  let s := ((base.setFlag RSV_CFG.enable 0 0 true).setFld RSV_STATUS.state 0 0 2).setFld RSV_TARGET.size_gib 0 0 1
  { s with rsv := { s.rsv with staged := [⟨1, .cycle 1 true, 0, [1], false, false⟩] } }

theorem witness_TheJournalIsAcknowledgedRestatedSealedAndReplayed :
    (let n := 64 * (JRec.layout journalling (.cycle 1 false)).2.1
     journalling.rsv.ringOff + n ≤ journalling.ringBytes ∧ base.ringBytes < base.rsv.ringOff + n) ∧
    (journalling.rsv.staged = [⟨1, .cycle 1 true, 0, [1], false, false⟩] ∧ base.rsv.staged = [] ∧
      journalling.targetError.rsv.staged ≠ [] ∧ (∃ x ∈ journalling.rsv.staged, x.written = false) ∧
      (∀ x ∈ base.rsv.staged, x.written = true)) ∧
    (let s : State := { journalling with rsv := { journalling.rsv with errors := [0, 0] } }
     s.targetError.rsv.staged = []) ∧
    (journalling.rsvOn = true ∧ base.rsvOn = false ∧ base.rsvHeld = false ∧ journalling.rsvHeld = false ∧
      (journalling.setFld RSV_STATUS.state 0 0 4).rsvHeld = true) ∧
    (let s : State := { journalling with pwr := { journalling.pwr with pfLow := true, pwrgood := true } }
     let u := (s.advance (s.pwr.pfAt + 1020000)).setFlag PWR_STATUS.pwrfail_seen 0 0 true
     s.pwr.pfLow = true ∧ s.pwr.pwrgood = true ∧ u.sec.step < 10 ∧
      10 ≤ ({ s.sec with step := 10 } : SecState).step ∧ base.pwr.pfLow = false ∧ u.rsv.halt = false ∧
      ({ u.rsv with halt := true } : RsvState).halt = true) ∧
    (let s : State := { journalling with rsv := { journalling.rsv with sealing := some ⟨1, 0, 1⟩ } }
     s.rsv.sealing = some ⟨1, 0, 1⟩ ∧ base.rsv.sealing = none ∧
      ((s.setFld RSV_TARGET.kind 0 0 1).dropOther .seal).fld RSV_TARGET.kind 0 0 = 1 ∧ (s.dropOther .seal).fld RSV_TARGET.kind 0 0 ≠ 1) ∧
    (base.fld RSV_STATUS.state 0 0 ≠ 1 ∧ (base.setFld RSV_STATUS.state 0 0 1).fld RSV_STATUS.state 0 0 = 1) ∧
    ({ base.rsv with quarantineEnd := some 77 } : RsvState).quarantineEnd = some 77 ∧ base.rsv.quarantineEnd = none := by
  decide +kernel

/-- The device with power, at a step of boot. -/
def booting (k : Nat) : State :=
  { State.reset with pwr := { State.reset.pwr with pwrgood := true }, sec := { State.reset.sec with step := k } }

/-- Both slots of the flash hold images of the right format with the sequences `a` and `b`, under keys that are fused; the
signatures and hashes are the zeros of an empty flash. -/
def imaged (k a b : Nat) : State :=
  { booting k with
    sec := { (booting k).sec with fuses := some ⟨0, 0, 0, [0], [0], []⟩ }
    flash := [(0x10000, 1), (0xF10000, 1), (0xF10010, BitVec.ofNat 8 a), (0x1010000, 1), (0x1F10000, 1), (0x1F10010, BitVec.ofNat 8 b)] }

/-- The steps and sequences used here. -/
def images : List (Nat × Nat × Nat) := [(3, 2, 1), (3, 2, 2), (3, 1, 2), (4, 1, 1), (10, 1, 1)]

theorem imaged_facts : ∀ x ∈ images, ∀ slot ∈ [0, 1], let s := imaged x.1 x.2.1 x.2.2
    s.formatOk slot = true ∧ s.cfgNum slot 8 8 = s.fld SEC_IDENTITY.identity 0 0 ∧ s.slotNum slot 48 64 = 0 ∧
      s.slotNum slot 4 4 = 0 ∧ s.fld SEC_SVN.svn_min 0 0 = 0 := by decide +kernel

/-- Where SHA-512 gave zero and Ed25519 accepted (the functions are opaque, so nothing shows what they give), the checks of both
slots pass. -/
theorem imaged_passes (k a b slot : Nat) (hx : (k, a, b) ∈ images) (hs : slot ∈ [0, 1]) (hh : ∀ bs, Config.sha512 bs = 0) (hv : ∀ key bs g, Config.verify key bs g = true) :
    (imaged k a b).headerCode slot = 0 ∧ (imaged k a b).firmwareCode slot = 0 := by
  have hk : ∀ at_ f, (f = Fuses.vendorKeys ∨ f = Fuses.ownerKeys) → (imaged k a b).keyFused at_ f = true := by
    intro at_ f hf
    unfold State.keyFused
    rw [hh]
    rcases hf with rfl | rfl <;> simp [imaged]
  obtain ⟨hf, hi, hz, hsv, hm⟩ := imaged_facts (k, a, b) hx slot hs
  dsimp only at hf hi hz hsv hm
  unfold State.headerCode State.imageCode State.firmwareCode
  simp [hk, hf, hv, hi, hh, hz, hsv, hm]

theorem witness_PowerUpGoesStepByStep_headers (hh : ∀ bs, Config.sha512 bs = 0) (hv : ∀ key bs g, Config.verify key bs g = true) :
    let u (a b : Nat) := ((((imaged 3 a b).atStep 4).setSlotCode 0 ((imaged 3 a b).headerCode 0)).setSlotCode 1
      ((imaged 3 a b).headerCode 1)).setFld SEC_BOOT_STATUS.state 0 0 1
    ((u 2 1).slotCode 0 = 0 ∧ (u 2 1).slotSeq 1 ≤ (u 2 1).slotSeq 0) ∧ ((u 2 2).slotCode 0 = 0 ∧ (u 2 2).slotSeq 1 ≤ (u 2 2).slotSeq 0) ∧
    ((u 1 2).slotCode 1 = 0 ∧ (u 1 2).slotSeq 0 < (u 1 2).slotSeq 1) ∧ (imaged 4 1 1).firmwareCode (imaged 4 1 1).sec.cand = 0 := by
  intro u
  have h (a b : Nat) (hx : (3, a, b) ∈ images) :
      u a b = ((((imaged 3 a b).atStep 4).setSlotCode 0 0).setSlotCode 1 0).setFld SEC_BOOT_STATUS.state 0 0 1 := by
    simp only [u, (imaged_passes 3 a b 0 hx (by decide) hh hv).1, (imaged_passes 3 a b 1 hx (by decide) hh hv).1]
  rw [h 2 1 (by decide), h 2 2 (by decide), h 1 2 (by decide)]
  exact ⟨by decide +kernel, by decide +kernel, by decide +kernel, (imaged_passes 4 1 1 0 (by decide) (by decide) hh hv).2⟩

/-- A superblock and a SEAL record with their CRCs (R394, R395). -/
def superblock0 : List Byte :=
  leBytes 512 ([(4, 3333856855), (8, 7), (24, 9), (32, 2 ^ 30), (40, 1), (56, 1), (80, 1)].foldl (fun a f => a + f.2 * 256 ^ f.1) 0)
def seal0 : List Byte := leBytes 64 ([(0, 0x7F), (1, 1), (4, 1964894226), (8, 1)].foldl (fun a f => a + f.2 * 256 ^ f.1) 0)

/-- The last step of boot with the journal enabled in the memory of port 0, which is out of setup. -/
def releasing : State :=
  (((booting 9).setFlag RSV_CFG.enable 0 0 true).setFld RSV_TARGET.kind 0 0 2).setFlag HIF_PORT_STATUS.in_setup 0 0 false

set_option maxRecDepth 1000000 in
theorem witness_PowerUpGoesStepByStep_journal : releasing.journalCheck ⟨true, [superblock0], seal0⟩ = 0 ∧
    releasing.journalCheck ⟨false, [], []⟩ ≠ 0 ∧ releasing.sec.step = 9 ∧ releasing.pwr.pfLow = false ∧ releasing.spd.march = none ∧
    releasing.fld SEC_BOOT_STATUS.state 0 0 ≠ 3 := by decide +kernel

theorem witness_PowerUpGoesStepByStep :
    (State.reset.pwr.pwrgood = false ∧ (booting 1).pwr.pwrgood = true ∧ (booting 1).sec.step = 1 ∧ (booting 2).sec.step = 2) ∧
    (let u := (((booting 3).atStep 4).setSlotCode 0 ((booting 3).headerCode 0)).setSlotCode 1 ((booting 3).headerCode 1)
     (booting 3).imageCode 0 ≠ 0 ∧ (booting 3).imageCode 1 ≠ 0 ∧ (booting 3).headerCode 0 = 1 ∧ u.slotCode 0 ≠ 0 ∧ u.slotCode 1 ≠ 0) ∧
    (let s := (booting 4).setFld SEC_BOOT_STATUS.state 0 0 1
     s.sec.step = 4 ∧ s.fld SEC_BOOT_STATUS.state 0 0 = 1 ∧ (s.applyList []).2 = true ∧
      (s.applyList [((RegRef.mk .TOP_RESET 0 0).off, true, 0)]).2 = false ∧
      (s.applyList [((RegRef.mk .TOP_NODE_COORD 0 0).off, true, 0)]).2 = true ∧
      (s.applyList [((RegRef.mk .TOP_NODE_COORD 0 0).off, false, 0)]).2 = false) ∧
    (let u := (booting 4).setSlotCode 0 5
     (booting 4).sec.tried = false ∧ u.slotCode (1 - (booting 4).sec.cand) = 0 ∧
      ((booting 4).setSlotCode 1 5).slotCode (1 - (booting 4).sec.cand) ≠ 0) ∧
    (3 ≤ (booting 3).sec.step ∧ (booting 3).sec.hbmTrained = false ∧ (booting 3).log.ring = false ∧
      (let s : State := { booting 6 with log := { (booting 6).log with ring := true } }
       s.sec.step = 6 ∧ s.log.ring = true)) ∧
    ((booting 9).sec.step = 9 ∧ (booting 9).pwr.pfLow = false ∧ (booting 9).fld SEC_BOOT_STATUS.state 0 0 ≠ 3) ∧
    (suppliesMap [] = false ∧ suppliesMap [(RegRef.mk .RTE_PORT_MAP 0 140).off] = true ∧
      suppliesMap [(RegRef.mk .RTE_PORT_MAP 0 141).off] = false) ∧
    (booting 9).sec.dogUsed = false ∧ base.Ok :=
  ⟨by decide +kernel, by decide +kernel, by decide +kernel, by decide +kernel, by decide +kernel, by decide +kernel, by decide +kernel,
    by decide +kernel, ok_of _ (by decide +kernel) (by decide +kernel)⟩

theorem witness_FirmwareIsUpdatedFlashedAndAttested_verified (hh : ∀ bs, Config.sha512 bs = 0)
    (hv : ∀ key bs g, Config.verify key bs g = true) :
    ((imaged 10 1 1).setFld SEC_UPDATE_STATUS.state 0 0 1).updState = 1 ∧ (imaged 10 1 1).updateCode = 0 := by
  refine ⟨by decide +kernel, ?_⟩
  have h := imaged_passes 10 1 1 0 (by decide) (by decide) hh hv
  have hi : (imaged 10 1 1).imageCode 0 = 0 := by
    refine Decidable.byContradiction fun hne => ?_
    have := h.1
    unfold State.headerCode at this
    rw [if_pos hne] at this
    exact hne this
  unfold State.updateCode
  rw [show (imaged 10 1 1).sec.verSlot = 0 from rfl, if_neg (by rw [hi]; decide), h.2]

theorem witness_FirmwareIsUpdatedFlashedAndAttested :
    base.updState ≠ 1 ∧ (base.setFld SEC_UPDATE_STATUS.state 0 0 1).updState = 1 ∧
    (base.setFld SEC_UPDATE_STATUS.state 0 0 3).updState = 3 ∧ directMaster (0 : Master).toNat = true ∧ base.waits = [] ∧
    base.imageCode 0 = 1 ∧
    base.flashBusy = false ∧ (base.setFlag SEC_FLASH_CTL.busy 0 0 true).flashBusy = true ∧
    base.flag SEC_QUOTE_CTL.busy 0 0 = false ∧ (base.setFlag SEC_QUOTE_CTL.busy 0 0 true).flag SEC_QUOTE_CTL.busy 0 0 = true ∧
    51 < 52 := by decide +kernel

/-- A log with no room for the record of a register write, and such a write waiting. -/
def stalled : State :=
  { base.setFld LOG_TAIL.count 0 0 8128 with
    waits := [⟨0, (RegRef.mk .TOP_PIN_OWNER 0 0).off, .w64, some 1, none, 0⟩] }

/-- Counter 511 counts every cycle. -/
def counting : State := (base.setFlag PMC_EVSEL.enable 0 511 true).setFld PMC_COUNT.value 0 511 (2 ^ 48 - 1)

theorem witness_RecordsCountersAndSamplesAreKept :
    (base.Ok ∧ base.logTail + 1 < 2 ^ 64 ∧ base.logTail < 524288 ∧ 524288 ≤ (base.setFld LOG_TAIL.count 0 0 524288).logTail) ∧
    (base.stalledWrite = none ∧ stalled.stalledWrite.isSome = true) ∧
    (let s := base.setFlag LOG_CTL.mirror_en 0 0 true
     base.flag LOG_CTL.mirror_en 0 0 = false ∧ s.inSetup 16 = false ∧ s.flag LOG_CTL.mirror_en 0 0 = true ∧
      ({ s.log with tailTold := 1 } : LogState).tailTold ≠ s.logTail ∧ s.portCarries 0 = false ∧ linked.portCarries 0 = true) ∧
    (bitOf 0 62 = false ∧ 0 < 1 ∧ 511 < 512 ∧ bitOf 0 59 = false ∧ 2 ^ 48 ≤ counting.count 511 + 1) ∧
    (base.pmcRuns = true ∧ State.reset.pmcRuns = false ∧ base.pmc.freezeAt = none ∧
      ({ base.pmc with freezeAt := some 9 } : PmcState).freezeAt = some 9) ∧
    base.cyclesTo 16 0 1 = none ∧ 2 ^ 64 - 1 < 2 ^ 64 ∧
    (SMap.find? base.pmc.live 63 = none ∧ base.fld PMC_SAMPLE_TAIL.count 0 0 - base.fld PMC_SAMPLE_HEAD.count 0 0 < base.sampleBuf ∧
      (let s := base.setFld PMC_SAMPLE_TAIL.count 0 0 base.sampleBuf
       s.sampleBuf ≤ s.fld PMC_SAMPLE_TAIL.count 0 0 - s.fld PMC_SAMPLE_HEAD.count 0 0)) :=
  ⟨⟨ok_of _ (by decide +kernel) (by decide +kernel), by decide +kernel⟩, by decide +kernel⟩

/-- Power good, core clock running. -/
def powered : State :=
  ({ base with pwr := { base.pwr with pwrgood := true } } : State).setFld PWR_STATUS.pll_lock 0 0 0x3F

theorem witness_PinsPowerAndManagementAct :
    ((powered.setFld TOP_PIN_OWNER.func0 0 0 1).pinFunc 0 = 1 ∧ powered.pinFunc 3 ≠ 1 ∧ powered.pinFunc 3 ≠ 4) ∧
    ((∀ k, k < 4 → powered.pinFunc k ≠ 3)) ∧
    (State.reset.pwr.pwrgood = false ∧ powered.pwr.pwrgood = true ∧ bitOf (powered.fld PWR_STATUS.pll_lock 0 0) 5 = true ∧
      bitOf (State.reset.fld PWR_STATUS.pll_lock 0 0) 5 = false) ∧
    (let s := ((powered.setFlag PWR_STATUS.core_ref_ok 0 0 true).setFld PWR_STATUS.fab_ref_ok 0 0 0xF).setFld PWR_STATUS.host_ref_ok 0 0 0xFF
     s.flag PWR_STATUS.core_ref_ok 0 0 = true ∧ bitOf (s.fld PWR_STATUS.fab_ref_ok 0 0) (4 - 1) = true ∧
      bitOf (s.fld PWR_STATUS.host_ref_ok 0 0) (12 - 5) = true) ∧
    (let warn := s16 (powered.fld PWR_THERMAL_CFG.warn 0 0)
     let trip := min (s16 (powered.fld PWR_THERMAL_CFG.trip 0 0)) 0x398
     warn ≤ warn ∧ warn - 16 < warn - 15 ∧ warn - 15 < warn ∧ warn - 16 ≤ warn - 16 ∧ trip - 1 < trip ∧ powered.pwr.hot < 2 ∧
      powered.pwr.warned = false) ∧
    (2000 ≤ 2000 ∧ (lifeSeconds 760).2 = true ∧ (lifeSeconds 761).2 = false) ∧
    (powered.pwr.dyn = none ∧ ({ powered.pwr with dyn := some 8 } : PwrState).dyn ≠ none) ∧
    (powered.pwr.mb.busy = none ∧ (1 : Word).getLsbD 0 = true ∧ powered.coreClock = true ∧ State.reset.coreClock = false ∧
      (0 : Word).getLsbD 0 = false) ∧
    (({ powered.pwr.mb with busy := some 5 } : Mailbox).busy = some 5 ∧ powered.pwr.mb.got = none) ∧
    (halted.stopped = true ∧ State.reset.sec.step < 6 ∧ ¬((booting 10).sec.step < 6 ∨ (booting 10).fld SEC_BOOT_STATUS.state 0 0 = 3 ∨
      (booting 10).stopped = true)) ∧
    (powered.pwr.jtag.status ≠ 1 ∧ ({ powered.pwr.jtag with status := 1 } : Jtag).status = 1) := by decide +kernel

theorem witness_FieldsTakeAWriteByTheirAccessType :
    HIF_PORT_CFG.mode ∈ (⟨.HIF_PORT_CFG, 0, 0⟩ : RegRef).reg.fields ∧ HIF_PORT_CFG.mode.acc = .sl ∧
    (∃ f ∈ (⟨.FLT_THRESH, 0, 0⟩ : RegRef).reg.fields, f.acc = .rw) ∧
    (∃ f ∈ (⟨.HIF_PORT_STATUS, 0, 0⟩ : RegRef).reg.fields, f.acc = .ro) ∧
    (∃ f ∈ (⟨.LNK_PORT_STATUS, 0, 0⟩ : RegRef).reg.fields, f.acc = .w1c) ∧
    (∃ f ∈ (⟨.TOP_SETUP_DONE, 0, 0⟩ : RegRef).reg.fields, f.acc = .w1s) ∧
    (∃ f ∈ (⟨.PMC_FREEZE, 0, 0⟩ : RegRef).reg.fields, f.acc = .wo) ∧
    (∀ f ∈ (⟨.HIF_PORT_STATUS, 0, 0⟩ : RegRef).reg.fields, (1 <<< 63 : Word) &&& f.mask = 0) := by decide +kernel

/-! ## What WellFormed refuses -/

theorem test_wf_refuses_links : (Instr.hostLinkTrained 0 0 3 ⟨6, none⟩).ok = false ∧ (Instr.hostLinkTrained 0 0 16 ⟨7, none⟩).ok = false ∧
    (Instr.dllActiveChange 0 0 true 8 ⟨0, none⟩).ok = false := by decide

theorem test_wf_refuses_pages : (Instr.doorbellTail 0 (.ctx (2 ^ 20)) 0).ok = false ∧
    (Instr.cqArm 0 (.vf 0 0 16) 0).ok = false ∧ (Instr.cqHeadWrite 0 (.ctx (2 ^ 20)) 0).ok = false ∧
    (Instr.inlineDoorbell 0 (.ctx (2 ^ 20)) none).ok = false := by decide

theorem test_wf_refuses_contexts : (Instr.descriptorFetch (2 ^ 20)).ok = false ∧
    (Instr.descriptorReturn 0 (List.replicate 65 0)).ok = false ∧ (Instr.contextClosed (2 ^ 20)).ok = false ∧
    (Instr.contextFill (2 ^ 20)).ok = false ∧ (Instr.firmwareProbeResult (2 ^ 20)).ok = false ∧
    (Instr.recvHoldRelease (2 ^ 20)).ok = false ∧ (Instr.pendingCommitApply 65536).ok = false := by decide

theorem test_wf_refuses_handles : (Instr.put ⟨0, 2 ^ 32⟩).ok = false ∧ (Instr.collBarrier ⟨2 ^ 20, 0⟩).ok = false ∧
    (Instr.semTry ⟨2 ^ 20, 0⟩).ok = false ∧ (Instr.busyRetryExpire ⟨2 ^ 20, 0⟩).ok = false ∧
    (Instr.resendTimerExpire (.pull ⟨2 ^ 20, 0⟩)).ok = false ∧ (Instr.rerequestTimerExpire ⟨0, 0⟩ 16 0).ok = false ∧
    (Instr.rerequestTimerExpire ⟨0, 0⟩ 0 (2 ^ 26)).ok = false ∧ (Instr.pullRouteTimeout ⟨0, 2 ^ 32⟩).ok = false := by decide

theorem test_wf_refuses_operations : (Instr.pinLimitExpire ⟨0, 2 ^ 40, 0⟩).ok = false ∧
    (Instr.atomicopCompletion ⟨0, 0, 2 ^ 32⟩ .error).ok = false := by decide

theorem test_wf_refuses_packets : (Instr.putDataArrival ⟨0, [1]⟩).ok = false ∧ (Instr.lineStateNotice ⟨0, [1]⟩).ok = false ∧
    (Packet.mk (BitVec.ofNat 256 (4129 * 2 ^ 91)) (List.replicate 4129 0)).ok = false := by decide +kernel

theorem test_wf_refuses_accesses : (Instr.fmemHostAccess 0 0 (.read 4097)).ok = false ∧
    (Instr.fmemHostAccess 0 0 (.write [])).ok = false ∧ (Instr.scratchpadHostAccess 0 (64 * 2 ^ 20) (.read 1) []).ok = false ∧
    (Instr.scratchpadHostAccess 0 0 (.read 1) [⟨64 * 2 ^ 20, .read 1⟩]).ok = false ∧
    (Instr.spdBusyRetry (64 * 2 ^ 20)).ok = false ∧ (Instr.hostReadCompletion 0 0 (List.replicate 4097 0)).ok = false := by
  decide +kernel

theorem test_wf_refuses_lanes : (Instr.eyeWindowEnd 0 [1, 2, 3] [1, 2, 3]).ok = false ∧ (Instr.eyeWindowEnd 0 [1, 2] [1]).ok = false ∧
    (Instr.codewordReceive 0 [0]).ok = false ∧ (Instr.time 0 0 (2 ^ 64)).ok = false := by decide +kernel

theorem test_wf_refuses_cores : (Instr.tlbMiss 0 0 3).ok = false ∧ (Instr.tlbFill 0 0 (2 ^ 24)).ok = false ∧
    (Instr.tlbLockFill 0 0 0 4).ok = false ∧ (Instr.tlbRefuse 0 256).ok = false := by decide

theorem test_wf_refuses_repairs : (Instr.marchDone 0 [(64, 0)]).ok = false ∧ (Instr.faultWindowEnd 0 2048).ok = false ∧
    (Instr.pseudoChannelCopyDone 128).ok = false ∧ (Instr.hbmRowRepairDone 128).ok = false ∧
    (Instr.hbmReadError (144 * 2 ^ 30) false).ok = false ∧ (Instr.scratchpadEccError (64 * 2 ^ 20) false).ok = false := by decide

theorem test_wf_refuses_boot : (Instr.pwrgoodRise ⟨4, 0⟩).ok = false ∧ (Instr.bootFusesSensed 256 ⟨0, 0, [], []⟩ []).ok = false ∧
    (Instr.bootFusesSensed 0 ⟨0, 0, [], []⟩ [(64, 0)]).ok = false ∧
    (Instr.bootHeadersChecked 8 0).ok = false ∧ (Instr.updateVerified (360 * 2 ^ 20)).ok = false ∧
    (Instr.bootFirmwareVerified 9 0 [] false).ok = false ∧ (Instr.bootFirmwareVerified 0 0 (List.replicate 2049 (0, 0)) false).ok = false ∧
    (Instr.bootRelease ⟨true, [[]], []⟩).ok = false ∧ (Instr.bootRelease ⟨true, [], [0]⟩).ok = false := by decide +kernel

theorem test_wf_refuses_management : (Instr.sampleRecordWrite 64).ok = false ∧ (Instr.sampleLimitExpire 64).ok = false ∧
    (Instr.thermalReading (2 ^ 16) 0 0).ok = false ∧ (Instr.refclkLoss 13).ok = false ∧ (Instr.refclkReturn 13).ok = false ∧
    (Instr.setdasa 128).ok = false ∧ (Instr.entdaa 128).ok = false := by decide

/-! ## Worked examples of the spec -/

/-- The identifiers of context 0x0_0A3F on port 2 of node (5, 17, 3) (R17 to R19). -/
theorem test_identifiers : nodeOf 5 17 3 = 7733 ∧ mkEp 7733 2 0xA3F = 0xF1AA00A3F ∧
    mkHandle 10 0xA3F (5 * 1024 + 0x123) 0xBEEF = 0x00A3F0123005BEEF ∧ mHost 3 37 = 0x0C0025 ∧ mCore 5 = 0x200005 := by decide

/-- Register offsets (R32, R43, R267, R354). -/
theorem test_offsets : (RegRef.mk .HIF_VF_CTX_BLOCK 3 37).off = 0x13C920 ∧ (RegRef.mk .LAN_STATUS 79 0).off / 0x800 * 0x800 = 0xA27800 ∧
    (RegRef.mk .SEM_ACQ 9 6).off + 0 = 0xD01270 ∧ (RegRef.mk .PMC_EVSEL 0 32).off = 0x1101100 ∧
    (RegRef.mk .FLT_COUNT 9 315).off = 0x9F49D8 ∧ (RegRef.mk .FLT_ALSO 9 4).off = 0x9F0120 := by decide +kernel

/-- The context of a virtual function's page and the PF's (R36, R47). -/
theorem test_vf_page : let s := base.setFld HIF_VF_CTX_BLOCK.block 3 37 156
    s.pageCtx (.vf 3 36 0x2A5) = 639653 ∧ s.pageCtx (.ctx 639653) = 639653 := by decide +kernel

/-- The PUT of chapter 3: its bytes, its parts, and the flits of its packets (R93, R170, R236). -/
theorem test_put_descriptor : let d := BitVec.ofNat 512 (ofLE ([0x01, 0x08, 0x01, 0x7C, 0x44, 0x1C, 0x00, 0xC4, 0x31, 0x00, 0x03, 0x00,
      0x17, 0x5A, 0, 0, 0, 0, 0, 0x20, 0x40, 0, 0, 0, 0, 0x80, 0, 0, 0, 0, 0, 0, 0x70, 0x17] : List Byte))
    dOpcode d = 1 ∧ dClass d = 1 ∧ dTag d = 0x7C01 ∧ dTarget d = 0x31C4001C44 ∧ dWindow d = 3 ∧ dKey d = 0x5A17 ∧
    dAddr d = 0x4020000000 ∧ dAddr2 d = 0x8000 ∧ dLength d = 6000 ∧ dKind d = 0 ∧ descCheck d = none ∧ partsOf 6000 = 2 ∧
    partLen 6000 0 = 4096 ∧ partLen 6000 1 = 1904 ∧ pFlits ⟨0, List.replicate 4104 0⟩ = 65 ∧ pFlits ⟨0, List.replicate 1912 0⟩ = 31 := by
  decide +kernel

/-- Its handle and the first bytes of its completion entry (R19, R100). -/
theorem test_put_completion : mkHandle 10 0xA3F 5222 0x7C01 = 0x00A3F00660057C01 ∧
    (mkEntry 0x00A3F00660057C01 0 0 true 6000 0 0).take 12 = [0x01, 0x7C, 0x05, 0x60, 0x06, 0xF0, 0xA3, 0, 0, 0, 1, 0] := by
  decide +kernel

/-- A tail doorbell of one descriptor on an open context moves the tail by one (R77). -/
theorem test_doorbell : (match exec (.doorbellTail 0 (.ctx 1) 5) ring with | .next t => (t.ctx 1).tail | _ => 0) = 5 := by
  decide +kernel

/-- m1 of chapter 5 binds Ra, whose stamp is lower than Rb's; m2 then binds Rb (R145, R148). -/
theorem test_matching : let r (cls stamp : Nat) : MatEntry := { recvEntry (handle 1 stamp recvDesc) with
      cls := cls, comm := 5, rank := if cls = 0 then 12 else 0, tag := 100, stamp := stamp }
    let m : MatEntry := { msgOf (sendPkt 0 0) with comm := 5, rank := 12, tag := 100 }
    let s (l : SMap MatEntry) : State := { ring.setCtx 1 { opened1 with wcSrc := 1 } with mat := { ring.mat with store := l } }
    ((s [(0, r 0 40), (1, r 1 41), (2, r 0 42)]).bestReceive m).map (fun x => x.1) = some 0 ∧
    ((s [(1, r 1 41), (2, r 0 42)]).bestReceive m).map (fun x => x.1) = some 1 := by decide +kernel

/-- A PUT of one part is stored at its window's base plus its offset and answered (R119, R170). -/
theorem test_put_arrival : (match exec (.putDataArrival (putPkt 5 0 5)) windowed with | .next t => t.fmem.read 4096 8 | _ => []) =
    List.replicate 8 7 := by decide +kernel

/-- FETCH_ADD and MIN_S on two operands; the sum of −0 and +0 is +0 (R185, R186). -/
theorem test_atomics : (atomNew 1 5 7 0).toNat = 12 ∧ (atomNew 7 (2 ^ 64 - 1) 1 0).setWidth 64 = (2 ^ 64 - 1 : BitVec 64) ∧
    fetchAddF64 0x3FF0000000000000 0x4000000000000000 = 0x4008000000000000 ∧ fetchAddF64 0x8000000000000000 0 = 0 := by decide +kernel

/-- The eye of chapter 9: the least of its three eyes is 16.39 dB (R271). -/
theorem test_eye : eyeFigure [-960, -320, 320, 960] [50, 45, 45, 52] = 164 := by decide +kernel

/-- The line ports of the natural map to x 40, y 2, z 11 of node (5, 17, 3) (R233). -/
theorem test_ports : portDim 39 = 0 ∧ portDim 49 = 1 ∧ portDim 104 = 2 ∧ nodeOf 40 2 11 = 25480 ∧ nodeCoord 25480 0 = 40 ∧
    nodeCoord 25480 1 = 2 ∧ nodeCoord 25480 2 = 11 := by decide

/-- The stamps of chapter 10 in 0.25 ns: delay 49.25 ns, offset 4.25 ns (R315). -/
theorem test_time : let f := ctlFlit [(0, 1, 4), (8, 8, 4002000), (16, 8, 4000214), (24, 8, 4000000)]
    (match exec (.time 0 f 4002180) live with
      | .next t => (t.fld LNK_TIME_STATUS.delay 0 0, (t.lport 0).offset)
      | _ => (0, 0)) = (197, 17) := by decide +kernel

/-- The words that SEM_ACQ[9] returns in chapter 11 (R346, R348). -/
theorem test_semaphore : let s := (base.semAcquire 9 0x040003 2).2
    let x := s.semAcquire 9 0x200005 6
    (base.semAcquire 9 0x040003 2).1 = 1 ∧ semWord (x.2.semOf 9) x.1 = 0x604000302 ∧
    semWord { Semaphore.init with holder := some 0x200005, prio := 6 } 3 = 0x620000503 := by decide +kernel

/-- Three faults of LNK in one cycle: the severe one is the first record, the others merge (R367 to R369). -/
theorem test_faults : let s := (base.setFld FLT_COUNT.total 9 315 6).setFld FLT_COUNT.win_count 9 315 3
    let s : State := { s with flt := { s.flt with wins := [(srcKey 9 315, ⟨10 ^ 12, 3⟩)] } }
    let t := ((s.fault 9 96 12).fault 9 315 39).fault 9 316 39
    t.reg ⟨.FLT_FIRST, 9, 0⟩ = 0x813BA00009000027 ∧ t.fld FLT_STATUS.also_count 9 0 = 2 ∧
    bitOf (t.reg ⟨.FLT_ALSO, 9, 1⟩).toNat 32 = true ∧ bitOf (t.reg ⟨.FLT_ALSO, 9, 4⟩).toNat 60 = true := by decide +kernel

/-- The record of the change to RTE_CTL.hold_us (R434), and the reset value it starts from. -/
theorem test_log_record : resetWord (RegRef.mk .RTE_CTL 0 0).off = 0x0032400500000004 ∧
    (LogRec.bytes ⟨0x0000012345679000, 0x0032400500000004, 0x0028400500000004, 0x080000, 0, 0, 0x800000⟩) =
      [0, 0x90, 0x67, 0x45, 0x23, 1, 0, 0, 4, 0, 0, 0, 5, 0x40, 0x32, 0, 4, 0, 0, 0, 5, 0x40, 0x28, 0, 0, 0, 8, 0, 0, 0, 0x80, 0] := by
  decide +kernel

/-- Power-up starts at PWRGOOD with step 1 (R417). -/
theorem test_power_up : (match exec (.pwrgoodRise ⟨0, 0x1FFF⟩) State.reset with | .next t => t.sec.step | _ => 0) = 1 := by decide +kernel

/-- One second at 105 °C counts as two (R493). -/
theorem test_life : lifeSeconds (8 * 105) = (2, true) ∧ lifeSeconds (8 * 95) = (1, true) := by decide +kernel

/-- No row of the table gives bits: no word spells a command. -/
theorem test_decode : decodeTableWord 64 0 = none ∧ State.reset.withFetchWord 64 0 = State.reset := ⟨rfl, rfl⟩

/-- IDCODE shifts 0x1004_89CB out (R491). -/
theorem test_idcode : (match exec .idcode State.reset with | .next t => t.out.getLast? | _ => none) = some (.jtag .idcode 0x100489CB) := by
  decide +kernel

/-- The physical function's IDs are those of R45. -/
theorem test_config_id : (linked.cfgFields 0 0).filter (fun e => e.1 == 0) = [(0, 15, 0, 0x1E7A), (0, 31, 16, 0x48)] ∧
    putBits (putBits 0xFFFFFFFF 15 0 0x1E7A) 31 16 0x48 = 0x00481E7A := by decide +kernel

/-- A write of fabric memory through BAR6 reads back, and the byte after it is untouched (R131). -/
theorem test_fmem : (match exec (.fmemHostAccess 0 100 (.write [1, 2, 3])) linked with | .next t => t.fmem.read 100 4 | _ => []) =
    [1, 2, 3, 0] := by decide +kernel

/-- A NOP completes DONE: the entry is posted and the handle is gone (R87, R99). -/
theorem test_nop : (match exec (.nop ⟨1, 0⟩) (holding [0]) with | .next t => ((t.ctx 1).post, (t.handle? ⟨1, 0⟩).isNone) | _ => (0, false)) =
    (3, true) := by decide +kernel

/-- A write of NODE_COORD beyond 47 in setup is refused and counted; one within is stored (R15, R17). -/
theorem test_node_coord : (match exec (.nodeCoordWrite 0 ⟨.full, 5 + 17 * 2 ^ 8 + 3 * 2 ^ 16⟩) State.reset with
      | .next t => t.node
      | _ => 0) = 7733 ∧
    (match exec (.nodeCoordWrite 0 ⟨.full, 48⟩) State.reset with
      | .next t => (t.node, t.fld FLT_COUNT.total 0 0)
      | _ => (1, 0)) = (0, 1) := by decide +kernel

/-- The natural map of a node (5, 17, 3): ports 4 and 5 of x have the peers 4 and 6, port 46 of z the peer 47 (R234). -/
theorem test_natural_map :
    let s := ((base.setFld TOP_NODE_COORD.x 0 0 5).setFld TOP_NODE_COORD.y 0 0 17).setFld TOP_NODE_COORD.z 0 0 3
    let u := s.naturalMap
    [4, 5, 47 + 16, 47 + 17, 94 + 46].map (fun p => u.fld RTE_PORT_MAP.peer 0 p) = [4, 6, 16, 18, 47] := by decide +kernel

/-- A duplicate that is answered counts in RMA_DUP_COUNT and in no fault source (R179). -/
theorem test_answered_duplicate_counts :
    let v := base.newOp ⟨mkHdr 0 1 1 7 0 1 0 0 0 0 8 (kindReq 5 0 0 5 0 true false 0 8), []⟩ .ended 0 0 0 false
    let u := base.answerAgain ⟨0, []⟩ v
    u.fld RMA_DUP_COUNT.count 0 0 = 1 ∧ u.fld FLT_COUNT.total 6 1 = 0 := by decide +kernel

/-- Instructions of RV64IMAC: add, c.add, ld, sd, beq, mulh, lr.w, amoadd.d, csrrw, and what is no instruction (R321, log entry 59). -/
theorem test_rv_decode : rvDecode32 0x00208133 = .alu false .add 2 1 (.reg 2) ∧ rvDecode16 0x910A = .alu false .add 2 2 (.reg 2) ∧
    rvDecode32 0xFF843503 = .load 8 true 10 8 (-8) ∧ rvDecode32 0x00A13423 = .store 8 2 10 8 ∧
    rvDecode32 0xFE208EE3 = .branch .eq 1 2 (-4) ∧ rvDecode32 0x02209133 = .mul false .mulh 2 1 2 ∧
    rvDecode32 0x1000A12F = .lr 4 2 1 ∧ rvDecode32 0x0020B1AF = .amo .add 8 3 1 2 ∧
    rvDecode32 0x34009173 = .csr .rw 2 0x340 (.reg 1) ∧ rvDecode32 0 = .illegal ∧ rvDecode16 0 = .illegal := by decide +kernel

/-- A core that executes c.add x2, x2 doubles x2 and moves on by 2. -/
theorem test_core_step : let v := ((executing [0x0A, 0x91]).coreStep 0).core 0
    v.xr 2 = 14 ∧ v.pc = 2 ∧ v.xr 1 = 6 := by decide +kernel

/-- Two balls of R471, and the balls of all rails. -/
theorem test_package : hostBall 5 0 3 = ⟨37, 112⟩ ∧ fabricBall 200 3 = ⟨109, 9⟩ ∧ (rails.map fun r => r.balls).sum = 5816 := by
  decide +kernel

end Sys2Proof.Tests
end

section
/-!
SUPPORT. The register map as a search sees it: every register stands in its block's list or in the fault window's, inside the
offsets where that list is searched, and the registers of one list share no offset (R12, R16, R32, R357).
-/
namespace Sys2Proof.Machine

/-- The registers of a list lie well and apart, as `Reg.findSome_off` asks. -/
def Reg.Separate (l : List Reg) : Prop :=
  l.all (fun g => g.shape.good) = true ∧
    l.Pairwise fun g h => Shape.apart g.shape h.shape = true ∧ Shape.apart h.shape g.shape = true

theorem Reg.mem_all (g : Reg) : g ∈ Reg.all := by cases g <;> decide

theorem Reg.mem_faultRegs_or_ofBlock (g : Reg) : g ∈ Reg.faultRegs ∨ ∃ b < 20, g ∈ Reg.ofBlock b := by
  have h := g.mem_all
  simp only [Reg.all, List.mem_append, List.mem_flatten, List.mem_map, List.mem_range] at h
  rcases h with ⟨_, ⟨b, hb, rfl⟩, hg⟩ | hg
  · exact .inr ⟨b, hb, hg⟩
  · exact .inl hg

theorem Reg.faultRegs_separate : Reg.Separate Reg.faultRegs := by
  unfold Reg.Separate
  decide +kernel

theorem Reg.ofBlock_separate : ∀ b < 20, Reg.Separate (Reg.ofBlock b) := by
  unfold Reg.Separate
  decide +kernel

/-- A fault window is the last 64 KiB of its block's 1 MiB (R357). -/
theorem Reg.faultRegs_place : ∀ g ∈ Reg.faultRegs,
    g.shape.s1 = 0x100000 ∧ 0xF0000 ≤ g.shape.base ∧ g.shape.base + g.shape.width ≤ 0x100000 := by decide

/-- A block's own registers lie in its 1 MiB, before the fault window (R32). -/
theorem Reg.ofBlock_place : ∀ b < 20, ∀ g ∈ Reg.ofBlock b,
    b * 0x100000 ≤ g.shape.base ∧ g.shape.base + g.shape.extent ≤ b * 0x100000 + 0xF0000 := by decide +kernel

theorem Reg.shape_aligned (g : Reg) : 8 ∣ g.shape.base ∧ 8 ∣ g.shape.s1 ∧ 8 ∣ g.shape.s2 := by
  have h : ∀ g ∈ Reg.all, 8 ∣ g.shape.base ∧ 8 ∣ g.shape.s1 ∧ 8 ∣ g.shape.s2 := by decide +kernel
  exact h g g.mem_all

/-- Every register lies at a multiple of 8 (R11). -/
theorem RegRef.off_mod_eight (r : RegRef) : r.off % 8 = 0 := by
  obtain ⟨hb, h1, h2⟩ := r.reg.shape_aligned
  exact Nat.mod_eq_zero_of_dvd
    (Nat.dvd_add (Nat.dvd_add hb (h1.mul_left _)) (h2.mul_left _))

/-- The list searched at a register's offset is one of separate registers that holds it. -/
theorem RegRef.off_searched {r : RegRef} (hr : r.inShape = true) :
    ∃ l, l = (if r.off % 0x100000 < 0xF0000 then Reg.ofBlock (r.off / 0x100000) else Reg.faultRegs) ∧
      Reg.Separate l ∧ r.reg ∈ l := by
  rcases r.reg.mem_faultRegs_or_ofBlock with hf | ⟨b, hb, hg⟩
  · obtain ⟨hs, hlo, hhi⟩ := Reg.faultRegs_place _ hf
    obtain ⟨b1, b2, -⟩ := RegRef.off_bounds (List.all_eq_true.1 Reg.faultRegs_separate.1 _ hf) hr
    rw [hs] at b1 b2
    exact ⟨_, (if_neg (by omega)).symm, Reg.faultRegs_separate, hf⟩
  · obtain ⟨hlo, hhi⟩ := Reg.ofBlock_place b hb _ hg
    obtain ⟨b1, -, b3⟩ := RegRef.off_bounds (List.all_eq_true.1 (Reg.ofBlock_separate b hb).1 _ hg) hr
    have hoff : r.off / 0x100000 = b := by omega
    refine ⟨_, ?_, Reg.ofBlock_separate b hb, hg⟩
    rw [if_pos (by omega), hoff]

/-- The register found at an element's offset is that element. -/
theorem regAt_off {r : RegRef} (hr : r.inShape = true) (hl : r.live = true) : regAt r.off = some r := by
  obtain ⟨l, hsearch, ⟨hgood, hapart⟩, hm⟩ := RegRef.off_searched hr
  unfold regAt
  simp only [← hsearch, Reg.findSome_off hgood hapart hm hr, if_pos hl]

/-- Settles O9: an offset lies in the range where one list of separate registers is searched, and the search finds the register
it comes from. -/
theorem theRegisterMapIsUnambiguous : Obligations.TheRegisterMapIsUnambiguous :=
  fun r hr hl => ⟨regAt_off hr hl, r.off_mod_eight⟩

end Sys2Proof.Machine
end

section
/-!
SUPPORT. The merge of a write into a register, field by field: the fields of a register share no bit, so each bit of the merged
value is decided by at most one of them (R11, R13 to R15).
-/
namespace Sys2Proof.Machine

theorem Reg.fields_apart (g : Reg) : g.fields.Pairwise fun f h => f.mask &&& h.mask = 0 := by
  have h : ∀ g ∈ Reg.all, g.fields.Pairwise fun f h => f.mask &&& h.mask = 0 := by decide +kernel
  exact h g g.mem_all

/-- One field put into a register's value. -/
def State.mergeStep (s : State) (r : RegRef) (m v o a : Word) (f : Field) : Word :=
  (a &&& ~~~f.mask) ||| s.mergeField r m v o f

theorem State.merge_eq_foldl (s : State) (r : RegRef) (m v o : Word) :
    s.merge r m v o = r.reg.fields.foldl (s.mergeStep r m v o) o := rfl

section
variable (s : State) (r : RegRef) (m v o : Word)

/-- What a field takes lies in its own bits. -/
theorem State.mergeField_and_mask (f : Field) : s.mergeField r m v o f &&& f.mask = s.mergeField r m v o f := by
  unfold State.mergeField
  cases f.acc <;> ext j hj <;> grind

theorem State.mergeStep_and_mask (a : Word) (f : Field) :
    s.mergeStep r m v o a f &&& f.mask = s.mergeField r m v o f := by
  rw [← s.mergeField_and_mask r m v o f]
  unfold State.mergeStep
  ext j hj
  grind

/-- Bits that a field does not have are kept. -/
theorem State.mergeStep_and_of_apart (a : Word) {f : Field} {x : Word} (hx : x &&& f.mask = 0) :
    s.mergeStep r m v o a f &&& x = a &&& x := by
  have hm := s.mergeField_and_mask r m v o f
  unfold State.mergeStep
  generalize s.mergeField r m v o f = y at *
  ext j hj
  have hxj : (x &&& f.mask)[j] = false := by simp [hx]
  have hmj : (y &&& f.mask)[j] = y[j] := by rw [hm]
  grind

theorem State.foldl_mergeStep_and_of_apart {x : Word} (fs : List Field) (a : Word) (hx : ∀ f ∈ fs, x &&& f.mask = 0) :
    fs.foldl (s.mergeStep r m v o) a &&& x = a &&& x := by
  induction fs generalizing a with
  | nil => rfl
  | cons f fs ih =>
    rw [List.forall_mem_cons] at hx
    rw [List.foldl_cons, ih _ hx.2, s.mergeStep_and_of_apart r m v o a hx.1]

theorem State.foldl_mergeStep_and_mask (fs : List Field) (a : Word)
    (hfs : fs.Pairwise fun f h => f.mask &&& h.mask = 0) {f : Field} (hf : f ∈ fs) :
    fs.foldl (s.mergeStep r m v o) a &&& f.mask = s.mergeField r m v o f := by
  induction fs generalizing a with
  | nil => cases hf
  | cons g fs ih =>
    rw [List.pairwise_cons] at hfs
    rw [List.foldl_cons]
    rcases List.mem_cons.1 hf with rfl | hf
    · rw [s.foldl_mergeStep_and_of_apart r m v o fs _ hfs.1, s.mergeStep_and_mask]
    · exact ih _ hfs.2 hf

/-- In its own bits, the merged value is what the field takes. -/
theorem State.merge_and_mask {f : Field} (hf : f ∈ r.reg.fields) : s.merge r m v o &&& f.mask = s.mergeField r m v o f := by
  rw [s.merge_eq_foldl, s.foldl_mergeStep_and_mask r m v o _ _ r.reg.fields_apart hf]

/-- Bits that no field has are kept (R13). -/
theorem State.merge_and_reserved {x : Word} (hx : ∀ f ∈ r.reg.fields, x &&& f.mask = 0) :
    s.merge r m v o &&& x = o &&& x := by
  rw [s.merge_eq_foldl, s.foldl_mergeStep_and_of_apart r m v o _ _ hx]

end

/-- Settles O11: each field's bits are those that its access type gives (`mergeField`), and the rest is kept. -/
theorem fieldsTakeAWriteByTheirAccessType : Obligations.FieldsTakeAWriteByTheirAccessType := by
  intro s r m v o
  refine ⟨fun f hf => ?_, fun x hx => s.merge_and_reserved r m v o hx⟩
  rw [s.merge_and_mask r m v o hf]
  unfold State.mergeField
  refine ⟨fun h => ?rw, ?kept, fun h => ?w1c, fun h => ?w1s, fun h => ?sl⟩
  case kept => rintro (h | h | h) <;> rw [h]
  all_goals
    rw [h]
    ext j hj
    grind

end Sys2Proof.Machine
end

section
/-!
SUPPORT. Identifiers: the parts of node IDs, endpoints, handles and master IDs (R17 to R19, R29, R74).
-/
namespace Sys2Proof.Machine

theorem nodeOf_parts {x y z : Nat} (hx : x < 48) (hy : y < 48) (hz : z < 48) :
    nodeOf x y z < 110592 ∧ nodeOf x y z / 2304 = z ∧ nodeOf x y z % 2304 / 48 = y ∧ nodeOf x y z % 48 = x := by
  unfold nodeOf
  omega

theorem nodeOf_coords {id : Nat} (h : id < 110592) : id / 2304 < 48 ∧ nodeOf (id % 48) (id % 2304 / 48) (id / 2304) = id := by
  unfold nodeOf
  omega

theorem mkEp_parts (node : Nat) {port ctx : Nat} (hp : port < 8) (hc : ctx < 2 ^ 20) :
    mkEp node port ctx / 2 ^ 23 = node ∧ mkEp node port ctx / 2 ^ 20 % 8 = port ∧ mkEp node port ctx % 2 ^ 20 = ctx := by
  unfold mkEp
  omega

/-- A ring of at most 2^16 slots has a slot of 16 bits, and slot and lap are the index's own quotient and remainder (R74). -/
theorem mkHandle_parts {lg ctx tag : Nat} (index : Nat) (hl : lg ≤ 16) (hc : ctx < 2 ^ 20) (ht : tag < 2 ^ 16) :
    mkHandle lg ctx index tag / 2 ^ 44 = ctx ∧ mkHandle lg ctx index tag / 2 ^ 28 % 2 ^ 16 = index % 2 ^ lg ∧
    mkHandle lg ctx index tag / 2 ^ 16 % 2 ^ 12 = index / 2 ^ lg % 4096 ∧ mkHandle lg ctx index tag % 2 ^ 16 = tag := by
  have hslot : index % 2 ^ lg < 2 ^ 16 :=
    Nat.lt_of_lt_of_le (Nat.mod_lt _ (Nat.two_pow_pos _)) (Nat.pow_le_pow_right (by omega) hl)
  unfold mkHandle
  generalize index % 2 ^ lg = slot at *
  generalize index / 2 ^ lg = lap at *
  omega

/-- A host function's master ID is below every other master's (R29). -/
theorem mHost_lt {p f : Nat} (hp : p < 8) (hf : f < 2 ^ 18) : mHost p f < 2 ^ 21 := by
  unfold mHost
  omega

theorem mHost_inj {p q f g : Nat} (hf : f < 2 ^ 18) (hg : g < 2 ^ 18) (h : mHost p f = mHost q g) : p = q ∧ f = g := by
  unfold mHost at h
  omega

theorem mHost_ne_mCore {p f : Nat} (c : Nat) (hp : p < 8) (hf : f < 2 ^ 18) : mHost p f ≠ mCore c := by
  have := mHost_lt hp hf
  unfold mCore
  omega

/-- Settles O22: each part by its own lemma. -/
theorem identifiersRoundTrip : Obligations.IdentifiersRoundTrip :=
  ⟨fun _ _ _ => nodeOf_parts, fun _ => nodeOf_coords, fun node _ _ => mkEp_parts node,
    fun _ _ index _ => mkHandle_parts index,
    fun _ _ _ _ c hp _ hf hg => ⟨mHost_inj hf hg, mHost_ne_mCore c hp hf⟩⟩

end Sys2Proof.Machine
end

section
/-!
SUPPORT. Accesses of the register space: which register an access reaches, that one which waits for nothing is performed at
once, and who takes what it brings (R11, R12, R30, R31).
-/
namespace Sys2Proof.Machine

theorem next_done_congr {s t u : State} (h : t = u) : (Host.Outcome.next (t.done s) : Res) = .next (u.done s) := by rw [h]

/-- Counting received payload touches nothing but the performance counters' events (R445). -/
theorem State.rxBytes_eq_with_pmc (s : State) (m n : Nat) : ∃ q, s.rxBytes m n = { s with pmc := q } := by
  unfold State.rxBytes State.pmcEv
  split
  · split
    · exact ⟨s.pmc, rfl⟩
    · exact ⟨_, rfl⟩
  · exact ⟨s.pmc, rfl⟩

theorem State.fabric_rxBytes (s : State) (m n : Nat) : (s.rxBytes m n).fabric = s.fabric := by
  obtain ⟨q, hq⟩ := s.rxBytes_eq_with_pmc m n
  rw [hq]
  rfl

theorem State.stopped_rxBytes (s : State) (m n : Nat) : (s.rxBytes m n).stopped = s.stopped := by
  obtain ⟨q, hq⟩ := s.rxBytes_eq_with_pmc m n
  rw [hq]
  rfl

theorem State.vfThere_rxBytes (s : State) (m n p v : Nat) : (s.rxBytes m n).vfThere p v = s.vfThere p v := by
  obtain ⟨q, hq⟩ := s.rxBytes_eq_with_pmc m n
  rw [hq]
  rfl

theorem State.fn_rxBytes (s : State) (m n p f : Nat) : (s.rxBytes m n).fn p f = s.fn p f := by
  simp [State.fn]

/-- An access that nothing blocks, and behind which none waits at its block, is performed at once (R31). -/
theorem State.regAccess_of_free {s : State} {a : WaitAcc} (hb : s.blocked a = false)
    (hw : ∀ b ∈ s.waits, b.block ≠ a.block) : s.regAccess a = s.perform a := by
  have hany : (s.waits.any fun b => b.block == a.block) = false := by simpa using hw
  unfold State.regAccess
  simp [hb, hany]

/-- A read waits only for a downstream access that holds HIF (R67). -/
theorem State.blocked_read {s : State} {a : WaitAcc} (h : a.write = none) :
    s.blocked a = (a.block == 1 && s.hif.ds.isSome) := by
  simp [State.blocked, State.logStall, State.reportStall, h]

/-- An access at a multiple of 8 of 8 bytes reaches a whole register. -/
theorem WaitAcc.part_full {a : WaitAcc} (hz : a.size = .w64) (ho : a.off % 8 = 0) : a.part = some .full := by
  unfold WaitAcc.part
  simp [hz, ho]

theorem WaitAcc.reg_full {a : WaitAcc} (hz : a.size = .w64) (ho : a.off % 8 = 0) : a.reg = regAt a.off := by
  unfold WaitAcc.reg
  simp [WaitAcc.part_full hz ho, ho]

/-- The block of an access is the 1 MiB that its offset lies in (R32). -/
theorem WaitAcc.block_eq {a : WaitAcc} {b : Nat} (hb : b < 20) (hlo : b * 0x100000 ≤ a.off)
    (hhi : a.off < (b + 1) * 0x100000) : a.block = b := by
  unfold WaitAcc.block
  rw [if_pos (by omega)]
  omega

/-- A write that reaches no register ends as an unmapped one (R12). -/
theorem State.performWrite_unmapped (s : State) {a : WaitAcc} (v : Word) (h : a.reg = none) :
    (s.performWrite a v).1 = (s.unmappedWrite a v).deliver a 0 s.stopped := by
  unfold State.performWrite
  rw [h]
  cases a.part <;> rfl

/-- A write that reaches part of a register is that register's (R11). -/
theorem State.performWrite_mapped (s : State) {a : WaitAcc} {p : AccSize} {r : RegRef} (v : Word) (hp : a.part = some p)
    (hr : a.reg = some r) : s.performWrite a v = s.writeReg a p r v := by
  unfold State.performWrite
  rw [hp, hr]

/-- A read that reaches no register brings zero (R12). -/
theorem State.performRead_unmapped (s : State) {a : WaitAcc} (h : a.reg = none) : s.performRead a = s.deliver a 0 false := by
  unfold State.performRead
  rw [h]
  cases a.part <;> rfl

/-- The registers whose read has a side effect (R14). -/
def Reg.readActs : Reg → Bool
  | .SEM_ACQ | .SEC_FLASH_DATA | .HIF_DS_CFG_DATA | .HIF_DS_MEM_DATA => true
  | _ => false

/-- A read of a register without side effect brings what the register shows (R14). -/
theorem State.performRead_shows (s : State) {a : WaitAcc} {p : AccSize} {r : RegRef} (hp : a.part = some p)
    (hr : a.reg = some r) (hn : r.reg.readActs = false) : s.performRead a = s.deliver a (s.regView r) false := by
  unfold State.performRead
  rw [hp, hr]
  obtain ⟨g, i, k⟩ := r
  dsimp only at hn ⊢
  split
  · cases hn
  · cases hn
  · cases hn
  · cases hn
  · rfl

theorem Reg.readActs_eq_false {g : Reg} (h1 : g ≠ .SEM_ACQ) (h2 : g ≠ .SEC_FLASH_DATA) (h3 : g ≠ .HIF_DS_CFG_DATA)
    (h4 : g ≠ .HIF_DS_MEM_DATA) : g.readActs = false := by
  unfold Reg.readActs
  split
  · exact absurd rfl h1
  · exact absurd rfl h2
  · exact absurd rfl h3
  · exact absurd rfl h4
  · rfl

/-- A host function takes what a read of a whole register brings in a completion (R30). -/
theorem State.deliver_host (s : State) {a : WaitAcc} (x : Word) (hm : a.m < 2 ^ 21) (hw : a.write = none)
    (hp : a.part = some .full) : s.deliver a x false = s.emit (.regData a.m a.off x) := by
  unfold State.deliver
  rw [Nat.div_eq_of_lt hm]
  simp [hw, hp, accTake]

/-- A handler core takes it into the register that waits for it (R30, R324). -/
theorem State.deliver_core (s : State) {a : WaitAcc} (x : Word) {c : Nat} (hc : c < 64) (hm : a.m = mCore c)
    (hw : a.write = none) (hp : a.part = some .full) :
    s.deliver a x false = (s.emit (.regData a.m a.off x)).coreTake c a.off x.toNat := by
  have hclass : a.m / 2 ^ 21 = 1 := by unfold mCore at hm; omega
  have hcore : a.m % 64 = c := by unfold mCore at hm; omega
  unfold State.deliver
  rw [hclass, hcore]
  simp [hw, hp, accTake]

end Sys2Proof.Machine
end

section
/-!
SUPPORT. A write at an offset that no register occupies (R11, R12).
-/
namespace Sys2Proof.Machine

/-- Settles O12: the access is performed at once, as a write that reaches no register; counting its payload changes neither the
time in its record nor whether the device has stopped. -/
theorem unmappedWritesAreLoggedAndCounted : Obligations.UnmappedWritesAreLoggedAndCounted := by
  intro m off size v s a u hm hreg hblocked hwaits
  have hperform : u.masterAccess m.toNat off.toNat size (some v) = u.perform a := by
    have hacc : u.masterAccess m.toNat off.toNat size (some v) = u.regAccess a := by
      simp [State.masterAccess, a, u]
    rw [hacc, State.regAccess_of_free hblocked (by simpa [u] using hwaits)]
  have hexec : exec (.registerWrite m (.space off) size v) s = .next ((u.perform a).done s) := by
    change Host.Outcome.next ((if directMaster m.toNat then u.masterAccess m.toNat off.toNat size (some v) else s).done s) = _
    rw [if_pos hm, hperform]
  have hwrite : u.perform a = (u.unmappedWrite a v).deliver a 0 s.stopped := by
    change (u.performWrite a v).1 = _
    rw [u.performWrite_unmapped v hreg, State.stopped_rxBytes]
  rw [hexec, hwrite, State.unmappedWrite, State.logIgnored, State.fabric_rxBytes]
  rfl

end Sys2Proof.Machine
end

section
/-!
SUPPORT. Reads of the register space: the page of a virtual function, and the windows to its MSI-X table and to handler memory
(R48 to R50, R325).
-/
namespace Sys2Proof.Machine

/-- A value put into all 64 bits of a register is what the register shows. -/
theorem withFields_whole {w : Word} {f : Field} {n : Nat} (hhi : f.hi = 63) (hlo : f.lo = 0) :
    withFields w [(f, n)] = BitVec.ofNat 64 n := by
  simp only [withFields, List.foldl_cons, List.foldl_nil, hhi, hlo]
  rw [putBits_eq _ _ _ _ (by omega)]
  apply BitVec.eq_of_toNat_eq
  have := w.isLt
  rw [BitVec.toNat_ofNat, BitVec.toNat_ofNat]
  omega

theorem State.regView_vfTblData {s : State} {p v k : Nat} (h : s.vfTblSel p = some (v, k)) :
    s.regView ⟨.HIF_VF_TBL_DATA, p, 0⟩ = s.vfWord p v k := by
  unfold State.regView State.derived
  simp only [h]
  rw [withFields_whole rfl rfl, BitVec.ofNat_toNat, BitVec.setWidth_eq]

theorem State.regView_hmemData (s : State) :
    s.regView ⟨.HDL_MEM_DATA, 0, 0⟩ =
      BitVec.ofNat 64 (if s.hmemAt < s.hmemSize then ofLE (s.hmem.read s.hmemAt 8) else 0) :=
  withFields_whole rfl rfl

/-- A 64-bit read by a master, of a register without side effect at a block that waits for nothing, brings what the register
shows. -/
theorem State.masterAccess_read (s : State) (m off : Nat) {r : RegRef} (ho : off % 8 = 0) (hr : regAt off = some r)
    (hn : r.reg.readActs = false) :
    let a : WaitAcc := ⟨m, off, .w64, none, none, s.now⟩
    s.blocked a = false → (∀ b ∈ s.waits, b.block ≠ a.block) →
      s.masterAccess m off .w64 none = s.deliver a (s.regView r) false := by
  intro a hb hw
  calc s.masterAccess m off .w64 none = s.performRead a := State.regAccess_of_free hb hw
    _ = s.deliver a (s.regView r) false :=
      s.performRead_shows (WaitAcc.part_full rfl ho) ((WaitAcc.reg_full rfl ho).trans hr) hn

/-- One at an offset where no register lies brings zero (R12). -/
theorem State.masterAccess_read_unmapped (s : State) (m off : Nat) :
    let a : WaitAcc := ⟨m, off, .w64, none, none, s.now⟩
    s.blocked a = false → (∀ b ∈ s.waits, b.block ≠ a.block) → a.reg = none →
      s.masterAccess m off .w64 none = s.deliver a 0 false := by
  intro a hb hw hr
  calc s.masterAccess m off .w64 none = s.performRead a := State.regAccess_of_free hb hw
    _ = s.deliver a 0 false := s.performRead_unmapped hr

/-- A read of HIF_VF_REG_DATA is one of its target (R49). -/
theorem State.vfPageRead_target {s : State} {p v : Nat} (h : s.vfThere p v = true) :
    s.vfPageRead p v 0x1010 .w64 = s.masterAccess (mHost p v) (s.fn p v).vfRegAddr .w64 none := by
  simp [State.vfPageRead, h]

theorem State.vfPageRead_part {s : State} {p v : Nat} {z : ReqSize} (h : s.vfThere p v = true) (hz : z ≠ .w64) :
    s.vfPageRead p v 0x1010 z = s.emit (.regData (mHost p v) 0x1010 0) := by
  simp [State.vfPageRead, h, hz]

theorem State.vfPageRead_word {s : State} {p v off : Nat} (h : s.vfThere p v = true) (ho : off % 8 = 0)
    (hne : off ≠ 0x1010) :
    s.vfPageRead p v off .w64 = s.emit (.regData (mHost p v) off (s.vfPageWord p v off)) := by
  simp [State.vfPageRead, h, ho, hne, WaitAcc.part, accTake]

/-- What the page shows at an aligned offset (R48). -/
theorem State.vfPageWord_cases (s : State) (p v off : Nat) :
    (off < 0x400 → s.vfPageWord p v off = s.msixWord p v (off / 8)) ∧ s.vfPageWord p v 0x800 = (s.fn p v).pba ∧
    s.vfPageWord p v 0x1000 = BitVec.ofNat 64 (s.fld HIF_VF_CTX_BLOCK.block p (v - 1) * 2 ^ 32 + p * 2 ^ 24 + v) ∧
    s.vfPageWord p v 0x1008 = BitVec.ofNat 64 (s.fn p v).vfRegAddr ∧
    (0x400 ≤ off → off ≠ 0x800 → off ≠ 0x1000 → off ≠ 0x1008 → s.vfPageWord p v off = 0) := by
  refine ⟨fun h => ?_, rfl, rfl, rfl, fun h h1 h2 h3 => ?_⟩
  · have htable : off / 8 ≠ 128 := by omega
    simp only [State.vfPageWord, State.vfWord, if_pos h, if_neg htable]
  · have hpast : ¬ off < 0x400 := by omega
    simp only [State.vfPageWord, if_neg hpast, if_neg h1, if_neg h2, if_neg h3]

/-- The window to a virtual function's table reads the selected word (R50). -/
theorem State.directAccess_vfTblData {s : State} {m p v k : Nat} (hp : p < 8) (hm : directMaster m = true)
    (hsel : s.vfTblSel p = some (v, k)) (hds : s.hif.ds = none) (hw : ∀ b ∈ s.waits, b.block ≠ 1) :
    s.directAccess m (RegRef.mk .HIF_VF_TBL_DATA p 0).off .w64 none =
      s.deliver ⟨m, (RegRef.mk .HIF_VF_TBL_DATA p 0).off, .w64, none, none, s.now⟩ (s.vfWord p v k) false := by
  have hreg : regAt (RegRef.mk .HIF_VF_TBL_DATA p 0).off = some ⟨.HIF_VF_TBL_DATA, p, 0⟩ :=
    regAt_off (by simp [RegRef.inShape, Reg.shape, hp]) rfl
  have hblock : (WaitAcc.mk m (RegRef.mk .HIF_VF_TBL_DATA p 0).off .w64 none none s.now).block = 1 := by
    apply WaitAcc.block_eq (by omega) <;> simp only [RegRef.off, Reg.shape] <;> omega
  rw [State.directAccess, if_pos hm, s.masterAccess_read m _ (RegRef.off_mod_eight _) hreg rfl
    (by simp [State.blocked_read, hds]) (by rwa [hblock]), State.regView_vfTblData hsel]

/-- The window to handler memory reads the 8 bytes at its offset (R325). -/
theorem State.directAccess_hmemData {s : State} {m : Nat} (hm : directMaster m = true)
    (hw : ∀ b ∈ s.waits, b.block ≠ 11) :
    s.directAccess m (RegRef.mk .HDL_MEM_DATA 0 0).off .w64 none =
      s.deliver ⟨m, (RegRef.mk .HDL_MEM_DATA 0 0).off, .w64, none, none, s.now⟩
        (BitVec.ofNat 64 (if s.hmemAt < s.hmemSize then ofLE (s.hmem.read s.hmemAt 8) else 0)) false := by
  have hreg : regAt (RegRef.mk .HDL_MEM_DATA 0 0).off = some ⟨.HDL_MEM_DATA, 0, 0⟩ := regAt_off rfl rfl
  have hblock : (WaitAcc.mk m (RegRef.mk .HDL_MEM_DATA 0 0).off .w64 none none s.now).block = 11 := by
    apply WaitAcc.block_eq (by omega) <;> simp only [RegRef.off, Reg.shape] <;> omega
  rw [State.directAccess, if_pos hm, s.masterAccess_read m _ (RegRef.off_mod_eight _) hreg rfl
    (by simp [State.blocked_read, hblock]) (by rwa [hblock]), State.regView_hmemData]

/-- Settles O13: each read is performed at once and brings what the register or the page shows; who takes it follows from the
master's class. -/
theorem readsReturnWhatTheRegisterShows : Obligations.ReadsReturnWhatTheRegisterShows := by
  refine ⟨fun p v s hv => ?vfPage, fun p v off s => s.vfPageWord_cases p v off, ?vfTable, ?handlerMem, ?takers⟩
  case vfPage =>
    intro m off a
    have hexec (o : BitVec 16) (z : ReqSize) :
        exec (.vfRegDataRead p v ⟨o, z⟩) s = .next ((s.vfPageRead p.val (v.val + 1) o.toNat z).done s) := rfl
    have htarget : exec (.vfRegDataRead p v ⟨0x1010, .w64⟩) s = .next ((s.masterAccess m off .w64 none).done s) := by
      rw [hexec]
      exact next_done_congr (State.vfPageRead_target hv)
    refine ⟨fun hb hw => ⟨fun hreg => ?_, fun r ho hr h1 h2 h3 h4 => ?_⟩, fun z hz => ?_, fun o ho hne => ?_⟩
    · rw [htarget, s.masterAccess_read_unmapped m off hb hw hreg]
    · have hm : m < 2 ^ 21 := mHost_lt p.isLt (by omega)
      rw [htarget, s.masterAccess_read m off ho hr (Reg.readActs_eq_false h1 h2 h3 h4) hb hw,
        s.deliver_host _ hm rfl (WaitAcc.part_full rfl ho)]
    · rw [hexec]
      exact next_done_congr (State.vfPageRead_part hv hz)
    · rw [hexec, State.vfPageRead_word hv ho hne]
  case vfTable =>
    intro m p s v k hm hsel a hds hw
    exact next_done_congr (State.directAccess_vfTblData p.isLt hm hsel hds hw)
  case handlerMem =>
    intro m s hm hw a
    exact next_done_congr (State.directAccess_hmemData hm hw)
  case takers =>
    intro a x s hw hp
    exact ⟨fun hm => s.deliver_host x hm hw hp, fun c hc hm => s.deliver_core x hc hm hw hp⟩

end Sys2Proof.Machine
end

section
/-!
SUPPORT. A register write by a command: where it lands (R11), and what it does when nothing refuses it (R14, R15, R433).
-/
namespace Sys2Proof.Machine

/-- The offset of a part lies in its register's 8 bytes: the lower half and the whole at the start, the upper half behind. -/
theorem wvalOff_mod (r : RegRef) (w : WVal) : wvalOff r w % 8 = if w.acc = .hi then 4 else 0 := by
  have h := r.off_mod_eight
  unfold wvalOff
  split <;> omega

theorem wvalOff_base (r : RegRef) (w : WVal) : wvalOff r w - wvalOff r w % 8 = r.off := by
  rw [wvalOff_mod]
  exact Nat.add_sub_cancel ..

/-- An aligned half or whole of a register is reached as that part (R11). -/
theorem part_access (w : WVal) (m : Nat) (r : RegRef) (t : Nat) : (w.access m r t).part = some w.acc := by
  have hmod : (w.access m r t).off % 8 = if w.acc = .hi then 4 else 0 := wvalOff_mod r w
  obtain ⟨acc, x⟩ := w
  unfold WaitAcc.part
  rw [hmod]
  cases acc <;> rfl

theorem reg_access (w : WVal) (m : Nat) {r : RegRef} (t : Nat) (hr : r.inShape = true) (hl : r.live = true) :
    (w.access m r t).reg = some r := by
  unfold WaitAcc.reg
  rw [part_access]
  change regAt (wvalOff r w - wvalOff r w % 8) = some r
  rw [wvalOff_base, regAt_off hr hl]

/-- The fields take a write that changes no locked field and no taken pin, and it is recorded as performed. -/
theorem State.regStore_of_open {s : State} {m : Nat} {r : RegRef} {o t v mask base : Word}
    (hbase : (if r.reg.windowed then o else s.reg r) = base) (hlock : s.slLocked r mask v base = false)
    (hpins : r.reg = .TOP_PIN_OWNER → (pinWrite (s.reg r) t).2 = []) :
    s.regStore m r o t v mask = ((s.store m r base (s.merge r mask v base) t mask).logPerformed m r o t, true) := by
  have hpin : (r.reg == .TOP_PIN_OWNER && !(pinWrite base t).2.isEmpty) = false := by
    by_cases h : r.reg = .TOP_PIN_OWNER
    · have hown : base = s.reg r := by simp [← hbase, h, Reg.windowed]
      simp [hown, hpins h]
    · simp [h]
  unfold State.regStore
  simp [hbase, hlock, hpin]

/-- A write that nothing shuts out and no field rule refuses, to a register that is no window to a device below, takes its
fields, acts and is answered. Writes of the counters first end the core cycle. -/
theorem State.writeReg_of_open {s u : State} {a : WaitAcc} {p : AccSize} {m : Nat} {r : RegRef} {v mask x o t : Word}
    (hm : a.m = m) (hu : (if r.reg = .PMC_COUNT ∨ r.reg = .PMC_EVSEL then s.endCycle else s) = u)
    (hmask : BitVec.ofNat 64 (accMask p) = mask) (hx : accPlace p v = x) (ho : u.regView r = o) (ht : attempted mask x o = t)
    (hopen : u.shutOut r.reg = false) (hrule : u.refuse m (p == .full) r o t = none)
    (hdown : r.reg ≠ .HIF_DS_CFG_DATA ∧ r.reg ≠ .HIF_DS_MEM_DATA) :
    (s.writeReg a p r v).1 = ((u.regStore m r o t x mask).1.act m r o t mask).deliver a 0 false := by
  unfold State.writeReg
  simp only [hm, hu, hmask, hx, ho, ht, hopen, hrule]
  rw [if_neg Bool.false_ne_true, if_neg (not_or.2 hdown)]

/-- What `State.written` says, with a name for each value that the write depends on. -/
theorem State.written_eq {s u : State} {m : Nat} {r : RegRef} {w : WVal} {o base t : Word} (hu : s.writeFinds m r w = u)
    (ho : u.regView r = o) (hbase : (if r.reg.windowed then o else u.reg r) = base) (ht : attempted w.mask w.data o = t) :
    s.written m r w = (((u.store m r base (u.merge r w.mask w.data base) t w.mask).logPerformed m r o t).act m r o t
      w.mask).deliver (w.access m r s.now) 0 false := by
  subst hu ho hbase ht
  rfl

/-- A write that takes effect whole makes of the state what `State.written` says. -/
theorem State.writeReg_of_takes {s : State} {m : Nat} {r : RegRef} {w : WVal} (h : s.Takes m r w) :
    ((s.rxBytes m w.bytes).writeReg (w.access m r s.now) w.acc r (wvalData w)).1 = s.written m r w := by
  obtain ⟨-, -, hdown, -, -, hopen, hrule, hlock, hpins⟩ := h
  generalize hu : s.writeFinds m r w = u at hopen hrule hlock hpins
  dsimp only at hrule hlock hpins
  generalize ho : u.regView r = o at hrule hlock hpins
  generalize ht : attempted w.mask w.data o = t at hrule hpins
  generalize hbase : (if r.reg.windowed then o else u.reg r) = base at hlock
  have hperform := State.writeReg_of_open (m := m) (a := w.access m r s.now) (p := w.acc) (v := wvalData w) (mask := w.mask)
    (x := w.data) rfl hu rfl rfl ho ht hopen hrule hdown
  rw [State.written_eq hu ho hbase ht, hperform]
  rw [State.regStore_of_open hbase hlock hpins]

/-- The access of such a write, after its payload is counted, is performed at once. -/
theorem State.regAccess_of_takes {s : State} {m : Nat} {r : RegRef} {w : WVal} (h : s.Takes m r w) :
    (s.rxBytes m w.bytes).regAccess (w.access m r s.now) = s.written m r w := by
  have hwaits : ∀ b ∈ (s.rxBytes m w.bytes).waits, b.block ≠ (w.access m r s.now).block := by simpa using h.port
  rw [State.regAccess_of_free h.room hwaits]
  change ((s.rxBytes m w.bytes).performWrite (w.access m r s.now) (wvalData w)).1 = _
  rw [State.performWrite_mapped _ _ (part_access w m r s.now) (reg_access w m s.now h.shape h.live), State.writeReg_of_takes h]

/-- A master's access at a register's part, with the part's data, is that register's write. -/
theorem State.masterAccess_of_takes {s : State} {m off : Nat} {r : RegRef} {w : WVal} (ho : off = wvalOff r w)
    (h : s.Takes m r w) :
    (s.rxBytes m w.bytes).masterAccess m off (wvalSize w) (some (wvalData w)) = s.written m r w := by
  rw [← State.regAccess_of_takes h, State.masterAccess, State.rxBytes_now, ho]
  rfl

theorem wval_bytes (w : WVal) : (if wvalSize w = .w64 then 8 else 4) = w.bytes := by
  obtain ⟨acc, x⟩ := w
  cases acc <;> rfl

theorem State.regWrite_of_takes {s : State} {m : Nat} {r : RegRef} {w : WVal} (hm : directMaster m = true)
    (h : s.Takes m r w) : s.regWrite m r w = s.written m r w := by
  rw [← State.masterAccess_of_takes rfl h, ← wval_bytes]
  obtain ⟨acc, x⟩ := w
  unfold State.regWrite
  rw [if_pos hm]
  cases acc <;> rfl

/-- A master that has a path of its own makes no register write by name (R30). -/
theorem State.regWrite_of_not_direct (s : State) {m : Nat} (r : RegRef) (w : WVal) (hm : directMaster m = false) :
    s.regWrite m r w = s := by
  unfold State.regWrite
  simp [hm]

/-- Each command that a register's own write names makes that write. -/
theorem exec_of_regWriteOf {c : Instr} {s : State} {m : Master} {r : RegRef} {w : WVal}
    (h : s.regWriteOf c = some (m, r, w)) : exec c s = .next ((s.regWrite m.toNat r w).done s) := by
  unfold State.regWriteOf at h
  split at h <;> cases h <;> rfl

/-- The page of a virtual function passes a 64-bit write of HIF_VF_REG_DATA on to its target (R49). -/
theorem State.vfPageWrite_target {s : State} {p v : Nat} (x : Word) (h : s.vfThere p v = true) :
    s.vfPageWrite p v 0x1010 .w64 x = s.masterAccess (mHost p v) (s.fn p v).vfRegAddr .w64 (some x) := by
  simp [State.vfPageWrite, h]

/-- A write of HIF_VF_REG_DATA of any other size does nothing (R49). -/
theorem State.vfPageWrite_part (s : State) (p v : Nat) {z : ReqSize} (x : Word) (hz : z ≠ .w64) :
    s.vfPageWrite p v 0x1010 z x = s := by
  have hstore : s.vfPageStore p v 0x1010 z x = s := by
    cases z with
    | w64 => exact absurd rfl hz
    | w32 => simp [State.vfPageStore, WaitAcc.part]
    | odd => simp [State.vfPageStore, WaitAcc.part]
  simp [State.vfPageWrite, hz, hstore]

/-- Settles O10: a write that takes effect whole is performed at once on its own register; the commands differ only in the
register and the part that they name. -/
theorem registerCommandsWriteTheirRegister : Obligations.RegisterCommandsWriteTheirRegister := by
  refine ⟨fun c s m r w hc => ⟨fun hm h => ?_, fun hm => ?_⟩, fun m off z x s hm => ?_, fun m off r w s hm ho h => ?_,
    fun p v x r s hv ho h => ?_, fun p v z x s hz => ?_⟩
  · rw [exec_of_regWriteOf hc, State.regWrite_of_takes hm h]
  · rw [exec_of_regWriteOf hc, s.regWrite_of_not_direct r w hm]
  · change Host.Outcome.next (State.done (if directMaster m.toNat then _ else s) s) = _
    rw [hm, if_neg Bool.false_ne_true]
  · rw [← State.masterAccess_of_takes ho h, ← wval_bytes]
    change Host.Outcome.next (State.done (if directMaster m.toNat then _ else s) s) = _
    rw [if_pos hm]
  · have hwrite := State.vfPageWrite_target (s := s.rxBytes (mHost p.val (v.val + 1)) 8) x
      ((s.vfThere_rxBytes ..).trans hv)
    rw [State.fn_rxBytes, ho] at hwrite
    rw [← State.masterAccess_of_takes rfl h]
    exact next_done_congr hwrite
  · rw [← State.vfPageWrite_part (s.rxBytes (mHost p.val (v.val + 1)) 4) p.val (v.val + 1) x hz]
    change Host.Outcome.next (State.done (State.vfPageWrite (s.rxBytes _ (if z = .w64 then 8 else 4)) _ _ _ _ _) s) = _
    rw [if_neg hz]

end Sys2Proof.Machine
end

section
/-!
SUPPORT. Dispatch: a handle that is the next of its context goes, by the command of its opcode, to the block that executes it
(R22, R87), and what each block then does with it.
-/
namespace Sys2Proof.Machine

/-- The command that dispatches a handle: that of its opcode and, for COLL and FENCE, of its sub-opcode (R22). -/
def Handle.Command (h : Handle) (i : Instr) : Prop :=
  (i, dOpcode h.desc) ∈ [(Instr.nop h.ref, 0), (.put h.ref, 1), (.get h.ref, 2), (.atomic h.ref, 3), (.send h.ref, 4),
    (.recvPost h.ref, 5), (.recvCancel h.ref, 6), (.counterArm h.ref, 9), (.triggered h.ref, 10)] ∨
  (dOpcode h.desc = 7 ∧ (i, dSub h.desc) ∈ [(Instr.collBroadcast h.ref, 1), (.collReduce h.ref, 2), (.collAllreduce h.ref, 3),
    (.collReduceScatter h.ref, 4), (.collAllgather h.ref, 5), (.collBarrier h.ref, 6)]) ∨
  (dOpcode h.desc = 8 ∧ (i, dSub h.desc) ∈ [(Instr.fenceContext h.ref, 1), (.fenceTarget h.ref, 2)])

/-- The state in which a block meets a dispatched handle: the context's record is on chip, and the sample has its stage 4. -/
def State.atBlock (s : State) (h : Handle) : State := (s.ctxUse h.ctx).stampFirst 1 (handleKey h.ref) 4

section
variable {s : State} {h : Handle}

theorem State.dispatchIf_of_next {test : Descriptor → Bool} (hh : s.handle? h.ref = some h) (hn : s.dispatchable h = true)
    (ht : test h.desc = true) : s.dispatchIf h.ref test = s.dispatch h := by
  simp [State.dispatchIf, hh, hn, ht]

/-- Every command of a handle that is next dispatches it; they differ only in the opcode that they ask for. -/
theorem exec_of_command {i : Instr} (hh : s.handle? h.ref = some h) (hn : s.dispatchable h = true) (hi : h.Command i) :
    exec i s = .next ((s.dispatch h).done s) := by
  have next {test : Descriptor → Bool} (ht : test h.desc = true) :
      (Host.Outcome.next ((s.dispatchIf h.ref test).done s) : Res) = .next ((s.dispatch h).done s) :=
    next_done_congr (State.dispatchIf_of_next hh hn ht)
  simp only [Handle.Command, List.mem_cons, Prod.mk.injEq, List.not_mem_nil, or_false] at hi
  rcases hi with plain | ⟨hop, coll⟩ | ⟨hop, fence⟩
  · rcases plain with ⟨rfl, hop⟩ | ⟨rfl, hop⟩ | ⟨rfl, hop⟩ | ⟨rfl, hop⟩ | ⟨rfl, hop⟩ | ⟨rfl, hop⟩ | ⟨rfl, hop⟩ |
      ⟨rfl, hop⟩ | ⟨rfl, hop⟩ <;> exact next (by simp [hop])
  · rcases coll with ⟨rfl, hsub⟩ | ⟨rfl, hsub⟩ | ⟨rfl, hsub⟩ | ⟨rfl, hsub⟩ | ⟨rfl, hsub⟩ | ⟨rfl, hsub⟩ <;>
      exact next (by simp [hop, hsub])
  · rcases fence with ⟨rfl, hsub⟩ | ⟨rfl, hsub⟩ <;> exact next (by simp [hop, hsub])

/-! ## The block of each opcode (R22) -/

theorem State.dispatch_nop (h0 : dOpcode h.desc = 0) : s.dispatch h = (s.atBlock h).dispatchNop h := by
  simp [State.dispatch, State.atBlock, h0]

theorem State.dispatch_rma (h1 : dOpcode h.desc ∈ [1, 2, 3]) : s.dispatch h = (s.atBlock h).dispatchRma h := by
  simp only [List.mem_cons, List.not_mem_nil, or_false] at h1
  rcases h1 with h1 | h1 | h1 <;> simp [State.dispatch, State.atBlock, h1]

theorem State.dispatch_send (h4 : dOpcode h.desc = 4) : s.dispatch h = (s.atBlock h).dispatchSend h := by
  simp [State.dispatch, State.atBlock, h4]

theorem State.dispatch_recv (h5 : dOpcode h.desc = 5) : s.dispatch h = (s.atBlock h).dispatchRecv h := by
  simp [State.dispatch, State.atBlock, h5]

theorem State.dispatch_cancel (h6 : dOpcode h.desc = 6) : s.dispatch h = (s.atBlock h).dispatchCancel h := by
  simp [State.dispatch, State.atBlock, h6]

theorem State.dispatch_coll (h7 : dOpcode h.desc = 7) : s.dispatch h = (s.atBlock h).dispatchColl h false := by
  simp [State.dispatch, State.atBlock, h7]

theorem State.dispatch_fence (h8 : dOpcode h.desc = 8) : s.dispatch h = (s.atBlock h).dispatchFence h := by
  simp [State.dispatch, State.atBlock, h8]

theorem State.dispatch_arm (h9 : dOpcode h.desc = 9) : s.dispatch h = (s.atBlock h).dispatchArm h := by
  simp [State.dispatch, State.atBlock, h9]

theorem State.dispatch_triggered (h10 : dOpcode h.desc = 10) : s.dispatch h = (s.atBlock h).dispatchTriggered h := by
  simp [State.dispatch, State.atBlock, h10]

end

/-! ## What each block does -/

section
variable {u : State} {h : Handle}

/-- A block in its setup state holds the descriptor, whatever it is (R160, R200, R232). -/
theorem State.dispatch_of_setup {s : State} (hop : dOpcode h.desc ∈ [1, 2, 3, 4, 5, 6, 7, 9, 10])
    (hs : (s.atBlock h).inSetup (blockOf (dOpcode h.desc)) = true) : s.dispatch h = (s.atBlock h).hold h := by
  have hcases : (dOpcode h.desc ∈ [1, 2, 3] ∧ blockOf (dOpcode h.desc) = 6) ∨ dOpcode h.desc = 4 ∨ dOpcode h.desc = 5 ∨
      dOpcode h.desc = 6 ∨ dOpcode h.desc = 7 ∨ dOpcode h.desc = 9 ∨ dOpcode h.desc = 10 := by
    generalize dOpcode h.desc = op at hop
    revert op
    decide
  rcases hcases with ⟨hop, hblk⟩ | hop | hop | hop | hop | hop | hop
  · rw [hblk] at hs
    simp [State.dispatch_rma hop, State.dispatchRma, hs]
  all_goals rw [hop, blockOf] at hs
  · simp [State.dispatch_send hop, State.dispatchSend, hs]
  · simp [State.dispatch_recv hop, State.dispatchRecv, hs]
  · simp [State.dispatch_cancel hop, State.dispatchCancel, hs]
  · simp [State.dispatch_coll hop, State.dispatchColl, hs]
  · simp [State.dispatch_arm hop, State.dispatchArm, hs]
  · simp [State.dispatch_triggered hop, State.dispatchTriggered, hs]

/-- CMD refuses a NOP or a FENCE only for its local counter (R189). -/
theorem State.dispatch_of_lcntBad {s : State} (hop : dOpcode h.desc ∈ [0, 8]) (hl : (s.atBlock h).lcntBad h = true) :
    s.dispatch h = (s.atBlock h).finish h.ref 0x18 1 := by
  simp only [List.mem_cons, List.not_mem_nil, or_false] at hop
  rcases hop with hop | hop
  · simp [State.dispatch_nop hop, State.dispatchNop, hl]
  · simp [State.dispatch_fence hop, State.dispatchFence, hl]

theorem State.dispatchNop_completes (hl : u.lcntBad h = false) : u.dispatchNop h = u.finish h.ref 0 0 := by
  simp [State.dispatchNop, hl]

theorem State.dispatchFence_waits (hl : u.lcntBad h = false) :
    u.dispatchFence h = u.setHandle { h with phase := .waiting } := by
  simp [State.dispatchFence, hl]

theorem State.dispatchRma_refused (hs : u.inSetup 6 = false) {st dt : Nat} (hr : u.localRefusal h = some (st, dt)) :
    u.dispatchRma h = u.finish h.ref st dt := by
  simp [State.dispatchRma, hs, hr]

theorem State.dispatchRma_starts (hs : u.inSetup 6 = false) (hr : u.localRefusal h = none) :
    u.dispatchRma h =
      ((u.activate h).sampleLocal (handleKey h.ref) (u.localAddr h.ctx h.desc)).sendParts h.ref h.unanswered := by
  simp [State.dispatchRma, hs, hr]

theorem State.dispatchSend_refused (hs : u.inSetup 5 = false) {st dt : Nat} (hr : u.sendRefusal h = some (st, dt)) :
    u.dispatchSend h = u.finish h.ref st dt := by
  simp [State.dispatchSend, hs, hr]

/-- A SEND whose pair has no record, nor room for one, is held (R137). -/
theorem State.dispatchSend_held (hs : u.inSetup 5 = false) (hr : u.sendRefusal h = none)
    (hroom : ((u.peer? h.ctx (dTarget h.desc)).isSome || u.peerRoom h.ctx (dTarget h.desc)) = false) :
    u.dispatchSend h = u.hold h := by
  rw [Bool.or_eq_false_iff, Option.isSome_eq_false_iff] at hroom
  simp [State.dispatchSend, hs, hr, hroom]

/-- One that starts takes the pair's next message number, unless it carries its own over a replay (R409). -/
theorem State.dispatchSend_starts (hs : u.inSetup 5 = false) (hr : u.sendRefusal h = none)
    (hroom : ((u.peer? h.ctx (dTarget h.desc)).isSome || u.peerRoom h.ctx (dTarget h.desc)) = true) :
    let p := u.peerOf h.ctx (dTarget h.desc)
    let w := if h.msnOk then u else u.putPeer { p with nextMsn := (p.nextMsn + 1) % 2 ^ 32 }
    let a := w.activate { h with msn := if h.msnOk then h.msn else p.nextMsn, msnOk := true, eager := w.sendEager h.desc }
    u.dispatchSend h = (a.sampleLocal (handleKey h.ref) (a.localAddr h.ctx h.desc)).sendAll h.ref := by
  have hfound : ((u.peer? h.ctx (dTarget h.desc)).isNone && !u.peerRoom h.ctx (dTarget h.desc)) = false := by
    rw [← Option.not_isSome, ← Bool.not_or, hroom, Bool.not_true]
  simp [State.dispatchSend, hs, hr, hfound]

theorem State.dispatchRecv_refused (hs : u.inSetup 5 = false) {st dt : Nat} (hr : u.recvRefusal h = some (st, dt)) :
    u.dispatchRecv h = u.finish h.ref st dt := by
  simp [State.dispatchRecv, hs, hr]

theorem State.dispatchRecv_posts (hs : u.inSetup 5 = false) (hr : u.recvRefusal h = none) :
    u.dispatchRecv h = (u.activate h).matEvent (.post h.ref) := by
  simp [State.dispatchRecv, hs, hr]

theorem State.dispatchCancel_refused (hs : u.inSetup 5 = false) (hl : u.lcntBad h = true) :
    u.dispatchCancel h = u.finish h.ref 0x18 1 := by
  simp [State.dispatchCancel, hs, hl]

theorem State.dispatchCancel_starts (hs : u.inSetup 5 = false) (hl : u.lcntBad h = false) :
    u.dispatchCancel h = (u.activate h).matEvent (.cancel h.ref) := by
  simp [State.dispatchCancel, hs, hl]

theorem State.dispatchColl_refused (hs : u.inSetup 7 = false) {st dt : Nat} (hr : u.collRefusal h = some (st, dt)) :
    u.dispatchColl h false = u.finish h.ref st dt := by
  simp [State.dispatchColl, hs, hr]

theorem State.dispatchColl_starts (hs : u.inSetup 7 = false) (hr : u.collRefusal h = none) (hw : u.csc.wait = [])
    (hroom : u.collRoom (u.newInst h) = true) : u.dispatchColl h false = u.startInst h := by
  simp [State.dispatchColl, hs, hr, hw, hroom]

/-- A collective without room, or behind others that wait for it, is held and waits (R223, R232). -/
theorem State.dispatchColl_waits (hs : u.inSetup 7 = false) (hr : u.collRefusal h = none)
    (hroom : u.csc.wait ≠ [] ∨ u.collRoom (u.newInst h) = false) (hw : u.csc.wait.contains h.ref = false) :
    u.dispatchColl h false =
      { u.hold h with csc := { (u.hold h).csc with wait := (u.hold h).csc.wait ++ [h.ref] } } := by
  have hstart : ((false || u.csc.wait.isEmpty) && u.collRoom (u.newInst h)) = false := by
    rcases hroom with hroom | hroom <;> simp [hroom]
  unfold State.dispatchColl
  simp only [hs, hr, hstart, hw, Bool.false_eq_true, if_false]

section
variable (hs : u.inSetup 6 = false)
include hs

theorem State.dispatchArm_refused (hr : u.ctrOk (dCounter h.desc) h.ctx = false ∨ u.lcntBad h = true) :
    u.dispatchArm h = u.finish h.ref 0x18 1 := by
  have hbad : (!u.ctrOk (dCounter h.desc) h.ctx || u.lcntBad h) = true := by rcases hr with hr | hr <;> simp [hr]
  unfold State.lcntBad at hbad
  simp only [State.dispatchArm, hs, hbad, Bool.false_eq_true, if_false, if_true]

/-- One whose counters are its context's own sets its counter, where it is to and has not yet, and waits (R192). -/
theorem State.dispatchArm_waits (hc : u.ctrOk (dCounter h.desc) h.ctx = true) (hl : u.lcntBad h = false) :
    u.dispatchArm h = State.setHandle
      (if dSub h.desc % 2 = 1 ∧ !h.armedSet then (u.setCtr (dCounter h.desc) { u.ctr (dCounter h.desc) with
        value := BitVec.ofNat 64 (dget h.desc 16 63 0) }).ctrChanged (dCounter h.desc) else u)
      { h with phase := .waiting, armedSet := true } := by
  have hok : (!u.ctrOk (dCounter h.desc) h.ctx || u.lcntBad h) = false := by simp [hc, hl]
  unfold State.lcntBad at hok
  simp only [State.dispatchArm, hs, hok, Bool.false_eq_true, if_false]

theorem State.dispatchArm_sets (hc : u.ctrOk (dCounter h.desc) h.ctx = true) (hl : u.lcntBad h = false)
    (hsub : dSub h.desc % 2 = 1) (hset : h.armedSet = false) :
    u.dispatchArm h = ((u.setCtr (dCounter h.desc) { u.ctr (dCounter h.desc) with
      value := BitVec.ofNat 64 (dget h.desc 16 63 0) }).ctrChanged (dCounter h.desc)).setHandle
        { h with phase := .waiting, armedSet := true } := by
  rw [State.dispatchArm_waits hs hc hl, if_pos ⟨hsub, by simp [hset]⟩]

theorem State.dispatchArm_leaves (hc : u.ctrOk (dCounter h.desc) h.ctx = true) (hl : u.lcntBad h = false)
    (hset : dSub h.desc % 2 = 0 ∨ h.armedSet = true) :
    u.dispatchArm h = u.setHandle { h with phase := .waiting, armedSet := true } := by
  rw [State.dispatchArm_waits hs hc hl, if_neg (by rcases hset with hset | hset <;> simp [hset])]

theorem State.dispatchTriggered_registers {p : Handle} (hp : u.handle? ⟨h.ctx, (h.index + 1) % 2 ^ 32⟩ = some p)
    (hg : dGateable p.desc = true) : u.dispatchTriggered h = u.registerTrig h p := by
  simp only [State.dispatchTriggered, hs, hp, hg, Bool.false_eq_true, if_false, if_true]

theorem State.dispatchTriggered_aborts {p : Handle} (hp : u.handle? ⟨h.ctx, (h.index + 1) % 2 ^ 32⟩ = some p)
    (hg : dGateable p.desc = false) : u.dispatchTriggered h = u.finish h.ref 0x15 8 := by
  simp only [State.dispatchTriggered, hs, hp, hg, Bool.false_eq_true, if_false]

/-- One whose partner has not been announced waits for it (R99). -/
theorem State.dispatchTriggered_waits (hp : u.handle? ⟨h.ctx, (h.index + 1) % 2 ^ 32⟩ = none)
    (hf : (u.ctx h.ctx).fetch = (h.index + 1) % 2 ^ 32) :
    u.dispatchTriggered h = u.setHandle { h with phase := .waiting } := by
  simp only [State.dispatchTriggered, hs, hp, hf, Bool.false_eq_true, if_false, if_true]

end

end

/-- Settles O28: each command dispatches the handle, its opcode names the block, and the block does what its own lemma says. -/
theorem descriptorsGoToTheirBlock : Obligations.DescriptorsGoToTheirBlock := by
  intro s h hh hn
  have run {i : Instr} {b t : State} (hi : h.Command i) (hblock : s.dispatch h = b) (ht : b = t) :
      exec i s = .next (t.done s) := by rw [exec_of_command hh hn hi, hblock, ht]
  refine ⟨?setup, ?lcnt, ?nop, ?fence, ?rma, ?send, ?recv, ?cancel, ?coll, ?armSets, ?armRefused, ?armWaits, ?triggered⟩
  case setup => exact fun i hi hop hs => run hi (State.dispatch_of_setup hop hs) rfl
  case lcnt => exact fun i hi hop hl => run hi (State.dispatch_of_lcntBad hop hl) rfl
  case nop =>
    intro hop hl
    exact run (.inl (by simp [hop])) (State.dispatch_nop hop) (State.dispatchNop_completes hl)
  case fence =>
    intro i hi hop hl
    exact run hi (State.dispatch_fence hop) (State.dispatchFence_waits hl)
  case rma =>
    intro i hi hop hs
    exact ⟨fun st dt hr => run hi (State.dispatch_rma hop) (State.dispatchRma_refused hs hr),
      fun hr => run hi (State.dispatch_rma hop) (State.dispatchRma_starts hs hr)⟩
  case send =>
    intro hop hs
    have hi : h.Command (.send h.ref) := .inl (by simp [hop])
    exact ⟨fun st dt hr => run hi (State.dispatch_send hop) (State.dispatchSend_refused hs hr),
      fun hr => ⟨fun hroom => run hi (State.dispatch_send hop) (State.dispatchSend_held hs hr hroom),
        fun hroom => run hi (State.dispatch_send hop) (State.dispatchSend_starts hs hr hroom)⟩⟩
  case recv =>
    intro hop hs
    have hi : h.Command (.recvPost h.ref) := .inl (by simp [hop])
    exact ⟨fun st dt hr => run hi (State.dispatch_recv hop) (State.dispatchRecv_refused hs hr),
      fun hr => run hi (State.dispatch_recv hop) (State.dispatchRecv_posts hs hr)⟩
  case cancel =>
    intro hop hs
    have hi : h.Command (.recvCancel h.ref) := .inl (by simp [hop])
    exact ⟨fun hl => run hi (State.dispatch_cancel hop) (State.dispatchCancel_refused hs hl),
      fun hl => run hi (State.dispatch_cancel hop) (State.dispatchCancel_starts hs hl)⟩
  case coll =>
    intro i hc hop hs
    have hi : h.Command i := .inr (.inl ⟨hop, hc⟩)
    exact ⟨fun st dt hr => run hi (State.dispatch_coll hop) (State.dispatchColl_refused hs hr),
      fun hr hw hroom => run hi (State.dispatch_coll hop) (State.dispatchColl_starts hs hr hw hroom),
      fun hr hroom hw => run hi (State.dispatch_coll hop) (State.dispatchColl_waits hs hr hroom hw)⟩
  case armSets =>
    intro hop hs hc hl hsub hset
    exact run (.inl (by simp [hop])) (State.dispatch_arm hop) (State.dispatchArm_sets hs hc hl hsub hset)
  case armRefused =>
    intro hop hs hr
    exact run (.inl (by simp [hop])) (State.dispatch_arm hop) (State.dispatchArm_refused hs hr)
  case armWaits =>
    intro hop hs hc hl hset
    exact run (.inl (by simp [hop])) (State.dispatch_arm hop) (State.dispatchArm_leaves hs hc hl hset)
  case triggered =>
    intro hop hs
    have hi : h.Command (.triggered h.ref) := .inl (by simp [hop])
    exact ⟨fun p hp hg => run hi (State.dispatch_triggered hop) (State.dispatchTriggered_registers hs hp hg),
      fun p hp hg => run hi (State.dispatch_triggered hop) (State.dispatchTriggered_aborts hs hp hg),
      fun hp hf => run hi (State.dispatch_triggered hop) (State.dispatchTriggered_waits hs hp hf)⟩

end Sys2Proof.Machine
end

section
/-!
SUPPORT. Configuration space: the dword that holds the place of the MSI-X table (R45; log entry 106).
-/
namespace Sys2Proof.Machine

/-- A field of all 32 bits leaves nothing of what stood below it. -/
theorem putBits_whole {n : Nat} (v : Nat) (h : n < 2 ^ 32) : putBits n 31 0 v = v % 2 ^ 32 := by
  rw [putBits_eq _ _ _ _ (by omega)]
  omega

/-- The place of the MSI-X table (R45) is a dword of its own, which shows the table's offset modulo 2^32. -/
theorem State.cfgRead_msixTable (s : State) (p : Nat) : s.cfgRead p 0 0x15 = (0x100000 + p * 0x10000) % 2 ^ 32 := by
  have hfield : (s.cfgFields p 0).filter (fun e => e.1 == 0x15) = [(0x15, 31, 0, 0x100000 + p * 0x10000)] := rfl
  rw [State.cfgRead, hfield]
  exact putBits_whole _ (BitVec.isLt _)

/-- Refutes O17: its clause on the identification (R45) is over every number `p`, not over the ports 0 to 7, and at 65,520 the
offset of the MSI-X table is 2^32, of which its dword shows 0. -/
theorem not_configurationRequestsReachTheirFunction : ¬ Obligations.ConfigurationRequestsReachTheirFunction := by
  intro h
  obtain ⟨-, -, -, hident, -⟩ := h
  obtain ⟨-, -, -, -, -, -, -, htable, -⟩ := hident 65520 0 State.reset
  rw [State.cfgRead_msixTable] at htable
  exact absurd htable (by decide)

end Sys2Proof.Machine
end

section
/-!
SUPPORT. The links of the host ports: where training settles, where it falls back to non-Flit mode, and what PERST_N rising does
(R40 to R42, R70, R417).
-/
namespace Sys2Proof.Machine

/-! ### What an update of a port's state leaves of what its link goes by -/

@[simp] theorem State.flag_setHport (s : State) (q : Nat) (v : HPortState) (f : Field) (i k : Nat) :
    (s.setHport q v).flag f i k = s.flag f i k := rfl
@[simp] theorem State.endpoint_setHport (s : State) (q : Nat) (v : HPortState) (p : Nat) :
    (s.setHport q v).endpoint p = s.endpoint p := rfl

/-- Only a sub-link of a downstream port may come up. -/
theorem State.endpoint_of_dllMay {s : State} {p k : Nat} (h : s.dllMay p k = true) : s.endpoint p = false := by
  simp only [State.dllMay, Bool.and_eq_true, Bool.not_eq_true'] at h
  exact h.1.1.1.1.1

/-! ### Training ends (R40, R41) -/

section
variable {s : State} {p k width speed : Nat} {dev : Option SubDevice}

theorem State.linkTrained_endpoint (hfits : s.linkFits p width speed = true) (he : s.endpoint p = true)
    (ht : (s.hport p).training = true) :
    s.linkTrained p 0 width speed dev =
      if (s.hport p).flit && decide (speed < 6) then (s.setFlag HIF_PORT_STATUS.nonflit_fallback p 0 true).linkTrain p false
      else (((((s.setHport p { s.hport p with training := false }).setUp p 0 true).setFld HIF_PORT_STATUS.width p 0
        width).setFld HIF_PORT_STATUS.speed p 0 speed).setFlag HIF_PORT_STATUS.low_speed p 0 (decide (speed ≤ 2))).updateWire
          p := by
  simp [State.linkTrained, hfits, he, ht]

/-- A sub-link of a downstream port that is down comes up, unless the port falls back to non-Flit mode first. -/
theorem State.subUp_of_down (hd : s.flag HIF_DS_SLOT_STATUS.dll_active p k = false) :
    s.subUp p k width speed dev =
      if (s.hport p).flit && decide (speed < 6) then (s.setFlag HIF_PORT_STATUS.nonflit_fallback p 0 true).linkTrain p false
      else ((s.setHport p { s.hport p with training := false }).dllChange p k true width speed).deviceFound p k speed dev := by
  simp [State.subUp, hd]

theorem State.linkTrained_downstream (hfits : s.linkFits p width speed = true) (hmay : s.dllMay p k = true) :
    s.linkTrained p k width speed dev = s.subUp p k width speed dev := by
  simp [State.linkTrained, hfits, hmay, State.endpoint_of_dllMay hmay]

end

/-! ### PERST_N rises (R417) -/

section
variable {s : State} {p : Nat}

theorem State.perstHigh_of_low (hp : (s.hport p).perst = true) :
    let u := s.setHport p { s.hport p with perst := false, perstAt := s.now }
    s.perstHigh p = if s.endpoint p && !s.flag HIF_PORT_STATUS.in_setup p 0 then u.trainWhen p else u := by
  simp [State.perstHigh, hp]

/-- The link of an endpoint port with PERST_N high trains, or waits for the reset that runs (R42). -/
theorem State.trainWhen_of_high (he : s.endpoint p = true) (hp : (s.hport p).perst = false) :
    let flit := s.fld HIF_PORT_CFG.max_speed p 0 == 0
    s.trainWhen p = if (s.fn p 0).flr then s.setHport p { s.hport p with flit := flit, trainDue := true }
      else s.linkTrain p flit := by
  simp [State.trainWhen, he, hp]

end

/-- Settles O14: each clause is one branch of where training ends, or of what PERST_N rising does. -/
theorem hostLinksTrainAndSettle : Obligations.HostLinksTrainAndSettle := by
  refine ⟨fun p width speed dev s hfits he ht => ?endpoint, fun p k width speed dev s hfits hmay hd => ?downstream,
    fun p s hp => ?perst, fun p s he hp => ?train⟩
  case endpoint =>
    have hend := State.linkTrained_endpoint (dev := dev) hfits he ht
    exact ⟨fun hf => next_done_congr (hend.trans (if_pos hf)),
      fun hf => next_done_congr (hend.trans (if_neg (ne_true_of_eq_false hf)))⟩
  case downstream =>
    have hend := (State.linkTrained_downstream (dev := dev) hfits hmay).trans (State.subUp_of_down hd)
    exact ⟨fun hf => next_done_congr (hend.trans (if_pos hf)),
      fun hf => next_done_congr (hend.trans (if_neg (ne_true_of_eq_false hf)))⟩
  case perst =>
    have hrise := State.perstHigh_of_low hp
    refine ⟨fun hstay => next_done_congr (hrise.trans (if_neg ?_)), fun he hs => next_done_congr (hrise.trans (if_pos ?_))⟩
    · rcases hstay with he | hs
      · simp [he]
      · simp [hs]
    · simp [he, hs]
  case train =>
    have htrain := State.trainWhen_of_high he hp
    exact ⟨fun hf => htrain.trans (if_neg (ne_true_of_eq_false hf)), fun hf => htrain.trans (if_pos hf)⟩

end Sys2Proof.Machine
end

section
/-!
SUPPORT. The resets of a host port: what counts as one, and what HIF_PORT_STATUS reads afterwards (R42, R59, R62, R417).
-/
namespace Sys2Proof.Machine

/-! ### Fields of one register, written one after the other -/

/-- Write fields of the registers with indices `i` and `k`, one after the other. -/
def State.setFlds (s : State) (i k : Nat) (l : List (Field × Nat)) : State := l.foldl (fun s e => s.setFld e.1 i k e.2) s

/-- A field of register `g` lies in its 64 bits. -/
abbrev Field.FieldOf (f : Field) (g : Reg) : Prop := f.reg = g ∧ f.lo ≤ f.hi ∧ f.hi < 64

/-- Two fields of a register share no bit. -/
abbrev Field.Apart (f g : Field) : Prop := g.hi < f.lo ∨ f.hi < g.lo

section
variable {i k : Nat} {g : Reg} {l : List (Field × Nat)}

/-- A field apart from all that are written reads as before. -/
theorem State.fld_setFlds_apart {s : State} (h : SMap.wf resetWord s.regs = true) {f : Field} (hf : f.reg = g)
    (hl : ∀ e ∈ l, e.1.FieldOf g) (hd : ∀ e ∈ l, e.1.Apart f) : (s.setFlds i k l).fld f i k = s.fld f i k := by
  induction l generalizing s with
  | nil => rfl
  | cons e l ih =>
    obtain ⟨⟨hreg, hlo, hhi⟩, hl⟩ := List.forall_mem_cons.1 hl
    obtain ⟨hapart, hd⟩ := List.forall_mem_cons.1 hd
    calc ((s.setFld e.1 i k e.2).setFlds i k l).fld f i k = (s.setFld e.1 i k e.2).fld f i k := ih (State.wf_setFld h ..) hl hd
      _ = s.fld f i k := State.fld_setFld_apart h e.1 f i k e.2 (hf.trans hreg.symm) hlo hhi hapart

/-- Fields of one register that share no bit all read as written. -/
theorem State.fld_setFlds {s : State} (h : SMap.wf resetWord s.regs = true) (hl : ∀ e ∈ l, e.1.FieldOf g)
    (hd : l.Pairwise fun e d => d.1.Apart e.1) :
    ∀ e ∈ l, (s.setFlds i k l).fld e.1 i k = e.2 % 2 ^ (e.1.hi + 1 - e.1.lo) := by
  induction l generalizing s with
  | nil => exact fun e he => by cases he
  | cons d l ih =>
    obtain ⟨⟨hreg, hlo, hhi⟩, hl⟩ := List.forall_mem_cons.1 hl
    rw [List.pairwise_cons] at hd
    have hwf : SMap.wf resetWord (s.setFld d.1 i k d.2).regs = true := State.wf_setFld h ..
    refine List.forall_mem_cons.2 ⟨?_, ih hwf hl hd.2⟩
    calc ((s.setFld d.1 i k d.2).setFlds i k l).fld d.1 i k
        = (s.setFld d.1 i k d.2).fld d.1 i k := State.fld_setFlds_apart hwf hreg hl hd.1
      _ = d.2 % 2 ^ (d.1.hi + 1 - d.1.lo) := State.fld_setFld h _ _ _ _ hlo hhi

end

/-! ### The reset of a port (R62) -/

/-- The fields of HIF_PORT_STATUS of a port back in its setup state, in the order in which a port reset writes them (R42). -/
def portStatusReset : List (Field × Nat) :=
  [(HIF_PORT_STATUS.sublink_up, 0), (HIF_PORT_STATUS.width, 0), (HIF_PORT_STATUS.speed, 0), (HIF_PORT_STATUS.low_speed, 0),
   (HIF_PORT_STATUS.nonflit_fallback, 0), (HIF_PORT_STATUS.in_setup, 1)]

/-- What a port reset does before the port's status is reset: every function of an endpoint port is reset, every sub-link of a
downstream port goes down, and no training goes on (R62). -/
def State.portLinkDown (s : State) (p : Nat) : State :=
  let s := if s.endpoint p then (s.setHport p { s.hport p with wire := false }).fnReset p 0
    else (List.range 4).foldl (fun s k => s.dllChange p k false 0 0) s
  s.setHport p { s.hport p with training := false, trainDue := false }

theorem State.portReset_eq (s : State) (p : Nat) : s.portReset p = (s.portLinkDown p).setFlds p 0 portStatusReset := rfl

theorem State.portLinkDown_ok {s : State} (h : s.Ok) (p : Nat) : (s.portLinkDown p).Ok := by
  have hkeeps : Keeps 247463868 s (s.portLinkDown p) := by
    unfold State.portLinkDown
    refine State.setHport_keeps _ _ ?_ rfl
    split
    · exact State.fnReset_keeps _ _ (State.setHport_keeps _ _ (Keeps.refl s) rfl) rfl
    · exact Keeps.foldl (fun t k ht => State.dllChange_keeps _ _ _ _ _ ht rfl) (Keeps.refl s)
  exact hkeeps.ok h

theorem portStatusReset_apart : (∀ e ∈ portStatusReset, e.1.FieldOf .HIF_PORT_STATUS) ∧
    portStatusReset.Pairwise fun e d => d.1.Apart e.1 := by
  decide

/-- After a port reset each field of the status reads as the reset wrote it. -/
theorem State.fld_portReset {s : State} (h : s.Ok) (p : Nat) :
    ∀ e ∈ portStatusReset, (s.portReset p).fld e.1 p 0 = e.2 % 2 ^ (e.1.hi + 1 - e.1.lo) := by
  rw [State.portReset_eq]
  exact State.fld_setFlds (State.portLinkDown_ok h p).regs portStatusReset_apart.1 portStatusReset_apart.2

/-- PERST_N of an endpoint port that goes low is a port reset that takes the readiness of every function away (R62, R417). -/
theorem State.perstLow_of_high {s : State} {p : Nat} (he : s.endpoint p = true) (hp : (s.hport p).perst = false) :
    s.perstLow p = (List.range 257).foldl (fun s f => if (s.fn p f).ready = true then
      s.setFn p f { s.fn p f with ready := false } else s) ((s.setHport p { s.hport p with perst := true }).portReset p) := by
  simp [State.perstLow, he, hp]

/-- Settles O15: a reset of either kind keeps the register file's form until the status is reset, and the status then reads
as written. -/
theorem portResetsReturnThePortToSetup : Obligations.PortResetsReturnThePortToSetup := by
  refine ⟨fun p s he hup => ?linkReset, fun p s he hp => next_done_congr (State.perstLow_of_high he hp), fun p s h => ?status⟩
  case linkReset =>
    have hreset : (if s.endpoint p.val && s.fld HIF_PORT_STATUS.sublink_up p.val 0 != 0 then s.portReset p.val else s) =
        s.portReset p.val := if_pos (by simp [he, hup])
    exact ⟨next_done_congr hreset, next_done_congr hreset⟩
  case status =>
    obtain ⟨hup, hwidth, hspeed, hlow, hfall, hsetup, -⟩ : _ ∧ _ ∧ _ ∧ _ ∧ _ ∧ _ ∧ _ := by
      simpa only [portStatusReset, List.forall_mem_cons] using State.fld_portReset h p
    exact ⟨hsetup, hup, hwidth, hspeed, hlow, hfall⟩

end Sys2Proof.Machine
end

section
/-!
SUPPORT. Semaphores after the reset of their master: none is held or awaited by it (R348, R350).
-/
namespace Sys2Proof.Machine

/-- No part of the semaphore is the master's: it neither holds it nor waits for it. -/
def Semaphore.FreeOf (v : Semaphore) (m : Nat) : Prop := v.holder ≠ some m ∧ ∀ w ∈ v.waiters, w.master ≠ m

/-- The semaphore table is canonical, so that a semaphore reads as written. -/
abbrev State.SemTable (s : State) : Prop := SMap.wf (fun _ => Semaphore.init) s.sem.sems = true

theorem State.semOf_setSem {s : State} (h : s.SemTable) (n k : Nat) (v : Semaphore) :
    (s.setSem n v).semOf k = if k = n then v else s.semOf k := SMap.getD_put h n k v

theorem State.semTable_setSem {s : State} (h : s.SemTable) (n : Nat) (v : Semaphore) : (s.setSem n v).SemTable :=
  SMap.wf_put h n v

/-- Interrupting a waiter touches no semaphore. -/
theorem State.sem_semWake (s : State) (m : Nat) : (s.semWake m).sem = s.sem :=
  (State.semWake_keeps (m := 196748) m (Keeps.refl s) rfl).same .sem rfl

theorem State.semOf_semWake (s : State) (m n : Nat) : (s.semWake m).semOf n = s.semOf n := by
  rw [State.semOf, State.sem_semWake]
  rfl

/-! ### One semaphore at a time: what a step does to semaphore `n`, and that it leaves the others -/

/-- `t` is `s` with nothing but semaphore `n` changed among the semaphores. -/
structure State.OnlySem (n : Nat) (s t : State) : Prop where
  table : s.SemTable → t.SemTable
  others : s.SemTable → ∀ k, k ≠ n → t.semOf k = s.semOf k

theorem State.OnlySem.trans {n : Nat} {s t u : State} (h : State.OnlySem n s t) (g : State.OnlySem n t u) :
    State.OnlySem n s u :=
  ⟨fun hs => g.table (h.table hs), fun hs k hk => (g.others (h.table hs) k hk).trans (h.others hs k hk)⟩

theorem State.onlySem_setSem (s : State) (n : Nat) (v : Semaphore) : State.OnlySem n s (s.setSem n v) :=
  ⟨fun h => State.semTable_setSem h n v, fun h k hk => by rw [State.semOf_setSem h, if_neg hk]⟩

theorem State.onlySem_semWake (s : State) (n m : Nat) : State.OnlySem n s (s.semWake m) :=
  ⟨fun h => by rwa [State.SemTable, State.sem_semWake], fun _ k _ => s.semOf_semWake m k⟩

theorem State.onlySem_semGrant (s : State) (n : Nat) : State.OnlySem n s (s.semGrant n) := by
  unfold State.semGrant
  dsimp only
  split
  · exact s.onlySem_setSem n _
  · exact (s.onlySem_setSem n _).trans (State.onlySem_semWake _ n _)

theorem State.onlySem_semFree (s : State) (n : Nat) (b : Bool) : State.OnlySem n s (s.semFree n b) :=
  (s.onlySem_setSem n _).trans (State.onlySem_semGrant _ n)

theorem State.onlySem_semForget (s : State) (n m : Nat) : State.OnlySem n s (s.semForget n m) := by
  unfold State.semForget
  dsimp only
  split
  · exact (s.onlySem_setSem n _).trans (State.onlySem_semGrant _ n)
  · exact s.onlySem_setSem n _

/-- A grant leaves a semaphore without holder, and without waiters that it did not have. -/
theorem State.semOf_semGrant {s : State} (h : s.SemTable) (n : Nat) :
    ((s.semGrant n).semOf n).holder = none ∧ ∀ w ∈ ((s.semGrant n).semOf n).waiters, w ∈ (s.semOf n).waiters := by
  unfold State.semGrant
  dsimp only
  split
  · rw [State.semOf_setSem h, if_pos rfl]
    exact ⟨rfl, fun w hw => hw⟩
  · rw [State.semOf_semWake, State.semOf_setSem h, if_pos rfl]
    exact ⟨rfl, fun w hw => (List.mem_filter.1 hw).1⟩

/-- A master forgotten waits no longer. -/
theorem State.waiters_semForget {s : State} (h : s.SemTable) (n m : Nat) :
    ∀ w ∈ ((s.semForget n m).semOf n).waiters, w.master ≠ m := by
  intro w hw
  have hwritten (v : Semaphore) : (s.setSem n v).semOf n = v := by rw [State.semOf_setSem h, if_pos rfl]
  have hkept : w ∈ (s.semOf n).waiters.filter fun x => x.master != m := by
    unfold State.semForget at hw
    dsimp only at hw
    split at hw
    · have hgrant := (State.semOf_semGrant (State.semTable_setSem h n _) n).2 w hw
      rwa [hwritten] at hgrant
    · rwa [hwritten] at hw
  simpa using (List.mem_filter.1 hkept).2

/-- A semaphore released passes to a waiter or becomes free: its holder holds it no longer. -/
theorem State.semOf_semFree {s : State} (h : s.SemTable) (n : Nat) (b : Bool) :
    ((s.semFree n b).semOf n).holder = none ∧ ∀ w ∈ ((s.semFree n b).semOf n).waiters, w ∈ (s.semOf n).waiters := by
  unfold State.semFree
  obtain ⟨hholder, hwaiters⟩ := State.semOf_semGrant (State.semTable_setSem h n { s.semOf n with
    holder := none, orphan := (s.semOf n).orphan || b }) n
  rw [State.semOf_setSem h, if_pos rfl] at hwaiters
  exact ⟨hholder, hwaiters⟩

/-! ### The reset of a master (R350) -/

/-- What the reset of master `m` does to semaphore `n`. -/
def State.semLeave (m : Nat) (s : State) (n : Nat) : State :=
  let s := s.semForget n m
  if (s.semOf n).holder = some m then s.semFree n true else s

theorem State.semReset_eq_foldl (s : State) (m : Nat) : s.semReset m = (List.range 64).foldl (State.semLeave m) s := rfl

theorem State.onlySem_semLeave (m : Nat) (s : State) (n : Nat) : State.OnlySem n s (s.semLeave m n) := by
  unfold State.semLeave
  dsimp only
  split
  · exact (s.onlySem_semForget n m).trans (State.onlySem_semFree _ n true)
  · exact s.onlySem_semForget n m

theorem State.freeOf_semLeave {s : State} (h : s.SemTable) (m n : Nat) : ((s.semLeave m n).semOf n).FreeOf m := by
  have hforget := State.waiters_semForget h n m
  unfold State.semLeave
  dsimp only
  split
  · obtain ⟨hholder, hwaiters⟩ := State.semOf_semFree ((s.onlySem_semForget n m).table h) n true
    exact ⟨by simp [hholder], fun w hw => hforget w (hwaiters w hw)⟩
  · next hother => exact ⟨hother, hforget⟩

/-- The master leaves every semaphore of a list, and those that it has no part in stay so. -/
theorem State.freeOf_foldl_semLeave {m n : Nat} (l : List Nat) {s : State} (h : s.SemTable)
    (hn : n ∈ l ∨ (s.semOf n).FreeOf m) : ((l.foldl (State.semLeave m) s).semOf n).FreeOf m := by
  induction l generalizing s with
  | nil => exact hn.resolve_left List.not_mem_nil
  | cons k l ih =>
    have hk := State.onlySem_semLeave m s k
    refine ih (hk.table h) ?_
    by_cases hkn : n = k
    · subst hkn
      exact .inr (State.freeOf_semLeave h m n)
    · rw [hk.others h n hkn]
      exact hn.imp_left fun hmem => (List.mem_cons.1 hmem).resolve_left hkn

theorem State.freeOf_semReset {s : State} (h : s.Ok) (m : Nat) {n : Nat} (hn : n < 64) : ((s.semReset m).semOf n).FreeOf m := by
  rw [State.semReset_eq_foldl]
  exact State.freeOf_foldl_semLeave _ h.semTable (.inl (List.mem_range.2 hn))

end Sys2Proof.Machine
end

section
/-!
SUPPORT. The steps of a function-level reset: what initiates it, what its completion leaves, and when a function becomes ready
(R59, R60, R62, R417).
-/
namespace Sys2Proof.Machine

section
variable {s : State} {p f : Nat}

/-- A function that answers is in no reset (R60). -/
theorem State.flr_of_fnAnswers (h : s.fnAnswers p f = true) : (s.fn p f).flr = false := by
  simp only [State.fnAnswers, Bool.and_eq_true, Bool.not_eq_true'] at h
  exact h.2

theorem State.fnAnswers_of_flr (h : (s.fn p f).flr = true) : s.fnAnswers p f = false := by
  simp [State.fnAnswers, h]

/-- Steps 2 to 5 for a virtual function that is in no reset (R59). -/
theorem State.fnReset_vf (hf : f ≠ 0) (h : (s.fn p f).flr = false) :
    let u := s.setFn p f { s.fn p f with flr := true, flrAt := s.now, flrCtxs := s.fnCtxs p f }
    s.fnReset p f = ((u.fnDrain p f).dropReads p f).semReset (mHost p f) := by
  simp [State.fnReset, State.oneFnReset, hf, h]

theorem State.fnDrain_of_reports (h : s.rsvHeld = false) : s.fnDrain p f = (s.fn p f).flrCtxs.foldl State.ctxFnReset s := by
  simp [State.fnDrain, h]

/-- Step 6 for a virtual function whose drain RSV does not hold (R59). -/
theorem State.fnDone_vf (hf : f ≠ 0) (h : (s.fn p f).flr = true) (hheld : s.rsv.held.contains (.drain p f) = false) :
    s.fnDone p f = s.setFn p f { FnState.init with ready := (s.fn p f).ready, vfRegAddr := (s.fn p f).vfRegAddr } := by
  simp only [State.fnDone, State.oneFnDone, h, hheld, if_pos hf, Bool.not_true, Bool.or_self, Bool.false_eq_true, if_false]

/-- Step 6 for the physical function is one for its virtual functions too, and lets a link that waited for it train
(R42, R62). -/
theorem State.fnDone_pf (s : State) (p : Nat) :
    let t := (List.range 257).foldl (fun s v => s.oneFnDone p v) s
    s.fnDone p 0 = if (t.hport p).trainDue then t.trainWhen p else t := if_neg (not_not_intro rfl)

/-- Step 6 for the physical function: its vector table and pending bits are reset with it (R59). -/
theorem State.oneFnDone_pf (h : (s.fn p 0).flr = true) (hheld : s.rsv.held.contains (.drain p 0) = false) :
    let base := (RegRef.mk .HIF_MSIX_TABLE p 0).off
    let u := (s.setFn p 0 { FnState.init with ready := (s.fn p 0).ready, vfRegAddr := (s.fn p 0).vfRegAddr }).setHport p
      { s.hport p with vfBars := [] }
    s.oneFnDone p 0 = { u with regs := s.regs.filter fun e => e.1 < base || base + 0x8100 ≤ e.1 } := by
  simp only [State.oneFnDone, h, hheld, Bool.not_true, Bool.or_self, Bool.false_eq_true, if_false, ne_eq, not_true_eq_false]
  rfl

/-- A function that exists becomes ready while PERST_N is high and the device is out of reset (R417). -/
theorem State.fnReady_of_unready (hstep : s.sec.step ≠ 0) (hex : s.fnExists p f = true) (hperst : (s.hport p).perst = false)
    (hready : (s.fn p f).ready = false) : s.fnReady p f = s.setFn p f { s.fn p f with ready := true } := by
  simp [State.fnReady, hstep, hex, hperst, hready]

end

/-- A function-level reset of a function that answers begins. -/
theorem exec_flrInitiate {s : State} {p : HPort} {f : Fn} (h : s.fnAnswers p.val f.val = true) :
    exec (.flrInitiate p f) s = .next ((s.fnReset p.val f.val).done s) := next_done_congr (if_pos h)

/-- One of a function in reset merges into that reset (R60). -/
theorem exec_flrInitiate_of_flr {s : State} {p : HPort} {f : Fn} (h : (s.fn p.val f.val).flr = true) :
    exec (.flrInitiate p f) s = .next (s.done s) :=
  next_done_congr (if_neg (ne_true_of_eq_false (State.fnAnswers_of_flr h)))

theorem Fn.val_ne_zero {f : Fn} (h : f ≠ 0) : f.val ≠ 0 := fun h0 => h (Fin.ext h0)

/-- Settles O16: the steps by the lemmas of their functions; after steps 2 to 5 the function has left every semaphore. -/
theorem functionResetsRunTheirSteps : Obligations.FunctionResetsRunTheirSteps := by
  refine ⟨fun p f s ha hf => ?initiate, fun p f s h => State.fnDrain_of_reports h, fun p s ha => exec_flrInitiate ha,
    fun p f s h => ⟨exec_flrInitiate_of_flr h, fun hf hheld => next_done_congr (State.fnDone_vf (Fn.val_ne_zero hf) h hheld),
      fun hf => ?completePf⟩,
    fun p s h hheld => State.oneFnDone_pf h hheld,
    fun p f s hstep hex hperst hready => next_done_congr (State.fnReady_of_unready hstep hex hperst hready),
    fun s m n h hn => State.freeOf_semReset h m hn⟩
  case initiate =>
    rw [exec_flrInitiate ha]
    exact next_done_congr (State.fnReset_vf (Fn.val_ne_zero hf) (State.flr_of_fnAnswers ha))
  case completePf =>
    subst hf
    exact next_done_congr (s.fnDone_pf p.val)

end Sys2Proof.Machine
end

section
/-!
SUPPORT. The slots of the downstream ports: what a change of a slot's inputs, of its power or of DL_Active does (R63 to R65,
R70, R483).
-/
namespace Sys2Proof.Machine

section
variable {s : State} {p k : Nat}

/-- A status bit that becomes 1 is a slot event where its enable and hp_int_en are set (R63). -/
theorem State.slotBit_of_clear {bit en : Field} (h : s.flag bit p k = false) :
    let u := s.setFlag bit p k true
    s.slotBit p k bit en =
      if u.flag en p k = true ∧ u.flag HIF_DS_SLOT_CTL.hp_int_en p k = true then u.slotEvent p k else u := by
  simp [State.slotBit, h]

theorem State.presence_of_change {b : Bool} (he : s.endpoint p = false) (hk : s.subExists p k = true)
    (hb : s.flag HIF_DS_SLOT_STATUS.pres_state p k ≠ b) :
    let u := (s.setFlag HIF_DS_SLOT_STATUS.pres_state p k b).slotBit p k HIF_DS_SLOT_STATUS.pres_chg HIF_DS_SLOT_CTL.pres_chg_en
    s.presence p k b = if b = false ∧ u.slotLive p k = true then u.surpriseRemoval p k else u := by
  simp [State.presence, he, hk, hb]

theorem State.attention_of_slot (he : s.endpoint p = false) (hk : s.subExists p k = true) :
    s.attention p k = s.slotBit p k HIF_DS_SLOT_STATUS.attn_btn HIF_DS_SLOT_CTL.attn_btn_en := by
  simp [State.attention, he, hk]

theorem State.slotFault_of_slot (he : s.endpoint p = false) (hk : s.subExists p k = true) :
    let u := s.slotBit p k HIF_DS_SLOT_STATUS.pwr_fault HIF_DS_SLOT_CTL.pwr_fault_en
    let w := if u.flag HIF_DS_SLOT_CTL.pwr_ctl p k then u
      else ((u.setFlag HIF_DS_SLOT_CTL.pwr_ctl p k true).slotPerstLow p k).slotOff p k
    s.slotFault p k = if s.flag HIF_DS_SLOT_STATUS.dll_active p k then w.surpriseRemoval p k else w := by
  simp [State.slotFault, he, hk]

theorem State.dllChange_of_change {b : Bool} {width speed : Nat} (h : s.flag HIF_DS_SLOT_STATUS.dll_active p k ≠ b) :
    let u := ((s.setFlag HIF_DS_SLOT_STATUS.dll_active p k b).setFld HIF_DS_SLOT_STATUS.width p k
      (if b then width else 0)).setFld HIF_DS_SLOT_STATUS.speed p k (if b then speed else 0)
    let v₁ := (u.setUp p k b).lowSpeed p
    let v := if b then v₁ else v₁.setSub p k { v₁.sub p k with device := none }
    let w := (if k = 0 then (v.setFld HIF_PORT_STATUS.width p 0 (if b then width else 0)).setFld HIF_PORT_STATUS.speed p 0
      (if b then speed else 0) else v).slotBit p k HIF_DS_SLOT_STATUS.dll_chg HIF_DS_SLOT_CTL.dll_chg_en
    s.dllChange p k b width speed = if b = false ∧ w.slotLive p k = true then w.surpriseRemoval p k else w := by
  simp [State.dllChange, h]

/-! ### What is enumerated (R70) -/

section
variable {speed : Nat} {dev : Option SubDevice}

theorem State.deviceFound_slow (h : speed < 5) :
    s.deviceFound p k speed dev =
      (s.setSub p k { s.sub p k with device := dev }).setFlag HIF_DS_SLOT_STATUS.cfg_error p k true := by
  simp [State.deviceFound, h]

theorem State.deviceFound_of_type {d : SubDevice} (hd : dev = some d) (h : d.type = 1 ∨ d.type = 2) :
    s.deviceFound p k speed dev =
      (s.setSub p k { s.sub p k with device := dev }).setFlag HIF_DS_SLOT_STATUS.cfg_error p k true := by
  simp [State.deviceFound, hd, h]

theorem State.deviceFound_type3 {d : SubDevice} (hd : dev = some d) (h3 : d.type = 3) (h : 5 ≤ speed) :
    s.deviceFound p k speed dev =
      ((s.setSub p k { s.sub p k with device := dev }).emit (.dsIdentify p k)).emit (.dsHealth p k) := by
  simp [State.deviceFound, hd, h3, h]

end

end

/-! ### The commands -/

section
variable {s : State} {p : HPort} {k : SubLink}

theorem exec_slotPowerRemove {t : Nat} (h : (s.sub p.val k.val).offBy = some t) :
    exec (.slotPowerRemove p k) s =
      .next (((if s.flag HIF_DS_SLOT_STATUS.dll_active p.val k.val then s.advance t else s).slotOff p.val k.val).done s) := by
  change execSlotPowerRemove p k s = _
  simp only [execSlotPowerRemove, h]

theorem exec_slotPerstRelease (hpow : (s.sub p.val k.val).powered = true) (hperst : (s.sub p.val k.val).perst = true)
    (hoff : (s.sub p.val k.val).offBy = none) (hctl : s.flag HIF_DS_SLOT_CTL.pwr_ctl p.val k.val = false) :
    exec (.slotPerstRelease p k) s = .next ((((s.advance ((s.sub p.val k.val).onAt + ms 100)).setSub p.val k.val
      { s.sub p.val k.val with perst := false }).emit (.slotPerst p.val k.val false)).done s) := by
  change execSlotPerstRelease p k s = _
  simp [execSlotPerstRelease, hpow, hperst, hoff, hctl]

/-- A link that comes up where it may is one that reaches DL_Active (R40). -/
theorem exec_dllActiveChange_up {width speed : Nat} {dev : Option SubDevice} (hmay : s.dllMay p.val k.val = true)
    (hfits : s.linkFits p.val width speed = true) :
    exec (.dllActiveChange p k true width ⟨speed, dev⟩) s = .next ((s.subUp p.val k.val width speed dev).done s) := by
  change execDllActiveChange p k true width ⟨speed, dev⟩ s = _
  simp [execDllActiveChange, hmay, hfits]

end

/-- Settles O19: each command changes its slot as the slot's own lemma says. -/
theorem slotsFollowTheirDevices : Obligations.SlotsFollowTheirDevices := by
  refine ⟨fun p k s t h => exec_slotPowerRemove h,
    fun p k s hpow hperst hoff hctl => exec_slotPerstRelease hpow hperst hoff hctl,
    fun p k b s he hk hb => next_done_congr (State.presence_of_change he hk hb),
    fun p k width speed dev s => ⟨rfl, fun hd hmay hfits hflit => ?comesUp⟩,
    fun p k s he hk => ⟨next_done_congr (State.attention_of_slot he hk), next_done_congr (State.slotFault_of_slot he hk)⟩,
    fun p k width speed b s h => State.dllChange_of_change h,
    fun p k speed dev s => ⟨State.deviceFound_slow, fun d => State.deviceFound_of_type, fun d => State.deviceFound_type3⟩,
    fun p k bit en s h => State.slotBit_of_clear h⟩
  case comesUp =>
    have hsettles : ¬ ((s.hport p.val).flit && decide (speed < 6)) = true := by
      rcases hflit with hflit | hflit
      · simp [hflit]
      · simp [Nat.not_lt.2 hflit]
    rw [exec_dllActiveChange_up hmay hfits, State.subUp_of_down hd, if_neg hsettles]

end Sys2Proof.Machine
end

section
/-!
SUPPORT. Accesses of the devices below the downstream ports: how one is issued, what ends it, and what an inbound request does
(R65 to R70, R433; log entry 108).
-/
namespace Sys2Proof.Machine

/-! ### Issuing (R65 to R67) -/

/-- What an issued access sends to the device below, with the place that the address registers select. -/
def State.dsRequest (s : State) (p k : Nat) (x : Word) : DsKind → Output
  | .cfgRead => .dsCfgRead p k (s.fld HIF_DS_CFG_ADDR.function p k) (s.fld HIF_DS_CFG_ADDR.dword p k)
  | .cfgWrite => .dsCfgWrite p k (s.fld HIF_DS_CFG_ADDR.function p k) (s.fld HIF_DS_CFG_ADDR.dword p k) (x.toNat % 2 ^ 32)
  | .memRead => .dsMemRead p k (s.inHdm p k (s.fld HIF_DS_MEM_ADDR.addr p k * 8)) (s.fld HIF_DS_MEM_ADDR.addr p k * 8)
  | .memWrite => .dsMemWrite p k (s.inHdm p k (s.fld HIF_DS_MEM_ADDR.addr p k * 8)) (s.fld HIF_DS_MEM_ADDR.addr p k * 8) x

section
variable {s : State} {p k : Nat} {a : WaitAcc} {kind : DsKind} {x : Word}

/-- With none outstanding, ending an access only answers it. -/
theorem State.dsEnd_of_idle (d : DsOut) (h : s.hif.ds = none) : s.dsEnd d x = s.deliver d.acc x false := by
  have hsame : ({ s with hif := { s.hif with ds := none } } : State) = s := by rw [← h]
  unfold State.dsEnd
  rw [hsame]

theorem State.dsIssue_of_removed (hds : s.hif.ds = none) (h : s.flag HIF_DS_SLOT_STATUS.removed p k = true) :
    s.dsIssue a p k kind x = s.deliver a kind.allOnes false := by
  simp only [State.dsIssue, h, if_true, State.dsEnd_of_idle _ hds]

theorem State.dsIssue_of_down (hds : s.hif.ds = none) (hr : s.flag HIF_DS_SLOT_STATUS.removed p k = false)
    (hd : s.flag HIF_DS_SLOT_STATUS.dll_active p k = false) :
    s.dsIssue a p k kind x = (s.setFlag HIF_DS_SLOT_STATUS.cfg_error p k true).deliver a kind.allOnes false := by
  have hidle : (s.setFlag HIF_DS_SLOT_STATUS.cfg_error p k true).hif.ds = none := hds
  simp only [State.dsIssue, hr, hd, Bool.not_false, Bool.false_eq_true, if_false, if_true, State.dsEnd_of_idle _ hidle]

theorem State.dsIssue_of_active (hr : s.flag HIF_DS_SLOT_STATUS.removed p k = false)
    (hd : s.flag HIF_DS_SLOT_STATUS.dll_active p k = true) :
    s.dsIssue a p k kind x =
      ({ s with hif := { s.hif with ds := some ⟨a, p, k, kind, s.now⟩ } } : State).emit (s.dsRequest p k x kind) := by
  simp only [State.dsIssue, hr, hd, Bool.not_true, Bool.false_eq_true, if_false]
  cases kind <;> rfl

end

/-! ### The two data registers of a sub-link (R66) -/

/-- One of the two registers whose access goes to the device below. -/
abbrev Reg.IsDsData (g : Reg) : Prop := g = .HIF_DS_CFG_DATA ∨ g = .HIF_DS_MEM_DATA

theorem dsData_place {g : Reg} (hg : g.IsDsData) (p : HPort) (k : SubLink) :
    (RegRef.mk g p.val k.val).inShape = true ∧ (RegRef.mk g p.val k.val).live = true ∧
      0x100000 ≤ (RegRef.mk g p.val k.val).off ∧ (RegRef.mk g p.val k.val).off + 8 ≤ 0x200000 := by
  rcases hg with rfl | rfl <;> simp [RegRef.inShape, RegRef.live, RegRef.off, Reg.shape] <;> omega

/-- No field rule refuses a write of them, and nothing but a stop or a failed boot shuts one out (R386, R421). -/
theorem State.refuse_dsData (s : State) (m : Nat) (full : Bool) {g : Reg} (hg : g.IsDsData) (i k : Nat) (o t : Word) :
    s.refuse m full ⟨g, i, k⟩ o t = none := by
  rcases hg with rfl | rfl <;> rfl

theorem State.shutOut_dsData {s : State} {g : Reg} (hg : g.IsDsData) (hs : s.stopped = false)
    (hb : s.fld SEC_BOOT_STATUS.state 0 0 ≠ 3) : s.shutOut g = false := by
  rcases hg with rfl | rfl <;> simp [State.shutOut, hs, hb]

/-! ### Reads -/

section
variable {s : State} {m : Nat} {p : HPort} {k : SubLink} {g : Reg}

/-- The read of a data register, performed, is an access of its kind to the device below (R66). -/
theorem State.performRead_dsData (hg : g.IsDsData) (t : Nat) :
    let a : WaitAcc := ⟨m, (RegRef.mk g p.val k.val).off, .w64, none, none, t⟩
    s.performRead a = s.dsIssue a p.val k.val (if g = .HIF_DS_CFG_DATA then .cfgRead else .memRead) 0 := by
  intro a
  obtain ⟨hshape, hlive, -⟩ := dsData_place hg p k
  have hpart : a.part = some .full := WaitAcc.part_full rfl (RegRef.off_mod_eight _)
  have hreg : a.reg = some ⟨g, p.val, k.val⟩ := (WaitAcc.reg_full rfl (RegRef.off_mod_eight _)).trans (regAt_off hshape hlive)
  unfold State.performRead
  rw [hpart, hreg]
  rcases hg with rfl | rfl <;> rfl

/-- A read by a master, with no access outstanding and none waiting at HIF, is performed at once (R31). -/
theorem State.regRead_dsData (hg : g.IsDsData) (hm : directMaster m = true) (hds : s.hif.ds = none)
    (hw : ∀ b ∈ s.waits, b.block ≠ 1) :
    s.regRead m ⟨g, p.val, k.val⟩ .full = s.dsIssue ⟨m, (RegRef.mk g p.val k.val).off, .w64, none, none, s.now⟩ p.val k.val
      (if g = .HIF_DS_CFG_DATA then .cfgRead else .memRead) 0 := by
  obtain ⟨-, -, hlo, hhi⟩ := dsData_place hg p k
  have hend : (RegRef.mk g p.val k.val).off < (1 + 1) * 0x100000 := by omega
  have hblock : (WaitAcc.mk m (RegRef.mk g p.val k.val).off .w64 none none s.now).block = 1 :=
    WaitAcc.block_eq (by omega) hlo hend
  calc s.regRead m ⟨g, p.val, k.val⟩ .full = s.masterAccess m (RegRef.mk g p.val k.val).off .w64 none := if_pos hm
    _ = s.performRead _ := State.regAccess_of_free (by simp [State.blocked_read, hds]) (by rwa [hblock])
    _ = _ := State.performRead_dsData hg s.now

end

/-! ### Writes -/

section
variable {s : State} {m : Nat} {p : HPort} {k : SubLink} {w : WVal} {g : Reg}

/-- A register write by a master that reaches the register space, which nothing holds up, is performed at once. -/
theorem State.regWrite_of_free {r : RegRef} (hm : directMaster m = true) (hshape : r.inShape = true) (hlive : r.live = true)
    (hb : (s.rxBytes m w.bytes).blocked (w.access m r s.now) = false)
    (hw : ∀ b ∈ s.waits, b.block ≠ (w.access m r s.now).block) :
    s.regWrite m r w = ((s.rxBytes m w.bytes).writeReg (w.access m r s.now) w.acc r (wvalData w)).1 := by
  have hwaits : ∀ b ∈ (s.rxBytes m w.bytes).waits, b.block ≠ (w.access m r s.now).block := by simpa using hw
  have haccess : s.regWrite m r w = (s.rxBytes m w.bytes).regAccess (w.access m r s.now) := by
    unfold State.regWrite
    rw [if_pos hm, State.masterAccess, State.rxBytes_now]
    obtain ⟨acc, x⟩ := w
    cases acc <;> rfl
  rw [haccess, State.regAccess_of_free hb hwaits]
  change ((s.rxBytes m w.bytes).performWrite (w.access m r s.now) (wvalData w)).1 = _
  rw [State.performWrite_mapped _ _ (part_access w m r s.now) (reg_access w m s.now hshape hlive)]

theorem block_dsWrite (hg : g.IsDsData) (t : Nat) : (w.access m ⟨g, p.val, k.val⟩ t).block = 1 := by
  obtain ⟨-, -, hlo, hhi⟩ := dsData_place hg p k
  have hoff : wvalOff ⟨g, p.val, k.val⟩ w ≤ (RegRef.mk g p.val k.val).off + 4 := by
    unfold wvalOff
    split <;> omega
  have hoff' : (RegRef.mk g p.val k.val).off ≤ wvalOff ⟨g, p.val, k.val⟩ w := Nat.le_add_right ..
  exact WaitAcc.block_eq (by omega) (Nat.le_trans hlo hoff') (Nat.lt_of_le_of_lt hoff (by omega))

/-- A write of a data register waits only for the log (R435) and for the access that holds HIF (R67). -/
theorem State.blocked_dsWrite (hg : g.IsDsData) (t : Nat) (hds : s.hif.ds = none)
    (hl : s.logStall (w.access m ⟨g, p.val, k.val⟩ t) = false) : s.blocked (w.access m ⟨g, p.val, k.val⟩ t) = false := by
  obtain ⟨hshape, hlive, -⟩ := dsData_place hg p k
  have hreport : s.reportStall (w.access m ⟨g, p.val, k.val⟩ t) = false := by
    unfold State.reportStall
    rw [reg_access w m t hshape hlive]
    rcases hg with rfl | rfl <;> exact Bool.and_false _
  simp [State.blocked, hl, hreport, hds]

/-- A write that reaches a data register is recorded and goes to the device below. -/
theorem State.writeReg_dsData (hg : g.IsDsData) (a : WaitAcc) (i j : Nat) (acc : AccSize) (v : Word) (hs : s.stopped = false)
    (hb : s.fld SEC_BOOT_STATUS.state 0 0 ≠ 3) :
    let mask : Word := BitVec.ofNat 64 (accMask acc)
    (s.writeReg a acc ⟨g, i, j⟩ v).1 =
      s.dsWrite a ⟨g, i, j⟩ (attempted mask (accPlace acc v) (s.regView ⟨g, i, j⟩)) mask := by
  have hcount : ¬ (g = .PMC_COUNT ∨ g = .PMC_EVSEL) := by rcases hg with rfl | rfl <;> decide
  unfold State.writeReg
  dsimp only
  rw [if_neg hcount, State.shutOut_dsData hg hs hb, if_neg Bool.false_ne_true, State.refuse_dsData _ _ _ hg]
  dsimp only
  rw [if_pos hg]

/-- So is one of a master, with no access outstanding, when nothing holds it up (R31, R66). -/
theorem State.regWrite_dsData (hg : g.IsDsData) (hm : directMaster m = true) (hds : s.hif.ds = none)
    (hw : ∀ b ∈ s.waits, b.block ≠ 1) (hs : s.stopped = false) (hb : s.fld SEC_BOOT_STATUS.state 0 0 ≠ 3)
    (hl : (s.rxBytes m w.bytes).logStall (w.access m ⟨g, p.val, k.val⟩ s.now) = false) :
    let u := s.rxBytes m w.bytes
    s.regWrite m ⟨g, p.val, k.val⟩ w = u.dsWrite (w.access m ⟨g, p.val, k.val⟩ s.now) ⟨g, p.val, k.val⟩
      (attempted w.mask w.data (u.regView ⟨g, p.val, k.val⟩)) w.mask := by
  intro u
  obtain ⟨hshape, hlive, -⟩ := dsData_place hg p k
  have hboot : u.fld SEC_BOOT_STATUS.state 0 0 ≠ 3 := by
    rwa [State.fld, State.reg, State.rxBytes_regs]
  rw [State.regWrite_of_free hm hshape hlive
    (State.blocked_dsWrite hg s.now (by rwa [State.rxBytes_hif]) hl) (by rwa [block_dsWrite hg])]
  exact State.writeReg_dsData hg _ _ _ _ _ ((s.stopped_rxBytes ..).trans hs) hboot

end

section
variable {u : State} {a : WaitAcc} {p k : Nat} {x mask : Word}

/-- The upper half of the configuration data has no bit that a write reaches (R66). -/
theorem State.dsWrite_cfg_none (h : mask &&& HIF_DS_CFG_DATA.data.mask = 0) :
    u.dsWrite a ⟨.HIF_DS_CFG_DATA, p, k⟩ x mask =
      (u.logWrite a.m (RegRef.mk .HIF_DS_CFG_DATA p k).off 0 x).deliver a 0 false := by
  unfold State.dsWrite
  rw [h]
  rfl

theorem State.dsWrite_cfg (h : mask &&& HIF_DS_CFG_DATA.data.mask ≠ 0) :
    u.dsWrite a ⟨.HIF_DS_CFG_DATA, p, k⟩ x mask =
      (u.logWrite a.m (RegRef.mk .HIF_DS_CFG_DATA p k).off 0 x).dsIssue a p k .cfgWrite x := by
  unfold State.dsWrite
  rw [beq_eq_false_iff_ne.2 h]
  rfl

theorem State.dsWrite_mem :
    u.dsWrite a ⟨.HIF_DS_MEM_DATA, p, k⟩ x mask =
      (u.logWrite a.m (RegRef.mk .HIF_DS_MEM_DATA p k).off 0 x).dsIssue a p k .memWrite x := rfl

end

/-- A write reaches bits of the configuration data unless it is one of the upper half. -/
theorem accMask_dsCfg (acc : AccSize) : BitVec.ofNat 64 (accMask acc) &&& HIF_DS_CFG_DATA.data.mask = 0 ↔ acc = .hi := by
  cases acc <;> decide

/-! ### Completions (R67) -/

section
variable {s : State} {d : DsOut} {p k : Nat} {cfg : Bool}

/-- The outstanding access is the sub-link's, of configuration space or of memory as `cfg` says. -/
structure State.DsAwaits (s : State) (d : DsOut) (p k : Nat) (cfg : Bool) : Prop where
  out : s.hif.ds = some d
  port : d.p = p
  link : d.s = k
  kind : d.kind.isCfg = cfg

theorem State.dsComplete_ok (h : s.DsAwaits d p k cfg) (x : Word) :
    s.dsComplete p k cfg (.ok x) = s.dsEnd d (if cfg then x &&& 0xFFFFFFFF else x) := by
  simp [State.dsComplete, h.out, h.port, h.link, h.kind]

theorem State.dsComplete_poisoned (h : s.DsAwaits d p k cfg) :
    s.dsComplete p k cfg .poisoned = (if s.targetOn p k then s.targetError else s).dsFail d := by
  simp [State.dsComplete, h.out, h.port, h.link, h.kind]

theorem State.dsComplete_error (h : s.DsAwaits d p k cfg) {r : DsResult} (hok : ∀ x, r ≠ .ok x) (hp : r ≠ .poisoned) :
    s.dsComplete p k cfg r = s.dsFail d := by
  cases r with
  | ok x => exact absurd rfl (hok x)
  | poisoned => exact absurd rfl hp
  | _ => simp [State.dsComplete, h.out, h.port, h.link, h.kind]

theorem State.dsComplete_other_kind (h : s.DsAwaits d p k cfg) (r : DsResult) : s.dsComplete p k (!cfg) r = s := by
  simp [State.dsComplete, h.out, h.kind]

/-- What fails reads as all ones, of 32 bits for configuration (R65, R67). -/
theorem State.dsFail_of (h : s.DsAwaits d p k cfg) (u : State) :
    u.dsFail d = (u.setFlag HIF_DS_SLOT_STATUS.cfg_error p k true).dsEnd d
      (if d.kind.isCfg then 0xFFFFFFFF else BitVec.allOnes 64) := by
  rw [State.dsFail, h.port, h.link]
  rfl

end

/-- The outstanding access of a sub-link fails 1 ms after it was issued (R67). -/
theorem exec_dsAccessTimeout {s : State} {d : DsOut} {p : HPort} {k : SubLink} {cfg : Bool}
    (h : s.DsAwaits d p.val k.val cfg) :
    exec (.dsAccessTimeout p k) s = .next (((s.advance (d.at_ + ms 1)).dsFail d).done s) := by
  change execDsAccessTimeout p k s = _
  simp [execDsAccessTimeout, h.out, h.port, h.link]

/-- An inbound request of a device whose link is active (R68). -/
theorem State.dsInbound_of_active {s : State} {p k : Nat} (h : s.flag HIF_DS_SLOT_STATUS.dll_active p k = true) :
    s.dsInbound p k .msi = s.slotBit p k HIF_DS_SLOT_STATUS.attn_btn HIF_DS_SLOT_CTL.attn_btn_en ∧
    s.dsInbound p k .memory = s.emit (.dsUnsupported p k) ∧ s.dsInbound p k .intx = s := by
  simp [State.dsInbound, h]

/-- Settles O20: a read or write is an access that is issued or answered at once; a completion or the timeout ends the
outstanding one. -/
theorem downstreamAccessesIssueAndEnd : Obligations.DownstreamAccessesIssueAndEnd := by
  refine ⟨fun m p k s hm hds hw => ?read, fun m p k w s hm hds hw hs hb => ?cfgWrite,
    fun m p k w s hm hds hw hs hb => ?memWrite, fun p k s d hout hp hk => ?ends, fun p k s hd => ?inbound⟩
  case read =>
    intro c e addr
    have hcfg : exec (.dsCfgRead m p k) s = .next ((s.dsIssue c p.val k.val .cfgRead 0).done s) :=
      next_done_congr (State.regRead_dsData (.inl rfl) hm hds hw)
    have hmem : exec (.dsMemRead m p k) s = .next ((s.dsIssue e p.val k.val .memRead 0).done s) :=
      next_done_congr (State.regRead_dsData (.inr rfl) hm hds hw)
    rw [hcfg, hmem]
    refine ⟨fun hr => ?_, fun hr hd => ?_, fun hr hd => ?_⟩
    · exact ⟨next_done_congr (State.dsIssue_of_removed hds hr), next_done_congr (State.dsIssue_of_removed hds hr)⟩
    · exact ⟨next_done_congr (State.dsIssue_of_down hds hr hd), next_done_congr (State.dsIssue_of_down hds hr hd)⟩
    · exact ⟨next_done_congr (State.dsIssue_of_active hr hd), next_done_congr (State.dsIssue_of_active hr hd)⟩
  case cfgWrite =>
    intro r a u x t hl
    have hwrite : s.regWrite m.toNat r w = u.dsWrite a r x w.mask := State.regWrite_dsData (.inl rfl) hm hds hw hs hb hl
    refine ⟨fun hhi => ?_, fun hhi hr hd => ?_⟩
    · exact next_done_congr (hwrite.trans (State.dsWrite_cfg_none ((accMask_dsCfg w.acc).2 hhi)))
    · exact next_done_congr ((hwrite.trans (State.dsWrite_cfg fun h0 => hhi ((accMask_dsCfg w.acc).1 h0))).trans
        (State.dsIssue_of_active hr hd))
  case memWrite =>
    intro r a u x t addr hl hr hd
    have hwrite : s.regWrite m.toNat r w = u.dsWrite a r x w.mask := State.regWrite_dsData (.inr rfl) hm hds hw hs hb hl
    exact next_done_congr ((hwrite.trans State.dsWrite_mem).trans (State.dsIssue_of_active hr hd))
  case ends =>
    intro ended failed
    have fails {cfg : Bool} (h : s.DsAwaits d p.val k.val cfg) (u : State) : u.dsFail d = failed u := State.dsFail_of h u
    refine ⟨?_, fun hc => ?_, fun hc => ?_⟩
    · have h : s.DsAwaits d p.val k.val d.kind.isCfg := ⟨hout, hp, hk, rfl⟩
      rw [exec_dsAccessTimeout h, fails h]
    · have h : s.DsAwaits d p.val k.val true := ⟨hout, hp, hk, hc⟩
      exact ⟨fun x => next_done_congr (State.dsComplete_ok h x),
        fun r hok hpo => next_done_congr ((State.dsComplete_error h hok hpo).trans (fails h s)),
        next_done_congr ((State.dsComplete_poisoned h).trans (fails h _)),
        fun r => next_done_congr (State.dsComplete_other_kind h r)⟩
    · have h : s.DsAwaits d p.val k.val false := ⟨hout, hp, hk, hc⟩
      exact ⟨fun x => next_done_congr (State.dsComplete_ok h x),
        fun r hok hpo => next_done_congr ((State.dsComplete_error h hok hpo).trans (fails h s)),
        next_done_congr ((State.dsComplete_poisoned h).trans (fails h _)),
        fun r => next_done_congr (State.dsComplete_other_kind h r)⟩
  case inbound =>
    obtain ⟨hmsi, hmemory, hintx⟩ := State.dsInbound_of_active hd
    exact ⟨next_done_congr hmsi, next_done_congr hmemory, next_done_congr hintx⟩

end Sys2Proof.Machine
end

section
/-!
SUPPORT. Doorbells that act: the four writes to the page of an open context, and the inline doorbells that wait for its record
(R77, R78, R80 to R82, R116, R117).
-/
namespace Sys2Proof.Machine

/-! ### Counted events leave the context records -/

@[simp] theorem State.ctx_pmcEv (s : State) (b k i v w c : Nat) : (s.pmcEv b k i v w).ctx c = s.ctx c := by
  simp [State.ctx]

@[simp] theorem State.ctx_rxBytes (s : State) (m n c : Nat) : (s.rxBytes m n).ctx c = s.ctx c := by
  simp [State.ctx]

/-! ### What lets a doorbell act -/

/-- A doorbell of context `c` acts: the context is open, its function in no reset, CMD out of setup and the device not stopped
(R59, R80, R386). -/
structure State.TakesDoorbell (s : State) (c : Nat) : Prop where
  running : s.stopped = false
  ready : s.inSetup 2 = false
  opened : (s.ctx c).phase = .opened
  noReset : (s.fn (s.ctx c).port (s.ctx c).func).flr = false

section
variable {s : State} {c : Nat}

/-- The state in which a doorbell with `n` bytes of payload acts: the payload and the doorbell are counted (R445). -/
def State.counted (s : State) (m c n : Nat) : State := (s.rxBytes m n).pmcEv 2 1 c 0 1

@[simp] theorem State.ctx_counted (s : State) (m c n k : Nat) : (s.counted m c n).ctx k = s.ctx k := by
  simp [State.counted]

theorem State.TakesDoorbell.rxBytes (h : s.TakesDoorbell c) (m n : Nat) : (s.rxBytes m n).TakesDoorbell c := by
  obtain ⟨q, hq⟩ := s.rxBytes_eq_with_pmc m n
  rw [hq]
  exact ⟨h.running, h.ready, h.opened, h.noReset⟩

theorem State.doorbell_of_takes (h : s.TakesDoorbell c) (m : Nat) (act : State → State) :
    s.doorbell m c act = act (s.pmcEv 2 1 c 0 1) := by
  simp [State.doorbell, h.running, h.ready, h.opened, h.noReset]

end

/-! ### DB_CQ_HEAD (R78, R399) -/

section
variable {s : State} {m : Nat} {c v : Nat}

/-- A head within the entries posted becomes the context's, and Reservoir hears of it. -/
theorem State.headMove_within (hv : v < 2 ^ 32)
    (he : (v + 2 ^ 32 - (s.ctx c).head) % 2 ^ 32 ≤ ((s.ctx c).post + 2 ^ 32 - (s.ctx c).head) % 2 ^ 32) :
    let t := s.setCtx c { s.ctx c with head := v, used := s.now }
    s.headMove m c v = t.reportLatest (t.ctxRecord c) := by
  simp only [State.headMove, if_pos he, Nat.mod_eq_of_lt hv]

/-- Any other is counted as cq-head-range. -/
theorem State.headMove_beyond
    (he : ((s.ctx c).post + 2 ^ 32 - (s.ctx c).head) % 2 ^ 32 < (v + 2 ^ 32 - (s.ctx c).head) % 2 ^ 32) :
    s.headMove m c v = s.faultBy 2 1 m 0 := by
  simp only [State.headMove, if_neg (Nat.not_le.2 he)]

theorem State.dbHead_of_taken (h : s.rsvHeld = false) : s.dbHead m c v = s.headMove m c v := by
  simp [State.dbHead, h]

theorem State.dbHead_of_held (h : s.rsvHeld = true) : s.dbHead m c v = s.holdChange (.head m c v) := by
  simp [State.dbHead, h]

end

/-- A write at 0x008 of a doorbell page is one of DB_CQ_HEAD (R76). -/
theorem State.dbPageWrite_head (s : State) (m c v : Nat) :
    s.dbPageWrite m c 0x008 v = s.doorbell m c fun s => (s.fillFirst c).dbHead m c (v % 2 ^ 32) := by
  simp [State.dbPageWrite]

theorem exec_cqHeadWrite {s : State} {pg : DbPage} (h : s.TakesDoorbell (s.pageCtx pg)) (m : Master) (v : Word) :
    let c := s.pageCtx pg
    exec (.cqHeadWrite m pg v) s =
      .next ((((s.counted m.toNat c 8).fillFirst c).dbHead m.toNat c (v.toNat % 2 ^ 32)).done s) :=
  next_done_congr ((State.dbPageWrite_head ..).trans (State.doorbell_of_takes (h.rxBytes m.toNat 8) m.toNat _))

/-- Settles O25: once the doorbells that wait have gone, the write is held, moves the head, or is counted. -/
theorem cqHeadMovesWithinThePostedEntries : Obligations.CqHeadMovesWithinThePostedEntries := by
  intro m pg v s c hstop hsetup hopen hflr u r e
  have hexec := exec_cqHeadWrite ⟨hstop, hsetup, hopen, hflr⟩ m v
  have hv : v.toNat % 2 ^ 32 < 2 ^ 32 := Nat.mod_lt _ (by decide)
  refine ⟨fun hrsv he => ?_, fun hrsv he => ?_, fun hrsv => ?_⟩
  · exact hexec.trans (next_done_congr ((State.dbHead_of_taken hrsv).trans (State.headMove_within hv he)))
  · exact hexec.trans (next_done_congr ((State.dbHead_of_taken hrsv).trans (State.headMove_beyond he)))
  · exact hexec.trans (next_done_congr (State.dbHead_of_held hrsv))

/-! ### DB_INLINE (R82) -/

section
variable {s : State} {m c : Nat} {d : Descriptor}

/-- The fast path is open to an inline doorbell on a record that is on chip (R82). -/
def State.FastPath (s : State) (c : Nat) : Prop :=
  s.flag CMD_CTL.inline_en 0 0 = true ∧ (s.ctx c).fetch = (s.ctx c).tail ∧ s.cmdRuns = true ∧
    s.holdCauseAt c (s.ctx c).tail 0 = 0

/-- On the fast path the tail moves on by one and the descriptor is assigned at once. -/
theorem State.inlineTry_fast (h : s.FastPath c) :
    let x := ((s.ctx c).tail + 1) % 2 ^ 32
    s.inlineTry m c d = ((s.setCtx c { s.ctx c with tail := x, bells := (s.ctx c).bells ++ [(x, s.fabric)] }).pmcEv 2 3 c 0
      1).assign c d none := by
  obtain ⟨hen, hfetch, hruns, hfree⟩ := h
  simp [State.inlineTry, hen, hfetch, hruns, hfree]

theorem State.inlineTry_slow (h : ¬ s.FastPath c) : s.inlineTry m c d = s.inlineFallback m c := by
  refine if_neg fun hfast => h ?_
  simp only [Bool.and_eq_true, beq_iff_eq] at hfast
  obtain ⟨⟨⟨hen, hfetch⟩, hruns⟩, hfree⟩ := hfast
  exact ⟨hen, hfetch, hruns, hfree⟩

/-- The doorbells that wait go on only when the record is on chip (R116). -/
theorem State.inlineGo_of_idle (h : (s.ctx c).inlineWait = [] ∨ (s.ctx c).cached = false) : s.inlineGo c = s := by
  rcases h with h | h <;> simp [State.inlineGo, h]

theorem State.inlineGo_of_waiting (hw : (s.ctx c).inlineWait ≠ []) (hc : (s.ctx c).cached = true) :
    s.inlineGo c = (s.ctx c).inlineWait.foldl (fun s d => s.inlineTry (mDev 3) c d)
      (s.setCtx c { s.ctx c with inlineWait := [] }) := by
  simp [State.inlineGo, hw, hc]

theorem State.fillFirst_eq (s : State) (c : Nat) :
    s.fillFirst c = (if (s.ctx c).phase = .closed then s else s.cacheIn c).inlineGo c := by
  simp [State.fillFirst, State.ctxUse]

theorem State.dbInline_on_chip (h : (s.ctx c).cached = true) :
    s.dbInline m c (some d) = (s.fillFirst c).inlineTry m c d := if_pos h

theorem State.dbInline_off_chip (h : (s.ctx c).cached = false) :
    s.dbInline m c (some d) = s.setCtx c { s.ctx c with inlineWait := (s.ctx c).inlineWait ++ [d] } := by
  simp [State.dbInline, h]

theorem State.contextFill_off_chip (hp : (s.ctx c).phase ≠ .closed) (hc : (s.ctx c).cached = false) :
    s.contextFill c = (s.cacheIn c).inlineGo c := by
  simp [State.contextFill, hp, hc]

end

theorem exec_inlineDoorbell {s : State} {pg : DbPage} (h : s.TakesDoorbell (s.pageCtx pg)) (m : Master)
    (d : Option Descriptor) : exec (.inlineDoorbell m pg d) s =
      .next (((s.counted m.toNat (s.pageCtx pg) 64).dbInline m.toNat (s.pageCtx pg) d).done s) :=
  next_done_congr (State.doorbell_of_takes (h.rxBytes m.toNat 64) m.toNat _)

/-- Settles O26: a doorbell on a record on chip goes the way that `State.FastPath` decides, any other waits for the fill. -/
theorem inlineDoorbellsTakeTheFastPath : Obligations.InlineDoorbellsTakeTheFastPath := by
  refine ⟨fun m pg d s => ?doorbell, fun c s hp hc => next_done_congr (State.contextFill_off_chip hp hc),
    fun c s => ⟨State.inlineGo_of_idle, State.inlineGo_of_waiting, s.fillFirst_eq c⟩⟩
  intro c hstop hsetup hopen hflr p u r x fast
  have hexec := exec_inlineDoorbell ⟨hstop, hsetup, hopen, hflr⟩ m
  have hcached : (p.ctx c).cached = (s.ctx c).cached := by simp [p]
  refine ⟨fun hc hf => ?_, fun hc hf => ?_, fun hc => ?_, hexec none⟩
  · exact (hexec _).trans (next_done_congr ((State.dbInline_on_chip (hcached.trans hc)).trans (State.inlineTry_fast hf)))
  · exact (hexec _).trans (next_done_congr ((State.dbInline_on_chip (hcached.trans hc)).trans (State.inlineTry_slow hf)))
  · have hp : p.ctx c = s.ctx c := by simp [p]
    rw [← hp]
    exact (hexec _).trans (next_done_congr (State.dbInline_off_chip (hcached.trans hc)))

end Sys2Proof.Machine
end

section
/-!
SUPPORT. Descriptor fetch, return and assignment, and the checks of a descriptor (R84 to R90).
-/
namespace Sys2Proof.Machine

section
variable {s : State} {c : Nat}

/-! ### Fetch (R84, R85) -/

theorem State.ctxUse_of_open (h : (s.ctx c).phase ≠ .closed) : s.ctxUse c = s.cacheIn c := by
  simp [State.ctxUse, h]

/-- A context with something to fetch and no read in flight issues the next read. -/
theorem State.fetchDescriptors_of_free (hruns : s.cmdRuns = true) (hidle : (s.ctx c).fetching = none)
    (hopen : (s.ctx c).phase = .opened) (hn : s.fetchCount c ≠ 0) :
    let u := s.cacheIn c
    let r := u.ctx c
    let x := u.takeOther r.port r.func (.descriptors c)
    let e := x.2.emit (.memRead r.port r.func x.1 (r.drBase + 64 * (r.fetch % 2 ^ r.drLog2)) (64 * s.fetchCount c))
    s.fetchDescriptors c =
      e.setCtx c { r with fetching := some (r.fetch, s.fetchCount c, x.1), fetchAt := e.fabric } := by
  simp [State.fetchDescriptors, hruns, hidle, hopen, hn, State.ctxUse_of_open]

/-! ### Return (R84, R87; log entry 126) -/

/-- The context's oldest outstanding read has ended. -/
def State.endRead (s : State) (c : Nat) : State :=
  { s with hif := { s.hif with others := s.hif.others.filter fun e => some e.1 != s.descRead c } }

section
variable {i n t : Nat} (ds : List Descriptor) (hf : (s.ctx c).fetching = some (i, n, t))
include hf

/-- Data of a read older than the one that the context waits for only ends that read. -/
theorem State.returnDescriptors_stale (ht : s.descRead c ≠ some t) : s.returnDescriptors c ds = s.endRead c := by
  unfold State.returnDescriptors
  dsimp only
  split
  · rfl
  · next hread =>
    obtain ⟨rfl, rfl, rfl⟩ : _ ∧ _ ∧ _ := by simpa using hf.symm.trans hread
    exact if_pos (by simpa using Ne.symm ht)

/-- Data of the read that the context waits for is assigned, descriptor by descriptor, or discarded where the context has left
the open state. -/
theorem State.returnDescriptors_awaited (ht : s.descRead c = some t) :
    let u := (s.endRead c).setCtx c { s.ctx c with fetching := none }
    s.returnDescriptors c ds = if s.frozen || (s.ctx c).phase ≠ .opened then u
      else (ds.take n).foldl (fun v d => v.assign c d (some (s.ctx c).fetchAt)) u := by
  unfold State.returnDescriptors
  dsimp only
  split
  · next hread => exact absurd (hf.symm.trans hread) (Option.some_ne_none _)
  · next hread =>
    obtain ⟨rfl, rfl, rfl⟩ : _ ∧ _ ∧ _ := by simpa using hf.symm.trans hread
    exact if_neg (by simp [ht])

end

theorem State.frozen_pmcEv (s : State) (b k i v w : Nat) : (s.pmcEv b k i v w).frozen = s.frozen := by
  simp [State.frozen, State.stopped, State.flag, State.fld, State.reg]

/-- Data that returns while a read is in flight is counted as received (R445). -/
theorem exec_descriptorReturn {i n t : Nat} (ds : List Descriptor) (hf : (s.ctx c).fetching = some (i, n, t)) :
    exec (.descriptorReturn c ds) s =
      .next (((s.pmcEv 1 2 (s.ctx c).port 0 (64 * ds.length)).returnDescriptors c ds).done s) := by
  change execDescriptorReturn c ds s = _
  rw [execDescriptorReturn, hf]

/-! ### Assignment (R87, R89, R90) -/

/-- The state in which the descriptor of the next index stands assigned, before its checks: its handle is in the table, fetch
is one further, PMC has considered it and Reservoir has its record. -/
def State.assigned (s : State) (c : Nat) (d : Descriptor) (readAt : Option Nat) : State :=
  let i := (s.ctx c).fetch
  let h := mkHandleRec c i d
  let u := s.setCtx c { s.ctx c with
    fetch := (i + 1) % 2 ^ 32, used := s.now, bells := (s.ctx c).bells.filter fun b => b.1 != (i + 1) % 2 ^ 32 }
  let v := ((u.setHandle h).pmcEv 2 2 c 0 1).sampleDesc h (s.bellOf c i) readAt
  v.report (.handleAssign c i (dTag d) v.fabric d)

section
variable {d : Descriptor} {a : Option Nat} (hw : (s.assigned c d a).waitingTrig c (s.ctx c).fetch = none)
include hw

theorem State.assign_of_ok (hd : descCheck d = none) : s.assign c d a = s.assigned c d a := by
  simp only [State.assigned] at hw ⊢
  simp only [State.assign, hd, hw]

/-- A descriptor that fails a check completes at once. -/
theorem State.assign_of_bad {st dt : Nat} (hd : descCheck d = some (st, dt)) :
    s.assign c d a = (s.assigned c d a).finish (mkHandleRec c (s.ctx c).fetch d).ref st dt := by
  simp only [State.assigned] at hw ⊢
  simp only [State.assign, hd, hw]

end

end

/-- Settles O27: a read is issued where nothing holds it up, its data is assigned in order or discarded, and each descriptor
stands assigned when its checks, made in order, all pass. -/
theorem descriptorsAreFetchedAndAssigned : Obligations.DescriptorsAreFetchedAndAssigned := by
  refine ⟨fun c s hruns hidle hopen hn => next_done_congr (State.fetchDescriptors_of_free hruns hidle hopen hn),
    fun c i n t ds s hf => ?returns, fun c d a s => ?assigns, fun d => ?checks⟩
  case returns =>
    intro r p q u
    have hexec := exec_descriptorReturn ds hf
    have hctx : p.ctx c = s.ctx c := by simp [p]
    have hfp : (p.ctx c).fetching = some (i, n, t) := hctx ▸ hf
    have hawaited := State.returnDescriptors_awaited ds hfp
    rw [hctx, State.frozen_pmcEv] at hawaited
    refine ⟨fun ht hz (ho : (s.ctx c).phase = .opened) => ?_, fun ht hz => ?_, fun ht => ?_⟩
    · exact hexec.trans (next_done_congr ((hawaited ht).trans (if_neg (by simp [hz, ho]))))
    · exact hexec.trans (next_done_congr ((hawaited ht).trans (if_pos (by simpa using hz))))
    · exact hexec.trans (next_done_congr (State.returnDescriptors_stale ds hfp ht))
  case assigns =>
    intro r i h u v w hw
    exact ⟨State.assign_of_ok hw, fun st dt => State.assign_of_bad hw⟩
  case checks =>
    unfold descCheck
    split
    · next hop => simp [hop, Nat.not_le.2 hop]
    · next hop =>
      have hop' : dOpcode d ≤ 0x0B := Nat.not_lt.1 hop
      cases dReservedOk d
      · simp [hop, hop']
      · cases dListedOk d
        · simp [hop, hop']
        · cases dUrgentOk d
          · simp [hop, hop']
          · cases dLengthOk d <;> simp [hop, hop']

end Sys2Proof.Machine
end

section
/-!
SUPPORT. Completion entries: an entry uses the record of its context, which is on chip from then on (R100, R102, R116).
-/
namespace Sys2Proof.Machine

/-- The device after reset, with context 0 open and its record not on chip. -/
def contextOffChip : State := State.reset.setCtx 0 { CtxRec.init with phase := .opened }

/-- Refutes O23: its clause on posting leaves out that an entry of an open context brings the context's record on chip (R116),
which changes the record and counts an event; here the clause's own state keeps `cached` false. -/
theorem not_completionEntriesHaveTheirLayout : ¬ Obligations.CompletionEntriesHaveTheirLayout := by
  rintro ⟨-, hpost⟩
  have hcached := congrArg (fun t : State => (t.ctx 0).cached) (hpost contextOffChip 0 0 0 0 0 0 false)
  exact absurd hcached (by decide +kernel)

end Sys2Proof.Machine
end

section
/-!
SUPPORT. The events of contexts, windows, operations, the loader and syncs: what each does where nothing holds it up (R112, R120,
R122, R127, R128, R138).
-/
namespace Sys2Proof.Machine

section
variable {s : State}

theorem State.ifRuns_of_runs (f : State → State) (h : s.frozen = false) : s.ifRuns f = f s := by
  simp [State.ifRuns, h]

/-- A draining context with nothing outstanding and nothing pinned becomes closed, off chip, and MAT and RMA forget it. -/
theorem State.contextClosed_of_drained {c : Nat} (hfree : s.rsvHeld = false) (hdrain : (s.ctx c).phase = .draining)
    (hout : s.outstanding c = 0) (hpins : s.anyPinned c = false) :
    let u := s.movePhase (mDev 3) c .closed
    let v := (u.setCtx c { u.ctx c with cached := false, byReset := false, step4 := false, armed := false }).matClosed c
    s.contextClosed c = { v with rma := { v.rma with ops := v.rma.ops.filter fun x => x.ctx != c } } := by
  simp [State.contextClosed, hfree, hdrain, hout, hpins]

theorem State.applyPending_of_unpinned {e : Nat} {img : WinImage} (hq : (s.win e).queued = some img)
    (hpins : (s.win e).pins (!(s.win e).active) = 0) (hfree : s.rsvHeld = false) :
    s.applyPending e = s.applyCommit (mDev 4) e img := by
  simp [State.applyPending, hq, hpins, hfree]

/-- The pin of an operation ends once the limit has passed since its last packet. -/
theorem State.pinLimitEnd_of_pinned {r : OpRef} {v : OpRec} (hop : s.op? r.ctx r.remote r.osn = some v)
    (hpin : v.pinned = true) :
    s.pinLimitEnd r = (s.advance (v.lastTime + s.pinLimit + 1)).pinExpire v := by
  simp [State.pinLimitEnd, hop, hpin, State.due]

theorem State.syncDone_of_no_read (h : ∀ e ∈ s.hif.reads, e.2.sync = false) :
    s.syncDone = { s with xlt := { s.xlt with syncBusy := false } } := by
  have hany : (s.hif.reads.any fun e => e.2.sync) = false := by simpa using h
  simp [State.syncDone, hany]

/-! ### The loader (R127) -/

section
variable (hrun : s.xlt.loader.running = true) (hlog : s.logFull = false) (hfree : s.rsvHeld = false)
include hrun hlog hfree

/-- A read that fails ends the loader as failed. -/
theorem State.loaderEntry_none : s.loaderEntry none = (s.dropOther .loader).loaderEnd 3 := by
  simp [State.loaderEntry, hrun, hlog, hfree]

/-- An entry that returns is written behind those loaded before it and counted; the last one ends the loader as done, and behind
any other the next is read. -/
theorem State.loaderEntry_some (w : Word) :
    let n := s.fld XLT_LOAD_STATUS.loaded 0 0
    let v := ((s.dropOther .loader).writeXlt s.loaderMaster (s.xlt.loader.first + n) w).setFld
      XLT_LOAD_STATUS.loaded 0 0 (n + 1)
    s.loaderEntry (some w) = if n + 1 = s.xlt.loader.count then v.loaderEnd 2 else v.loaderRead := by
  simp only [State.loaderEntry, hrun, hlog, hfree]
  rfl

end

end

/-- Settles O29: each event makes of the state what its own lemma says, where the clause's conditions hold. -/
theorem contextAndWindowEventsEndWhatWaits : Obligations.ContextAndWindowEventsEndWhatWaits := by
  refine ⟨fun c s hfree hdrain hout hpins => ?closed, fun e img s hq hpins hfree => ?commit,
    fun r v s hruns hop hpin => ?pin, fun s hruns hrun hlog hfree => ?loader, fun s hreads => ?sync⟩
  case closed => exact next_done_congr (State.contextClosed_of_drained hfree hdrain hout hpins)
  case commit => exact next_done_congr (State.applyPending_of_unpinned hq hpins hfree)
  case pin => exact next_done_congr ((State.ifRuns_of_runs _ hruns).trans (State.pinLimitEnd_of_pinned hop hpin))
  case loader =>
    have hnext := fun w => State.loaderEntry_some hrun hlog hfree w
    refine ⟨next_done_congr ?_, fun w => ⟨fun hlast => next_done_congr ?_, fun hmore => next_done_congr ?_⟩⟩
    · exact (State.ifRuns_of_runs _ hruns).trans (State.loaderEntry_none hrun hlog hfree)
    · exact (State.ifRuns_of_runs _ hruns).trans ((hnext w).trans (if_pos hlast))
    · exact (State.ifRuns_of_runs _ hruns).trans ((hnext w).trans (if_neg hmore))
  case sync => exact next_done_congr (State.syncDone_of_no_read hreads)

end Sys2Proof.Machine
end

section
/-!
SUPPORT. Fabric memory through its aperture: what a store changes and leaves, and what an access does within the end, past it
and in a device stop (R131, R132, R385, R386; log entry 4).
-/
namespace Sys2Proof.Machine

section
variable (s : State)

/-! ### Payload that arrives (R445) does not move fabric memory -/

theorem State.fmemSize_rxBytes (m n : Nat) : (s.rxBytes m n).fmemSize = s.fmemSize := by
  simp [State.fmemSize, State.fld, State.reg]

theorem State.hbmAddr_rxBytes (m n a : Nat) : (s.rxBytes m n).hbmAddr a = s.hbmAddr a := by
  simp [State.hbmAddr, State.fld, State.reg]

/-! ### A store -/

section
variable (a : Nat) (bs : List Byte)

theorem State.fmemStore_fmem : (s.fmemStore a bs).fmem = s.fmem.write a bs := by
  simp [State.fmemStore, State.hbmMend]

@[simp] theorem State.fmemStore_hmem : (s.fmemStore a bs).hmem = s.hmem := by
  simp [State.fmemStore, State.hbmMend]

@[simp] theorem State.fmemStore_spdMem : (s.fmemStore a bs).spdMem = s.spdMem := by
  simp [State.fmemStore, State.hbmMend]

@[simp] theorem State.fmemStore_flash : (s.fmemStore a bs).flash = s.flash := by
  simp [State.fmemStore, State.hbmMend]

theorem State.fmemStore_byte {s : State} (h : s.fmem.wf = true) (x : Nat) :
    (s.fmemStore a bs).fmem.byte x =
      if hx : a ≤ x ∧ x - a < bs.length then bs[x - a]'hx.2 else s.fmem.byte x := by
  rw [s.fmemStore_fmem, Memory.byte_write h]

/-- The words that a store covers whole are good again, and no other (R385). -/
theorem State.mem_hbmBad_fmemStore (w : Nat) : w ∈ (s.fmemStore a bs).pwr.hbmBad ↔
    w ∈ s.pwr.hbmBad ∧ ¬(s.hbmAddr a ≤ 8 * w ∧ 8 * w + 8 ≤ s.hbmAddr a + bs.length) := by
  simp [State.fmemStore, State.hbmMend, imp_iff_not_or]

end

end

/-! ### An access -/

section
variable {s : State} {p a : Nat}

section
variable {n : Nat}

theorem State.fmemAccess_read_of_stopped (h : s.stopped = true) :
    s.fmemAccess p a (.read n) = s.emit (.memDone p (List.replicate n 0) false) := by
  simp [State.fmemAccess, h]

section
variable (h : s.stopped = false)
include h

theorem State.fmemAccess_read_beyond (ha : s.fmemSize < a + n) : s.fmemAccess p a (.read n) =
    (s.faultBy 4 5 (mHost p 0) p).emit (.memDone p (List.replicate n 0) false) := by
  simp [State.fmemAccess, h, ha]

/-- A read within the end is answered with the bytes there, or with poison. -/
theorem State.fmemAccess_read_within (ha : a + n ≤ s.fmemSize) : s.fmemAccess p a (.read n) =
    let bad := s.hbmBad (s.hbmAddr a) n
    (s.pmcEv 19 1 (hbmChannel (s.hbmAddr a)) 0 n).emit
      (.memDone p (if bad then List.replicate n 0xFF else s.fmem.read a n) bad) := by
  simp [State.fmemAccess, h, Nat.not_lt.2 ha]

end

end

section
variable {bs : List Byte}

theorem State.fmemAccess_write_of_stopped (h : s.stopped = true) :
    s.fmemAccess p a (.write bs) = s.rxBytes (mHost p 0) bs.length := by
  simp [State.fmemAccess, State.stopped_rxBytes, h]

section
variable (h : s.stopped = false)
include h

theorem State.fmemAccess_write_beyond (ha : s.fmemSize < a + bs.length) : s.fmemAccess p a (.write bs) =
    (s.rxBytes (mHost p 0) bs.length).faultBy 4 5 (mHost p 0) p := by
  simp [State.fmemAccess, State.stopped_rxBytes, State.fmemSize_rxBytes, h, ha]

theorem State.fmemAccess_write_within (ha : a + bs.length ≤ s.fmemSize) : s.fmemAccess p a (.write bs) =
    (s.rxBytes (mHost p 0) bs.length).fmemStore a bs := by
  simp [State.fmemAccess, State.stopped_rxBytes, State.fmemSize_rxBytes, h, Nat.not_lt.2 ha]

end

end

/-- At a port in endpoint mode the command makes its access. -/
theorem exec_fmemHostAccess {p : HPort} {op : MemOp} {t : State} (he : s.endpoint p.val = true)
    (ht : s.fmemAccess p.val a op = t) : exec (.fmemHostAccess p a op) s = .next (t.done s) := by
  subst ht
  exact next_done_congr (if_pos he)

end

/-- Settles O30: the access within the end of fabric memory, past it and in a device stop each has its lemma; a write's payload
is counted before it is stored, which moves neither memory nor where it begins. -/
theorem fabricMemoryIsReadAndWrittenThroughItsAperture : Obligations.FabricMemoryIsReadAndWrittenThroughItsAperture := by
  refine ⟨fun p a bs s hok he hs ha => ?write, fun p a n s he hs ha => ?read, fun p a n bs s he => ⟨fun hs ha => ?_,
    fun hs ha => ?_, fun hs => ⟨?_, ?_⟩⟩⟩
  case write =>
    refine ⟨_, exec_fmemHostAccess he (State.fmemAccess_write_within hs ha), fun x => ?_, by simp, by simp, by simp,
      fun w => ?_⟩
    · rw [State.fmemStore_byte a bs (by simpa using hok.fmem), State.rxBytes_fmem]
    · rw [State.mem_hbmBad_fmemStore, State.hbmAddr_rxBytes, State.rxBytes_pwr]
  case read =>
    have hread := State.fmemAccess_read_within (p := p.val) hs ha
    refine ⟨fun hbad => exec_fmemHostAccess he (hread.trans ?_), fun hbad => exec_fmemHostAccess he (hread.trans ?_)⟩ <;>
      rw [hbad] <;> rfl
  · exact exec_fmemHostAccess he (State.fmemAccess_read_beyond hs ha)
  · exact exec_fmemHostAccess he (State.fmemAccess_write_beyond hs ha)
  · exact exec_fmemHostAccess he (State.fmemAccess_read_of_stopped hs)
  · exact exec_fmemHostAccess he (State.fmemAccess_write_of_stopped hs)

end Sys2Proof.Machine
end

section
/-!
SUPPORT. A delivered packet at its block: for another node, at a stopped data path, without room for its answer, or taken (R24,
R25, R243, R386).
-/
namespace Sys2Proof.Machine

/-- A packet that a block has taken in state `u` and acted on, which gave `t`, ends its sample (R450): answered where a packet of
an answer has left since. -/
def State.endArrival (u t : State) (p : Packet) : State :=
  t.endDelivered p (t.rte.nextId != u.rte.nextId || t.delivered.length != u.delivered.length)

section
variable {s : State} {p : Packet} {f : State → State}

theorem State.arrive_elsewhere (hn : pDstNode p ≠ s.node) : s.arrive p true f = s := by
  simp [State.arrive, hn]

section
variable (hn : pDstNode p = s.node)
include hn

theorem State.arrive_of_frozen (hf : (s.takeDelivered p).frozen = true) : s.arrive p true f = s.takeDelivered p := by
  simp [State.arrive, hn, hf]

variable (hf : (s.takeDelivered p).frozen = false)
include hf

theorem State.arrive_of_answerFull {b : Nat} (hb : (s.takeDelivered p).answerFull p = some b) :
    s.arrive p true f = ((s.takeDelivered p).fault b 3 0).endDelivered p false := by
  simp [State.arrive, hn, hf, hb]

theorem State.arrive_taken (hb : (s.takeDelivered p).answerFull p = none) :
    s.arrive p true f = (s.takeDelivered p).endArrival (f (s.takeDelivered p)) p := by
  simp [State.arrive, State.endArrival, hn, hf, hb]

end

end

end Sys2Proof.Machine
end

section
/-!
SUPPORT. SEND packets and withdrawals at MAT, and the events that they make (R140, R155, R157, R158, R160).
-/
namespace Sys2Proof.Machine

section
variable {p : Packet} {s : State}

/-- A SEND packet and a withdrawal come to MAT by one entrance, each by its own command. -/
theorem exec_messageArrival {i : Instr} (hi : (i = .sendPacketArrival p ∧ isMat p [0] = true) ∨
    (i = .withdrawalArrival p ∧ isMat p [1] = true)) :
    exec i s = .next ((s.arrive p true fun u => u.matArrive p).done s) := by
  rcases hi with ⟨rfl, hkind⟩ | ⟨rfl, hkind⟩ <;> exact next_done_congr (by rw [hkind])

/-! ### Admission -/

theorem State.matArrive_of_quarantine (hq : (s.ctxUse (pDstCtx p)).rsv.quarantineEnd.isSome = true) :
    s.matArrive p = (s.ctxUse (pDstCtx p)).dropQuarantined := if_pos hq

section
variable {c : State} (hc : s.ctxUse (pDstCtx p) = c) (hq : c.rsv.quarantineEnd = none)
include hc hq

theorem State.matArrive_of_shut
    (hs : (c.inSetup 5 || c.inSetup 6 || c.rsvHeld || (c.ctx (pDstCtx p)).awaiting) = true) :
    s.matArrive p = c.matBusy p := by
  unfold State.matArrive
  simp only [hc, hq, hs, Option.isSome_none, Bool.false_eq_true, if_false, if_true]

section
variable (hs : (c.inSetup 5 || c.inSetup 6 || c.rsvHeld || (c.ctx (pDstCtx p)).awaiting) = false) {v : State}
include hs

theorem State.matArrive_refused {st dt : Nat} (hv : c.classify p = (.refuse st dt, v)) :
    s.matArrive p = v.matRefuse p st dt false := by
  unfold State.matArrive
  simp only [hc, hq, hs, hv, Option.isSome_none, Bool.false_eq_true, if_false]

theorem State.matArrive_busy (hv : c.classify p = (.busy, v)) : s.matArrive p = v.matBusy p := by
  unfold State.matArrive
  simp only [hc, hq, hs, hv, Option.isSome_none, Bool.false_eq_true, if_false]

theorem State.matArrive_retired (hv : c.classify p = (.retired, v)) : s.matArrive p = v := by
  unfold State.matArrive
  simp only [hc, hq, hs, hv, Option.isSome_none, Bool.false_eq_true, if_false]

/-- One that passes is a match event where it is a withdrawal or near enough, and continues its message otherwise (R140). -/
theorem State.matArrive_admitted (hv : c.classify p = (.pass, v)) :
    s.matArrive p = if pMop p = 1 ∨ v.msnDist p < 65536 then v.matEvent (.packet p) else v.matPacket p := by
  unfold State.matArrive
  simp only [hc, hq, hs, hv, Option.isSome_none, Bool.false_eq_true, if_false, Bool.or_eq_true, decide_eq_true_eq]

end

end

end

/-! ### Events (R157, R158) -/

section
variable {s : State} {e : MatEvent}

theorem State.matEvent_behind (hw : ∃ x ∈ s.mat.events, x.1 = e.ctx) :
    s.matEvent e = { s with mat := { s.mat with events := s.mat.events ++ [(e.ctx, e)] } } := by
  have hany : (s.mat.events.any fun x => x.1 == e.ctx) = true := by simpa using hw
  simp [State.matEvent, hany]

section
variable (hw : ∀ x ∈ s.mat.events, x.1 ≠ e.ctx)
include hw

theorem State.no_event_waits : (s.mat.events.any fun x => x.1 == e.ctx) = false := by simpa using hw

theorem State.matEvent_runs (hf : s.needsFirmware e = false) : s.matEvent e = s.matRun e := by
  simp [State.matEvent, State.no_event_waits hw, hf]

theorem State.matEvent_waits (hf : s.needsFirmware e = true) :
    let u := s.pmcEv 5 3 0 0 1
    s.matEvent e = { u with mat := { u.mat with events := u.mat.events ++ [(e.ctx, e)] } } := by
  simp [State.matEvent, State.no_event_waits hw, hf]

end

theorem State.ifFirmware_of_runs (f : State → State) (hup : s.fld SEC_UPDATE_STATUS.state 0 0 ≠ 3) (h : s.frozen = false) :
    s.ifFirmware f = f s := (if_neg hup).trans (State.ifRuns_of_runs f h)

theorem State.firmwareProbe_of_waiting {c : Nat} (h : s.mat.events.find? (fun x => x.1 == c) = some (c, e)) :
    s.firmwareProbe c = (({ s with mat := { s.mat with events := s.mat.events.erase (c, e) } } : State).matRun e).runEvents c
      (s.mat.events.erase (c, e)).length := by
  unfold State.firmwareProbe
  simp only [h]

end

/-- Settles O32: the entrance's four outcomes, then MAT's classes of a packet that it takes; an event waits or runs by what
waits before it and by the bins it probes. -/
theorem messagePacketsAreAdmittedAndMatched : Obligations.MessagePacketsAreAdmittedAndMatched := by
  refine ⟨fun p s i hi => ?arrival, fun s e => ?event, fun s c e hrun hup hfirst => ?firmware⟩
  case arrival =>
    have hexec := exec_messageArrival (s := s) hi
    refine ⟨fun hn => ?_, fun hn hf => ?_, fun hn hf b hb => ?_, fun hn hf hb => ?taken⟩
    · exact hexec.trans (next_done_congr (State.arrive_elsewhere hn))
    · exact hexec.trans (next_done_congr (State.arrive_of_frozen hn hf))
    · exact hexec.trans (next_done_congr (State.arrive_of_answerFull hn hf hb))
    case taken =>
      have run {t : State} (ht : (s.takeDelivered p).matArrive p = t) :
          exec i s = .next (((s.takeDelivered p).endArrival t p).done s) := by
        rw [hexec, State.arrive_taken hn hf hb, ht]
      refine ⟨fun hq => run (State.matArrive_of_quarantine hq), fun hq hs => run (State.matArrive_of_shut rfl hq hs),
        fun hq hs => ⟨fun st dt v hv => run (State.matArrive_refused rfl hq hs hv),
          fun v hv => run (State.matArrive_busy rfl hq hs hv), fun v hv => run (State.matArrive_retired rfl hq hs hv),
          fun v hv hnear => run ?_, fun v hv hmop hfar => run ?_⟩⟩
      · rw [State.matArrive_admitted rfl hq hs hv, if_pos hnear]
      · rw [State.matArrive_admitted rfl hq hs hv, if_neg (not_or.2 ⟨hmop, Nat.not_lt.2 hfar⟩)]
  case event => exact ⟨State.matEvent_runs, State.matEvent_behind, State.matEvent_waits⟩
  case firmware =>
    exact next_done_congr ((State.ifFirmware_of_runs _ hup hrun).trans (State.firmwareProbe_of_waiting hfirst))

end Sys2Proof.Machine
end

section
/-!
SUPPORT. The answers that reach a SEND at its source, and those that name none (R138, R152 to R154, R159, R183).
-/
namespace Sys2Proof.Machine

/-- A packet of MAT that answers is no request: it needs no room for an answer (R243). -/
theorem requestTo_of_answer {p : Packet} {mop : Nat} (hm : isMat p [mop] = true) (hno : mop ∉ [0, 1, 4]) :
    requestTo p = none := by
  have hkind : pType p = 7 ∧ pMop p = mop := by simpa [isMat] using hm
  simp [requestTo, hkind, hno]

/-- An answer for this node is taken while the data path runs. -/
theorem State.arrive_answer {s : State} {p : Packet} {mop : Nat} {f : State → State} {t : State}
    (hn : pDstNode p = s.node) (hf : (s.takeDelivered p).frozen = false) (hm : isMat p [mop] = true)
    (hno : mop ∉ [0, 1, 4]) (ht : f (s.takeDelivered p) = t) :
    s.arrive p (isMat p [mop]) f = (s.takeDelivered p).endArrival t p := by
  have hroom : (s.takeDelivered p).answerFull p = none := by
    rw [State.answerFull, requestTo_of_answer hm hno, Option.filter_none]
  rw [hm, State.arrive_taken hn hf hroom, ht]

/-! ### The end of a SEND (R152, R154) -/

section
variable {s : State} {h : Handle} (st dt n : Nat)

theorem State.sendEnd_of_no_withdrawal (hwd : h.wd = .none) : s.sendEnd h st dt n = s.complete h.ref st dt n 0 := by
  simp [State.sendEnd, hwd]

theorem State.sendEnd_of_bound (hwd : h.wd = .bound) : s.sendEnd h st dt n = s.complete h.ref 0x10 0 n 0 := by
  simp [State.sendEnd, hwd]

theorem State.sendEnd_of_unanswered (hwd : h.wd = .sent) :
    s.sendEnd h st dt n = s.setHandle { h with fin := some (0x10, 0, n) } := by
  simp [State.sendEnd, hwd]

end

section
variable {s : State} {p : Packet}

/-! ### Placement reports and finish notices (R152, R153) -/

theorem State.placementReport_late (hs : s.sendOf p = none) :
    s.placementReport p = s.lateAnswer (pDstCtx p) (pOsn p) := by
  simp [State.placementReport, hs]

theorem State.finishRecv_late (hs : s.sendOf p = none) : s.finishRecv p = s.lateAnswer (pDstCtx p) (pOsn p) := by
  simp [State.finishRecv, hs]

section
variable {h : Handle} (hs : s.sendOf p = some h)
include hs

theorem State.placementReport_again (hgot : pAux p ∈ h.got) : s.placementReport p = s.stampAnswer h := by
  simp [State.placementReport, hs, hgot]

/-- A first report adds its offset, and ends an eager SEND that then has every report. -/
theorem State.placementReport_first (hgot : pAux p ∉ h.got) :
    let h' : Handle := { h with got := h.got ++ [pAux p] }
    let v := (s.stampAnswer h).setHandle h'
    s.placementReport p =
      if h.eager = true ∧ v.sendOffsets h' = [] then v.sendEnd h' 0 0 (dLength h.desc) else v := by
  simp [State.placementReport, hs, hgot]

theorem State.finishRecv_of_refused {dt n : Nat} (hfin : h.fin = some (0x13, dt, n)) :
    s.finishRecv p = (s.stampAnswer h).sendEnd h 0x13 dt (pAux p) := by
  simp [State.finishRecv, hs, hfin]

/-- Unless a pull of it was refused, the SEND ends well: the hypothesis rules out the first case of the match. -/
theorem State.finishRecv_of_served (hfin : ∀ dt n, h.fin ≠ some (0x13, dt, n)) :
    s.finishRecv p = (s.stampAnswer h).sendEnd h 0 0 (pAux p) := by
  simp [State.finishRecv, hs]

end

/-! ### Withdrawal answers (R154) -/

theorem State.withdrawalEnd_late (hs : s.sendOf p = none) :
    s.withdrawalEnd p = (s.dropLost (pDstCtx p) (pOsn p)).lateAnswer (pDstCtx p) (pOsn p) := by
  simp [State.withdrawalEnd, hs]

section
variable {h : Handle} (hs : s.sendOf p = some h)
include hs

theorem State.withdrawalEnd_unasked (hwd : h.wd ≠ .sent) : s.withdrawalEnd p = s.stampAnswer h := by
  simp [State.withdrawalEnd, hs, hwd]

section
variable (hwd : h.wd = .sent)
include hwd

theorem State.withdrawalEnd_withdrawn (haux : pAux p % 2 = 0) :
    s.withdrawalEnd p = ((s.stampAnswer h).setHandle { h with wd := .bound }).complete h.ref 0x10 0 0 0 := by
  simp [State.withdrawalEnd, hs, hwd, haux, Handle.ref]

theorem State.withdrawalEnd_bound_ended {d n : Nat} (haux : pAux p % 2 = 1) (hfin : h.fin = some (0x10, d, n)) :
    s.withdrawalEnd p = ((s.stampAnswer h).setHandle { h with wd := .bound }).complete h.ref 0x10 0 n 0 := by
  simp [State.withdrawalEnd, hs, hwd, haux, hfin, Handle.ref]

/-- A bound SEND without an end so far runs on: the hypothesis rules out the first case of the match. -/
theorem State.withdrawalEnd_bound_open (haux : pAux p % 2 = 1) (hfin : ∀ d n, h.fin ≠ some (0x10, d, n)) :
    s.withdrawalEnd p = (s.stampAnswer h).setHandle { h with wd := .bound } := by
  simp [State.withdrawalEnd, hs, hwd, haux]

end

end

/-- What a withdrawal answer does leaves wd_pending to follow the withdrawals of the pair (R138). -/
theorem State.withdrawalAnswer_of {t : State} (ht : s.withdrawalEnd p = t) :
    s.withdrawalAnswer p = t.refreshWd (pDstCtx p) (pSrcEp p) := by rw [State.withdrawalAnswer, ht]

/-! ### Refusals (R152, R159) -/

section
variable (hpull : s.pullOf p = none)
include hpull

/-- A refusal that names no open SEND is late, and ends the re-sends of a completed handle's withdrawal unless it is busy. -/
theorem State.matRefused_late (hs : s.sendOf p = none) :
    s.matRefused p = (if bitOf (pAux p) 16 then s.lateAnswer (pDstCtx p) (pOsn p)
      else (s.dropLost (pDstCtx p) (pOsn p)).lateAnswer (pDstCtx p) (pOsn p)).refreshWd (pDstCtx p) (pSrcEp p) := by
  cases hbusy : bitOf (pAux p) 16 <;> simp [State.matRefused, hpull, hs, hbusy]

section
variable {h : Handle} (hs : s.sendOf p = some h)
include hs

theorem State.matRefused_busy (hbusy : bitOf (pAux p) 16 = true) :
    s.matRefused p = (s.stampAnswer h).scheduleMat h.ref := by
  simp [State.matRefused, hpull, hs, hbusy]

theorem State.matRefused_final (hbusy : bitOf (pAux p) 16 = false) :
    s.matRefused p = (((s.stampAnswer h).setHandle { h with wd := .none }).finish h.ref (bitsOf (pAux p) 7 0)
      (bitsOf (pAux p) 15 8)).refreshWd h.ctx (dTarget h.desc) := by
  simp [State.matRefused, hpull, hs, hbusy]

end

end

end

/-- Settles O33: an answer of MAT is taken at once, and what each kind does to the SEND it names, or to none, is its lemma. -/
theorem sendsEndByTheAnswersOfTheirPeer : Obligations.SendsEndByTheAnswersOfTheirPeer := by
  intro p s u c ended late lateLast hn hf
  refine ⟨fun hm => ?report, fun hm => ?notice, fun hm => ?withdrawal, fun hm hpull => ?refusal,
    fun h st dt n => ⟨State.sendEnd_of_no_withdrawal st dt n, State.sendEnd_of_bound st dt n,
      State.sendEnd_of_unanswered st dt n⟩⟩
  case report =>
    have run {t : State} (ht : u.placementReport p = t) : exec (.placementReportArrival p) s = .next ((ended t).done s) :=
      next_done_congr (State.arrive_answer hn hf hm (by decide) ht)
    refine ⟨fun hs => run (State.placementReport_late hs), fun h hs => ⟨fun hgot => run (State.placementReport_again hs hgot),
      fun hgot heager hall => run ?_, fun hgot hopen => run ?_⟩⟩
    · exact (State.placementReport_first hs hgot).trans (if_pos ⟨heager, hall⟩)
    · exact (State.placementReport_first hs hgot).trans (if_neg hopen)
  case notice =>
    have run {t : State} (ht : u.finishRecv p = t) : exec (.finishNoticeArrival p) s = .next ((ended t).done s) :=
      next_done_congr (State.arrive_answer hn hf hm (by decide) ht)
    exact ⟨fun hs => run (State.finishRecv_late hs), fun h hs =>
      ⟨fun dt n hfin => run (State.finishRecv_of_refused hs hfin), fun hfin => run (State.finishRecv_of_served hs hfin)⟩⟩
  case withdrawal =>
    have run {t : State} (ht : u.withdrawalEnd p = t) :
        exec (.withdrawalAnswerArrival p) s = .next ((ended (t.refreshWd c (pSrcEp p))).done s) :=
      next_done_congr (State.arrive_answer hn hf hm (by decide) (State.withdrawalAnswer_of ht))
    exact ⟨fun hs => run (State.withdrawalEnd_late hs), fun h hs hwd => run (State.withdrawalEnd_unasked hs hwd),
      fun h hs hwd => ⟨fun haux => run (State.withdrawalEnd_withdrawn hs hwd haux),
        fun d n haux hfin => run (State.withdrawalEnd_bound_ended hs hwd haux hfin),
        fun haux hfin => run (State.withdrawalEnd_bound_open hs hwd haux hfin)⟩⟩
  case refusal =>
    have run {t : State} (ht : u.matRefused p = t) : exec (.matRefusalArrival p) s = .next ((ended t).done s) :=
      next_done_congr (State.arrive_answer hn hf hm (by decide) ht)
    exact ⟨fun hs => run (State.matRefused_late hpull hs), fun h hs =>
      ⟨fun hbusy => run (State.matRefused_busy hpull hs hbusy), fun hbusy => run (State.matRefused_final hpull hs hbusy)⟩⟩

end Sys2Proof.Machine
end

section
/-!
SUPPORT. What MAT holds and goes on with: SENDs that wait for a peer record, the receive stream of a context, and busy retries
(R137, R146, R159, R161, R177, R181).
-/
namespace Sys2Proof.Machine

theorem State.ifRuns_of_frozen {s : State} (f : State → State) (h : s.frozen = true) : s.ifRuns f = s := if_pos h

/-! ### Held SENDs (R137) -/

/-- A held SEND behind nothing that its block holds is dispatched, at MAT. -/
theorem State.sendRelease_of_first {s : State} {r : HandleRef} {h : Handle} (hh : s.handle? r = some h)
    (hop : dOpcode h.desc = 4) (hheld : h.phase = .held) (hfirst : s.heldBehind h = false) (hs : s.inSetup 5 = false) :
    s.sendRelease r = (s.atBlock h).dispatchSend h := by
  rw [← State.dispatch_send hop]
  simp [State.sendRelease, hh, hop, hheld, hfirst, hs]

/-! ### The receive stream of a context (R146, R159, R161) -/

section
variable {s : State} {h : Handle}

section
variable {c i fuel : Nat} (hfirst : s.mat.held.find? (fun e => e.1 == c) = some (c, i)) (hh : s.handle? ⟨c, i⟩ = some h)
include hfirst hh

theorem State.recvRelease_stays (hop : dOpcode h.desc ≠ 6) (hpost : s.postRecv h = none) :
    s.recvRelease c (fuel + 1) = s := by
  simp [State.recvRelease, hfirst, hh, hop, hpost]

theorem State.recvRelease_posts {t : State} (hop : dOpcode h.desc ≠ 6) (hpost : s.postRecv h = some t) :
    s.recvRelease c (fuel + 1) = (t.recvUnwait ⟨c, i⟩).recvRelease c fuel := by
  simp [State.recvRelease, hfirst, hh, hop, hpost]

theorem State.recvRelease_cancels (hop : dOpcode h.desc = 6) :
    s.recvRelease c (fuel + 1) = ((s.recvUnwait ⟨c, i⟩).cancelNow ⟨c, i⟩).recvRelease c fuel := by
  simp [State.recvRelease, hfirst, hh, hop]

end

/-- The probe of a posting: only a receive of class 0 looks into the bin of its key (R146). -/
def State.postProbe (s : State) (h : Handle) : State :=
  if (recvEntry h).cls = 0 then s.matProbes h.ctx [(recvEntry h).key] else s

theorem State.postRecv_binds {i : Nat} {m : MatEntry} (hm : (s.postProbe h).firstMessage (recvEntry h) = some (i, m)) :
    s.postRecv h = some (((s.postProbe h).matRemove i m).bindMsg m (recvEntry h)) := by
  unfold State.postProbe at *
  simp only [State.postRecv, hm]

section
variable (hm : (s.postProbe h).firstMessage (recvEntry h) = none)
include hm

theorem State.postRecv_full
    (hroom : (s.postProbe h).matInsert { recvEntry h with stamp := ((s.postProbe h).ctx h.ctx).postStamp } = none) :
    s.postRecv h = none := by
  unfold State.postProbe at *
  simp only [State.postRecv, hm, hroom]

theorem State.postRecv_stored {v : State}
    (hroom : (s.postProbe h).matInsert { recvEntry h with stamp := ((s.postProbe h).ctx h.ctx).postStamp } = some v) :
    s.postRecv h = some (((v.setCtx h.ctx
      { v.ctx h.ctx with postStamp := ((s.postProbe h).ctx h.ctx).postStamp + 1 }).wcAdd h.ctx (recvEntry h).cls true).reportCtx
        h.ctx) := by
  unfold State.postProbe at *
  simp only [State.postRecv, hm, hroom]

end

/-! ### Busy retries (R159, R177) -/

/-- The retry falls due at the time of the first of the operation's unanswered packets. -/
theorem State.busyEnd_at {r : HandleRef} {t : Nat} (hh : s.handle? r = some h) (ht : h.busyRetryAt (s.openParts h) = some t) :
    s.busyEnd r = (s.advance t).resendOp h := by
  simp [State.busyEnd, hh, ht, State.due]

theorem State.resendOp_send (hop : dOpcode h.desc = 4) : s.resendOp h = s.resendSend h := if_pos hop

theorem State.resendOp_rma (hop : dOpcode h.desc ≠ 4) : s.resendOp h = s.resendRma h := if_neg hop

end

/-- Settles O35: a held SEND goes to MAT as at its dispatch, the stream of receives goes on by one at its front, and a busy retry
re-sends what is due at its time. -/
theorem whatMatHoldsGoesOn : Obligations.WhatMatHoldsGoesOn := by
  refine ⟨fun r h s hh hop hheld hfirst hs => ⟨?frozen, fun hf hset => ?dispatched⟩, fun c i h s hf hfirst hh => ?stream,
    fun h s => ⟨fun i m => State.postRecv_binds, State.postRecv_full, fun v hm => State.postRecv_stored hm⟩,
    fun r h t s hf hh ht => ?retry⟩
  case frozen => exact fun hf => next_done_congr (State.ifRuns_of_frozen _ hf)
  case dispatched =>
    have run {t : State} (ht : (s.atBlock h).dispatchSend h = t) : exec (.sendHoldRelease r) s = .next (t.done s) :=
      next_done_congr ((State.ifRuns_of_runs _ hf).trans ((State.sendRelease_of_first hh hop hheld hfirst hs).trans ht))
    exact ⟨fun st dt hr => run (State.dispatchSend_refused hset hr),
      fun hr hroom => run (State.dispatchSend_held hset hr hroom), fun hr hroom => run (State.dispatchSend_starts hset hr hroom)⟩
  case stream =>
    have hpos : s.mat.held.length - 1 + 1 = s.mat.held.length :=
      Nat.sub_add_cancel (List.length_pos_of_mem (List.mem_of_find?_eq_some hfirst))
    have run {t : State} (ht : s.recvRelease c (s.mat.held.length - 1 + 1) = t) :
        exec (.recvHoldRelease c) s = .next (t.done s) :=
      next_done_congr ((State.ifRuns_of_runs _ hf).trans (hpos ▸ ht))
    exact ⟨fun hop hpost => run (State.recvRelease_stays hfirst hh hop hpost),
      fun t hop hpost => run (State.recvRelease_posts hfirst hh hop hpost),
      fun hop => run (State.recvRelease_cancels hfirst hh hop)⟩
  case retry =>
    have run {t' : State} (ht' : (s.advance t).resendOp h = t') : exec (.busyRetryExpire r) s = .next (t'.done s) :=
      next_done_congr ((State.ifRuns_of_runs _ hf).trans ((State.busyEnd_at hh ht).trans ht'))
    exact ⟨fun hop => run (State.resendOp_send hop), fun hop => run (State.resendOp_rma hop)⟩

end Sys2Proof.Machine
end

section
/-!
SUPPORT. The parts of an operation: how many there are, and what the parts before one carry (R170, R172).
-/
namespace Sys2Proof.Machine

theorem partsOf_pos (l : Nat) : 1 ≤ partsOf l := Nat.le_max_left ..

/-- A later part exists exactly where a byte lies past the pages of the parts before it. -/
theorem lt_partsOf_iff {l k : Nat} (hk : 0 < k) : k < partsOf l ↔ 4096 * k < l := by
  unfold partsOf
  omega

theorem partLen_le (l k : Nat) : partLen l k ≤ 4096 := by
  unfold partLen
  omega

/-- Part `k` carries the whole page where another part follows it. -/
theorem partLen_of_followed {l k : Nat} (hk : k + 1 < partsOf l) : partLen l k = 4096 := by
  have hmore := (lt_partsOf_iff k.succ_pos).1 hk
  unfold partLen
  omega

theorem partLen_pos {l k : Nat} (hl : 0 < l) (hk : k < partsOf l) : 0 < partLen l k := by
  have hbyte : 4096 * k < l := k.eq_zero_or_pos.elim (by rintro rfl; exact hl) fun hpos => (lt_partsOf_iff hpos).1 hk
  unfold partLen
  omega

/-- The first `k` parts carry the first `k` pages, as far as the operation reaches. -/
theorem sum_partLen (l k : Nat) : ((List.range k).map (partLen l)).sum = min l (4096 * k) := by
  induction k with
  | zero => simp
  | succ k ih =>
    rw [List.range_succ, List.map_append, List.sum_append, ih, List.map_singleton, List.sum_singleton, partLen]
    omega

/-- The pages of all the parts reach past the operation's end. -/
theorem le_partsOf_pages (l : Nat) : l ≤ 4096 * partsOf l :=
  Nat.not_lt.1 fun h => Nat.lt_irrefl _ ((lt_partsOf_iff (partsOf_pos l)).2 h)

/-- The pages of the parts before one lie within the operation. -/
theorem pages_le_of_lt_partsOf {l k : Nat} (hk : k < partsOf l) : 4096 * k ≤ l := by
  unfold partsOf at hk
  omega

/-- Settles O36: the first `k` parts carry `min l (4096 * k)` bytes, which is `4096 * k` before a part and `l` behind the last. -/
theorem partsCoverAnOperation : Obligations.PartsCoverAnOperation := by
  refine fun l => ⟨partsOf_pos l, fun k => partLen_of_followed, partLen_le l, fun k hk => ?before, ?all,
    fun hl k => partLen_pos hl⟩
  case before => rw [sum_partLen, Nat.min_eq_right (pages_le_of_lt_partsOf hk)]
  case all => rw [sum_partLen, Nat.min_eq_left (le_partsOf_pages l)]

end Sys2Proof.Machine
end

section
/-!
SUPPORT. Requests at RMA: how a delivered one is classified, admitted, and taken up by the operation it continues (R114, R119,
R168, R176, R177, R185, R200, R399, R404).
-/
namespace Sys2Proof.Machine

/-- The commands of the twelve atomics on a packet, each with its operation code (R185). -/
def atomicCommands (p : Packet) : List (Instr × Nat) :=
  [(.fetchAdd p, 1), (.fetchAnd p, 2), (.fetchOr p, 3), (.fetchXor p, 4), (.swap p, 5), (.cswap p, 6), (.fetchMinS p, 7),
    (.fetchMaxS p, 8), (.fetchMinU p, 9), (.fetchMaxU p, 10), (.fetchAddF64 p, 11), (.cswap128 p, 12)]

/-- An atomic's command takes a packet of its own operation code to RMA. -/
theorem exec_atomicCommand {p : Packet} {s : State} : ∀ c ∈ atomicCommands p,
    exec c.1 s = .next ((s.arrive p (isAtomic p c.2) fun u => u.rmaArrive p).done s) := by
  simp only [atomicCommands, List.forall_mem_cons]
  exact ⟨rfl, rfl, rfl, rfl, rfl, rfl, rfl, rfl, rfl, rfl, rfl, rfl, fun _ h => absurd h List.not_mem_nil⟩

section
variable {p : Packet} {s : State}

/-- PUT data, GET requests and atomics come to RMA by one entrance, each by its own command. -/
theorem exec_requestArrival {i : Instr} (hi : (i = .putDataArrival p ∧ pType p = 0) ∨
    (i = .getRequestArrival p ∧ pType p = 1) ∨ (pType p = 3 ∧ (i, pAtomOp p) ∈ atomicCommands p)) :
    exec i s = .next ((s.arrive p true fun u => u.rmaArrive p).done s) := by
  rcases hi with ⟨rfl, htype⟩ | ⟨rfl, htype⟩ | ⟨htype, hcode⟩
  · exact next_done_congr (by rw [htype]; rfl)
  · exact next_done_congr (by rw [htype]; rfl)
  · rw [exec_atomicCommand _ hcode, isAtomic, htype, beq_self_eq_true, beq_self_eq_true, Bool.and_self]

/-! ### What a request finds at RMA -/

theorem State.rmaArrive_of_quarantine (hq : (s.ctxUse (pDstCtx p)).rsv.quarantineEnd.isSome = true) :
    s.rmaArrive p = (s.ctxUse (pDstCtx p)).dropQuarantined := if_pos hq

section
variable {c : State} (hc : s.ctxUse (pDstCtx p) = c) (hq : c.rsv.quarantineEnd = none)
include hc hq

theorem State.rmaArrive_of_shut (hb : c.rmaBusy p = true) : s.rmaArrive p = c.tgtBusy p := by
  simp [State.rmaArrive, State.rmaRequest, hc, hq, hb]

variable (hb : c.rmaBusy p = false)
include hb

theorem State.rmaArrive_of_closed (hcl : c.closedContinue p = true) : s.rmaArrive p = c.fault 4 1 0 := by
  simp [State.rmaArrive, State.rmaRequest, hc, hq, hb, hcl]

section
variable (hcl : c.closedContinue p = false) {v : State}
include hcl

theorem State.rmaArrive_refused {st dt : Nat} (hv : c.classify p = (.refuse st dt, v)) :
    s.rmaArrive p = v.tgtRefuse p st dt false := by
  simp [State.rmaArrive, State.rmaRequest, hc, hq, hb, hcl, hv]

theorem State.rmaArrive_busy (hv : c.classify p = (.busy, v)) : s.rmaArrive p = v.tgtBusy p := by
  simp [State.rmaArrive, State.rmaRequest, hc, hq, hb, hcl, hv]

theorem State.rmaArrive_retired (hv : c.classify p = (.retired, v)) : s.rmaArrive p = v := by
  simp [State.rmaArrive, State.rmaRequest, hc, hq, hb, hcl, hv]

section
variable (hv : c.classify p = (.pass, v))
include hv

/-- A request of no operation so far opens one, at the register window or at a window of its context (R168). -/
theorem State.rmaArrive_opens (ho : v.opOf p = none) :
    s.rmaArrive p = if pWindow p = 0xFFFF then v.regWinAdmit p else v.admitOp p := by
  simp [State.rmaArrive, State.rmaRequest, hc, hq, hb, hcl, hv, ho]

theorem State.rmaArrive_continues {o : OpRec} (ho : v.opOf p = some o) : s.rmaArrive p = v.continueOp p o := by
  simp [State.rmaArrive, State.rmaRequest, hc, hq, hb, hcl, hv, ho]

end

end

end

/-! ### Admission (R119, R177, R197) -/

theorem State.admitOp_of_full (hroom : s.opRoom p = false) : s.admitOp p = s.tgtBusy p := by simp [State.admitOp, hroom]

theorem State.regWinAdmit_of_full (hroom : s.opRoom p = false) : s.regWinAdmit p = s.tgtBusy p := by
  simp [State.regWinAdmit, hroom]

section
variable (hroom : s.opRoom p = true)
include hroom

/-- A refusal counts as one of the window, unless it is that of the counter, 0x12 detail 9 (R119, R197). -/
theorem State.admitOp_refused {st dt : Nat} (hr : s.admitRefusal p = some (st, dt)) :
    s.admitOp p = (s.pmcEv 4 3 0 0 (if st ≠ 0x12 ∨ dt ≠ 9 then 1 else 0)).recordRefusal p st dt := by
  simp [State.admitOp, hroom, hr, b2n]

theorem State.regWinAdmit_refused {st dt : Nat} (hr : s.regWinRefusal p = some (st, dt)) :
    s.regWinAdmit p = (s.pmcEv 4 3 0 0 (if st ≠ 0x12 ∨ dt ≠ 9 then 1 else 0)).recordRefusal p st dt := by
  simp [State.regWinAdmit, hroom, hr, b2n]

/-- An admitted operation pins the active image of its window, and its first part is applied. -/
theorem State.admitOp_admitted (hr : s.admitRefusal p = none) :
    let e := (s.ctx (pDstCtx p)).winBase + pWindow p
    let o := s.newOp p .active 0 0 (s.win e).gen (s.win e).active
    s.admitOp p = ((((s.pinImage e (s.win e).active).putOp o).pmcEv 6 1 0 0 1).applyPart p o) := by
  simp [State.admitOp, hroom, hr]

/-- An admitted operation on the register window is one access of the peer's node. -/
theorem State.regWinAdmit_admitted (hr : s.regWinRefusal p = none) :
    let o : OpRec := { s.newOp p .active 0 0 0 false with present := [0] }
    let u := (s.putOp o).pmcEv 6 1 0 0 1
    s.regWinAdmit p = u.regAccess ⟨mPeer (pSrcNode p), reqOff p, .w64,
      if pType p = 0 then some (BitVec.ofNat 64 (ofLE (pData p))) else none,
      some (⟨o.ctx, o.remote, o.osn⟩, reqCounter p), u.now⟩ := by
  simp [State.regWinAdmit, hroom, hr]

end

/-! ### A part of an operation that has a record (R176) -/

section
variable {o : OpRec}

theorem State.continueOp_abandoned (ho : o.phase = .abandoned) : s.continueOp p o = s.countDup 0 := by
  simp [State.continueOp, ho]

theorem State.continueOp_refused (ho : o.phase = .refused) : s.continueOp p o = s.tgtRefuse p o.status o.detail false := by
  simp [State.continueOp, ho]

theorem State.continueOp_ended (ho : o.phase = .ended) : s.continueOp p o = s.answerAgain p o := by
  simp [State.continueOp, ho]

/-- A part of an active operation is applied where it is new. -/
theorem State.continueOp_active (ho : o.phase = .active) : let o' : OpRec := { o with lastTime := s.now }
    s.continueOp p o = if reqPart p ∈ o.present then (s.setOp o').countDup 1 else (s.setOp o').applyPart p o' := by
  simp [State.continueOp, ho]

end

end

/-- Settles O37: the entrance's four outcomes, then RMA's classes of a request that it takes; admission to either kind of window
and the parts that follow by their own lemmas. -/
theorem requestsAreClassifiedAndAdmitted : Obligations.RequestsAreClassifiedAndAdmitted := by
  refine ⟨fun p s i hi => ?arrival, fun p s hroom => ⟨State.admitOp_of_full hroom, State.regWinAdmit_of_full hroom⟩,
    fun p s hroom => ⟨fun st dt => State.regWinAdmit_refused hroom, State.regWinAdmit_admitted hroom⟩,
    fun p s hroom => ⟨fun st dt => State.admitOp_refused hroom, State.admitOp_admitted hroom⟩,
    fun p s o => ⟨State.continueOp_abandoned, State.continueOp_refused, State.continueOp_ended, State.continueOp_active⟩⟩
  case arrival =>
    have hexec := exec_requestArrival (s := s) hi
    refine ⟨fun hn => ?_, fun hn hf => ?_, fun hn hf b hb => ?_, fun hn hf hb => ?taken⟩
    · rw [hexec, State.arrive_elsewhere hn]
    · rw [hexec, State.arrive_of_frozen hn hf]
    · rw [hexec, State.arrive_of_answerFull hn hf hb]
    case taken =>
      have run {t : State} (ht : (s.takeDelivered p).rmaArrive p = t) :
          exec i s = .next (((s.takeDelivered p).endArrival t p).done s) := by
        rw [hexec, State.arrive_taken hn hf hb, ht]
      refine ⟨fun hq => run (State.rmaArrive_of_quarantine hq), fun hq hs => run (State.rmaArrive_of_shut rfl hq hs),
        fun hq hs hcl => run (State.rmaArrive_of_closed rfl hq hs hcl), fun hq hs hcl =>
          ⟨fun st dt v hv => run (State.rmaArrive_refused rfl hq hs hcl hv),
            fun v hv => run (State.rmaArrive_busy rfl hq hs hcl hv),
            fun v hv => run (State.rmaArrive_retired rfl hq hs hcl hv), fun v hv => ⟨fun ho hw => run ?_, fun ho hw => run ?_,
              fun o ho => run (State.rmaArrive_continues rfl hq hs hcl hv ho)⟩⟩⟩
      · exact (State.rmaArrive_opens rfl hq hs hcl hv ho).trans (if_pos hw)
      · exact (State.rmaArrive_opens rfl hq hs hcl hv ho).trans (if_neg hw)

end Sys2Proof.Machine
end

section
/-!
SUPPORT. The answers that reach a PUT, GET or ATOMIC at its initiator, those that name none, and the host's completion of an
AtomicOp (R101, R172, R177, R183, R187, R196; log entry 20).
-/
namespace Sys2Proof.Machine

section
variable {s : State} {p : Packet}

/-- A command that a stopped data path holds up (R386) does its work while the data path runs. -/
theorem next_of_runs {f : State → State} {t : State} (hf : s.frozen = false) (ht : f s = t) :
    (Host.Outcome.next ((s.ifRuns f).done s) : Res) = .next (t.done s) :=
  next_done_congr ((State.ifRuns_of_runs f hf).trans ht)

/-- A response or refusal of RMA for this node is taken while the data path runs: being no request, it needs no room for an
answer (R243). -/
theorem State.arrive_response {n : Nat} {f : State → State} {t : State} (hn : pDstNode p = s.node)
    (hf : (s.takeDelivered p).frozen = false) (htype : pType p = n) (hkind : n ∈ [2, 4, 5, 6])
    (ht : f (s.takeDelivered p) = t) : s.arrive p (pType p == n) f = (s.takeDelivered p).endArrival t p := by
  have hno : requestTo p = none := by
    simp only [List.mem_cons, List.not_mem_nil, or_false] at hkind
    rcases hkind with rfl | rfl | rfl | rfl <;> simp [requestTo, htype]
  have hroom : (s.takeDelivered p).answerFull p = none := by rw [State.answerFull, hno, Option.filter_none]
  rw [htype, beq_self_eq_true, State.arrive_taken hn hf hroom, ht]

/-! ### Bytes of an answer that go to the initiator's memory -/

/-- The state in which `n` bytes of an answer are to be written at address `a` of its handle's buffer: the answer is stamped and
the bytes are translated. -/
def State.answerAt (s : State) (h : Handle) (kind a n : Nat) : State := (s.stampAnswer h).xltUse h.ctx kind a n

/-- The pages that those bytes reach. -/
def State.answerPages (s : State) (h : Handle) (kind a n : Nat) : List (Option Place × Nat) :=
  (s.answerAt h kind a n).pages h.ctx kind a n true

/-- What becomes of those bytes: a busy bank does not take them yet, a retired one ends the operation, and otherwise they are
written and `k` goes on (R380; log entry 20). -/
def State.landAnswer (s : State) (h : Handle) (kind a n : Nat) (bs : List Byte) (k : State → State) : State :=
  if (s.answerAt h kind a n).pagesBusy (s.answerPages h kind a n) then s.answerAt h kind a n
  else if (s.answerAt h kind a n).pagesRetired (s.answerPages h kind a n) then (s.answerAt h kind a n).finish h.ref 0x18 7
  else k ((s.answerAt h kind a n).writeEach (some 4) h.mute (s.answerPages h kind a n) bs)

section
variable {h : Handle} {kind a n : Nat} {bs : List Byte} {k : State → State}

theorem State.landAnswer_busy (hb : (s.answerAt h kind a n).pagesBusy (s.answerPages h kind a n) = true) :
    s.landAnswer h kind a n bs k = s.answerAt h kind a n := if_pos hb

section
variable (hb : (s.answerAt h kind a n).pagesBusy (s.answerPages h kind a n) = false)
include hb

theorem State.landAnswer_retired (hr : (s.answerAt h kind a n).pagesRetired (s.answerPages h kind a n) = true) :
    s.landAnswer h kind a n bs k = (s.answerAt h kind a n).finish h.ref 0x18 7 := by
  simp [State.landAnswer, hb, hr]

theorem State.landAnswer_written (hr : (s.answerAt h kind a n).pagesRetired (s.answerPages h kind a n) = false) :
    s.landAnswer h kind a n bs k =
      k ((s.answerAt h kind a n).writeEach (some 4) h.mute (s.answerPages h kind a n) bs) := by
  simp [State.landAnswer, hb, hr]

end

end

/-! ### PUT (R172) -/

theorem State.putResponse_late (hs : s.answered p [1] = none) : s.putResponse p = s.lateAnswer (pDstCtx p) (pOsn p) := by
  simp [State.putResponse, hs]

theorem State.putResponse_completes {h : Handle} (hs : s.answered p [1] = some h) :
    s.putResponse p = (s.stampAnswer h).complete h.ref 0 0 (dLength h.desc) 0 := by
  simp [State.putResponse, hs]

/-! ### ATOMIC (R101, R172) -/

/-- An ATOMIC completes with the first 8 fetched bytes as its value. -/
def State.completeFetched (s : State) (h : Handle) (p : Packet) : State :=
  s.complete h.ref 0 0 (dLength h.desc) (BitVec.ofNat 64 (ofLE ((p.bytes.take (dLength h.desc)).take 8)))

theorem State.atomicResponse_late (hs : s.answered p [3] = none) :
    s.atomicResponse p = s.lateAnswer (pDstCtx p) (pOsn p) := by
  simp [State.atomicResponse, hs]

section
variable {h : Handle} (hs : s.answered p [3] = some h)
include hs

theorem State.atomicResponse_unplaced (ha : dAddr h.desc = 0) : s.atomicResponse p = (s.stampAnswer h).completeFetched h p := by
  simp [State.atomicResponse, hs, ha, State.completeFetched]

theorem State.atomicResponse_placed (ha : dAddr h.desc ≠ 0) :
    s.atomicResponse p = s.landAnswer h 0 (dAddr h.desc) (dLength h.desc) (p.bytes.take (dLength h.desc))
      fun t => t.completeFetched h p := by
  unfold State.atomicResponse
  rw [hs]
  exact if_neg ha

end

/-! ### GET (R172, R196) -/

/-- Part `k` of a GET has been written: the last distinct part completes it. -/
def State.takePart (s : State) (h : Handle) (k : Nat) : State :=
  let h : Handle := { h with got := h.got ++ [k], gotBytes := h.gotBytes + partLen (dLength h.desc) k }
  if h.got.length < partsOf (dLength h.desc) then s.setHandle h else s.complete h.ref 0 0 (dLength h.desc) 0

theorem State.takePart_eq (h : Handle) (k : Nat) : s.takePart h k =
    if h.got.length + 1 < partsOf (dLength h.desc) then
      s.setHandle { h with got := h.got ++ [k], gotBytes := h.gotBytes + partLen (dLength h.desc) k }
    else s.complete h.ref 0 0 (dLength h.desc) 0 := by
  simp [State.takePart, Handle.ref]

theorem State.getResponse_late (hs : s.answered p [2] = none) : s.getResponse p = s.lateAnswer (pDstCtx p) (pOsn p) := by
  simp [State.getResponse, hs]

section
variable {h : Handle} (hs : s.answered p [2] = some h)
include hs

theorem State.getResponse_again (hk : partsOf (dLength h.desc) ≤ kget p 51 32 ∨ kget p 51 32 ∈ h.got) :
    s.getResponse p = s.stampAnswer h := by
  simp [State.getResponse, hs, hk]

theorem State.getResponse_new (hk : kget p 51 32 < partsOf (dLength h.desc)) (hnew : kget p 51 32 ∉ h.got) :
    s.getResponse p = s.landAnswer h (dKind h.desc) (dAddr h.desc + 4096 * kget p 51 32)
      (partLen (dLength h.desc) (kget p 51 32)) p.bytes fun t => t.takePart h (kget p 51 32) := by
  unfold State.getResponse
  rw [hs]
  exact if_neg (not_or.2 ⟨Nat.not_le.2 hk, by simpa using hnew⟩)

end

/-! ### Refusals (R172, R177) -/

theorem State.refusalRecv_late (hs : s.answered p [1, 2, 3] = none) :
    s.refusalRecv p = s.lateAnswer (pDstCtx p) (pOsn p) := by
  simp [State.refusalRecv, hs]

section
variable {h : Handle} (hs : s.answered p [1, 2, 3] = some h)
include hs

theorem State.refusalRecv_busy (hb : kget p 48 48 = 1) :
    s.refusalRecv p = (s.stampAnswer h).scheduleBusy h.ref (kget p 71 52) := by
  simp [State.refusalRecv, hs, hb]

theorem State.refusalRecv_final (hb : kget p 48 48 ≠ 1) :
    s.refusalRecv p = (s.stampAnswer h).finish h.ref (kget p 39 32) (kget p 47 40) := by
  simp [State.refusalRecv, hs, hb]

end

/-! ### The host's completion of an AtomicOp (R187) -/

section
variable {r : OpRef} {v : OpRec} (hop : s.op? r.ctx r.remote r.osn = some v) (hact : v.phase = .active) (hkind : v.pkind = 3)
  (haw : s.awaits (.atomic r) = true)
include hop hact hkind haw

theorem State.atomicOpDone_ok (bs : List Byte) :
    let u := s.dropOther (.atomic r)
    let v' : OpRec := { v with served := [0], applied := true, result := BitVec.ofNat 128 (ofLE bs) }
    s.atomicOpDone r (.ok bs) = u.endOp v' none (u.atomicAnswer v') := by
  simp [State.atomicOpDone, hop, hact, hkind, haw]

theorem State.atomicOpDone_error :
    let w := ((s.dropOther (.atomic r)).unpinOp v).putOp { v with phase := .refused, status := 0x12, detail := 0x0B }
    s.atomicOpDone r .error = w.present (w.tgtAnswer v.ctx v.remote v.vclass 6
      (kindRefusal v.osn 0x12 0x0B false 3 0) []) := by
  simp [State.atomicOpDone, hop, hact, hkind, haw]

end

end

/-- Settles O39: an answer of RMA is taken at once, and what each kind does to the operation it names, or to none, is its lemma;
the bytes of a GET or an ATOMIC land by the same three cases. -/
theorem answersEndTheirOperation : Obligations.AnswersEndTheirOperation := by
  refine ⟨?answers, fun r v s hf hop hact hkind haw => ⟨fun bs => ?_, ?_⟩⟩
  case answers =>
    intro p s u ended late hn hf
    refine ⟨fun hm => ?put, fun hm => ?atomic, fun hm => ?get, fun hm => ?refusal⟩
    case put =>
      have run {t : State} (ht : u.putResponse p = t) : exec (.putResponseArrival p) s = .next ((ended t).done s) :=
        next_done_congr (State.arrive_response hn hf hm (by decide) ht)
      exact ⟨fun hs => run (State.putResponse_late hs), fun h hs => run (State.putResponse_completes hs)⟩
    case atomic =>
      have run {t : State} (ht : u.atomicResponse p = t) : exec (.atomicResponseArrival p) s = .next ((ended t).done s) :=
        next_done_congr (State.arrive_response hn hf hm (by decide) ht)
      refine ⟨fun hs => run (State.atomicResponse_late hs), fun h hs => ⟨fun ha => run (State.atomicResponse_unplaced hs ha),
        fun ha hb => run ?_, fun ha hb hr => run ?_, fun ha hb hr => run ?_⟩⟩
      · exact (State.atomicResponse_placed hs ha).trans (State.landAnswer_busy hb)
      · exact (State.atomicResponse_placed hs ha).trans (State.landAnswer_retired hb hr)
      · exact (State.atomicResponse_placed hs ha).trans (State.landAnswer_written hb hr)
    case get =>
      have run {t : State} (ht : u.getResponse p = t) : exec (.getResponseArrival p) s = .next ((ended t).done s) :=
        next_done_congr (State.arrive_response hn hf hm (by decide) ht)
      refine ⟨fun hs => run (State.getResponse_late hs), fun h hs => ⟨fun hk => run (State.getResponse_again hs hk),
        fun hk hnew hb => run ?_, fun hk hnew hb hr => run ?_, fun hk hnew hb hr => run ?_⟩⟩
      · exact (State.getResponse_new hs hk hnew).trans (State.landAnswer_busy hb)
      · exact (State.getResponse_new hs hk hnew).trans (State.landAnswer_retired hb hr)
      · exact ((State.getResponse_new hs hk hnew).trans (State.landAnswer_written hb hr)).trans (State.takePart_eq h _)
    case refusal =>
      have run {t : State} (ht : u.refusalRecv p = t) : exec (.refusalArrival p) s = .next ((ended t).done s) :=
        next_done_congr (State.arrive_response hn hf hm (by decide) ht)
      exact ⟨fun hs => run (State.refusalRecv_late hs), fun h hs =>
        ⟨fun hb => run (State.refusalRecv_busy hs hb), fun hb => run (State.refusalRecv_final hs hb)⟩⟩
  · exact next_of_runs hf (State.atomicOpDone_ok hop hact hkind haw bs)
  · exact next_of_runs hf (State.atomicOpDone_error hop hact hkind haw)

end Sys2Proof.Machine
end

section
/-!
SUPPORT. The re-send timer and the timeout of an operation, and what presenting a packet to RTE does (R103, R153, R154, R181,
R182, R226).
-/
namespace Sys2Proof.Machine

section
variable {s : State} {h : Handle}

/-- A timer acts at its deadline. To be used as a rewrite: a proof by computation would evaluate what the timer does as well. -/
theorem State.due_eq (t : Nat) (f : State → State) : s.due t f = f (s.advance t) := by rw [State.due]

/-! ### What is sent again (R181) -/

/-- The re-send timer itself, and not a busy retry, has brought some packet among `ks` to its time. -/
def Handle.timerRan (h : Handle) (now retry : Nat) (ks : List Nat) : Bool :=
  ks.any fun k => (h.txOf k).any fun t => t.time + retry ≤ now

theorem Handle.timerRan_iff {now retry : Nat} {ks : List Nat} :
    h.timerRan now retry ks = true ↔ ∃ k x, k ∈ ks ∧ h.txOf k = some x ∧ x.time + retry ≤ now := by
  simp [Handle.timerRan, Option.any_eq_true]

theorem Handle.not_timerRan {now retry : Nat} {ks : List Nat}
    (hlater : ∀ k, k ∈ ks → ∀ x, h.txOf k = some x → now < x.time + retry) :
    ¬h.timerRan now retry ks = true := fun hran =>
  have ⟨k, x, hk, hx, hle⟩ := Handle.timerRan_iff.1 hran
  Nat.not_le.2 (hlater k hk x hx) hle

/-- What is due is sent again, and by the re-send timer all parts of a PUT. -/
theorem State.resendRma_eq : s.resendRma h =
    let due := h.dueParts s.now s.retryPs h.unanswered
    let ks := if dOpcode h.desc = 1 ∧ h.timerRan s.now s.retryPs due = true then h.unanswered else due
    (s.setHandle (h.restart s.now ks)).sendParts h.ref ks := rfl

theorem State.resendRma_all (hop : dOpcode h.desc = 1)
    (hran : h.timerRan s.now s.retryPs (h.dueParts s.now s.retryPs h.unanswered) = true) :
    s.resendRma h = (s.setHandle (h.restart s.now h.unanswered)).sendParts h.ref h.unanswered := by
  simp only [State.resendRma_eq, if_pos (And.intro hop hran)]

theorem State.resendRma_due
    (hno : ¬(dOpcode h.desc = 1 ∧ h.timerRan s.now s.retryPs (h.dueParts s.now s.retryPs h.unanswered) = true)) :
    s.resendRma h = (s.setHandle (h.restart s.now (h.dueParts s.now s.retryPs h.unanswered))).sendParts h.ref
      (h.dueParts s.now s.retryPs h.unanswered) := by
  simp only [State.resendRma_eq, if_neg hno]

/-! ### The re-send timers (R153, R154, R181) -/

section
variable {r : HandleRef}

section
variable (hh : s.handle? r = some h) (hact : h.phase = .active)
include hh hact

theorem State.resendEnd_idle (ht : h.resendAt s.retryPs (s.openParts h) = none) : s.resendEnd (.handle r) = s := by
  simp [State.resendEnd, hh, hact, ht]

theorem State.resendEnd_at {t : Nat} (ht : h.resendAt s.retryPs (s.openParts h) = some t) :
    s.resendEnd (.handle r) = (s.advance t).resendOp h := by
  simp [State.resendEnd, hh, hact, ht, State.due_eq]

end

theorem State.resendEnd_lost {l : LostWd} (hh : s.handle? r = none)
    (hl : s.mat.lost.find? (fun l => l.ctx == r.ctx && l.index == r.index) = some l) :
    s.resendEnd (.handle r) = (s.advance (l.lastTx + s.retryPs)).resendLost l := by
  simp [State.resendEnd, hh, hl, State.due_eq]

theorem State.resendEnd_pull {b : Bound} (hb : s.boundFor r = some b) (hpull : b.pull = true) (hopen : b.unpulled ≠ []) :
    s.resendEnd (.pull r) = (s.advance (b.lastTx + s.retryPs)).resendPull b := by
  simp [State.resendEnd, hb, hpull, hopen, State.due_eq]

/-! ### The timeout (R103, R154, R182, R226) -/

section
variable (hh : s.handle? r = some h) (hact : h.phase = .active)
include hh hact

theorem State.timeoutEnd_rma (hop : dOpcode h.desc ∈ [1, 2, 3]) :
    s.timeoutEnd r = (s.advance (h.dispAt + us (s.ctx h.ctx).timeoutUs)).timeoutRma h := by
  simp only [List.mem_cons, List.not_mem_nil, or_false] at hop
  rcases hop with hop | hop | hop <;> simp [State.timeoutEnd, hh, hact, hop, State.due_eq]

theorem State.timeoutEnd_coll (hop : dOpcode h.desc = 7) :
    s.timeoutEnd r = (s.advance (h.dispAt + us (s.ctx h.ctx).timeoutUs)).timeoutColl h := by
  simp [State.timeoutEnd, hh, hact, hop, State.due_eq]

section
variable (hop : dOpcode h.desc = 4)
include hop

theorem State.timeoutEnd_send (hwd : h.wd = .none) :
    s.timeoutEnd r = (s.advance (h.dispAt + us (s.ctx h.ctx).timeoutUs)).timeoutSend h := by
  simp [State.timeoutEnd, hh, hact, hop, hwd, State.due_eq]

/-- A SEND whose withdrawal has found no route since `u` ends by the second limit. -/
theorem State.timeoutEnd_withdrawal_lost {u : Nat} (hwd : h.wd = .sent) (hu : h.lostAt = some u)
    (hno : s.hasRoute (epNode (dTarget h.desc)) = false) :
    s.timeoutEnd r = (s.advance (u + us (s.ctx h.ctx).timeoutUs)).sendLost h := by
  simp [State.timeoutEnd, hh, hact, hop, hwd, hu, hno, State.due_eq]

theorem State.timeoutEnd_withdrawal_routed (hwd : h.wd = .sent)
    (hroute : h.lostAt = none ∨ s.hasRoute (epNode (dTarget h.desc)) = true) : s.timeoutEnd r = s := by
  cases hu : h.lostAt with
  | none => simp [State.timeoutEnd, hh, hact, hop, hwd, hu]
  | some u =>
    have hyes := hroute.resolve_left (by simp [hu])
    simp [State.timeoutEnd, hh, hact, hop, hwd, hu, hyes]

end

end

/-! ### A packet is presented to RTE (R181, R182) -/

section
variable {k : Nat} {p : Packet} (hh : s.handle? r = some h)
include hh

theorem State.presentFor_held (hp : s.injectable p = .noRoute) : s.presentFor r k p =
    (s.setHandle ({ h with lostAt := some (h.lostAt.getD s.now) }.putTx ⟨k, s.now, h.taken k, none⟩)).setFlag
      RTE_STATUS.no_route 0 0 true := by
  simp [State.presentFor, hh, hp]

theorem State.presentFor_taken (hp : s.injectable p = .ok) :
    let u := s.setHandle ({ h with sent := true, routed := true, lostAt := none }.putTx ⟨k, s.now, true, none⟩)
    let v := if h.taken k = true then (u.countResends 1).stampFirst 1 (handleKey r) 13 else u
    s.presentFor r k p = ((v.inject p).stampFirst 1 (handleKey r) 6).stampLast 1 (handleKey r) 7 := by
  simp [State.presentFor, hh, hp]

end

end

theorem State.timeoutStatus_eq (s : State) (h : Handle) :
    s.timeoutStatus h = if h.routed = false ∧ s.hasRoute (epNode (dTarget h.desc)) = false then 0x11 else 0x10 := by
  simp [State.timeoutStatus]

end

/-- Settles O40: each timer's end by the kind of what it is of, with what it sends again by the lemmas of the re-sends. -/
theorem timersResendAndEndOperations : Obligations.TimersResendAndEndOperations := by
  refine ⟨fun r h s hf hh hact => ⟨fun ht => ?idle, fun t ht => ?resend, fun hop => ?rma, fun hop hwd => ?send,
      fun hop hwd => ⟨fun u hu hno => ?lost, fun hroute => ?routed⟩, fun hop => ?coll⟩,
    fun r l s hf hh hl => ?withdrawal, fun r b s hf hb hpull hopen => ?pull,
    fun r k p h s hh => ⟨State.presentFor_held hh, State.presentFor_taken hh⟩, fun h s => s.timeoutStatus_eq h⟩
  case idle => exact next_of_runs hf (State.resendEnd_idle hh hact ht)
  case resend =>
    have run {t' : State} (ht' : (s.advance t).resendOp h = t') :
        exec (.resendTimerExpire (.handle r)) s = .next (t'.done s) :=
      next_of_runs hf ((State.resendEnd_at hh hact ht).trans ht')
    refine ⟨fun hop => run ?_, fun hop hran => run ?_, fun hop => run (State.resendOp_send hop)⟩
    · have hop4 : dOpcode h.desc ≠ 4 := fun hsend => by simp [hsend] at hop
      have hno : ¬(dOpcode h.desc = 1 ∧ h.timerRan (s.advance t).now (s.advance t).retryPs
          (h.dueParts (s.advance t).now (s.advance t).retryPs h.unanswered) = true) := fun ⟨hput, hran⟩ =>
        hop.elim (fun hother => by simp [hput] at hother) fun hlate => Handle.not_timerRan hlate.2 hran
      exact (State.resendOp_rma hop4).trans (State.resendRma_due hno)
    · exact (State.resendOp_rma (by simp [hop])).trans (State.resendRma_all hop (Handle.timerRan_iff.2 hran))
  case rma => exact next_of_runs hf (State.timeoutEnd_rma hh hact hop)
  case send => exact next_of_runs hf (State.timeoutEnd_send hh hact hop hwd)
  case lost => exact next_of_runs hf (State.timeoutEnd_withdrawal_lost hh hact hop hwd hu hno)
  case routed => exact next_of_runs hf (State.timeoutEnd_withdrawal_routed hh hact hop hwd hroute)
  case coll => exact next_of_runs hf (State.timeoutEnd_coll hh hact hop)
  case withdrawal => exact next_of_runs hf (State.resendEnd_lost hh hl)
  case pull => exact next_of_runs hf (State.resendEnd_pull hb hpull hopen)

end Sys2Proof.Machine
end

section
/-!
SUPPORT. Numbers in bytes, least significant first, and in two's complement (R7, R214).
-/
namespace Sys2Proof.Machine

/-! ### Bytes (R7) -/

@[simp] theorem leBytes_length (n v : Nat) : (leBytes n v).length = n := by simp [leBytes]

theorem leBytes_succ (n v : Nat) : leBytes (n + 1) v = BitVec.ofNat 8 v :: leBytes n (v / 256) := by
  simp [leBytes, List.range_succ_eq_map, Function.comp_def, Nat.pow_succ', Nat.div_div_eq_div_mul]

theorem ofLE_leBytes (n v : Nat) : ofLE (leBytes n v) = v % 2 ^ (8 * n) := by
  induction n generalizing v with
  | zero => simp [leBytes, ofLE, Nat.mod_one]
  | succ n ih =>
    rw [leBytes_succ, ofLE, ih, BitVec.toNat_ofNat, Nat.mul_succ, Nat.add_comm (8 * n), Nat.pow_add, Nat.mod_mul]

/-! ### Two's complement (R214) -/

/-- The signed reading of the low bits is the balanced remainder. -/
theorem signedOf_eq_bmod {w : Nat} (hw : 1 ≤ w) (x : Nat) : signedOf w x = (x : Int).bmod (2 ^ w) := by
  obtain ⟨w, rfl⟩ := Nat.exists_eq_add_of_le' hw
  have hhalf : (((2 ^ (w + 1) : Nat) : Int) + 1) / 2 = (2 ^ w : Nat) := by
    rw [Nat.pow_succ]; omega
  simp only [signedOf, Int.bmod_def, hhalf, ← Int.natCast_emod, Int.ofNat_lt, Nat.add_sub_cancel]
  push_cast
  rfl

theorem signedOf_mod {w : Nat} (hw : 1 ≤ w) (x : Nat) : signedOf w (x % 2 ^ w) = signedOf w x := by
  rw [signedOf_eq_bmod hw, signedOf_eq_bmod hw, Int.natCast_emod, Int.emod_bmod]

/-- A number within its two's-complement field reads back from the field. -/
theorem signedOf_emod {w : Nat} (hw : 1 ≤ w) {t : Int} (hlo : -(2 ^ (w - 1) : Int) ≤ t) (hhi : t < (2 ^ (w - 1) : Int)) :
    signedOf w (t % (2 ^ w : Nat)).toNat = t := by
  have hpos : ((2 ^ w : Nat) : Int) ≠ 0 := by positivity
  rw [signedOf_eq_bmod hw, Int.toNat_of_nonneg (Int.emod_nonneg _ hpos), Int.emod_bmod]
  obtain ⟨w, rfl⟩ := Nat.exists_eq_add_of_le' hw
  rw [Nat.add_sub_cancel] at hlo hhi
  apply Int.bmod_eq_of_le <;> push_cast [Int.pow_succ] <;> omega

/-- The high bits of a field, read as signed, are the number without the zeros below them. -/
theorem signedOf_div {l w : Nat} (hw : 1 ≤ w) {x : Int} (hzero : (x % (2 ^ (l + w) : Nat)).toNat % 2 ^ l = 0)
    (hlo : -(2 ^ (l + (w - 1)) : Int) ≤ x) (hhi : x < (2 ^ (l + (w - 1)) : Int)) :
    signedOf w ((x % (2 ^ (l + w) : Nat)).toNat / 2 ^ l) * (2 ^ l : Nat) = x := by
  have hpos : (0 : Int) < (2 ^ l : Nat) := by positivity
  have hdvd : ((2 ^ l : Nat) : Int) ∣ x := by
    have hfield : (((x % (2 ^ (l + w) : Nat)).toNat : Nat) : Int) = x % (2 ^ (l + w) : Nat) :=
      Int.toNat_of_nonneg (Int.emod_nonneg _ (by positivity))
    have hwide : ((2 ^ l : Nat) : Int) ∣ (2 ^ (l + w) : Nat) :=
      Int.natCast_dvd_natCast.2 (Nat.pow_dvd_pow 2 (Nat.le_add_right l w))
    rw [Int.dvd_iff_emod_eq_zero, ← Int.emod_emod_of_dvd _ hwide, ← hfield, ← Int.natCast_emod, hzero, Int.natCast_zero]
  obtain ⟨t, rfl⟩ := hdvd
  rw [Int.pow_add] at hlo hhi
  push_cast at hlo hhi hpos
  have hhigh : ((2 ^ l : Nat) * t % (2 ^ (l + w) : Nat)).toNat / 2 ^ l = (t % (2 ^ w : Nat)).toNat := by
    rw [Nat.pow_add, Int.natCast_mul, Int.mul_emod_mul_of_pos _ _ (by positivity), Int.toNat_mul (by positivity)
      (Int.emod_nonneg _ (by positivity)), Int.toNat_natCast, Nat.mul_div_cancel_left _ (Nat.two_pow_pos _)]
  rw [hhigh, signedOf_emod hw (le_of_mul_le_mul_left (by linarith) hpos) (lt_of_mul_lt_mul_left hhi hpos.le), mul_comm]

end Sys2Proof.Machine
end

section
/-!
SUPPORT. The partial record of an exact accumulator: which limbs of the sum field it carries, and how it is read (R214, R218).
-/
namespace Sys2Proof.Machine

/-- The sum field of an accumulator of `n` limbs, as the bits it holds (R214). -/
def Acc.field (n : Nat) (a : Acc) : Nat := (a.sum % (2 ^ (64 * n) : Nat)).toNat

/-- The status bits of an accumulator as a number (R214). -/
def Acc.status (a : Acc) : Nat := b2n a.nan + 2 * b2n a.pinf + 4 * b2n a.ninf + 8 * b2n a.nnz

/-- The first 8 bytes of a record: status, limbs sent and index of the lowest (R218). -/
def recordHead (st cnt lo : Nat) : Nat := st * 2 ^ 48 + cnt * 2 ^ 52 + lo * 2 ^ 58

/-- The lowest limb of a field that is not zero. -/
def lowLimb (n m : Nat) : Nat := ((List.range n).find? fun k => m / 2 ^ (64 * k) % 2 ^ 64 != 0).getD 0

/-- `c` limbs from limb `lo` on stand for all of a field above it. -/
def limbsFit (n m lo c : Nat) : Bool :=
  signedOf (64 * c) (m / 2 ^ (64 * lo)) == signedOf (64 * (n - lo)) (m / 2 ^ (64 * lo))

/-- The least number of limbs that does. -/
def limbCount (n m lo : Nat) : Nat := (((List.range (n - lo)).map (· + 1)).find? (limbsFit n m lo)).getD (n - lo)

theorem Acc.record_of_zero {n : Nat} {a : Acc} (h : a.sum = 0) : a.record n = leBytes 8 (recordHead a.status 0 0) := by
  simp [Acc.record, h, recordHead, Acc.status, leBytes]

theorem Acc.record_of_ne {n : Nat} {a : Acc} (h : a.sum ≠ 0) :
    let lo := lowLimb n (a.field n)
    let cnt := limbCount n (a.field n) lo
    a.record n = leBytes 8 (recordHead a.status cnt lo) ++ leBytes (8 * cnt) (a.field n / 2 ^ (64 * lo)) := by
  simp only [Acc.record, if_neg h]
  rfl

/-! ### The limbs sent -/

section
variable {n m : Nat}

theorem mod_eq_zero_of_limbs {lo : Nat} (h : ∀ k < lo, m / 2 ^ (64 * k) % 2 ^ 64 = 0) : m % 2 ^ (64 * lo) = 0 := by
  induction lo with
  | zero => exact Nat.mod_one m
  | succ lo ih =>
    rw [Nat.mul_succ, Nat.pow_add, Nat.mod_mul, ih fun k hk => h k (Nat.lt_succ_of_lt hk), h lo lo.lt_succ_self, Nat.mul_zero]

/-- The lowest limb sent lies in the field, and only zeros lie below it. -/
theorem lowLimb_spec (hn : 1 ≤ n) : lowLimb n m < n ∧ m % 2 ^ (64 * lowLimb n m) = 0 := by
  rw [lowLimb]
  cases hf : (List.range n).find? fun k => m / 2 ^ (64 * k) % 2 ^ 64 != 0 with
  | none => exact ⟨hn, Nat.mod_one m⟩
  | some lo =>
    obtain ⟨-, hlt, hbelow⟩ := List.find?_range_eq_some.1 hf
    exact ⟨List.mem_range.1 hlt, mod_eq_zero_of_limbs fun k hk => by simpa using hbelow k hk⟩

theorem limbsFit_self (lo : Nat) : limbsFit n m lo (n - lo) = true := beq_self_eq_true _

theorem limbCount_spec {lo : Nat} (hlo : lo < n) :
    1 ≤ limbCount n m lo ∧ limbCount n m lo ≤ n - lo ∧ limbsFit n m lo (limbCount n m lo) = true := by
  rw [limbCount]
  cases hf : ((List.range (n - lo)).map (· + 1)).find? (limbsFit n m lo) with
  | none => exact ⟨Nat.sub_pos_of_lt hlo, le_rfl, limbsFit_self lo⟩
  | some c =>
    have hmem := List.mem_of_find?_eq_some hf
    simp only [List.mem_map, List.mem_range] at hmem
    obtain ⟨k, hk, rfl⟩ := hmem
    exact ⟨Nat.succ_pos k, hk, List.find?_some hf⟩

/-- The limbs from `lo` on, read as signed, give back a sum that has only zeros below them. -/
theorem Acc.sum_of_limbs {a : Acc} {lo : Nat} (hlo : lo < n) (hzero : a.field n % 2 ^ (64 * lo) = 0)
    (hmin : -(2 ^ (64 * n - 1) : Int) ≤ a.sum) (hmax : a.sum < (2 ^ (64 * n - 1) : Int)) :
    signedOf (64 * (n - lo)) (a.field n / 2 ^ (64 * lo)) * (2 ^ (64 * lo) : Nat) = a.sum := by
  have hn : 64 * n = 64 * lo + 64 * (n - lo) := by omega
  rw [Acc.field, hn] at hzero ⊢
  rw [hn, Nat.add_sub_assoc (by omega)] at hmin hmax
  exact signedOf_div (by omega) hzero hmin hmax

/-- What a record of the sum carries, and that it stands for the sum. -/
theorem Acc.record_carries {a : Acc} (hn : 1 ≤ n) (hmin : -(2 ^ (64 * n - 1) : Int) ≤ a.sum)
    (hmax : a.sum < (2 ^ (64 * n - 1) : Int)) :
    ∃ lo cnt v, lo + cnt ≤ n ∧ a.record n = leBytes 8 (recordHead a.status cnt lo) ++ leBytes (8 * cnt) v ∧
      (if cnt = 0 then 0 else signedOf (64 * cnt) v * (2 ^ (64 * lo) : Nat)) = a.sum := by
  by_cases h : a.sum = 0
  · exact ⟨0, 0, 0, Nat.zero_le n, by simp [Acc.record_of_zero h, leBytes], by simp [h]⟩
  · obtain ⟨hlo, hzero⟩ := lowLimb_spec (m := a.field n) hn
    obtain ⟨hpos, hle, hfit⟩ := limbCount_spec (m := a.field n) hlo
    refine ⟨_, _, _, by omega, Acc.record_of_ne h, ?_⟩
    rw [if_neg (by omega), beq_iff_eq.1 hfit, Acc.sum_of_limbs hlo hzero hmin hmax]

end

/-! ### Reading -/

section
variable {st cnt lo : Nat}

theorem recordHead_lt (hst : st < 16) (hcnt : cnt < 64) (hlo : lo < 64) : recordHead st cnt lo < 2 ^ 64 := by
  rw [recordHead]; omega

theorem recordHead_lo (hst : st < 16) (hcnt : cnt < 64) (hlo : lo < 64) : bitsOf (recordHead st cnt lo) 63 58 = lo := by
  rw [bitsOf, recordHead]; omega

theorem recordHead_cnt (hst : st < 16) (hcnt : cnt < 64) : bitsOf (recordHead st cnt lo) 57 52 = cnt := by
  rw [bitsOf, recordHead]; omega

theorem bitOf_recordHead (hst : st < 16) (k : Nat) (hk : k < 4) : bitOf (recordHead st cnt lo) (48 + k) = bitOf st k := by
  have hlow : recordHead st cnt lo = 2 ^ 48 * (2 ^ 4 * (cnt + lo * 2 ^ 6) + st) + 0 := by rw [recordHead]; omega
  rw [bitOf, hlow, Nat.testBit_two_pow_mul_add _ (Nat.two_pow_pos 48), if_neg (by omega), Nat.add_sub_cancel_left,
    Nat.testBit_two_pow_mul_add _ (by omega), if_pos hk, bitOf]

end

theorem Acc.status_lt (a : Acc) : a.status < 16 :=
  (by decide : ∀ w x y z, b2n w + 2 * b2n x + 4 * b2n y + 8 * b2n z < 16) a.nan a.pinf a.ninf a.nnz

theorem bitOf_status (a : Acc) : bitOf a.status 0 = a.nan ∧ bitOf a.status 1 = a.pinf ∧ bitOf a.status 2 = a.ninf ∧
    bitOf a.status 3 = a.nnz :=
  (by decide : ∀ w x y z, let st := b2n w + 2 * b2n x + 4 * b2n y + 8 * b2n z
    bitOf st 0 = w ∧ bitOf st 1 = x ∧ bitOf st 2 = y ∧ bitOf st 3 = z) a.nan a.pinf a.ninf a.nnz

/-- A record reads back as the status in its head and the sum of its limbs, with the bytes that follow it. -/
theorem readRecord_of_head {n lo cnt : Nat} (a : Acc) (v : Nat) (rest : List Byte) (hn : n ≤ 34) (hfit : lo + cnt ≤ n)
    (hsum : (if cnt = 0 then 0 else signedOf (64 * cnt) v * (2 ^ (64 * lo) : Nat)) = a.sum) :
    readRecord n (leBytes 8 (recordHead a.status cnt lo) ++ leBytes (8 * cnt) v ++ rest) = some (a, rest) := by
  have hst := a.status_lt
  have hcnt : cnt < 64 := by omega
  have hlo : lo < 64 := by omega
  have hhead : ofLE (leBytes 8 (recordHead a.status cnt lo)) = recordHead a.status cnt lo := by
    rw [ofLE_leBytes, Nat.mod_eq_of_lt (recordHead_lt hst hcnt hlo)]
  have hlimbs : (if cnt = 0 then 0 else signedOf (64 * cnt) (ofLE (leBytes (8 * cnt) v)) * (2 ^ (64 * lo) : Nat)) = a.sum := by
    rw [← hsum, ofLE_leBytes, ← Nat.mul_assoc]
    split
    · rfl
    · rw [signedOf_mod (by omega)]
  obtain ⟨hnan, hpinf, hninf, hnnz⟩ := bitOf_status a
  rw [readRecord]
  simp only [List.append_assoc, List.take_left' (leBytes_length 8 _), List.drop_left' (leBytes_length 8 _), hhead,
    recordHead_lo hst hcnt hlo, recordHead_cnt hst hcnt, ← List.drop_drop, List.take_left' (leBytes_length (8 * cnt) _),
    List.drop_left' (leBytes_length (8 * cnt) _), hlimbs]
  rw [if_neg (by simp; omega), bitOf_recordHead hst 0 (by omega), bitOf_recordHead hst 1 (by omega),
    bitOf_recordHead hst 2 (by omega), bitOf_recordHead hst 3 (by omega), hnan, hpinf, hninf, hnnz]

/-- Settles O42: the limbs sent stand for the sum, and a record of limbs that do reads back. -/
theorem partialRecordsReadBack : Obligations.PartialRecordsReadBack := by
  intro n a rest hn hn34 hmin hmax
  obtain ⟨lo, cnt, v, hfit, hrec, hsum⟩ := Acc.record_carries hn hmin hmax
  rw [hrec]
  refine ⟨readRecord_of_head a v rest hn34 hfit hsum, ?_⟩
  rw [List.take_left' (leBytes_length 8 _), ofLE_leBytes,
    Nat.mod_eq_of_lt (recordHead_lt a.status_lt (by omega) (by omega)), recordHead_cnt a.status_lt (by omega)]
  simp

end Sys2Proof.Machine
end

section
/-!
SUPPORT. The rounding of an exact sum to a format, and the value that each pattern of bits stands for (R214 to R216).
-/
namespace Sys2Proof.Machine

/-! ### Accumulators combine (R215) -/

theorem Acc.add_comm (a b : Acc) : a.add b = b.add a := by
  simp [Acc.add, Int.add_comm, Bool.or_comm]

theorem Acc.add_assoc (a b c : Acc) : (a.add b).add c = a.add (b.add c) := by
  simp [Acc.add, Int.add_assoc, Bool.or_assoc]

theorem Acc.add_right_comm (a b c : Acc) : (a.add b).add c = (a.add c).add b := by
  rw [Acc.add_assoc, Acc.add_comm b, Acc.add_assoc]

theorem Acc.foldl_add_perm {l l' : List Acc} (h : l.Perm l') (a : Acc) : l.foldl Acc.add a = l'.foldl Acc.add a :=
  h.foldl_eq (rcomm := ⟨Acc.add_right_comm⟩) a

/-! ### The value of a pattern of bits -/

/-- The magnitude that a biased exponent and a fraction stand for, in units of the smallest subnormal (R215). -/
def FloatFmt.value (f : FloatFmt) (b : Nat) : Nat :=
  if b / 2 ^ (f.p - 1) = 0 then b % 2 ^ (f.p - 1) else (2 ^ (f.p - 1) + b % 2 ^ (f.p - 1)) * 2 ^ (b / 2 ^ (f.p - 1) - 1)

section
variable {f : FloatFmt} (hp : 1 ≤ f.p)
include hp

theorem FloatFmt.two_pow_p : 2 ^ f.p = 2 * 2 ^ (f.p - 1) := by
  rw [← Nat.pow_succ', Nat.succ_eq_add_one, Nat.sub_add_cancel hp]

/-- A significand `q` at the place `k` stands for `q · 2^k`; one that a carry made 2^p moves into the next exponent. -/
theorem FloatFmt.value_of_significand {k q : Nat} (hq : q ≤ 2 ^ f.p) (hk : k = 0 ∨ 2 ^ (f.p - 1) ≤ q) :
    f.value (k * 2 ^ (f.p - 1) + q) = q * 2 ^ k := by
  rw [FloatFmt.two_pow_p hp] at hq
  have hpos := Nat.two_pow_pos (f.p - 1)
  rw [FloatFmt.value, Nat.mul_add_mod_self_right, Nat.add_comm, Nat.add_mul_div_right _ _ hpos]
  generalize 2 ^ (f.p - 1) = P at *
  rcases Nat.lt_or_ge q P with hsub | hnorm
  · obtain rfl : k = 0 := hk.resolve_right (Nat.not_le.2 hsub)
    simp [Nat.div_eq_of_lt hsub, Nat.mod_eq_of_lt hsub]
  · obtain ⟨r, rfl⟩ := Nat.exists_eq_add_of_le hnorm
    rcases Nat.lt_or_ge r P with hr | hr
    · rw [Nat.add_div_left _ hpos, Nat.div_eq_of_lt hr, Nat.add_mod_left, Nat.mod_eq_of_lt hr]
      simp
    · obtain rfl : r = P := by omega
      rw [← Nat.two_mul, Nat.mul_div_cancel _ hpos, Nat.mul_mod_left]
      simp [Nat.pow_succ, Nat.add_comm 2]
      ring

/-- Every pattern of bits is a significand at a place. -/
theorem FloatFmt.exists_significand (b : Nat) :
    ∃ k q, b = k * 2 ^ (f.p - 1) + q ∧ q < 2 ^ f.p ∧ (k = 0 ∨ 2 ^ (f.p - 1) ≤ q) := by
  rw [FloatFmt.two_pow_p hp]
  have hsplit := Nat.div_add_mod' b (2 ^ (f.p - 1))
  have hfrac := Nat.mod_lt b (Nat.two_pow_pos (f.p - 1))
  cases he : b / 2 ^ (f.p - 1) with
  | zero => exact ⟨0, b, by omega, by rw [he] at hsplit; omega, .inl rfl⟩
  | succ k =>
    rw [he, Nat.succ_mul, Nat.add_assoc] at hsplit
    exact ⟨k, _, hsplit.symm, by omega, .inr (Nat.le_add_right _ _)⟩

/-- Only zero bits have the value 0. -/
theorem FloatFmt.eq_zero_of_value {b : Nat} (h : f.value b = 0) : b = 0 := by
  obtain ⟨k, q, rfl, hq, hk⟩ := FloatFmt.exists_significand hp b
  rw [FloatFmt.value_of_significand hp hq.le hk] at h
  obtain rfl : q = 0 := (Nat.mul_eq_zero.1 h).resolve_right (Nat.two_pow_pos k).ne'
  obtain rfl : k = 0 := hk.resolve_right (Nat.not_le.2 (Nat.two_pow_pos _))
  simp

end

/-! ### Rounding (R216) -/

/-- The bits that a magnitude has beyond the significand. -/
def FloatFmt.shift (f : FloatFmt) (m : Nat) : Nat := Nat.log2 m + 1 - f.p

/-- A significand `q` with the `k` bits `r` below it is rounded up: past the half, or at it to even. -/
def roundsUp (k q r : Nat) : Bool := k != 0 && (2 ^ (k - 1) < r || (r == 2 ^ (k - 1) && q % 2 == 1))

theorem half_le_of_roundsUp {k q r : Nat} (h : roundsUp (k + 1) q r = true) : 2 ^ k ≤ r := by
  simp [roundsUp] at h
  omega

theorem le_half_of_not_roundsUp {k q r : Nat} (h : roundsUp (k + 1) q r = false) : r ≤ 2 ^ k := by
  simp [roundsUp] at h
  omega

/-- The significand that a magnitude is rounded to. -/
def FloatFmt.significand (f : FloatFmt) (m : Nat) : Nat :=
  m / 2 ^ f.shift m + b2n (roundsUp (f.shift m) (m / 2 ^ f.shift m) (m % 2 ^ f.shift m))

section
variable {f : FloatFmt} (hp : 1 ≤ f.p)

include hp in
/-- Rounding is to the significand and its place, with what is too large an infinity. -/
theorem FloatFmt.roundMag_eq (m : Nat) : f.roundMag 0 m =
    let bits := f.shift m * 2 ^ (f.p - 1) + f.significand m
    if f.emax * 2 ^ (f.p - 1) ≤ bits then f.emax * 2 ^ (f.p - 1) else bits := by
  have hshift : (if Nat.log2 m < 0 + f.p - 1 then 0 else Nat.log2 m + 1 - f.p) = f.shift m := by
    rw [FloatFmt.shift]
    split <;> omega
  simp only [FloatFmt.roundMag, hshift]
  rfl

theorem FloatFmt.significand_of_shift_zero {m : Nat} (hk : f.shift m = 0) : f.significand m = m := by
  simp [FloatFmt.significand, hk, roundsUp, b2n]

/-- The rounded significand is off by at most half of its last place. -/
theorem FloatFmt.significand_near (f : FloatFmt) (m : Nat) :
    let v := f.significand m * 2 ^ f.shift m
    2 * (m - v) ≤ 2 ^ f.shift m ∧ 2 * (v - m) ≤ 2 ^ f.shift m := by
  intro v
  cases hk : f.shift m with
  | zero => simp [v, hk, FloatFmt.significand_of_shift_zero hk]
  | succ k =>
    have hsplit := Nat.div_add_mod' m (2 ^ (k + 1))
    have hlow := Nat.mod_lt m (Nat.two_pow_pos (k + 1))
    rw [show v = f.significand m * 2 ^ (k + 1) by rw [← hk], FloatFmt.significand, hk, Nat.add_mul]
    rw [Nat.pow_succ] at *
    cases hr : roundsUp (k + 1) (m / (2 ^ k * 2)) (m % (2 ^ k * 2)) with
    | true =>
      have := half_le_of_roundsUp hr
      simp only [b2n, if_true]
      omega
    | false =>
      have := le_half_of_not_roundsUp hr
      simp only [b2n, Bool.false_eq_true, if_false]
      omega

include hp in
/-- The rounded significand fills its bits, unless the magnitude has too few. -/
theorem FloatFmt.significand_range {m : Nat} (hm : m ≠ 0) :
    f.significand m ≤ 2 ^ f.p ∧ (f.shift m = 0 ∨ 2 ^ (f.p - 1) ≤ f.significand m) := by
  have hlt : m < 2 ^ (Nat.log2 m + 1) := Nat.lt_log2_self
  have hle : 2 ^ Nat.log2 m ≤ m := Nat.log2_self_le hm
  have hb : ∀ b, b2n b ≤ 1 := by decide
  have hq : m / 2 ^ f.shift m < 2 ^ f.p := by
    rw [Nat.div_lt_iff_lt_mul (Nat.two_pow_pos _), ← Nat.pow_add]
    exact hlt.trans_le (Nat.pow_le_pow_right (by omega) (by rw [FloatFmt.shift]; omega))
  refine ⟨(Nat.add_le_add_left (hb _) _).trans hq, ?_⟩
  by_cases hk : f.shift m = 0
  · exact .inl hk
  · refine .inr (le_trans ?_ (Nat.le_add_right _ _))
    rw [Nat.le_div_iff_mul_le (Nat.two_pow_pos _), ← Nat.pow_add]
    exact le_trans (Nat.pow_le_pow_right (by omega) (by rw [FloatFmt.shift] at *; omega)) hle

include hp in
/-- A magnitude that does not overflow rounds to the bits of its significand at its place. -/
theorem FloatFmt.value_roundMag {m : Nat} (hm : m ≠ 0) (hfits : f.roundMag 0 m / 2 ^ (f.p - 1) < f.emax) :
    f.value (f.roundMag 0 m) = f.significand m * 2 ^ f.shift m := by
  rw [Nat.div_lt_iff_lt_mul (Nat.two_pow_pos _)] at hfits
  have hbits : f.roundMag 0 m = f.shift m * 2 ^ (f.p - 1) + f.significand m := by
    rw [FloatFmt.roundMag_eq hp] at hfits ⊢
    exact if_neg fun hover => by simp [hover] at hfits
  obtain ⟨hq, hk⟩ := FloatFmt.significand_range hp hm
  rw [hbits, FloatFmt.value_of_significand hp hq hk]

include hp in
/-- A significand at a place keeps that place. -/
theorem FloatFmt.shift_of_significand {k q : Nat} (hq : q < 2 ^ f.p) (hk : k = 0 ∨ 2 ^ (f.p - 1) ≤ q) :
    f.shift (q * 2 ^ k) = k := by
  rw [FloatFmt.shift]
  rcases hk with rfl | hnorm
  · by_cases hzero : q = 0
    · simp [hzero, hp]
    · have := (Nat.log2_lt hzero).2 hq
      simp; omega
  · have hne : q ≠ 0 := (Nat.lt_of_lt_of_le (Nat.two_pow_pos _) hnorm).ne'
    have hlog : Nat.log2 (q * 2 ^ k) = f.p - 1 + k := by
      rw [Nat.log2_eq_iff (by positivity), Nat.pow_add, show f.p - 1 + k + 1 = f.p + k by omega, Nat.pow_add]
      exact ⟨Nat.mul_le_mul_right _ hnorm, Nat.mul_lt_mul_of_pos_right hq (Nat.two_pow_pos k)⟩
    omega

include hp in
/-- The value of finite bits rounds to these bits. -/
theorem FloatFmt.roundMag_value {b : Nat} (hb : b < f.emax * 2 ^ (f.p - 1)) : f.roundMag 0 (f.value b) = b := by
  obtain ⟨k, q, rfl, hq, hk⟩ := FloatFmt.exists_significand hp b
  have hshift := FloatFmt.shift_of_significand hp hq hk
  have hsig : f.significand (q * 2 ^ k) = q := by
    rw [FloatFmt.significand, hshift, Nat.mul_div_cancel _ (Nat.two_pow_pos k), Nat.mul_mod_left]
    simp [roundsUp, b2n, (Nat.two_pow_pos (k - 1)).ne]
  rw [FloatFmt.value_of_significand hp hq.le hk, FloatFmt.roundMag_eq hp, hshift, hsig]
  exact if_neg (Nat.not_le.2 hb)

end

/-! ### One value alone (R215, R216) -/

section
variable {f : FloatFmt} {x : Nat}

theorem FloatFmt.exp_eq (heb : 1 ≤ f.eb) : f.exp x = x % 2 ^ f.mag / 2 ^ (f.p - 1) := by
  rw [FloatFmt.exp, bitsOf, FloatFmt.mag, Nat.pow_add, Nat.mod_mul_right_div_self]
  congr 2
  omega

theorem FloatFmt.frac_eq : f.frac x = x % 2 ^ f.mag % 2 ^ (f.p - 1) :=
  (Nat.mod_mod_of_dvd _ (Nat.pow_dvd_pow 2 (Nat.le_add_right _ _))).symm

theorem FloatFmt.exp_le (heb : 1 ≤ f.eb) : f.exp x ≤ f.emax := by
  rw [FloatFmt.exp_eq heb, FloatFmt.emax]
  apply Nat.le_sub_one_of_lt
  rw [Nat.div_lt_iff_lt_mul (Nat.two_pow_pos _), ← Nat.pow_add, Nat.add_comm f.eb]
  exact Nat.mod_lt _ (Nat.two_pow_pos _)

/-- A pattern is its sign on its exponent and fraction. -/
theorem FloatFmt.withSign_sign (hx : x < 2 ^ (f.mag + 1)) : f.withSign (f.sign x) (x % 2 ^ f.mag) = x := by
  have hsign : b2n (f.sign x) = x / 2 ^ f.mag := by
    have hbit : x / 2 ^ f.mag < 2 := by rwa [Nat.div_lt_iff_lt_mul (Nat.two_pow_pos _), ← Nat.pow_succ']
    rw [FloatFmt.sign, bitOf, Nat.testBit_eq_decide_div_mod_eq, Nat.mod_eq_of_lt hbit, b2n]
    generalize x / 2 ^ f.mag = e at hbit
    interval_cases e <;> rfl
  rw [FloatFmt.withSign, hsign, Nat.mod_add_div']

variable (heb : 1 ≤ f.eb)
include heb

/-- What is not an infinity or a NaN enters with its value and sign, and no status but nonneg_zero. -/
theorem FloatFmt.toAcc_of_finite (he : f.exp x ≠ f.emax) : f.toAcc x =
    ⟨if f.sign x then -(f.value (x % 2 ^ f.mag) : Int) else f.value (x % 2 ^ f.mag), false, false, false,
      !(f.sign x && f.exp x == 0 && f.frac x == 0)⟩ := by
  simp only [FloatFmt.toAcc, FloatFmt.value, FloatFmt.isNan, ← FloatFmt.exp_eq heb, ← FloatFmt.frac_eq,
    beq_eq_false_iff_ne.2 he, Bool.false_and, Bool.false_eq_true, if_false]

/-- A finite value leaves as it came: a zero by its sign, every other by the rounding of its magnitude. -/
theorem FloatFmt.round_of_finite (hp : 1 ≤ f.p) (hx : x < 2 ^ (f.mag + 1)) (he : f.exp x ≠ f.emax) :
    f.round 0 (f.toAcc x) = x := by
  have hsigned := FloatFmt.withSign_sign hx
  have hfits : x % 2 ^ f.mag < f.emax * 2 ^ (f.p - 1) := by
    rw [← Nat.div_lt_iff_lt_mul (Nat.two_pow_pos _), ← FloatFmt.exp_eq heb]
    exact Nat.lt_of_le_of_ne (FloatFmt.exp_le heb) he
  have hround := FloatFmt.roundMag_value hp hfits
  rw [FloatFmt.toAcc_of_finite heb he, FloatFmt.exp_eq heb, FloatFmt.frac_eq]
  generalize x % 2 ^ f.mag = b at *
  by_cases hb : b = 0
  · cases hs : f.sign x <;> simpa [FloatFmt.round, FloatFmt.value, hb, hs] using hsigned
  · have hv : 0 < f.value b := Nat.pos_of_ne_zero fun h => hb (FloatFmt.eq_zero_of_value hp h)
    have hnonneg : ¬(f.value b : Int) < 0 := (Int.natCast_nonneg _).not_gt
    cases hs : f.sign x <;> rw [hs] at hsigned <;> simpa [FloatFmt.round, hv, hv.ne', hround, hnonneg] using hsigned

/-- An infinity leaves as it came. -/
theorem FloatFmt.round_of_infinite (hx : x < 2 ^ (f.mag + 1)) (he : f.exp x = f.emax) (hfrac : f.frac x = 0) :
    f.round 0 (f.toAcc x) = x := by
  have hmag : f.emax * 2 ^ (f.p - 1) = x % 2 ^ f.mag := by
    rw [← he, FloatFmt.exp_eq heb, Nat.div_mul_cancel (Nat.dvd_of_mod_eq_zero (FloatFmt.frac_eq.symm.trans hfrac))]
  have hsigned := FloatFmt.withSign_sign hx
  cases hs : f.sign x <;> rw [hs] at hsigned <;>
    simpa [FloatFmt.round, FloatFmt.toAcc, FloatFmt.isNan, he, hfrac, hs, hmag, FloatFmt.withSign, b2n] using hsigned

omit heb in
theorem FloatFmt.round_of_nan (h : f.isNan x = true) : f.round 0 (f.toAcc x) = f.canon := by
  simp [FloatFmt.round, FloatFmt.toAcc, h]

/-- One value leaves as itself, and a NaN as the canonical one. -/
theorem FloatFmt.round_toAcc (hp : 1 ≤ f.p) (hx : x < 2 ^ (f.mag + 1)) :
    f.round 0 (f.toAcc x) = if f.isNan x then f.canon else x := by
  by_cases he : f.exp x = f.emax
  · by_cases hfrac : f.frac x = 0
    · simp [FloatFmt.round_of_infinite heb hx he hfrac, FloatFmt.isNan, hfrac]
    · have hnan : f.isNan x = true := by simp [FloatFmt.isNan, he, hfrac]
      rw [FloatFmt.round_of_nan hnan, if_pos hnan]
  · simp [FloatFmt.round_of_finite heb hp hx he, FloatFmt.isNan, he]

end

/-- The formats of R211 have a significand and an exponent. -/
theorem fmts_have_fields : ∀ f ∈ [fmt64, fmt32, fmt16, fmtB16], 1 ≤ f.p ∧ 1 ≤ f.eb := by decide

/-- Settles O41: addition of accumulators is commutative and associative, a finite value is the significand at the place that
its own rounding finds, and the rounded significand is off by at most half. -/
theorem exactSumsDependOnTheirTermsAlone : Obligations.ExactSumsDependOnTheirTermsAlone := by
  refine ⟨fun a b c => ⟨a.add_comm b, a.add_assoc b c⟩, fun l l' a h => Acc.foldl_add_perm h a, fun f hf x hx => ?lone,
    fun f hf m hm => ?nearest, ?worked⟩
  case lone => exact FloatFmt.round_toAcc (fmts_have_fields f hf).2 (fmts_have_fields f hf).1 hx
  case nearest =>
    intro b e v hfits
    have hv : v = f.significand m * 2 ^ f.shift m := FloatFmt.value_roundMag (fmts_have_fields f hf).1 hm.ne' hfits
    rw [hv]
    exact f.significand_near m
  case worked => decide +kernel

end Sys2Proof.Machine
end

section
/-!
SUPPORT. Cascade packets at CSC: the entrance of each type, and what a packet does with its collective or without one (R220, R221,
R224 to R226).
-/
namespace Sys2Proof.Machine

/-- The commands of Cascade packets, each with the type that it takes (R220). -/
def cascadeCommands (p : Packet) : List (Instr × Nat) :=
  [(.cscDataArrival p, 0), (.rerequestArrival p, 1), (.stepEndArrival p, 2), (.abortArrival p, 3)]

theorem xCtype_of_cascadeCommand {p : Packet} {i : Instr} {t : Nat} (hi : (i, t) ∈ cascadeCommands p) : t < 4 := by
  simp only [cascadeCommands, List.mem_cons, Prod.mk.injEq, List.not_mem_nil, or_false] at hi
  omega

section
variable {p : Packet} {s : State} (hp : pType p = 8)
include hp

/-- A Cascade packet comes to CSC by one entrance, each type by its own command. -/
theorem exec_cascadeArrival {i : Instr} (hi : (i, xCtype p) ∈ cascadeCommands p) :
    exec i s = .next ((s.arrive p true fun u => u.cscArrive p).done s) := by
  simp only [cascadeCommands, List.mem_cons, Prod.mk.injEq, List.not_mem_nil, or_false] at hi
  rcases hi with ⟨rfl, ht⟩ | ⟨rfl, ht⟩ | ⟨rfl, ht⟩ | ⟨rfl, ht⟩ <;>
    exact next_done_congr (by simp only [hp, ht, isCascade]; rfl)

/-- A packet of a reserved type comes by the entrance of data. -/
theorem exec_cscDataArrival_reserved (ht : 4 ≤ xCtype p) :
    exec (.cscDataArrival p) s = .next ((s.arrive p true fun u => u.cscArrive p).done s) :=
  next_done_congr (by rw [hp, decide_eq_true ht, Bool.or_true]; rfl)

/-- Of Cascade packets only a re-request needs room for an answer (R243). -/
theorem State.answerFull_of_cascade (ht : xCtype p ≠ 1) : s.answerFull p = none := by
  simp [State.answerFull, requestTo, hp, ht]

end

/-! ### At the entrance (R220, R232) -/

section
variable {s : State} {p : Packet}

theorem State.cscArrive_in_setup (hs : s.inSetup 7 = true) : s.cscArrive p = s.dropEarly := by
  simp [State.cscArrive, hs]

theorem State.cscArrive_reserved (ht : 4 ≤ xCtype p) :
    s.cscArrive p = if s.inSetup 7 then s.dropEarly else s.badFormat := by
  simp [State.cscArrive, ht]

theorem State.cscArrive_active {i : CscInst} (hs : s.inSetup 7 = false) (ht : xCtype p < 4) (hi : s.instOf p = some i) :
    s.cscArrive p = s.cscAct i p := by
  simp [State.cscArrive, hs, Nat.not_le.2 ht, hi]

theorem State.cscArrive_alone (hs : s.inSetup 7 = false) (ht : xCtype p < 4) (hi : s.instOf p = none) :
    s.cscArrive p = s.cscEarly p := by
  simp [State.cscArrive, hs, Nat.not_le.2 ht, hi]

/-! ### With an active collective (R221, R225, R226) -/

section
variable {i : CscInst}

theorem State.cscAct_abort (ht : xCtype p = 3) :
    s.cscAct i p = s.abortInst i (bitsOf (xFirst p) 7 0) (bitsOf (xFirst p) 15 8) (some (xCdim p)) := by
  simp [State.cscAct, ht]

theorem State.cscAct_mismatch (ht : xCtype p ≠ 3) (hsig : xSig p ≠ i.signature) :
    s.cscAct i p = s.abortInst i 0x18 6 none := by
  simp [State.cscAct, ht, hsig]

section
variable (hsig : xSig p = i.signature)
include hsig

theorem State.cscAct_data (ht : xCtype p = 0) : s.cscAct i p = s.dataFor i p := by
  simp [State.cscAct, ht, hsig]

theorem State.cscAct_rerequest (ht : xCtype p = 1) : s.cscAct i p = s.againFor i p := by
  simp [State.cscAct, ht, hsig]

theorem State.cscAct_stepEnd (ht : xCtype p = 2) : s.cscAct i p = s.endFor i p := by
  simp [State.cscAct, ht, hsig]

end

/-! ### Data for a segment-step that needs it (R221, R225) -/

section
variable {st : CscKind × Nat} (hst : i.steps[xStep p]? = some st) (hdim : st.2 = xCdim p) (htakes : s.takesPart i st = true)
  (hfrom : xMember p ∈ s.recvFrom i st)
include hst hdim htakes hfrom

theorem State.dataFor_ended (hd : (i.segAt (xStep p) (xSeg p)).done = true) :
    s.dataFor i p = s.stepEnd i (xStep p) (xSeg p) st [xMember p] := by
  simp [State.dataFor, hst, hdim, htakes, hfrom, hd]

section
variable {es : List CscElem} (hd : (i.segAt (xStep p) (xSeg p)).done = false)
  (hnew : (i.segAt (xStep p) (xSeg p)).attempt % 256 ≤ xAttempt p)
  (hes : readElems i.desc (i.partial? (xStep p)) (xNelem p) p.bytes = some es)
include hd hnew hes

/-- Each member's data for a place enters at most once. -/
theorem State.dataFor_again (hgot : ∃ q ∈ (i.segAt (xStep p) (xSeg p)).got, q.member = xMember p ∧ q.first = xFirst p) :
    s.dataFor i p = s := by
  simp [State.dataFor, hst, hdim, htakes, hfrom, hd, Nat.not_lt.2 hnew, hes, hgot]

theorem State.dataFor_enters
    (hgot : ∀ q ∈ (i.segAt (xStep p) (xSeg p)).got, ¬(q.member = xMember p ∧ q.first = xFirst p)) :
    let g := i.segAt (xStep p) (xSeg p)
    s.dataFor i p = (s.setInst (i.setSeg { g with got := g.got ++ [⟨xMember p, xFirst p, es⟩] })).cscGo i.ref := by
  have hfresh : ((i.segAt (xStep p) (xSeg p)).got.any fun q => q.member == xMember p && q.first == xFirst p) = false := by
    simpa using hgot
  simp [State.dataFor, hst, hdim, htakes, hfrom, hd, Nat.not_lt.2 hnew, hes, hfresh]

end

end

end

/-! ### Without an active collective (R224) -/

section
variable (hdim : xCdim p < 3)
include hdim

/-- Of what belongs to a collective that has completed, data is answered, and nothing else. -/
theorem State.cscEarly_behind (ha : 2 ^ 31 ≤ s.seqAhead p) :
    s.cscEarly p = if xCtype p = 0 then s.answerEnd p else s :=
  (if_neg (Nat.not_le.2 hdim)).trans (if_pos ha)

section
variable (ha : s.seqAhead p < 2 ^ 31)
include ha

theorem State.cscEarly_ignored (ht : xCtype p = 1 ∨ xCtype p = 2) : s.cscEarly p = s :=
  (if_neg (Nat.not_le.2 hdim)).trans ((if_neg (Nat.not_le.2 ha)).trans (if_pos ht))

section
variable (ht : xCtype p = 0 ∨ xCtype p = 3)
include ht

theorem State.cscEarly_ahead : s.cscEarly p =
    if s.seqAhead p < 16 && s.earlyRoom p then { s with csc := { s.csc with early := s.csc.early ++ [p] } } else s.dropEarly :=
  (if_neg (Nat.not_le.2 hdim)).trans ((if_neg (Nat.not_le.2 ha)).trans (if_neg (by omega)))

theorem State.cscEarly_kept (hnear : s.seqAhead p < 16) (hroom : s.earlyRoom p = true) :
    s.cscEarly p = { s with csc := { s.csc with early := s.csc.early ++ [p] } } := by
  rw [State.cscEarly_ahead hdim ha ht, decide_eq_true hnear, hroom]
  rfl

theorem State.cscEarly_dropped (h : 16 ≤ s.seqAhead p ∨ s.earlyRoom p = false) :
    s.cscEarly p = s.bump CSC_EARLY_DROP_COUNT.count 0 0 := by
  rw [State.cscEarly_ahead hdim ha ht, if_neg, State.dropEarly]
  rcases h with hfar | hfull
  · simp [Nat.not_lt.2 hfar]
  · simp [hfull]

end

end

end

end

/-- Settles O43: the entrance's outcomes and CSC's classes of a packet that it takes; then what a packet does to its collective
by its type, and what becomes of one without any by how far ahead it lies. -/
theorem cascadePacketsFindTheirInstance : Obligations.CascadePacketsFindTheirInstance := by
  refine ⟨fun p s i hi hp => ?arrival, fun p s hp ht => State.answerFull_of_cascade hp ht,
    fun p s hp ht hn hf => ?reserved, fun s x p => ⟨State.cscAct_abort, State.cscAct_mismatch, State.cscAct_rerequest,
      State.cscAct_stepEnd, fun hsig ht st hst hdim htakes hfrom => ?data⟩, fun s p hdim => ?early⟩
  case arrival =>
    have hexec := exec_cascadeArrival (s := s) hp hi
    have ht := xCtype_of_cascadeCommand hi
    refine ⟨fun hn => ?_, fun hn hf => ?_, fun hn hf b hb => ?_, fun hn hf hb hs => ?_, fun hn hf hb hs => ?_⟩
    · rw [hexec, State.arrive_elsewhere hn]
    · rw [hexec, State.arrive_of_frozen hn hf]
    · rw [hexec, State.arrive_of_answerFull hn hf hb]
    · rw [hexec, State.arrive_taken hn hf hb, State.cscArrive_in_setup hs, State.endArrival]
    · refine ⟨fun x hx => ?_, fun hx => ?_⟩
      · rw [hexec, State.arrive_taken hn hf hb, State.cscArrive_active hs ht hx, State.endArrival]
      · rw [hexec, State.arrive_taken hn hf hb, State.cscArrive_alone hs ht hx, State.endArrival]
  case reserved =>
    have hroom := State.answerFull_of_cascade (s := s.takeDelivered p) hp (by omega)
    rw [exec_cscDataArrival_reserved hp ht, State.arrive_taken hn hf hroom, State.cscArrive_reserved ht, State.endArrival]
  case data =>
    rw [State.cscAct_data hsig ht]
    exact ⟨State.dataFor_ended hst hdim htakes hfrom, fun hd hnew es hes =>
      ⟨State.dataFor_again hst hdim htakes hfrom hd hnew hes, State.dataFor_enters hst hdim htakes hfrom hd hnew hes⟩⟩
  case early =>
    exact ⟨fun ha ht => (State.cscEarly_behind hdim ha).trans (if_pos ht),
      fun ha ht => (State.cscEarly_behind hdim ha).trans (if_neg ht), State.cscEarly_ignored hdim,
      fun hnear ht hroom => State.cscEarly_kept hdim (by omega) ht hnear hroom, State.cscEarly_dropped hdim⟩

end Sys2Proof.Machine
end

section
/-!
SUPPORT. What a collective does as time passes: the re-request timer of a segment-step, and the start of what waits for staging
(R223, R225).
-/
namespace Sys2Proof.Machine

section
variable {s : State} {i : CscInst} {t g : Nat} {st : CscKind × Nat}

/-! ### Re-requests (R225) -/

/-- The timer of a segment-step that runs acts at the interval's end. -/
theorem State.rereqEnd_running {h : HandleRef} (hi : s.inst? h = some i) (hst : i.steps[t]? = some st)
    (hbegun : (i.segAt t g).started = true) (hopen : (i.segAt t g).done = false) :
    s.rereqEnd h t g = (s.advance ((i.segAt t g).startAt + s.rereqPs)).rerequest i t g st := by
  simp [State.rereqEnd, hi, hst, hbegun, hopen, State.due_eq]

theorem State.rerequest_complete (hm : s.missing i t g st = []) : s.rerequest i t g st = s := by
  simp [State.rerequest, hm]

/-- What is missing is asked for, and the interval begins anew. -/
theorem State.rerequest_missing (hm : s.missing i t g st ≠ []) :
    let v := ((s.setInst (i.setSeg { i.segAt t g with startAt := s.now })).bump CSC_RESTART_COUNT.count 0 0).pmcEv 7 2 0 0 1
    s.rerequest i t g st = v.cscOut st.2 (i.coords st.2 (s.missing i t g st))
      (v.instPkt i st.2 t 1 ((i.segAt t g).attempt % 256) g 0 0 []) := by
  simp [State.rerequest, hm]

/-! ### Staging (R223) -/

section
variable {r : HandleRef} {rest : List HandleRef} {h : Handle} (hw : s.csc.wait = r :: rest) (hh : s.handle? r = some h)
  (n : Nat)
include hw hh

/-- The collective that waits longest keeps the others waiting. -/
theorem State.stagingFreed_full (hroom : s.collRoom (s.newInst h) = false) : s.stagingFreed (n + 1) = s := by
  simp [State.stagingFreed, hw, hh, hroom]

theorem State.stagingFreed_starts (hroom : s.collRoom (s.newInst h) = true) : s.stagingFreed (n + 1) =
    (({ s with csc := { s.csc with wait := rest } } : State).dispatchColl h true).stagingFreed n := by
  simp [State.stagingFreed, hw, hh, hroom]

end

end

/-- Settles O44: the timer acts at its deadline by what is missing then, and staging that frees by whether there is room for
the collective that waits longest. -/
theorem collectivesAskAgainAndStartInOrder : Obligations.CollectivesAskAgainAndStartInOrder := by
  refine ⟨fun h i st t g s hf hi hst hbegun hopen => ?rerequest, fun r rest h s hf hw hh => ?staging⟩
  case rerequest =>
    have hend := State.rereqEnd_running hi hst hbegun hopen
    exact ⟨fun hm => next_of_runs hf (hend.trans (State.rerequest_complete hm)),
      fun hm => next_of_runs hf (hend.trans (State.rerequest_missing hm))⟩
  case staging =>
    have hlen : s.csc.wait.length = rest.length + 1 := by rw [hw, List.length_cons]
    refine ⟨fun hroom => next_of_runs hf ?_, fun hroom => next_of_runs hf ?_⟩
    · rw [hlen, State.stagingFreed_full hw hh _ hroom]
    · rw [hlen, State.stagingFreed_starts hw hh _ hroom]

end Sys2Proof.Machine
end

section
/-!
SUPPORT. RTE's choice among candidates as the least of a list in the lexicographic order of cost and distance from the rotor
(R250).
-/
namespace Sys2Proof.Machine

/-- How far behind the rotor a hop's port comes in the cyclic order of the ports. -/
def State.rotorDistance (s : State) (h : Hop) : Nat := (h.port + 144 - s.rte.rotor % 144) % 144

/-- What RTE minimizes: the cost, and among equal costs the distance from the rotor. -/
def State.hopRank (s : State) (t : Nat) (h : Hop) : ℕ ×ₗ ℕ := toLex (s.hopCost t h, s.rotorDistance h)

section
variable {s : State} {t : Nat} {g h : Hop} {hs : List Hop}

theorem State.hopRank_lt_iff : s.hopRank t g < s.hopRank t h ↔
    (s.hopCost t g < s.hopCost t h || (s.hopCost t g == s.hopCost t h && s.rotorDistance g < s.rotorDistance h)) = true := by
  simp [State.hopRank, Prod.Lex.toLex_lt_toLex]

theorem State.hopRank_le_iff : s.hopRank t g ≤ s.hopRank t h ↔
    s.hopCost t g < s.hopCost t h ∨ s.hopCost t g = s.hopCost t h ∧ s.rotorDistance g ≤ s.rotorDistance h :=
  Prod.Lex.toLex_le_toLex

/-- One step of RTE's search is one step of the library's search for a least element. -/
theorem State.bestHop_eq_argmin (s : State) (t : Nat) (hs : List Hop) : s.bestHop t hs = hs.argmin (s.hopRank t) := by
  unfold State.bestHop
  refine congrArg (fun f => List.foldl f none hs) (funext₂ fun best h => ?_)
  cases best with
  | none => rfl
  | some b => exact if_congr State.hopRank_lt_iff.symm rfl rfl

theorem State.bestHop_eq_none : s.bestHop t hs = none ↔ hs = [] := by
  rw [State.bestHop_eq_argmin, List.argmin_eq_none]

theorem State.bestHop_mem (hb : s.bestHop t hs = some h) : h ∈ hs :=
  List.argmin_mem (s.bestHop_eq_argmin t hs ▸ hb)

theorem State.bestHop_least (hb : s.bestHop t hs = some h) (hg : g ∈ hs) :
    s.hopCost t h < s.hopCost t g ∨ s.hopCost t h = s.hopCost t g ∧ s.rotorDistance h ≤ s.rotorDistance g :=
  State.hopRank_le_iff.1 (List.le_of_mem_argmin hg (s.bestHop_eq_argmin t hs ▸ hb))

end

end Sys2Proof.Machine
end

section
/-!
SUPPORT. What RTE does with the packets that wait, are held, are retained or lack tokens, when their time comes (R242, R251, R255,
R256, R259, R261).
-/
namespace Sys2Proof.Machine

section
variable {s : State} {x : RtePkt}

/-! ### The escape to VC7 (R242, R251, R259) -/

section
variable {id t : Nat} (hx : s.rtePkt id = some x) (hpl : x.place = .waiting t) (hm : x.mcast = none) (hlo : 1 ≤ pVc x.pkt)
  (hhi : pVc x.pkt ≤ 6) {u : State} (hu : s.advance (t + 500 * s.fld RTE_CTL.escape_wait 0 0) = u)
include hx hpl hm hlo hhi hu

theorem State.escapeWait_escapes {h : Hop} (hd : u.decideHop x.pkt = .wait)
    (he : u.escape7 x.pkt (u.routeNode (pEpoch x.pkt) (pDstNode x.pkt)).1 = some h) :
    s.escapeWait id = if (u.lport h.port).hasCredit h.pool then u.takeHop x h else u := by
  simp [State.escapeWait, State.hopOf, hx, hpl, hm, Nat.not_lt.2 hlo, Nat.not_lt.2 hhi, hu, hd, he]

theorem State.escapeWait_routes
    (h : u.decideHop x.pkt ≠ .wait ∨ u.escape7 x.pkt (u.routeNode (pEpoch x.pkt) (pDstNode x.pkt)).1 = none) :
    s.escapeWait id = u.routePkt x := by
  simp only [State.escapeWait, State.hopOf, hx, hpl, hm, Nat.not_lt.2 hlo, Nat.not_lt.2 hhi, hu, Option.isSome_none,
    Bool.false_eq_true, or_self, if_false]
  split
  next hd he => simp [hd, he] at h
  next => rfl

end

/-- A packet of this node that leaves VC1 to VC6 for VC7 without a detour is counted as an escape and as nothing else. -/
theorem State.takeHop_escape {h : Hop} (hlo : 1 ≤ pVc x.pkt) (hhi : pVc x.pkt ≤ 6) (h7 : h.vc = 7) (hsrc : x.src = none)
    (hd : h.detour = none) :
    let u := (s.bump RTE_ESCAPE_COUNT.count 0 0).pmcEv 8 4 0 0 1
    let v := u.setRtePkt { x with pkt := setHop x.pkt 7 none, place := .queued h.port h.pool }
    s.takeHop x h = { v with rte := { v.rte with rotor := (v.rte.rotor + 1) % 144 } } := by
  have hvc0 : pVc x.pkt ≠ 0 := by omega
  simp [State.takeHop, State.samplePkt, hsrc, hd, h7, hlo, hhi, hvc0]

/-! ### Held packets (R256) -/

section
variable {id t : Nat} (hx : s.rtePkt id = some x) (hpl : x.place = .held t)
include hx hpl

theorem State.holdEnd_of_held : s.holdEnd id = ((s.advance (t + s.holdPs)).discardPkt id).fault 8 6 0 := by
  simp [State.holdEnd, hx, hpl]

theorem State.heldRoute_of_held : s.heldRoute id = s.routePkt x := by
  simp [State.heldRoute, hx, hpl]

end

/-! ### Retained packets (R255) -/

theorem PktPlace.keptBy_iff {pl : PktPlace} {p : Nat} : pl.keptBy p = true ↔ ∃ k, pl = .retained p k := by
  cases pl <;> simp [PktPlace.keptBy]

theorem State.retentionEnd_of_down {p : Nat} (hdown : s.portSt p ≠ psLive)
    (hkept : ∃ x ∈ s.rte.pkts, ∃ k, x.place = .retained p k) :
    s.retentionEnd p = (s.advance ((s.lport p).downAt + s.holdPs)).releaseRetained p := by
  have hany : (s.rte.pkts.any fun x => x.place.keptBy p) = true := by
    simpa only [List.any_eq_true, PktPlace.keptBy_iff] using hkept
  simp [State.retentionEnd, hdown, hany]

/-! ### Urgent packets without tokens (R261) -/

/-- Taking tokens changes RTE alone. -/
theorem State.takeTokens_now (u : State) (n : Nat) : (u.takeTokens n).now = u.now :=
  (State.takeTokens_keeps (m := 2097152) n (Keeps.refl u) rfl).same .now rfl

theorem State.takeTokens_stampEpoch (u : State) (n : Nat) (p : Packet) : (u.takeTokens n).stampEpoch p = u.stampEpoch p := by
  have hregs : (u.takeTokens n).regs = u.regs := (State.takeTokens_keeps (m := 2097152) n (Keeps.refl u) rfl).same .regs rfl
  have hfld : (u.takeTokens n).fld RTE_EPOCH.active 0 0 = u.fld RTE_EPOCH.active 0 0 := by
    simp only [State.fld, State.reg, hregs]
  rw [State.stampEpoch, hfld, State.stampEpoch]

section
variable (hx : s.rte.pkts.find? (fun x => x.place == .tokens) = some x)
include hx

theorem State.tokenGrant_of_first {v : State} (hv : (s.advance (s.tokensAt x.total)).takeTokens x.total = v) :
    s.tokenGrant = v.routePkt { x with pkt := v.stampEpoch x.pkt, place := .waiting v.now } := by
  subst hv
  unfold State.tokenGrant
  rw [hx]

/-- The grant takes the tokens first, which changes neither the epoch of the packet's entry nor its time. -/
theorem State.tokenGrant_at {u : State} (hu : s.advance (s.tokensAt x.total) = u) :
    s.tokenGrant = (u.takeTokens x.total).routePkt { x with pkt := u.stampEpoch x.pkt, place := .waiting u.now } := by
  rw [State.tokenGrant_of_first hx rfl, State.takeTokens_stampEpoch, State.takeTokens_now, hu]

end

end

/-- Settles O45: the choice is the least of the candidates in the order of `State.hopRank`, and each timer's command does the work
of its lemma while the data path runs. -/
theorem packetsLeaveBestHopFirstOrWaitOut : Obligations.PacketsLeaveBestHopFirstOrWaitOut := by
  refine ⟨fun s t hs => ⟨State.bestHop_eq_none, fun h hb => ⟨State.bestHop_mem hb, fun g hg => State.bestHop_least hb hg⟩⟩,
    fun id t x s hf hx hpl hm hlo hhi => ?escape, fun s x h => State.takeHop_escape,
    fun id t x s hf hx hpl => ⟨next_of_runs hf (State.holdEnd_of_held hx hpl), next_of_runs hf (State.heldRoute_of_held hx hpl)⟩,
    fun p s hf hdown hkept => next_of_runs hf (State.retentionEnd_of_down hdown hkept),
    fun x s hf hx => next_of_runs hf (State.tokenGrant_at hx rfl), fun id p s hf => ?stopped⟩
  case escape =>
    refine ⟨fun h hd he hc => next_of_runs hf ?_, fun h hd he hc => next_of_runs hf ?_,
      fun h => next_of_runs hf (State.escapeWait_routes hx hpl hm hlo hhi rfl h)⟩
    · exact (State.escapeWait_escapes hx hpl hm hlo hhi rfl hd he).trans (if_pos hc)
    · exact (State.escapeWait_escapes hx hpl hm hlo hhi rfl hd he).trans (if_neg (ne_true_of_eq_false hc))
  case stopped =>
    have idle (f : State → State) : (Host.Outcome.next ((s.ifRuns f).done s) : Res) = .next (s.done s) :=
      next_done_congr (State.ifRuns_of_frozen f hf)
    exact ⟨idle _, idle _, idle _, idle _, idle _⟩

end Sys2Proof.Machine
end

section
/-!
SUPPORT. The rows of line state, as a notice brings them and as the node sends them, and the congestion hints (R250, R253, R265).
-/
namespace Sys2Proof.Machine

section
variable {s : State} {p : Packet}

/-! ### Notices that arrive (R253) -/

theorem exec_lineStateNotice (hp : pType p = 9) :
    exec (.lineStateNotice p) s = .next ((s.arrive p true fun u => u.noticeIn p).done s) :=
  next_done_congr (by rw [hp, beq_self_eq_true])

/-- A notice is not answered: it needs no room for an answer (R243). -/
theorem State.answerFull_of_notice (hp : pType p = 9) : s.answerFull p = none := by
  simp [State.answerFull, requestTo, hp]

theorem State.noticeIn_stored (hd : kget p 1 0 < 3) (he : nodeCoord (pSrcNode p) (kget p 1 0) ≠ s.coord (kget p 1 0)) :
    s.noticeIn p =
      s.setFld RTE_LINE_STATE.row 0 (48 * kget p 1 0 + nodeCoord (pSrcNode p) (kget p 1 0)) (kget p 49 2) :=
  if_neg (not_or.2 ⟨Nat.not_le.2 hd, he⟩)

theorem State.noticeIn_ignored (h : kget p 1 0 = 3 ∨ nodeCoord (pSrcNode p) (kget p 1 0) = s.coord (kget p 1 0)) :
    s.noticeIn p = s :=
  if_pos (h.imp_left fun hd => Nat.le_of_eq hd.symm)

end

section
variable {s : State}

/-! ### Rows that are sent (R253, R265) -/

theorem State.rowTimer_eq :
    s.rowTimer = (((s.advance ((s.now / ms 1 + 1) * ms 1)).sendRow 0).sendRow 1).sendRow 2 := by
  rw [State.rowTimer, State.nextTick]

theorem State.sendNotice_of_live {p : Nat} (hline : p < 141) (hlive : s.fld RTE_PORT_MAP.state 0 p = 1)
    (hs : s.inSetup 8 = false) (hf : s.frozen = false) :
    s.sendNotice p = s.inject (s.notice (portDim p) (s.memberNode (portDim p) (s.fld RTE_PORT_MAP.peer 0 p))) := by
  simp [State.sendNotice, hline, hlive, hs, hf]

/-! ### Hints (R250) -/

theorem State.hintRefresh_eq : s.hintRefresh =
    let u := s.advance ((s.now / 64000 + 1) * 64000)
    { u with rte := { u.rte with hints := [u.ownHint 0, u.ownHint 1, u.ownHint 2] } } := by
  rw [State.hintRefresh, State.nextTick]

section
variable {d : Nat} {ps : List Nat} (hps : ((List.range 47).map fun j => 47 * d + j).filter s.portUsable = ps)
include hps

theorem State.ownHint_without_port (h : ps = []) : s.ownHint d = 0 := by
  simp [State.ownHint, hps, h]

theorem State.ownHint_of_ports (h : ps ≠ []) : s.ownHint d =
    min 15 ((ps.map fun p => ((List.range 8).map fun k => s.poolQueue p (k + 1)).sum).sum / (16 * ps.length)) := by
  simp [State.ownHint, hps, h]

end

end

/-- Settles O46: the entrance's outcomes with what a notice does to the rows, what the two timers do, and whom a row goes to. -/
theorem linesShareTheirStateAndHints : Obligations.LinesShareTheirStateAndHints := by
  refine ⟨fun p s hp => ?notice, fun s hf => next_of_runs hf State.rowTimer_eq, fun s d => rfl,
    fun s p hline hlive hs hf => State.sendNotice_of_live hline hlive hs hf, fun s hf => next_of_runs hf State.hintRefresh_eq,
    fun s d _ => ⟨State.ownHint_without_port rfl, State.ownHint_of_ports rfl⟩⟩
  case notice =>
    have hexec := exec_lineStateNotice (s := s) hp
    have taken (hn : pDstNode p = s.node) (hf : (s.takeDelivered p).frozen = false) {t : State}
        (ht : (s.takeDelivered p).noticeIn p = t) :
        exec (.lineStateNotice p) s = .next (((s.takeDelivered p).endArrival t p).done s) := by
      rw [hexec, State.arrive_taken hn hf (State.answerFull_of_notice hp), ht]
    exact ⟨fun hn => hexec.trans (next_done_congr (State.arrive_elsewhere hn)),
      fun hn hf => hexec.trans (next_done_congr (State.arrive_of_frozen hn hf)),
      fun hn hf hd he => taken hn hf (State.noticeIn_stored hd he), fun hn hf h => taken hn hf (State.noticeIn_ignored h)⟩

end Sys2Proof.Machine
end

section
/-!
SUPPORT. The transmitter taps: what a lane's taps are after a request of its peer (R269, R273).
-/
namespace Sys2Proof.Machine

section
variable {taps t k : Nat}

/-! ### Taps as bytes of the register -/

/-- A tap is its own byte of LAN_TX_EQ. -/
theorem tapOf_eq_bitsOf : tapOf taps t = (BitVec.ofNat 8 (bitsOf taps (8 * (5 - t) + 7) (8 * (5 - t)))).toInt := by
  have hwidth : 8 * (5 - t) + 7 + 1 - 8 * (5 - t) = 8 := by omega
  rw [tapOf, bitsOf, hwidth, Nat.pow_mul]
  refine congrArg BitVec.toInt (BitVec.eq_of_toNat_eq ?_)
  simp

theorem tapOf_setTap {v : Int} (hlo : -128 ≤ v) (hhi : v ≤ 127) : tapOf (setTap taps t v) t = v := by
  have hwidth : 8 * (5 - t) + 7 + 1 - 8 * (5 - t) = 8 := by omega
  rw [tapOf_eq_bitsOf, setTap, bitsOf_putBits _ _ _ _ (by omega), hwidth, Nat.mod_eq_of_lt (BitVec.isLt _),
    BitVec.ofNat_toNat, BitVec.setWidth_eq, BitVec.toInt_ofInt]
  exact Int.bmod_eq_of_le (by omega) (by omega)

theorem tapOf_setTap_ne {v : Int} (ht : t < 6) (hk : k < 6) (hne : k ≠ t) :
    tapOf (setTap taps t v) k = tapOf taps k := by
  rw [tapOf_eq_bitsOf, setTap, bitsOf_putBits_apart _ _ _ _ _ _ (by omega) (by omega), tapOf_eq_bitsOf]

/-! ### Requests (R273) -/

/-- What a request asks of a tap (R273): 1 asks it one up, 2 one down. -/
def tapWanted (taps t r : Nat) : Int := tapOf taps t + (if r = 1 then 1 else -1)

/-- A request for one step is taken where the tap and the limits of R269 allow it, and changes nothing elsewhere. -/
theorem tapRequest_step {r : Nat} (hr : r ≠ 3) :
    (-128 ≤ tapWanted taps t r ∧ tapWanted taps t r ≤ 127 ∧ tapsOk (setTap taps t (tapWanted taps t r)) = true ∧
      tapRequest taps t r = (setTap taps t (tapWanted taps t r), 1)) ∨ tapRequest taps t r = (taps, 2) := by
  have hstep : tapRequest taps t r =
      if -128 ≤ tapWanted taps t r ∧ tapWanted taps t r ≤ 127 ∧ tapsOk (setTap taps t (tapWanted taps t r)) = true
      then (setTap taps t (tapWanted taps t r), 1) else (taps, 2) := by
    unfold tapRequest
    split
    · exact absurd rfl hr
    · rfl
  rw [hstep]
  split
  next h =>
    obtain ⟨hlo, hhi, hok⟩ := h
    exact .inl ⟨hlo, hhi, hok, rfl⟩
  next => exact .inr rfl

theorem tapsOk_tapPreset : tapsOk tapPreset = true := by decide

/-- Taps within the limits of R269 stay within them. -/
theorem tapsOk_tapRequest (r : Nat) (hok : tapsOk taps = true) : tapsOk (tapRequest taps t r).1 = true := by
  by_cases hr : r = 3
  · rw [hr]
    exact tapsOk_tapPreset
  · rcases tapRequest_step (t := t) hr with ⟨_, _, h, heq⟩ | heq <;> rw [heq] <;> assumption

theorem tapRequest_at_limit {r : Nat} (h : (tapRequest taps t r).2 = 2) : (tapRequest taps t r).1 = taps := by
  by_cases hr : r = 3
  · subst hr
    cases h
  · rcases tapRequest_step (t := t) hr with ⟨_, _, _, heq⟩ | heq
    · rw [heq] at h
      cases h
    · rw [heq]

/-- A step that is taken moves its own tap alone. -/
theorem tapRequest_taken {r : Nat} (hr : r ≠ 3) (ht : t < 6) (h : (tapRequest taps t r).2 = 1) :
    tapOf (tapRequest taps t r).1 t = tapWanted taps t r ∧
      ∀ k, k < 6 → k ≠ t → tapOf (tapRequest taps t r).1 k = tapOf taps k := by
  rcases tapRequest_step (t := t) hr with ⟨hlo, hhi, _, heq⟩ | heq
  · rw [heq]
    exact ⟨tapOf_setTap hlo hhi, fun k hk hne => tapOf_setTap_ne ht hk hne⟩
  · rw [heq] at h
    cases h

end

end Sys2Proof.Machine
end

section
/-!
SUPPORT. The eye figure: the model's integer logarithms are the library's, and what they round to (R271).
-/
namespace Sys2Proof.Machine

section
variable {n x y : Nat}

theorem log10Floor_eq_log {fuel : Nat} (h : n < 10 ^ fuel) : log10Floor fuel n = Nat.log 10 n := by
  induction fuel generalizing n with
  | zero =>
    have h0 : n = 0 := by simpa using h
    rw [h0, Nat.log_zero_right]
    rfl
  | succ fuel ih =>
    rw [log10Floor]
    split
    next hlt => exact (Nat.log_of_lt hlt).symm
    next hge =>
      have hdiv : n / 10 < 10 ^ fuel := Nat.div_lt_of_lt_mul (by rwa [Nat.pow_succ'] at h)
      rw [ih hdiv, ← Nat.log_of_one_lt_of_le (by decide) (Nat.not_lt.1 hge)]

/-- The model's fuel is enough. -/
theorem log10Floor_log2 (n : Nat) : log10Floor (Nat.log2 n + 1) n = Nat.log 10 n :=
  log10Floor_eq_log (Nat.lt_of_lt_of_le Nat.lt_log2_self (Nat.pow_le_pow_left (by decide) _))

theorem log10Ceil_eq_clog (h : n ≠ 0) : log10Ceil n = Nat.clog 10 n := by
  rw [log10Ceil, log10Floor_log2]
  have hle := Nat.pow_log_le_self 10 h
  have hlt := Nat.lt_pow_succ_log_self (b := 10) (by decide) n
  split
  next hpow => rw [← hpow, Nat.log_pow (by decide), Nat.clog_pow _ _ (by decide)]
  next hpow =>
    exact Nat.le_antisymm ((Nat.lt_clog_iff_pow_lt (by decide)).2 (Nat.lt_of_le_of_ne hle hpow))
      (Nat.clog_le_of_le_pow hlt.le)

/-- The ratio's ceiling, as the model divides. -/
theorem ceil_natCast_div (hx : 0 < x) : ⌈(y : ℚ) / x⌉₊ = (y + x - 1) / x := by
  refine eq_of_forall_ge_iff fun c => ?_
  rw [Nat.ceil_le, div_le_iff₀ (by exact_mod_cast hx), ← Nat.ceilDiv_eq_add_pred_div, ceilDiv_le_iff_le_mul hx, mul_comm x]
  exact_mod_cast Iff.rfl

/-- The decade of the ratio of two powers, as the model finds it, is the library's logarithm. -/
theorem decade_eq_log (hx : 0 < x) (hy : 0 < y) :
    (if y ≤ x then Int.ofNat (log10Floor (Nat.log2 (x / y) + 1) (x / y)) else -Int.ofNat (log10Ceil ((y + x - 1) / x))) =
      Int.log 10 ((x : ℚ) / y) := by
  have hyq : (0 : ℚ) < y := by exact_mod_cast hy
  split
  next h =>
    have hone : 1 ≤ (x : ℚ) / y := (one_le_div hyq).2 (by exact_mod_cast h)
    rw [log10Floor_log2, Int.log_of_one_le_right _ hone, Nat.floor_div_eq_div]
    rfl
  next h =>
    have hone : (x : ℚ) / y ≤ 1 := (div_le_one hyq).2 (by exact_mod_cast (Nat.not_le.1 h).le)
    have hpos : (y + x - 1) / x ≠ 0 := (Nat.div_pos (by omega) hx).ne'
    rw [log10Ceil_eq_clog hpos, Int.log_of_right_le_one _ hone, inv_div, ceil_natCast_div hx]
    rfl

/-- A power of ten, of either sign, below a ratio, said in natural numbers. -/
theorem zpow_le_div_iff (k : Int) (hy : 0 < y) :
    (10 : ℚ) ^ k ≤ (x : ℚ) / y ↔ 10 ^ k.toNat * y ≤ x * 10 ^ (-k).toNat := by
  have hyq : (0 : ℚ) < y := by exact_mod_cast hy
  have hk : (10 : ℚ) ^ k = 10 ^ k.toNat / 10 ^ (-k).toNat := by
    rw [← zpow_natCast, ← zpow_natCast, ← zpow_sub₀ (by norm_num)]
    congr 1
    omega
  rw [hk, div_le_div_iff₀ (by positivity) hyq]
  exact_mod_cast Iff.rfl

theorem div_lt_zpow_iff (k : Int) (hy : 0 < y) :
    (x : ℚ) / y < (10 : ℚ) ^ k ↔ x * 10 ^ (-k).toNat < y * 10 ^ k.toNat := by
  rw [← not_le, zpow_le_div_iff k hy, not_le, mul_comm y]

/-- Half of a logarithm of powers, rounded as the model rounds it, is within half a unit (R271). -/
theorem half_log_rounds {e : Int} (hx : 0 < x) (hy : 0 < y) (he : e = (Int.log 10 ((x : ℚ) / y) + 1) / 2) :
    10 ^ (2 * e - 1).toNat * y ≤ x * 10 ^ (1 - 2 * e).toNat ∧ x * 10 ^ (-2 * e - 1).toNat < y * 10 ^ (2 * e + 1).toNat := by
  have hle := Int.zpow_log_le_self (b := 10) (by decide) (div_pos (Nat.cast_pos.2 hx) (Nat.cast_pos.2 hy) : (0 : ℚ) < x / y)
  have hlt := Int.lt_zpow_succ_log_self (b := 10) (by decide) ((x : ℚ) / y)
  generalize Int.log 10 ((x : ℚ) / y) = d at *
  have hlo : (10 : ℚ) ^ (2 * e - 1) ≤ x / y := (zpow_le_zpow_right₀ (by norm_num) (by omega)).trans hle
  have hhi : (x : ℚ) / y < (10 : ℚ) ^ (2 * e + 1) := hlt.trans_le (zpow_le_zpow_right₀ (by norm_num) (by omega))
  rw [zpow_le_div_iff _ hy, show -(2 * e - 1) = 1 - 2 * e by omega] at hlo
  rw [div_lt_zpow_iff _ hy, show -(2 * e + 1) = -2 * e - 1 by omega] at hhi
  exact ⟨hlo, hhi⟩

theorem eyeTenths_eq_half_log {a b : Nat} (ha : 0 < a) (hb : 0 < b) :
    eyeTenths a b = (Int.log 10 (((a ^ 400 : Nat) : ℚ) / (b ^ 400 : Nat)) + 1) / 2 := by
  rw [← decade_eq_log (Nat.pow_pos ha) (Nat.pow_pos hb), eyeTenths, Int.fdiv_eq_ediv_of_nonneg _ (by decide)]

/-- The figure of an eye is 200·log10 of the ratio to the nearest integer (R271). -/
theorem eyeTenths_rounds {a b : Nat} (ha : 0 < a) (hb : 0 < b) :
    10 ^ (2 * eyeTenths a b - 1).toNat * b ^ 400 ≤ a ^ 400 * 10 ^ (1 - 2 * eyeTenths a b).toNat ∧
    a ^ 400 * 10 ^ (-2 * eyeTenths a b - 1).toNat < b ^ 400 * 10 ^ (2 * eyeTenths a b + 1).toNat :=
  half_log_rounds (pow_pos ha 400) (pow_pos hb 400) (eyeTenths_eq_half_log ha hb)

end

end Sys2Proof.Machine
end

section
/-!
SUPPORT. What a lane does with a training frame, with its signal, with the bounds of train and align, and with a marker (R273,
R274, R279, R280, R287, R289).
-/
namespace Sys2Proof.Machine

section
variable {s u : State} {l : Nat}

/-! ### Training frames (R273, R280, R289) -/

/-- The survivor goes on training. -/
theorem State.peerX1_goes_on {k : Nat} (h : (s.lane l).width1 = false ∨ (s.lport (l / 2)).survivor.getD k = k) :
    (s.peerX1 l k).1 = decide (l % 2 = k) := by
  have hno : ¬((s.lane l).width1 = true ∧ (s.lport (l / 2)).survivor.getD k ≠ k) := by
    rintro ⟨h1, hk⟩
    exact h.elim (fun h0 => by simp [h0] at h1) hk
  rw [State.peerX1, if_neg hno]
  by_cases hl : l % 2 = k <;> simp [hl]

section
variable {f : TrainFrame} (hm : s.malsol (l / 2) = false)
  (hu : (if s.laneSt l = lsReady then s.linkReset (l / 2) 0x0C (if f.width1 then some (f.survivor % 2) else s.lastLane (l / 2))
    else s) = u)
include hm hu

/-- A lane in ready follows the peer's link reset; then a frame acts on a lane in train only. -/
theorem State.trainFrame_eq : s.trainFrame l f =
    if u.laneSt l ≠ lsTrain then u
    else if f.width1 then if (u.peerX1 l (f.survivor % 2)).1 then (u.peerX1 l (f.survivor % 2)).2.frameIn l f
      else (u.peerX1 l (f.survivor % 2)).2
    else u.frameIn l f := by
  subst hu
  simp only [State.trainFrame, hm, Bool.false_eq_true, if_false]

theorem State.trainFrame_out_of_train (h : u.laneSt l ≠ lsTrain) : s.trainFrame l f = u :=
  (State.trainFrame_eq hm hu).trans (if_pos h)

theorem State.trainFrame_in_train (h : u.laneSt l = lsTrain) (hw : f.width1 = false) : s.trainFrame l f = u.frameIn l f := by
  simp [State.trainFrame_eq hm hu, h, hw]

/-- A ×1 port that is offered the other lane retires. -/
theorem State.trainFrame_refused (h : u.laneSt l = lsTrain) (hw : f.width1 = true) (h1 : (u.lane l).width1 = true)
    (hk : (u.lport (l / 2)).survivor.getD (f.survivor % 2) ≠ f.survivor % 2) :
    s.trainFrame l f = u.portRetire (l / 2) := by
  simp [State.trainFrame_eq hm hu, h, hw, State.peerX1, h1, hk]

/-- Where ×1 with a survivor is agreed, the survivor goes on training. -/
theorem State.trainFrame_agreed (h : u.laneSt l = lsTrain) (hw : f.width1 = true)
    (hk : (u.lane l).width1 = false ∨ (u.lport (l / 2)).survivor.getD (f.survivor % 2) = f.survivor % 2) :
    let x := u.peerX1 l (f.survivor % 2)
    s.trainFrame l f = if l % 2 = f.survivor % 2 then x.2.frameIn l f else x.2 := by
  simp [State.trainFrame_eq hm hu, h, hw, State.peerX1_goes_on hk]

end

/-! ### Signal detect and the 20 ms of train (R274, R280, R287) -/

theorem State.signalUp_again (h : s.flag LAN_STATUS.signal l 0 = true) : s.signalUp l = s := if_pos h

theorem State.signalUp_new (h : s.flag LAN_STATUS.signal l 0 = false) :
    s.signalUp l = (s.setFlag LAN_STATUS.signal l 0 true).setLane l { s.lane l with since := s.now } :=
  if_neg (ne_true_of_eq_false h)

theorem State.signalDown_without (h : s.flag LAN_STATUS.signal l 0 = false) : s.signalDown l = s := by
  simp [State.signalDown, h]

section
variable (h : s.flag LAN_STATUS.signal l 0 = true) (hu : s.setFlag LAN_STATUS.signal l 0 false = u)
include h hu

theorem State.signalDown_ready (hf : u.frozen = false) (hst : u.laneSt l = lsReady) :
    s.signalDown l = (u.fault 10 (4 * l + 3) l).linkReset (l / 2) 0x05 (u.lport (l / 2)).survivor := by
  simp [State.signalDown, h, hu, hf, hst, State.lanEvent]

theorem State.signalDown_counts (hf : u.frozen = false) (hst : u.laneSt l = lsAlign ∨ u.laneSt l = lsTest) :
    s.signalDown l = u.fault 10 (4 * l + 3) l := by
  have hready : u.laneSt l ≠ lsReady := by rcases hst with h | h <;> rw [h] <;> decide
  simp [State.signalDown, h, hu, hf, hst, hready, State.lanEvent]

theorem State.signalDown_uncounted (hst : u.frozen = true ∨ u.laneSt l ∉ [lsReady, lsAlign, lsTest]) : s.signalDown l = u := by
  rcases hst with hf | hst
  · simp [State.signalDown, h, hu, hf]
  · simp only [List.mem_cons, List.not_mem_nil, or_false, not_or] at hst
    simp [State.signalDown, h, hu, hst]

end

theorem State.trainEnd_of_train (hst : s.laneSt l = lsTrain) (hsig : s.flag LAN_STATUS.signal l 0 = true) :
    s.trainEnd l = (s.advance ((s.lane l).since + ms 20)).trainLimit l := by
  simp [State.trainEnd, hst, hsig, State.due_eq]

/-! ### Markers (R279, R280) -/

/-- A lane after a marker: how many came in a row, the count and the skew of this one. -/
def LaneState.marked (v : LaneState) (m : Marker) : LaneState :=
  { v with
    missed := 0, marks := if v.marks = 0 ∨ m.amCount = (v.lastMark + 1) % 256 then v.marks + 1 else 1
    lastMark := m.amCount, skew := m.skew }

/-- The model asks for the next marker of a row by a Boolean. -/
theorem LaneState.marked_eq (v : LaneState) (m : Marker) : v.marked m = { v with
    missed := 0, marks := if v.marks == 0 || m.amCount == (v.lastMark + 1) % 256 then v.marks + 1 else 1
    lastMark := m.amCount, skew := m.skew } := by
  simp [LaneState.marked]

/-- Of its port's lanes this one, with the state `v`, carries alone (R279). -/
def State.aloneIn (u : State) (l : Nat) (v : LaneState) : Bool :=
  v.width1 || u.laneSt (otherLane l) == lsRetired || u.laneSt (otherLane l) == lsDropped || u.laneSt (otherLane l) == lsIdle

theorem State.aloneIn_iff {v : LaneState} :
    u.aloneIn l v = true ↔ v.width1 = true ∨ u.laneSt (otherLane l) ∈ [lsRetired, lsDropped, lsIdle] := by
  simp [State.aloneIn, or_assoc]

theorem State.laneLocked_iff {sole : Bool} : u.laneLocked l sole = true ↔ 3 ≤ (u.lane l).marks ∧
    (sole = true ∨ 3 ≤ (u.lane (otherLane l)).marks ∧ (u.lane l).lastMark = (u.lane (otherLane l)).lastMark) := by
  simp [State.laneLocked]

section
variable (hm : s.malsol (l / 2) = false)
include hm

/-- A marker that is missing before the fourth. -/
theorem State.markerIn_missing (hst : s.laneSt l = lsAlign ∨ s.laneSt l = lsReady) (hfew : (s.lane l).missed < 3) :
    s.markerIn l none = s.setLane l { s.lane l with
      missed := (s.lane l).missed + 1, marks := if s.laneSt l = lsAlign then 0 else (s.lane l).marks } := by
  have hact : (s.malsol (l / 2) || (s.laneSt l != lsAlign && s.laneSt l != lsReady)) = false := by
    rcases hst with h | h <;> simp [hm, h]
  have h4 : (s.lane l).missed + 1 < 4 := by omega
  simp [State.markerIn, hact, h4]

/-- The fourth missing marker of a lane in ready loses its lock and takes the link down. -/
theorem State.markerIn_lock_lost (hst : s.laneSt l = lsReady) (hmany : 3 ≤ (s.lane l).missed)
    (hu : s.setLane l { s.lane l with missed := (s.lane l).missed + 1 } = u) (hlock : u.flag LAN_STATUS.am_lock l 0 = true) :
    let w := (u.setLane l { s.lane l with missed := 0, marks := 0 }).setFlag LAN_STATUS.am_lock l 0 false
    s.markerIn l none = (w.fault 10 (4 * l + 2) l).linkReset (l / 2) 0x05 (w.lport (l / 2)).survivor := by
  have h4 : ¬(s.lane l).missed + 1 < 4 := by omega
  have hne : lsReady ≠ lsAlign := by decide
  simp [State.markerIn, hm, hst, hne, hu, hlock, h4, State.lanEvent]

section
variable {m : Marker} (hu : s.setLane l ((s.lane l).marked m) = u)
include hu

theorem State.markerIn_ready (hst : s.laneSt l = lsReady) : s.markerIn l (some m) = u := by
  simpa [State.markerIn, hm, hst, LaneState.marked] using hu

section
variable (hst : s.laneSt l = lsAlign)
include hst

/-- A marker of a lane in align ends align, or sets the lane's lock, once the lane is locked. -/
theorem State.markerIn_align : s.markerIn l (some m) =
    if !u.laneLocked l (u.aloneIn l (s.lane l)) then u
    else if u.aloneIn l (s.lane l) then u.alignDone (l / 2) [l] false m.port
    else if u.laneSt (otherLane l) ≠ lsAlign then u.setFlag LAN_STATUS.am_lock l 0 true
    else u.alignDone (l / 2) [2 * (l / 2), 2 * (l / 2) + 1] (m.lane % 2 != l % 2) m.port := by
  rw [LaneState.marked_eq] at hu
  have hact : (s.malsol (l / 2) || (s.laneSt l != lsAlign && s.laneSt l != lsReady)) = false := by simp [hm, hst]
  have hne : s.laneSt l ≠ lsReady := by rw [hst]; decide
  unfold State.aloneIn
  simp only [State.markerIn, hact, hne, hu, Bool.false_eq_true, if_false]

theorem State.markerIn_unlocked (h : u.laneLocked l (u.aloneIn l (s.lane l)) = false) : s.markerIn l (some m) = u := by
  rw [State.markerIn_align hm hu hst, h, Bool.not_false, if_pos rfl]

section
variable (h3 : 3 ≤ (u.lane l).marks)
include h3

theorem State.markerIn_alone (ha : u.aloneIn l (s.lane l) = true) :
    s.markerIn l (some m) = u.alignDone (l / 2) [l] false m.port := by
  have hlock := (State.laneLocked_iff (u := u)).2 ⟨h3, .inl ha⟩
  rw [State.markerIn_align hm hu hst, hlock, ha, Bool.not_true, if_neg Bool.false_ne_true, if_pos rfl]

section
variable (ha : u.aloneIn l (s.lane l) = false)
  (hboth : 3 ≤ (u.lane (otherLane l)).marks ∧ (u.lane l).lastMark = (u.lane (otherLane l)).lastMark)
include ha hboth

/-- The lanes of a ×2 port end align together. -/
theorem State.markerIn_paired : s.markerIn l (some m) =
    if u.laneSt (otherLane l) ≠ lsAlign then u.setFlag LAN_STATUS.am_lock l 0 true
    else u.alignDone (l / 2) [2 * (l / 2), 2 * (l / 2) + 1] (m.lane % 2 != l % 2) m.port := by
  have hlock := (State.laneLocked_iff (u := u) (sole := false)).2 ⟨h3, .inr hboth⟩
  rw [State.markerIn_align hm hu hst, ha, hlock, Bool.not_true, if_neg Bool.false_ne_true, if_neg Bool.false_ne_true]

theorem State.markerIn_paired_out_of_align (ho : u.laneSt (otherLane l) ≠ lsAlign) :
    s.markerIn l (some m) = u.setFlag LAN_STATUS.am_lock l 0 true := by
  rw [State.markerIn_paired hm hu hst h3 ha hboth, if_pos ho]

theorem State.markerIn_paired_in_align (ho : u.laneSt (otherLane l) = lsAlign) : s.markerIn l (some m) =
    u.alignDone (l / 2) [2 * (l / 2), 2 * (l / 2) + 1] (decide (m.lane % 2 ≠ l % 2)) m.port := by
  have hswap : (m.lane % 2 != l % 2) = decide (m.lane % 2 ≠ l % 2) := by rw [bne, beq_eq_decide, decide_not]
  rw [State.markerIn_paired hm hu hst h3 ha hboth, if_neg (not_not.2 ho), hswap]

end

end

end

end

end

/-! ### The end of align and its 100 µs (R279) -/

theorem State.alignDone_skewed {p port : Nat} {ls : List Nat} {sw : Bool} (h : ∃ l ∈ ls, 256 < (s.lane l).skew) :
    s.alignDone p ls sw port = ls.foldl (fun t l => t.laneTrain l (t.lane l).width1)
      (s.fault 10 (4 * ls.headD (2 * p) + 2) (ls.headD (2 * p))) := by
  have hany : (ls.any fun l => 256 < (s.lane l).skew) = true := by simpa using h
  simp [State.alignDone, hany, State.lanEvent]

section
variable {p : Nat} {ls : List Nat} (hls : ([2 * p, 2 * p + 1].filter fun l => s.laneSt l == lsAlign) = ls)
include hls

theorem State.alignLimit_without_align (h : ls = []) : s.alignLimit p = s := by
  simp only [State.alignLimit, hls, h, List.isEmpty_nil, if_true]

/-- The lanes in align that hold no lock count align-loss, or the port's first lane where all do; then all start over. -/
theorem State.alignLimit_of_align {open_ : List Nat} {v : State} (h : ls ≠ [])
    (hopen : (ls.filter fun l => if s.malsol p then !s.flag LAN_M2_STATUS.aligned l 0 else !s.flag LAN_STATUS.am_lock l 0) = open_)
    (hv : (if open_ = [] then [2 * p] else open_).foldl (fun (t : State) l => t.fault 10 (4 * l + 2) l) s = v) :
    s.alignLimit p = if v.malsol p then ls.foldl State.laneAlign v
      else ls.foldl (fun (t : State) l => t.laneTrain l (t.lane l).width1) v := by
  subst hv
  simp only [State.alignLimit, hls, hopen, List.isEmpty_iff, h, if_false, State.lanEvent]

end

end

end Sys2Proof.Machine
end

section
/-!
SUPPORT. Eye windows: what the end of one stores and counts, and when the receiver adapts (R270 to R272, R274).
-/
namespace Sys2Proof.Machine

/-! ### A field of another register, in any register file -/

theorem SMap.find?_erase_of_ne {α : Type} (m : List (Nat × α)) {k j : Nat} (h : j ≠ k) :
    SMap.find? (SMap.erase m k) j = SMap.find? m j := by
  induction m with
  | nil => rfl
  | cons e m ih =>
    obtain ⟨a, v⟩ := e
    simp only [SMap.erase]
    split
    next hk => rw [SMap.find?, if_neg (hk ▸ h)]
    next =>
      split
      · rfl
      · rw [SMap.find?, SMap.find?, ih]

theorem SMap.getD_put_of_ne {α : Type} [DecidableEq α] {d : Nat → α} (m : List (Nat × α)) {k j : Nat} (x : α) (h : j ≠ k) :
    SMap.getD d (SMap.put d m k x) j = SMap.getD d m j := by
  unfold SMap.getD SMap.put
  split
  · rw [SMap.find?_erase_of_ne m h]
  · rw [SMap.find?_insert, if_neg h]

section
variable {s : State} {l : Nat} {ef : Int}

/-- LAN_EYE is no part of LAN_STATUS. -/
theorem State.laneSt_setFld_eye {f : Field} (hf : f.reg = .LAN_EYE) (k v : Nat) : (s.setFld f l 0 v).laneSt k = s.laneSt k := by
  have hoff : (RegRef.mk .LAN_STATUS k 0).off ≠ (RegRef.mk f.reg l 0).off := by
    rw [hf]
    simp only [RegRef.off, Reg.shape]
    omega
  exact congrArg (fun w : Word => bitsOf w.toNat 2 0) (SMap.getD_put_of_ne s.regs _ hoff)

/-! ### What a window leaves (R271, R272, R274) -/

/-- The figure of a window is stored, and the least of the figures is kept. -/
def State.eyeNoted (s : State) (l : Nat) (ef : Int) : State :=
  let u := s.setFld LAN_EYE.ef l 0 (BitVec.ofInt 16 ef).toNat
  if ef < s16 (u.fld LAN_EYE.ef_min l 0) then u.setFld LAN_EYE.ef_min l 0 (BitVec.ofInt 16 ef).toNat else u

theorem State.laneSt_eyeNoted : (s.eyeNoted l ef).laneSt l = s.laneSt l := by
  unfold State.eyeNoted
  dsimp only
  split
  · rw [State.laneSt_setFld_eye rfl, State.laneSt_setFld_eye rfl]
  · rw [State.laneSt_setFld_eye rfl]

section
variable {u : State} (hu : s.eyeNoted l ef = u)
include hu

/-- In train a window is good or ends the row of good ones. -/
theorem State.eyeStore_train (hst : s.laneSt l = lsTrain) : s.eyeStore l ef = u.setLane l { u.lane l with
    goodWindows := if s16 (u.fld LAN_EF_THRESH.warn 0 0) ≤ ef then (u.lane l).goodWindows + 1 else 0 } := by
  have hst' : u.laneSt l = lsTrain := by rw [← hu, State.laneSt_eyeNoted, hst]
  rw [State.eyeNoted] at hu
  simp only [State.eyeStore, hu, hst', if_true, decide_eq_true_eq]

/-- Out of train a window warns by one threshold, and counts eye-low by the other. -/
theorem State.eyeStore_out_of_train (hst : s.laneSt l ≠ lsTrain) :
    let w := u.setFlag LAN_STATUS.eye_warn l 0 (decide ¬s16 (u.fld LAN_EF_THRESH.warn 0 0) ≤ ef)
    s.eyeStore l ef = if ef < s16 (w.fld LAN_EF_THRESH.fail 0 0) then
      (w.bump LAN_EYE.low_windows l 0).fault 10 (4 * l + 1) l else w := by
  have hst' : u.laneSt l ≠ lsTrain := by rwa [← hu, State.laneSt_eyeNoted]
  rw [State.eyeNoted] at hu
  simp only [State.eyeStore, hu, hst', if_false, decide_not, State.lanEvent]

end

theorem State.eyeWindow_of_lane {means : List Int} {sigmas : List Nat} (hst : 2 ≤ s.laneSt l ∧ s.laneSt l ≤ 5)
    (hmeans : means.length = if s.malsol (l / 2) then 2 else 4) (hsigmas : sigmas.length = means.length) :
    s.eyeWindow l means sigmas = (s.eyeStore l (eyeFigure means sigmas)).adapt l := by
  have hst' : ¬(s.laneSt l ≠ lsTrain ∧ s.laneSt l ≠ lsAlign ∧ s.laneSt l ≠ lsReady ∧ s.laneSt l ≠ lsTest) := by
    simp only [lsTrain, lsAlign, lsReady, lsTest]
    omega
  rw [State.eyeWindow, ← hmeans, hsigmas]
  simp only [hst', false_or, ne_eq, not_true_eq_false, if_false]

theorem State.adapt_held (h : s.flag LAN_CFG.adapt_freeze l 0 = true ∨ s.laneSt l = lsTest) : s.adapt l = s := by
  rcases h with h | h <;> simp [State.adapt, h]

end

/-- Settles O47: taps by the lemma of a request, frames, signals, bounds and markers by what each does to a lane in its state,
the figure by the library's logarithm, and a window by what it stores. -/
theorem lanesTrainAlignAndWatchTheirEye : Obligations.LanesTrainAlignAndWatchTheirEye := by
  refine ⟨fun taps t r _ ht _ hok => ?taps, fun l f s hf hm => ?frame, fun l s => ?signal, fun l s hf hm => ?marker,
    fun p s hf => ?timeout, fun s p port ls sw h => State.alignDone_skewed h, fun s l h => State.adapt_held h,
    fun a b ha hb => ?figure,
    fun l means sigmas s hf hmeans hsigmas => ?window⟩
  case taps =>
    refine ⟨tapsOk_tapRequest r hok, tapRequest_at_limit, fun hr => ?_, fun h hr => tapRequest_taken hr ht h⟩
    rw [hr]
    rfl
  case frame =>
    exact ⟨fun h => next_of_runs hf (State.trainFrame_out_of_train hm rfl h),
      fun h hw => next_of_runs hf (State.trainFrame_in_train hm rfl h hw),
      fun h hw => ⟨fun h1 hk => next_of_runs hf (State.trainFrame_refused hm rfl h hw h1 hk),
        fun hk => next_of_runs hf (State.trainFrame_agreed hm rfl h hw hk)⟩⟩
  case signal =>
    exact ⟨fun h => next_done_congr (State.signalUp_again h),
      fun h => ⟨next_done_congr (State.signalUp_new h), next_done_congr (State.signalDown_without h)⟩,
      fun h => ⟨fun hf hst => next_done_congr (State.signalDown_ready h rfl hf hst),
        fun hf hst => next_done_congr (State.signalDown_counts h rfl hf hst),
        fun hst => next_done_congr (State.signalDown_uncounted h rfl hst)⟩,
      fun hf hst hsig => next_of_runs hf (State.trainEnd_of_train hst hsig)⟩
  case marker =>
    have not_alone {u : State} {v : LaneState}
        (h : ¬(v.width1 = true ∨ u.laneSt (otherLane l.val) ∈ [lsRetired, lsDropped, lsIdle])) :
        u.aloneIn l.val v = false := Bool.eq_false_iff.2 fun ha => h (State.aloneIn_iff.1 ha)
    refine ⟨fun hst hfew => next_of_runs hf ?_, fun hst hfew => next_of_runs hf ?_,
      fun hst hmany hlock => next_of_runs hf (State.markerIn_lock_lost hm hst hmany rfl hlock),
      fun m => ⟨fun hst => next_of_runs hf ?_, fun hst h3 hsole => next_of_runs hf ?_,
        fun hst h3 hsole hboth ho => next_of_runs hf ?_, fun hst h3 hsole hboth ho => next_of_runs hf ?_⟩⟩
    · rw [State.markerIn_missing hm (.inr hst) hfew, if_neg (by rw [hst]; decide)]
    · rw [State.markerIn_missing hm (.inl hst) hfew, if_pos hst]
    · rcases hst with hst | ⟨hst, h3⟩ | ⟨hst, hsole, hboth⟩
      · exact State.markerIn_ready hm rfl hst
      · refine State.markerIn_unlocked hm rfl hst (Bool.eq_false_iff.2 fun hlock => ?_)
        exact Nat.not_le.2 h3 (State.laneLocked_iff.1 hlock).1
      · refine State.markerIn_unlocked hm rfl hst (Bool.eq_false_iff.2 fun hlock => ?_)
        exact (State.laneLocked_iff.1 hlock).2.elim (fun h => hsole (State.aloneIn_iff.1 h)) hboth
    · exact State.markerIn_alone hm rfl hst h3 (State.aloneIn_iff.2 hsole)
    · exact State.markerIn_paired_out_of_align hm rfl hst h3 (not_alone hsole) hboth ho
    · exact State.markerIn_paired_in_align hm rfl hst h3 (not_alone hsole) hboth ho
  case timeout =>
    exact ⟨fun h => next_of_runs hf (State.alignLimit_without_align rfl h),
      fun h hv => next_of_runs hf ((State.alignLimit_of_align rfl h rfl rfl).trans (if_pos hv)),
      fun h hv => next_of_runs hf ((State.alignLimit_of_align rfl h rfl rfl).trans (if_neg (ne_true_of_eq_false hv)))⟩
  case figure => exact eyeTenths_rounds ha hb
  case window =>
    refine ⟨fun hst => next_of_runs hf ?_, fun hlo hhi => next_of_runs hf ?_⟩
    · rw [State.eyeWindow_of_lane (by rw [hst]; decide) hmeans hsigmas, State.eyeStore_train rfl hst]
      rfl
    · have hst : s.laneSt l.val ≠ lsTrain := by rw [lsTrain]; omega
      rw [State.eyeWindow_of_lane ⟨by omega, hhi⟩ hmeans hsigmas, State.eyeStore_out_of_train rfl hst]
      rfl

end Sys2Proof.Machine
end

section
/-!
SUPPORT. Control flits and what each control message of a port does: admission, POISON, the resets of a link and the exchange
of time, with the bounds on them (R305, R306, R310 to R316, R425, R427).
-/
namespace Sys2Proof.Machine

/-! ### The bytes of a control flit (R305) -/

/-- Bytes of a flit are a digit of its number in base 256; an empty range at offset 0 would still read one bit. -/
theorem flitBytes_eq_div_mod (f : Flit) {o n : Nat} (h : 0 < o + n) : flitBytes f o n = f.toNat / 256 ^ o % 256 ^ n := by
  have hlen : 8 * (o + n) - 1 + 1 - 8 * o = 8 * n := by omega
  rw [flitBytes, bitsOf, hlen, pow_mul, pow_mul]
  rfl

/-- A control flit of a type with one more field in bytes 1 to 63 is the number of the two. -/
theorem ctlFlit_toNat {a b t v : Nat} (ht : t < 256) (hv : v < 256 ^ b) (ha : 1 ≤ a) (hab : a + b ≤ 64) :
    (ctlFlit [(0, 1, t), (a, b, v)]).toNat = t + v * 256 ^ a := by
  have htype : t < 256 ^ a := ht.trans_le (Nat.le_pow ha)
  have hlt : t + v * 256 ^ a < 2 ^ (8 * (a + b)) :=
    calc t + v * 256 ^ a < 256 ^ a + v * 256 ^ a := Nat.add_lt_add_right htype _
      _ = (v + 1) * 256 ^ a := by ring
      _ ≤ 256 ^ b * 256 ^ a := Nat.mul_le_mul_right _ hv
      _ = 256 ^ (a + b) := by ring
      _ = 2 ^ (8 * (a + b)) := (pow_mul 2 8 (a + b)).symm
  have hbits : 8 * (a + b) ≤ 512 := by omega
  have hnum : ctlFlit [(0, 1, t), (a, b, v)] = BitVec.ofNat 512 (t + v * 256 ^ a) := by
    simp [ctlFlit, Nat.mod_eq_of_lt ht, Nat.mod_eq_of_lt hv]
  rw [hnum, BitVec.toNat_ofNat, Nat.mod_eq_of_lt (hlt.trans_le (Nat.pow_le_pow_right Nat.two_pos hbits))]

theorem flitBytes_ctlFlit_type {a b t v : Nat} (ht : t < 256) (hv : v < 256 ^ b) (ha : 1 ≤ a) (hab : a + b ≤ 64) :
    flitBytes (ctlFlit [(0, 1, t), (a, b, v)]) 0 1 = t := by
  obtain ⟨c, rfl⟩ := Nat.exists_eq_add_of_le' ha
  rw [flitBytes_eq_div_mod _ Nat.one_pos, ctlFlit_toNat ht hv ha hab, pow_zero, Nat.div_one, pow_one, pow_succ, ← mul_assoc,
    Nat.add_mul_mod_self_right, Nat.mod_eq_of_lt ht]

theorem flitBytes_ctlFlit_field {a b t v : Nat} (ht : t < 256) (hv : v < 256 ^ b) (ha : 1 ≤ a) (hab : a + b ≤ 64) :
    flitBytes (ctlFlit [(0, 1, t), (a, b, v)]) a b = v := by
  have htype : t < 256 ^ a := ht.trans_le (Nat.le_pow ha)
  rw [flitBytes_eq_div_mod _ (Nat.add_pos_left ha b), ctlFlit_toNat ht hv ha hab,
    Nat.add_mul_div_right _ _ (Nat.pow_pos (by decide)), Nat.div_eq_of_lt htype, Nat.zero_add, Nat.mod_eq_of_lt hv]

section
variable {s : State} {p : Nat} {f : Flit}

/-! ### The entrance of a control message (R305) -/

section
variable {t : Nat} {act : State → State}

section
variable (h : s.frozen = true ∨ flitBytes f 0 1 ≠ t ∨ (s.lport p).framed = false)
include h

theorem State.ctlFlit_of_ignored : s.ctlFlit p t f act = s := by
  by_cases hin : flitBytes f 0 1 = t ∧ (s.lport p).framed = true
  · have hfrozen : s.frozen = true := h.resolve_right fun h => h.elim (· hin.1) (by simp [hin.2])
    exact (if_pos hin).trans (State.ifRuns_of_frozen act hfrozen)
  · exact if_neg hin

theorem next_of_ctlFlit_ignored : (Host.Outcome.next ((s.ctlFlit p t f act).done s) : Res) = .next (s.done s) :=
  next_done_congr (State.ctlFlit_of_ignored h)

end

theorem next_of_admitFlit_ignored {step : Nat}
    (h : s.frozen = true ∨ flitBytes f 0 1 ≠ 2 ∨ (s.lport p).framed = false) :
    (Host.Outcome.next ((s.admitFlit p step f act).done s) : Res) = .next (s.done s) := by
  rw [State.admitFlit, State.ctlFlit_of_ignored h, ite_self]

section
variable {u : State} (hf : s.frozen = false) (hframed : (s.lport p).framed = true)
include hf hframed

/-- A control message of its type does its work on a framing port while the data path runs. -/
theorem next_of_ctlFlit (ht : flitBytes f 0 1 = t) (hact : act s = u) :
    (Host.Outcome.next ((s.ctlFlit p t f act).done s) : Res) = .next (u.done s) :=
  next_done_congr ((if_pos ⟨ht, hframed⟩).trans ((State.ifRuns_of_runs act hf).trans hact))

/-- So does a step of admission. -/
theorem next_of_admitFlit {step : Nat} (ht : flitBytes f 0 1 = 2) (hstep : flitBytes f 1 1 = step) (hact : act s = u) :
    (Host.Outcome.next ((s.admitFlit p step f act).done s) : Res) = .next (u.done s) := by
  rw [State.admitFlit, if_pos hstep]
  exact next_of_ctlFlit hf hframed ht hact

end

end

/-! ### HELLO and the steps of admission (R313, R425, R427) -/

/-- What a port knows of its peer from its HELLO. -/
def LPort.greeted (v : LPort) (f : Flit) : LPort := { v with adm := { v.adm with
  peer := some (flitBytes f 8 8, flitBytes f 16 4 % 2 ^ 17, flitBytes f 20 1)
  version := flitBytes f 23 1
  sizes := (List.range 9).map fun k => flitBytes f (24 + 2 * k) 2 } }

theorem State.helloRecv_out_of_hello (h : s.portSt p ≠ psHello) : s.helloRecv p f = s := if_pos (bne_iff_ne.2 h)

theorem State.helloRecv_failed (h : s.portSt p = psHello) (hok : s.helloOk p f = false) :
    s.helloRecv p f = s.admitFail p 0x09 := by
  simp [State.helloRecv, h, hok]

theorem State.helloRecv_passed (h : s.portSt p = psHello) (hok : s.helloOk p f = true) : s.helloRecv p f =
    ((s.setLport p ((s.lport p).greeted f)).setFld LNK_PORT_STATUS.peer_port p 0 (flitBytes f 20 1)).startAdmission p := by
  simp [State.helloRecv, h, hok, LPort.greeted]

theorem State.nonceRecv_taken (h : s.portSt p = psHello ∨ s.portSt p = psAdmit) : s.nonceRecv p f =
    (s.setLport p { s.lport p with adm := { (s.lport p).adm with
      peerNonce := some (BitVec.ofNat 256 (flitBytes f 8 32)) } }).sendProof p := by
  have hst : (s.portSt p != psHello && s.portSt p != psAdmit) = false := by rcases h with h | h <;> simp [h]
  simp [State.nonceRecv, hst]

/-- The fragments of the PROOF that a port has with one more. -/
def LPort.fragsWith (v : LPort) (f : Flit) : SMap (BitVec 448) :=
  SMap.insert v.adm.frags (flitBytes f 2 1) (BitVec.ofNat 448 (flitBytes f 8 56))

section
variable (hst : s.portSt p = psAdmit)
include hst

section
variable (hout : (s.lport p).adm.verdictOut = none)
include hout

theorem State.proofRecv_malformed (h : flitBytes f 3 1 ≠ 5 ∨ 5 ≤ flitBytes f 2 1 ∨ flitBytes f 4 4 ≠ 0) :
    s.proofRecv p f = s.sendVerdict p 7 := by
  simp only [State.proofRecv, hst, hout, h, bne_self_eq_false, Option.isSome_none, Bool.or_self, Bool.false_eq_true, if_false,
    if_true]

/-- A well-formed fragment is kept, and with the fifth the PROOF is complete. -/
theorem State.proofRecv_wellFormed (h5 : flitBytes f 3 1 = 5) (hk : flitBytes f 2 1 < 5) (hz : flitBytes f 4 4 = 0)
    {frags : SMap (BitVec 448)} (hfr : (s.lport p).fragsWith f = frags) {u : State}
    (hu : s.setLport p { s.lport p with adm := { (s.lport p).adm with frags := frags } } = u) :
    let body := (frags.flatMap fun e => leBytes 56 e.2.toNat).take 256
    s.proofRecv p f = if frags.length < 5 then u else (u.certSeen (body.take 112)).sendVerdict p (u.proofCode p body) := by
  have hok : ¬(flitBytes f 3 1 ≠ 5 ∨ 5 ≤ flitBytes f 2 1 ∨ flitBytes f 4 4 ≠ 0) := by omega
  subst hfr hu
  simp only [State.proofRecv, hst, hout, hok, bne_self_eq_false, Option.isSome_none, Bool.or_self, Bool.false_eq_true, if_false]
  rfl

end

theorem State.verdictRecv_in_admit {u : State} (hu : s.setLport p { s.lport p with adm := { (s.lport p).adm with
      verdictIn := some (flitBytes f 8 1) } } = u) : s.verdictRecv p f =
    (if flitBytes f 8 1 ≠ 0 ∧ ((s.lport p).adm.verdictOut = none ∨ (s.lport p).adm.verdictOut = some 0) then
      u.admitRefused p (flitBytes f 8 1) else u).judge p := by
  subst hu
  simp [State.verdictRecv, hst]

end

/-! ### The bounds of bring-up (R312, R314) -/

theorem State.stepLimit_hello (h : s.portSt p = psHello) :
    s.stepLimit p = (s.advance ((s.lport p).stepAt + us 10)).admitFail p 0x09 := if_pos h

theorem State.stepLimit_admit (h : s.portSt p = psAdmit) : s.stepLimit p =
    if (s.lport p).adm.agreed then s else (s.advance ((s.lport p).stepAt + us 300)).admitFail p 0x0A := by
  have hne : psAdmit ≠ psHello := by decide
  cases hagreed : (s.lport p).adm.agreed <;> simp [State.stepLimit, h, hne, LPort.admitted, hagreed]

theorem State.bringRetry_due {t : Nat} (h : (s.lport p).retryAt = some t) (hst : s.portSt p = psReset) :
    s.bringRetry p = (s.advance t).bringUp p := by
  simp [State.bringRetry, h, hst]

theorem State.bringRetry_not_due (h : (s.lport p).retryAt = none ∨ s.portSt p ≠ psReset) : s.bringRetry p = s := by
  unfold State.bringRetry
  split
  next t ht => exact if_neg (h.resolve_left (by simp [ht]))
  next => rfl

/-! ### POISON (R306) -/

theorem State.poisonRecv_without (h : ((s.lport p).pool (flitBytes f 1 1)).rx = none) : s.poisonRecv p f = s := by
  simp [State.poisonRecv, h]

theorem State.poisonRecv_of_rx {r : RxPkt} (h : ((s.lport p).pool (flitBytes f 1 1)).rx = some r) {u : State}
    (hu : s.setLport p ((s.lport p).setPool (flitBytes f 1 1) { (s.lport p).pool (flitBytes f 1 1) with rx := none }) = u) :
    s.poisonRecv p f = r.id.elim u u.poisonPkt := by
  subst hu
  simp only [State.poisonRecv, h]
  cases r.id <;> rfl

/-! ### Resets of the link (R310, R311) -/

section
variable (hframed : (s.lport p).framed = true)
include hframed

/-- A request is dropped while RESET_ACK is owed, and by the higher identity of two that cross. -/
theorem State.resetReqRecv_dropped (h : (s.lport p).ackOwed ≠ none ∨
    (s.lport p).reqUntil ≠ none ∧ flitBytes f 8 8 ≤ s.fld SEC_IDENTITY.identity 0 0) : s.resetReqRecv p f = s := by
  by_cases howed : (s.lport p).ackOwed = none
  · have hignores : ¬((!(s.lport p).framed || (s.lport p).ackOwed.isSome) = true) := by simp [hframed, howed]
    obtain ⟨hreq, hle⟩ := h.resolve_left (not_not.2 howed)
    exact (if_neg hignores).trans (if_pos ⟨Option.isSome_iff_ne_none.2 hreq, hle⟩)
  · exact if_pos (by simp [Option.isSome_iff_ne_none.2 howed])

theorem State.resetReqRecv_owes_ack (howed : (s.lport p).ackOwed = none)
    (h : (s.lport p).reqUntil = none ∨ s.fld SEC_IDENTITY.identity 0 0 < flitBytes f 8 8) {u : State}
    (hu : (if (s.lport p).reqUntil = none then s else s.setFlag LNK_PORT_STATUS.req_dropped p 0 true) = u) :
    s.resetReqRecv p f = u.setLport p { u.lport p with
      ctl := (u.lport p).ctl ++ [Machine.ctlFlit [(0, 1, 6), (8, 8, flitBytes f 8 8)]], reqUntil := none
      ackOwed := some (if flitBytes f 1 1 = 1 then some (flitBytes f 2 1 % 2) else u.lastLane p) } := by
  have hwins : ¬((s.lport p).reqUntil.isSome = true ∧ flitBytes f 8 8 ≤ s.fld SEC_IDENTITY.identity 0 0) := by
    rintro ⟨hreq, hle⟩
    exact h.elim (fun h => by simp [h] at hreq) hle.not_gt
  have hignores : ¬((!(s.lport p).framed || (s.lport p).ackOwed.isSome) = true) := by simp [hframed, howed]
  have hcrossed : (if (s.lport p).reqUntil.isSome = true then
      s.setFlag LNK_PORT_STATUS.req_dropped p 0 true else s) = u := by
    rw [← hu]
    cases (s.lport p).reqUntil <;> simp
  clear hu
  subst hcrossed
  exact (if_neg hignores).trans (if_neg hwins)

end

theorem State.proceedReset_without (h : (s.lport p).reqUntil = none) : s.proceedReset p = s := by
  simp [State.proceedReset, h]

theorem State.resetAckRecv_own (hid : flitBytes f 8 8 = s.fld SEC_IDENTITY.identity 0 0) (h : (s.lport p).reqUntil ≠ none) :
    s.resetAckRecv p f = s.linkReset p (s.lport p).reqCause (s.lport p).survivor := by
  simp [State.resetAckRecv, hid, State.proceedReset, h]

theorem State.resetAckRecv_other (h : flitBytes f 8 8 ≠ s.fld SEC_IDENTITY.identity 0 0 ∨ (s.lport p).reqUntil = none) :
    s.resetAckRecv p f = s := by
  unfold State.resetAckRecv
  split
  next hid => exact State.proceedReset_without (h.resolve_left (not_not.2 hid))
  next => rfl

theorem State.afterAck_owed {fs : List SlotFlit} {surv : Option Nat} (h : (s.lport p).ackOwed = some surv) :
    s.afterAck p fs =
      if fs.any (fun f => f.tag == 1 && flitBytes f.flit 0 1 == 6) then s.linkReset p 0x06 surv else s := by
  rw [State.afterAck, h]
  rfl

theorem State.ackLimit_without (h : (s.lport p).reqUntil = none) : s.ackLimit p = s := by
  simp [State.ackLimit, h]

theorem State.ackLimit_due {t : Nat} (h : (s.lport p).reqUntil = some t) : s.ackLimit p = (s.advance t).proceedReset p := by
  simp [State.ackLimit, h]

/-! ### The exchange of time (R315, R316) -/

/-- The delay of R315 from a TIME message that was received at a stamp. -/
def timeDelay (f : Flit) (t4 : Nat) : Int :=
  (((t4 : Int) - flitBytes f 24 8) - ((flitBytes f 8 8 : Int) - flitBytes f 16 8)) / 2

/-- The offset of R315 from it, with the asymmetry of the port. -/
def State.timeOffset (s : State) (p : Nat) (f : Flit) (t4 : Nat) : Int :=
  (((flitBytes f 16 8 : Int) - flitBytes f 24 8) - ((t4 : Int) - flitBytes f 8 8)) / 2 -
    (BitVec.ofNat 16 (s.fld LNK_TIME_ADJ.asym p 0)).toInt

section
variable {t4 : Nat}

theorem State.timeRecv_unused (h : (s.lport p).adm.version = 1 ∨ (s.lport p).discarding = true) :
    s.timeRecv p f t4 = s := by
  refine if_pos ?_
  rcases h with h | h <;> simp [h]

section
variable (hframed : (s.lport p).framed = true) (hver : (s.lport p).adm.version ≠ 1) (hdisc : (s.lport p).discarding = false)
  {u : State} (hu : s.setFld LNK_TIME_STATUS.peer_distance p 0 (flitBytes f 32 1) = u)
include hframed hver hdisc hu

/-- The first message of an exchange names no stamp of this end, so it only gives the peer's. -/
theorem State.timeRecv_first (h : flitBytes f 24 8 = 0) : s.timeRecv p f t4 =
    (u.setLport p { s.lport p with peerSend := flitBytes f 8 8, peerRecv := t4 }).chooseUpstream := by
  subst hu
  simp [State.timeRecv, hframed, hver, hdisc, h]

theorem State.timeRecv_measured (h : flitBytes f 24 8 ≠ 0) {w : State}
    (hw : ((u.setFld LNK_TIME_STATUS.delay p 0 (timeDelay f t4).toNat).setLport p { s.lport p with
      peerSend := flitBytes f 8 8, peerRecv := t4, offset := s.timeOffset p f t4 }).chooseUpstream = w) :
    s.timeRecv p f t4 = if w.lnk.upstream = some p then w.follow (s.timeOffset p f t4) else w := by
  subst hu hw
  have hused : (!(s.lport p).framed || (s.lport p).adm.version == 1 || (s.lport p).discarding) = false := by
    simp [hframed, hver, hdisc]
  have hknown : ((flitBytes f 24 8 : Nat) : Int) ≠ 0 := Int.natCast_ne_zero.2 h
  simp only [State.timeRecv, hused, hknown, Bool.false_eq_true, if_false, if_true, ne_eq, not_false_eq_true, decide_true,
    Bool.true_and, beq_iff_eq]
  rfl

end

end

section
variable {off : Int}

theorem State.follow_steps (hlock : s.lnk.locked = false) (h : 1000000 < (off * 250).natAbs) : s.follow off =
    ({ s with timAdj := s.timAdj + off * 250, lnk := { s.lnk with locked := true, slewAt := some s.now } } : State).fault
      18 2 0 := by
  simp [State.follow, hlock, h]

/-- The model's slew is the offset held between the bounds of its cap. -/
theorem clamp_eq_max_min {cap x : Int} (hcap : 0 ≤ cap) :
    (if x < -cap then -cap else if cap < x then cap else x) = max (-cap) (min cap x) := by
  split_ifs <;> omega

theorem State.follow_slews (h : s.lnk.locked = true ∨ (off * 250).natAbs ≤ 1000000)
    (hpast : s.lnk.slewAt.getD s.now ≤ s.now) : let cap : Int := ((s.now - s.lnk.slewAt.getD s.now) / 1000 : Nat)
    s.follow off = { s with
      timAdj := s.timAdj + max (-cap) (min cap (off * 250)), lnk := { s.lnk with locked := true, slewAt := some s.now } } := by
  have hstep : ¬((!s.lnk.locked && decide (1000000 < (off * 250).natAbs)) = true) := by
    rcases h with h | h <;> simp [h]
  have hcap : ((s.now : Int) - (s.lnk.slewAt.getD s.now : Nat)) / 1000 =
      (((s.now - s.lnk.slewAt.getD s.now) / 1000 : Nat) : Int) := by omega
  simp only [State.follow, hstep, hcap, Bool.false_eq_true, if_false]
  rw [clamp_eq_max_min (Int.natCast_nonneg _)]

end

theorem State.timeTimer_out_of_live (h : s.portSt p ≠ psLive) : s.timeTimer p = s := if_pos h

/-- A live port queues TIME at its time, unless one waits there already. -/
theorem State.timeTimer_live (h : s.portSt p = psLive) {u : State}
    (hu : (if (s.lport p).lastSend = 0 then s else s.advance (((250 * (s.lport p).lastSend : Nat) - s.timAdj).toNat +
      (if s.lnk.upstream = some p then us 1 else us 64))) = u) :
    s.timeTimer p = if ∃ f ∈ (u.lport p).ctl, flitBytes f 0 1 = 4 then u else u.pushCtl p (u.timeFlit p) := by
  subst hu
  simp only [State.timeTimer, h, ne_eq, not_true_eq_false, if_false, List.any_eq_true, beq_iff_eq]

end

/-- Settles O50: each message and timer by what it does to its port, at an entrance that all messages share; the fields of a
flit by its digits in base 256. -/
theorem linksAreAdmittedResetAndTimed : Obligations.LinksAreAdmittedResetAndTimed := by
  refine ⟨fun a b t v ht hv ha hab => ⟨flitBytes_ctlFlit_type ht hv ha hab, flitBytes_ctlFlit_field ht hv ha hab⟩,
    fun p f n i k s hi h => ?entrance, fun p f s hf hfr => ?message, fun p s hf => ?bound, fun s p c => rfl,
    fun p f s hf hfr => ?reset, fun s p fs surv => State.afterAck_owed, fun p s hf => ?ack,
    fun p f t4 s hf htype hfr => ?time, fun s off => ⟨State.follow_steps, State.follow_slews⟩, fun p s hf => ?timer⟩
  case entrance =>
    simp only [List.mem_cons, List.not_mem_nil, or_false, Prod.mk.injEq] at hi
    rcases hi with ⟨rfl, rfl⟩ | ⟨rfl, rfl⟩ | ⟨rfl, rfl⟩ | ⟨rfl, rfl⟩ | ⟨rfl, rfl⟩ | ⟨rfl, rfl⟩ | ⟨rfl, rfl⟩ | ⟨rfl, rfl⟩
    exacts [next_of_ctlFlit_ignored h, next_of_admitFlit_ignored h, next_of_admitFlit_ignored h, next_of_admitFlit_ignored h,
      next_of_ctlFlit_ignored h, next_of_ctlFlit_ignored h, next_of_ctlFlit_ignored h, next_of_ctlFlit_ignored h]
  case message =>
    refine ⟨fun ht => ⟨fun hst => ?_, fun hst hok => ?_, fun hst hok => ?_⟩, fun ht hk hst => ?_,
      fun ht hk hst hout => ⟨fun hbad => ?_, fun h5 hlt hz => ⟨fun hfew => ?_, fun hall => ?_⟩⟩, fun ht hk hst => ?_,
      fun ht => ⟨fun hrx => ?_, fun r hrx => ?_⟩⟩
    · exact next_of_ctlFlit hf hfr ht (State.helloRecv_out_of_hello hst)
    · exact next_of_ctlFlit hf hfr ht (State.helloRecv_failed hst hok)
    · exact next_of_ctlFlit hf hfr ht (State.helloRecv_passed hst hok)
    · exact next_of_admitFlit hf hfr ht hk (State.nonceRecv_taken hst)
    · exact next_of_admitFlit hf hfr ht hk (State.proofRecv_malformed hst hout hbad)
    · exact next_of_admitFlit hf hfr ht hk ((State.proofRecv_wellFormed hst hout h5 hlt hz rfl rfl).trans (if_pos hfew))
    · exact next_of_admitFlit hf hfr ht hk
        ((State.proofRecv_wellFormed hst hout h5 hlt hz rfl rfl).trans (if_neg (Nat.not_lt.2 hall)))
    · exact next_of_admitFlit hf hfr ht hk (State.verdictRecv_in_admit hst rfl)
    · exact next_of_ctlFlit hf hfr ht (State.poisonRecv_without hrx)
    · refine next_of_ctlFlit hf hfr ht ((State.poisonRecv_of_rx hrx rfl).trans ?_)
      cases r.id <;> rfl
  case bound =>
    exact ⟨fun hst => next_of_runs hf (State.stepLimit_hello hst),
      fun hst h => next_of_runs hf ((State.stepLimit_admit hst).trans (if_pos h)),
      fun hst h => next_of_runs hf ((State.stepLimit_admit hst).trans (if_neg (ne_true_of_eq_false h))),
      fun t ht hst => next_of_runs hf (State.bringRetry_due ht hst),
      fun h => next_of_runs hf (State.bringRetry_not_due h)⟩
  case reset =>
    exact ⟨fun ht h => next_of_ctlFlit hf hfr ht (State.resetReqRecv_dropped hfr h),
      fun ht howed h => next_of_ctlFlit hf hfr ht (State.resetReqRecv_owes_ack hfr howed h rfl),
      fun ht hid h => next_of_ctlFlit hf hfr ht (State.resetAckRecv_own hid h),
      fun ht h => next_of_ctlFlit hf hfr ht (State.resetAckRecv_other h)⟩
  case ack =>
    exact ⟨fun h => next_of_runs hf (State.ackLimit_without h), fun t h => next_of_runs hf (State.ackLimit_due h)⟩
  case time =>
    exact ⟨fun h => next_of_ctlFlit hf hfr htype (State.timeRecv_unused h),
      fun hver hdisc h => next_of_ctlFlit hf hfr htype (State.timeRecv_first hfr hver hdisc rfl h),
      fun hver hdisc h => next_of_ctlFlit hf hfr htype (State.timeRecv_measured hfr hver hdisc rfl h rfl)⟩
  case timer =>
    exact ⟨fun h => next_of_runs hf (State.timeTimer_out_of_live h),
      fun h => ⟨fun hnone => next_of_runs hf ((State.timeTimer_live h rfl).trans
          (if_neg fun ⟨f, hmem, h4⟩ => hnone f hmem h4)),
        fun hsome => next_of_runs hf ((State.timeTimer_live h rfl).trans (if_pos hsome))⟩⟩

end Sys2Proof.Machine
end

section
/-!
SUPPORT. What one step keeps: every command makes an effect within the parts that it names (`Instr.mayChange`), and then the block
goes on by itself; an idle step does neither more nor less than time and the cores bring (00_scope.md, log entry 5).
-/
namespace Sys2Proof.Machine

/-- A set of parts as the bits that `Keeps` speaks of. -/
def Part.mask (l : List Part) : Nat := l.foldl (fun m p => m ||| 2 ^ p.bit) 0

/-- The part of a bit. -/
def Part.ofBit (n : Nat) : Part :=
  [Part.now, .timAdj, .regs, .out, .delivered, .free, .waits, .hif, .ctxs, .handles, .xlt, .mat, .rma, .rsv, .log, .flt, .pmc,
    .hdl, .spd, .sem, .pwr, .rte, .lan, .lnk, .sec, .csc, .fmem, .spdMem, .hmem, .flash].getD n .now

theorem Part.ofBit_bit (p : Part) : Part.ofBit p.bit = p := by cases p <;> rfl

theorem Part.bit_inj {p q : Part} (h : p.bit = q.bit) : p = q := by
  rw [← p.ofBit_bit, h, q.ofBit_bit]

theorem Part.testBit_mask {p : Part} {l : List Part} (h : p ∉ l) : (Part.mask l).testBit p.bit = false := by
  have go : ∀ m : Nat, m.testBit p.bit = false → (l.foldl (fun m p => m ||| 2 ^ p.bit) m).testBit p.bit = false := by
    induction l with
    | nil => exact fun m hm => hm
    | cons q l ih =>
      obtain ⟨hq, hl⟩ := not_or.1 (mt List.mem_cons.2 h)
      refine fun m hm => ih hl _ ?_
      rw [Nat.testBit_or, hm, Nat.testBit_two_pow_of_ne fun e => hq (Part.bit_inj e.symm), Bool.or_false]
  exact go 0 (Nat.zero_testBit _)

/-- Where every part may change, the queue, the order of time and the data's form are still kept. -/
theorem Keeps.of_any {m : Nat} {s t : State} (h : Keeps m s t) : Keeps (2 ^ 30 - 1) s t :=
  ⟨h.pending, h.now, h.out, h.free, h.ok, fun p hp => absurd hp (by cases p <;> decide)⟩

/-- A command answers the state that its own effect makes, or what follows from it by itself, and the effect stays within a set of
parts. -/
def Effect (m : Nat) (s : State) (r : Res) : Prop := ∃ t, (r = .next t ∨ r = .next (t.done s)) ∧ Keeps m s t

theorem Effect.of {m : Nat} {s t : State} (h : Keeps m s t) : Effect m s (.next (t.done s)) := ⟨t, .inr rfl, h⟩

/-- A command out of its time answers the state as it was. -/
theorem Effect.nothing (m : Nat) (s : State) : Effect m s (.next s) := ⟨s, .inl rfl, .refl s⟩

theorem Keeps.ite {m : Nat} {s a b : State} {p : Prop} [Decidable p] (ha : Keeps m s a) (hb : Keeps m s b) :
    Keeps m s (if p then a else b) := by
  split
  · exact ha
  · exact hb

/-- Whatever a register access does is within the parts of every register command. -/
theorem execRegisterWrite_effect (m : Master) (pl : RegPlace) (z : ReqSize) (v : Word) (s : State) :
    Effect (Part.mask (Instr.registerWrite m pl z v).mayChange) s (execRegisterWrite m pl z v s) := by
  dsimp only [Instr.mayChange]
  cases pl with
  | space off =>
    exact .of (.ite (State.masterAccess_keeps _ _ _ _ (State.rxBytes_keeps _ _ (.refl s) rfl) rfl) (.refl s))
  | vfPage p k off => exact .of (State.vfPageWrite_keeps _ _ _ _ _ (State.rxBytes_keeps _ _ (.refl s) rfl) rfl)
  | dbPage pg off => exact .of (State.dbPageWrite_keeps _ _ _ _ (State.rxBytes_keeps _ _ (.refl s) rfl) rfl)

theorem execSlotPowerRemove_effect (p : HPort) (k : SubLink) (s : State) :
    Effect (Part.mask (Instr.slotPowerRemove p k).mayChange) s (execSlotPowerRemove p k s) := by
  dsimp only [Instr.mayChange]
  unfold execSlotPowerRemove
  split
  · exact .nothing _ s
  · exact .of (State.slotOff_keeps _ _ (.ite (State.advance_keeps _ (.refl s) rfl) (.refl s)) rfl)

theorem execSlotPerstRelease_effect (p : HPort) (k : SubLink) (s : State) :
    Effect (Part.mask (Instr.slotPerstRelease p k).mayChange) s (execSlotPerstRelease p k s) := by
  dsimp only [Instr.mayChange]
  unfold execSlotPerstRelease
  dsimp only
  split
  · exact .nothing _ s
  · exact .of (State.emit_keeps _ (State.setSub_keeps _ _ _ (State.advance_keeps _ (.refl s) rfl) rfl) rfl)

theorem execDllActiveChange_effect (p : HPort) (k : SubLink) (up : Bool) (width : Nat) (link : LinkEnd) (s : State) :
    Effect (Part.mask (Instr.dllActiveChange p k up width link).mayChange) s (execDllActiveChange p k up width link s) := by
  dsimp only [Instr.mayChange]
  unfold execDllActiveChange
  split
  · exact .of (State.dllChange_keeps _ _ _ _ _ (.refl s) rfl)
  · split
    · exact .nothing _ s
    · exact .of (State.subUp_keeps _ _ _ _ _ (.refl s) rfl)

theorem execDsAccessTimeout_effect (p : HPort) (k : SubLink) (s : State) :
    Effect (Part.mask (Instr.dsAccessTimeout p k).mayChange) s (execDsAccessTimeout p k s) := by
  dsimp only [Instr.mayChange]
  unfold execDsAccessTimeout
  split
  · split
    · exact .of (State.dsFail_keeps _ (State.advance_keeps _ (.refl s) rfl) rfl)
    · exact .nothing _ s
  · exact .nothing _ s

theorem execDescriptorReturn_effect (c : Nat) (ds : List Descriptor) (s : State) :
    Effect (Part.mask (Instr.descriptorReturn c ds).mayChange) s (execDescriptorReturn c ds s) := by
  dsimp only [Instr.mayChange]
  refine .of (State.returnDescriptors_keeps _ _ ?_ rfl)
  split
  · exact State.pmcEv_keeps _ _ _ _ _ (.refl s) rfl
  · exact .refl s

/-- Every command's effect stays within the parts that it names. -/
theorem exec_effect (c : Instr) (s : State) : Effect (Part.mask c.mayChange) s (exec c s) := by
  cases c
  all_goals dsimp only [Instr.mayChange]
  case hostLinkTrained => exact .of (State.linkTrained_keeps _ _ _ _ _ (.refl s) rfl)
  case perstAssert => exact .of (State.perstLow_keeps _ (.refl s) rfl)
  case perstDeassert => exact .of (State.perstHigh_keeps _ (.refl s) rfl)
  case configRequest => exact .of (State.cfgRequest_keeps _ _ _ (.refl s) rfl)
  case flrComplete => exact .of (State.fnDone_keeps _ _ (.refl s) rfl)
  case vfRegDataRead => exact .of (State.vfPageRead_keeps _ _ _ _ (.refl s) rfl)
  case msixEnableChange => exact .of (State.msixEnable_keeps _ _ _ (.refl s) rfl)
  case intxDisableChange => exact .of (State.intxDisable_keeps _ _ (.refl s) rfl)
  case presenceChange => exact .of (State.presence_keeps _ _ _ (.refl s) rfl)
  case powerFault => exact .of (State.slotFault_keeps _ _ (.refl s) rfl)
  case attentionButton => exact .of (State.attention_keeps _ _ (.refl s) rfl)
  case dsCfgRead | dsMemRead | handlerMemRead | flashRead => exact .of (State.regRead_keeps _ _ _ (.refl s) rfl)
  case dsCfgComplete | dsMemComplete => exact .of (State.dsComplete_keeps _ _ _ _ (.refl s) rfl)
  case dsInboundRequest => exact .of (State.dsInbound_keeps _ _ _ (.refl s) rfl)
  case descriptorFetch => exact .of (State.fetchDescriptors_keeps _ (.refl s) rfl)
  case nop | put | get | atomic | send | recvPost | recvCancel | collBroadcast | collReduce | collAllreduce |
    collReduceScatter | collAllgather | collBarrier | fenceContext | fenceTarget | counterArm | triggered |
    semAcquireWait | semTry | semRelease => exact .of (State.dispatchIf_keeps _ _ (.refl s) rfl)
  case contextClosed => exact .of (State.contextClosed_keeps _ (.refl s) rfl)
  case contextFill => exact .of (State.contextFill_keeps _ (.refl s) rfl)
  case pendingCommitApply => exact .of (State.applyPending_keeps _ (.refl s) rfl)
  case pinLimitExpire => exact .of (State.ifRuns_keeps _ (fun _ h => State.pinLimitEnd_keeps _ h rfl) (.refl s) rfl)
  case loaderEntry => exact .of (State.ifRuns_keeps _ (fun _ h => State.loaderEntry_keeps _ h rfl) (.refl s) rfl)
  case syncDone => exact .of (State.syncDone_keeps (.refl s) rfl)
  case sendHoldRelease => exact .of (State.ifRuns_keeps _ (fun _ h => State.sendRelease_keeps _ h rfl) (.refl s) rfl)
  case sendPacketArrival | withdrawalArrival =>
    exact .of (State.arrive_keeps _ _ _ (fun _ h => State.matArrive_keeps _ h rfl) (.refl s) rfl)
  case pullRequestArrival => exact .of (State.arrive_keeps _ _ _ (fun _ h => State.pullRequest_keeps _ h rfl) (.refl s) rfl)
  case pullResponseArrival => exact .of (State.arrive_keeps _ _ _ (fun _ h => State.pullResponse_keeps _ h rfl) (.refl s) rfl)
  case finishNoticeArrival => exact .of (State.arrive_keeps _ _ _ (fun _ h => State.finishRecv_keeps _ h rfl) (.refl s) rfl)
  case placementReportArrival =>
    exact .of (State.arrive_keeps _ _ _ (fun _ h => State.placementReport_keeps _ h rfl) (.refl s) rfl)
  case withdrawalAnswerArrival =>
    exact .of (State.arrive_keeps _ _ _ (fun _ h => State.withdrawalAnswer_keeps _ h rfl) (.refl s) rfl)
  case matRefusalArrival => exact .of (State.arrive_keeps _ _ _ (fun _ h => State.matRefused_keeps _ h rfl) (.refl s) rfl)
  case firmwareProbeResult =>
    exact .of (State.ifFirmware_keeps _ (fun _ h => State.firmwareProbe_keeps _ h rfl) (.refl s) rfl)
  case busyRetryExpire => exact .of (State.ifRuns_keeps _ (fun _ h => State.busyEnd_keeps _ h rfl) (.refl s) rfl)
  case recvHoldRelease => exact .of (State.ifRuns_keeps _ (fun _ h => State.recvRelease_keeps _ _ h rfl) (.refl s) rfl)
  case putDataArrival | getRequestArrival | fetchAdd | fetchAnd | fetchOr | fetchXor | swap | cswap | fetchMinS |
    fetchMaxS | fetchMinU | fetchMaxU | fetchAddF64 | cswap128 =>
    exact .of (State.arrive_keeps _ _ _ (fun _ h => State.rmaArrive_keeps _ h rfl) (.refl s) rfl)
  case getResponseArrival => exact .of (State.arrive_keeps _ _ _ (fun _ h => State.getResponse_keeps _ h rfl) (.refl s) rfl)
  case atomicopCompletion => exact .of (State.ifRuns_keeps _ (fun _ h => State.atomicOpDone_keeps _ _ h rfl) (.refl s) rfl)
  case atomicResponseArrival =>
    exact .of (State.arrive_keeps _ _ _ (fun _ h => State.atomicResponse_keeps _ h rfl) (.refl s) rfl)
  case putResponseArrival => exact .of (State.arrive_keeps _ _ _ (fun _ h => State.putResponse_keeps _ h rfl) (.refl s) rfl)
  case refusalArrival => exact .of (State.arrive_keeps _ _ _ (fun _ h => State.refusalRecv_keeps _ h rfl) (.refl s) rfl)
  case resendTimerExpire => exact .of (State.ifRuns_keeps _ (fun _ h => State.resendEnd_keeps _ h rfl) (.refl s) rfl)
  case operationTimeout => exact .of (State.ifRuns_keeps _ (fun _ h => State.timeoutEnd_keeps _ h rfl) (.refl s) rfl)
  case cscDataArrival | stepEndArrival | rerequestArrival | abortArrival =>
    exact .of (State.arrive_keeps _ _ _ (fun _ h => State.cscArrive_keeps _ h rfl) (.refl s) rfl)
  case rerequestTimerExpire => exact .of (State.ifRuns_keeps _ (fun _ h => State.rereqEnd_keeps _ _ _ h rfl) (.refl s) rfl)
  case stagingAvailable => exact .of (State.ifRuns_keeps _ (fun _ h => State.stagingFreed_keeps _ h rfl) (.refl s) rfl)
  case linkBlockSend => exact .of (State.ifRuns_keeps _ (fun _ h => State.sendCoded_keeps _ h rfl) (.refl s) rfl)
  case escapeWaitExpire => exact .of (State.ifRuns_keeps _ (fun _ h => State.escapeWait_keeps _ h rfl) (.refl s) rfl)
  case holdExpire => exact .of (State.ifRuns_keeps _ (fun _ h => State.holdEnd_keeps _ h rfl) (.refl s) rfl)
  case heldPacketRoute => exact .of (State.ifRuns_keeps _ (fun _ h => State.heldRoute_keeps _ h rfl) (.refl s) rfl)
  case retentionExpire => exact .of (State.ifRuns_keeps _ (fun _ h => State.retentionEnd_keeps _ h rfl) (.refl s) rfl)
  case lineStateNotice => exact .of (State.arrive_keeps _ _ _ (fun _ h => State.noticeIn_keeps _ h rfl) (.refl s) rfl)
  case lineStateTimer => exact .of (State.ifRuns_keeps _ (fun _ h => State.rowTimer_keeps h rfl) (.refl s) rfl)
  case hintRefresh => exact .of (State.ifRuns_keeps _ (fun _ h => State.hintRefresh_keeps h rfl) (.refl s) rfl)
  case urgentTokenGrant => exact .of (State.ifRuns_keeps _ (fun _ h => State.tokenGrant_keeps h rfl) (.refl s) rfl)
  case trainingFrame => exact .of (State.ifRuns_keeps _ (fun _ h => State.trainFrame_keeps _ _ h rfl) (.refl s) rfl)
  case signalDetect => exact .of (State.signalUp_keeps _ (.refl s) rfl)
  case trainingTimeout => exact .of (State.ifRuns_keeps _ (fun _ h => State.trainEnd_keeps _ h rfl) (.refl s) rfl)
  case eyeWindowEnd => exact .of (State.ifRuns_keeps _ (fun _ h => State.eyeWindow_keeps _ _ _ h rfl) (.refl s) rfl)
  case codewordReceive => exact .of (State.ifRuns_keeps _ (fun _ h => State.codeword_keeps _ _ h rfl) (.refl s) rfl)
  case alignmentMarker => exact .of (State.ifRuns_keeps _ (fun _ h => State.markerIn_keeps _ _ h rfl) (.refl s) rfl)
  case alignTimeout => exact .of (State.ifRuns_keeps _ (fun _ h => State.alignEnd_keeps _ h rfl) (.refl s) rfl)
  case signalLoss => exact .of (State.signalDown_keeps _ (.refl s) rfl)
  case m2CharacterReceive => exact .of (State.ifRuns_keeps _ (fun _ h => State.m2Receive_keeps _ _ h rfl) (.refl s) rfl)
  case nakRepeatTimer => exact .of (State.ifRuns_keeps _ (fun _ h => State.nakAgain_keeps _ h rfl) (.refl s) rfl)
  case replayTimeout => exact .of (State.ifRuns_keeps _ (fun _ h => State.replayLimit_keeps _ h rfl) (.refl s) rfl)
  case creditTimeout => exact .of (State.ifRuns_keeps _ (fun _ h => State.creditLimit_keeps _ _ h rfl) (.refl s) rfl)
  case hello => exact .of (State.ctlFlit_keeps _ _ _ _ (fun _ h => State.helloRecv_keeps _ _ h rfl) (.refl s) rfl)
  case admitNonce => exact .of (State.admitFlit_keeps _ _ _ _ (fun _ h => State.nonceRecv_keeps _ _ h rfl) (.refl s) rfl)
  case admitProof => exact .of (State.admitFlit_keeps _ _ _ _ (fun _ h => State.proofRecv_keeps _ _ h rfl) (.refl s) rfl)
  case admitVerdict => exact .of (State.admitFlit_keeps _ _ _ _ (fun _ h => State.verdictRecv_keeps _ _ h rfl) (.refl s) rfl)
  case poison => exact .of (State.ctlFlit_keeps _ _ _ _ (fun _ h => State.poisonRecv_keeps _ _ h rfl) (.refl s) rfl)
  case time => exact .of (State.ctlFlit_keeps _ _ _ _ (fun _ h => State.timeRecv_keeps _ _ _ h rfl) (.refl s) rfl)
  case resetReq => exact .of (State.ctlFlit_keeps _ _ _ _ (fun _ h => State.resetReqRecv_keeps _ _ h rfl) (.refl s) rfl)
  case resetAck => exact .of (State.ctlFlit_keeps _ _ _ _ (fun _ h => State.resetAckRecv_keeps _ _ h rfl) (.refl s) rfl)
  case resetAckTimeout => exact .of (State.ifRuns_keeps _ (fun _ h => State.ackLimit_keeps _ h rfl) (.refl s) rfl)
  case canaryTick => exact .of (State.ifRuns_keeps _ (fun _ h => State.canary_keeps _ h rfl) (.refl s) rfl)
  case bringupStepTimeout => exact .of (State.ifRuns_keeps _ (fun _ h => State.stepLimit_keeps _ h rfl) (.refl s) rfl)
  case bringupRetry => exact .of (State.ifRuns_keeps _ (fun _ h => State.bringRetry_keeps _ h rfl) (.refl s) rfl)
  case timeSendTimer => exact .of (State.ifRuns_keeps _ (fun _ h => State.timeTimer_keeps _ h rfl) (.refl s) rfl)
  case handlerDispatch => exact .of (State.dispatchEvent_keeps (.refl s) rfl)
  case handlerEcall => exact .of (State.ifCore_keeps _ _ (fun _ h => State.ecall_keeps _ h rfl) (.refl s) rfl)
  case handlerBudgetExpire => exact .of (State.ifCore_keeps _ _ (fun _ h => State.budgetEnd_keeps _ h rfl) (.refl s) rfl)
  case handlerException => exact .of (State.ifCore_keeps _ _ (fun _ h => State.handlerTrap_keeps _ _ h rfl) (.refl s) rfl)
  case tlbMiss => exact .of (State.ifCore_keeps _ _ (fun _ h => State.tlbMiss_keeps _ _ _ h rfl) (.refl s) rfl)
  case tlbFill | tlbLockFill =>
    exact .of (State.hxcmd_keeps _ _ (fun _ h => State.tlbFill_keeps _ _ _ _ _ h rfl) (.refl s) rfl)
  case tlbRefuse => exact .of (State.hxcmd_keeps _ _ (fun _ h => State.fillRefused_keeps _ _ h rfl) (.refl s) rfl)
  case tlbInvalidatePage => exact .of (State.hxcmd_keeps _ _ (fun _ h => State.tlbDropPage_keeps _ _ h rfl) (.refl s) rfl)
  case tlbInvalidateContext => exact .of (State.hxcmd_keeps _ _ (fun _ h => State.tlbDropCtx_keeps _ h rfl) (.refl s) rfl)
  case tlbInvalidateAll => exact .of (State.hxcmd_keeps _ _ (fun _ h => State.tlbDropAll_keeps _ h rfl) (.refl s) rfl)
  case tlbUnlockAll => exact .of (State.hxcmd_keeps _ _ (fun _ h => State.tlbUnlock_keeps _ h rfl) (.refl s) rfl)
  case tlbAgerTick => exact .of (State.ifRuns_keeps _ (fun _ h => State.agerTick_keeps h rfl) (.refl s) rfl)
  case timecmpMatch => exact .of (State.timerMatch_keeps _ (.refl s) rfl)
  case spdBusyRetry => exact .of (State.ifRuns_keeps _ (fun _ h => State.spdAgain_keeps _ h rfl) (.refl s) rfl)
  case retentionEntry => exact .of (State.bankRetained_keeps _ (.refl s) rfl)
  case bankWakeDone => exact .of (State.bankActive_keeps _ (.refl s) rfl)
  case marchDone => exact .of (State.marchDone_keeps _ _ (.refl s) rfl)
  case grantWindowExpire => exact .of (State.grantEnd_keeps _ (.refl s) rfl)
  case faultWindowEnd => exact .of (State.windowLimit_keeps _ _ (.refl s) rfl)
  case escalationExpire => exact .of (State.escLimit_keeps _ (.refl s) rfl)
  case pseudoChannelCopyDone => exact .of (State.copyDone_keeps _ (.refl s) rfl)
  case marchSliceDone => exact .of (State.sliceDone_keeps _ _ _ (.refl s) rfl)
  case faultInjectTick => exact .of (State.injectLimit_keeps _ (.refl s) rfl)
  case sramError => exact .of (State.sramError_keeps _ _ (.refl s) rfl)
  case scratchpadEccError => exact .of (State.spdEcc_keeps _ _ (.refl s) rfl)
  case cacheParityError => exact .of (State.coreParity_keeps _ _ (.refl s) rfl)
  case crossbarError => exact .of (State.xbarError_keeps _ _ (.refl s) rfl)
  case cscUnitError => exact .of (State.cscError_keeps _ (.refl s) rfl)
  case journalWriteCompletion => exact .of (State.journalAck_keeps _ (.refl s) rfl)
  case restatementCycleEnd => exact .of (State.cycleEnd_keeps (.refl s) rfl)
  case lagRateTick => exact .of (State.rateTick_keeps _ (.refl s) rfl)
  case pwrfailTaken => exact .of (State.pwrfailTake_keeps (.refl s) rfl)
  case sealFlushComplete => exact .of (State.sealFlushed_keeps (.refl s) rfl)
  case replayComplete => exact .of (State.replayEnd_keeps _ _ (.refl s) rfl)
  case quarantineExpire => exact .of (State.quarantineOver_keeps (.refl s) rfl)
  case pwrgoodRise => exact .of (State.powerRise_keeps _ _ (.refl s) rfl)
  case bootFusesSensed => exact .of (State.fusesSensed_keeps _ (.refl s) rfl)
  case bootPllLocked => exact .of (State.pllLocked_keeps (.refl s) rfl)
  case bootHeadersChecked => exact .of (State.headersChecked_keeps (.refl s) rfl)
  case bootFirmwareVerified => exact .of (State.firmwareVerified_keeps _ _ (.refl s) rfl)
  case hbmTrained => exact .of (State.hbmTrained_keeps (.refl s) rfl)
  case firmwareLoaded => exact .of (State.firmwareLoaded_keeps (.refl s) rfl)
  case bootRelease => exact .of (State.release_keeps _ (.refl s) rfl)
  case bootWatchdogExpire => exact .of (State.bootWatchdog_keeps (.refl s) rfl)
  case pwrgoodFall => exact .of (State.powerFall_keeps (.refl s) rfl)
  case quoteDone => exact .of (State.quoteDone_keeps (.refl s) rfl)
  case updateVerified => exact .of (State.verifyDone_keeps _ (.refl s) rfl)
  case firmwareReady => exact .of (State.fwReady_keeps (.refl s) rfl)
  case activationTimeout => exact .of (State.activationLimit_keeps (.refl s) rfl)
  case flashOpDone => exact .of (State.flashDone_keeps (.refl s) rfl)
  case logStallExpire => exact .of (State.stallExpire_keeps (.refl s) rfl)
  case logStallRelease => exact .of (State.wakeWaits_keeps (.refl s) rfl)
  case logMirrorTick => exact .of (State.logMirror_keeps (.refl s) rfl)
  case pmcCounterOverflow => exact .of (State.overflow_keeps _ (.refl s) rfl)
  case freezeTick => exact .of (State.freezeTick_keeps (.refl s) rfl)
  case sampleRecordWrite => exact .of (State.sampleRecord_keeps _ (.refl s) rfl)
  case sampleLimitExpire => exact .of (State.sampleLimit_keeps _ (.refl s) rfl)
  case eventPinEdge => exact .of (State.pinEdge_keeps _ (.refl s) rfl)
  case fabricTimeTick => exact .of (State.timeTick_keeps (.refl s) rfl)
  case pllUnlock => exact .of (State.pllUnlock_keeps _ (.refl s) rfl)
  case refclkLoss => exact .of (State.refLost_keeps _ (.refl s) rfl)
  case mbAccessDone => exact .of (State.mbDone_keeps (.refl s) rfl)
  case mbTimeout => exact .of (State.mbLimit_keeps (.refl s) rfl)
  case setdasa => exact .of (State.setDasa_keeps _ (.refl s) rfl)
  case entdaa => exact .of (State.entDaa_keeps _ (.refl s) rfl)
  case rstdaa => exact .of (State.rstDaa_keeps (.refl s) rfl)
  case enec => exact .of (State.enec_keeps (.refl s) rfl)
  case extest | idcode | samplePreload | clamp | highz | extestPulse | extestTrain | bypass =>
    exact .of (State.jtagLoad_keeps _ (.refl s) rfl)
  case regacc => exact .of (State.regacc_keeps _ (.refl s) rfl)
  case lifeTick => exact .of (State.life_keeps (.refl s) rfl)
  case hostReadCompletion => exact .of (State.readDone_keeps _ _ _ (.refl s) rfl)
  case hostCompletionTimeout => exact .of (State.readLost_keeps _ _ (.refl s) rfl)
  case pullRouteTimeout => exact .of (State.ifRuns_keeps _ (fun _ h => State.pullLimit_keeps _ h rfl) (.refl s) rfl)
  case patternCheckerReceive => exact .of (State.chkReceive_keeps _ _ (.refl s) rfl)
  case pwrfailFall | pwrfailRise => exact .of (State.pwrfailPin_keeps _ (.refl s) rfl)
  case functionReady => exact .of (State.fnReady_keeps _ _ (.refl s) rfl)
  case hbmRowRepairDone => exact .of (State.rowRepaired_keeps _ (.refl s) rfl)
  case aerError => exact .of (State.aer_keeps _ _ (.refl s) rfl)
  case registerWrite => exact execRegisterWrite_effect _ _ _ _ s
  case hotReset | hostDlDown => exact .of (.ite (State.portReset_keeps _ (.refl s) rfl) (.refl s))
  case flrInitiate => exact .of (.ite (State.fnReset_keeps _ _ (.refl s) rfl) (.refl s))
  case vfRegDataWrite => exact .of (State.vfPageWrite_keeps _ _ _ _ _ (State.rxBytes_keeps _ _ (.refl s) rfl) rfl)
  case vfTblDataRead | semAcquireRead => exact .of (State.directAccess_keeps _ _ _ _ (.refl s) rfl)
  case slotPowerRemove => exact execSlotPowerRemove_effect _ _ s
  case slotPerstRelease => exact execSlotPerstRelease_effect _ _ s
  case dllActiveChange => exact execDllActiveChange_effect _ _ _ _ _ s
  case dsAccessTimeout => exact execDsAccessTimeout_effect _ _ s
  case doorbellTail | cqHeadWrite | cqArm =>
    exact .of (State.dbPageWrite_keeps _ _ _ _ (State.rxBytes_keeps _ _ (.refl s) rfl) rfl)
  case inlineDoorbell =>
    exact .of (State.doorbell_keeps _ _ _ (fun _ h => State.dbInline_keeps _ _ _ h rfl)
      (State.rxBytes_keeps _ _ (.refl s) rfl) rfl)
  case descriptorReturn => exact execDescriptorReturn_effect _ _ s
  case fmemHostAccess => exact .of (.ite (State.fmemAccess_keeps _ _ _ (.refl s) rfl) (.refl s))
  case linkBlockArrival =>
    exact .of (State.ifRuns_keeps _ (fun _ h => State.blockRecv_keeps _ _ _ (State.streamCut_keeps _ _ h rfl) rfl)
      (.refl s) rfl)
  case triggerQueueRelease =>
    exact .of (State.ifRuns_keeps _ (fun _ h => State.fireWaiting_keeps (State.releasePosts_keeps _ h rfl) rfl) (.refl s) rfl)
  case scratchpadHostAccess => exact .of (.ite (State.spdAccess_keeps _ _ _ _ (.refl s) rfl) (.refl s))
  case hbmReadError => exact .of (.ite (State.hbmError_keeps _ _ (.refl s) rfl) (.refl s))
  case reportHoldRelease => exact .of (.ite (.refl s) (State.noteHolds_keeps (.refl s) rfl))
  case hbmZeroed => exact .of (State.xltRelease_keeps (State.hbmZeroed_keeps (.refl s) rfl) rfl)
  case railFault => exact .of (.ite (State.railFault_keeps _ (.refl s) rfl) (.refl s))
  case thermalReading => exact .of (.ite (State.thermal_keeps _ _ _ (State.advance_keeps _ (.refl s) rfl) rfl) (.refl s))
  case refclkReturn => exact .of (.ite (State.refBack_keeps _ (.refl s) rfl) (.refl s))
  case mbGo => exact .of (.ite (State.mbStart_keeps _ _ _ (.refl s) rfl) (.refl s))
  case nodeCoordWrite | setupDoneWrite | portCfgWrite | portSetupExit | portResetCmd | vfTblDataWrite | intxAck |
    slotPowerOff | slotPowerOn | dsCfgWrite | dsMemWrite | hdmCfgWrite | handleQuery | ctxRead | ctxOpen | ctxClose |
    windowCommit | xltEntryWrite | loaderStart | syncStart | orderReset | ctrValueWrite | ctrWordWrite | groupCfgWrite |
    groupMaskWrite | portMapWrite | bankDataWrite | epochFlip | laneReset | laneSetupExit | laneRetire | m2Slip |
    testCfgWrite | injectStart | txEqWrite | linkResetCmd | lnkSetupExit | lnkEnterSetup | ipiSet | coreReset |
    coreRetire | trigCfgWrite | handlerMemWrite | bankOwnerWrite | bankRetain | bankWake | marchStart | semReleaseWrite |
    semForce | escActNow | escWithdraw | firstRecordClear | faultInjectStart | sealCmd | detachCmd | resumePort |
    topResetWrite | quoteStart | updateVerify | updateActivate | commitSvn | flashProgram | flashErase | logHeadWrite |
    evselWrite | freezeNow | freezeAt | unfreeze | sampleCfgWrite | sampleHeadWrite | pinOwnerWrite =>
    exact .of (State.regWrite_keeps _ _ _ (.refl s) rfl)

/-- A command leaves the queue alone, takes nothing back, and keeps the data's form. -/
theorem exec_keeps (c : Instr) (s : State) : ∃ t, exec c s = .next t ∧ Keeps (2 ^ 30 - 1) s t := by
  obtain ⟨t, ht | ht, hk⟩ := exec_effect c s
  · exact ⟨t, ht, hk.of_any⟩
  · exact ⟨t.done s, ht, State.done_keeps s hk.of_any rfl⟩

/-- A step keeps the data's form and leaves the queue's rest. -/
theorem step_keeps {s t : State} (h : step s = .next t) : t.pending = s.pending.tail ∧ (s.Ok → t.Ok) := by
  unfold step at h
  split at h
  case h_1 hp =>
    cases h
    have hk := State.idleCycle_keeps (m := 2 ^ 30 - 1) (.refl s) rfl
    exact ⟨by rw [hk.pending, hp, List.tail_nil], hk.ok⟩
  case h_2 c rest hp =>
    obtain ⟨u, hu, hk⟩ := exec_keeps c { s with pending := rest }
    cases hu.symm.trans h
    exact ⟨by rw [hk.pending, hp, List.tail_cons],
      fun hs => hk.ok ⟨hs.fmem, hs.hmem, hs.spdMem, hs.flash, hs.regs, hs.ctxs, hs.semTable, hs.sems⟩⟩

/-- Settles O1: by the definition of a step. -/
theorem stepRunsTheCommandInFront : Obligations.StepRunsTheCommandInFront := by
  intro c rest s h
  unfold step
  rw [h]

/-- Settles O3: by what every command's effect, and what follows from it, keep. -/
theorem everyCommandAnswersAndTakesNothingBack : Obligations.EveryCommandAnswersAndTakesNothingBack := fun c s =>
  let ⟨t, ht, hk⟩ := exec_keeps c s
  ⟨t, ht, hk.pending, hk.now, hk.out, hk.free⟩

/-- Settles O4: every operation of the block keeps the data's form, and a step adds no command to the queue. -/
theorem stepKeepsTheInvariant : Obligations.StepKeepsTheInvariant := fun _ _ hs h =>
  let ⟨hp, hok⟩ := step_keeps h
  ⟨hok hs.ok, hp ▸ List.all_eq_true.2 fun c hc => List.all_eq_true.1 hs.pending c (List.mem_of_mem_tail hc)⟩

theorem Semaphore.ok_init : Semaphore.init.Ok := ⟨nofun, nofun, List.nodup_nil, Nat.zero_le _⟩

/-- Settles O5: after reset every table is empty, and so every semaphore is free. -/
theorem resetMeetsTheInvariant : Obligations.ResetMeetsTheInvariant :=
  ⟨⟨rfl, rfl, rfl, rfl, rfl, rfl, rfl, fun _ => Semaphore.ok_init⟩, rfl⟩

/-- Settles O7: every command's effect stays within the parts that it names. -/
theorem commandsChangeOnlyTheirParts : Obligations.CommandsChangeOnlyTheirParts := fun c s =>
  let ⟨t, ht, hk⟩ := exec_effect c s
  ⟨t, ht, fun p hp => hk.same p (Part.testBit_mask hp)⟩

end Sys2Proof.Machine
end


section
/-!
SUPPORT. What follows a command by itself (`State.done`): the parts of the state that it never changes, and the conditions under
which it adds nothing (R386, R401).
-/
namespace Sys2Proof.Machine

/-- A fold whose every step leaves the start as it is. -/
theorem foldl_of_fixed {α β : Type} {f : β → α → β} {b : β} {l : List α} (h : ∀ x ∈ l, f b x = b) :
    l.foldl f b = b := by
  induction l with
  | nil => rfl
  | cons x l ih =>
    rw [List.foldl_cons, h x List.mem_cons_self]
    exact ih fun y hy => h y (List.mem_cons_of_mem _ hy)

section
variable {s t : State}

theorem State.resetWhenSealed_of_none (h : t.sec.resetWaits = false) : t.resetWhenSealed = t := by
  simp [State.resetWhenSealed, h]

theorem State.releaseHeld_of_none (h : t.rsv.held = []) : t.releaseHeld = t := by
  unfold State.releaseHeld
  split
  · rfl
  · rw [h, List.foldl_nil, ← h]

/-- Waiting accesses go on only when what held them has ended, and a reset only when one waits. -/
theorem State.done_of_still (hds : s.hif.ds.isSome = true → t.releaseHeld.hif.ds.isSome = true)
    (hrsv : s.rsvHeld = true → t.releaseHeld.rsvHeld = true) (hreset : t.releaseHeld.sec.resetWaits = false) :
    t.done s = t.releaseHeld.settle.journalFlush := by
  have hwake : ((s.hif.ds.isSome && t.releaseHeld.hif.ds.isNone) || (s.rsvHeld && !t.releaseHeld.rsvHeld)) = false := by
    rw [Bool.or_eq_false_iff, Bool.and_eq_false_imp, Bool.and_eq_false_imp]
    refine ⟨fun h => ?_, fun h => by rw [hrsv h]; rfl⟩
    rw [← Option.not_isSome, hds h]
    rfl
  unfold State.done
  dsimp only
  rw [hwake, if_neg Bool.false_ne_true, State.resetWhenSealed_of_none hreset]

end

section
variable {t : State}

theorem State.inlineGoAll_of_none (h : ∀ e ∈ t.ctxs, (t.ctx e.1).inlineWait = []) : t.inlineGoAll = t :=
  foldl_of_fixed fun e he => State.inlineGo_of_idle (.inl (h e he))

theorem State.cscGoAll_of_none (hinst : t.csc.insts = []) (hout : t.csc.out = []) : t.cscGoAll = t := by
  simp [State.cscGoAll, State.cscDrain, hinst, hout]

theorem State.followAll_of_none (h : t.follow? = none) (n : Nat) : t.followAll n = t := by
  cases n with
  | zero => rfl
  | succ n => rw [State.followAll, h]

theorem State.waiter_of_none (h : ∀ x ∈ t.handles.map Prod.snd, x.phase ≠ .waiting) (f : Handle → Bool) :
    t.waiter f = none := by
  refine List.find?_eq_none.2 fun x hx hw => ?_
  rw [Bool.and_eq_true, beq_iff_eq] at hw
  exact h x hx hw.1

/-- At rest there is no gather, trigger, waiting handle or message to copy for anything to follow from. -/
theorem State.AtRest.follow (h : t.AtRest) : t.follow? = none := by
  have hgather : t.readyGather = none := by simp [State.readyGather, h.gathers]
  have htrig : t.readyTrig = none := by simp [State.readyTrig, h.trigs]
  unfold State.follow?
  simp only [hgather, htrig, State.waiter_of_none h.handles, h.copies, Option.map_none]

theorem State.noteHolds_of_noted (h : ∀ e ∈ t.ctxs, (t.holdCause e.1 != 0) = (t.ctx e.1).inHold) : t.noteHolds = t :=
  foldl_of_fixed fun e he => by simp [State.noteHold, h e he]

theorem State.rescore_of_none (h : ∀ x ∈ t.rte.pkts, ∀ k, x.place ≠ .waiting k ∧ x.place ≠ .held k) : t.rescore = t := by
  refine foldl_of_fixed fun x hx => ?_
  split
  case h_1 k hk => exact absurd hk (h x hx k).1
  case h_2 k hk => exact absurd hk (h x hx k).2
  case h_3 => rfl

/-- Nothing goes on by itself where nothing waits, or while the data path is stopped. -/
theorem State.settle_of_rest (hq : t.Quiet) (h : t.AtRest ∨ t.frozen = true) : t.settle = t := by
  unfold State.settle
  rw [State.inlineGoAll_of_none hq.inline]
  dsimp only
  split
  next => rfl
  next hf =>
    have hr := h.resolve_right hf
    have hfire : t.fireWaiting = t := by simp [State.fireWaiting, hr.counters]
    rw [hr.posts, List.length_nil, State.releasePosts, hfire, State.cscGoAll_of_none hr.insts hr.multicasts,
      State.followAll_of_none hr.follow, State.noteHolds_of_noted hr.holds, State.rescore_of_none hr.packets]

theorem State.journalFlush_of_written (h : t.rsv.staged.all (·.written) = true) : t.journalFlush = t := if_pos h

end

/-- Settles O6: what RSV held is none, no access wakes, nothing goes on, and every staged record is written. -/
theorem restAddsNothing : Obligations.RestAddsNothing := by
  intro s t hds hrsv hq hrest
  have hheld := State.releaseHeld_of_none hq.changes
  rw [State.done_of_still (by rwa [hheld]) (by rwa [hheld]) (by rw [hheld, hq.reset]), hheld, State.settle_of_rest hq hrest,
    State.journalFlush_of_written hq.staged]

theorem State.releaseHeld_of_held {t : State} (h : t.rsvHeld = true) : t.releaseHeld = t := if_pos h

/-- What follows by itself from a command that wakes nothing: the changes held, the blocks' own work and the journal's writes. -/
theorem State.keeps_releaseHeld_settle_journalFlush (t : State) :
    Keeps 247463868 t t.releaseHeld.settle.journalFlush :=
  State.journalFlush_keeps (State.settle_keeps (State.releaseHeld_keeps (.refl t) rfl) rfl) rfl

/-- Settles O8: what follows consists of operations that keep the parts named; only the changes held reach the change log. -/
theorem whatFollowsLeavesTimeLogLanesAndCode : Obligations.WhatFollowsLeavesTimeLogLanesAndCode := by
  intro s t hds hrsv hreset
  have hsec : t.releaseHeld.sec = t.sec := (State.releaseHeld_keeps (m := 247463868) (.refl t) rfl).same .sec rfl
  have hdone : t.done s = t.releaseHeld.settle.journalFlush :=
    State.done_of_still hds (fun h => by rw [State.releaseHeld_of_held (hrsv h)]; exact hrsv h) (by rw [hsec, hreset])
  rw [hdone]
  have hfree : ∀ p ∈ [Part.now, .timAdj, .waits, .lan, .sec, .hmem, .flash], Nat.testBit 247463868 p.bit = false := by decide
  refine ⟨fun p hp => t.keeps_releaseHeld_settle_journalFlush.same p (hfree p hp), fun hheld => ?_⟩
  rw [State.releaseHeld_of_none hheld]
  exact (State.journalFlush_keeps (m := 247447484) (State.settle_keeps (.refl t) rfl) rfl).same .log rfl

end Sys2Proof.Machine
end


section
/-!
SUPPORT. The ends of host requests: the data of a read fills its chunk, and a request that reaches its completion timeout is
counted and dropped with what it was for (R45, R384).
-/
namespace Sys2Proof.Machine

section
variable {s : State} {p tag : Nat} {r : HostRead}

/-- An outstanding read gives its tag back, and its data counts as received payload (R445). -/
def State.readTaken (s : State) (p tag n : Nat) : State :=
  ({ s with hif := { s.hif with reads := SMap.erase s.hif.reads tag } } : State).pmcEv 1 2 p 0 n

/-- The read of a tag, with every other read of its gather, is no longer awaited, and the gather is dropped. -/
def State.gatherLost (s : State) (r : HostRead) : State :=
  { s with hif := { s.hif with
      reads := s.hif.reads.filter fun e => e.2.gather != r.gather, gathers := SMap.erase s.hif.gathers r.gather } }

/-- A host request outside the gathers is no longer awaited. -/
def State.otherGone (s : State) (tag : Nat) : State :=
  { s with hif := { s.hif with others := SMap.erase s.hif.others tag } }

theorem State.gathers_readTaken (n : Nat) : (s.readTaken p tag n).hif.gathers = s.hif.gathers := by simp [State.readTaken]

theorem State.readDone_of_awaited {data : List Byte} (hr : SMap.find? s.hif.reads tag = some r) (hp : r.p = p)
    (hlen : r.len = data.length) : s.readDone p tag data =
      match SMap.find? (s.readTaken p tag data.length).hif.gathers r.gather with
      | some g => { s.readTaken p tag data.length with hif := { (s.readTaken p tag data.length).hif with
          gathers := SMap.insert (s.readTaken p tag data.length).hif.gathers r.gather
            { g with chunks := g.chunks.set r.chunk (some data) } } }
      | none => s.readTaken p tag data.length := by
  unfold State.readDone
  simp only [hr, hp, hlen, ne_eq, not_true_eq_false, or_self, if_false]
  rfl

theorem State.readLost_of_awaited (hr : SMap.find? s.hif.reads tag = some r) (hp : r.p = p) :
    s.readLost p tag = match (SMap.find? (s.fault 1 (8 * p + 2) p).hif.gathers r.gather).map (·.use) with
      | some (.csc h dest seg _) => ((s.fault 1 (8 * p + 2) p).gatherLost r).cscUnread h dest seg
      | some (.core c) => ((s.fault 1 (8 * p + 2) p).gatherLost r).coreUnread c
      | _ => (s.fault 1 (8 * p + 2) p).gatherLost r := by
  unfold State.readLost
  simp only [hr, hp, ne_eq, not_true_eq_false, if_false]
  rfl

theorem State.readLost_other {r : OtherReq} (hr : SMap.find? s.hif.reads tag = none)
    (ho : SMap.find? s.hif.others tag = some r) (hp : r.p = p) : s.readLost p tag =
      match r.use with
      | .descriptors c => if (((s.fault 1 (8 * p + 2) p).otherGone tag).ctx c).fetching.any fun x => x.2.2 == tag then
          ((s.fault 1 (8 * p + 2) p).otherGone tag).setCtx c
            { ((s.fault 1 (8 * p + 2) p).otherGone tag).ctx c with fetching := none }
        else (s.fault 1 (8 * p + 2) p).otherGone tag
      | .loader => ((s.fault 1 (8 * p + 2) p).otherGone tag).loaderEnd 3
      | .seal => ((s.fault 1 (8 * p + 2) p).otherGone tag).sealFlush
      | .atomic _ => (s.fault 1 (8 * p + 2) p).otherGone tag := by
  unfold State.readLost State.otherLost
  simp only [hr, ho, hp, ne_eq, not_true_eq_false, if_false]
  rfl

end

/-- Settles O21: each end by what its function makes of the request that the tag names. -/
theorem hostReadsEndWithDataOrByTimeout : Obligations.HostReadsEndWithDataOrByTimeout := by
  refine ⟨fun p tag data s r hr hp hlen => ?data, fun p tag s r hr hp => ?gather, fun p tag s r hr ho hp => ?other⟩
  case data =>
    have h := State.readDone_of_awaited hr hp hlen
    have hsame := congrArg (SMap.find? · r.gather) (State.gathers_readTaken (s := s) (p := p.val) (tag := tag) data.length)
    exact ⟨fun g hg => next_done_congr (by rw [h, hsame.trans hg]; rfl),
      fun hg => next_done_congr (by rw [h, hsame.trans hg]; rfl)⟩
  case gather =>
    have h := State.readLost_of_awaited hr hp
    refine ⟨fun g hg => ⟨fun _ dest seg again hu => ?_, fun c hu => ?_, fun hcsc hcore => ?_⟩, fun hg => ?_⟩
    · exact next_done_congr (by rw [h, hg, Option.map_some, hu]; rfl)
    · exact next_done_congr (by rw [h, hg, Option.map_some, hu]; rfl)
    · refine next_done_congr ?_
      rw [h, hg, Option.map_some]
      cases hu : g.use
      case csc => exact absurd hu (hcsc _ _ _ _)
      case core => exact absurd hu (hcore _)
      all_goals rfl
    · exact next_done_congr (by rw [h, hg]; rfl)
  case other =>
    have h := State.readLost_other hr ho hp
    refine ⟨fun c hu hf => ?_, fun hu => ?_, fun hu => ?_⟩
    · exact next_done_congr (by rw [h, hu]; exact if_pos hf)
    · exact next_done_congr (by rw [h, hu]; rfl)
    · exact next_done_congr (by rw [h, hu]; rfl)

end Sys2Proof.Machine
end


section
/-!
SUPPORT. A core cycle without a command: the clock and the lines, what each live core does, and what an instruction does to the
core's registers (R321, R323, R324, R443).
-/
namespace Sys2Proof.Machine

/-! ## The cycle -/

section
variable {s : State}

/-- The lines' part of a core cycle ends with it. -/
theorem State.lineCycle_now (s : State) : s.lineCycle.now = (s.now / 500 + 1) * 500 := by
  have hend : s.endCycle.now = (s.now / 500 + 1) * 500 := by
    rw [State.endCycle, State.advance_now]
    omega
  unfold State.lineCycle
  dsimp only
  split
  · exact hend
  · have hsame : (s.endCycle.lineSends s.now s.endCycle.now).now = s.endCycle.now :=
      (State.lineSends_keeps (m := 4259884) _ _ (.refl _) rfl).same .now rfl
    rw [hsame, hend]

theorem State.coreCycle_of_stopped (h : s.frozen = true ∨ s.liveCores = []) : s.coreCycle = s := by
  rcases h with h | h <;> simp [State.coreCycle, h]

theorem State.coreCycle_of_live (hf : s.frozen = false) (hl : s.liveCores ≠ []) :
    s.coreCycle = (s.liveCores.foldl State.coreStep s).done s := by
  simp [State.coreCycle, hf, hl]

theorem step_of_idle (h : s.pending = []) : step s = .next s.lineCycle.coreCycle := by
  unfold step
  rw [h]
  rfl

end

/-! ## What a core does in a cycle -/

section
variable {s : State} {c : Nat}

theorem State.coreStep_of_waiting (h : (s.core c).wait ≠ none) : s.coreStep c = s :=
  if_pos (Option.isSome_iff_ne_none.2 h)

theorem State.coreStep_of_irq {k : Nat} (hw : (s.core c).wait = none) (hi : s.coreIrq c = some k) :
    s.coreStep c = s.takeIrq c k := by
  simp [State.coreStep, hw, hi]

theorem State.coreStep_of_main (hw : (s.core c).wait = none) (hi : s.coreIrq c = none) (hu : (s.core c).umode = false)
    (hpc : (s.core c).pc = residentMain) : s.coreStep c = s := by
  simp [State.coreStep, hw, hi, hu, hpc]

/-- Outside the resident firmware a core performs an instruction. -/
theorem State.coreStep_of_code (hw : (s.core c).wait = none) (hi : s.coreIrq c = none)
    (h : (s.core c).umode = true ∨ (s.core c).pc ∉ [residentMain, residentTrap, residentRefill]) :
    s.coreStep c = s.coreExec c := by
  rcases h with hu | hpc
  · simp [State.coreStep, hw, hi, hu]
  · obtain ⟨hmain, htrap, hrefill⟩ : (s.core c).pc ≠ residentMain ∧ (s.core c).pc ≠ residentTrap ∧
        (s.core c).pc ≠ residentRefill := by simpa using hpc
    simp [State.coreStep, hw, hi, hmain, htrap, hrefill]

variable {u w : State} {lo hi : Nat}

theorem State.coreExec_of_no_fetch (h : s.coreFetch c (s.core c).pc = (none, u)) : s.coreExec c = u := by
  simp only [State.coreExec, h]

theorem State.coreExec_of_short (h : s.coreFetch c (s.core c).pc = (some lo, u)) (hlo : lo % 4 ≠ 3) :
    s.coreExec c = u.coreDo c (rvDecode16 lo) ((s.core c).pc + 2) := by
  simp only [State.coreExec, h]
  exact if_pos hlo

theorem State.coreExec_of_long (h : s.coreFetch c (s.core c).pc = (some lo, u)) (hlo : lo % 4 = 3)
    (hh : u.coreFetch c ((s.core c).pc + 2) = (some hi, w)) :
    s.coreExec c = w.coreDo c (rvDecode32 (lo + hi * 2 ^ 16)) ((s.core c).pc + 4) := by
  simp only [State.coreExec, h, hh, hlo, ne_eq, not_true_eq_false, if_false]

end

/-! ## The registers of a core -/

section
variable (v : HCore) (rd : Nat) (w : Word)

theorem HCore.setX_zero : v.setX 0 w = v := if_pos rfl

theorem HCore.xr_zero : v.xr 0 = 0 := if_pos rfl

theorem HCore.setX_minstret : (v.setX rd w).minstret = v.minstret := by
  unfold HCore.setX
  split <;> rfl

variable {v}

theorem HCore.setX_wf (h : SMap.wf (fun _ => (0 : Word)) v.x = true) : SMap.wf (fun _ => (0 : Word)) (v.setX rd w).x = true := by
  unfold HCore.setX
  split
  · exact h
  · exact SMap.wf_put h rd w

theorem HCore.xr_setX (h : SMap.wf (fun _ => (0 : Word)) v.x = true) (r : Nat) :
    (v.setX rd w).xr r = if r = rd ∧ r ≠ 0 then w else v.xr r := by
  unfold HCore.xr
  split
  case isTrue hr => simp [hr]
  case isFalse hr =>
    unfold HCore.setX
    split
    case isTrue hrd => simp [hrd, hr]
    case isFalse => rw [SMap.getD_put h]; simp [hr]

end

/-- Settles O2: an idle step is the lines' cycle and then the cores', and each clause on a core names the branch that its step or
its instruction takes. -/
theorem idleStepEndsTheCycle : Obligations.IdleStepEndsTheCycle := by
  refine ⟨fun s hp => ⟨⟨_, step_of_idle hp, ?_, ?_⟩, fun h => ⟨?_, s.lineCycle_now⟩, fun hf hl => ?_⟩,
    fun s c => ⟨State.coreStep_of_waiting, fun hw k hi => (State.coreStep_of_irq hw hi).trans rfl, State.coreStep_of_main,
      fun hw hi h => ⟨fun lo u hlo => ⟨fun h3 => ?_, fun h3 hi' w hhi => ?_⟩, fun u hu => ?_⟩⟩,
    fun s c w k rd rs1 rs2 next => ?_,
    fun v rd w => ⟨v.setX_zero w, v.xr_zero, fun h => ⟨HCore.setX_wf rd w h, HCore.xr_setX rd w h⟩⟩,
    fun s c n rd rs1 rs2 sg off next h => ⟨if_pos h, if_pos h⟩⟩
  · exact (State.idleCycle_keeps (m := 1073741821) (.refl s) rfl).pending.trans hp
  · rw [← s.lineCycle_now]
    exact (State.coreCycle_keeps (m := 1073741821) (.refl s.lineCycle) rfl).now
  · rw [step_of_idle hp, State.coreCycle_of_stopped h]
  · rw [step_of_idle hp, State.coreCycle_of_live hf hl]
  · rw [State.coreStep_of_code hw hi h, State.coreExec_of_short hlo h3]
  · rw [State.coreStep_of_code hw hi h, State.coreExec_of_long hlo h3 hhi]
  · rw [State.coreStep_of_code hw hi h, State.coreExec_of_no_fetch hu]
  · dsimp only
    rw [← (s.core c).setX_minstret rd]
    rfl

end Sys2Proof.Machine
end


section
/-!
SUPPORT. Fault events: what an event does before a device stop, what it leaves in the block's fault window, and what the first
record reads as (R361, R363, R367 to R372).
-/
namespace Sys2Proof.Machine

/-! ### Registers apart from the one written -/

/-- A register elsewhere reads as before. -/
theorem State.reg_setFld_of_ne {q : RegRef} (s : State) (f : Field) (i k v : Nat) (h : q.off ≠ (RegRef.mk f.reg i k).off) :
    (s.setFld f i k v).reg q = s.reg q := SMap.getD_put_of_ne s.regs _ h

theorem State.fld_of_reg {s t : State} {f : Field} {i k : Nat} (h : t.reg ⟨f.reg, i, k⟩ = s.reg ⟨f.reg, i, k⟩) :
    t.fld f i k = s.fld f i k := congrArg (fun w : Word => bitsOf w.toNat f.hi f.lo) h

theorem State.flag_of_reg {s t : State} {f : Field} {i k : Nat} (h : t.reg ⟨f.reg, i, k⟩ = s.reg ⟨f.reg, i, k⟩) :
    t.flag f i k = s.flag f i k := congrArg (· != 0) (State.fld_of_reg h)

theorem State.flag_of_fld {s t : State} {f : Field} {i k : Nat} (h : t.fld f i k = s.fld f i k) :
    t.flag f i k = s.flag f i k := congrArg (· != 0) h

/-- The registers of a fault window lie in the last 64 KiB of their block's 1 MiB (R357). -/
def RegRef.InWindow (q : RegRef) : Prop := 0xF0000 ≤ q.off % 0x100000

/-- The messages of a vector touch pending bits only, which are in no fault window. -/
theorem State.reg_vecEvent {q : RegRef} (hq : q.InWindow) (s : State) {p f vec : Nat} (hp : p < 8) (hv : vec < 2048) :
    (s.vecEvent p f vec).reg q = s.reg q := by
  have hpba (t : State) : (t.setPba p f vec true).reg q = t.reg q := by
    unfold State.setPba
    split
    · refine SMap.getD_put_of_ne t.regs _ fun h => ?_
      have hoff : (RegRef.mk .HIF_MSIX_PBA p (vec / 64)).off % 0x100000 < 0xF0000 := by
        simp only [RegRef.off, Reg.shape]
        omega
      unfold RegRef.InWindow at hq
      omega
    · rfl
  unfold State.vecEvent
  dsimp only
  split
  · rfl
  · split
    · split
      · exact hpba s
      · rfl
    · split
      next h0 =>
        subst h0
        have hwire (t : State) : (t.updateWire p).reg q = t.reg q := by
          unfold State.updateWire
          dsimp only
          split
          · rfl
          · simp [State.reg]
        rw [hwire, hpba]
      · exact hpba s

theorem State.reg_blockVec {q : RegRef} (hq : q.InWindow) (s : State) {vec : Nat} (hv : vec < 2048) :
    (s.blockVec vec).reg q = s.reg q := by
  have hfold (l : List Nat) (t : State) (hl : ∀ p ∈ l, p < 8) :
      (l.foldl (fun s p => if s.endpoint p && s.flag HIF_PORT_CFG.block_irq_en p 0 then s.vecEvent p 0 vec else s) t).reg q =
        t.reg q := by
    induction l generalizing t with
    | nil => rfl
    | cons p l ih =>
      obtain ⟨hp, hl⟩ := List.forall_mem_cons.1 hl
      rw [List.foldl_cons, ih _ hl]
      split
      · exact State.reg_vecEvent hq t hp hv
      · rfl
  exact hfold _ s fun p hp => List.mem_range.1 hp

/-! ### The steps of an event -/

/-- Whether a window's rule has a source become severe with this event (R363). -/
def State.eventCounted (s : State) (blk src : Nat) : State :=
  let t := s.bump FLT_COUNT.total blk src
  if t.flag FLT_COUNT.severe blk src then t else t.windowCount blk src

/-- Whether an event makes its source severe (R363). -/
def State.eventTurns (s : State) (blk src : Nat) : Bool :=
  !(s.bump FLT_COUNT.total blk src).flag FLT_COUNT.severe blk src && (s.eventCounted blk src).windowFull blk src

/-- An event counted, and its source marked severe where it has become so (R361, R363). -/
def State.eventMarked (s : State) (blk src : Nat) : State :=
  if s.eventTurns blk src then (s.eventCounted blk src).setFlag FLT_COUNT.severe blk src true else s.eventCounted blk src

/-- The severity that an event is recorded with (R365). -/
def State.eventSeverity (s : State) (blk src : Nat) (stop : Bool) : Nat :=
  if stop then 3 else if s.eventTurns blk src then 2
  else if (s.eventMarked blk src).fld FLT_THRESH.n_events blk src = 0 then 0 else 1

/-- An event up to its message: counted and recorded, and the escalation timer started. -/
def State.eventRecorded (s : State) (blk src m detail : Nat) (inj stop : Bool) (react : Reaction) : State × Bool :=
  let r := (s.eventMarked blk src).record blk (s.eventSeverity blk src stop) src m detail inj
  (if s.eventTurns blk src && react != .none && !stop then r.1.escalate blk src else r.1, r.2 || s.eventTurns blk src)

/-- An event up to the device stop it may end with. -/
def State.eventTold (s : State) (blk src m detail : Nat) (inj stop : Bool) (react : Reaction) : State :=
  let r := s.eventRecorded blk src m detail inj stop react
  if r.2 then r.1.blockVec blk else r.1

theorem State.event_of_spec {blk src : Nat} {sp : SrcSpec} (hsp : sourceSpec blk src = some sp) (s : State) (m detail : Nat)
    (inj fatal : Bool) : s.event blk src m detail inj fatal =
      (let stop := fatal || sp.react == .deviceStop
       let t := s.eventTold blk src m detail inj stop sp.react
       if stop && (!inj || t.flag FLT_ESC_ACTION.hw_enable blk 0) then t.deviceStop blk src else t) := by
  unfold State.event
  rw [hsp]
  rfl

theorem blockSource_lt {blk src : Nat} {sp : SrcSpec} (h : blockSource blk src = some sp) : src < 2048 := by
  unfold blockSource at h
  split at h <;> grind

/-- A block has sources 0 to 2,047. -/
theorem sourceSpec_lt {blk src : Nat} {sp : SrcSpec} (h : sourceSpec blk src = some sp) : src < 2048 := by
  unfold sourceSpec at h
  split at h
  · omega
  · split at h
    · omega
    · split at h
      · omega
      · exact blockSource_lt h

/-! ### The count of a source -/

section
variable {s : State} {blk src : Nat} {q : RegRef}

/-- A window that opens sets win_count to 1 and touches no other register. -/
theorem State.openWindow_regs (s : State) (blk src : Nat) :
    (s.openWindow blk src).regs = (s.setFld FLT_COUNT.win_count blk src 1).regs := by
  unfold State.openWindow
  dsimp only

theorem State.reg_openWindow (s : State) (blk src : Nat) (q : RegRef) :
    (s.openWindow blk src).reg q = (s.setFld FLT_COUNT.win_count blk src 1).reg q := by
  unfold State.reg
  rw [State.openWindow_regs]

theorem State.reg_windowCount (s : State) (hq : q.off ≠ (RegRef.mk .FLT_COUNT blk src).off) :
    (s.windowCount blk src).reg q = s.reg q := by
  have hopen : (s.openWindow blk src).reg q = s.reg q :=
    (State.reg_openWindow s blk src q).trans (State.reg_setFld_of_ne s _ _ _ _ hq)
  unfold State.windowCount
  split
  · split
    · exact State.reg_setFld_of_ne s _ _ _ _ hq
    · exact hopen
  · exact hopen

theorem State.reg_eventCounted (s : State) (hq : q.off ≠ (RegRef.mk .FLT_COUNT blk src).off) :
    (s.eventCounted blk src).reg q = s.reg q := by
  have hbump : (s.bump FLT_COUNT.total blk src).reg q = s.reg q := State.reg_setFld_of_ne s _ _ _ _ hq
  unfold State.eventCounted
  dsimp only
  split
  · exact hbump
  · rw [State.reg_windowCount _ hq, hbump]

/-- Marking an event touches its source's FLT_COUNT only. -/
theorem State.reg_eventMarked (s : State) (hq : q.off ≠ (RegRef.mk .FLT_COUNT blk src).off) :
    (s.eventMarked blk src).reg q = s.reg q := by
  unfold State.eventMarked
  split
  · exact (State.reg_setFld_of_ne _ _ _ _ _ hq).trans (State.reg_eventCounted s hq)
  · exact State.reg_eventCounted s hq

/-- Marking an event changes registers and FLT's own state only. -/
theorem State.eventCounted_keeps (s : State) (blk src : Nat) : Keeps 32772 s (s.eventCounted blk src) := by
  have hbump : Keeps 32772 s (s.bump FLT_COUNT.total blk src) := State.bump_keeps _ _ _ _ (.refl s) rfl
  unfold State.eventCounted
  dsimp only
  split
  · exact hbump
  · exact State.windowCount_keeps _ _ hbump rfl

theorem State.eventMarked_keeps (s : State) (blk src : Nat) : Keeps 32772 s (s.eventMarked blk src) := by
  unfold State.eventMarked
  split
  · exact State.setFlag_keeps _ _ _ _ (s.eventCounted_keeps blk src) rfl
  · exact s.eventCounted_keeps blk src

theorem State.eventCounted_ok (h : s.Ok) : (s.eventCounted blk src).Ok := (s.eventCounted_keeps blk src).ok h

theorem State.eventMarked_ok (h : s.Ok) : (s.eventMarked blk src).Ok := (s.eventMarked_keeps blk src).ok h

theorem State.eventMarked_fabric (s : State) (blk src : Nat) : (s.eventMarked blk src).fabric = s.fabric := by
  have hnow : (s.eventMarked blk src).now = s.now := (s.eventMarked_keeps blk src).same .now rfl
  have hadj : (s.eventMarked blk src).timAdj = s.timAdj := (s.eventMarked_keeps blk src).same .timAdj rfl
  unfold State.fabric
  rw [hnow, hadj]

theorem State.eventMarked_cycle (s : State) (blk src : Nat) : (s.eventMarked blk src).cycle = s.cycle :=
  congrArg (· / 500) ((s.eventMarked_keeps blk src).same .now rfl)

/-- The window rule touches win_count only. -/
theorem State.fld_windowCount (h : s.Ok) {f : Field} (hf : f.reg = .FLT_COUNT) (hd : f.hi < 48 ∨ 61 < f.lo) :
    (s.windowCount blk src).fld f blk src = s.fld f blk src := by
  have hset (v : Nat) : (s.setFld FLT_COUNT.win_count blk src v).fld f blk src = s.fld f blk src :=
    State.fld_setFld_apart h.regs _ _ _ _ _ hf (by decide) (by decide) hd
  have hopen : (s.openWindow blk src).fld f blk src = s.fld f blk src :=
    (State.fld_of_reg (State.reg_openWindow s blk src _)).trans (hset 1)
  unfold State.windowCount
  split
  · split
    · exact hset _
    · exact hopen
  · exact hopen

theorem State.fld_bump_total (h : s.Ok) (f : Field) (hf : f.reg = .FLT_COUNT) (hd : 47 < f.lo) :
    (s.bump FLT_COUNT.total blk src).fld f blk src = s.fld f blk src :=
  State.fld_setFld_apart h.regs _ _ _ _ _ hf (by decide) (by decide) (.inr hd)

/-- Counting an event adds 1 to the total and leaves the marks of the source. -/
theorem State.fld_eventCounted (h : s.Ok) :
    (s.eventCounted blk src).fld FLT_COUNT.total blk src = (s.fld FLT_COUNT.total blk src + 1) % 2 ^ 48 ∧
    (s.eventCounted blk src).flag FLT_COUNT.severe blk src = s.flag FLT_COUNT.severe blk src := by
  have htotal : (s.bump FLT_COUNT.total blk src).fld FLT_COUNT.total blk src = (s.fld FLT_COUNT.total blk src + 1) % 2 ^ 48 :=
    State.fld_setFld h.regs _ _ _ _ (by decide) (by decide)
  have hsevere := State.flag_of_fld (State.fld_bump_total h (blk := blk) (src := src) FLT_COUNT.severe rfl (by decide))
  have hok : (s.bump FLT_COUNT.total blk src).Ok := (State.bump_keeps (m := 1155212) _ _ _ _ (.refl s) rfl).ok h
  unfold State.eventCounted
  dsimp only
  split
  · exact ⟨htotal, hsevere⟩
  · exact ⟨(State.fld_windowCount hok rfl (by decide)).trans htotal,
      (State.flag_of_fld (State.fld_windowCount hok rfl (by decide))).trans hsevere⟩

theorem State.eventMarked_total (h : s.Ok) :
    (s.eventMarked blk src).fld FLT_COUNT.total blk src = (s.fld FLT_COUNT.total blk src + 1) % 2 ^ 48 := by
  obtain ⟨htotal, -⟩ := State.fld_eventCounted (blk := blk) (src := src) h
  unfold State.eventMarked
  split
  · rw [← htotal]
    exact State.fld_setFld_apart (State.eventCounted_ok h).regs _ _ _ _ _ rfl (by decide) (by decide) (by decide)
  · exact htotal

/-- A source is severe after an event that makes it so, or as before. -/
theorem State.eventMarked_severe (h : s.Ok) :
    (s.eventMarked blk src).flag FLT_COUNT.severe blk src = (s.flag FLT_COUNT.severe blk src || s.eventTurns blk src) := by
  unfold State.eventMarked
  split
  next ht =>
    rw [ht, Bool.or_true]
    exact State.flag_setFlag (State.eventCounted_ok h).regs _ _ _ _ (by decide) (by decide)
  next ht => rw [Bool.eq_false_iff.2 ht, Bool.or_false, (State.fld_eventCounted h).2]

/-- A source that is severe does not become so again. -/
theorem State.eventTurns_of_severe (h : s.Ok) (hs : s.flag FLT_COUNT.severe blk src = true) : s.eventTurns blk src = false := by
  have := State.flag_of_fld (State.fld_bump_total h (blk := blk) (src := src) FLT_COUNT.severe rfl (by decide))
  simp [State.eventTurns, this, hs]

/-- The windows of a severe source stand still. -/
theorem State.eventMarked_of_severe (h : s.Ok) (hs : s.flag FLT_COUNT.severe blk src = true) :
    s.eventMarked blk src = s.bump FLT_COUNT.total blk src := by
  have := State.flag_of_fld (State.fld_bump_total h (blk := blk) (src := src) FLT_COUNT.severe rfl (by decide))
  simp [State.eventMarked, State.eventTurns_of_severe h hs, State.eventCounted, this, hs]

theorem State.openWindow_firstAt (s : State) (blk src : Nat) : (s.openWindow blk src).flt.firstAt = s.flt.firstAt := by
  unfold State.openWindow
  dsimp only
  rw [State.setFld_flt]

theorem State.windowCount_firstAt (s : State) (blk src : Nat) : (s.windowCount blk src).flt.firstAt = s.flt.firstAt := by
    unfold State.windowCount
    split
    · split
      · rw [State.setFld_flt]
      · exact s.openWindow_firstAt blk src
    · exact s.openWindow_firstAt blk src

theorem State.eventCounted_cases (s : State) (blk src : Nat) : s.eventCounted blk src = s.bump FLT_COUNT.total blk src ∨
    s.eventCounted blk src = (s.bump FLT_COUNT.total blk src).windowCount blk src := by
  unfold State.eventCounted
  dsimp only
  split
  · exact .inl rfl
  · exact .inr rfl

theorem State.eventCounted_firstAt (s : State) (blk src : Nat) : (s.eventCounted blk src).flt.firstAt = s.flt.firstAt := by
  rcases s.eventCounted_cases blk src with h | h
  · rw [h, State.bump_flt]
  · rw [h, State.windowCount_firstAt, State.bump_flt]

/-- Marking an event leaves the cycles of the first records. -/
theorem State.eventMarked_firstAt (s : State) (blk src : Nat) : (s.eventMarked blk src).flt.firstAt = s.flt.firstAt := by
  unfold State.eventMarked
  split
  · rw [State.setFlag_flt, State.eventCounted_firstAt]
  · rw [State.eventCounted_firstAt]
end

/-! ### The record of an event -/

section
variable {s : State} {blk sev src m detail : Nat} {inj : Bool} {q : RegRef}

/-- The word of a first record (R359). -/
def firstWord (sev src m detail : Nat) (inj : Bool) : Word := BitVec.ofNat 64
  (sev * 2 ^ 62 + b2n inj * 2 ^ 61 + src % 2048 * 2 ^ 48 + m % 2 ^ 24 * 2 ^ 24 + detail % 2 ^ 24)

theorem b2n_lt_two (b : Bool) : b2n b < 2 := by cases b <;> decide

theorem firstWord_fields (hsev : sev < 4) : let w := (firstWord sev src m detail inj).toNat
    bitsOf w 63 62 = sev ∧ bitsOf w 61 61 = b2n inj ∧ bitsOf w 58 48 = src % 2048 ∧ bitsOf w 47 24 = m % 2 ^ 24 ∧
      bitsOf w 23 0 = detail % 2 ^ 24 := by
  have hinj := b2n_lt_two inj
  simp only [firstWord, bitsOf, BitVec.toNat_ofNat]
  omega

theorem State.fabric_setReg (s : State) (r : RegRef) (w : Word) : (s.setReg r w).fabric = s.fabric := by
  unfold State.fabric
  rw [State.setReg_now, State.setReg_timAdj]

/-- A first record writes three registers of the block's window. -/
theorem State.firstRecord_regs (s : State) : (s.firstRecord blk sev src m detail inj).regs =
    (((s.setReg ⟨.FLT_FIRST, blk, 0⟩ (firstWord sev src m detail inj)).setFld FLT_FIRST_TIME.time blk 0 s.fabric).setFlag
      FLT_STATUS.first_valid blk 0 true).regs := by
  unfold State.firstRecord firstWord
  dsimp only
  rw [State.fabric_setReg]

theorem State.reg_firstRecord_of_ne (s : State) (hfirst : q.off ≠ (RegRef.mk .FLT_FIRST blk 0).off)
    (htime : q.off ≠ (RegRef.mk .FLT_FIRST_TIME blk 0).off) (hstatus : q.off ≠ (RegRef.mk .FLT_STATUS blk 0).off) :
    (s.firstRecord blk sev src m detail inj).reg q = s.reg q := by
  unfold State.reg
  rw [State.firstRecord_regs]
  exact (State.reg_setFld_of_ne _ FLT_STATUS.first_valid _ _ _ hstatus).trans
    ((State.reg_setFld_of_ne _ FLT_FIRST_TIME.time _ _ _ htime).trans (SMap.getD_put_of_ne s.regs _ hfirst))

end

section
variable {s : State} {blk sev src m detail : Nat} {inj : Bool} {q : RegRef}

theorem State.firstRecord_ok (h : s.Ok) : (s.firstRecord blk sev src m detail inj).Ok :=
  (State.firstRecord_keeps (m := 1155212) _ _ _ _ _ _ (.refl s) rfl).ok h

/-- The registers of a first record read as it wrote them (R359, R367). -/
theorem State.firstRecord_reads (h : s.Ok) : let t := s.firstRecord blk sev src m detail inj
    t.reg ⟨.FLT_FIRST, blk, 0⟩ = firstWord sev src m detail inj ∧ t.fld FLT_FIRST_TIME.time blk 0 = s.fabric ∧
      t.flag FLT_STATUS.first_valid blk 0 = true := by
  dsimp only
  unfold State.flag State.fld State.reg
  rw [State.firstRecord_regs]
  have hw := State.wf_setReg h.regs ⟨.FLT_FIRST, blk, 0⟩ (firstWord sev src m detail inj)
  have ht := State.wf_setFld hw FLT_FIRST_TIME.time blk 0 s.fabric
  refine ⟨?first, ?time, State.flag_setFlag ht FLT_STATUS.first_valid blk 0 true (by decide) (by decide)⟩
  case first =>
    refine (State.reg_setFld_of_ne _ FLT_STATUS.first_valid _ _ _ ?_).trans
      ((State.reg_setFld_of_ne _ FLT_FIRST_TIME.time _ _ _ ?_).trans (State.reg_setReg_self h.regs _ _))
    · simp [RegRef.off, Reg.shape, FLT_STATUS.first_valid]
    · simp [RegRef.off, Reg.shape, FLT_FIRST_TIME.time]
  case time =>
    refine (State.fld_setFld_ne ht FLT_STATUS.first_valid FLT_FIRST_TIME.time _ _ _ _ _ ?_).trans
      ((State.fld_setFld hw FLT_FIRST_TIME.time _ _ _ (by decide) (by decide)).trans ?_)
    · simp [RegRef.off, Reg.shape, FLT_STATUS.first_valid, FLT_FIRST_TIME.time]
    · exact Nat.mod_eq_of_lt (Nat.mod_lt _ (by decide))

theorem State.record_of_none (hv : s.flag FLT_STATUS.first_valid blk 0 = false) : s.record blk sev src m detail inj =
    ((s.firstRecord blk sev src m detail inj).setFld FLT_STATUS.also_count blk 0 0, true) := by
  unfold State.record
  rw [hv]
  rfl

/-- An event that finds no first record makes it, and no other is counted (R367). -/
theorem State.record_reads_of_none (h : s.Ok) (hv : s.flag FLT_STATUS.first_valid blk 0 = false) :
    let t := (s.record blk sev src m detail inj).1
    t.reg ⟨.FLT_FIRST, blk, 0⟩ = firstWord sev src m detail inj ∧ t.fld FLT_FIRST_TIME.time blk 0 = s.fabric ∧
      t.flag FLT_STATUS.first_valid blk 0 = true ∧ t.fld FLT_STATUS.also_count blk 0 = 0 := by
  obtain ⟨hfirst, htime, hvalid⟩ := State.firstRecord_reads (blk := blk) (sev := sev) (src := src) (m := m) (detail := detail)
    (inj := inj) h
  have hw := (State.firstRecord_ok (blk := blk) (sev := sev) (src := src) (m := m) (detail := detail) (inj := inj) h).regs
  rw [State.record_of_none hv]
  refine ⟨?_, ?_, ?_, State.fld_setFld hw _ _ _ _ (by decide) (by decide)⟩
  · rw [← hfirst]
    exact State.reg_setFld_of_ne _ FLT_STATUS.also_count _ _ _ (by simp [RegRef.off, Reg.shape, FLT_STATUS.also_count])
  · rw [← htime]
    exact State.fld_setFld_ne hw FLT_STATUS.also_count _ _ _ _ _ _
      (by simp [RegRef.off, Reg.shape, FLT_STATUS.also_count, FLT_FIRST_TIME.time])
  · rw [← hvalid]
    exact State.flag_of_fld (State.fld_setFld_apart hw _ _ _ _ _ rfl (by decide) (by decide) (by decide))

/-- An event that does not come in the first record's cycle is added to the others (R368). -/
theorem State.record_of_valid (hv : s.flag FLT_STATUS.first_valid blk 0 = true)
    (hat : SMap.find? s.flt.firstAt blk ≠ some s.cycle) : s.record blk sev src m detail inj = (s.alsoRecord blk src, false) := by
  have : (SMap.find? s.flt.firstAt blk == some s.cycle) = false := by simpa using hat
  unfold State.record
  simp [hv, this]

theorem State.alsoRecord_reg_of_ne (s : State) (halso : q.off ≠ (RegRef.mk .FLT_ALSO blk (src / 64)).off)
    (hstatus : q.off ≠ (RegRef.mk .FLT_STATUS blk 0).off) : (s.alsoRecord blk src).reg q = s.reg q :=
  (State.reg_setFld_of_ne _ FLT_STATUS.also_count _ _ _ hstatus).trans (State.reg_setFld_of_ne s _ _ _ _ halso)

/-- The record of an event touches no count. -/
theorem State.record_reg_count (s : State) (hsrc : src < 2048) (k : Nat) :
    (s.record blk sev src m detail inj).1.reg ⟨.FLT_COUNT, blk, k⟩ = s.reg ⟨.FLT_COUNT, blk, k⟩ := by
  have hlow (g : Reg) (k' : Nat) (hg : g.shape.s1 = 0x100000) (hs : g.shape.base + k' * g.shape.s2 < 0xF4000) :
      (RegRef.mk .FLT_COUNT blk k).off ≠ (RegRef.mk g blk k').off := by
    have : (k' - g.shape.k0) * g.shape.s2 ≤ k' * g.shape.s2 := Nat.mul_le_mul_right _ (Nat.sub_le _ _)
    simp only [RegRef.off, hg, show Reg.FLT_COUNT.shape = ⟨0x00F4000, 20, 0x100000, 2048, 0x8, 0⟩ from rfl]
    omega
  have hstatus := hlow .FLT_STATUS 0 rfl (by decide)
  have hfirst (t : State) (src : Nat) : (t.firstRecord blk sev src m detail inj).reg ⟨.FLT_COUNT, blk, k⟩ =
      t.reg ⟨.FLT_COUNT, blk, k⟩ :=
    t.reg_firstRecord_of_ne (hlow .FLT_FIRST 0 rfl (by decide)) (hlow .FLT_FIRST_TIME 0 rfl (by decide)) hstatus
  have halso (src : Nat) (hsrc : src < 2048) : (s.alsoRecord blk src).reg ⟨.FLT_COUNT, blk, k⟩ =
      s.reg ⟨.FLT_COUNT, blk, k⟩ :=
    s.alsoRecord_reg_of_ne (hlow .FLT_ALSO (src / 64) rfl (by simp only [Reg.shape]; omega)) hstatus
  unfold State.record
  split
  · exact (State.reg_setFld_of_ne _ FLT_STATUS.also_count _ _ _ hstatus).trans (hfirst s src)
  · dsimp only
    split
    · exact (hfirst _ src).trans (halso _ (Nat.mod_lt _ (by decide)))
    · exact halso src hsrc

/-! ### Up to the message -/

theorem State.escalate_regs (s : State) (blk src : Nat) :
    (s.escalate blk src).regs = (s.setFlag FLT_COUNT.pending blk src true).regs := by
  unfold State.escalate
  dsimp only
  split
  · exact Eq.refl _
  · dsimp only

theorem State.escalate_reg_of_ne (s : State) (hq : q.off ≠ (RegRef.mk .FLT_COUNT blk src).off) :
    (s.escalate blk src).reg q = s.reg q := by
  unfold State.reg
  rw [State.escalate_regs]
  exact State.reg_setFld_of_ne s FLT_COUNT.pending _ _ _ hq

theorem State.escalate_fld (h : s.Ok) {f : Field} (hf : f.reg = .FLT_COUNT) (hd : f.hi < 62 ∨ 62 < f.lo) :
    (s.escalate blk src).fld f blk src = s.fld f blk src := by
  unfold State.fld State.reg
  rw [State.escalate_regs]
  exact State.fld_setFld_apart h.regs FLT_COUNT.pending f blk src _ hf (by decide) (by decide) hd

end

section
variable {s : State} {blk src m detail : Nat} {inj stop : Bool} {react : Reaction} {q : RegRef}

/-- Up to its message an event changes, beyond marking and recording, at most its source's pending bit. -/
theorem State.eventTold_reg_of_ne (s : State) (hblk : blk < 20) (hq : q.InWindow)
    (hne : q.off ≠ (RegRef.mk .FLT_COUNT blk src).off) : (s.eventTold blk src m detail inj stop react).reg q =
      ((s.eventMarked blk src).record blk (s.eventSeverity blk src stop) src m detail inj).1.reg q := by
  have hrecorded : (s.eventRecorded blk src m detail inj stop react).1.reg q =
      ((s.eventMarked blk src).record blk (s.eventSeverity blk src stop) src m detail inj).1.reg q := by
    unfold State.eventRecorded
    dsimp only
    split
    · exact State.escalate_reg_of_ne _ hne
    · rfl
  unfold State.eventTold
  dsimp only
  split
  · rw [State.reg_blockVec hq _ (by omega), hrecorded]
  · exact hrecorded

/-- It changes no field of its source's count but those that marking changes and pending. -/
theorem State.eventTold_fld (h : s.Ok) (hblk : blk < 20) (hsrc : src < 2048) {f : Field} (hf : f.reg = .FLT_COUNT)
    (hd : f.hi < 62 ∨ 62 < f.lo) :
    (s.eventTold blk src m detail inj stop react).fld f blk src = (s.eventMarked blk src).fld f blk src := by
  have hwindow : (RegRef.mk f.reg blk src).InWindow := by
    simp only [RegRef.InWindow, hf, RegRef.off, Reg.shape]
    omega
  have hrecord : ((s.eventMarked blk src).record blk (s.eventSeverity blk src stop) src m detail inj).1.fld f blk src =
      (s.eventMarked blk src).fld f blk src := State.fld_of_reg (hf ▸ State.record_reg_count _ hsrc src)
  have hok : ((s.eventMarked blk src).record blk (s.eventSeverity blk src stop) src m detail inj).1.Ok :=
    (State.record_keeps (m := 1155212) _ _ _ _ _ _ (.refl _) rfl).ok (State.eventMarked_ok h)
  have hrecorded : (s.eventRecorded blk src m detail inj stop react).1.fld f blk src =
      (s.eventMarked blk src).fld f blk src := by
    unfold State.eventRecorded
    dsimp only
    split
    · rw [State.escalate_fld hok hf hd, hrecord]
    · exact hrecord
  unfold State.eventTold
  dsimp only
  split
  · rw [State.fld_of_reg (State.reg_blockVec hwindow _ (by omega)), hrecorded]
  · exact hrecorded

theorem State.eventTold_severe (h : s.Ok) (hblk : blk < 20) (hsrc : src < 2048) :
    (s.eventTold blk src m detail inj stop react).flag FLT_COUNT.severe blk src =
      (s.flag FLT_COUNT.severe blk src || s.eventTurns blk src) := by
  rw [State.flag_of_fld (State.eventTold_fld h hblk hsrc rfl (by decide)), State.eventMarked_severe h]

/-- The severity of an event, by what the event leaves of the source's mark (R365). -/
theorem State.eventSeverity_eq (h : s.Ok) (hblk : blk < 20) (hsrc : src < 2048) : s.eventSeverity blk src stop =
    (if stop = true then 3 else if s.flag FLT_COUNT.severe blk src = false ∧
        (s.eventTold blk src m detail inj stop react).flag FLT_COUNT.severe blk src = true then 2
      else if s.fld FLT_THRESH.n_events blk src = 0 then 0 else 1) := by
  have hthresh : (s.eventMarked blk src).fld FLT_THRESH.n_events blk src = s.fld FLT_THRESH.n_events blk src :=
    State.fld_of_reg (State.reg_eventMarked s (by simp only [RegRef.off, Reg.shape, FLT_THRESH.n_events]; omega))
  rw [State.eventTold_severe h hblk hsrc]
  unfold State.eventSeverity
  rw [hthresh]
  cases hs : s.flag FLT_COUNT.severe blk src with
  | false => simp
  | true => simp [State.eventTurns_of_severe h hs]

theorem State.eventSeverity_lt (s : State) (blk src : Nat) (stop : Bool) : s.eventSeverity blk src stop < 4 := by
  unfold State.eventSeverity
  split
  · decide
  · split
    · decide
    · split <;> decide

/-- What an event that finds no first record leaves before its device stop (R367). -/
theorem State.eventTold_first (h : s.Ok) (hblk : blk < 20)
    (hv : s.flag FLT_STATUS.first_valid blk 0 = false) : let t := s.eventTold blk src m detail inj stop react
      t.reg ⟨.FLT_FIRST, blk, 0⟩ = firstWord (s.eventSeverity blk src stop) src m detail inj ∧
      t.fld FLT_FIRST_TIME.time blk 0 = s.fabric ∧ t.flag FLT_STATUS.first_valid blk 0 = true ∧
      t.fld FLT_STATUS.also_count blk 0 = 0 := by
  have hlow (g : Reg) (hg : g = .FLT_STATUS ∨ g = .FLT_FIRST ∨ g = .FLT_FIRST_TIME) :
      (RegRef.mk g blk 0).InWindow ∧ (RegRef.mk g blk 0).off ≠ (RegRef.mk .FLT_COUNT blk src).off := by
    rcases hg with rfl | rfl | rfl <;> simp only [RegRef.InWindow, RegRef.off, Reg.shape] <;> omega
  have hreg (g : Reg) (hg) := s.eventTold_reg_of_ne (m := m) (detail := detail) (inj := inj) (stop := stop) (react := react)
    hblk (hlow g hg).1 (hlow g hg).2
  have hvm : (s.eventMarked blk src).flag FLT_STATUS.first_valid blk 0 = false :=
    (State.flag_of_reg (State.reg_eventMarked s (hlow _ (.inl rfl)).2)).trans hv
  obtain ⟨hfirst, htime, hvalid, hcount⟩ := State.record_reads_of_none (blk := blk) (sev := s.eventSeverity blk src stop)
    (src := src) (m := m) (detail := detail) (inj := inj) (State.eventMarked_ok h) hvm
  exact ⟨(hreg _ (.inr (.inl rfl))).trans hfirst, (State.fld_of_reg (hreg _ (.inr (.inr rfl)))).trans
    (htime.trans (s.eventMarked_fabric blk src)),
    (State.flag_of_reg (hreg _ (.inl rfl))).trans hvalid, (State.fld_of_reg (hreg _ (.inl rfl))).trans hcount⟩

end

/-- Settles O54: the state before the device stop is the one in which the event has been told, and its first record was made
there. -/
theorem theFirstEventMakesTheRecord : Obligations.TheFirstEventMakesTheRecord := by
  intro s blk src m detail inj fatal sp h hblk hsp hv stop e
  have hsrc := sourceSpec_lt hsp
  obtain ⟨b, hb⟩ : ∃ b, b = (fatal || sp.react == .deviceStop) := ⟨_, rfl⟩
  have hstop : stop ↔ b = true := by simp [stop, hb]
  have he : e = if b && (!inj || (s.eventTold blk src m detail inj b sp.react).flag FLT_ESC_ACTION.hw_enable blk 0) then
      (s.eventTold blk src m detail inj b sp.react).deviceStop blk src else s.eventTold blk src m detail inj b sp.react := by
    rw [hb]
    exact State.event_of_spec hsp s m detail inj fatal
  obtain ⟨hfirst, htime, hvalid, hcount⟩ := State.eventTold_first (m := m) (detail := detail) (inj := inj) (stop := b)
    (react := sp.react) h hblk hv
  obtain ⟨hsev, hinj, hsource, hmaster, hdetail⟩ := firstWord_fields (src := src) (m := m) (detail := detail) (inj := inj)
    (s.eventSeverity_lt blk src b)
  rw [← hfirst] at hsev hinj hsource hmaster hdetail
  refine ⟨s.eventTold blk src m detail inj b sp.react, ?_, hvalid, hcount, ?_, ?_, ?_, hmaster, hdetail, htime⟩
  · rw [he]
    split
    next hc => exact .inr ⟨hstop.2 (Bool.and_eq_true_iff.1 hc).1, rfl⟩
    next => exact .inl rfl
  · rw [if_congr hstop rfl rfl, ← State.eventSeverity_eq h hblk hsrc]
    exact hsev
  · refine (congrArg (· != 0) hinj).trans ?_
    cases inj <;> rfl
  · exact hsource.trans (Nat.mod_eq_of_lt hsrc)

end Sys2Proof.Machine
end


section
/-!
SUPPORT. What counted events, window ends, the escalation timer, injection and the errors of arrays, memories, cores, crossbar
and units do, and that a stopped device's data-path events do nothing (R363 to R387).
-/
namespace Sys2Proof.Machine

/-! ### Events while a first record stands -/

section
variable {s : State} {blk src m detail : Nat} {inj stop : Bool} {react : Reaction}

theorem bitOf_setFlag {s : State} (h : SMap.wf resetWord s.regs = true) (f : Field) (i k : Nat) (hl : f.lo = f.hi)
    (hh : f.hi < 64) : bitOf ((s.setFlag f i k true).reg ⟨f.reg, i, k⟩).toNat f.hi = true := by
  unfold State.setFlag State.setFld
  dsimp only
  rw [State.reg_setReg_self h, BitVec.toNat_ofNat, Nat.mod_eq_of_lt (putBits_lt _ _ _ _ (BitVec.isLt _) (by omega) hh)]
  unfold bitOf
  rw [testBit_putBits _ _ _ _ _ (by omega), if_pos (by omega), hl, Nat.sub_self]
  rfl

/-- What an event added to the others reads as (R368, R369). -/
theorem State.alsoRecord_reads (h : s.Ok) : let t := s.alsoRecord blk src
    t.fld FLT_STATUS.also_count blk 0 = min (s.fld FLT_STATUS.also_count blk 0 + 1) (2 ^ 32 - 1) ∧
      bitOf (t.reg ⟨.FLT_ALSO, blk, src / 64⟩).toNat (src % 64) = true := by
  have hbit := bitOf_setFlag h.regs ⟨.FLT_ALSO, src % 64, src % 64, .w1c, 0⟩ blk (src / 64) rfl (Nat.mod_lt _ (by decide))
  have hw := State.wf_setFlag h.regs ⟨.FLT_ALSO, src % 64, src % 64, .w1c, 0⟩ blk (src / 64) true
  have hne : (RegRef.mk .FLT_STATUS blk 0).off ≠ (RegRef.mk .FLT_ALSO blk (src / 64)).off := by
    simp only [RegRef.off, Reg.shape]
    omega
  have hcount : (s.setFlag ⟨.FLT_ALSO, src % 64, src % 64, .w1c, 0⟩ blk (src / 64) true).fld FLT_STATUS.also_count blk 0 =
      s.fld FLT_STATUS.also_count blk 0 := State.fld_of_reg (State.reg_setFld_of_ne s _ _ _ _ hne)
  unfold State.alsoRecord
  dsimp only
  constructor
  · rw [State.fld_setFld hw FLT_STATUS.also_count _ _ _ (by decide) (by decide), hcount]
    exact Nat.mod_eq_of_lt (Nat.lt_of_le_of_lt (Nat.min_le_right _ _) (by decide))
  · rw [State.reg_setFld_of_ne _ FLT_STATUS.also_count _ _ _ hne.symm]
    exact hbit

/-- An event outside the first record's cycle leaves that record and is counted among the others. -/
theorem State.eventTold_also (h : s.Ok) (hblk : blk < 20) (hsrc : src < 2048)
    (hv : s.flag FLT_STATUS.first_valid blk 0 = true) (hat : SMap.find? s.flt.firstAt blk ≠ some s.cycle) :
    let t := s.eventTold blk src m detail inj stop react
    t.reg ⟨.FLT_FIRST, blk, 0⟩ = s.reg ⟨.FLT_FIRST, blk, 0⟩ ∧
      t.fld FLT_STATUS.also_count blk 0 = min (s.fld FLT_STATUS.also_count blk 0 + 1) (2 ^ 32 - 1) ∧
      bitOf (t.reg ⟨.FLT_ALSO, blk, src / 64⟩).toNat (src % 64) = true := by
  have hlow (g : Reg) (hg : g = .FLT_STATUS ∨ g = .FLT_FIRST ∨ g = .FLT_ALSO) (k : Nat) (hk : k < 32) :
      (RegRef.mk g blk k).InWindow ∧ (RegRef.mk g blk k).off ≠ (RegRef.mk .FLT_COUNT blk src).off := by
    rcases hg with rfl | rfl | rfl <;> simp only [RegRef.InWindow, RegRef.off, Reg.shape] <;> omega
  have hmark (g : Reg) (hg) (k : Nat) (hk) := s.reg_eventMarked (hlow g hg k hk).2
  have hrecord : ((s.eventMarked blk src).record blk (s.eventSeverity blk src stop) src m detail inj).1 =
      (s.eventMarked blk src).alsoRecord blk src := by
    have hvm := (State.flag_of_reg (f := FLT_STATUS.first_valid) (hmark _ (.inl rfl) 0 (by decide))).trans hv
    rw [State.record_of_valid hvm (by rwa [State.eventMarked_firstAt, State.eventMarked_cycle])]
  have hreg (g : Reg) (hg : g = .FLT_STATUS ∨ g = .FLT_FIRST ∨ g = .FLT_ALSO) (k : Nat) (hk : k < 32) :
      (s.eventTold blk src m detail inj stop react).reg ⟨g, blk, k⟩ =
      ((s.eventMarked blk src).alsoRecord blk src).reg ⟨g, blk, k⟩ := by
    rw [s.eventTold_reg_of_ne hblk (hlow g hg k hk).1 (hlow g hg k hk).2, hrecord]
  obtain ⟨hcount, hbit⟩ := State.alsoRecord_reads (State.eventMarked_ok (blk := blk) (src := src) h) (blk := blk)
  have hfirst : (RegRef.mk .FLT_FIRST blk 0).off ≠ (RegRef.mk .FLT_ALSO blk (src / 64)).off ∧
      (RegRef.mk .FLT_FIRST blk 0).off ≠ (RegRef.mk .FLT_STATUS blk 0).off := by
    simp only [RegRef.off, Reg.shape]
    omega
  refine ⟨?first, ?count, ?bit⟩
  case first => rw [hreg _ (.inr (.inl rfl)) 0 (by decide), State.alsoRecord_reg_of_ne _ hfirst.1 hfirst.2,
      hmark _ (.inr (.inl rfl)) 0 (by decide)]
  case count => rw [State.fld_of_reg (f := FLT_STATUS.also_count) (hreg _ (.inl rfl) 0 (by decide)), hcount,
      State.fld_of_reg (f := FLT_STATUS.also_count) (hmark _ (.inl rfl) 0 (by decide))]
  case bit => rw [hreg _ (.inr (.inr rfl)) _ (by omega), hbit]

/-! ### The escalation timers of a severe source stand -/

theorem State.firstRecord_esc (s : State) (sev : Nat) : (s.firstRecord blk sev src m detail inj).flt.esc = s.flt.esc := by
  unfold State.firstRecord
  dsimp only
  rw [State.setFlag_flt, State.setFld_flt, State.setReg_flt]

theorem State.alsoRecord_flt (s : State) (blk src : Nat) : (s.alsoRecord blk src).flt = s.flt := by
  unfold State.alsoRecord
  dsimp only
  rw [State.setFld_flt, State.setFlag_flt]

theorem State.record_esc (s : State) (sev : Nat) : (s.record blk sev src m detail inj).1.flt.esc = s.flt.esc := by
  unfold State.record
  split
  · rw [State.setFld_flt, State.firstRecord_esc]
  · dsimp only
    split
    · rw [State.firstRecord_esc, State.alsoRecord_flt]
    · rw [State.alsoRecord_flt]

theorem State.eventRecorded_esc_of_severe (h : s.Ok) (hs : s.flag FLT_COUNT.severe blk src = true) :
    (s.eventRecorded blk src m detail inj stop react).1.flt.esc = s.flt.esc := by
  unfold State.eventRecorded
  dsimp only
  rw [State.eventTurns_of_severe h hs, Bool.false_and, Bool.false_and, if_neg Bool.false_ne_true, State.record_esc,
    State.eventMarked_of_severe h hs, State.bump_flt]

theorem State.eventTold_cases (s : State) (blk src m detail : Nat) (inj stop : Bool) (react : Reaction) :
    s.eventTold blk src m detail inj stop react = (s.eventRecorded blk src m detail inj stop react).1.blockVec blk ∨
      s.eventTold blk src m detail inj stop react = (s.eventRecorded blk src m detail inj stop react).1 := by
  unfold State.eventTold
  dsimp only
  split
  · exact .inl rfl
  · exact .inr rfl

theorem State.eventTold_esc_of_severe (h : s.Ok) (hs : s.flag FLT_COUNT.severe blk src = true) :
    (s.eventTold blk src m detail inj stop react).flt.esc = s.flt.esc := by
  have hvec (t : State) : (t.blockVec blk).flt = t.flt :=
    (State.blockVec_keeps (m := 65676) blk (.refl t) rfl).same .flt rfl
  have hrecorded := State.eventRecorded_esc_of_severe (m := m) (detail := detail) (inj := inj) (stop := stop) (react := react)
    h hs
  rcases s.eventTold_cases blk src m detail inj stop react with ht | ht
  · rw [ht, hvec, hrecorded]
  · rw [ht, hrecorded]

theorem State.eventTold_win_count (h : s.Ok) (hblk : blk < 20) (hsrc : src < 2048)
    (hs : s.flag FLT_COUNT.severe blk src = true) :
    (s.eventTold blk src m detail inj stop react).fld FLT_COUNT.win_count blk src = s.fld FLT_COUNT.win_count blk src := by
  rw [State.eventTold_fld h hblk hsrc rfl (by decide), State.eventMarked_of_severe h hs,
    State.fld_bump_total h FLT_COUNT.win_count rfl (by decide)]

end

/-! ### Windows, the timer, injection (R363, R373, R387) -/

section
variable {s : State}

theorem State.windowLimit_of_none {b n : Nat} (h : SMap.find? s.flt.wins (srcKey b n) = none) : s.windowLimit b n = s := by
  simp [State.windowLimit, h]

theorem State.windowLimit_of_some {b n : Nat} {w : FltWin} (h : SMap.find? s.flt.wins (srcKey b n) = some w) :
    s.windowLimit b n = (s.advance (w.ends + 1)).windowEnd b n := by
  simp [State.windowLimit, h, State.due_eq]

theorem State.escLimit_of_none {b : Nat} (h : SMap.find? s.flt.esc b = none) : s.escLimit b = s := by
  simp [State.escLimit, h]

theorem State.escLimit_of_some {b t : Nat} (h : SMap.find? s.flt.esc b = some t) :
    s.escLimit b = (s.advance t).escExpire b := by
  simp [State.escLimit, h, State.due_eq]

theorem State.injectLimit_of_none {b : Nat} (h : SMap.find? s.flt.inj b = none) : s.injectLimit b = s := by
  simp [State.injectLimit, h]

theorem State.injectLimit_of_some {b : Nat} {x : FltInj} (h : SMap.find? s.flt.inj b = some x)
    (hu : SMap.find? (s.advance x.next).flt.inj b = some x) : s.injectLimit b = (s.advance x.next).injectOne b x := by
  simp [State.injectLimit, h, State.due_eq, State.injectTick, hu]

/-! ### Marches and the repair of HBM (R378, R379) -/

section
variable {b n k : Nat} {pass : Bool}

theorem State.sliceDone_of_none (h : SMap.find? s.spd.slices b = none) : s.sliceDone b pass n = s := by
  simp [State.sliceDone, h]

/-- The slices of banks under test become these. -/
def State.withSlices (s : State) (m : SMap Nat) : State := { s with spd := { s.spd with slices := m } }

theorem State.sliceDone_of_last (h : SMap.find? s.spd.slices b = some k) (hk : k % 8 = 7) : s.sliceDone b pass n =
    if (!pass || decide (8 ≤ k)) = true then (s.bankRepaired b n).bankRetire b
    else (s.bankRepaired b n).withSlices (SMap.erase (s.bankRepaired b n).spd.slices b) := by
  unfold State.sliceDone
  rw [h]
  exact if_pos hk

theorem State.sliceDone_of_next (h : SMap.find? s.spd.slices b = some k) (hk : k % 8 ≠ 7) : s.sliceDone b pass n =
    (s.bankRepaired b n).withSlices (SMap.insert (s.bankRepaired b n).spd.slices b
      (k % 8 + 1 + 8 * b2n (!pass || decide (8 ≤ k)))) := by
  unfold State.sliceDone
  rw [h]
  exact if_neg hk

end

section
variable {c : Nat}

theorem State.copyDone_of_not_mem (h : c ∉ s.pwr.copying) : s.copyDone c = s := by simp [State.copyDone, h]

theorem State.copyDone_of_mem (h : c ∈ s.pwr.copying) : s.copyDone c =
    (let u : State := { s with pwr := { s.pwr with copying := s.pwr.copying.erase c, gone := s.pwr.gone ++ [c] } }
     { u with fmem := u.fmem.filter fun x => x.1 < u.fmemSize }) := by
  simp [State.copyDone, h]

theorem State.rowRepaired_of_not_mem (h : c ∉ s.pwr.repairing) : s.rowRepaired c = s := by simp [State.rowRepaired, h]

theorem State.rowRepaired_of_mem (h : c ∈ s.pwr.repairing) : s.rowRepaired c =
    (let n := s.repairsOf (c / 32)
     let u : State := { s with pwr := { s.pwr with repairing := s.pwr.repairing.erase c } }
     if Config.spareRow (c / 32) n then { u with pwr := { u.pwr with repairs := SMap.insert s.pwr.repairs (c / 32) (n + 1) } }
     else u.fault 19 (4 * c) c) := by
  simp [State.rowRepaired, h]

end

/-! ### Errors of memories and cores (R339, R366, R385) -/

theorem execHbmReadError_of_lt {a : Nat} (h : a < 144 * 2 ^ 30) (unc : Bool) :
    execHbmReadError a unc s = .next ((s.hbmError a unc).done s) := by
  unfold execHbmReadError
  rw [if_pos h]

theorem State.hbmError_corrected (a : Nat) : s.hbmError a false = s.fault 19 (4 * hbmChannel a) (hbmChannel a) :=
  if_neg Bool.false_ne_true

theorem State.hbmError_uncorrected (a : Nat) : s.hbmError a true = s.hbmUncorrected a := if_pos rfl

theorem exec_hbmReadError {a : Nat} (h : a < 144 * 2 ^ 30) :
    exec (.hbmReadError a false) s = .next ((s.fault 19 (4 * hbmChannel a) (hbmChannel a)).done s) ∧
      exec (.hbmReadError a true) s = .next ((s.hbmUncorrected a).done s) := by
  rw [← State.hbmError_corrected, ← State.hbmError_uncorrected]
  exact ⟨execHbmReadError_of_lt h false, execHbmReadError_of_lt h true⟩

section
variable {a : Nat}

theorem State.spdEcc_of_lt (h : a < 64 * 2 ^ 20) (unc : Bool) : s.spdEcc a unc =
    (if unc && !s.spd.bad.contains (a / 8) then { s with spd := { s.spd with bad := s.spd.bad ++ [a / 8] } } else s : State).fault
      12 (4 * (a / 2 ^ 20) + b2n unc) (a / 2 ^ 20) := by
  have hb : ¬ 64 ≤ a / 2 ^ 20 := by omega
  unfold State.spdEcc
  exact if_neg hb

theorem State.spdEcc_of_corrected (h : a < 64 * 2 ^ 20) :
    s.spdEcc a false = s.fault 12 (4 * (a / 2 ^ 20)) (a / 2 ^ 20) := by
  rw [State.spdEcc_of_lt h]
  rfl

theorem State.spdEcc_of_new (h : a < 64 * 2 ^ 20) (hn : a / 8 ∉ s.spd.bad) : s.spdEcc a true =
    ({ s with spd := { s.spd with bad := s.spd.bad ++ [a / 8] } } : State).fault 12 (4 * (a / 2 ^ 20) + 1) (a / 2 ^ 20) := by
  rw [State.spdEcc_of_lt h, if_pos (by simp [hn])]
  rfl

theorem State.spdEcc_of_known (h : a < 64 * 2 ^ 20) (hm : a / 8 ∈ s.spd.bad) :
    s.spdEcc a true = s.fault 12 (4 * (a / 2 ^ 20) + 1) (a / 2 ^ 20) := by
  rw [State.spdEcc_of_lt h, if_neg (by simp [hm])]
  rfl

end

section
variable {c : Nat}

/-- A parity error counted, with the free value that picks its place (log entry 7). -/
def State.parityCounted (s : State) (c : Nat) (tlb : Bool) : BitVec 16 × State := (s.fault 11 (4 * c + b2n tlb) c).fresh 16

theorem State.coreParity_cache : s.coreParity c false =
    (let x := s.parityCounted c false
     let v := x.2.core c
     let k := x.1.toNat % max 1 (v.icache.length + v.dcache.length)
     x.2.setCore c (if k < v.icache.length then { v with icache := v.icache.eraseIdx k }
       else { v with dcache := v.dcache.eraseIdx (k - v.icache.length) })) := rfl

theorem State.coreParity_tlb : s.coreParity c true =
    (let x := s.parityCounted c true
     let v := x.2.core c
     let all := (v.itlb ++ v.dtlb ++ v.l2).filter (!·.locked)
     match all[x.1.toNat % max 1 all.length]? with
     | some e => x.2.setCore c (v.tlbDrop fun y => y == e)
     | none => x.2) := rfl

/-- A parity error of the TLBs drops some entry that is not locked, where there is one. -/
theorem State.coreParity_tlb_drops : let x := s.parityCounted c true
    let v := x.2.core c
    let all := (v.itlb ++ v.dtlb ++ v.l2).filter (!·.locked)
    (all = [] → s.coreParity c true = x.2) ∧
      (all ≠ [] → ∃ e ∈ all, s.coreParity c true = x.2.setCore c (v.tlbDrop fun y => y == e)) := by
  intro x v all
  rw [State.coreParity_tlb]
  refine ⟨fun hnil => ?none, fun hne => ?some⟩
  case none =>
    show (match all[x.1.toNat % max 1 all.length]? with
      | some e => x.2.setCore c (v.tlbDrop fun y => y == e)
      | none => x.2) = _
    rw [hnil]
    rfl
  case some =>
    have hlt : x.1.toNat % max 1 all.length < all.length := by
      have := List.length_pos_iff.2 hne
      rw [Nat.max_eq_right this]
      exact Nat.mod_lt _ this
    exact ⟨all[x.1.toNat % max 1 all.length], List.getElem_mem hlt, by
      show (match all[x.1.toNat % max 1 all.length]? with
        | some e => x.2.setCore c (v.tlbDrop fun y => y == e)
        | none => x.2) = _
      rw [List.getElem?_eq_getElem hlt]⟩

end
end
/-! ### A stopped device (R386) -/

theorem State.dispatchEvent_of_frozen {s : State} (h : s.frozen = true) : s.dispatchEvent = s := by
  simp [State.dispatchEvent, h]

/-- The timers and events of the data path. -/
theorem exec_of_stopped {s : State} (h : s.stopped = true) (p : FPort) (id : Nat) (l : Lane) : ∀ i ∈ [Instr.linkBlockSend p,
    .nakRepeatTimer p, .replayTimeout p, .canaryTick p, .timeSendTimer p, .bringupRetry p, .hintRefresh, .lineStateTimer,
    .holdExpire id, .heldPacketRoute id, .trainingTimeout l, .alignTimeout p, .handlerDispatch, .triggerQueueRelease,
    .tlbAgerTick], exec i s = .next (s.done s) := by
  have hf : s.frozen = true := by simp [State.frozen, h]
  have hruns (f : State → State) : (Host.Outcome.next ((s.ifRuns f).done s) : Res) = .next (s.done s) :=
    next_done_congr (State.ifRuns_of_frozen f hf)
  simp only [List.forall_mem_cons, List.not_mem_nil, false_imp_iff, implies_true, and_true]
  exact ⟨hruns _, hruns _, hruns _, hruns _, hruns _, hruns _, hruns _, hruns _, hruns _, hruns _, hruns _, hruns _,
    next_done_congr (State.dispatchEvent_of_frozen hf), hruns _, hruns _⟩

/-- An event that stops nothing is told. -/
theorem State.event_of_mild {blk src : Nat} {sp : SrcSpec} (hsp : sourceSpec blk src = some sp) (hr : sp.react ≠ .deviceStop)
    (s : State) (m detail : Nat) (inj : Bool) :
    s.event blk src m detail inj false = s.eventTold blk src m detail inj false sp.react := by
  have hstop : (false || sp.react == .deviceStop) = false := by simpa using hr
  rw [State.event_of_spec hsp]
  dsimp only
  rw [hstop, Bool.false_and, if_neg Bool.false_ne_true]

/-- The timer of a block no longer runs. -/
def State.escOver (s : State) (b : Nat) : State := { s with flt := { s.flt with esc := SMap.erase s.flt.esc b } }

theorem State.escExpire_of_off {s : State} {b : Nat} (h : (s.escOver b).flag FLT_ESC_ACTION.hw_enable b 0 = false) :
    s.escExpire b = s.escOver b := by
  unfold State.escOver at h ⊢
  unfold State.escExpire
  dsimp only
  rw [h, if_neg Bool.false_ne_true]

theorem State.escExpire_of_on {s : State} {b : Nat} (h : (s.escOver b).flag FLT_ESC_ACTION.hw_enable b 0 = true) :
    s.escExpire b = ((s.escOver b).pendingSrcs b).foldl (fun t n => t.carryOut b n) (s.escOver b) := by
  unfold State.escOver at h ⊢
  unfold State.escExpire
  dsimp only
  rw [h, if_pos rfl]

/-- Settles O55: the event is the one told, and each command is the branch that its condition takes. -/
theorem faultsAreCountedEscalatedAndRepaired : Obligations.FaultsAreCountedEscalatedAndRepaired := by
  refine ⟨fun s blk src m detail inj sp h hblk hsp hreact => ?event,
    fun b n s => ⟨fun h => next_done_congr (State.windowLimit_of_none h),
      fun w h => next_done_congr (State.windowLimit_of_some h)⟩,
    fun b s => ⟨fun h => next_done_congr (State.escLimit_of_none h), fun t h => ?esc⟩,
    fun b s => ⟨fun h => next_done_congr (State.injectLimit_of_none h),
      fun x h hu => next_done_congr (State.injectLimit_of_some h hu)⟩,
    fun b pass n s => ⟨fun h => next_done_congr (State.sliceDone_of_none h), fun k h => ?slice⟩,
    fun c s => ⟨fun h => next_done_congr (State.copyDone_of_not_mem h), fun h => next_done_congr (State.copyDone_of_mem h),
      fun h => next_done_congr (State.rowRepaired_of_not_mem h), fun h => ?row⟩,
    fun b unc s => rfl,
    fun a s h => exec_hbmReadError h,
    fun a s h => ⟨next_done_congr (State.spdEcc_of_corrected h), fun hn => next_done_congr (State.spdEcc_of_new h hn),
      fun hm => next_done_congr (State.spdEcc_of_known h hm)⟩,
    fun c s => ?cache, fun c s => ?tlb,
    fun p id u s => ⟨rfl, rfl⟩,
    fun i p id l s h hi => exec_of_stopped h p id l i hi⟩
  case event =>
    intro t
    have hsrc := sourceSpec_lt hsp
    have ht : t = s.eventTold blk src m detail inj false sp.react := State.event_of_mild hsp hreact s m detail inj
    rw [ht]
    refine ⟨?_, fun hs => ⟨?_, State.eventTold_win_count h hblk hsrc hs, State.eventTold_esc_of_severe h hs⟩,
      State.eventTold_also h hblk hsrc⟩
    · rw [State.eventTold_fld h hblk hsrc rfl (by decide), State.eventMarked_total h]
    · rw [State.eventTold_severe h hblk hsrc, hs, Bool.true_or]
  case esc =>
    intro u w
    have hexp : s.escLimit b.val = u.escExpire b.val := State.escLimit_of_some h
    exact ⟨fun hw => next_done_congr (hexp.trans (State.escExpire_of_off hw)),
      fun hw => next_done_congr (hexp.trans (State.escExpire_of_on hw))⟩
  case slice =>
    exact ⟨fun hk hf => next_done_congr ((State.sliceDone_of_last h hk).trans (if_pos hf)),
      fun hk hf => next_done_congr ((State.sliceDone_of_last h hk).trans (if_neg (by rw [hf]; decide))),
      fun hk => next_done_congr (State.sliceDone_of_next h hk)⟩
  case row =>
    exact ⟨fun hr => next_done_congr ((State.rowRepaired_of_mem h).trans (if_pos hr)),
      fun hr => next_done_congr ((State.rowRepaired_of_mem h).trans (if_neg (by rw [hr]; decide)))⟩
  case cache =>
    intro x v k
    exact ⟨fun hk => next_done_congr (congrArg (x.2.setCore c.val) (if_pos hk)),
      fun hk => next_done_congr (congrArg (x.2.setCore c.val) (if_neg (Nat.not_lt.2 hk)))⟩
  case tlb =>
    intro x v all
    obtain ⟨hnil, hne⟩ := State.coreParity_tlb_drops (s := s) (c := c.val)
    refine ⟨fun h => next_done_congr (hnil h), fun h => ?_⟩
    obtain ⟨e, he, hc⟩ := hne h
    exact ⟨e, he, next_done_congr hc⟩
end Sys2Proof.Machine
end


section
/-!
SUPPORT. The end of a verify and of an activation, reads of the flash, and the quote (R430 to R432, R438, R440).
-/
namespace Sys2Proof.Machine

section
variable {s : State}

/-! ### Live update (R431, R432) -/

theorem State.verifyDone_of_other {place : Nat} (h : s.updState ≠ 1) : s.verifyDone place = s := if_pos h

theorem State.verifyDone_of_bad {place : Nat} (h : s.updState = 1) (hc : s.updateCode ≠ 0) : s.verifyDone place =
    (s.setFld SEC_UPDATE_STATUS.state 0 0 5).setFld SEC_UPDATE_STATUS.code 0 0 s.updateCode := by
  unfold State.verifyDone
  dsimp only
  rw [if_neg (not_not.2 h), if_pos hc]

theorem State.verifyDone_of_good {place : Nat} (h : s.updState = 1) (hc : s.updateCode = 0) : s.verifyDone place =
    (let k := s.sec.verSlot
     ({ s with
       sec := { s.sec with verHash := BitVec.ofNat 512 (s.slotNum k 48 64), verSvn := s.slotNum k 4 4 }
       hdl := { s.hdl with work := s.hdl.work.write (place % (360 * 2 ^ 20)) (s.fwSection k) } } : State).setFld
         SEC_UPDATE_STATUS.state 0 0 2) := by
  unfold State.verifyDone
  dsimp only
  rw [if_neg (not_not.2 h), if_neg (not_not.2 hc)]

/-- The checks of an update in the order of R421. -/
theorem State.updateCode_eq (s : State) : s.updateCode =
    if s.formatOk s.sec.verSlot = false then 1 else if s.keyFused (slotBase s.sec.verSlot + 16) (·.vendorKeys) = false then 2
      else s.firmwareCode s.sec.verSlot := by
  unfold State.updateCode State.imageCode
  dsimp only
  cases hf : s.formatOk s.sec.verSlot with
  | false => simp
  | true =>
    cases hk : s.keyFused (slotBase s.sec.verSlot + 16) (·.vendorKeys) with
    | false => simp
    | true => simp

theorem State.fwReady_of_other (h : s.updState ≠ 3) : s.fwReady = s := if_pos h

/-- The state in which new code runs that has reported ready. -/
def State.fwTaken (s : State) : State :=
  let u : State := { s with sec := { s.sec with fwRunning := s.sec.verHash, updated := true } }
  (u.setFld SEC_SVN.svn 0 0 u.sec.verSvn).setFld SEC_UPDATE_STATUS.state 0 0 4

theorem State.fwReady_of_waiting (h : s.updState = 3) : s.fwReady =
    s.fwTaken.logMarker 2 (BitVec.ofNat 64 (s.fld SEC_SVN.svn 0 0)) (BitVec.ofNat 64 s.fwTaken.sec.verSvn) := by
  unfold State.fwReady State.fwTaken
  dsimp only
  rw [if_neg (not_not.2 h)]

theorem State.activationLimit_of_other (h : s.updState ≠ 3) : s.activationLimit = s := if_pos h

theorem State.activationLimit_of_waiting (h : s.updState = 3) :
    s.activationLimit = (s.advance (s.sec.updAt + us 500)).setFld SEC_UPDATE_STATUS.state 0 0 6 := if_neg (not_not.2 h)

/-! ### The flash (R438) -/

theorem State.flashRead_of_busy (h : s.flashBusy = true) : s.flashRead = (0, s) := if_pos h

theorem State.flashRead_of_idle (h : s.flashBusy = false) : s.flashRead =
    (BitVec.ofNat 64 (ofLE (s.flash.read (s.fld SEC_FLASH_ADDR.addr 0 0 * 8) 8)), s.bump SEC_FLASH_ADDR.addr 0 0) :=
  if_neg (Bool.eq_false_iff.1 h)

/-- A read of the flash data register by a master with direct access (R30) is performed at once while nothing waits at SEC. -/
theorem State.regRead_flashData {m : Nat} (hm : directMaster m = true) (hw : ∀ b ∈ s.waits, b.block ≠ 15) :
    s.regRead m ⟨.SEC_FLASH_DATA, 0, 0⟩ .full =
      s.flashRead.2.deliver ⟨m, (RegRef.mk .SEC_FLASH_DATA 0 0).off, .w64, none, none, s.now⟩ s.flashRead.1 false := by
  have hoff : (RegRef.mk .SEC_FLASH_DATA 0 0).off % 8 = 0 := RegRef.off_mod_eight _
  have hreg : regAt (RegRef.mk .SEC_FLASH_DATA 0 0).off = some ⟨.SEC_FLASH_DATA, 0, 0⟩ := regAt_off (by decide) (by decide)
  have hplace : 15 * 0x100000 ≤ (RegRef.mk .SEC_FLASH_DATA 0 0).off ∧
      (RegRef.mk .SEC_FLASH_DATA 0 0).off < (15 + 1) * 0x100000 := by decide
  have hblock : (WaitAcc.mk m (RegRef.mk .SEC_FLASH_DATA 0 0).off .w64 none none s.now).block = 15 :=
    WaitAcc.block_eq (by decide) hplace.1 hplace.2
  calc s.regRead m ⟨.SEC_FLASH_DATA, 0, 0⟩ .full = s.masterAccess m (RegRef.mk .SEC_FLASH_DATA 0 0).off .w64 none := if_pos hm
    _ = s.performRead ⟨m, (RegRef.mk .SEC_FLASH_DATA 0 0).off, .w64, none, none, s.now⟩ :=
      State.regAccess_of_free (by rw [State.blocked_read rfl, hblock]; rfl) (by rwa [hblock])
    _ = _ := by
      unfold State.performRead
      rw [WaitAcc.part_full rfl hoff, (WaitAcc.reg_full rfl hoff).trans hreg]

/-! ### The quote (R430) -/

theorem State.quoteBody_length (s : State) : s.quoteBody.length = 352 := by
  unfold State.quoteBody
  simp only [List.length_append, leBytes_length]

theorem State.quoteDone_of_idle (h : s.flag SEC_QUOTE_CTL.busy 0 0 = false) : s.quoteDone = s := by
  unfold State.quoteDone
  rw [h]
  exact if_pos rfl

/-- A word of a quote, body and signature. -/
def State.quoteWord (s : State) (k : Nat) : Word :=
  BitVec.ofNat 64 (ofLE (((s.quoteBody ++ leBytes 64 (Config.sign s.seed s.quoteBody).toNat).drop (8 * k)).take 8))

/-- Write the quote registers from words. -/
def State.withQuote (s : State) (word : Nat → Word) (n : Nat) : State :=
  (List.range n).foldl (fun t k => t.setReg ⟨.SEC_QUOTE_DATA, 0, k⟩ (word k)) s

theorem State.quoteDone_of_busy (h : s.flag SEC_QUOTE_CTL.busy 0 0 = true) :
    s.quoteDone = (s.withQuote s.quoteWord 52).setFlag SEC_QUOTE_CTL.busy 0 0 false := by
  unfold State.quoteDone
  rw [h]
  exact if_neg (by decide)

/-- The quote registers read as written: no later one lies at an earlier one's offset. -/
theorem State.reg_withQuote (h : s.Ok) (word : Nat → Word) {k n : Nat} (hk : k < n) :
    (s.withQuote word n).reg ⟨.SEC_QUOTE_DATA, 0, k⟩ = word k := by
  have hwf (n : Nat) : SMap.wf resetWord (s.withQuote word n).regs = true := by
    induction n with
    | zero => exact h.regs
    | succ n ih =>
      unfold State.withQuote
      rw [List.range_succ, List.foldl_append]
      exact State.wf_setReg ih _ _
  induction n with
  | zero => omega
  | succ n ih =>
    have hstep : s.withQuote word (n + 1) = (s.withQuote word n).setReg ⟨.SEC_QUOTE_DATA, 0, n⟩ (word n) := by
      unfold State.withQuote
      rw [List.range_succ, List.foldl_append]
      rfl
    rw [hstep]
    rcases Nat.lt_succ_iff_lt_or_eq.1 hk with hlt | rfl
    · rw [State.reg_setReg_ne (hwf n) _ (by simp only [RegRef.off, Reg.shape]; omega), ih hlt]
    · exact State.reg_setReg_self (hwf k) _ _

end

/-- Settles O58: each command is the branch that its condition takes, and a quote's registers lie apart. -/
theorem firmwareIsUpdatedFlashedAndAttested : Obligations.FirmwareIsUpdatedFlashedAndAttested := by
  refine ⟨fun place s => ⟨fun h => next_done_congr (State.verifyDone_of_other h),
      fun h hc => next_done_congr (State.verifyDone_of_bad h hc), fun h hc => next_done_congr (State.verifyDone_of_good h hc)⟩,
    State.updateCode_eq,
    fun s => ⟨fun h => ⟨next_done_congr (State.fwReady_of_other h), next_done_congr (State.activationLimit_of_other h)⟩,
      fun h => ⟨next_done_congr (State.fwReady_of_waiting h), next_done_congr (State.activationLimit_of_waiting h)⟩⟩,
    fun m s hm hw => ⟨fun hb => ?busy, fun hb => ?idle⟩, fun s => rfl, State.quoteBody_length,
    fun s => ⟨fun h => next_done_congr (State.quoteDone_of_idle h),
      fun h => ⟨next_done_congr (State.quoteDone_of_busy h), fun hok k hk => State.reg_withQuote hok s.quoteWord hk⟩⟩⟩
  case busy =>
    refine next_done_congr ((State.regRead_flashData hm hw).trans ?_)
    rw [State.flashRead_of_busy hb]
  case idle =>
    refine next_done_congr ((State.regRead_flashData hm hw).trans ?_)
    rw [State.flashRead_of_idle hb]

end Sys2Proof.Machine
end


section
/-!
SUPPORT. The steps of power-up, each of which waits for the one before it, and the boot watchdog (R416 to R422, R403 to R405).
-/
namespace Sys2Proof.Machine

section
variable {s : State}

/-! ### Steps 1 to 4 -/

theorem State.powerRise_of_good {a r : Nat} (h : s.pwr.pwrgood = true) : s.powerRise a r = s := if_pos h

theorem State.powerRise_of_off {a r : Nat} (h : s.pwr.pwrgood = false) : s.powerRise a r =
    (let u : State := { s with
        pwr := { s.pwr with pwrgood := true }
        sec := { SecState.init with
          svnFused := s.sec.svnFused, fuses := s.sec.fuses, step := 1, bootAt := s.now, cause := 1, addrSel := a % 4 } }
     ((((u.setFld PWR_STATUS.rail_ok 0 0 r).setFld PWR_STATUS.host_ref_ok 0 0 0xFF).setFld PWR_STATUS.fab_ref_ok 0 0 0xF).setFlag
       PWR_STATUS.core_ref_ok 0 0 true).logMarker 1 0 1) := if_neg (Bool.eq_false_iff.1 h)

theorem State.fusesSensed_of_other {f : Fuses} (h : s.sec.step ≠ 1) : s.fusesSensed f = s := if_pos h

theorem State.fusesSensed_of_one {f : Fuses} (h : s.sec.step = 1) : s.fusesSensed f =
    (let g := s.sec.fuses.getD f
     let v := s.railsSettled.atStep 2
     let v : State := { v with sec := { v.sec with fuses := some g } }
     let u := (v.setFld TOP_PART_INFO.stepping 0 0 g.stepping).setFld SEC_IDENTITY.identity 0 0 (identityOf g.seed)
     (u.setFld SEC_SVN.svn_min 0 0 (max (g.svnMin % 2 ^ 32) u.sec.svnFused)).spdFuses g.spdRepairs) := if_neg (not_not.2 h)

theorem State.pllLocked_of_other (h : s.sec.step ≠ 2) : s.pllLocked = s := if_pos h

theorem State.pllLocked_of_two (h : s.sec.step = 2) : s.pllLocked = (s.atStep 3).setFld PWR_STATUS.pll_lock 0 0 0x3F :=
  if_neg (not_not.2 h)

theorem State.headersChecked_of_other (h : s.sec.step ≠ 3) : s.headersChecked = s := if_pos h

/-- The codes of both slots are known, and boot goes on. -/
def State.headersKnown (s : State) : State :=
  (((s.atStep 4).setSlotCode 0 (s.headerCode 0)).setSlotCode 1 (s.headerCode 1)).setFld SEC_BOOT_STATUS.state 0 0 1

/-- A slot is the candidate. -/
def State.withCand (s : State) (c : Nat) : State := { s with sec := { s.sec with cand := c } }

theorem State.headersChecked_of_three (h : s.sec.step = 3) : s.headersChecked =
    if s.headersKnown.slotCode 0 = 0 ∨ s.headersKnown.slotCode 1 = 0 then
      s.headersKnown.withCand (if s.headersKnown.slotCode 0 = 0 ∧
        (¬ s.headersKnown.slotCode 1 = 0 ∨ s.headersKnown.slotSeq 1 ≤ s.headersKnown.slotSeq 0) then 0 else 1)
    else s.headersKnown.bootFailed := if_neg (not_not.2 h)

theorem State.headersChecked_none (h : s.sec.step = 3) (ha : s.headersKnown.slotCode 0 ≠ 0) (hb : s.headersKnown.slotCode 1 ≠ 0) :
    s.headersChecked = s.headersKnown.bootFailed := by
  rw [State.headersChecked_of_three h, if_neg (by tauto)]

theorem State.headersChecked_first (h : s.sec.step = 3) (ha : s.headersKnown.slotCode 0 = 0)
    (hb : s.headersKnown.slotCode 1 ≠ 0 ∨ s.headersKnown.slotSeq 1 ≤ s.headersKnown.slotSeq 0) :
    s.headersChecked = s.headersKnown.withCand 0 := by
  rw [State.headersChecked_of_three h, if_pos (.inl ha), if_pos ⟨ha, hb⟩]

theorem State.headersChecked_second (h : s.sec.step = 3) (hb : s.headersKnown.slotCode 1 = 0)
    (ha : s.headersKnown.slotCode 0 ≠ 0 ∨ s.headersKnown.slotSeq 0 < s.headersKnown.slotSeq 1) :
    s.headersChecked = s.headersKnown.withCand 1 := by
  rw [State.headersChecked_of_three h, if_pos (.inr hb), if_neg (by rintro ⟨h0, h1 | h1⟩ <;> omega)]

/-! ### Steps 5 and 6 -/

theorem State.firmwareVerified_of_other {ds : List (Nat × Word)} {ref : Bool}
    (h : s.sec.step ≠ 4 ∨ s.fld SEC_BOOT_STATUS.state 0 0 ≠ 1) : s.firmwareVerified ds ref = s := if_pos h

section
variable {ds : List (Nat × Word)} {ref : Bool} (h : s.sec.step = 4) (hb : s.fld SEC_BOOT_STATUS.state 0 0 = 1)
include h hb

theorem State.firmwareVerified_of_bad (hc : s.firmwareCode s.sec.cand ≠ 0) :
    s.firmwareVerified ds ref = s.candidateBad (s.firmwareCode s.sec.cand) := by
  unfold State.firmwareVerified
  dsimp only
  rw [if_neg (by tauto), if_pos hc]

variable (hc : s.firmwareCode s.sec.cand = 0)
include hc

theorem State.firmwareVerified_of_refused (hx : ((s.applyDefaults ds).applyList (s.writeList s.sec.cand)).2 = false) :
    s.firmwareVerified ds ref = ((s.applyDefaults ds).applyList (s.writeList s.sec.cand)).1.candidateBad 8 := by
  unfold State.firmwareVerified
  dsimp only
  rw [if_neg (by tauto), if_neg (not_not.2 hc), hx]
  exact if_pos rfl

theorem State.firmwareVerified_of_applied (hx : ((s.applyDefaults ds).applyList (s.writeList s.sec.cand)).2 = true) :
    s.firmwareVerified ds ref =
      (let x := (s.applyDefaults ds).applyList (s.writeList s.sec.cand)
       let u := (if suppliesMap (ds.map (·.1) ++ (s.writeList s.sec.cand).map (·.1)) = true then x.1
         else x.1.naturalMap).loadSlot
       ({ u with lnk := { u.lnk with timeRef := ref } } : State).atStep 6) := by
  unfold State.firmwareVerified
  dsimp only
  rw [if_neg (by tauto), if_neg (not_not.2 hc), hx]
  exact if_neg (by decide)

end

/-- A list that has been applied had only entries that check 0x08 admits. -/
theorem State.applyList_admitted (s : State) (ws : List (Nat × Bool × Word)) (h : (s.applyList ws).2 = true) :
    ∀ w ∈ ws, listEntryOk w.1 = true ∧ w.2.1 = true := by
  induction ws generalizing s with
  | nil => exact fun w hw => absurd hw List.not_mem_nil
  | cons e ws ih =>
    obtain ⟨off, zero, v⟩ := e
    unfold State.applyList at h
    dsimp only at h
    split at h
    next hz =>
      obtain ⟨hz, hx⟩ := Bool.and_eq_true_iff.1 hz
      have hok : listEntryOk off = true := by
        by_contra hn
        simp [State.applyEntry, hn] at hx
      exact List.forall_mem_cons.2 ⟨⟨hok, hz⟩, ih _ h⟩
    next => cases h

section
variable {code : Nat}

theorem State.setSlotCode_sec (s : State) (slot code : Nat) : (s.setSlotCode slot code).sec = s.sec := by
  unfold State.setSlotCode
  split
  · rw [State.setFld_sec]
  · rw [State.setFld_sec]

theorem State.candidateBad_of_tried (h : s.sec.tried = true) :
    s.candidateBad code = (s.setSlotCode s.sec.cand code).bootFailed := by
  unfold State.candidateBad
  dsimp only
  rw [if_neg (by simp [State.setSlotCode_sec, h])]

theorem State.candidateBad_of_other (h : s.sec.tried = false)
    (ho : (s.setSlotCode s.sec.cand code).slotCode (1 - s.sec.cand) = 0) : s.candidateBad code =
      (let u := s.setSlotCode s.sec.cand code
       { u with sec := { u.sec with cand := 1 - s.sec.cand, tried := true } }) := by
  unfold State.candidateBad
  dsimp only
  rw [ho, if_pos (by simp [State.setSlotCode_sec, h])]

theorem State.candidateBad_of_none (ho : (s.setSlotCode s.sec.cand code).slotCode (1 - s.sec.cand) ≠ 0) :
    s.candidateBad code = (s.setSlotCode s.sec.cand code).bootFailed := by
  unfold State.candidateBad
  dsimp only
  rw [if_neg (by simp [ho])]

end

/-! ### The natural map (R234) -/

/-- The peer of line port `p` in the natural map of a node whose coordinates are those of `s`. -/
def State.naturalPeer (s : State) (p : Nat) : Nat := if p % 47 < s.coord (p / 47) then p % 47 else p % 47 + 1

/-- The map of the first `n` line ports has been written. -/
def State.mapped (s : State) (n : Nat) : State := (List.range n).foldl (fun s p => s.setFld RTE_PORT_MAP.peer 0 p (s.naturalPeer p)) s

theorem State.mapped_succ (s : State) (n : Nat) :
    s.mapped (n + 1) = (s.mapped n).setFld RTE_PORT_MAP.peer 0 n ((s.mapped n).naturalPeer n) := by
  unfold State.mapped
  rw [List.range_succ, List.foldl_append]
  rfl

theorem State.mapped_wf (h : s.Ok) (n : Nat) : SMap.wf resetWord (s.mapped n).regs = true := by
  induction n with
  | zero => exact h.regs
  | succ n ih =>
    rw [State.mapped_succ]
    exact State.wf_setFld ih ..

theorem State.coord_of_reg {t : State} (h : t.reg ⟨.TOP_NODE_COORD, 0, 0⟩ = s.reg ⟨.TOP_NODE_COORD, 0, 0⟩) (d : Nat) :
    t.coord d = s.coord d := by
  unfold State.coord
  split
  · exact State.fld_of_reg h
  · exact State.fld_of_reg h
  · exact State.fld_of_reg h

/-- Writing the map leaves the node's coordinates. -/
theorem State.mapped_coord (s : State) (n d : Nat) : (s.mapped n).coord d = s.coord d := by
  induction n with
  | zero => rfl
  | succ n ih =>
    rw [State.mapped_succ, ← ih]
    refine State.coord_of_reg (State.reg_setFld_of_ne _ _ _ _ _ ?_) d
    simp only [RegRef.off, Reg.shape, RTE_PORT_MAP.peer]
    omega

theorem State.mapped_peer (h : s.Ok) {p n : Nat} (hp : p < n) (hn : n ≤ 141) :
    (s.mapped n).fld RTE_PORT_MAP.peer 0 p = s.naturalPeer p := by
  induction n with
  | zero => omega
  | succ n ih =>
    have hpeer : (s.mapped n).naturalPeer n = s.naturalPeer n := by
      unfold State.naturalPeer
      rw [State.mapped_coord]
    rw [State.mapped_succ, hpeer]
    rcases Nat.lt_succ_iff_lt_or_eq.1 hp with hlt | rfl
    · rw [State.fld_setFld_ne (State.mapped_wf h n) _ _ _ _ _ _ _
        (by simp only [RegRef.off, Reg.shape, RTE_PORT_MAP.peer]; omega), ih hlt (by omega)]
    · rw [State.fld_setFld (State.mapped_wf h p) _ _ _ _ (by decide) (by decide)]
      have hlt : s.naturalPeer p < 2 ^ 17 := by
        unfold State.naturalPeer
        split <;> omega
      exact Nat.mod_eq_of_lt hlt

/-! ### Steps 7 to 9 (R133, R345) -/

theorem State.hbmTrained_of_early (h : s.sec.step < 3 ∨ s.sec.hbmTrained = true) : s.hbmTrained = s := if_pos h

theorem State.hbmTrained_of_late (h : 3 ≤ s.sec.step) (ht : s.sec.hbmTrained = false) :
    s.hbmTrained = { s with sec := { s.sec with hbmTrained := true } } := if_neg (by simp [ht]; omega)

theorem State.hbmZeroed_of_untrained (h : s.sec.hbmTrained = false) : s.hbmZeroed = s := if_pos (by simp [h])

/-- HBM is zero and good, and LOG's records are in the ring. -/
def State.hbmClean (s : State) : State :=
  { s with
    fmem := [], hmem := [], xlt := { s.xlt with wins := [], table := [], cache := [] }, pmc := { s.pmc with buf := [] }
    pwr := { s.pwr with hbmBad := [] }, log := { s.log with ring := true } }

theorem State.hbmZeroed_of_trained (h : s.sec.hbmTrained = true) (hr : s.log.ring = false) : s.hbmZeroed = s.hbmClean :=
  if_neg (by simp [h, hr])

theorem State.xltRelease_clean (s : State) : s.hbmClean.xltRelease = if s.pwr.xltWaits then
    ({ s.hbmClean with pwr := { s.hbmClean.pwr with xltWaits := false } } : State).setDone 4 true else s.hbmClean := by
  unfold State.xltRelease
  rw [show s.hbmClean.log.ring = true from rfl, Bool.and_true]
  rfl

theorem State.firmwareLoaded_of_early (h : s.sec.step ≠ 6 ∨ s.log.ring = false) : s.firmwareLoaded = s :=
  if_pos (by simpa using h)

theorem State.firmwareLoaded_of_six (h : s.sec.step = 6) (hr : s.log.ring = true) : s.firmwareLoaded =
    (let u : State := { s with hmem := s.hmem.write 0 (s.fwSection s.sec.cand) }
     let u := (((u.atStep 9).setFld SEC_BOOT_STATUS.state 0 0 2).startFwCores).bootWait
     let u := u.fwWrite ⟨.SPD_MARCH_MASK, 0, 0⟩ (BitVec.allOnes 64)
     u.fwWrite ⟨.SPD_MARCH_CTL, 0, 0⟩ (SPD_MARCH_CTL.start.mask ||| SPD_MARCH_CTL.repair.mask)) :=
  if_neg (by simp [h, hr])

/-! ### Step 10 (R403, R404) -/

section
variable {j : JournalRead}

theorem State.release_of_early (h : s.sec.step ≠ 9 ∨ s.pwr.pfLow = true ∨ s.spd.march ≠ none ∨
    s.fld SEC_BOOT_STATUS.state 0 0 = 3) : s.release j = s := by
  rw [← Option.isSome_iff_ne_none] at h
  exact if_pos h

/-- The state in which the journal has been read and step 10 is reached. -/
def State.journalTaken (s : State) (j : JournalRead) : State :=
  ((s.advance (s.pwr.pfAt + ms 10)).atStep 10).takeJournal j (s.journalCheck j == 0)

section
variable (h : s.sec.step = 9) (hl : s.pwr.pfLow = false) (hm : s.spd.march = none) (hb : s.fld SEC_BOOT_STATUS.state 0 0 ≠ 3)
include h hl hm hb

theorem State.release_of_trusted (hc : s.journalCheck j = 0) : s.release j =
    ((s.journalTaken j).setFld RSV_STATUS.state 0 0 1).startReplayCores.releaseBlocks (2 ^ 20 - 1 - replayBlocks) := by
  unfold State.release
  dsimp only
  rw [if_neg (by simp [h, hl, hm, hb]), if_pos hc]
  rfl

theorem State.release_of_refused (hc : s.journalCheck j ≠ 0) :
    s.release j = (s.journalTaken j).distrust (s.journalCheck j) (2 ^ 20 - 1) := by
  unfold State.release
  dsimp only
  rw [if_neg (by simp [h, hl, hm, hb]), if_neg hc]
  rfl

end

theorem State.journalCheck_eq_one (s : State) (j : JournalRead) : s.flag RSV_CFG.enable 0 0 = false ↔ s.journalCheck j = 1 := by
  unfold State.journalCheck
  cases s.flag RSV_CFG.enable 0 0 with
  | false => simp
  | true =>
    simp only [Bool.not_true, Bool.false_eq_true, if_false]
    split
    · simp
    · split
      · simp
      · repeat' split
        all_goals simp

/-- A journal that passes its checks is one that can be read, of a clean seal, of this device, within the target's room. -/
theorem State.journalCheck_eq_zero (h : s.journalCheck j = 0) : j.readable = true ∧ s.targetReady = true ∧
    ∃ sb, validCopy j.copies = some sb ∧ bytesAt sb 80 1 = 1 ∧ bytesAt sb 16 8 = s.fld SEC_IDENTITY.identity 0 0 ∧
      s.dirtyCount ≤ bytesAt sb 72 8 := by
  unfold State.journalCheck at h
  split at h
  · cases h
  · split at h
    · cases h
    next hr =>
      obtain ⟨hread, htarget⟩ : j.readable = true ∧ s.targetReady = true := by simpa using hr
      split at h
      · cases h
      next sb hsb =>
        refine ⟨hread, htarget, sb, hsb, ?_⟩
        split at h
        · cases h
        next hone =>
          split at h
          · cases h
          · split at h
            · cases h
            next hid =>
              split at h
              · cases h
              next hcount => exact ⟨not_not.1 hone, not_not.1 hid, Nat.not_lt.1 hcount⟩

end

/-! ### The watchdog and a fall of PWRGOOD (R416, R418) -/

/-- The watchdog no longer counts: step 10 is reached, boot has failed, or it waits for PWRFAIL_N. -/
def State.dogIdle (s : State) : Prop :=
  10 ≤ s.sec.step ∨ s.fld SEC_BOOT_STATUS.state 0 0 = 3 ∨ s.sec.waitFrom ≠ none

theorem State.bootWatchdog_of_idle (h : s.pwr.pwrgood = false ∨ s.dogIdle) : s.bootWatchdog = s := by
  refine if_pos ?_
  unfold State.dogIdle at h
  simpa [Option.isSome_iff_ne_none, or_assoc] using h

section
variable (h : s.pwr.pwrgood = true) (hn : ¬ s.dogIdle)
include h hn

theorem State.bootWatchdog_of_counting : s.bootWatchdog =
    (let u := s.advance (s.sec.bootAt + ms 1000 + s.sec.waited)
     if u.sec.dogUsed then u.bootFailed else ({ u with sec := { u.sec with dogUsed := true } } : State).deviceReset 3) := by
  refine if_neg ?_
  unfold State.dogIdle at hn
  simpa [Option.isSome_iff_ne_none, or_assoc, h] using hn

end

theorem State.powerFall_of_off (h : s.pwr.pwrgood = false) : s.powerFall = s := if_pos (by simp [h])

theorem State.powerFall_of_good (h : s.pwr.pwrgood = true) : s.powerFall =
    (let u := s.resetOutputs.cleared
     let w : State := { u with pwr := { u.pwr with pwrgood := false }, sec := { u.sec with dogUsed := false } }
     (((w.setFld PWR_STATUS.rail_ok 0 0 0).setFld PWR_STATUS.host_ref_ok 0 0 0).setFld PWR_STATUS.fab_ref_ok 0 0 0).setFld
       PWR_STATUS.core_ref_ok 0 0 0) := if_neg (by simp [h])

end
/-- Settles O57: each command is the branch that its step, or the checks of the flash and the journal, take. -/
theorem powerUpGoesStepByStep : Obligations.PowerUpGoesStepByStep := by
  refine ⟨fun a rails s => ⟨fun h => next_done_congr (State.powerRise_of_good h),
      fun h => next_done_congr (State.powerRise_of_off h)⟩,
    fun k x rs s => ⟨fun h => next_done_congr (State.fusesSensed_of_other h), fun h g hg => ?fuses⟩,
    fun s => ⟨fun h => next_done_congr (State.pllLocked_of_other h), fun h => next_done_congr (State.pllLocked_of_two h)⟩,
    fun a b s => ⟨fun h => next_done_congr (State.headersChecked_of_other h), fun h =>
      ⟨fun ha hb => next_done_congr (State.headersChecked_none h ha hb),
        fun ha hb => next_done_congr (State.headersChecked_first h ha hb),
        fun hb ha => next_done_congr (State.headersChecked_second h hb ha)⟩⟩,
    fun a b ds ref s => ⟨fun h => next_done_congr (State.firmwareVerified_of_other h), fun h hb =>
      ⟨fun hc => next_done_congr (State.firmwareVerified_of_bad h hb hc),
        fun hc hx => next_done_congr (State.firmwareVerified_of_refused h hb hc hx),
        fun hc hx => next_done_congr (State.firmwareVerified_of_applied h hb hc hx)⟩⟩,
    fun s p h hp => State.mapped_peer h hp (Nat.le_refl 141), State.applyList_admitted,
    fun s code => ⟨State.candidateBad_of_tried, State.candidateBad_of_other, State.candidateBad_of_none⟩,
    fun s => ⟨fun h ht => next_done_congr (State.hbmTrained_of_late h ht), fun h => next_done_congr (State.hbmTrained_of_early h),
      fun ht hr => ?zeroed, fun ht => next_done_congr (congrArg State.xltRelease (State.hbmZeroed_of_untrained ht)),
      fun h hr => next_done_congr (State.firmwareLoaded_of_six h hr), fun h => next_done_congr (State.firmwareLoaded_of_early h)⟩,
    fun j s => ⟨fun h => next_done_congr (State.release_of_early h), fun h hl hm hb =>
      ⟨fun hc => next_done_congr (State.release_of_trusted h hl hm hb hc),
        fun hc => next_done_congr (State.release_of_refused h hl hm hb hc)⟩⟩,
    fun j s => ⟨State.journalCheck_eq_one s j, State.journalCheck_eq_zero⟩,
    fun s => ⟨fun h => next_done_congr (State.bootWatchdog_of_idle h), fun h hn =>
      ⟨fun hu => next_done_congr ((State.bootWatchdog_of_counting h hn).trans (if_pos hu)),
        fun hu => next_done_congr ((State.bootWatchdog_of_counting h hn).trans (if_neg (Bool.eq_false_iff.1 hu)))⟩⟩,
    fun s => ⟨fun h => next_done_congr (State.powerFall_of_off h), fun h => next_done_congr (State.powerFall_of_good h)⟩⟩
  case fuses =>
    subst hg
    exact next_done_congr (State.fusesSensed_of_one h)
  case zeroed =>
    exact next_done_congr ((congrArg State.xltRelease (State.hbmZeroed_of_trained ht hr)).trans s.xltRelease_clean)

end Sys2Proof.Machine
end


section
/-!
SUPPORT. Which event is dispatched on which core, and how an invocation starts, ends and stops (R322, R323, R328 to R331).
-/
namespace Sys2Proof.Machine

/-! ### Eligible cores (R329, R381) -/

theorem State.mem_eligible (s : State) (mask : Word) (c : Nat) : c ∈ s.eligible mask ↔ c < 64 ∧ s.userCore c = true ∧
    (bitOf mask.toNat c = true ∨ ∀ d, d < 64 → s.userCore d = true → bitOf mask.toNat d = false) := by
  unfold State.eligible
  dsimp only
  split
  next hempty =>
    have hnone : ∀ d, d < 64 → s.userCore d = true → bitOf mask.toNat d = false := by
      intro d hd hu
      have hd' := List.filter_eq_nil_iff.1 (List.isEmpty_iff.1 hempty) d (List.mem_range.2 hd)
      simpa [hu] using hd'
    rw [List.mem_filter, List.mem_range]
    exact ⟨fun ⟨hc, hu⟩ => ⟨hc, hu, .inr hnone⟩, fun ⟨hc, hu, _⟩ => ⟨hc, hu⟩⟩
  next hempty =>
    obtain ⟨d, hd⟩ := List.exists_mem_of_ne_nil _ (fun h => hempty (List.isEmpty_iff.2 h))
    obtain ⟨hd, hbit⟩ := List.mem_filter.1 hd
    obtain ⟨hbit, hu⟩ := Bool.and_eq_true_iff.1 hbit
    rw [List.mem_filter, List.mem_range, Bool.and_eq_true]
    constructor
    · exact fun ⟨hc, hb, hu⟩ => ⟨hc, hu, .inl hb⟩
    · rintro ⟨hc, huc, hb | hnone⟩
      · exact ⟨hc, hb, huc⟩
      · rw [hnone d (List.mem_range.1 hd) hu] at hbit
        cases hbit

/-- The eligible cores stand in ascending order. -/
theorem State.eligible_sorted (s : State) (mask : Word) : (s.eligible mask).Pairwise (· < ·) := by
  unfold State.eligible
  dsimp only
  split
  · exact List.pairwise_lt_range.filter _
  · exact List.pairwise_lt_range.filter _

/-- The first of an ascending list that has a property is the least. -/
theorem find?_least {l : List Nat} {p : Nat → Bool} {c : Nat} (hl : l.Pairwise (· < ·)) (h : l.find? p = some c) :
    c ∈ l ∧ p c = true ∧ ∀ d ∈ l, d < c → p d = false := by
  obtain ⟨hp, as, bs, rfl, has⟩ := List.find?_eq_some_iff_append.1 h
  refine ⟨by simp, hp, fun d hd hlt => ?_⟩
  rcases List.mem_append.1 hd with hd | hd
  · simpa using has d hd
  · rcases List.mem_cons.1 hd with rfl | hd
    · omega
    · have := List.rel_of_pairwise_cons (List.pairwise_append.1 hl).2.1 hd
      omega

theorem State.coreFor_spec {s : State} {e : TrigEv} {c : Nat} (h : s.coreFor e = some c) :
    c ∈ s.eligible e.cfg.cores ∧ s.coreSt c = 1 ∧ (s.core c).pc = residentMain ∧
      (e.cfg.serial = true → s.trigRuns e.trig = false) ∧
      ∀ d ∈ s.eligible e.cfg.cores, d < c → s.coreSt d ≠ 1 ∨ (s.core d).pc ≠ residentMain := by
  unfold State.coreFor at h
  split at h
  next => cases h
  next hserial =>
    obtain ⟨hmem, hidle, hleast⟩ := find?_least (s.eligible_sorted _) h
    obtain ⟨hst, hpc⟩ : s.coreSt c = 1 ∧ (s.core c).pc = residentMain := by simpa using hidle
    refine ⟨hmem, hst, hpc, fun hs => by simpa [hs] using hserial, fun d hd hlt => ?_⟩
    by_contra hboth
    rw [not_or, not_not, not_not] at hboth
    simpa [hboth] using hleast d hd hlt

/-! ### The event that is next (R329) -/

/-- One event considered after others: it is better where it has a core and a higher priority than the best so far. -/
def State.better (s : State) (best : Option (Nat × TrigEv × Nat)) (x : Nat × TrigEv) : Option (Nat × TrigEv × Nat) :=
  match s.coreFor x.2 with
  | none => best
  | some c =>
    match best with
    | none => some (x.1, x.2, c)
    | some b => if b.2.1.cfg.prio < x.2.cfg.prio then some (x.1, x.2, c) else some b

/-- `best` is the best of the first events of a queue: the highest priority, and then the oldest, of those that have a core. -/
def State.BestOf (s : State) (queue : List TrigEv) : Option (Nat × TrigEv × Nat) → Prop
  | none => ∀ e ∈ queue, s.coreFor e = none
  | some (k, e, c) => queue[k]? = some e ∧ s.coreFor e = some c ∧
      ∀ j g, queue[j]? = some g → s.coreFor g ≠ none → g.cfg.prio ≤ e.cfg.prio ∧ (g.cfg.prio = e.cfg.prio → k ≤ j)

theorem State.BestOf.better {s : State} {queue : List TrigEv} {best : Option (Nat × TrigEv × Nat)} (h : s.BestOf queue best)
    (e : TrigEv) : s.BestOf (queue ++ [e]) (s.better best (queue.length, e)) := by
  have hget {j : Nat} {g : TrigEv} (hj : (queue ++ [e])[j]? = some g) : queue[j]? = some g ∨ j = queue.length ∧ g = e := by
    rcases Nat.lt_or_ge j queue.length with hlt | hge
    · exact .inl ((List.getElem?_append_left hlt).symm.trans hj)
    · rw [List.getElem?_append_right hge] at hj
      rcases Nat.eq_zero_or_pos (j - queue.length) with h0 | hpos
      · rw [h0] at hj
        exact .inr ⟨by omega, (Option.some.inj hj).symm⟩
      · rw [List.getElem?_eq_none (by rw [List.length_singleton]; omega)] at hj
        cases hj
  have hold {j : Nat} {g : TrigEv} (hj : queue[j]? = some g) : (queue ++ [e])[j]? = some g := by
    rw [List.getElem?_append_left (List.getElem?_eq_some_iff.1 hj).1, hj]
  have hnew : (queue ++ [e])[queue.length]? = some e := by simp
  unfold State.better
  dsimp only
  cases hc : s.coreFor e with
  | none =>
    cases best with
    | none =>
      intro g hg
      rcases List.mem_append.1 hg with hg | hg
      · exact h g hg
      · rw [List.mem_singleton.1 hg, hc]
    | some b =>
      obtain ⟨k, b, d⟩ := b
      obtain ⟨hk, hcore, hbest⟩ := h
      refine ⟨hold hk, hcore, fun j g hj hg => ?_⟩
      rcases hget hj with hj | ⟨-, rfl⟩
      · exact hbest j g hj hg
      · exact absurd hc hg
  | some c =>
    cases best with
    | none =>
      refine ⟨hnew, hc, fun j g hj hg => ?_⟩
      rcases hget hj with hj | ⟨rfl, rfl⟩
      · exact absurd (h g (List.mem_of_getElem? hj)) hg
      · exact ⟨Nat.le_refl _, fun _ => Nat.le_refl _⟩
    | some b =>
      obtain ⟨k, b, d⟩ := b
      obtain ⟨hk, hcore, hbest⟩ := h
      dsimp only
      split
      next hlt =>
        refine ⟨hnew, hc, fun j g hj hg => ?_⟩
        rcases hget hj with hj | ⟨rfl, rfl⟩
        · have := (hbest j g hj hg).1
          exact ⟨by omega, fun _ => by omega⟩
        · exact ⟨Nat.le_refl _, fun _ => Nat.le_refl _⟩
      next hle =>
        refine ⟨hold hk, hcore, fun j g hj hg => ?_⟩
        rcases hget hj with hj | ⟨rfl, rfl⟩
        · exact hbest j g hj hg
        · have := (List.getElem?_eq_some_iff.1 hk).1
          exact ⟨by omega, fun _ => by omega⟩

theorem State.nextEvent_eq (s : State) :
    s.nextEvent = ((List.range s.hdl.queue.length).zip s.hdl.queue).foldl s.better none := by
  unfold State.nextEvent
  congr 1
  funext best x
  unfold State.better
  obtain ⟨k, e⟩ := x
  dsimp only
  cases s.coreFor e with
  | none => rfl
  | some c =>
    cases best with
    | none => rfl
    | some b => rfl

/-- The event that is next is the best of the queue. -/
theorem State.nextEvent_best (s : State) : s.BestOf s.hdl.queue s.nextEvent := by
  have hfold (queue : List TrigEv) :
      s.BestOf queue (((List.range queue.length).zip queue).foldl s.better none) := by
    induction queue using List.reverseRecOn with
    | nil => exact fun e he => absurd he List.not_mem_nil
    | append_singleton queue e ih =>
      rw [List.length_append, List.length_singleton, List.range_succ, List.zip_append (by simp), List.foldl_append]
      exact ih.better e
  rw [State.nextEvent_eq]
  exact hfold s.hdl.queue

theorem State.nextEvent_none (s : State) : s.nextEvent = none ↔ ∀ e ∈ s.hdl.queue, s.coreFor e = none := by
  have hbest := s.nextEvent_best
  cases hn : s.nextEvent with
  | none =>
    rw [hn] at hbest
    exact ⟨fun _ => hbest, fun _ => rfl⟩
  | some b =>
    rw [hn] at hbest
    obtain ⟨hk, hc, -⟩ := hbest
    refine ⟨fun h => (nomatch h), fun h => ?_⟩
    rw [h _ (List.mem_of_getElem? hk)] at hc
    cases hc

/-! ### How an invocation starts, ends and stops (R323, R330, R331) -/

section
variable {s : State} {c : Nat}

theorem State.dispatchEvent_of_none (h : s.inSetup 11 = true ∨ s.frozen = true ∨ s.nextEvent = none) : s.dispatchEvent = s := by
  unfold State.dispatchEvent
  split
  · rfl
  next hruns =>
    rw [Bool.or_eq_true, not_or] at hruns
    obtain ⟨hsetup, hfrozen⟩ := hruns
    rw [(h.resolve_left hsetup).resolve_left hfrozen]

theorem State.dispatchEvent_of_some {k : Nat} {e : TrigEv} (hs : s.inSetup 11 = false) (hf : s.frozen = false)
    (h : s.nextEvent = some (k, e, c)) :
    s.dispatchEvent = ({ s with hdl := { s.hdl with queue := s.hdl.queue.eraseIdx k } } : State).invoke c e := by
  unfold State.dispatchEvent
  rw [hs, hf, h, Bool.or_false, if_neg Bool.false_ne_true]

/-- What a running core does happens while the data path runs. -/
theorem State.ifCore_of_runs (f : State → State) (hr : s.coreRuns c = true) (hf : s.frozen = false) : s.ifCore c f = f s := by
  unfold State.ifCore
  rw [if_pos hr, State.ifRuns_of_runs f hf]

/-- What changes nothing where the core runs changes nothing. -/
theorem State.ifCore_of_same {f : State → State} (h : f s = s) : s.ifCore c f = s := by
  unfold State.ifCore State.ifRuns
  split
  · split
    · rfl
    · exact h
  · rfl

theorem State.coreRuns_of_live (h1 : 1 ≤ s.coreSt c) (h3 : s.coreSt c ≤ 3) : s.coreRuns c = true := by
  unfold State.coreRuns
  simp
  omega

theorem State.ecall_of_handler (h : s.coreSt c = 2) (hu : (s.core c).umode = true) (hi : (s.core c).inv ≠ none) :
    s.ecall c = s.endInv c := by
  rw [← Option.isSome_iff_ne_none] at hi
  exact if_pos (by simp [h, hu, hi])

theorem State.ecall_of_other (h : s.coreSt c ≠ 2 ∨ (s.core c).umode = false ∨ (s.core c).inv = none) : s.ecall c = s := by
  refine if_neg ?_
  rcases h with h | h | h <;> simp [h]

theorem State.budgetEnd_of_none (h : (s.core c).inv = none) : s.budgetEnd c = s := by
  unfold State.budgetEnd
  rw [h]

theorem State.budgetEnd_of_some {t o t0 : Nat} (h : (s.core c).inv = some (t, o, t0)) :
    s.budgetEnd c = (s.advance (t0 + us (max 1 (s.fld HDL_CFG.budget_us 0 0)))).stopInv c 0x15 0x90 0 := by
  unfold State.budgetEnd
  rw [h]

theorem State.handlerTrap_of_user {m : Word} (h : (s.core c).umode = true ∨ (s.core c).hxstat.getLsbD 0 = true) :
    s.handlerTrap c m = s.stopInv c 0x15 0x93 m := if_pos (by simpa [HCore.refill] using h)

theorem State.handlerTrap_of_machine {m : Word} (h : (s.core c).umode = false) (hr : (s.core c).hxstat.getLsbD 0 = false) :
    s.handlerTrap c m = s := if_neg (by unfold HCore.refill; rw [h, hr]; decide)

theorem State.stopInv_of_none {st dt : Nat} {m : Word} (h : (s.core c).inv = none) : s.stopInv c st dt m = s := by
  unfold State.stopInv
  dsimp only
  rw [h]

/-- An invocation has ended with a stop recorded, its trigger disarmed. -/
def State.stopNoted (s : State) (c st dt t : Nat) : State :=
  (((s.endInv c).disarmTrig t).setFld HDL_CORE_STATUS.stop_status c 0 st).setFld HDL_CORE_STATUS.stop_detail c 0 dt

theorem State.stopInv_of_some {st dt t o t0 : Nat} {m : Word} (h : (s.core c).inv = some (t, o, t0)) : s.stopInv c st dt m =
    ((if ((s.stopNoted c st dt t).ctx o).phase = .closed ∨ ((s.stopNoted c st dt t).ctx o).byReset = true then
        s.stopNoted c st dt t
      else (s.stopNoted c st dt t).postEntry o (o * 2 ^ 44 + t) st dt c m.toNat false).semReset (mCore c)).fault 11
        (4 * c + 2) c := by
  unfold State.stopInv State.stopNoted
  dsimp only
  rw [h]
  simp only [Bool.or_eq_true, decide_eq_true_eq]

end
/-- The core as an invocation of an event starts on it (R330). -/
def State.started (s : State) (c : Nat) (e : TrigEv) : HCore :=
  { s.core c with
    hxctx := e.owner, hxvabase := BitVec.ofNat 64 (s.ctx e.owner).vaBase
    hxslice := BitVec.ofNat 64 ((s.ctx e.owner).pgCode * 2 ^ 49 + (s.ctx e.owner).xltBase * 2 ^ 25 + (s.ctx e.owner).xltCount)
    inv := some (e.trig, e.owner, s.now), umode := true, pc := BitVec.ofNat 64 e.cfg.pc, resv := none
    x := s.startRegs c e }

theorem State.invoke_eq (s : State) (c : Nat) (e : TrigEv) : s.invoke c e =
    (((s.setCore c (s.started c e)).setFld HDL_CORE_STATUS.state c 0 2).setFld HDL_CORE_STATUS.trigger c 0 e.trig).pmcEv
      11 1 c 0 1 := by
  unfold State.invoke State.loadSlice State.started
  dsimp only

/-- Settles O51: the dispatched event is the best of a fold over the queue, and each command is the branch that its core's state
takes. -/
theorem invocationsStartByPriorityAndEnd : Obligations.InvocationsStartByPriorityAndEnd := by
  refine ⟨State.mem_eligible, fun s e c h => State.coreFor_spec h, fun s => ⟨s.nextEvent_none, fun k e c h => ?best⟩,
    fun s => ⟨fun h => next_done_congr (State.dispatchEvent_of_none h), fun hs hf k e c h =>
      next_done_congr ((State.dispatchEvent_of_some hs hf h).trans (State.invoke_eq _ c e))⟩,
    fun s hf => next_done_congr (State.ifRuns_of_runs _ hf),
    fun c s hf => ⟨fun h hu hi => ?ecall, fun h => next_done_congr (State.ifCore_of_same (State.ecall_of_other h)),
      fun h1 h3 => ⟨fun t o t0 hi => ?budget, fun m => ⟨fun h => ?exception, fun h hr => ?machine⟩, fun hi => ?none⟩⟩,
    fun s c st dt m h => State.stopInv_of_none h, fun s c st dt t o t0 m h => State.stopInv_of_some h, fun c s => rfl⟩
  case best =>
    have hbest := s.nextEvent_best
    rw [h] at hbest
    exact hbest
  case ecall =>
    have hr : s.coreRuns c.val = true := State.coreRuns_of_live (by omega) (by omega)
    exact next_done_congr ((State.ifCore_of_runs _ hr hf).trans (State.ecall_of_handler h hu hi))
  case budget =>
    exact next_done_congr ((State.ifCore_of_runs _ (State.coreRuns_of_live h1 h3) hf).trans (State.budgetEnd_of_some hi))
  case exception =>
    exact next_done_congr ((State.ifCore_of_runs _ (State.coreRuns_of_live h1 h3) hf).trans (State.handlerTrap_of_user h))
  case machine => exact next_done_congr (State.ifCore_of_same (State.handlerTrap_of_machine h hr))
  case none => exact next_done_congr (State.ifCore_of_same (State.budgetEnd_of_none hi))

end Sys2Proof.Machine
end


section
/-!
SUPPORT. The TLBs: what a miss, a fill, a refusal and an invalidation do (R332 to R337).
-/
namespace Sys2Proof.Machine

/-! ### Misses (R332, R334) -/

section
variable {s : State} {c : Nat} {va : Word} {acc : Nat} {dirty : Bool}

theorem State.coreRuns_of_acts (h : s.coreActs c = true) : s.coreRuns c = true := by
  unfold State.coreActs at h
  have hst : s.coreSt c = 2 ∨ s.coreSt c = 3 ∨ s.coreSt c = 1 := by
    simp only [Bool.or_eq_true, Bool.and_eq_true, beq_iff_eq] at h
    tauto
  exact State.coreRuns_of_live (by omega) (by omega)

theorem State.tlbMiss_of_acts (h : s.coreActs c = true) (ha : acc < 3) : s.tlbMiss c va acc = (s.coreEntry c va acc).2 := by
  unfold State.tlbMiss
  exact if_neg (by simp [h]; omega)

theorem State.missTrap_of_normal (h : (s.core c).hxstat.getLsbD 0 = false) :
    s.missTrap c va acc dirty = s.refillTrap c va acc dirty := if_neg (Bool.eq_false_iff.1 h)

theorem State.missTrap_of_refill (h : (s.core c).hxstat.getLsbD 0 = true) :
    s.missTrap c va acc dirty = s.stopInv c 0x16 0x80 va := if_pos h

theorem State.coreEntry_of_miss (h : (s.core c).lookup va (acc == 0) = none) :
    s.coreEntry c va acc = (none, s.missTrap c va acc false) := by
  unfold State.coreEntry
  dsimp only
  rw [h]

section
variable {e : TlbEntry} (h : (s.core c).lookup va (acc == 0) = some e)
include h

theorem State.coreEntry_of_clean (ha : acc = 2) (he : bitOf e.entry.toNat 3 = false) :
    s.coreEntry c va acc = (none, s.missTrap c va acc true) := by
  unfold State.coreEntry
  dsimp only
  rw [h]
  exact if_pos (by simp [ha, he])

theorem State.coreEntry_of_hit (he : acc ≠ 2 ∨ bitOf e.entry.toNat 3 = true) : s.coreEntry c va acc =
    (some e, if ((s.core c).l1 (acc == 0)).any (fun x => (s.core c).serves x va) then s else s.tlbInstall c e (acc == 0)) := by
  unfold State.coreEntry
  dsimp only
  rw [h]
  exact if_neg (by rcases he with he | he <;> simp [he])

theorem State.coreEntry_first (he : acc ≠ 2 ∨ bitOf e.entry.toNat 3 = true)
    (hx : ∃ x ∈ (s.core c).l1 (acc == 0), (s.core c).serves x va = true) : (s.coreEntry c va acc).2 = s := by
  rw [State.coreEntry_of_hit h he]
  exact if_pos (List.any_eq_true.2 hx)

theorem State.coreEntry_second (he : acc ≠ 2 ∨ bitOf e.entry.toNat 3 = true)
    (hx : ∀ x ∈ (s.core c).l1 (acc == 0), (s.core c).serves x va = false) :
    (s.coreEntry c va acc).2 = s.tlbInstall c e (acc == 0) := by
  rw [State.coreEntry_of_hit h he]
  refine if_neg fun hany => ?_
  obtain ⟨x, hm, hs⟩ := List.any_eq_true.1 hany
  rw [hx x hm] at hs
  cases hs

end
end

theorem HCore.l1_acc (v : HCore) (acc : Nat) : v.l1 (acc == 0) = if acc = 0 then v.itlb else v.dtlb := by
  unfold HCore.l1
  simp

/-- Where and in which mode a trap finds the core, and what mstatus keeps of it (R321). -/
theorem HCore.trapped_mst (v : HCore) (cause : Nat) (va : Word) : let t := v.trapped cause va
    t.mst 7 7 = v.mst 3 3 ∧ t.mst 3 3 = 0 ∧ t.mst 12 11 = (if v.umode then 0 else 3) := by
  have h1 := putBits_lt v.mstatus.toNat 7 7 (v.mst 3 3) v.mstatus.isLt (by decide) (by decide)
  have h2 := putBits_lt _ 3 3 0 h1 (by decide) (by decide)
  have h3 := putBits_lt _ 12 11 (if v.umode then 0 else 3) h2 (by decide) (by decide)
  have hbit : v.mst 3 3 < 2 := Nat.mod_lt _ (by decide)
  have ht (hi lo : Nat) : (v.trapped cause va).mst hi lo = bitsOf (putBits (putBits (putBits v.mstatus.toNat 7 7 (v.mst 3 3))
      3 3 0) 12 11 (if v.umode then 0 else 3)) hi lo := by
    unfold HCore.trapped
    rw [HCore.mst, BitVec.toNat_ofNat, Nat.mod_eq_of_lt h3]
  refine ⟨?_, ?_, ?_⟩
  · rw [ht, bitsOf_putBits_apart _ _ _ _ _ _ (by decide) (by decide), bitsOf_putBits_apart _ _ _ _ _ _ (by decide) (by decide),
      bitsOf_putBits _ _ _ _ (by decide)]
    exact Nat.mod_eq_of_lt hbit
  · rw [ht, bitsOf_putBits_apart _ _ _ _ _ _ (by decide) (by decide), bitsOf_putBits _ _ _ _ (by decide), Nat.zero_mod]
  · rw [ht, bitsOf_putBits _ _ _ _ (by decide)]
    cases v.umode <;> rfl

/-! ### Fills (R333, R335, R336) -/

section
variable {s : State} {c : Nat} {entry : Word} {idx pg : Nat} {lock : Bool}

/-- A command to hxcmd outside user mode does its work. -/
theorem State.hxcmd_of_machine (f : State → State) (hr : s.coreRuns c = true) (hf : s.frozen = false)
    (hu : (s.core c).umode = false) : s.hxcmd c f = f s := by
  unfold State.hxcmd
  rw [State.ifCore_of_runs _ hr hf, if_neg (Bool.eq_false_iff.1 hu)]

/-- In user mode it is an illegal instruction. -/
theorem State.hxcmd_of_user (f : State → State) (hr : s.coreRuns c = true) (hf : s.frozen = false)
    (hu : (s.core c).umode = true) : s.hxcmd c f = s.coreFault c 2 0 := by
  unfold State.hxcmd
  rw [State.ifCore_of_runs _ hr hf, if_pos hu]

/-- The refill handler has set hxentry and hxidx. -/
def State.fillSet (s : State) (c : Nat) (entry : Word) (idx : Nat) : State :=
  s.setCore c { s.core c with hxentry := entry, hxidx := idx % 2 ^ 24 }

theorem State.tlbFill_of_stall (h : s.coreActs c = true) (hs : (s.fillSet c entry idx).fillStall c = true) :
    s.tlbFill c entry idx pg lock = s := by
  unfold State.fillSet at hs
  unfold State.tlbFill
  rw [h]
  exact if_pos hs

theorem State.tlbFill_of_room (h : s.coreActs c = true) (hs : (s.fillSet c entry idx).fillStall c = false) :
    s.tlbFill c entry idx pg lock = ((s.fillSet c entry idx).fillEntry c pg lock).refillReturn c := by
  unfold State.fillSet at hs ⊢
  unfold State.tlbFill
  rw [h]
  exact if_neg (Bool.eq_false_iff.1 hs)

theorem State.fillEntry_of_refused {st dt : Nat}
    (h : fillRefusal (s.core c).hxentry pg ((s.core c).hxstat.getLsbD 2) = some (st, dt)) :
    s.fillEntry c pg lock = s.stopInv c st dt (s.core c).hxbad := by
  unfold State.fillEntry
  dsimp only
  rw [h]

/-- The locked entries that the first-level TLB of a fill holds. -/
def HCore.lockedHeld (v : HCore) : Nat :=
  if v.hxstat.getLsbD 2 then (v.itlb.filter (·.locked)).length else (v.dtlb.filter (·.locked)).length

/-- The locked entries that it may hold. -/
def HCore.lockedRoom (v : HCore) : Nat := if v.hxstat.getLsbD 2 then 2 else 4

theorem State.fillEntry_of_taken (h : fillRefusal (s.core c).hxentry pg ((s.core c).hxstat.getLsbD 2) = none) :
    s.fillEntry c pg lock = if lock = true ∧ (s.core c).lockedRoom ≤ (s.core c).lockedHeld then (s.setAD c).2
      else (s.setAD c).2.tlbInstall c ⟨(s.core c).hxctx, (s.core c).hxbad.toNat / 2 ^ pgShift pg, pg, (s.setAD c).1, lock,
        (s.setAD c).2.now⟩ ((s.core c).hxstat.getLsbD 2) := by
  unfold State.fillEntry HCore.lockedRoom HCore.lockedHeld
  dsimp only
  rw [h]
  refine if_congr ?_ rfl rfl
  cases (s.core c).hxstat.getLsbD 2 <;> simp

theorem fillRefusal_cases (entry : Word) (pg : Nat) (fetch : Bool) : let e := entry.toNat
    (fillRefusal entry pg fetch = some (0x17, 0x80) ↔ bitsOf e 11 10 = 3 ∧ (bitOf e 9 = false ∨ fetch = true)) ∧
    (fillRefusal entry pg fetch = none ↔ bitOf e 0 = true ∧ bitsOf e 63 12 % 2 ^ (pgShift pg - 12) = 0 ∧
      ¬(bitsOf e 11 10 = 3 ∧ (bitOf e 9 = false ∨ fetch = true))) ∧
    (∀ st dt, fillRefusal entry pg fetch = some (st, dt) → (st, dt) = (0x17, 0x80) ∨ (st, dt) = (0x13, 0x83)) := by
  unfold fillRefusal
  dsimp only
  by_cases hdev : bitsOf entry.toNat 11 10 = 3 ∧ (bitOf entry.toNat 9 = false ∨ fetch = true)
  · rw [if_pos (by simpa using hdev)]
    exact ⟨⟨fun _ => hdev, fun _ => rfl⟩, ⟨fun h => (nomatch h), fun h => absurd hdev h.2.2⟩,
      fun st dt h => .inl (Option.some.inj h).symm⟩
  · rw [if_neg (by simpa using hdev)]
    by_cases hbad : (!bitOf entry.toNat 0) = true ∨ bitsOf entry.toNat 63 12 % 2 ^ (pgShift pg - 12) ≠ 0
    · rw [if_pos hbad]
      refine ⟨⟨fun h => absurd h (by decide), fun h => absurd h hdev⟩, ⟨fun h => (nomatch h), fun ⟨hv, hal, _⟩ => ?_⟩,
        fun st dt h => .inr (Option.some.inj h).symm⟩
      simp [hv, hal] at hbad
    · rw [if_neg hbad]
      rw [not_or, not_not] at hbad
      exact ⟨⟨fun h => (nomatch h), fun h => absurd h hdev⟩,
        ⟨fun _ => ⟨by simpa using hbad.1, hbad.2, hdev⟩, fun _ => rfl⟩,
        fun st dt h => (nomatch h)⟩

end

/-! ### Faults and invalidations (R331, R333) -/

theorem State.coreFault_of_handler {s : State} {c cause : Nat} {va : Word} (h : (s.core c).inv ≠ none)
    (hu : (s.core c).umode = true ∨ (s.core c).hxstat.getLsbD 0 = true) :
    s.coreFault c cause va = (s.setCore c ((s.core c).trapped cause va)).stopInv c 0x15 0x93 va := by
  rw [← Option.isSome_iff_ne_none] at h
  exact if_pos (by simpa [HCore.refill, h] using hu)

theorem State.coreFault_of_other {s : State} {c cause : Nat} {va : Word}
    (h : (s.core c).inv = none ∨ ((s.core c).umode = false ∧ (s.core c).hxstat.getLsbD 0 = false)) :
    s.coreFault c cause va =
      s.setCore c { (s.core c).trapped cause va with pc := (s.core c).mtvec &&& ~~~(3 : Word) } := by
  refine if_neg ?_
  rcases h with h | ⟨hu, hr⟩
  · simp [h]
  · simp only [HCore.refill, hu, hr, Bool.or_self, Bool.and_false, Bool.false_eq_true, not_false_iff]

section
variable {v : HCore} {f : TlbEntry → Bool}

theorem HCore.mem_tlbDrop (v : HCore) (f : TlbEntry → Bool) (e : TlbEntry) :
    (e ∈ (v.tlbDrop f).itlb ↔ e ∈ v.itlb ∧ f e = false) ∧ (e ∈ (v.tlbDrop f).dtlb ↔ e ∈ v.dtlb ∧ f e = false) ∧
      (e ∈ (v.tlbDrop f).l2 ↔ e ∈ v.l2 ∧ f e = false) := by
  simp [HCore.tlbDrop]

/-- After the entries of a page of the context have been dropped, only a locked one serves the page. -/
theorem HCore.locked_of_lookup_tlbDrop {va : Word} {fetch : Bool} {x : TlbEntry}
    (hf : ∀ e, f e = (!e.locked && e.hits v.hxctx va)) (h : (v.tlbDrop f).lookup va fetch = some x) : x.locked = true := by
  have hfound : f x = false ∧ (v.tlbDrop f).serves x va = true := by
    unfold HCore.lookup at h
    obtain ⟨hi, hd, h2⟩ := v.mem_tlbDrop f x
    rcases Option.or_eq_some_iff.1 h with h | ⟨-, h⟩
    · have hm := List.mem_of_find?_eq_some h
      refine ⟨?_, List.find?_some (p := fun e => (v.tlbDrop f).serves e va) h⟩
      unfold HCore.l1 at hm
      split at hm
      · exact (hi.1 hm).2
      · exact (hd.1 hm).2
    · exact ⟨(h2.1 (List.mem_of_find?_eq_some h)).2, List.find?_some (p := fun e => (v.tlbDrop f).serves e va) h⟩
  obtain ⟨hkept, hserves⟩ := hfound
  rw [hf x] at hkept
  unfold HCore.serves HCore.tlbDrop at hserves
  dsimp only at hserves
  cases hl : x.locked with
  | true => rfl
  | false =>
    have hhits : x.hits v.hxctx va = true := by simpa [hl] using hserves
    simp [hl, hhits] at hkept

end
/-- A fill of either kind is a command to hxcmd. -/
theorem exec_fill {c : CoreId} {entry : Word} {idx : Nat} {lock : Bool} {pgw : Word} {i : Instr}
    (hi : i = (if lock then .tlbLockFill c entry idx pgw else .tlbFill c entry idx)) (s : State) :
    exec i s = .next ((s.hxcmd c.val fun s =>
      s.tlbFill c.val entry idx (if lock then pgw.toNat % 4 else (s.core c.val).pgCode) lock).done s) := by
  subst hi
  cases lock <;> rfl

/-- Settles O52: each access, fill and invalidation is the branch that the TLBs and the core's mode take. -/
theorem tlbsMissFillAndForget : Obligations.TlbsMissFillAndForget := by
  refine ⟨fun c va acc s hf ha hacc => ?miss, fun v cause va => ?trapped, fun c entry idx s hf ha => ?fill, fillRefusal_cases,
    fun c s hf h1 h3 => ?hxcmd, fun s c cause va => ⟨State.coreFault_of_handler, State.coreFault_of_other⟩,
    fun v f va fetch => ⟨v.mem_tlbDrop f, fun hdrop x hx => HCore.locked_of_lookup_tlbDrop hdrop hx⟩,
    fun s hf => next_done_congr (State.ifRuns_of_runs _ hf)⟩
  case miss =>
    intro v trap
    have hstep : (s.ifCore c.val fun s => s.tlbMiss c.val va acc) = (s.coreEntry c.val va acc).2 :=
      (State.ifCore_of_runs _ (State.coreRuns_of_acts ha) hf).trans (State.tlbMiss_of_acts ha hacc)
    refine ⟨fun hl hr => ?_, fun hl hr => ?_, fun e hl h2 he hr => ?_, fun e hl h2 he hr => ?_,
      fun e hl he => ⟨fun hx => ?_, fun hx => ?_⟩⟩
    · refine next_done_congr (hstep.trans ?_)
      rw [State.coreEntry_of_miss hl]
      exact State.missTrap_of_normal hr
    · refine next_done_congr (hstep.trans ?_)
      rw [State.coreEntry_of_miss hl]
      exact State.missTrap_of_refill hr
    · refine next_done_congr (hstep.trans ?_)
      rw [State.coreEntry_of_clean hl h2 he]
      exact State.missTrap_of_normal hr
    · refine next_done_congr (hstep.trans ?_)
      rw [State.coreEntry_of_clean hl h2 he]
      exact State.missTrap_of_refill hr
    · exact next_done_congr (hstep.trans (State.coreEntry_first hl he (by rwa [HCore.l1_acc])))
    · exact next_done_congr (hstep.trans (State.coreEntry_second hl he (by rwa [HCore.l1_acc])))
  case trapped =>
    obtain ⟨h7, h3, h12⟩ := v.trapped_mst cause va
    exact ⟨rfl, rfl, rfl, rfl, h7, h3, h12, rfl, rfl⟩
  case fill =>
    intro u v fetch lock pgw i hi pg
    have hr := State.coreRuns_of_acts ha
    rw [exec_fill hi]
    refine ⟨fun hu => next_done_congr (State.hxcmd_of_user _ hr hf hu), fun hu => ?_⟩
    have hstep := State.hxcmd_of_machine
      (fun s => s.tlbFill c.val entry idx (if lock then pgw.toNat % 4 else (s.core c.val).pgCode) lock) hr hf hu
    refine ⟨fun hs => next_done_congr (hstep.trans (State.tlbFill_of_stall ha hs)), fun hs => ?_⟩
    have hroom : (s.hxcmd c.val fun s =>
        s.tlbFill c.val entry idx (if lock then pgw.toNat % 4 else (s.core c.val).pgCode) lock) =
          (u.fillEntry c.val pg lock).refillReturn c.val := hstep.trans (State.tlbFill_of_room ha hs)
    refine ⟨fun st dt hx => next_done_congr ?_,
      fun hx => ⟨fun ⟨hl, hh⟩ => next_done_congr ?_, fun hl => next_done_congr ?_⟩⟩
    · rw [hroom, State.fillEntry_of_refused hx]
    · rw [hroom, State.fillEntry_of_taken hx, if_pos ⟨hl, hh⟩]
    · rw [hroom, State.fillEntry_of_taken hx, if_neg]
      rintro ⟨hl', hh⟩
      rcases hl with hl | hl
      · rw [hl'] at hl
        cases hl
      · exact absurd hh (Nat.not_le.2 hl)
  case hxcmd =>
    intro v
    have hr := State.coreRuns_of_live h1 h3
    refine ⟨fun hu d va => ?_, fun hu => ?_⟩
    · have huser (f : State → State) : (Host.Outcome.next ((s.hxcmd c.val f).done s) : Res) =
          .next ((s.coreFault c.val 2 0).done s) := next_done_congr (State.hxcmd_of_user f hr hf hu)
      simp only [List.forall_mem_cons, List.not_mem_nil, false_imp_iff, implies_true, and_true]
      exact ⟨huser _, huser _, huser _, huser _, huser _⟩
    · have hmachine (f : State → State) : (Host.Outcome.next ((s.hxcmd c.val f).done s) : Res) = .next ((f s).done s) :=
        next_done_congr (State.hxcmd_of_machine f hr hf hu)
      exact ⟨fun d => hmachine _, fun va => hmachine _, hmachine _, hmachine _, hmachine _⟩

end Sys2Proof.Machine
end


section
/-!
SUPPORT. The scratchpad's ports: what an access stores, returns and collides with (R339, R341, R342, R344, R345).
-/
namespace Sys2Proof.Machine

/-! ### Bytes of the scratchpad (R339) -/

theorem State.spdByte_spdStore {s : State} (h : s.Ok) (hbad : s.spd.bad = []) (off : Nat) (bs : List Byte) (a : Nat) :
    (s.spdStore off bs).spdByte a = if off ≤ a ∧ a < off + bs.length then bs.getD (a - off) 0 else s.spdByte a := by
  have hgood : (s.spdStore off bs).spdByte a = (s.spdMem.write off bs).byte a := by
    simp [State.spdByte, State.spdStore, hbad]
  have hold : s.spdByte a = s.spdMem.byte a := by simp [State.spdByte, hbad]
  rw [hgood, hold, Memory.byte_write h.spdMem]
  by_cases hin : off ≤ a ∧ a < off + bs.length
  · have hlt : a - off < bs.length := by omega
    rw [dif_pos ⟨hin.1, hlt⟩, if_pos hin, List.getD_eq_getElem _ _ hlt]
  · rw [dif_neg (by omega), if_neg hin]

/-! ### Collisions (R341) -/

theorem mem_sharedWords (a n b m w : Nat) : w ∈ sharedWords a n b m ↔
    0 < n ∧ 0 < m ∧ a / 8 ≤ w ∧ w ≤ (a + n - 1) / 8 ∧ b / 8 ≤ w ∧ w ≤ (b + m - 1) / 8 := by
  unfold sharedWords
  split
  next h0 => exact ⟨fun hw => absurd hw List.not_mem_nil, fun hw => by omega⟩
  next h0 =>
    rw [List.mem_filterMap]
    constructor
    · rintro ⟨k, hk, hw⟩
      rw [List.mem_range] at hk
      dsimp only at hw
      split at hw
      next hin =>
        obtain rfl := Option.some.inj hw
        obtain ⟨h1, h2⟩ : b / 8 ≤ a / 8 + k ∧ a / 8 + k ≤ (b + m - 1) / 8 := by simpa using hin
        omega
      next => cases hw
    · rintro ⟨hn, hm, h1, h2, h3, h4⟩
      refine ⟨w - a / 8, List.mem_range.2 (by omega), ?_⟩
      have hw : a / 8 + (w - a / 8) = w := by omega
      dsimp only
      rw [hw, if_pos (by simp [h3, h4])]

theorem mem_collisions (addr n : Nat) (rd : Bool) (as : List PortAUse) (x : PortAUse) (ws : List Nat) :
    (x, ws) ∈ collisions addr n rd as ↔
      x ∈ as ∧ ws = sharedWords addr n x.off (memOpLen x.op) ∧ ws ≠ [] ∧ (rd = true → ∃ bs, x.op = .write bs) := by
  unfold collisions
  rw [List.mem_filterMap]
  constructor
  · rintro ⟨a, ha, hx⟩
    dsimp only at hx
    split at hx
    next k hop =>
      split at hx
      · cases hx
      next hn =>
        obtain ⟨rfl, rfl⟩ := Prod.mk.inj (Option.some.inj hx)
        rw [Bool.or_eq_true, not_or, List.isEmpty_iff] at hn
        exact ⟨ha, rfl, hn.2, fun hrd => absurd hrd hn.1⟩
    next bs hop =>
      split at hx
      · cases hx
      next hn =>
        obtain ⟨rfl, rfl⟩ := Prod.mk.inj (Option.some.inj hx)
        rw [List.isEmpty_iff] at hn
        exact ⟨ha, rfl, hn, fun _ => ⟨bs, hop⟩⟩
  · rintro ⟨hx, rfl, hne, hrd⟩
    refine ⟨x, hx, ?_⟩
    have hfull : (sharedWords addr n x.off (memOpLen x.op)).isEmpty = false := by
      rw [← Bool.not_eq_true, List.isEmpty_iff]
      exact hne
    dsimp only
    rw [hfull]
    split
    next k hop =>
      have hrd' : rd = false := by
        cases rd with
        | false => rfl
        | true =>
          obtain ⟨bs, hw⟩ := hrd rfl
          rw [hop] at hw
          cases hw
      rw [hrd']
      rfl
    next => rfl

/-- The free values of words whose content is undefined, one after the other. -/
def State.drawWords (x : List (Nat × BitVec 64) × State) (ws : List Nat) : List (Nat × BitVec 64) × State :=
  ws.foldl (fun x w =>
    let y := x.2.fresh 64
    (x.1 ++ [(w, y.1)], y.2)) x

/-- They are drawn for no other word, and drawing them leaves memory. -/
theorem State.drawWords_spec (ws : List Nat) (x : List (Nat × BitVec 64) × State) :
    (∀ e ∈ (State.drawWords x ws).1, e ∈ x.1 ∨ e.1 ∈ ws) ∧ ∀ a, (State.drawWords x ws).2.spdByte a = x.2.spdByte a := by
  induction ws generalizing x with
  | nil => exact ⟨fun e he => .inl he, fun a => rfl⟩
  | cons w ws ih =>
    obtain ⟨hfrom, hbyte⟩ := ih (x.1 ++ [(w, (x.2.fresh 64).1)], (x.2.fresh 64).2)
    refine ⟨fun e he => ?_, fun a => (hbyte a).trans rfl⟩
    rcases hfrom e he with hx | hw
    · rcases List.mem_append.1 hx with hx | hx
      · exact .inl hx
      · exact .inr (by simp [List.mem_singleton.1 hx])
    · exact .inr (List.mem_cons_of_mem _ hw)

theorem SMap.find?_of_no_key {α : Type} {m : List (Nat × α)} {k : Nat} (h : ∀ e ∈ m, e.1 ≠ k) : SMap.find? m k = none := by
  induction m with
  | nil => rfl
  | cons e m ih =>
    obtain ⟨he, hm⟩ := List.forall_mem_cons.1 h
    obtain ⟨a, v⟩ := e
    rw [SMap.find?, if_neg (Ne.symm he), ih hm]

/-- A read returns what stands in the words that are defined, and changes no memory. -/
theorem State.clashBytes_spec (s : State) (addr n : Nat) (ws : List Nat) : let x := s.clashBytes addr n ws
    x.1.length = n ∧ (∀ i, i < n → (addr + i) / 8 ∉ ws → x.1.getD i 0 = s.spdByte (addr + i)) ∧
      (ws = [] → x.2 = s) ∧ ∀ a, x.2.spdByte a = s.spdByte a := by
  obtain ⟨hfrom, hbyte⟩ := State.drawWords_spec ws.eraseDups ([], s)
  refine ⟨by simp [State.clashBytes], fun i hi hw => ?_, fun h => by rw [h]; rfl, hbyte⟩
  have hnone : SMap.find? (State.drawWords ([], s) ws.eraseDups).1 ((addr + i) / 8) = none := by
    refine SMap.find?_of_no_key fun e he heq => ?_
    rcases hfrom e he with hx | hx
    · cases hx
    · rw [heq, List.mem_eraseDups] at hx
      exact hw hx
  unfold State.drawWords at hnone
  simp [State.clashBytes, hi, hnone]

theorem State.portA_write (s : State) {x : PortAUse} {bs : List Byte} (h : x.op = .write bs) :
    s.portA x = (s.pmcEv 12 1 (x.off / 2 ^ 20) 0 1).spdStore x.off bs := by
  unfold State.portA
  rw [h]

theorem State.portA_read (s : State) {x : PortAUse} {k : Nat} (h : x.op = .read k) :
    s.portA x = s.pmcEv 12 1 (x.off / 2 ^ 20) 0 1 := by
  unfold State.portA
  rw [h]

/-! ### BAR4 accesses (R339, R342) -/

section
variable {s : State} {p addr n : Nat} {as : List PortAUse} {bs : List Byte}

theorem State.spdAccess_read_shut (h : s.stopped = true ∨ s.inSetup 12 = true) :
    s.spdAccess p addr (.read n) as = s.emit (.memDone p (List.replicate n 0) false) := by
  rw [← Bool.or_eq_true] at h
  exact if_pos h

theorem State.spdAccess_read (hst : s.stopped = false) (hset : s.inSetup 12 = false) (hn : 0 < n) (hin : addr + n ≤ spdSize) :
    s.spdAccess p addr (.read n) as = s.spdRead p addr n as := by
  unfold State.spdAccess
  rw [hst, hset]
  exact (if_neg (by decide)).trans (if_neg (by omega))

theorem State.spdAccess_write_shut (h : s.stopped = true ∨ s.inSetup 12 = true) :
    s.spdAccess p addr (.write bs) as = s.rxBytes (mHost p 0) bs.length := by
  rw [← Bool.or_eq_true] at h
  exact if_pos (.inl h)

theorem State.spdAccess_write (hst : s.stopped = false) (hset : s.inSetup 12 = false) (hn : bs ≠ [])
    (hin : addr + bs.length ≤ spdSize) :
    s.spdAccess p addr (.write bs) as = (s.rxBytes (mHost p 0) bs.length).spdWrite p addr bs as := by
  unfold State.spdAccess
  rw [hst, hset]
  refine if_neg ?_
  rintro (h | h | h)
  · cases h
  · exact hn h
  · omega

/-- A read that its banks refuse. -/
theorem State.spdRead_refused (h : (s.pmcEv 12 2 (addr / 2 ^ 20) 0 1).spdCheck addr n ≠ .ok) : s.spdRead p addr n as =
    (let u := s.pmcEv 12 2 (addr / 2 ^ 20) 0 1
     (u.spdBusyHost p).emit (.memDone p (List.replicate n (if u.spdCheck addr n = .retired then 0xFF else 0)) false)) := by
  unfold State.spdRead
  dsimp only
  cases hc : (s.pmcEv 12 2 (addr / 2 ^ 20) 0 1).spdCheck addr n with
  | ok => exact absurd hc h
  | busy =>
    rw [if_neg (show ¬ SpdAnswer.busy = .retired by decide)]
  | retired => rw [if_pos rfl]

/-- What a read that its banks serve leaves, before it answers. -/
def State.spdServed (s : State) (p addr n : Nat) (cs : List (PortAUse × List Nat)) : State :=
  let v := cs.foldl (fun (t : State) c => (t.portA c.1).collide c.2 1) (s.clashBytes addr n (cs.flatMap (·.2))).2
  if cs ≠ [] ∨ ∃ k ∈ s.spd.bad, addr < 8 * k + 8 ∧ 8 * k < addr + n then v.spdBusyHost p else v

theorem State.spdRead_served (h : (s.pmcEv 12 2 (addr / 2 ^ 20) 0 1).spdCheck addr n = .ok) : s.spdRead p addr n as =
    (let u := (s.pmcEv 12 2 (addr / 2 ^ 20) 0 1).spdTouch addr n
     let cs := collisions addr n true as
     (u.spdServed p addr n cs).emit (.memDone p (u.clashBytes addr n (cs.flatMap (·.2))).1 false)) := by
  unfold State.spdRead State.spdServed
  dsimp only
  rw [h]
  dsimp only
  congr 1
  refine if_congr ?_ rfl rfl
  simp [or_comm]

theorem State.spdWrite_refused (h : (s.pmcEv 12 2 (addr / 2 ^ 20) 0 1).spdCheck addr bs.length ≠ .ok) :
    s.spdWrite p addr bs as = (s.pmcEv 12 2 (addr / 2 ^ 20) 0 1).spdBusyHost p := by
  unfold State.spdWrite
  dsimp only
  cases hc : (s.pmcEv 12 2 (addr / 2 ^ 20) 0 1).spdCheck addr bs.length with
  | ok => exact absurd hc h
  | busy => rfl
  | retired => rfl

/-- The kind of a collision of a host write with a port-A access (R341). -/
def portUseKind (x : PortAUse) : Nat :=
  match x.op with
  | .write _ => 0
  | .read _ => 1

/-- A port-A access writes. -/
def portUseWrites (x : PortAUse) : Bool :=
  match x.op with
  | .write _ => true
  | .read _ => false

theorem portUseWrites_iff (x : PortAUse) : portUseWrites x = true ↔ ∃ b, x.op = MemOp.write b := by
  unfold portUseWrites
  cases x.op with
  | read n => simp
  | write bs => simp

/-- What a write that its banks serve leaves: port A's accesses, then its own bytes, then the collisions. -/
def State.spdWritten (s : State) (addr : Nat) (bs : List Byte) (cs : List (PortAUse × List Nat)) : State :=
  cs.foldl (fun (t : State) c => t.collide c.2 (portUseKind c.1))
    ((cs.foldl (fun (t : State) c => t.portA c.1) (s.spdTouch addr bs.length)).spdStore addr bs)

theorem State.spdWrite_served (h : (s.pmcEv 12 2 (addr / 2 ^ 20) 0 1).spdCheck addr bs.length = .ok) :
    s.spdWrite p addr bs as =
      (let cs := collisions addr bs.length false as
       let v := (s.pmcEv 12 2 (addr / 2 ^ 20) 0 1).spdWritten addr bs cs
       if (cs.filter fun c => portUseWrites c.1).isEmpty then v else v.spdBusyHost p) := by
  unfold State.spdWrite
  dsimp only
  rw [h]
  rfl

theorem State.spdWrite_busy (h : (s.pmcEv 12 2 (addr / 2 ^ 20) 0 1).spdCheck addr bs.length = .ok)
    (hw : ∃ c ∈ collisions addr bs.length false as, ∃ b, c.1.op = MemOp.write b) : s.spdWrite p addr bs as =
      ((s.pmcEv 12 2 (addr / 2 ^ 20) 0 1).spdWritten addr bs (collisions addr bs.length false as)).spdBusyHost p := by
  rw [State.spdWrite_served h]
  obtain ⟨c, hc, hb⟩ := hw
  refine if_neg fun hnil => ?_
  have := List.filter_eq_nil_iff.1 (List.isEmpty_iff.1 hnil) c hc
  exact this ((portUseWrites_iff c.1).2 hb)

theorem State.spdWrite_quiet (h : (s.pmcEv 12 2 (addr / 2 ^ 20) 0 1).spdCheck addr bs.length = .ok)
    (hw : ∀ c ∈ collisions addr bs.length false as, ∀ b, c.1.op ≠ MemOp.write b) : s.spdWrite p addr bs as =
      (s.pmcEv 12 2 (addr / 2 ^ 20) 0 1).spdWritten addr bs (collisions addr bs.length false as) := by
  rw [State.spdWrite_served h]
  refine if_pos (List.isEmpty_iff.2 (List.filter_eq_nil_iff.2 fun c hc hb => ?_))
  obtain ⟨b, hb⟩ := (portUseWrites_iff c.1).1 hb
  exact hw c hc b hb

end

/-! ### Banks (R342, R344, R345) -/

section
variable {s : State} {b : Nat}

theorem State.spdAgain_of_in {off : Nat} (h : off < spdSize) :
    s.spdAgain off = (s.advance (s.now + 4000)).pmcEv 12 1 (off / 2 ^ 20) 0 1 := if_neg (Nat.not_le.2 h)

theorem State.bankRetained_of_asked (hr : s.flag SPD_BANK_CTL.retain 0 b = true) (hs : s.fld SPD_BANK_CTL.state 0 b = 0) :
    s.bankRetained b = s.setFld SPD_BANK_CTL.state 0 b 1 := if_pos (by simp [hr, hs])

theorem State.bankRetained_of_other (h : s.flag SPD_BANK_CTL.retain 0 b = false ∨ s.fld SPD_BANK_CTL.state 0 b ≠ 0) :
    s.bankRetained b = s := if_neg (by rcases h with h | h <;> simp [h])

theorem State.bankActive_of_waking (hs : s.fld SPD_BANK_CTL.state 0 b = 2) :
    s.bankActive b = s.setFld SPD_BANK_CTL.state 0 b 0 := if_pos hs

theorem State.bankActive_of_other (hs : s.fld SPD_BANK_CTL.state 0 b ≠ 2) : s.bankActive b = s := if_neg hs

theorem State.marchDone_of_none {fails : Word} {repairs : List (Nat × Nat)} (h : s.spd.march = none) :
    s.marchDone fails repairs = s := by
  unfold State.marchDone
  rw [h]

/-- A march is over, and its banks have been repaired where it asks for that. -/
def State.marchOver (s : State) (mask : Word) (repairs : List (Nat × Nat)) : State :=
  let u := ((({ s with spd := { s.spd with march := none } } : State).setFlag SPD_MARCH_STATUS.running 0 0 false).setFlag
    SPD_MARCH_STATUS.done 0 0 true)
  if u.flag SPD_MARCH_CTL.repair 0 0 then (repairs.filter fun x => bitOf mask.toNat x.1 && x.1 < 64).foldl
    (fun (t : State) x => t.bankRepaired x.1 x.2) u else u

theorem State.marchDone_of_some {fails mask : Word} {mode : Nat} {repairs : List (Nat × Nat)}
    (h : s.spd.march = some (mask, mode)) : s.marchDone fails repairs =
    ((List.range 64).filter fun b => bitOf mask.toNat b && (s.marchOver mask repairs).fld SPD_BANK_CTL.state 0 b != 4).foldl
      (fun (t : State) b => t.bankTested mode b (bitOf fails.toNat b)) (s.marchOver mask repairs) := by
  unfold State.marchDone State.marchOver
  rw [h]

end
end Sys2Proof.Machine
end


section
/-!
SUPPORT. Semaphores: acquiring reads, the waiter served next, grants that are not read, and the SEM descriptors (R346 to R351).
-/
namespace Sys2Proof.Machine

/-! ### Acquiring reads (R346, R348) -/

/-- An acquiring read reaches its semaphore, or, of 32 bits, nothing, while no access of SEM waits. -/
theorem State.directAccess_semAcq {s : State} {m : Nat} (n : SemId) (k : Fin 8) {z : ReqSize} (hm : directMaster m = true)
    (hw : ∀ b ∈ s.waits, b.block ≠ 13) : s.directAccess m (RegRef.mk .SEM_ACQ n.val k.val).off z none =
      s.performRead ⟨m, (RegRef.mk .SEM_ACQ n.val k.val).off, z, none, none, s.now⟩ := by
  have hplace : 13 * 0x100000 ≤ (RegRef.mk .SEM_ACQ n.val k.val).off ∧
      (RegRef.mk .SEM_ACQ n.val k.val).off < (13 + 1) * 0x100000 := by
    have := n.isLt
    have := k.isLt
    simp only [RegRef.off, Reg.shape]
    omega
  have hblock : (WaitAcc.mk m (RegRef.mk .SEM_ACQ n.val k.val).off z none none s.now).block = 13 :=
    WaitAcc.block_eq (by decide) hplace.1 hplace.2
  calc s.directAccess m (RegRef.mk .SEM_ACQ n.val k.val).off z none
      = s.masterAccess m (RegRef.mk .SEM_ACQ n.val k.val).off z none := if_pos hm
    _ = _ := State.regAccess_of_free (by rw [State.blocked_read rfl, hblock]; rfl) (by rwa [hblock])

section
variable {s : State} {a : WaitAcc} {n : SemId} {k : Fin 8}

theorem regAt_semAcq (n : SemId) (k : Fin 8) : regAt (RegRef.mk .SEM_ACQ n.val k.val).off = some ⟨.SEM_ACQ, n.val, k.val⟩ :=
  regAt_off (by simp [RegRef.inShape, Reg.shape]) rfl

theorem State.performRead_semAcq_full (ho : a.off = (RegRef.mk .SEM_ACQ n.val k.val).off) (hz : a.size = .w64) :
    s.performRead a =
      (let x := s.semAcquire n.val a.m k.val
       x.2.deliver a (semWord (x.2.semOf n.val) x.1) false) := by
  have hoff : a.off % 8 = 0 := ho ▸ RegRef.off_mod_eight _
  unfold State.performRead
  rw [WaitAcc.part_full hz hoff, WaitAcc.reg_full hz hoff, ho, regAt_semAcq]
  rfl

theorem State.performRead_semAcq_half (ho : a.off = (RegRef.mk .SEM_ACQ n.val k.val).off) (hz : a.size = .w32) :
    s.performRead a = s.deliver a 0 false := by
  have hoff : a.off % 8 = 0 := ho ▸ RegRef.off_mod_eight _
  have hpart : a.part = some .lo := by
    unfold WaitAcc.part
    rw [hz]
    exact if_pos hoff
  have hreg : a.reg = some ⟨.SEM_ACQ, n.val, k.val⟩ := by
    unfold WaitAcc.reg
    rw [hpart, hoff, Nat.sub_zero, ho, regAt_semAcq]
  unfold State.performRead
  rw [hpart, hreg]
  rfl

end

section
variable {s : State} {n m k : Nat}

theorem State.semAcquire_of_setup (h : s.inSetup 13 = true) : s.semAcquire n m k = (6, s) := if_pos h

variable (h : s.inSetup 13 = false)
include h

theorem State.semAcquire_of_holder (hh : (s.semOf n).holder = some m) : s.semAcquire n m k = (7, s) := by
  unfold State.semAcquire
  dsimp only
  rw [if_neg (Bool.eq_false_iff.1 h), if_pos hh]

theorem State.semAcquire_of_free (hh : (s.semOf n).holder = none)
    (hr : (s.semOf n).reserved = none ∨ (s.semOf n).reserved = some m) : s.semAcquire n m k =
      (if (s.semOf n).orphan then 3 else 1, (s.setSem n { s.semOf n with
        holder := some m, orphan := false, reserved := none, prio := k
        waiters := (s.semOf n).waiters.filter fun w => w.master != m }).pmcEv 13 1 n 0 1) := by
  unfold State.semAcquire
  dsimp only
  rw [if_neg (Bool.eq_false_iff.1 h), if_neg (by rw [hh]; exact nofun), if_pos ⟨hh, hr⟩]

section
variable (hn : (s.semOf n).holder ≠ some m)
  (ht : (s.semOf n).holder ≠ none ∨ ((s.semOf n).reserved ≠ none ∧ (s.semOf n).reserved ≠ some m))
include hn ht

theorem State.semAcquire_of_full (hl : 64 ≤ (s.semOf n).waiters.length)
    (hm : ((s.semOf n).waiters.any fun w => w.master == m) = false) : s.semAcquire n m k = (6, s.pmcEv 13 2 n 0 1) := by
  unfold State.semAcquire
  dsimp only
  rw [if_neg (Bool.eq_false_iff.1 h), if_neg hn, if_neg (by tauto), if_pos (by simp only [hl, hm]; rfl)]

theorem State.semAcquire_of_waiting (hl : (s.semOf n).waiters.length < 64 ∨
      ((s.semOf n).waiters.any fun w => w.master == m) = true) : s.semAcquire n m k =
      (2, ((s.setSem n (semRegister (s.semOf n) m k)).semInherit n (s.semOf n).eff).pmcEv 13 2 n 0 1) := by
  unfold State.semAcquire
  dsimp only
  rw [if_neg (Bool.eq_false_iff.1 h), if_neg hn, if_neg (by tauto), if_neg]
  rcases hl with hl | hl
  · simp only [Bool.and_eq_true, decide_eq_true_eq]
    omega
  · rw [hl]
    simp

end
end

/-! ### Priorities (R348, R349) -/

theorem foldl_max_spec (l : List Nat) (a : Nat) :
    a ≤ l.foldl max a ∧ (∀ x ∈ l, x ≤ l.foldl max a) ∧ (l.foldl max a = a ∨ l.foldl max a ∈ l) := by
  induction l generalizing a with
  | nil => exact ⟨Nat.le_refl a, fun x hx => absurd hx List.not_mem_nil, .inl rfl⟩
  | cons b l ih =>
    obtain ⟨hle, hall, hex⟩ := ih (max a b)
    refine ⟨Nat.le_trans (Nat.le_max_left a b) hle,
      List.forall_mem_cons.2 ⟨Nat.le_trans (Nat.le_max_right a b) hle, hall⟩, ?_⟩
    rw [List.foldl_cons]
    rcases hex with heq | hm
    · rw [heq]
      rcases Nat.le_total a b with hab | hab
      · rw [Nat.max_eq_right hab]
        exact .inr List.mem_cons_self
      · exact .inl (Nat.max_eq_left hab)
    · exact .inr (List.mem_cons_of_mem _ hm)

/-- The effective priority is the highest of the holder's own and the waiters'. -/
theorem Semaphore.eff_spec (v : Semaphore) :
    v.prio ≤ v.eff ∧ (∀ w ∈ v.waiters, w.prio ≤ v.eff) ∧ (v.eff = v.prio ∨ ∃ w ∈ v.waiters, w.prio = v.eff) := by
  obtain ⟨-, hall, hex⟩ := foldl_max_spec (v.waiters.map (·.prio)) 0
  unfold Semaphore.eff
  generalize (v.waiters.map (·.prio)).foldl max 0 = e at *
  refine ⟨Nat.le_max_left _ _, fun w hw => Nat.le_trans (hall _ (List.mem_map_of_mem hw)) (Nat.le_max_right _ _), ?_⟩
  rcases Nat.le_total e v.prio with hle | hle
  · exact .inl (Nat.max_eq_left hle)
  · rw [Nat.max_eq_right hle]
    rcases hex with rfl | hm
    · exact .inl (by omega)
    · obtain ⟨w, hw, he⟩ := List.mem_map.1 hm
      exact .inr ⟨w, hw, he⟩

theorem bestWaiter_spec (ws : List SemWaiter) : (bestWaiter ws = none ↔ ws = []) ∧ ∀ w, bestWaiter ws = some w → w ∈ ws ∧
    ∀ v ∈ ws, v.prio < w.prio ∨ v.prio = w.prio ∧ w.seq ≤ v.seq := by
  induction ws with
  | nil => exact ⟨⟨fun _ => rfl, fun _ => rfl⟩, fun w h => (nomatch h)⟩
  | cons x ws ih =>
    obtain ⟨hnil, hbest⟩ := ih
    unfold bestWaiter
    cases hb : bestWaiter ws with
    | none =>
      obtain rfl := hnil.1 hb
      refine ⟨by simp, fun w h => ?_⟩
      obtain rfl := Option.some.inj h
      exact ⟨List.mem_singleton_self _, fun v hv => .inr (by rw [List.mem_singleton.1 hv]; exact ⟨rfl, Nat.le_refl _⟩)⟩
    | some y =>
      obtain ⟨hmem, hall⟩ := hbest y hb
      dsimp only
      refine ⟨⟨fun h => (by split at h <;> cases h), fun h => (nomatch h)⟩, fun w h => ?_⟩
      split at h
      next hlt =>
        obtain rfl := Option.some.inj h
        have hlt' : y.prio < x.prio ∨ y.prio = x.prio ∧ x.seq < y.seq := by simpa using hlt
        refine ⟨List.mem_cons_self, List.forall_mem_cons.2 ⟨.inr ⟨rfl, Nat.le_refl _⟩, fun v hv => ?_⟩⟩
        have := hall v hv
        omega
      next hge =>
        obtain rfl := Option.some.inj h
        have hge' : ¬ (y.prio < x.prio ∨ y.prio = x.prio ∧ x.seq < y.seq) := by simpa using hge
        refine ⟨List.mem_cons_of_mem _ hmem, List.forall_mem_cons.2 ⟨?_, hall⟩⟩
        omega

/-! ### Grants (R348) -/

section
variable {s : State} {n : Nat}

theorem State.semGrant_of_none (h : (s.semOf n).waiters = []) :
    s.semGrant n = s.setSem n { s.semOf n with holder := none, reserved := none, prio := 0 } := by
  unfold State.semGrant
  dsimp only
  rw [(bestWaiter_spec _).1.2 h]

theorem State.semGrant_of_some {w : SemWaiter} (h : bestWaiter (s.semOf n).waiters = some w) : s.semGrant n =
    (s.setSem n { s.semOf n with
      holder := none, prio := 0, reserved := some w.master, reservedAt := s.now
      waiters := (s.semOf n).waiters.filter fun x => x.master != w.master }).semWake w.master := by
  unfold State.semGrant
  dsimp only
  rw [h]

theorem State.grantEnd_of_free (h : (s.semOf n).reserved = none) : s.grantEnd n = s := if_pos (by rw [h]; rfl)

theorem State.grantEnd_of_reserved (h : (s.semOf n).reserved ≠ none) : s.grantEnd n =
    (s.advance ((s.semOf n).reservedAt + us (max 1 (s.fld SEM_CTL.grant_window_us 0 0)))).semGrant n :=
  if_neg (by rwa [Option.isNone_iff_eq_none])

end

/-! ### The SEM descriptors (R351) -/

/-- The command that dispatches a SEM descriptor: that of its sub-opcode. -/
def Handle.SemCommand (h : Handle) (i : Instr) : Prop :=
  (i, dSub h.desc) ∈ [(Instr.semAcquireWait h.ref, 1), (.semTry h.ref, 2), (.semRelease h.ref, 3)]

section
variable {s : State} {h : Handle}

theorem exec_of_semCommand {i : Instr} (hh : s.handle? h.ref = some h) (hn : s.dispatchable h = true) (hop : dOpcode h.desc = 11)
    (hi : h.SemCommand i) : exec i s = .next ((s.dispatch h).done s) := by
  have next {test : Descriptor → Bool} (ht : test h.desc = true) :
      (Host.Outcome.next ((s.dispatchIf h.ref test).done s) : Res) = .next ((s.dispatch h).done s) :=
    next_done_congr (State.dispatchIf_of_next hh hn ht)
  simp only [Handle.SemCommand, List.mem_cons, Prod.mk.injEq, List.not_mem_nil, or_false] at hi
  rcases hi with ⟨rfl, hsub⟩ | ⟨rfl, hsub⟩ | ⟨rfl, hsub⟩
  · exact next (by simp [hop, hsub])
  · exact next (by simp [hop, hsub])
  · exact next (by simp [hop, hsub])

/-- What a SEM descriptor does at SEM, by its sub-opcode. -/
def State.dispatchSem (s : State) (h : Handle) : State :=
  match dSub h.desc with
  | 1 => s.dispatchSemWait h
  | 2 => s.dispatchSemTry h
  | _ => s.dispatchSemRelease h

theorem State.dispatch_sem (hop : dOpcode h.desc = 11) : s.dispatch h = (s.atBlock h).dispatchSem h := by
  unfold State.dispatch State.atBlock State.dispatchSem
  rw [hop]
  rfl

variable {u : State}

theorem State.dispatchSem_of_setup (hs : u.inSetup 13 = true) : u.dispatchSem h = u.hold h := by
  unfold State.dispatchSem
  split
  · exact if_pos hs
  · exact if_pos hs
  · exact if_pos hs

section
variable (hs : u.inSetup 13 = false)
include hs

theorem State.dispatchSem_of_lcntBad (hl : u.lcntBad h = true) : u.dispatchSem h = u.finish h.ref 0x18 1 := by
  have hrun := Bool.eq_false_iff.1 hs
  unfold State.dispatchSem
  split
  · exact (if_neg hrun).trans (if_pos hl)
  · exact (if_neg hrun).trans (if_pos hl)
  · exact (if_neg hrun).trans (if_pos hl)

variable (hl : u.lcntBad h = false)
include hl

theorem State.dispatchSem_try (h2 : dSub h.desc = 2) : u.dispatchSem h =
    (let x := u.semAcquire (dSem h.desc) (u.semMaster h) (semPrio h.desc)
     x.2.complete h.ref 0 0 0 (BitVec.ofNat 64 x.1)) := by
  unfold State.dispatchSem
  rw [h2]
  exact (if_neg (Bool.eq_false_iff.1 hs)).trans (if_neg (Bool.eq_false_iff.1 hl))

theorem State.dispatchSem_release (h3 : dSub h.desc = 3) : u.dispatchSem h =
    if (u.semOf (dSem h.desc)).holder = some (u.semMaster h) then (u.semFree (dSem h.desc) false).complete h.ref 0 0 0 4
    else (u.faultBy 13 0 (u.semMaster h) (dSem h.desc)).complete h.ref 0 0 0 5 := by
  unfold State.dispatchSem
  rw [h3]
  exact (if_neg (Bool.eq_false_iff.1 hs)).trans (if_neg (Bool.eq_false_iff.1 hl))

theorem State.dispatchSem_wait (h1 : dSub h.desc = 1) :
    u.dispatchSem h = (u.setHandle { h with phase := .waiting }).semTake h := by
  unfold State.dispatchSem
  rw [h1]
  exact (if_neg (Bool.eq_false_iff.1 hs)).trans (if_neg (Bool.eq_false_iff.1 hl))

end

theorem State.semTake_of_free (hf : u.semFor (dSem h.desc) (u.semMaster h) = true) : u.semTake h =
    (let x := u.semAcquire (dSem h.desc) (u.semMaster h) (semPrio h.desc)
     x.2.complete h.ref 0 0 0 (BitVec.ofNat 64 x.1)) := if_pos hf

theorem State.semTake_of_holder (hh : (u.semOf (dSem h.desc)).holder = some (u.semMaster h)) : u.semTake h = u := by
  have hf : u.semFor (dSem h.desc) (u.semMaster h) = false := by simp [State.semFor, hh]
  exact (if_neg (Bool.eq_false_iff.1 hf)).trans (if_pos hh)

theorem State.semTake_of_other (hf : u.semFor (dSem h.desc) (u.semMaster h) = false)
    (hh : (u.semOf (dSem h.desc)).holder ≠ some (u.semMaster h)) :
    u.semTake h = (u.semAcquire (dSem h.desc) (u.semMaster h) (semPrio h.desc)).2 :=
  (if_neg (Bool.eq_false_iff.1 hf)).trans (if_neg hh)

end
/-- The BAR4 reads of O53: zero in setup or stopped, else what the banks serve. -/
theorem exec_spdRead (p : HPort) (addr n : Nat) (as : List PortAUse) (s : State) (he : s.endpoint p.val = true) :
    (s.stopped = true ∨ s.inSetup 12 = true → exec (.scratchpadHostAccess p addr (.read n) as) s =
      .next ((s.emit (.memDone p.val (List.replicate n 0) false)).done s)) ∧
    (s.stopped = false → s.inSetup 12 = false → 0 < n → addr + n ≤ spdSize →
      exec (.scratchpadHostAccess p addr (.read n) as) s = .next ((s.spdRead p.val addr n as).done s)) :=
  ⟨fun h => next_done_congr ((if_pos he).trans (State.spdAccess_read_shut h)),
    fun hst hset hn hin => next_done_congr ((if_pos he).trans (State.spdAccess_read hst hset hn hin))⟩

theorem exec_spdWrite (p : HPort) (addr : Nat) (bs : List Byte) (as : List PortAUse) (s : State) (he : s.endpoint p.val = true) :
    (s.stopped = true ∨ s.inSetup 12 = true → exec (.scratchpadHostAccess p addr (.write bs) as) s =
      .next ((s.rxBytes (mHost p.val 0) bs.length).done s)) ∧
    (s.stopped = false → s.inSetup 12 = false → bs ≠ [] → addr + bs.length ≤ spdSize →
      exec (.scratchpadHostAccess p addr (.write bs) as) s =
        .next (((s.rxBytes (mHost p.val 0) bs.length).spdWrite p.val addr bs as).done s)) :=
  ⟨fun h => next_done_congr ((if_pos he).trans (State.spdAccess_write_shut h)),
    fun hst hset hn hin => next_done_congr ((if_pos he).trans (State.spdAccess_write hst hset hn hin))⟩

/-- Settles O53: each access is the branch that its banks take, and each SEM descriptor the branch of its sub-opcode. -/
theorem banksAndSemaphoresServeTheirMasters : Obligations.BanksAndSemaphoresServeTheirMasters := by
  refine ⟨fun s off bs a h hbad => State.spdByte_spdStore h hbad off bs a, mem_sharedWords, mem_collisions,
    fun p addr n bs as s he =>
      ⟨(exec_spdRead p addr n as s he).1, fun hst hset hn hin => ⟨fun hc => ?readRefused, fun hc => ?read⟩,
      (exec_spdWrite p addr bs as s he).1, fun hst hset hn hin =>
        ⟨fun hc => ?writeRefused, fun hc => ⟨fun hw => ?busy, fun hw => ?quiet⟩⟩⟩,
    State.clashBytes_spec, fun s x => ⟨fun bs h => s.portA_write h, fun k h => s.portA_read h⟩,
    fun off s hf h => next_done_congr ((State.ifRuns_of_runs _ hf).trans (State.spdAgain_of_in h)),
    fun b s => ⟨fun hr hs => next_done_congr (State.bankRetained_of_asked hr hs),
      fun h => next_done_congr (State.bankRetained_of_other h), fun h => next_done_congr (State.bankActive_of_waking h),
      fun h => next_done_congr (State.bankActive_of_other h)⟩,
    fun fails repairs s => ⟨fun h => next_done_congr (State.marchDone_of_none h),
      fun mask mode h => next_done_congr (State.marchDone_of_some h)⟩,
    fun m n k s hm hw => ⟨next_done_congr ?half, next_done_congr ?full⟩,
    fun s n m k => ⟨State.semAcquire_of_setup, State.semAcquire_of_holder, State.semAcquire_of_free,
      fun h hn ht => ⟨State.semAcquire_of_full h hn ht, State.semAcquire_of_waiting h hn ht⟩⟩,
    Semaphore.eff_spec, bestWaiter_spec,
    fun n s => ⟨fun h => next_done_congr (State.grantEnd_of_free h), fun h =>
      ⟨fun hw => next_done_congr ((State.grantEnd_of_reserved h).trans (State.semGrant_of_none hw)),
        fun w hw => next_done_congr ((State.grantEnd_of_reserved h).trans (State.semGrant_of_some hw))⟩⟩,
    fun s h hh hd hop => ?sem⟩
  case readRefused =>
    rw [(exec_spdRead p addr n as s he).2 hst hset hn hin, State.spdRead_refused hc]
  case read =>
    rw [(exec_spdRead p addr n as s he).2 hst hset hn hin, State.spdRead_served hc]
    rfl
  case writeRefused =>
    rw [(exec_spdWrite p addr bs as s he).2 hst hset hn hin, State.spdWrite_refused hc]
  case busy =>
    rw [(exec_spdWrite p addr bs as s he).2 hst hset hn hin, State.spdWrite_busy hc hw]
    rfl
  case quiet =>
    rw [(exec_spdWrite p addr bs as s he).2 hst hset hn hin, State.spdWrite_quiet hc hw]
    rfl
  case half => exact (State.directAccess_semAcq n k hm hw).trans (State.performRead_semAcq_half rfl rfl)
  case full => exact (State.directAccess_semAcq n k hm hw).trans (State.performRead_semAcq_full rfl rfl)
  case sem =>
    intro u m n k own
    have hrun (i : Instr) (hi : own i) : exec i s = .next ((u.dispatchSem h).done s) :=
      (exec_of_semCommand hh hd hop hi).trans (next_done_congr (State.dispatch_sem hop))
    have hwait (h1 : dSub h.desc = 1) := hrun (.semAcquireWait h.ref) (by simp [own, h1])
    have htry (h2 : dSub h.desc = 2) := hrun (.semTry h.ref) (by simp [own, h2])
    have hrelease (h3 : dSub h.desc = 3) := hrun (.semRelease h.ref) (by simp [own, h3])
    refine ⟨fun i hi hs => (hrun i hi).trans (next_done_congr (State.dispatchSem_of_setup hs)),
      fun i hi hs hl => (hrun i hi).trans (next_done_congr (State.dispatchSem_of_lcntBad hs hl)), fun hs hl =>
      ⟨fun h2 => (htry h2).trans (next_done_congr (State.dispatchSem_try hs hl h2)),
        fun h3 hm => (hrelease h3).trans (next_done_congr ((State.dispatchSem_release hs hl h3).trans (if_pos hm))),
        fun h3 hm => (hrelease h3).trans (next_done_congr ((State.dispatchSem_release hs hl h3).trans (if_neg hm))),
          fun h1 => ?_⟩⟩
    intro w x
    have hstep : u.dispatchSem h = w.semTake h := State.dispatchSem_wait hs hl h1
    exact ⟨fun hf => (hwait h1).trans (next_done_congr (hstep.trans (State.semTake_of_free hf))),
      fun hm => (hwait h1).trans (next_done_congr (hstep.trans (State.semTake_of_holder hm))),
      fun hf hm => (hwait h1).trans (next_done_congr (hstep.trans (State.semTake_of_other hf hm)))⟩

end Sys2Proof.Machine
end


section
/-!
SUPPORT. Event pins, clocks, temperature and life, the I3C target and mailbox, and the TAP (R461, R474 to R494).
-/
namespace Sys2Proof.Machine

section
variable {s : State}

/-! ### Event pins (R461) -/

theorem State.pinEdge_freeze {k : Nat} (h : s.pinFunc k = 1) : s.pinEdge k = s.freezeReq (s.tickAfter s.now) := by
  unfold State.pinEdge
  rw [h]
  rfl

theorem State.pinEdge_capture {k : Nat} (h : s.pinFunc k = 4) :
    s.pinEdge k = s.setFld TOP_PIN_CAPTURE.time 0 k s.fabric := by
  unfold State.pinEdge
  rw [h]
  rfl

theorem State.pinEdge_other {k : Nat} (h1 : s.pinFunc k ≠ 1) (h4 : s.pinFunc k ≠ 4) : s.pinEdge k = s := by
  unfold State.pinEdge
  split
  next h => exact absurd h h1
  next h => exact absurd h h4
  next => rfl

theorem State.any_tickPin (s : State) :
    ((List.range 4).any fun k => s.pinFunc k == 3) = true ↔ ∃ k, k < 4 ∧ s.pinFunc k = 3 := by
  simp only [List.any_eq_true, List.mem_range, beq_iff_eq]

theorem State.tickPins_of_none (b : Bool) (h : ∀ k, k < 4 → s.pinFunc k ≠ 3) : s.tickPins b = s := by
  have hnil : ((List.range 4).filter fun k => s.pinFunc k == 3) = [] :=
    List.filter_eq_nil_iff.2 fun k hk => by simpa using h k (List.mem_range.1 hk)
  unfold State.tickPins
  rw [hnil]
  rfl

/-- The clock at the next millisecond of fabric time. -/
def State.atTick (s : State) : State := s.advance (s.clockOf ((s.fabric / 1000000 + 1) * 1000000))

theorem State.timeTick_of_none (h : ∀ k, k < 4 → s.atTick.pinFunc k ≠ 3) : s.timeTick = s.atTick := by
  have hpins : s.atTick.tickPins true = s.atTick := State.tickPins_of_none true h
  unfold State.atTick at h hpins ⊢
  unfold State.timeTick
  dsimp only
  rw [hpins, if_neg]
  rw [State.any_tickPin]
  rintro ⟨k, hk, h3⟩
  exact h k hk h3

theorem State.timeTick_of_some (h : ∃ k, k < 4 ∧ (s.atTick.tickPins true).pinFunc k = 3) : s.timeTick =
    ((s.atTick.tickPins true).advance ((s.atTick.tickPins true).now + us 1)).tickPins false :=
  if_pos ((State.any_tickPin _).2 h)

/-! ### Clocks (R474, R482) -/

theorem State.pllUnlock_of_unlocked {k : Nat} (h : bitOf (s.fld PWR_STATUS.pll_lock 0 0) k = false) : s.pllUnlock k = s :=
  if_pos (by rw [h]; rfl)

theorem State.pllUnlock_of_locked {k : Nat} (h : bitOf (s.fld PWR_STATUS.pll_lock 0 0) k = true) : s.pllUnlock k =
    (s.setFld PWR_STATUS.pll_lock 0 0 (putBits (s.fld PWR_STATUS.pll_lock 0 0) k k 0)).fault 19 514 0 :=
  if_neg (by rw [h]; decide)

theorem State.refLost_core (h : s.flag PWR_STATUS.core_ref_ok 0 0 = true) : s.refLost 0 =
    ((s.setFlag PWR_STATUS.core_ref_ok 0 0 false).setFld PWR_STATUS.pll_lock 0 0 0).fault 19 514 0 :=
  (if_pos rfl).trans (if_neg (by rw [h]; decide))

section
variable {c : Nat}

theorem State.refLost_fabric (h1 : 1 ≤ c) (h4 : c ≤ 4) (h : bitOf (s.fld PWR_STATUS.fab_ref_ok 0 0) (c - 1) = true) :
    s.refLost c = (s.setRef PWR_STATUS.fab_ref_ok (c - 1) false).fabClockLost (c - 1) :=
  (if_neg (by omega)).trans ((if_pos h4).trans (if_neg (by rw [h]; decide)))

theorem State.refLost_host (h5 : 5 ≤ c) (h12 : c ≤ 12) (h : bitOf (s.fld PWR_STATUS.host_ref_ok 0 0) (c - 5) = true) :
    s.refLost c = (s.setRef PWR_STATUS.host_ref_ok (c - 5) false).portReset (c - 5) :=
  (if_neg (by omega)).trans ((if_neg (by omega)).trans ((if_pos h12).trans (if_neg (by rw [h]; decide))))

theorem State.refBack_fabric (h1 : 1 ≤ c) (h4 : c ≤ 4) : s.refBack c = s.setRef PWR_STATUS.fab_ref_ok (c - 1) true :=
  (if_neg (by omega)).trans (if_pos h4)

theorem State.refBack_host (h5 : 5 ≤ c) (h12 : c ≤ 12) : s.refBack c = s.setRef PWR_STATUS.host_ref_ok (c - 5) true :=
  (if_neg (by omega)).trans ((if_neg (by omega)).trans (if_pos h12))

end

/-! ### Temperature and life (R480, R494) -/

section
variable {t : Int}

theorem State.thermalWarn_counts (h : s16 (s.fld PWR_THERMAL_CFG.warn 0 0) ≤ t) (hw : s.pwr.warned = false) :
    s.thermalWarn t = (({ s with pwr := { s.pwr with warned := true } } : State).ibi 3).fault 19 512 0 :=
  (if_pos h).trans (if_neg (Bool.eq_false_iff.1 hw))

theorem State.thermalWarn_known (h : s16 (s.fld PWR_THERMAL_CFG.warn 0 0) ≤ t) (hw : s.pwr.warned = true) :
    s.thermalWarn t = s := (if_pos h).trans (if_pos hw)

theorem State.thermalWarn_near (hlo : s16 (s.fld PWR_THERMAL_CFG.warn 0 0) - 16 < t)
    (hhi : t < s16 (s.fld PWR_THERMAL_CFG.warn 0 0)) : s.thermalWarn t = s :=
  (if_neg (Int.not_le.2 hhi)).trans (if_neg (Int.not_le.2 hlo))

theorem State.thermalWarn_cool (h : t ≤ s16 (s.fld PWR_THERMAL_CFG.warn 0 0) - 16) :
    s.thermalWarn t = { s with pwr := { s.pwr with warned := false } } := (if_neg (by omega)).trans (if_pos h)

/-- The readings in a row at or above trip have been counted. -/
def State.withHot (s : State) (n : Nat) : State := { s with pwr := { s.pwr with hot := n } }

theorem State.thermalTrip_eq {n : Nat} (h : (if s.tripAt ≤ t then min 3 (s.pwr.hot + 1) else 0) = n) : s.thermalTrip t =
    if (n == 3 && s.pwr.hot != 3) = true then ((s.withHot n).ibi 5).fault 19 513 0 else s.withHot n := by
  unfold State.thermalTrip State.withHot
  dsimp only
  rw [h]

theorem State.thermalTrip_cool (h : t < s.tripAt) : s.thermalTrip t = s.withHot 0 := by
  rw [State.thermalTrip_eq (if_neg (Int.not_le.2 h))]
  exact if_neg (by simp)

theorem State.thermalTrip_warm (h : s.tripAt ≤ t) (hh : s.pwr.hot < 2) : s.thermalTrip t = s.withHot (s.pwr.hot + 1) := by
  have hmin : (if s.tripAt ≤ t then min 3 (s.pwr.hot + 1) else 0) = s.pwr.hot + 1 := by
    rw [if_pos h]
    omega
  rw [State.thermalTrip_eq hmin]
  refine if_neg ?_
  rw [Bool.and_eq_true, beq_iff_eq]
  omega

theorem State.thermalTrip_trips (h : s.tripAt ≤ t) (hh : s.pwr.hot = 2) :
    s.thermalTrip t = ((s.withHot 3).ibi 5).fault 19 513 0 := by
  have hmin : (if s.tripAt ≤ t then min 3 (s.pwr.hot + 1) else 0) = 3 := by
    rw [if_pos h, hh]
    rfl
  rw [State.thermalTrip_eq hmin]
  exact if_pos (by rw [hh]; rfl)

end

/-- The bisection of R494 keeps the root between its bounds. -/
theorem root80_spec (e bits n : Nat) (hlo : n ^ 80 ≤ 2 ^ e) (hhi : 2 ^ e < (n + 2 ^ (bits + 1)) ^ 80) :
    root80 e bits n ^ 80 ≤ 2 ^ e ∧ 2 ^ e < (root80 e bits n + 1) ^ 80 := by
  induction bits generalizing n with
  | zero =>
    unfold root80
    split
    next h => exact ⟨h, hhi⟩
    next h => exact ⟨hlo, Nat.not_le.1 h⟩
  | succ bits ih =>
    have hsum : n + 2 ^ (bits + 1) + 2 ^ (bits + 1) = n + 2 ^ (bits + 1 + 1) := by rw [Nat.pow_succ 2 (bits + 1)]; omega
    unfold root80
    dsimp only
    split
    next h => exact ih _ h (hsum ▸ hhi)
    next h => exact ih n hlo (Nat.not_le.1 h)

theorem root80_bounds (e : Nat) : root80 e (e / 80) 0 ^ 80 ≤ 2 ^ e ∧ 2 ^ e < (root80 e (e / 80) 0 + 1) ^ 80 := by
  refine root80_spec e (e / 80) 0 (Nat.zero_le _) ?_
  rw [Nat.zero_add, ← Nat.pow_mul]
  exact Nat.pow_lt_pow_right (by decide) (by omega)

/-- The second that a tick of the life counter ends. -/
def State.atLife (s : State) : State := s.advance (s.sec.bootAt + ms 1000 * ((s.now - s.sec.bootAt) / ms 1000 + 1))

theorem State.life_of_off (h : s.pwr.pwrgood = false) : s.life = s := if_pos (by rw [h]; rfl)

theorem State.life_of_good (h : s.pwr.pwrgood = true) : s.life =
    (let x := lifeSeconds (s16 (s.atLife.fld PWR_TEMP.tj_max 0 0))
     if x.2 then s.atLife.bump PWR_LIFE.seconds 0 0 x.1
     else (s.atLife.fresh 1).2.bump PWR_LIFE.seconds 0 0 (x.1 + (s.atLife.fresh 1).1.toNat)) := by
  unfold State.life State.atLife
  rw [h]
  exact if_neg (by decide)

/-! ### The I3C target (R484, R487) -/

section
variable {a : Nat}

theorem State.setDasa_of_no (h : s.pwr.pwrgood = false ∨ s.pwr.dyn ≠ none) : s.setDasa a = s ∧ s.entDaa a = s := by
  rw [← Option.isSome_iff_ne_none] at h
  have hno : (!s.pwr.pwrgood || s.pwr.dyn.isSome) = true := by simpa using h
  exact ⟨if_pos hno, if_pos hno⟩

theorem State.setDasa_of_yes (h : s.pwr.pwrgood = true) (hd : s.pwr.dyn = none) :
    s.setDasa a = (s.emit (.i3cAck (0x58 + s.sec.addrSel))).takeAddr a := if_neg (by rw [h, hd]; decide)

theorem State.entDaa_of_yes (h : s.pwr.pwrgood = true) (hd : s.pwr.dyn = none) : s.entDaa a =
    ((s.fresh 8).2.emit (.i3cId (s.fresh 8).2.i3cPid 6 (s.fresh 8).1.toNat)).takeAddr a := if_neg (by rw [h, hd]; decide)

theorem State.i3cPid_fresh (s : State) (n : Nat) :
    (s.fresh n).2.i3cPid = 0x2C5 * 2 ^ 33 + 0x48 * 2 ^ 16 + s.fld SEC_IDENTITY.identity 0 0 % 2 ^ 16 := by
  have hfld : (s.fresh n).2.fld SEC_IDENTITY.identity 0 0 = s.fld SEC_IDENTITY.identity 0 0 := State.fld_of_reg (Eq.refl _)
  unfold State.i3cPid
  rw [hfld]

theorem State.enec_of_none (h : s.pwr.dyn = none) : s.enec = s := if_pos (by rw [h]; rfl)

theorem State.enec_of_some (h : s.pwr.dyn ≠ none) : s.enec = s.pwr.ibis.foldl (fun (t : State) n => t.emit (.ibi n))
    ({ s with pwr := { s.pwr with ibiEn := true, ibis := [] } } : State) := by
  rw [← Option.isSome_iff_ne_none] at h
  have hnone : s.pwr.dyn.isNone = false := by rw [Option.isNone_eq_false_iff]; exact h
  unfold State.enec State.ibiFlush
  dsimp only
  rw [hnone, h]
  rfl

end

/-! ### The mailbox (R485, R486) -/

section
variable {a d c : Word}

/-- The mailbox with the write and the IBI bits of a control word. -/
def State.mbCtl (s : State) (c : Word) : Mailbox := { s.pwr.mb with doneIbi := c.getLsbD 2, write := c.getLsbD 1 }

theorem State.mbStart_of_busy (h : s.pwr.mb.busy ≠ none) : s.mbStart a d c = s.setMb (s.mbCtl c) := by
  rw [← Option.isSome_iff_ne_none] at h
  exact if_pos h

section
variable (h : s.pwr.mb.busy = none)
include h

theorem State.mbStart_without_go (hg : c.getLsbD 0 = false) :
    s.mbStart a d c = s.setMb { s.mbCtl c with addr := bitsOf a.toNat 25 3, data := d } := by
  unfold State.mbStart State.mbCtl
  dsimp only
  rw [h, hg]
  rfl

theorem State.mbStart_with_clock (hg : c.getLsbD 0 = true) (hc : s.coreClock = true) : s.mbStart a d c =
    (s.setMb { s.mbCtl c with addr := bitsOf a.toNat 25 3, data := d, busy := some s.now, result := 0, got := none }).regAccess
      ⟨mI3c, 8 * bitsOf a.toNat 25 3, .w64, if c.getLsbD 1 then some d else none, none, s.now⟩ := by
  have hset (v : Mailbox) : (s.setMb v).coreClock = true := hc
  unfold State.mbStart State.mbCtl
  dsimp only
  rw [h, hg, hset, hc]
  rfl

theorem State.mbStart_without_clock (hg : c.getLsbD 0 = true) (hc : s.coreClock = false) : s.mbStart a d c =
    s.setMb { s.mbCtl c with
      addr := bitsOf a.toNat 25 3, data := d, busy := some s.now, result := 0, got := some (0, 1) } := by
  have hset (v : Mailbox) : (s.setMb v).coreClock = false := hc
  unfold State.mbStart State.mbCtl
  dsimp only
  rw [h, hg, hset, hc]
  rfl

end

theorem State.mbDone_of_got {t : Nat} {x : Word} {r : Nat} (hb : s.pwr.mb.busy = some t) (hg : s.pwr.mb.got = some (x, r)) :
    s.mbDone = s.mbEnd (if s.pwr.mb.write = true ∨ r ≠ 0 then s.pwr.mb.data else x) r ∧ s.mbLimit = s := by
  unfold State.mbDone State.mbLimit
  dsimp only
  rw [hb, hg]
  dsimp only
  exact ⟨congrArg (fun y => s.mbEnd y r) (if_congr (by simp) rfl rfl), rfl⟩

theorem State.mbDone_of_none (h : s.pwr.mb.busy = none ∨ s.pwr.mb.got = none) : s.mbDone = s := by
  unfold State.mbDone
  dsimp only
  split
  next hb hg => rcases h with h | h <;> simp_all
  next => rfl

theorem State.mbLimit_of_waiting {t : Nat} (hb : s.pwr.mb.busy = some t) (hg : s.pwr.mb.got = none) :
    s.mbLimit = (s.advance (t + ms 2)).mbEnd (s.advance (t + ms 2)).pwr.mb.data 3 := by
  unfold State.mbLimit
  rw [hb, hg]
  dsimp only
  rw [State.due_eq]

theorem State.mbLimit_of_idle (hb : s.pwr.mb.busy = none) : s.mbLimit = s := by
  unfold State.mbLimit
  rw [hb]

end

/-! ### The TAP (R488, R489) -/

/-- An instruction stands in the TAP. -/
def State.tapLoaded (s : State) (op : JtagOp) : State :=
  ({ s with pwr := { s.pwr with jtag := { s.pwr.jtag with ir := op.code } } } : State).emit
    (.jtag op (if op == .idcode then 0x100489CB else 0))

theorem State.scanAllowed_iff (s : State) :
    s.scanAllowed = true ↔ s.sec.step < 6 ∨ s.fld SEC_BOOT_STATUS.state 0 0 = 3 ∨ s.stopped = true := by
  unfold State.scanAllowed
  rw [Bool.or_eq_true, Bool.or_eq_true, decide_eq_true_eq, beq_iff_eq, or_assoc]

theorem State.jtagLoad_eq (s : State) (op : JtagOp) :
    s.jtagLoad op = s.tapLoaded (if (op.guarded && !s.scanAllowed) = true then .bypass else op) := rfl

theorem State.jtagLoad_shut {op : JtagOp} (hg : op.guarded = true) (h : ¬ s.scanAllowed = true) :
    s.jtagLoad op = s.tapLoaded .bypass := by
  rw [State.jtagLoad_eq, if_pos (by rw [hg, Bool.eq_false_iff.2 h]; rfl)]

theorem State.jtagLoad_open {op : JtagOp} (h : op.guarded = false ∨ s.scanAllowed = true) :
    s.jtagLoad op = s.tapLoaded op := by
  rw [State.jtagLoad_eq, if_neg]
  rcases h with h | h
  · rw [h, Bool.false_and]
    decide
  · rw [h, Bool.not_true, Bool.and_false]
    decide

/-- The commands of the TAP with the instructions they load, but for REGACC. -/
theorem exec_tap (s : State) {i : Instr} {op : JtagOp} {code : Nat} {guarded : Bool}
    (h : (i, op, code, guarded) ∈ [(Instr.extest, JtagOp.extest, 0x00, true),
      (.idcode, .idcode, 0x01, false), (.samplePreload, .sample, 0x02, false), (.clamp, .clamp, 0x04, true),
      (.highz, .highz, 0x05, true), (.extestPulse, .extestPulse, 0x0A, true), (.extestTrain, .extestTrain, 0x0B, true),
      (.bypass, .bypass, 0xFF, false)]) :
    exec i s = .next ((s.jtagLoad op).done s) ∧ op.code = code ∧ op.guarded = guarded ∧
      (op == .idcode) = decide (code = 1) := by
  simp only [List.mem_cons, Prod.mk.injEq, List.not_mem_nil, or_false] at h
  rcases h with ⟨rfl, rfl, rfl, rfl⟩ | ⟨rfl, rfl, rfl, rfl⟩ | ⟨rfl, rfl, rfl, rfl⟩ | ⟨rfl, rfl, rfl, rfl⟩ |
    ⟨rfl, rfl, rfl, rfl⟩ | ⟨rfl, rfl, rfl, rfl⟩ | ⟨rfl, rfl, rfl, rfl⟩ | ⟨rfl, rfl, rfl, rfl⟩ <;>
    exact ⟨rfl, rfl, rfl, rfl⟩

section
variable {dr : BitVec 96}

/-- REGACC stands in the TAP. -/
def State.regaccTap (s : State) : Jtag := { s.pwr.jtag with ir := 0x20 }

/-- Its Capture-DR gives the result of the last access. -/
def State.regaccCaptured (s : State) : State :=
  s.emit (.jtag .regacc (putBits s.regaccTap.dr.toNat 89 88 s.regaccTap.status))

theorem State.regacc_of_running (h : s.regaccTap.status = 1) : s.regacc dr = s.regaccCaptured.setJtag s.regaccTap := if_pos h

section
variable (h : s.regaccTap.status ≠ 1)
include h

theorem State.regacc_without_clock (hc : s.regaccCaptured.coreClock = false) :
    s.regacc dr = s.regaccCaptured.setJtag { s.regaccTap with status := 2 } :=
  (if_neg h).trans (if_pos (show (!s.regaccCaptured.coreClock) = true by rw [hc]; rfl))

theorem State.regacc_with_clock (hc : s.regaccCaptured.coreClock = true) : s.regacc dr =
    (let n := dr.toNat
     let w := s.regaccCaptured.setJtag { s.regaccTap with dr := BitVec.ofNat 96 (bitsOf n 87 0), status := 1 }
     w.regAccess ⟨mJtag, 8 * bitsOf n 86 64, .w64,
       if bitOf n 87 then some (BitVec.ofNat 64 (bitsOf n 63 0)) else none, none, w.now⟩) :=
  (if_neg h).trans (if_neg (show ¬ (!s.regaccCaptured.coreClock) = true by rw [hc]; decide))

end
end
end
/-- Settles O60: each command is the branch that its pin, its clock, its reading or its register takes. -/
theorem pinsPowerAndManagementAct : Obligations.PinsPowerAndManagementAct := by
  refine ⟨fun k s => ⟨fun h => next_done_congr (State.pinEdge_freeze h), fun h => next_done_congr (State.pinEdge_capture h),
      fun h1 h4 => next_done_congr (State.pinEdge_other h1 h4)⟩,
    fun s => ⟨fun h => next_done_congr (State.timeTick_of_none h), fun h => next_done_congr (State.timeTick_of_some h)⟩,
    fun r s => ⟨fun h => next_done_congr (if_neg (Bool.eq_false_iff.1 h)), fun h => next_done_congr (if_pos h)⟩,
    fun k s => ⟨fun h => next_done_congr (State.pllUnlock_of_unlocked h),
      fun h => next_done_congr (State.pllUnlock_of_locked h)⟩,
    fun c s => ⟨fun h => next_done_congr (State.refLost_core h),
      fun h1 h4 h => next_done_congr (State.refLost_fabric h1 h4 h),
      fun h5 h12 h => next_done_congr (State.refLost_host h5 h12 h),
      fun hp => ⟨next_done_congr (if_pos hp), fun h1 h4 => next_done_congr ((if_pos hp).trans (State.refBack_fabric h1 h4)),
        fun h5 h12 => next_done_congr ((if_pos hp).trans (State.refBack_host h5 h12))⟩⟩,
    fun tj hot mean s => ⟨fun h => next_done_congr (if_neg (Bool.eq_false_iff.1 h)),
      fun h => next_done_congr (if_pos h)⟩,
    fun s t => ⟨State.thermalWarn_counts, State.thermalWarn_known, State.thermalWarn_near, State.thermalWarn_cool,
      State.thermalTrip_cool, State.thermalTrip_warm, State.thermalTrip_trips⟩,
    fun e n _ h => h ▸ root80_bounds e,
    fun s => ⟨fun h => next_done_congr (State.life_of_off h), fun h =>
      ⟨fun hx => next_done_congr ((State.life_of_good h).trans (if_pos hx)),
        fun hx => next_done_congr ((State.life_of_good h).trans (if_neg (Bool.eq_false_iff.1 hx)))⟩⟩,
    fun a s => ⟨fun h => ⟨next_done_congr (State.setDasa_of_no h).1, next_done_congr (State.setDasa_of_no h).2⟩,
      fun h hd => ⟨next_done_congr (State.setDasa_of_yes h hd), ?entdaa⟩, rfl,
      fun h => next_done_congr (State.enec_of_none h), fun h => next_done_congr (State.enec_of_some h)⟩,
    fun a d c s => ⟨fun h => next_done_congr (if_neg (Bool.eq_false_iff.1 h)),
      fun h hb => next_done_congr ((if_pos h).trans (State.mbStart_of_busy hb)),
      fun h hb => ⟨fun hg => next_done_congr ((if_pos h).trans (State.mbStart_without_go hb hg)),
        fun hg hc => next_done_congr ((if_pos h).trans (State.mbStart_with_clock hb hg hc)),
        fun hg hc => next_done_congr ((if_pos h).trans (State.mbStart_without_clock hb hg hc))⟩⟩,
    fun s => ⟨fun t x r hb hg =>
        ⟨next_done_congr (State.mbDone_of_got hb hg).1, next_done_congr (State.mbDone_of_got hb hg).2⟩,
      fun h => next_done_congr (State.mbDone_of_none h), fun t hb hg => next_done_congr (State.mbLimit_of_waiting hb hg),
      fun h => next_done_congr (State.mbLimit_of_idle h)⟩,
    fun i op code guarded s h => ?tap,
    fun dr s => ⟨fun h => next_done_congr (State.regacc_of_running h),
      fun h hc => next_done_congr (State.regacc_without_clock h hc),
      fun h hc => next_done_congr (State.regacc_with_clock h hc)⟩⟩
  case entdaa =>
    rw [← State.i3cPid_fresh s 8]
    exact next_done_congr (State.entDaa_of_yes h hd)
  case tap =>
    obtain ⟨hexec, rfl, rfl, hid⟩ := exec_tap s h
    refine ⟨fun hg hno => ?_, fun hopen => ?_⟩
    · rw [hexec, State.jtagLoad_shut hg (mt (State.scanAllowed_iff s).1 hno)]
      rfl
    · rw [hexec, State.jtagLoad_open (hopen.imp_right (State.scanAllowed_iff s).2)]
      unfold State.tapLoaded
      simp only [hid, decide_eq_true_eq]

end Sys2Proof.Machine
end


section
/-!
SUPPORT. The journal of Reservoir: staged records, acknowledgements, restatement, seals, power failure and replay (R390 to R412).
-/
namespace Sys2Proof.Machine

section
variable {s : State}

/-! ### Records and the staging area (R395, R397, R399) -/

theorem JRec.toBytes_length (s : State) (r : JRec) (lsn : Nat) :
    (JRec.toBytes s r lsn).length = 64 * (JRec.layout s r).2.1 := by
  unfold JRec.toBytes fieldBytes
  dsimp only
  exact leBytes_length _ _

/-- A record's units do not depend on the state. -/
theorem JRec.units_eq (s t : State) (r : JRec) : (JRec.layout s r).2.1 = (JRec.layout t r).2.1 := by cases r <;> rfl

theorem State.lag_stageAt (s : State) (r : JRec) (latest : Bool) :
    (s.stageAt r latest).lag = s.lag + 64 * (JRec.layout s r).2.1 := by
  unfold State.lag State.stageAt
  dsimp only
  rw [List.map_append, List.sum_append, ← JRec.toBytes_length s r s.rsv.nextLsn]
  rfl

/-- A record of `m` bytes is staged under the next LSN at the next place. -/
def State.staged (u : State) (x : JRec) (m : Nat) : State := { u with rsv := { u.rsv with
  nextLsn := u.rsv.nextLsn + 1, ringOff := if u.ringBytes ≤ u.rsv.ringOff + m then 0 else u.rsv.ringOff + m
  staged := u.rsv.staged ++ [⟨u.rsv.nextLsn, x, u.rsv.ringOff, JRec.toBytes u x u.rsv.nextLsn, false, false⟩] } }

theorem State.stageAt_eq (s : State) (r : JRec) : s.stageAt r false = s.staged r (64 * (JRec.layout s r).2.1) := by
  unfold State.stageAt State.staged
  dsimp only
  rw [JRec.toBytes_length]

theorem State.stage_of_fits {r : JRec} (h : s.rsv.ringOff + 64 * (JRec.layout s r).2.1 ≤ s.ringBytes) :
    s.stage r = s.staged r (64 * (JRec.layout s r).2.1) ∧ (s.stage r).lag = s.lag + 64 * (JRec.layout s r).2.1 := by
  have hstage : s.stage r = s.stageAt r false := by
    unfold State.stage
    dsimp only
    rw [if_neg (Nat.not_lt.2 h)]
  rw [hstage]
  exact ⟨State.stageAt_eq s r, State.lag_stageAt s r false⟩

theorem State.stage_of_pad {r : JRec} (h : s.ringBytes < s.rsv.ringOff + 64 * (JRec.layout s r).2.1) :
    s.stage r = (s.staged .pad 64).staged r (64 * (JRec.layout s r).2.1) ∧
      (s.stage r).lag = s.lag + 64 + 64 * (JRec.layout s r).2.1 := by
  have hstage : s.stage r = (s.stageAt .pad false).stageAt r false := by
    unfold State.stage
    dsimp only
    rw [if_pos h]
  rw [hstage, JRec.units_eq s (s.stageAt .pad false) r]
  refine ⟨?_, ?_⟩
  · rw [State.stageAt_eq (s.stageAt .pad false) r, State.stageAt_eq s .pad]
    rfl
  · rw [State.lag_stageAt, State.lag_stageAt]
    rfl

/-! ### Writing the staged records (R397) -/

/-- The staged records that have not been written go to the target. -/
def State.writesStaged (s : State) : State := (s.rsv.staged.filter fun x => !x.written).foldl
  (fun (u : State) (x : Staged) => u.targetWrite (0x2000 + x.off) x.data) s

theorem State.writesStaged_rsv (s : State) : s.writesStaged.rsv = s.rsv := by
  unfold State.writesStaged
  refine List.foldlRecOn (motive := fun (u : State) => u.rsv = s.rsv) _ _ rfl fun u hu x _ => ?_
  have hkeep : (u.targetWrite (0x2000 + x.off) x.data).rsv = u.rsv :=
    (State.targetWrite_keeps (m := 65544) _ _ (.refl u) rfl).same .rsv rfl
  exact hkeep.trans hu

theorem State.journalFlush_of_all (h : ∀ x ∈ s.rsv.staged, x.written = true) : s.journalFlush = s :=
  State.journalFlush_of_written (List.all_eq_true.2 h)

theorem State.journalFlush_of_some (h : ∃ x ∈ s.rsv.staged, x.written = false) : s.journalFlush =
    { s.writesStaged with rsv := { s.writesStaged.rsv with
      staged := s.writesStaged.rsv.staged.map fun x => { x with written := true } } } := by
  obtain ⟨x, hx, hw⟩ := h
  exact if_neg fun hall => absurd (List.all_eq_true.1 hall x hx) (Bool.eq_false_iff.1 hw)

theorem State.journalFlush_staged (s : State) :
    s.journalFlush.rsv.staged = s.rsv.staged.map (fun x => { x with written := true }) := by
  by_cases h : ∀ x ∈ s.rsv.staged, x.written = true
  case pos =>
    rw [State.journalFlush_of_all h]
    refine ((List.map_congr_left fun x hx => ?_).trans (List.map_id _)).symm
    rw [← h x hx]
    rfl
  case neg =>
    push Not at h
    obtain ⟨x, hx, hw⟩ := h
    rw [State.journalFlush_of_some ⟨x, hx, Bool.eq_false_iff.2 hw⟩]
    dsimp only
    rw [State.writesStaged_rsv]

theorem State.lag_journalFlush (s : State) : s.journalFlush.lag = s.lag := by
  unfold State.lag
  rw [State.journalFlush_staged, List.map_map]
  rfl

/-! ### Acknowledgements and lost writes (R399, R412) -/

theorem State.journalAck_of_empty {ok : Bool} (h : s.rsv.staged = []) : s.journalAck ok = s := by
  unfold State.journalAck
  rw [h]

section
variable {x : Staged} {rest : List Staged} (h : s.rsv.staged = x :: rest)
include h

theorem State.journalAck_acknowledged :
    s.journalAck true = ({ s with rsv := { s.rsv with staged := rest } } : State).sealDrain := by
  unfold State.journalAck
  rw [h]
  rfl

theorem State.journalAck_refused (b : Bool) (hb : s.targetError.rsv.staged.isEmpty = b) : s.journalAck false =
    if b = true then s.targetError else s.targetError.targetWrite (0x2000 + x.off) x.data := by
  unfold State.journalAck
  rw [h]
  dsimp only
  rw [if_neg Bool.false_ne_true, hb]

end

/-! ### Power failure (R401, R477, R478) -/

/-- PWRFAIL_N has been low for 1.02 µs. -/
def State.pwrfailSeen (s : State) : State := (s.advance (s.pwr.pfAt + 1020000)).setFlag PWR_STATUS.pwrfail_seen 0 0 true

theorem State.pwrfailTake_of_no (h : s.pwr.pfLow = false ∨ s.pwr.pwrgood = false) : s.pwrfailTake = s := by
  refine if_pos ?_
  rcases h with h | h
  · rw [h]
    rfl
  · rw [h, Bool.not_false, Bool.or_true]

section
variable (h : s.pwr.pfLow = true) (hp : s.pwr.pwrgood = true)
include h hp

theorem State.pwrfailTake_eq : s.pwrfailTake =
    if (decide (s.pwrfailSeen.sec.step < 10) || s.pwrfailSeen.rsv.halt) = true then s.pwrfailSeen
    else ((if s.pwrfailSeen.rsvOn then s.pwrfailSeen else s.pwrfailSeen.squelchAll).sealStart 1).sealFromEdge :=
  if_neg (by rw [h, hp]; decide)

theorem State.pwrfailTake_seen (hno : s.pwrfailSeen.sec.step < 10 ∨ s.pwrfailSeen.rsv.halt = true) :
    s.pwrfailTake = s.pwrfailSeen := by
  rw [State.pwrfailTake_eq h hp, if_pos]
  rwa [Bool.or_eq_true, decide_eq_true_eq]

theorem State.pwrfailTake_seals (hb : 10 ≤ s.pwrfailSeen.sec.step) (hh : s.pwrfailSeen.rsv.halt = false) : s.pwrfailTake =
    ((if s.pwrfailSeen.rsvOn then s.pwrfailSeen else s.pwrfailSeen.squelchAll).sealStart 1).sealFromEdge := by
  rw [State.pwrfailTake_eq h hp, if_neg]
  rw [Bool.or_eq_true, decide_eq_true_eq, hh]
  exact not_or.2 ⟨Nat.not_lt.2 hb, Bool.false_ne_true⟩

end

theorem State.pwrfailPin_of_same {low : Bool} (h : s.pwr.pfLow = low) : s.pwrfailPin low = s := if_pos (by rw [h]; simp)

/-- The pin stands at its new level, since now. -/
def State.pinAt (u : State) (low : Bool) : State := { u with pwr := { u.pwr with pfLow := low, pfAt := u.now } }

theorem State.pwrfailPin_of_edge {low : Bool} (h : s.pwr.pfLow = !low) :
    s.pwrfailPin low = ((s.bootWaitEdge low).pinAt low).setFlag PWR_STATUS.pwrfail 0 0 low :=
  if_neg (by rw [h]; simp)

/-! ### The end of a seal (R400, R401) -/

theorem State.sealFlushed_of_none (h : s.rsv.sealing = none) : s.sealFlushed = s := by
  unfold State.sealFlushed
  rw [h]

section
variable {x : Seal} (h : s.rsv.sealing = some x)
include h

theorem State.sealFlushed_eq : s.sealFlushed =
    (let u := s.dropOther .seal
     if x.stage = 0 then u
     else if x.stage = 1 ∧ u.fld RSV_TARGET.kind 0 0 = 1 then
       let w : State := { u with rsv := { u.rsv with sealing := some { x with stage := 2 } } }
       w.emit (.dsGpf (w.fld RSV_TARGET.port 0 0) (w.fld RSV_TARGET.sublink 0 0) 2)
     else u.sealEnd x) := by
  unfold State.sealFlushed
  rw [h]

end

/-! ### Replay and quarantine (R404, R405) -/

theorem State.replayEnd_of_other {b : Bool} {t : Nat} (h : s.fld RSV_STATUS.state 0 0 ≠ 1) : s.replayEnd b t = s := if_pos h

section
variable {t : Nat} (h : s.fld RSV_STATUS.state 0 0 = 1)
include h

theorem State.replayEnd_of_read : s.replayEnd true t =
    ((s.advance (s.sec.bootAt + ms t)).replay.endReplayCores.releaseBlocks replayBlocks) :=
  (if_neg (not_not.2 h)).trans (if_pos rfl)

theorem State.replayEnd_of_unreadable : s.replayEnd false t =
    (let u := s.advance (s.sec.bootAt + ms t)
     let w : State := { u with rsv := { u.rsv with ring := [] } }
     (((w.fault 14 1 0).setFld RSV_STATUS.state 0 0 0).endReplayCores.distrust 6 replayBlocks)) :=
  (if_neg (not_not.2 h)).trans (if_neg Bool.false_ne_true)

end

theorem State.quarantineOver_of_none (h : s.rsv.quarantineEnd = none) : s.quarantineOver = s := by
  unfold State.quarantineOver
  rw [h]

theorem State.quarantineOver_of_some {t : Nat} (h : s.rsv.quarantineEnd = some t) : s.quarantineOver =
    { s.advance t with rsv := { (s.advance t).rsv with quarantineEnd := none } } := by
  unfold State.quarantineOver
  rw [h]

end

/-- Settles O56: each command of RSV is the branch that the journal's state takes; staging and flushing follow from
the lengths of the records. -/
theorem theJournalIsAcknowledgedRestatedSealedAndReplayed :
    Obligations.TheJournalIsAcknowledgedRestatedSealedAndReplayed := by
  refine ⟨JRec.toBytes_length, fun s r => ⟨State.stage_of_fits, State.stage_of_pad⟩,
    fun s => ⟨s.journalFlush_staged, s.lag_journalFlush, State.journalFlush_of_all, State.journalFlush_of_some⟩,
    fun ok s => ⟨fun h => next_done_congr (State.journalAck_of_empty h), fun x rest h =>
      ⟨next_done_congr (State.journalAck_acknowledged h), fun he => ?lost, fun hne => ?again⟩⟩,
    fun s => rfl,
    fun s => ⟨fun h => ?cycleOff, fun h => ?cycleEnd⟩,
    fun rate s => ⟨fun h => ?rateOff, fun h => ?rate⟩,
    fun s => ⟨fun h => next_done_congr (if_pos h), fun h => next_done_congr (if_neg (Bool.eq_false_iff.1 h))⟩,
    fun s => ⟨fun h => next_done_congr (State.pwrfailTake_of_no h), fun h hp =>
      ⟨fun hno => next_done_congr (State.pwrfailTake_seen h hp hno),
        fun hb hh => next_done_congr (State.pwrfailTake_seals h hp hb hh)⟩⟩,
    fun s => ⟨fun h => next_done_congr (State.pwrfailPin_of_same h), fun h => next_done_congr (State.pwrfailPin_of_same h),
      fun h => next_done_congr (State.pwrfailPin_of_edge h), fun h => next_done_congr (State.pwrfailPin_of_edge h)⟩,
    fun s low h => if_pos h,
    fun s => ⟨fun h => next_done_congr (State.sealFlushed_of_none h), fun x h =>
      ⟨fun h0 => next_done_congr ((State.sealFlushed_eq h).trans (if_pos h0)),
        fun h1 hk => next_done_congr ((State.sealFlushed_eq h).trans
          ((if_neg (by rw [h1]; decide)).trans (if_pos ⟨h1, hk⟩))),
        fun h1 hno => next_done_congr ((State.sealFlushed_eq h).trans
          ((if_neg (Nat.ne_of_gt h1)).trans (if_neg (not_and_or.2 hno))))⟩⟩,
    fun b t s => ⟨fun h => next_done_congr (State.replayEnd_of_other h), fun h =>
      ⟨next_done_congr (State.replayEnd_of_read h), next_done_congr (State.replayEnd_of_unreadable h)⟩⟩,
    fun s => rfl,
    fun s => ⟨fun h => next_done_congr (State.quarantineOver_of_none h),
      fun t h => next_done_congr (State.quarantineOver_of_some h)⟩⟩
  case lost => exact next_done_congr ((State.journalAck_refused h true (List.isEmpty_iff.2 he)).trans (if_pos rfl))
  case again =>
    exact next_done_congr ((State.journalAck_refused h false (List.isEmpty_eq_false_iff.2 hne)).trans
      (if_neg Bool.false_ne_true))
  case cycleOff => exact next_done_congr (if_pos (by rw [h]; rfl))
  case cycleEnd => exact next_done_congr (if_neg (by rw [h]; decide))
  case rateOff => exact next_done_congr (if_pos (by rw [h]; rfl))
  case rate => exact next_done_congr (if_neg (by rw [h]; decide))

end Sys2Proof.Machine
end
